-- ==== Sys2Proof/Word.lean ====
section
/-! DEFINITION. The word types of the device: every register is 32 bits wide (00_scope.md, "Registers"), memory is
byte addressed, and the engine computes in binary32, held as its 32 bits. -/

namespace Sys2Proof

/-- A 32-bit register or memory word. -/
abbrev Word := BitVec 32

/-- One byte of memory. -/
abbrev Byte := BitVec 8

/-- The 32 bits of an IEEE 754 binary32 value (R78). -/
abbrev F32 := BitVec 32

/-- A 128-bit V register (R69). -/
abbrev VWord := BitVec 128

end Sys2Proof
end

