-- ==== Sys2Proof/Syntax.lean ====
section
/-! DEFINITION. The commands the block takes: `Instr` has one constructor for each row of spec/opcode_table.json, with
the operands the row's rule gives it. An operand that names a lane, unit, leg, port … is a `Fin` of the number of them
the OLV8840 has (R2), so no command names one that does not exist; a smaller variant lacks some (R3). -/

namespace Sys2Proof

/-- The masters that access registers (R424). -/
inductive Master where
  | keeper
  | pcie
  | spi
  | cmd
  deriving DecidableEq, Repr

/-- The cores that execute Nimson instructions (R41). -/
inductive Proc where
  | lane (n : Fin 8)
  | keeper
  | safety
  deriving DecidableEq, Repr

/-- A JTAG instruction, as R448 tells them apart. -/
inductive JtagInstr where
  | idcode
  | bypass
  | other
  deriving DecidableEq, Repr

/-- A write of an MSI-X mask (R443): the mask of a vector cleared, or the function mask set or cleared. -/
inductive MsixMask where
  | vector (v : Fin 16)
  | function (set : Bool)
  deriving DecidableEq, Repr

/-- A cause that puts the main die into reset (R468), and for a supply cause the rail (R472). -/
inductive ResetCause where
  | pin
  | supply (rail : Fin 5)
  | powerUp
  | thermal
  | island
  deriving DecidableEq, Repr

/-- A clock failure as the clock monitor tells them apart (R477). -/
inductive ClockFault where
  | noReference
  | frequency
  | lockLost
  deriving DecidableEq, Repr

/-- A data frame on a CAN bus (R366): identifier in the places of w0, format bits, data length code, data bytes. -/
structure CanFrame where
  id : BitVec 29
  xtd : Bool
  fdf : Bool
  brs : Bool
  esi : Bool
  dlc : BitVec 4
  data : List Byte
  deriving DecidableEq, Repr

/-- The ball of input `n` of `k` inputs is high (`high`) or low, and has held that level for `held` filter samples or
nanoseconds, as the rule of the command counts; the input's polarity field says which level is the active one. -/
structure InputLevel (k : Nat) where
  n : Fin k
  high : Bool
  held : Nat
  deriving DecidableEq, Repr

/-- Input `n` of `k` inputs has held a new level for `held` filter samples or nanoseconds, as the rule of the command counts. -/
structure InputHeld (k : Nat) where
  n : Fin k
  held : Nat
  deriving DecidableEq, Repr

/-- A frame of the line as a receiver sees it (R343, R344): its characters, and whether it is the device's own one come round
and whether its sender is the neighbour on the ring. -/
structure LineFrame where
  own : Bool
  direct : Bool
  bytes : List Byte
  deriving DecidableEq, Repr

/-- A frame of controller `n` that began at instant `sof` (R375). -/
structure CanStart where
  n : Fin 4
  sof : Nat
  deriving DecidableEq, Repr

/-- What an error on the bus counts for (R373, by ISO 11898-1): an error that the controller detects; one that the standard
exempts in a transmitter, being an acknowledgement error of an error passive controller that sees no dominant bit in its own
error flag, or a stuff error in arbitration on a recessive stuff bit; a bit error in an active error flag or an overload flag;
a dominant bit first after the error flag; a run of dominant bits after the flag, as the standard counts them. -/
inductive CanErrorCause where
  | detected
  | exempt
  | inFlag
  | afterFlag
  | dominant
  deriving DecidableEq, Repr

/-- A start-of-frame opportunity at controller `n`; `other` says that another node's frame begins too, or alone (R370). -/
structure CanOpening where
  n : Fin 4
  other : Bool
  deriving DecidableEq, Repr

/-- What an error on a CAN bus counts for, and the loop delay in minimum time quanta where the frame got past its FDF-to-res
edge (R363, R373). -/
structure CanError where
  cause : CanErrorCause
  delay : Option Nat
  deriving DecidableEq, Repr

/-- What a sleeping controller sees (R380): dominant time in nominal bit times, and the frame where a valid one ends. -/
structure WakeInput where
  bits : Nat
  frame : Option CanFrame
  deriving DecidableEq, Repr

/-- How far an erase runs (R457, R458): the keeper's steps done, and whether every byte reads back as zero. -/
structure EraseRun where
  erased : Bool
  steps : Fin 7
  deriving DecidableEq, Repr

/-- The commands of the block: one constructor per row of spec/opcode_table.json. -/
inductive Instr where
  /-- SAMPLE_POINT (R19). At each tick start on the grid E + m × T, the decimators, SAR and feedback ports latch, uplink bursts start and TIME_TICK_COUNT advances. -/
  | samplePoint
  /-- HEADBOX_READY (R19). At t = 1.5 µs all front-end entries of the tick become visible at once and the compute window opens. -/
  | headboxReady
  /-- COUCH (R53). At t = T − L every closed commit group takes effect across the device, and the units, arms, axes, cams and governor evaluate. -/
  | couch
  /-- LAST_TICK_END (R28). After an accepted stop the running tick ends, running clears, bound domains stop and RUN lanes return to READY. -/
  | lastTickEnd
  /-- START_TICK (R27). A write of 1 to TIME_TICK_CTL.run makes the start checks in order and makes the start pending or refuses it. -/
  | startTick
  /-- STOP_TICK (R28). A write of 0 to run is accepted only while all units and converters are safe, and it cancels a pending start or ends the run at the end of the tick. -/
  | stopTick
  /-- PPSO_SECOND (R35). With ppso_en at 1, PPSO rises at each whole second of global time. -/
  | ppsoSecond
  /-- PPSO_PULSE_END (R35). PPSO returns low 10 µs after each whole second. -/
  | ppsoPulseEnd
  /-- PPSI_EDGE (R32). A rising edge of PPSI is stamped into TIME_PPSI_LO and TIME_PPSI_HI together. -/
  | ppsiEdge (ph : Fin 4)
  /-- TIME_NOW_READ (R31). A read of TIME_NOW_LO latches the upper half of the same instant into the reading master's own latch. -/
  | timeNowRead (m : Master)
  /-- GPIO_STAMP_READ (R31). A read of GPIO_STAMP_LO latches GPIO_STAMP_HI for the reading master. -/
  | gpioStampRead (m : Master)
  /-- CAN_TIMESTAMP_READ (R375). A read of CAN_TS_LO latches CAN_TS_HI for the reading master. -/
  | canTimestampRead (n : Fin 4) (m : Master)
  /-- READ_CLEAR (R10). A read of an RC field returns its value and clears it, keeping increments made in the same cycle. -/
  | readClear (m : Master) (addr : Nat) (inc : Word)
  /-- SLICE_START (R46). At its start cycle a slice starts on its lane with reset registers, after its overlay tiles have been staged. -/
  | sliceStart (idx : Fin 256)
  /-- BUDGET_EXPIRY (R62). When a slice reaches its budget without YIELD, the monitor stops it, abandons the current instruction and discards the group with OVERRUN. -/
  | budgetExpiry (n : Fin 8)
  /-- SCRUB_CHECK (R49). Every 100 ms / 3,072 the scrubber checks the next tile's watermark, passing over quarantined tiles. -/
  | scrubCheck
  /-- TILE_REFETCH (R502). Within 1 ms of a quarantine, the keeper starts re-fetching the program tile from the boot flash. -/
  | tileRefetch
  /-- TILE_REFETCH_DONE (R502). The re-fetch completes, and the quarantine is lifted if the written tile's CRC matches its watermark. -/
  | tileRefetchDone
  /-- TABLE_TILE_WRITE (R52). A host write into a table tile's window quarantines the tile. -/
  | tableTileWrite (m : Master) (off : Fin 0x100000) (be : BitVec 4) (val : Word)
  /-- PROGRAM_WINDOW_WRITE (R504). A host write into program memory in START, TEST or RECOVERY changes the tile but no watermark or quarantine. -/
  | programWindowWrite (m : Master) (off : Fin 0x200000) (be : BitVec 4) (val : Word)
  /-- TILE_WM_COMMIT (R52). A write of a tile number to TILE_WM_COMMIT makes the keeper start recomputing the tile's CRC. -/
  | tileWmCommit (tile : Fin 1024)
  /-- WM_CHECK_DONE (R52). The keeper's rewrite check ends: a match stores the watermark and lifts the quarantine, and a mismatch sets mismatch and raises EV18. -/
  | wmCheckDone
  /-- CTX_RESTART (R64). A write of 1 to CTX_CTL.restart resumes a halted context when its drives are safe, or sets restart_rejected. -/
  | ctxRestart (n : Fin 64)
  /-- KEEPER_WATCHDOG (R455). When the keeper has not served its watchdog for 10 ms, EV59 is raised and every converter is demanded into PULSE_BLOCK. -/
  | keeperWatchdog
  /-- VERSION (R65). The keeper serves a VERSION request and writes the firmware version as result. -/
  | version
  /-- DECKLE_GET (R65). The keeper returns the deckle value in force for a drive and quantity. -/
  | deckleGet
  /-- DECKLE_NARROW (R65). The keeper lowers a deckle quantity at the next couch or refuses a higher value. -/
  | deckleNarrow
  /-- DECKLE_RESTORE (R65). The keeper returns a drive's deckle to its configured values, capped by derating, at the next couch. -/
  | deckleRestore
  /-- SAFETY_SEND (R65). The keeper queues a word to the safety core. -/
  | safetySend
  /-- SAFETY_READ (R65). The keeper returns the oldest word from the safety core, or REFUSED when there is none. -/
  | safetyRead
  /-- TILE_QUERY (R65). The keeper reports whether a tile is quarantined. -/
  | tileQuery
  /-- HALT_SELF (R65). The keeper serves a HALT_SELF request and halts the calling context with halt_cause 0 from the next tick start. -/
  | haltSelf
  /-- UNKNOWN_SERVICE (R66). An unknown service number returns status UNKNOWN with a zero result. -/
  | unknownService
  /-- ADD (R82). Sd = Sa + Sb, wrapping. -/
  | add (c : Proc) (p : BitVec 3) (d a b : BitVec 5)
  /-- SUB (R82). Sd = Sa − Sb, wrapping. -/
  | sub (c : Proc) (p : BitVec 3) (d a b : BitVec 5)
  /-- AND (R82). Bitwise AND of two S registers. -/
  | and (c : Proc) (p : BitVec 3) (d a b : BitVec 5)
  /-- OR (R82). Bitwise OR of two S registers. -/
  | or (c : Proc) (p : BitVec 3) (d a b : BitVec 5)
  /-- XOR (R82). Bitwise XOR of two S registers. -/
  | xor (c : Proc) (p : BitVec 3) (d a b : BitVec 5)
  /-- SHL (R82). Logical left shift by Sb[4:0]. -/
  | shl (c : Proc) (p : BitVec 3) (d a b : BitVec 5)
  /-- SHR (R82). Logical right shift by Sb[4:0]. -/
  | shr (c : Proc) (p : BitVec 3) (d a b : BitVec 5)
  /-- SAR (R82). Arithmetic right shift by Sb[4:0]. -/
  | sar (c : Proc) (p : BitVec 3) (d a b : BitVec 5)
  /-- SLT (R82). Sd = 1 if Sa < Sb as signed values, else 0. -/
  | slt (c : Proc) (p : BitVec 3) (d a b : BitVec 5)
  /-- SLTU (R82). Sd = 1 if Sa < Sb as unsigned values, else 0. -/
  | sltu (c : Proc) (p : BitVec 3) (d a b : BitVec 5)
  /-- MIN (R82). Signed minimum of two S registers. -/
  | min (c : Proc) (p : BitVec 3) (d a b : BitVec 5)
  /-- MAX (R82). Signed maximum of two S registers. -/
  | max (c : Proc) (p : BitVec 3) (d a b : BitVec 5)
  /-- MUL (R82). Low 32 bits of the signed product. -/
  | mul (c : Proc) (p : BitVec 3) (d a b : BitVec 5)
  /-- MULH (R82). High 32 bits of the signed 64-bit product. -/
  | mulh (c : Proc) (p : BitVec 3) (d a b : BitVec 5)
  /-- DIV (R77). Signed division rounding toward zero, with DZ and SAT for the special cases. -/
  | div (c : Proc) (p : BitVec 3) (d a b : BitVec 5)
  /-- REM (R77). Signed remainder with the sign of the dividend, setting DZ on a zero divisor. -/
  | rem (c : Proc) (p : BitVec 3) (d a b : BitVec 5)
  /-- ADDS (R82). Saturating addition, setting SAT. -/
  | adds (c : Proc) (p : BitVec 3) (d a b : BitVec 5)
  /-- SUBS (R82). Saturating subtraction, setting SAT. -/
  | subs (c : Proc) (p : BitVec 3) (d a b : BitVec 5)
  /-- ADDI (R82). Adds a sign-extended immediate. -/
  | addi (c : Proc) (p : BitVec 3) (d a : BitVec 5) (imm : BitVec 13)
  /-- ANDI (R82). ANDs a zero-extended immediate. -/
  | andi (c : Proc) (p : BitVec 3) (d a : BitVec 5) (imm : BitVec 13)
  /-- ORI (R82). ORs a zero-extended immediate. -/
  | ori (c : Proc) (p : BitVec 3) (d a : BitVec 5) (imm : BitVec 13)
  /-- XORI (R82). XORs a zero-extended immediate. -/
  | xori (c : Proc) (p : BitVec 3) (d a : BitVec 5) (imm : BitVec 13)
  /-- SHLI (R82). Logical left shift by an immediate amount. -/
  | shli (c : Proc) (p : BitVec 3) (d a : BitVec 5) (amt : BitVec 5)
  /-- SHRI (R82). Logical right shift by an immediate amount. -/
  | shri (c : Proc) (p : BitVec 3) (d a : BitVec 5) (amt : BitVec 5)
  /-- SARI (R82). Arithmetic right shift by an immediate amount. -/
  | sari (c : Proc) (p : BitVec 3) (d a : BitVec 5) (amt : BitVec 5)
  /-- LUI (R82). Sd = imm18 << 14. -/
  | lui (c : Proc) (p : BitVec 3) (d : BitVec 5) (imm : BitVec 18)
  /-- LLI (R82). Sd = Sd OR imm[13:0]. -/
  | lli (c : Proc) (p : BitVec 3) (d : BitVec 5) (imm : BitVec 14)
  /-- CMP_EQ (R82). Sets Pd to 0xFF if Sa equals Sb, else 0. -/
  | cmpEq (c : Proc) (p : BitVec 3) (d a b : BitVec 5)
  /-- CMP_NE (R82). Sets Pd to 0xFF if Sa differs from Sb. -/
  | cmpNe (c : Proc) (p : BitVec 3) (d a b : BitVec 5)
  /-- CMP_LT (R82). Sets Pd to 0xFF if Sa < Sb, signed. -/
  | cmpLt (c : Proc) (p : BitVec 3) (d a b : BitVec 5)
  /-- CMP_GE (R82). Sets Pd to 0xFF if Sa ≥ Sb, signed. -/
  | cmpGe (c : Proc) (p : BitVec 3) (d a b : BitVec 5)
  /-- CMP_LTU (R82). Sets Pd to 0xFF if Sa < Sb, unsigned. -/
  | cmpLtu (c : Proc) (p : BitVec 3) (d a b : BitVec 5)
  /-- CMP_GEU (R82). Sets Pd to 0xFF if Sa ≥ Sb, unsigned. -/
  | cmpGeu (c : Proc) (p : BitVec 3) (d a b : BitVec 5)
  /-- FCMP_EQ (R78). fp32 equality compare into Pd, false for NaN. -/
  | fcmpEq (c : Proc) (p : BitVec 3) (d a b : BitVec 5)
  /-- FCMP_LT (R78). fp32 less-than compare into Pd, false for NaN. -/
  | fcmpLt (c : Proc) (p : BitVec 3) (d a b : BitVec 5)
  /-- FCMP_LE (R78). fp32 less-or-equal compare into Pd, false for NaN. -/
  | fcmpLe (c : Proc) (p : BitVec 3) (d a b : BitVec 5)
  /-- FCMP_UN (R78). fp32 unordered compare into Pd, true for any NaN operand. -/
  | fcmpUn (c : Proc) (p : BitVec 3) (d a b : BitVec 5)
  /-- PAND (R82). Bitwise AND of two P registers. -/
  | pand (c : Proc) (p : BitVec 3) (d a b : BitVec 5)
  /-- POR (R82). Bitwise OR of two P registers. -/
  | por (c : Proc) (p : BitVec 3) (d a b : BitVec 5)
  /-- PXOR (R82). Bitwise XOR of two P registers. -/
  | pxor (c : Proc) (p : BitVec 3) (d a b : BitVec 5)
  /-- PNOT (R82). Bitwise inverse of a P register. -/
  | pnot (c : Proc) (p : BitVec 3) (d a : BitVec 5)
  /-- PSET (R82). Pd = 0xFF if Sa is non-zero, else 0. -/
  | pset (c : Proc) (p : BitVec 3) (d a : BitVec 5)
  /-- FADD (R78). fp32 addition under the rounding and NaN rules. -/
  | fadd (c : Proc) (p : BitVec 3) (d a b : BitVec 5)
  /-- FSUB (R78). fp32 subtraction. -/
  | fsub (c : Proc) (p : BitVec 3) (d a b : BitVec 5)
  /-- FMUL (R78). fp32 multiplication. -/
  | fmul (c : Proc) (p : BitVec 3) (d a b : BitVec 5)
  /-- FMA (R78). Sd = Sd + Sa × Sb with one rounding. -/
  | fma (c : Proc) (p : BitVec 3) (d a b : BitVec 5)
  /-- FDIV (R78). fp32 division, setting DZ for a non-zero value divided by zero. -/
  | fdiv (c : Proc) (p : BitVec 3) (d a b : BitVec 5)
  /-- FSQRT (R78). fp32 square root. -/
  | fsqrt (c : Proc) (p : BitVec 3) (d a : BitVec 5)
  /-- FMIN (R78). fp32 minimum with the NaN and signed-zero rules. -/
  | fmin (c : Proc) (p : BitVec 3) (d a b : BitVec 5)
  /-- FMAX (R78). fp32 maximum with the NaN and signed-zero rules. -/
  | fmax (c : Proc) (p : BitVec 3) (d a b : BitVec 5)
  /-- FABS (R82). Clears the sign bit. -/
  | fabs (c : Proc) (p : BitVec 3) (d a : BitVec 5)
  /-- FNEG (R82). Inverts the sign bit. -/
  | fneg (c : Proc) (p : BitVec 3) (d a : BitVec 5)
  /-- FCLAMP (R82). Clamps Sd between Sa and Sb, setting SAT if it changed. -/
  | fclamp (c : Proc) (p : BitVec 3) (d a b : BitVec 5)
  /-- FTOI (R80). Converts fp32 to int32 with ties to even and saturation. -/
  | ftoi (c : Proc) (p : BitVec 3) (d a : BitVec 5)
  /-- ITOF (R82). Converts int32 to fp32. -/
  | itof (c : Proc) (p : BitVec 3) (d a : BitVec 5)
  /-- FTOQ (R80). Converts fp32 to Q(16−n).n by R8, sign-extended. -/
  | ftoq (c : Proc) (p : BitVec 3) (d a b : BitVec 5)
  /-- QTOF (R80). Converts Q(16−n).n to fp32 exactly. -/
  | qtof (c : Proc) (p : BitVec 3) (d a b : BitVec 5)
  /-- FCLASS (R82). Classifies an fp32 value as zero, normal, infinity or NaN, with its sign. -/
  | fclass (c : Proc) (p : BitVec 3) (d a : BitVec 5)
  /-- LWL (R83). Loads a word from lane local data. -/
  | lwl (c : Proc) (p : BitVec 3) (d a : BitVec 5) (imm : BitVec 13)
  /-- SWL (R83). Stores a word to lane local data. -/
  | swl (c : Proc) (p : BitVec 3) (d a : BitVec 5) (imm : BitVec 13)
  /-- LWD (R84). Loads a word from data memory in the lane's access slot. -/
  | lwd (c : Proc) (p : BitVec 3) (d a : BitVec 5) (imm : BitVec 13)
  /-- SWD (R84). Stores a word to data memory in the lane's access slot. -/
  | swd (c : Proc) (p : BitVec 3) (d a : BitVec 5) (imm : BitVec 13)
  /-- LWH (R83). Loads a headbox word. -/
  | lwh (c : Proc) (p : BitVec 3) (d a : BitVec 5) (imm : BitVec 13)
  /-- LWT (R82). Loads a word of An's open table tile. -/
  | lwt (c : Proc) (p : BitVec 3) (d a : BitVec 5) (w : BitVec 8)
  /-- VLL (R83). Loads 16 bytes from local data into a V register. -/
  | vll (c : Proc) (p : BitVec 3) (d a : BitVec 5) (imm : BitVec 13)
  /-- VSL (R83). Stores 16 bytes of a V register to local data. -/
  | vsl (c : Proc) (p : BitVec 3) (d a : BitVec 5) (imm : BitVec 13)
  /-- VLD (R84). Loads 16 bytes from data memory. -/
  | vld (c : Proc) (p : BitVec 3) (d a : BitVec 5) (imm : BitVec 13)
  /-- VSD (R84). Stores 16 bytes to data memory. -/
  | vsd (c : Proc) (p : BitVec 3) (d a : BitVec 5) (imm : BitVec 13)
  /-- VLH (R83). Loads 16 bytes from the headbox. -/
  | vlh (c : Proc) (p : BitVec 3) (d a : BitVec 5) (imm : BitVec 13)
  /-- VLT (R82). Loads words w to w+3 of An's open tile. -/
  | vlt (c : Proc) (p : BitVec 3) (d a : BitVec 5) (w : BitVec 8)
  /-- VADD_F (R82). Element-wise fp32 addition. -/
  | vaddF (c : Proc) (p : BitVec 3) (d a b : BitVec 5)
  /-- VSUB_F (R82). Element-wise fp32 subtraction. -/
  | vsubF (c : Proc) (p : BitVec 3) (d a b : BitVec 5)
  /-- VMUL_F (R82). Element-wise fp32 multiplication. -/
  | vmulF (c : Proc) (p : BitVec 3) (d a b : BitVec 5)
  /-- VFMA_F (R78). Element-wise Vd = Vd + Va × Vb with one rounding. -/
  | vfmaF (c : Proc) (p : BitVec 3) (d a b : BitVec 5)
  /-- VMIN_F (R78). Element-wise fp32 minimum. -/
  | vminF (c : Proc) (p : BitVec 3) (d a b : BitVec 5)
  /-- VMAX_F (R78). Element-wise fp32 maximum. -/
  | vmaxF (c : Proc) (p : BitVec 3) (d a b : BitVec 5)
  /-- VDOT_F (R78). Four-element fp32 dot product in the fixed pairwise order. -/
  | vdotF (c : Proc) (p : BitVec 3) (d a b : BitVec 5)
  /-- VCMPLT_F (R82). Element-wise fp32 less-than into predicate bit pairs. -/
  | vcmpltF (c : Proc) (p : BitVec 3) (d a b : BitVec 5)
  /-- VCMPEQ_F (R82). Element-wise fp32 equality into predicate bit pairs. -/
  | vcmpeqF (c : Proc) (p : BitVec 3) (d a b : BitVec 5)
  /-- VADD_H (R81). Saturating int16 element-wise addition. -/
  | vaddH (c : Proc) (p : BitVec 3) (d a b : BitVec 5)
  /-- VSUB_H (R81). Saturating int16 element-wise subtraction. -/
  | vsubH (c : Proc) (p : BitVec 3) (d a b : BitVec 5)
  /-- VMULQ_H (R81). Rounded Q15 element-wise multiplication with saturation. -/
  | vmulqH (c : Proc) (p : BitVec 3) (d a b : BitVec 5)
  /-- VCVT_FH (R80). Converts four fp32 elements to Q1.15 int16 elements. -/
  | vcvtFh (c : Proc) (p : BitVec 3) (d a : BitVec 5)
  /-- VCVT_HF (R80). Converts four Q1.15 int16 elements to fp32. -/
  | vcvtHf (c : Proc) (p : BitVec 3) (d a : BitVec 5)
  /-- VSPLAT (R82). Sets every fp32 element to Sa. -/
  | vsplat (c : Proc) (p : BitVec 3) (d a : BitVec 5)
  /-- VINS (R82). Writes Sa into element i. -/
  | vins (c : Proc) (p : BitVec 3) (d a b : BitVec 5)
  /-- VEXT (R82). Reads element i into Sd. -/
  | vext (c : Proc) (p : BitVec 3) (d a b : BitVec 5)
  /-- VSHUF (R82). Permutes the elements by a selector. -/
  | vshuf (c : Proc) (p : BitVec 3) (d a : BitVec 5) (sel : BitVec 8)
  /-- VCLARKE (R90). Clarke transform of three phase values. -/
  | vclarke (c : Proc) (p : BitVec 3) (d a : BitVec 5)
  /-- VPARK (R90). Park transform by an angle. -/
  | vpark (c : Proc) (p : BitVec 3) (d a b : BitVec 5)
  /-- VIPARK (R90). Inverse Park transform by an angle. -/
  | vipark (c : Proc) (p : BitVec 3) (d a b : BitVec 5)
  /-- VSINCOS (R89). Sine, cosine and fractional part of an angle in revolutions. -/
  | vsincos (c : Proc) (p : BitVec 3) (d a : BitVec 5)
  /-- VSVM (R91). Space-vector modulation into three duties and a sector. -/
  | vsvm (c : Proc) (p : BitVec 3) (d a b : BitVec 5)
  /-- VPI (R92). PI controller step with output limits and anti-windup. -/
  | vpi (c : Proc) (p : BitVec 3) (d a b : BitVec 5)
  /-- VLIM (R93). Limits the magnitude of a two-element vector. -/
  | vlim (c : Proc) (p : BitVec 3) (d a b : BitVec 5)
  /-- LUT (R94). Linear interpolation in a table of An's open tile. -/
  | lut (c : Proc) (p : BitVec 3) (d a b : BitVec 5)
  /-- BR (R86). Jumps forward to a slot and word when the predicate permits. -/
  | br (c : Proc) (p : BitVec 3) (slot : BitVec 5) (word : BitVec 8)
  /-- LOOP (R87). Repeats the following len instructions min(Sa, max) times. -/
  | loop (c : Proc) (a : BitVec 5) (max : BitVec 12) (len : BitVec 6)
  /-- STG (R95). Stages a value to an owned couchable target in the context's felt. -/
  | stg (c : Proc) (p : BitVec 3) (cv : Bool) (a b : BitVec 5)
  /-- TCOMMIT (R53). Closes the context's group for the tick for commit at the couch. -/
  | tcommit (c : Proc) (p : BitVec 3)
  /-- TABORT (R57). Closes the context's group for discard with cause TABORT. -/
  | tabort (c : Proc) (p : BitVec 3)
  /-- TOPEN (R84). Checks a table tile's watermark and copies it into An's open-tile buffer. -/
  | topen (c : Proc) (p : BitVec 3) (d a : BitVec 5)
  /-- NOP (R82). No operation. -/
  | nop (c : Proc) (p : BitVec 3)
  /-- YIELD (R88). Ends the slice without closing the group. -/
  | yield (c : Proc) (p : BitVec 3)
  /-- EVT (R96). Raises EV62 or EV63 with Sa[15:0] as payload. -/
  | evt (c : Proc) (p : BitVec 3) (a : BitVec 5) (src : Bool)
  /-- MFS (R98). Reads LST, cycle count, tick, context, lane, time or loop index into Sd. -/
  | mfs (c : Proc) (p : BitVec 3) (d : BitVec 5) (sel : BitVec 5)
  /-- MTS (R98). Writes Sa[2:0] into LST. -/
  | mts (c : Proc) (p : BitVec 3) (a : BitVec 5) (sel : BitVec 5)
  /-- CALLK (R97). Posts one keeper service request per tick and returns without waiting. -/
  | callk (c : Proc) (p : BitVec 3) (svc : BitVec 8) (a b : BitVec 5)
  /-- ILLEGAL_INSTRUCTION (R73). An undefined or ill-formed word takes one cycle and raises a lane exception ILLEGAL. -/
  | illegalInstruction (c : Proc) (w : Word)
  /-- DEBUG_HALT (R460). A halt request or JTAG halt in FIELD_OPEN with the line off halts every lane, freezes the tick and raises EV58, or sets halt_refused otherwise. -/
  | debugHalt (jtag : Bool)
  /-- BREAKPOINT_HIT (R101). A lane reaching an enabled breakpoint address halts all lanes before executing it. -/
  | breakpointHit (n : Fin 8)
  /-- DEBUG_STEP (R101). A write of step executes one instruction on the lane while halted. -/
  | debugStep (n : Fin 8)
  /-- DEBUG_RESUME (R462). A resume continues the tick phase, shifts the tick epoch by the halt duration and raises EV58. -/
  | debugResume
  /-- DEBUG_DATA_WRITE (R101). A write to ENG_DBG_DATAm changes the selected register only while halted. -/
  | debugDataWrite (n : Fin 8) (k : Fin 4) (val : Word)
  /-- SDC_ENABLE (R102). A write of 1 to SNS_SDC_CLKm.en starts the clock at the next timebase edge or refuses an out-of-range div. -/
  | sdcEnable (m : Fin 4)
  /-- SD_ENABLE (R110). A write of 1 to SNS_SD_CFGn.en enables the channel after the role and osr checks, or sets cfg_error. -/
  | sdEnable (n : Fin 40)
  /-- FAST_ENABLE (R107). A write of 1 to fast_en enables the fast path if its latency is at most 1,000 ns, else sets fast_refused. -/
  | fastEnable (n : Fin 40)
  /-- SD_IDLE_OUTPUT (R106). While the tick is stopped, each enabled channel writes a control output into raw every 10 µs from its enable. -/
  | sdIdleOutput (n : Fin 40)
  /-- SAR_ENABLE (R116). A write of 1 to SNS_SAR_CTL.en makes the DUP, ROLE and PAIR checks and starts the sequencer or records the error. -/
  | sarEnable
  /-- SAR_SLOT_DONE (R113). A SAR conversion slot completes and its results are held for the headbox. -/
  | sarSlotDone (slot : Fin 16) (c0 c1 : BitVec 16)
  /-- SAR_IDLE_SEQUENCE (R114). While the tick is stopped the SAR sequence runs every 10 µs from its enable and updates SNS_AIN_RESi. -/
  | sarIdleSequence (codes : BitVec 512)
  /-- OBSERVER_UPDATE (R144). Once per tick between 1,000 and 1,500 ns the PM observer estimates the back-EMF and tracks angle and speed. -/
  | observerUpdate (n : Fin 8)
  /-- OBSERVER_VALID (R145). After 64 consecutive good ticks obs_valid becomes 1. -/
  | observerValid (n : Fin 8)
  /-- OBSERVER_LOSS (R145). After 2^loss_k bad ticks the observer declares a loss, raises EV23 and demands loss_action. -/
  | observerLoss (n : Fin 8)
  /-- FLD_ENABLE (R125). A write of 1 to FLD_CTL.en makes the enable checks, copies fields and tables and enters READY. -/
  | fldEnable (n : Fin 8)
  /-- FLD_DISABLE (R126). A write of 0 to FLD_CTL.en enters OFF in OFF, READY and SAFE, or sets stop_rejected. -/
  | fldDisable (n : Fin 8)
  /-- TEST_PULSE (R147). An alignment or catch test pulse begins, and its current is captured at its end at a sample point. -/
  | testPulse (n : Fin 8)
  /-- MAGNETISE_DONE (R153). The IM magnetising time after a frequency search expires. -/
  | magnetiseDone (n : Fin 8)
  /-- LOCKED_ROTOR (R159). When the locked-rotor timer reaches its window, EV21 is raised and the action is demanded. -/
  | lockedRotor (n : Fin 8)
  /-- OVERSPEED (R160). Speed above the limit at two consecutive couches raises EV22 and demands the action. -/
  | overspeed (n : Fin 8)
  /-- RIDE_THROUGH_ENTER (R165). vdc below enter at two consecutive couches starts ride-through. -/
  | rideThroughEnter (n : Fin 8)
  /-- RIDE_THROUGH_END (R166). Ride-through ends after 16 couches of zero demand, or fails below the speed floor. -/
  | rideThroughEnd (n : Fin 8)
  /-- LIMP_CLEAR (R168). A write of 1 to FLD_CMD.limp_clear ends limp-home if no cause persists, or sets limp_rejected. -/
  | limpClear (n : Fin 8)
  /-- MOD_ENABLE (R173). A write of 1 to MOD_CTL.en makes the domain checks and starts or waits the carrier. -/
  | modEnable (d : Fin 8)
  /-- MOD_DISABLE (R173). A write of 0 to MOD_CTL.en stops the carrier and turns every leg off. -/
  | modDisable (d : Fin 8)
  /-- RELOAD_EVENT (R175). At a reload event every slot's shadow value becomes the value in force. -/
  | reloadEvent (d : Fin 8)
  /-- CARRIER_ZERO_EVENT (R174). The carrier reaches c = 0, which counts toward reloads, bootstrap periods and PSYNCO. -/
  | carrierZeroEvent (d : Fin 8)
  /-- CARRIER_PEAK_EVENT (R174). The carrier reaches c = H, which counts toward reloads. -/
  | carrierPeakEvent (d : Fin 8)
  /-- PWM_COMMAND_EDGE (R183). A command edge of a slot turns off the released switch and tests the new pulse against t_min. -/
  | pwmCommandEdge (d : Fin 8) (j : Fin 6)
  /-- DEAD_TIME_END (R182). td_eff after a command edge the requested switch turns on unless cancelled. -/
  | deadTimeEnd (n : Fin 18)
  /-- DUTY_HOST_WRITE (R179). A host write to a duty or compare enters the shadow and acts at the next reload, late if in the reload cycle. -/
  | dutyHostWrite (d : Fin 8) (k : Fin 9) (val : BitVec 20)
  /-- HOLD_RELEASE (R181). A write of 0 to MOD_HOST_CTL.hold releases every collected value at the next reload. -/
  | holdRelease (d : Fin 8)
  /-- GATE_CFG_WRITE (R189). A write to GATE_CFGn acts at once on a disabled leg and is ignored with wr_ignored on an enabled one. -/
  | gateCfgWrite (n : Fin 18) (val : Word)
  /-- LEG_ENABLE (R191). A change of GATE_CMDn.en from 0 to 1 makes the leg checks and enables the leg or records the error. -/
  | legEnable (n : Fin 18)
  /-- BOOTSTRAP_REFRESH (R192). When K periods pass without a refresh, at a zero event GH turns off and GL is turned on for the refresh width. -/
  | bootstrapRefresh (n : Fin 18)
  /-- REFRESH_END (R192). The refresh width expires, GL turns off and GH turns back on after dead time. -/
  | refreshEnd (n : Fin 18)
  /-- PSYNCI_EDGE (R195). A rising PSYNCI edge loads MD0's carrier with MOD_SYNC.offset 8 ns later. -/
  | psynciEdge
  /-- LANE_ENABLE (R212). A write of 1 to KYN_LANE_CTL.en enters TRAIN, or refuses with CHAIN or PERIOD. -/
  | laneEnable (n : Fin 16)
  /-- LANE_DISABLE (R212). A write of 0 to en enters OFF from any state and sends idle only. -/
  | laneDisable (n : Fin 16)
  /-- LANE_TRAIN_LOCK (R212). 64 valid characters in a row lock the lane, which enters IDENT and sends an IDENT frame. -/
  | laneTrainLock (n : Fin 16)
  /-- TRAIN_TIMEOUT (R212). 100 µs in TRAIN without lock return the lane to OFF with NO_LOCK. -/
  | trainTimeout (n : Fin 16)
  /-- IDENT_UPLINK_FRAME (R207). An uplink IDENT frame is checked for count, delays, revision and lead and leads to READY or OFF. -/
  | identUplinkFrame (n : Fin 16) (loop : Nat) (frame : List Byte)
  /-- IDENT_TIMEOUT (R212). No uplink IDENT frame within 100 µs returns the lane to OFF with COUNT. -/
  | identTimeout (n : Fin 16)
  /-- LANE_DIAG_CMD (R214). KYN_LANE_CMD op DIAG requests DIAG for a position or all, if allowed, else sets cmd_rejected. -/
  | laneDiagCmd (n : Fin 16) (position : BitVec 5) (all : Bool)
  /-- LANE_IDENT_CMD (R212). KYN_LANE_CMD op IDENT repeats the calibration from READY, else sets cmd_rejected. -/
  | laneIdentCmd (n : Fin 16)
  /-- READY_FRAME (R212). In READY the lane sends a NORMAL frame every 20 µs, with SYNC first and HOLD after. -/
  | readyFrame (n : Fin 16)
  /-- DOWNLINK_BURST (R202). 400 ns after the couch the downlink frame leaves on each running lane. -/
  | downlinkBurst (n : Fin 16)
  /-- UPLINK_FRAME (R215). A completed uplink frame is accepted or rejected, its good slots written to the headbox and its flags raise events. -/
  | uplinkFrame (n : Fin 16) (t : Nat) (frame : List Byte)
  /-- LANE_DOWN (R215). Loss of character alignment enters DOWN at once, raising EV13. -/
  | laneDown (n : Fin 16)
  /-- ARM_ENABLE (R227). A write of 1 to ARM_CTL.en makes the arm checks and sets the slots ACTIVE and SPARE. -/
  | armEnable (a : Fin 12)
  /-- ARM_DISABLE (R228). A write of 0 to ARM_CTL.en is accepted only without a bound enabled unit and resets the cells. -/
  | armDisable (a : Fin 12)
  /-- CELL_RETIRE (R241). A write of 1 to ARM_CELLc_CFG.retire fails the cell with cause HOST at the next couch, or sets retire_ignored. -/
  | cellRetire (c : Fin 384)
  /-- BYPASS_UNCONFIRMED (R243). No bypassed report within 16 couches sets bypass_unconfirmed and trips the converter. -/
  | bypassUnconfirmed (c : Fin 384)
  /-- SPREAD_LIMIT (R239). A cell voltage spread above spread_max at ticks consecutive couches raises EV12. -/
  | spreadLimit (a : Fin 12)
  /-- CIRC_LIMIT (R240). A circulating current above ic_max at ticks consecutive couches raises EV12 and sets circ. -/
  | circLimit (a : Fin 12)
  /-- GF_FAULT (R260). A filtered GF input outside blanking latches the leg off within 40 ns, raises EV2 and applies sc_pol. -/
  | gfFault (n : InputLevel 18)
  /-- GF_BLANKING_END (R259). The end of blanking detects a GF fault if the filtered input is then active. -/
  | gfBlankingEnd (n : Fin 18) (high : Bool)
  /-- GF_CLEAR (R260). A write of 1 to PROT_GFn.lat clears it if the input is inactive, else sets clr_rej. -/
  | gfClear (n : Fin 18) (high : Bool)
  /-- DRDY_LOSS (R262). A filtered loss of DRDYb latches the bridge off, raises EV15 and demands PULSE_BLOCK in class 2. -/
  | drdyLoss (b : InputLevel 6)
  /-- DRDY_CLEAR (R262). A write to the DRDY latch clears it only while readiness is present. -/
  | drdyClear (b : Fin 6) (high : Bool)
  /-- FAST_OVERCURRENT (R265). A channel's fast signal asserting demands oc_state in class 3 within 40 ns and raises EV3. -/
  | fastOvercurrent (ch : Fin 40) (high : Bool)
  /-- OV2_DETECT (R270). The DC-link channel's high comparator raises EV4 and demands ASC_LOW or PULSE_BLOCK in class 4. -/
  | ov2Detect (k : Fin 8)
  /-- TRIP_INPUT (R266). A trip input completing its filter sets its latch, raises EV8 and demands its action in class 5. -/
  | tripInput (m : InputLevel 8)
  /-- TRIP_CLEAR (R268). A write to PROT_TRIP_CLR clears a latch only while its input is inactive. -/
  | tripClear (mask : BitVec 8) (high : BitVec 8)
  /-- UNDERVOLTAGE (R269). vdc below uv at two consecutive couches while armed raises EV6 and demands uv_state in class 4. -/
  | undervoltage (k : Fin 8)
  /-- VDC_LOST (R269). vdc invalid at three consecutive couches sets vdc_lost, raises EV6 and demands uv_state. -/
  | vdcLost (k : Fin 8)
  /-- CHOPPER_DECISION (R271). 100 ns after headbox ready each chopper turns on or off by its levels and minimum times and runs its effectiveness check. -/
  | chopperDecision
  /-- GOVERNOR_IDLE_DECISION (R272). While the tick is stopped, the chopper and governor decide 100 ns after each SAR sequence. -/
  | governorIdleDecision
  /-- CHOPPER_CF_FAULT (R273). A filtered CF input outside blanking is a chopper fault that holds CHPn off and raises EV7. -/
  | chopperCfFault (n : InputLevel 4)
  /-- CHOPPER_FAULT_CLEAR (R275). A write of 1 to fault clears it only while CFn is inactive, else sets clr_rej. -/
  | chopperFaultClear (n : Fin 4) (high : Bool)
  /-- PROT_ENABLE (R252). A write of 1 to PROT_CVk_CTL.en makes the converter checks and enables protection in PULSE_BLOCK. -/
  | protEnable (k : Fin 8)
  /-- PROT_DISABLE (R252). A write of 0 to PROT_CVk_CTL.en holds the converter in PULSE_BLOCK class 10 at once. -/
  | protDisable (k : Fin 8)
  /-- RELEASE (R258). A write of 1 to PROT_CVk_CMD.release returns the state to NONE at the next couch if nothing persists, else sets release_rejected. -/
  | release (k : Fin 8)
  /-- HOST_REQUEST (R257). A write of PROT_CVk_CMD.req demands a safe state in class 10. -/
  | hostRequest (k : Fin 8) (req : BitVec 3)
  /-- RAMP_TIMEOUT (R254). A RAMP_DOWN not ended within ramp_max × 100 ms becomes PULSE_BLOCK and sets ramp_timeout. -/
  | rampTimeout (k : Fin 8)
  /-- DIAG_START (R276). A write of 1 to PROT_DIAG_CTL.start starts the pre-start diagnosis of a converter or refuses it. -/
  | diagStart (k : Fin 8)
  /-- DIAG_ABORT (R276). A write of abort ends the diagnosis with error 3. -/
  | diagAbort
  /-- DIAG_STEP_END (R278). A phase-bias step ends after settle ms, its voltages are read and the next step or the classification follows. -/
  | diagStepEnd
  /-- MMC_DIAG_END (R277). The MMC diagnosis ends when every cell has reported or 2 ms have passed, counting results and raising EV60. -/
  | mmcDiagEnd
  /-- PORT_ENABLE (R284). A write of 1 to FBK_CTL.en makes the port checks and starts the port. -/
  | portEnable (n : Fin 8)
  /-- PORT_DISABLE (R284). A write of 0 to FBK_CTL.en stops the port, disarms its compare and makes it invalid. -/
  | portDisable (n : Fin 8)
  /-- ILLEGAL_TRANSITION (R285). Both tracks changing in one sample count no step, increment illegal and may raise EV29. -/
  | illegalTransition (n : InputHeld 8)
  /-- INDEX (R293). An active index edge references the port or checks and responds to its deviation. -/
  | index (n : InputLevel 8)
  /-- AMPLITUDE_FAULT (R287). amp2 outside its window for more than amp_n conversions raises EV28. -/
  | amplitudeFault (n : Fin 8)
  /-- SSI_FRAME_START (R288). lead before a selected sample point the SSI port starts its clock frame and latches its measurement instant. -/
  | ssiFrameStart (n : Fin 8) (data : Bool)
  /-- SSI_FRAME_END (R290). The SSI frame completes and is decoded or discarded as bad. -/
  | ssiFrameEnd (n : Fin 8) (bits : BitVec 40)
  /-- FEEDBACK_OBSERVER_UPDATE (R294). Between 1,000 and 1,500 ns of the tick each port's tracking observer corrects with its measurement. -/
  | feedbackObserverUpdate (n : Fin 8)
  /-- FEEDBACK_IDLE_CYCLE (R294). While the tick is stopped each port's observer runs every 100 µs. -/
  | feedbackIdleCycle (n : Fin 8)
  /-- PORT_SETTLED (R295). The required number of ticks after enable or clear passes and the port may become valid. -/
  | portSettled (n : Fin 8)
  /-- PORT_CLEAR (R295). A write of 1 to FBK_CMD.clear clears the fault and restarts the observer if the condition is absent. -/
  | portClear (n : Fin 8)
  /-- REF_CLEAR (R295). A write of 1 to FBK_CMD.ref_clear clears referenced. -/
  | refClear (n : Fin 8)
  /-- COMPARE_ARM (R298). A write to FBK_CMP_CFG arms or disarms the position compare. -/
  | compareArm (n : Fin 8) (val : Word)
  /-- COMPARE_HIT (R298). pos passing the compare value raises EV32, advances the value and may drive the GPIO pulse. -/
  | compareHit (n : Fin 8)
  /-- COMPARE_PULSE_END (R299). The compare GPIO returns low after w × 40 ns. -/
  | comparePulseEnd (n : Fin 8)
  /-- EMULATION_ENABLE (R300). A write of 1 to FBK_EE_CFG.en starts the encoder emulation from zero. -/
  | emulationEnable (m : Fin 2)
  /-- EMULATOR_STEP (R300). After the gap, the emulator steps its count one toward the target and updates EA, EB and EZ. -/
  | emulatorStep (m : Fin 2)
  /-- AXIS_ENABLE (R308). A write of 1 to MOT_CTL.en makes the axis checks and enters WAIT. -/
  | axisEnable (n : Fin 8)
  /-- AXIS_DISABLE (R309). A write of 0 to MOT_CTL.en is accepted in OFF, WAIT, HOLD and PARK only. -/
  | axisDisable (n : Fin 8)
  /-- STOP_REQUEST (R317). A write of 1 to MOT_CTL.stop stops a move or homing with cause REQUEST. -/
  | stopRequest (n : Fin 8)
  /-- HOME_COMMAND (R323). A write of 1 to MOT_CTL.home starts homing when allowed, else sets cmd_rejected. -/
  | homeCommand (n : Fin 8)
  /-- AXIS_CLEAR (R321). A write of 1 to MOT_CTL.clear clears the hard-limit latch and sync inhibit when conditions allow. -/
  | axisClear (n : Fin 8)
  /-- OFFSET_WRITE (R325). A host write to MOT_OFS changes the axis position and clears homed. -/
  | offsetWrite (n : Fin 8) (val : Word)
  /-- LIMIT_SWITCH_CHANGE (R321). A debounced switch change is captured and, outside HOME, raises EV35 and demands MOT_SW.action. -/
  | limitSwitchChange (n : Fin 8) (high : Bool) (held : Nat)
  /-- CHATTER (R322). More than chat_n raw changes within chat_w raise EV35 and latch the hard limit. -/
  | chatter (n : Fin 8) (high : Bool)
  /-- FOLLOWING_ERROR (R317). A position error above the limit at two consecutive couches is a FERR fault. -/
  | followingError (n : Fin 8)
  /-- STANDSTILL_TIMER (R330). The standstill timer reaching stand_t parks the axis and raises EV40. -/
  | standstillTimer (n : Fin 8)
  /-- BRAKE_TIMER (R331). brake_t after PARK the axis changes its run request to OFF or SHORT. -/
  | brakeTimer (n : Fin 8)
  /-- RELEASE_TIMER (R332). rel_t after the brake release the held command starts. -/
  | releaseTimer (n : Fin 8)
  /-- SLACK (R336). Slack held for slack_t sets slack, and is a SLACK fault in PAYOUT_HAUL. -/
  | slack (n : Fin 8)
  /-- SYNC_ERROR (R338). Motor speeds differing beyond sync_tol at eight couches set sync_err and a SYNC fault. -/
  | syncError (n : Fin 8)
  /-- CAM_ENABLE (R326). A write of 1 to MOT_CAMm_CFG.en verifies and copies the points and enables the cam, or refuses. -/
  | camEnable (m : Fin 16)
  /-- LINE_ENABLE (R344). A write of 1 to SHFT_CTL.en enters FORMING or refuses with CONFIG. -/
  | lineEnable
  /-- LINE_LEAVE (R360). A write of 0 to SHFT_CTL.en leaves the line at once and makes the device standalone. -/
  | lineLeave
  /-- HELLO_SEND (R344). Every 20 µs in FORMING the device sends HELLO on both rings. -/
  | helloSend
  /-- HELLO_FRAME (R344). A received HELLO is checked and may bring a ring up or record a formation failure. -/
  | helloFrame (ringB own direct : Bool) (frame : List Byte)
  /-- FORMATION_TIMEOUT (R344). 10 ms with no ring up records TIMEOUT. -/
  | formationTimeout
  /-- LINK_DELAY_MEASURE (R346). Every 10 ms the device measures the round-trip delay on each ring that is up. -/
  | linkDelayMeasure (ringB : Bool) (rtt : BitVec 17) (sum : BitVec 16)
  /-- SYNC_SEND (R347). The master sends a SYNC frame every 50 µs on both rings. -/
  | syncSend
  /-- SYNC_FRAME (R347). A follower takes the master's time from a SYNC frame and steps, holds or slews its counter. -/
  | syncFrame (ringB : Bool) (frame : LineFrame)
  /-- TIME_LOSS (R38). No usable SYNC for 1 ms puts the follower in holdover and raises EV43. -/
  | timeLoss
  /-- EXCH_SEND (R348). 300 ns after each couch the device sends its EXCH frame on both rings. -/
  | exchSend
  /-- EXCH_FRAME (R349). A received EXCH frame is accepted, discarded as second copy, late or bad CRC. -/
  | exchFrame (ringB : Bool) (t : Nat) (frame : LineFrame)
  /-- RECEIVE_AREA_WRITE (R352). At 1,400 ns of each tick the receive area is written and member ages advance. -/
  | receiveAreaWrite
  /-- RING_DOWN (R353). Loss of alignment or three ticks without a member's frame take a ring down and raise EV42. -/
  | ringDown (ringB alignment : Bool)
  /-- RING_UP (R353). 16 consecutive good ticks bring a ring back up and raise EV42. -/
  | ringUp (ringB : Bool)
  /-- MAIL_SEND (R354). Up to four RG14 entries per tick are sent as MAIL frames while a ring is up. -/
  | mailSend
  /-- MAIL_FRAME (R354). A received MAIL frame for this device writes its first good copy into RG15. -/
  | mailFrame (ringB : Bool) (frame : LineFrame)
  /-- LOAD_SHARE_ENABLE (R356). A write of 1 to SHFT_LSd_CFG.en checks UNIT, MODE and SOURCE and activates the function. -/
  | loadShareEnable (d : Fin 8)
  /-- LOAD_SHARE_RESUME (R357). A write to SHFT_CMD.resume blends a function back to linked over 64 couches if allowed. -/
  | loadShareResume (drives : BitVec 8)
  /-- CAN_ENABLE (R364). A write of 1 to CAN_CTL.en makes the timing checks and starts integration. -/
  | canEnable (n : Fin 4)
  /-- CAN_INTEGRATED (R364). After 11 recessive bits the controller takes part in bus traffic. -/
  | canIntegrated (n : Fin 4)
  /-- CAN_DISABLE (R364). A write of 0 to en acts at the end of the frame in progress and clears requests and counters. -/
  | canDisable (n : Fin 4)
  /-- CAN_MODE_CHANGE (R365). A change to NORMAL or RESTRICTED acts at the next bus idle. -/
  | canModeChange (n : Fin 4)
  /-- CAN_FRAME_RECEIVED (R367). A valid data frame is stored in the lowest matching object, or counted as nomatch. -/
  | canFrameReceived (n : Fin 4) (frame : CanFrame) (sof : Nat)
  /-- REMOTE_FRAME (R361). A remote frame is acknowledged and ignored. -/
  | remoteFrame (n : CanStart)
  /-- CAN_BUS_ERROR (R373). A bus error updates the error counters and confinement state. -/
  | canBusError (n : Fin 4) (lec : Fin 7) (tx : Bool) (e : CanError)
  /-- TX_REQUEST (R370). A request bit for a buffer or object sets it pending. -/
  | txRequest (n : Fin 4) (k : Fin 4) (mask : Word)
  /-- TX_CANCEL (R371). A cancel of a pending buffer clears it if not on the bus. -/
  | txCancel (n : Fin 4) (mask : BitVec 3)
  /-- TX_SELECT (R370). At a start-of-frame opportunity the controller selects a pending candidate and starts transmission. -/
  | txSelect (n : CanOpening)
  /-- TX_DONE (R370). A successful transmission clears pending, stamps the object and sets tx_done. -/
  | txDone (n : Fin 4) (sof : Nat) (delay : Nat)
  /-- ARBITRATION_LOST (R372). Lost arbitration leads to reselection, or a one-shot failure. -/
  | arbitrationLost (n : Fin 4)
  /-- OBJECT_WRITE (R371). A write to a pending buffer or object is ignored and sets wr_ignored. -/
  | objectWrite (n : Fin 4) (obj : Fin 99) (word : Fin 20) (be : BitVec 4) (val : Word)
  /-- OBJECT_READ_LATCH (R369). A read of w0 latches the whole object for the following reads. -/
  | objectReadLatch (n : Fin 4) (obj : Fin 99) (m : Master)
  /-- CAN_RECOVER (R373). A write of recover in bus-off starts the bus-off recovery. -/
  | canRecover (n : Fin 4)
  /-- BUS_OFF_RECOVERED (R373). After 128 × 11 recessive bits the controller becomes error active. -/
  | busOffRecovered (n : Fin 4)
  /-- REFERENCE_MESSAGE_TIMER (R377). The time master requests a reference message at each ref_period. -/
  | referenceMessageTimer (n : Fin 4)
  /-- REFERENCE_MESSAGE (R378). A reference message sets the cycle start, updates CAN_TTSTS and raises EV48. -/
  | referenceMessage (n : Fin 4) (frame : CanFrame) (sof : Nat)
  /-- REFERENCE_LOST (R378). No reference message for 2 × ref_period sets ref_lost. -/
  | referenceLost (n : Fin 4)
  /-- TT_TRIGGER (R379). A time-triggered object becomes a candidate at its offset in its cycle. -/
  | ttTrigger (n : Fin 4) (obj : Fin 96)
  /-- RG12_FRAME_TAKE (R376). With ring_tx, the controller takes the next RG12 frame and sends it through TXB2. -/
  | rg12FrameTake (n : Fin 4)
  /-- SLEEP_ENTER (R380). A write of mode 2 puts the controller to sleep at the next bus idle. -/
  | sleepEnter (n : Fin 4)
  /-- WAKE (R380). A dominant level or matching frame wakes the controller and sets wake. -/
  | wake (n : Fin 4) (frame : WakeInput) (sof : Nat)
  /-- SAFETY_SAMPLE (R390). Every 50 µs both channels sample the SIN balls and evaluate the pair states and outputs. -/
  | safetySample (die core : BitVec 25) (back : BitVec 20)
  /-- SAFETY_TICK (R390). At each 1 ms safety tick the channels exchange permit words and run discrepancy timers. -/
  | safetyTick (exchange toDie toCore : Bool) (sosc core : Nat)
  /-- DISCREPANCY (R394). A discrepancy timer reaching disc locks out the pair with DISC. -/
  | discrepancy (n : Fin 12)
  /-- PERMIT_LOSS (R387). No valid permit word for 2 ms turns a channel's outputs off and locks out with CHANNEL. -/
  | permitLoss (core : Bool)
  /-- TPO_PULSE (R392). TPOm pulses low for tp_w once per test period. -/
  | tpoPulse (m : Fin 8)
  /-- SS1_EXPIRY (R402). The SS1 timer expiry turns the output off. -/
  | ss1Expiry (n : Fin 8)
  /-- SBC_DELAY_EXPIRY (R403). sbc_dly after its STO turns off the brake is applied. -/
  | sbcDelayExpiry (m : Fin 2)
  /-- OUTPUT_TEST (R405). Once per 1,000 ticks each on ball is pulsed off for out_tp × 100 µs. -/
  | outputTest (ball : Fin 20) (high : Bool)
  /-- SAFETY_RESET_PULSE (R399). The falling edge of a valid SRESET pulse resets eligible pairs and may leave device LOCKOUT. -/
  | safetyResetPulse
  /-- GATE_ENABLE_LOSS (R386). The gate-enable net going inactive sets every gate buffer to high impedance and holds every converter in class 1. -/
  | gateEnableLoss
  /-- SELF_TEST_DONE (R389). Both channels finish their self-test and leave INIT. -/
  | selfTestDone
  /-- SAFETY_STORE_HANDOVER (R412). The keeper hands the stored set and confirmed value to both channels as a load. -/
  | safetyStoreHandover
  /-- PARAMETER_LOAD (R410). A write of SAFE_PLOAD.start hands a set to both channels, or is refused while outputs are on. -/
  | parameterLoad (val : Word)
  /-- PARAMETER_CHECK_DONE (R410). Both channels' checks end, the set is accepted or perr written, and the safety store updated. -/
  | parameterCheckDone (agree : Bool)
  /-- COMMISSIONING_KEY (R411). A write of 0xC3A5 to SAFE_COMM_KEY arms SAFE_CONFIRM for one write. -/
  | commissioningKey (val : Word)
  /-- CONFIRM (R411). An armed write to SAFE_CONFIRM equal to SAFE_PCRC confirms the set, else sets confirm_bad. -/
  | confirm (val : Word)
  /-- RELEASE_REQUEST (R404). A write of SAFE_REQ.rel_host asks for an SBC release. -/
  | releaseRequest (mask : BitVec 2)
  /-- UNLOCK_REQUEST (R404). A write of SAFE_REQ.unlock_host asks for a guard unlock. -/
  | unlockRequest (mask : BitVec 2)
  /-- SAFETY_FRAME_RECEIVED (R415). A consumer safety frame is checked, accepted and echoed, or rejected into FAILSAFE. -/
  | safetyFrameReceived (c : Fin 8) (copy : Bool)
  /-- CONSUMER_WATCHDOG (R415). The consumer watchdog expiry enters FAILSAFE and raises EV50. -/
  | consumerWatchdog (c : Fin 8)
  /-- PRODUCER_SEND (R416). A producer sends a DATA frame every period. -/
  | producerSend (c : Fin 8)
  /-- ECHO_FRAME (R416). A producer checks a received echo of its frame. -/
  | echoFrame (c : Fin 8) (copy : Bool)
  /-- ECHO_TIMEOUT (R416). A missing echo within wd raises EV50 and enters FAILSAFE. -/
  | echoTimeout (c : Fin 8)
  /-- PERST (R421). PERST_N changes affect the endpoint alone and raise EV54. -/
  | perst (level : Bool)
  /-- LINK_CHANGE (R421). A PCIe link up or down change raises EV54. -/
  | linkChange (up : Bool)
  /-- POWER_STATE_CHANGE (R421). Entry to or return from D3hot keeps registers and raises EV54. -/
  | powerStateChange (d3 : Bool)
  /-- SPI_WRITE (R423). A WRITE frame writes each complete word at ascending addresses. -/
  | spiWrite (addr : Word) (data : List Word)
  /-- SPI_READ (R423). A READ frame returns words from the address upward. -/
  | spiRead (addr : Word) (count : Nat)
  /-- SPI_STATUS (R423). A STATUS frame returns the drop, frame-error and phase status. -/
  | spiStatus
  /-- SPI_FRAME_ERROR (R423). An unknown command or frame ending in the address raises EV54. -/
  | spiFrameError
  /-- REGISTER_WRITE (R424). A write to a register with no row of its own, under the key guard, secure gate and held-value rules. -/
  | registerWrite (m : Master) (addr : Nat) (be : BitVec 4) (val : Word) (hw : Word)
  /-- MASKED_WRITE (R426). A write to a masked alias sets selected bits of MW fields in one cycle. -/
  | maskedWrite (m : Master) (addr : Nat) (val : Word)
  /-- LOCK_KEY (R428). A write to DEV_LOCK_KEY opens or closes the writing master's lock. -/
  | lockKey (m : Master) (val : Word)
  /-- LOCK_LAPSE (R428). An open lock without a write for 1 ms closes and sets lapsed. -/
  | lockLapse (m : Master)
  /-- RING_CONFIG (R431). A write to RING_CFGn resets head and tail and enables or disables the ring. -/
  | ringConfig (n : Fin 16) (val : Word)
  /-- DOORBELL (R432). A host tail write is accepted and raises EV51, or is ignored with idx_bad. -/
  | doorbell (n : Fin 16) (val : Word)
  /-- HEAD_WRITE (R432). A host head write frees entries, or is ignored with idx_bad. -/
  | headWrite (n : Fin 16) (val : Word)
  /-- COMMAND_TAKE (R435). In SERVICE the keeper takes one command from the highest eligible ring and advances its head. -/
  | commandTake
  /-- CMD_NOP (R436). The NOP command returns a response with no results. -/
  | cmdNop
  /-- CMD_VERSION (R436). The VERSION command returns the keeper firmware version. -/
  | cmdVersion
  /-- TIME_READ (R436). The TIME_READ command returns the global time at execution. -/
  | timeRead
  /-- REG_READ (R436). The REG_READ command reads 1–6 BAR0 addresses in order. -/
  | regRead
  /-- REG_WRITE (R436). The REG_WRITE command writes 1–3 address and value pairs. -/
  | regWrite
  /-- DECKLE_CONFIG (R437). The DECKLE_CONFIG command replaces a configured deckle value under the key guard. -/
  | deckleConfig
  /-- DECKLE_READ (R436). The DECKLE_READ command returns a drive's eight configured deckle values. -/
  | deckleRead
  /-- UNKNOWN_OPCODE (R436). Any other opcode gives a response with status UNKNOWN. -/
  | unknownOpcode
  /-- EVENT_LOG_WRITE (R441). No earlier than 1 µs after its stamp a queued record is written to RG8 in stamp order. -/
  | eventLogWrite
  /-- VECTOR_ACK (R443). A write of 1 to EVT_VECv.ack resends the vector's message if its level is 1. -/
  | vectorAck (v : Fin 16)
  /-- MSIX_UNMASK (R443). Clearing an MSI-X mask sends a message held in the PBA. -/
  | msixUnmask (mask : MsixMask)
  /-- FORERUNNER_READ (R445). A read of an EVT_FRm alias reads the native register with its side effects. -/
  | forerunnerRead (m : Master) (k : Fin 24)
  /-- PORST_RELEASE (R449). Release of the main-die reset latches the boot straps and the loader boots, verifies and admits the image or enters RECOVERY. -/
  | porstRelease (straps : BitVec 3) (erased : EraseRun)
  /-- BOOT_GO (R452). A write of 1 to DEV_BOOT.go in START or RECOVERY boots the host-written image, and with program at 1 flashes it. -/
  | bootGo (program : Bool)
  /-- TOKEN (R457). A write of SEC_TOKEN.go checks an unlock or scrap token and runs the erase and state change. -/
  | token (erased : EraseRun)
  /-- JTAG_INSTRUCTION (R448). A JTAG instruction not permitted in a closed state selects BYPASS and raises EV59. -/
  | jtagInstruction (ir : JtagInstr)
  /-- TMX_SELECT (R459). A write to DBG_TMX_SELk selects a TMX signal or drives it low and sets tmx_denied. -/
  | tmxSelect (k : Fin 8) (code : BitVec 8)
  /-- MAIN_DIE_RESET (R468). PORST_N low, a rail outside its window, a clock failure, thermal reset or island loss resets the main die. -/
  | mainDieReset (cause : ResetCause)
  /-- SAFETY_DIE_RESET (R470). SPORST_N low or SVDD outside its window resets the safety die and turns its outputs off. -/
  | safetyDieReset
  /-- SAFETY_DIE_RELEASE (R470). Release of the safety die's reset enters INIT and starts its self-test. -/
  | safetyDieRelease (xtal : Bool)
  /-- PLL_LOCK (R476). Both main PLL loops lock, global time starts and the clock monitor arms. -/
  | pllLock
  /-- RSTOUT_RELEASE (R471). RSTOUT_N is released 1 ms after the main PLL locks. -/
  | rstoutRelease
  /-- CLOCK_FAILURE (R477). A missing or out-of-range reference or loss of PLL lock resets the main die. -/
  | clockFailure (cause : ClockFault)
  /-- SUPPLY_MEASUREMENT (R473). Each 1 ms the rail voltages are measured, and a rail leaving its warning window raises EV55. -/
  | supplyMeasurement (rail : Fin 6) (mv : BitVec 12)
  /-- TEMPERATURE_READING (R474). Each 1 ms the junction sensors are read, raising EV56 above warn. -/
  | temperatureReading (code : BitVec 11)
  /-- GPIO_EDGE (R499). An enabled filtered GPIO edge raises EV61 and is stamped. -/
  | gpioEdge (n : InputHeld 16) (level : Bool) (ph : Fin 4)
  /-- SD_LATCHING_EDGE (R108). At each latching edge of its clock a sigma-delta channel takes a bit, evaluates its sinc2 fast filter and comparators, sets or deasserts its fast over-current signal, and advances its settling and stuck checks. -/
  | sdLatchingEdge (n : Fin 40) (bit : Bool)
  /-- QUADRATURE_COUNT (R285). A legal change of the filtered A and B tracks counts one step up or down in pos and ang, clamps at the soft limits and raises EV34 on arrival there, and feeds compare and emulation. -/
  | quadratureCount (n : InputHeld 8) (trackB : Bool)
  /-- COUNTER_HOLD_END (R37). A follower that holds its global-time counter because the master's time was earlier resumes counting with the master once the master's time reaches the held value. -/
  | counterHoldEnd
  deriving DecidableEq, Repr

end Sys2Proof
end

