-- ==== Sys2Proof/WellFormed.lean ====
section
/-! DEFINITION. Which commands are well formed. For a Nimson instruction: its fields obey R73 and the limits of its row in
R82, and the instruction exists on the core (R82); one that is not is an ILLEGAL word, whose meaning the machine gives.
Every other command is well formed: the types of its operands hold what the interface can carry, and a frame or a list of
words of a wrong length is an input that its meaning answers. -/

namespace Sys2Proof

/-- A V register number names V0–V15 (R73). -/
def okV (r : BitVec 5) : Bool := r.toNat < 16
/-- A P or A register number names 0–7 (R73). -/
def okP (r : BitVec 5) : Bool := r.toNat < 8

/-- Where an instruction exists (R82): on all cores, on lanes and keeper core, on lanes only. -/
inductive Cores where
  | A
  | K
  | L
  deriving DecidableEq, Repr

/-- The instruction exists on the core. -/
def Cores.has : Cores → Proc → Bool
  | .A, _ => true
  | .K, .safety => false
  | .K, _ => true
  | .L, .lane _ => true
  | .L, _ => false

/-- The core a Nimson instruction is for; `none` for every other command. -/
def instrCore : Instr → Option Proc
  | .add c _ _ _ _ => some c
  | .sub c _ _ _ _ => some c
  | .and c _ _ _ _ => some c
  | .or c _ _ _ _ => some c
  | .xor c _ _ _ _ => some c
  | .shl c _ _ _ _ => some c
  | .shr c _ _ _ _ => some c
  | .sar c _ _ _ _ => some c
  | .slt c _ _ _ _ => some c
  | .sltu c _ _ _ _ => some c
  | .min c _ _ _ _ => some c
  | .max c _ _ _ _ => some c
  | .mul c _ _ _ _ => some c
  | .mulh c _ _ _ _ => some c
  | .div c _ _ _ _ => some c
  | .rem c _ _ _ _ => some c
  | .adds c _ _ _ _ => some c
  | .subs c _ _ _ _ => some c
  | .addi c _ _ _ _ => some c
  | .andi c _ _ _ _ => some c
  | .ori c _ _ _ _ => some c
  | .xori c _ _ _ _ => some c
  | .shli c _ _ _ _ => some c
  | .shri c _ _ _ _ => some c
  | .sari c _ _ _ _ => some c
  | .lui c _ _ _ => some c
  | .lli c _ _ _ => some c
  | .cmpEq c _ _ _ _ => some c
  | .cmpNe c _ _ _ _ => some c
  | .cmpLt c _ _ _ _ => some c
  | .cmpGe c _ _ _ _ => some c
  | .cmpLtu c _ _ _ _ => some c
  | .cmpGeu c _ _ _ _ => some c
  | .fcmpEq c _ _ _ _ => some c
  | .fcmpLt c _ _ _ _ => some c
  | .fcmpLe c _ _ _ _ => some c
  | .fcmpUn c _ _ _ _ => some c
  | .pand c _ _ _ _ => some c
  | .por c _ _ _ _ => some c
  | .pxor c _ _ _ _ => some c
  | .pnot c _ _ _ => some c
  | .pset c _ _ _ => some c
  | .fadd c _ _ _ _ => some c
  | .fsub c _ _ _ _ => some c
  | .fmul c _ _ _ _ => some c
  | .fma c _ _ _ _ => some c
  | .fdiv c _ _ _ _ => some c
  | .fsqrt c _ _ _ => some c
  | .fmin c _ _ _ _ => some c
  | .fmax c _ _ _ _ => some c
  | .fabs c _ _ _ => some c
  | .fneg c _ _ _ => some c
  | .fclamp c _ _ _ _ => some c
  | .ftoi c _ _ _ => some c
  | .itof c _ _ _ => some c
  | .ftoq c _ _ _ _ => some c
  | .qtof c _ _ _ _ => some c
  | .fclass c _ _ _ => some c
  | .lwl c _ _ _ _ => some c
  | .swl c _ _ _ _ => some c
  | .lwd c _ _ _ _ => some c
  | .swd c _ _ _ _ => some c
  | .lwh c _ _ _ _ => some c
  | .lwt c _ _ _ _ => some c
  | .vll c _ _ _ _ => some c
  | .vsl c _ _ _ _ => some c
  | .vld c _ _ _ _ => some c
  | .vsd c _ _ _ _ => some c
  | .vlh c _ _ _ _ => some c
  | .vlt c _ _ _ _ => some c
  | .vaddF c _ _ _ _ => some c
  | .vsubF c _ _ _ _ => some c
  | .vmulF c _ _ _ _ => some c
  | .vfmaF c _ _ _ _ => some c
  | .vminF c _ _ _ _ => some c
  | .vmaxF c _ _ _ _ => some c
  | .vdotF c _ _ _ _ => some c
  | .vcmpltF c _ _ _ _ => some c
  | .vcmpeqF c _ _ _ _ => some c
  | .vaddH c _ _ _ _ => some c
  | .vsubH c _ _ _ _ => some c
  | .vmulqH c _ _ _ _ => some c
  | .vcvtFh c _ _ _ => some c
  | .vcvtHf c _ _ _ => some c
  | .vsplat c _ _ _ => some c
  | .vins c _ _ _ _ => some c
  | .vext c _ _ _ _ => some c
  | .vshuf c _ _ _ _ => some c
  | .vclarke c _ _ _ => some c
  | .vpark c _ _ _ _ => some c
  | .vipark c _ _ _ _ => some c
  | .vsincos c _ _ _ => some c
  | .vsvm c _ _ _ _ => some c
  | .vpi c _ _ _ _ => some c
  | .vlim c _ _ _ _ => some c
  | .lut c _ _ _ _ => some c
  | .br c _ _ _ => some c
  | .loop c _ _ _ => some c
  | .stg c _ _ _ _ => some c
  | .tcommit c _ => some c
  | .tabort c _ => some c
  | .topen c _ _ _ => some c
  | .nop c _ => some c
  | .yield c _ => some c
  | .evt c _ _ _ => some c
  | .mfs c _ _ _ => some c
  | .mts c _ _ _ => some c
  | .callk c _ _ _ _ => some c
  | _ => none

/-- The fields of a Nimson instruction obey R73, and it exists on its core (R82). -/
def fieldsOk : Instr → Bool
  | .add _ _ _ _ _ => true
  | .sub _ _ _ _ _ => true
  | .and _ _ _ _ _ => true
  | .or _ _ _ _ _ => true
  | .xor _ _ _ _ _ => true
  | .shl _ _ _ _ _ => true
  | .shr _ _ _ _ _ => true
  | .sar _ _ _ _ _ => true
  | .slt _ _ _ _ _ => true
  | .sltu _ _ _ _ _ => true
  | .min _ _ _ _ _ => true
  | .max _ _ _ _ _ => true
  | .mul _ _ _ _ _ => true
  | .mulh _ _ _ _ _ => true
  | .div _ _ _ _ _ => true
  | .rem _ _ _ _ _ => true
  | .adds _ _ _ _ _ => true
  | .subs _ _ _ _ _ => true
  | .addi _ _ _ _ _ => true
  | .andi _ _ _ _ _ => true
  | .ori _ _ _ _ _ => true
  | .xori _ _ _ _ _ => true
  | .shli _ _ _ _ _ => true
  | .shri _ _ _ _ _ => true
  | .sari _ _ _ _ _ => true
  | .lui _ _ _ _ => true
  | .lli _ _ _ _ => true
  | .cmpEq _ _ d _ _ => okP d
  | .cmpNe _ _ d _ _ => okP d
  | .cmpLt _ _ d _ _ => okP d
  | .cmpGe _ _ d _ _ => okP d
  | .cmpLtu _ _ d _ _ => okP d
  | .cmpGeu _ _ d _ _ => okP d
  | .fcmpEq _ _ d _ _ => okP d
  | .fcmpLt _ _ d _ _ => okP d
  | .fcmpLe _ _ d _ _ => okP d
  | .fcmpUn _ _ d _ _ => okP d
  | .pand _ _ d a b => okP d && okP a && okP b
  | .por _ _ d a b => okP d && okP a && okP b
  | .pxor _ _ d a b => okP d && okP a && okP b
  | .pnot _ _ d a => okP d && okP a
  | .pset _ _ d _ => okP d
  | .fadd _ _ _ _ _ => true
  | .fsub _ _ _ _ _ => true
  | .fmul _ _ _ _ _ => true
  | .fma _ _ _ _ _ => true
  | .fdiv _ _ _ _ _ => true
  | .fsqrt _ _ _ _ => true
  | .fmin _ _ _ _ _ => true
  | .fmax _ _ _ _ _ => true
  | .fabs _ _ _ _ => true
  | .fneg _ _ _ _ => true
  | .fclamp _ _ _ _ _ => true
  | .ftoi _ _ _ _ => true
  | .itof _ _ _ _ => true
  | .ftoq _ _ _ _ b => b.toNat < 16
  | .qtof _ _ _ _ b => b.toNat < 16
  | .fclass _ _ _ _ => true
  | .lwl _ _ _ _ _ => true
  | .swl _ _ _ _ _ => true
  | .lwd c _ _ _ _ => Cores.has .K c
  | .swd c _ _ _ _ => Cores.has .K c
  | .lwh c _ _ _ _ => Cores.has .L c
  | .lwt c _ _ a _ => Cores.has .L c && okP a
  | .vll c _ d _ _ => Cores.has .L c && okV d
  | .vsl c _ d _ _ => Cores.has .L c && okV d
  | .vld c _ d _ _ => Cores.has .L c && okV d
  | .vsd c _ d _ _ => Cores.has .L c && okV d
  | .vlh c _ d _ _ => Cores.has .L c && okV d
  | .vlt c _ d a _ => Cores.has .L c && okV d && okP a
  | .vaddF c _ d a b => Cores.has .L c && okV d && okV a && okV b
  | .vsubF c _ d a b => Cores.has .L c && okV d && okV a && okV b
  | .vmulF c _ d a b => Cores.has .L c && okV d && okV a && okV b
  | .vfmaF c _ d a b => Cores.has .L c && okV d && okV a && okV b
  | .vminF c _ d a b => Cores.has .L c && okV d && okV a && okV b
  | .vmaxF c _ d a b => Cores.has .L c && okV d && okV a && okV b
  | .vdotF c _ _ a b => Cores.has .L c && okV a && okV b
  | .vcmpltF c _ d a b => Cores.has .L c && okP d && okV a && okV b
  | .vcmpeqF c _ d a b => Cores.has .L c && okP d && okV a && okV b
  | .vaddH c _ d a b => Cores.has .L c && okV d && okV a && okV b
  | .vsubH c _ d a b => Cores.has .L c && okV d && okV a && okV b
  | .vmulqH c _ d a b => Cores.has .L c && okV d && okV a && okV b
  | .vcvtFh c _ d a => Cores.has .L c && okV d && okV a
  | .vcvtHf c _ d a => Cores.has .L c && okV d && okV a
  | .vsplat c _ d _ => Cores.has .L c && okV d
  | .vins c _ d _ b => Cores.has .L c && okV d && b.toNat < 4
  | .vext c _ _ a b => Cores.has .L c && okV a && b.toNat < 4
  | .vshuf c _ d a _ => Cores.has .L c && okV d && okV a
  | .vclarke c _ d a => Cores.has .L c && okV d && okV a
  | .vpark c _ d a _ => Cores.has .L c && okV d && okV a
  | .vipark c _ d a _ => Cores.has .L c && okV d && okV a
  | .vsincos c _ d _ => Cores.has .L c && okV d
  | .vsvm c _ d a b => Cores.has .L c && okV d && okV a && b.toNat < 3
  | .vpi c _ d a b => Cores.has .L c && okV d && okV a && okV b
  | .vlim c _ d a _ => Cores.has .L c && okV d && okV a
  | .lut c _ _ _ b => Cores.has .L c && okP b
  | .br _ _ _ _ => true
  | .loop _ _ max len => max != 0 && len != 0
  | .stg c _ _ _ _ => Cores.has .L c
  | .tcommit c _ => Cores.has .L c
  | .tabort c _ => Cores.has .L c
  | .topen c _ d _ => Cores.has .L c && okP d
  | .nop _ _ => true
  | .yield c _ => Cores.has .L c
  | .evt c _ _ _ => Cores.has .L c
  | .mfs _ _ _ sel => sel.toNat < 8
  | .mts _ _ _ sel => sel == 0
  | .callk c _ _ _ _ => Cores.has .L c
  | _ => true

/-- A command is well formed. -/
def instrWf (i : Instr) : Bool := fieldsOk i

end Sys2Proof
end

