-- ==== Sys2Proof/Decode.lean ====
section
/-! DEFINITION. The decoder and encoder of Nimson instruction words (R72, R73, R82), and the host's `decodeTableWord`: no
row of the opcode table gives bits, so it reads no command from a word. -/

namespace Sys2Proof

/-- The command a word of the opcode table spells: none, since the table gives no row bits. -/
def decodeTableWord (_nbits _w : Nat) : Option Instr := none

/-! ## Words -/

/-- A word of format R (R72). -/
def wordR (op : BitVec 6) (p : BitVec 3) (d a b : BitVec 5) (fn : BitVec 8) : Word := op ++ p ++ d ++ a ++ b ++ fn
/-- A word of format I. -/
def wordI (op : BitVec 6) (p : BitVec 3) (d a : BitVec 5) (imm : BitVec 13) : Word := op ++ p ++ d ++ a ++ imm
/-- A word of format L. -/
def wordL (op : BitVec 6) (p : BitVec 3) (d : BitVec 5) (imm : BitVec 18) : Word := op ++ p ++ d ++ imm
/-- A word of format B. -/
def wordB (op : BitVec 6) (p : BitVec 3) (slot : BitVec 5) (word : BitVec 8) : Word := op ++ p ++ slot ++ word ++ (0 : BitVec 10)
/-- A word of format LOOP. -/
def wordLoop (op : BitVec 6) (p : BitVec 3) (a : BitVec 5) (max : BitVec 12) (len : BitVec 6) : Word := op ++ p ++ a ++ max ++ len

/-- Major opcode, predicate and the fields of the formats. -/
def opOf (w : Word) : BitVec 6 := w.extractLsb' 26 6
/-- Predicate selector. -/
def pOf (w : Word) : BitVec 3 := w.extractLsb' 23 3
/-- Field d. -/
def dOf (w : Word) : BitVec 5 := w.extractLsb' 18 5
/-- Field a. -/
def aOf (w : Word) : BitVec 5 := w.extractLsb' 13 5
/-- Field b. -/
def bOf (w : Word) : BitVec 5 := w.extractLsb' 8 5
/-- Field fn. -/
def fnOf (w : Word) : BitVec 8 := w.extractLsb' 0 8
/-- imm[12:0]. -/
def immOf (w : Word) : BitVec 13 := w.extractLsb' 0 13
/-- imm[17:0]. -/
def imm18Of (w : Word) : BitVec 18 := w.extractLsb' 0 18

/-- An instruction, if its unused fields are zero (`z`). -/
def decIf (z : Bool) (i : Instr) : Option Instr := if z then some i else none

/-- Words of major opcode 0x00. -/
def dec00 (c : Proc) (w : Word) : Option Instr :=
  let p := pOf w
  let d := dOf w
  let a := aOf w
  let b := bOf w
  let fn := fnOf w
  if fn = 0x00 then decIf (true) (.add c p d a b)
  else if fn = 0x01 then decIf (true) (.sub c p d a b)
  else if fn = 0x02 then decIf (true) (.and c p d a b)
  else if fn = 0x03 then decIf (true) (.or c p d a b)
  else if fn = 0x04 then decIf (true) (.xor c p d a b)
  else if fn = 0x05 then decIf (true) (.shl c p d a b)
  else if fn = 0x06 then decIf (true) (.shr c p d a b)
  else if fn = 0x07 then decIf (true) (.sar c p d a b)
  else if fn = 0x08 then decIf (true) (.slt c p d a b)
  else if fn = 0x09 then decIf (true) (.sltu c p d a b)
  else if fn = 0x0A then decIf (true) (.min c p d a b)
  else if fn = 0x0B then decIf (true) (.max c p d a b)
  else if fn = 0x0C then decIf (true) (.mul c p d a b)
  else if fn = 0x0D then decIf (true) (.mulh c p d a b)
  else if fn = 0x0E then decIf (true) (.div c p d a b)
  else if fn = 0x0F then decIf (true) (.rem c p d a b)
  else if fn = 0x10 then decIf (true) (.adds c p d a b)
  else if fn = 0x11 then decIf (true) (.subs c p d a b)
  else none

/-- Words of major opcode 0x08. -/
def dec08 (c : Proc) (w : Word) : Option Instr :=
  let p := pOf w
  let d := dOf w
  let a := aOf w
  let b := bOf w
  let fn := fnOf w
  if fn = 0x00 then decIf (true) (.cmpEq c p d a b)
  else if fn = 0x01 then decIf (true) (.cmpNe c p d a b)
  else if fn = 0x02 then decIf (true) (.cmpLt c p d a b)
  else if fn = 0x03 then decIf (true) (.cmpGe c p d a b)
  else if fn = 0x04 then decIf (true) (.cmpLtu c p d a b)
  else if fn = 0x05 then decIf (true) (.cmpGeu c p d a b)
  else none

/-- Words of major opcode 0x09. -/
def dec09 (c : Proc) (w : Word) : Option Instr :=
  let p := pOf w
  let d := dOf w
  let a := aOf w
  let b := bOf w
  let fn := fnOf w
  if fn = 0x00 then decIf (true) (.fcmpEq c p d a b)
  else if fn = 0x01 then decIf (true) (.fcmpLt c p d a b)
  else if fn = 0x02 then decIf (true) (.fcmpLe c p d a b)
  else if fn = 0x03 then decIf (true) (.fcmpUn c p d a b)
  else none

/-- Words of major opcode 0x0A. -/
def dec0A (c : Proc) (w : Word) : Option Instr :=
  let p := pOf w
  let d := dOf w
  let a := aOf w
  let b := bOf w
  let fn := fnOf w
  if fn = 0x00 then decIf (true) (.pand c p d a b)
  else if fn = 0x01 then decIf (true) (.por c p d a b)
  else if fn = 0x02 then decIf (true) (.pxor c p d a b)
  else if fn = 0x03 then decIf (b == 0) (.pnot c p d a)
  else if fn = 0x04 then decIf (b == 0) (.pset c p d a)
  else none

/-- Words of major opcode 0x0B. -/
def dec0B (c : Proc) (w : Word) : Option Instr :=
  let p := pOf w
  let d := dOf w
  let a := aOf w
  let b := bOf w
  let fn := fnOf w
  if fn = 0x00 then decIf (true) (.fadd c p d a b)
  else if fn = 0x01 then decIf (true) (.fsub c p d a b)
  else if fn = 0x02 then decIf (true) (.fmul c p d a b)
  else if fn = 0x03 then decIf (true) (.fma c p d a b)
  else if fn = 0x04 then decIf (true) (.fdiv c p d a b)
  else if fn = 0x05 then decIf (b == 0) (.fsqrt c p d a)
  else if fn = 0x06 then decIf (true) (.fmin c p d a b)
  else if fn = 0x07 then decIf (true) (.fmax c p d a b)
  else if fn = 0x08 then decIf (b == 0) (.fabs c p d a)
  else if fn = 0x09 then decIf (b == 0) (.fneg c p d a)
  else if fn = 0x0A then decIf (true) (.fclamp c p d a b)
  else if fn = 0x0B then decIf (b == 0) (.ftoi c p d a)
  else if fn = 0x0C then decIf (b == 0) (.itof c p d a)
  else if fn = 0x0D then decIf (true) (.ftoq c p d a b)
  else if fn = 0x0E then decIf (true) (.qtof c p d a b)
  else if fn = 0x0F then decIf (b == 0) (.fclass c p d a)
  else none

/-- Words of major opcode 0x18. -/
def dec18 (c : Proc) (w : Word) : Option Instr :=
  let p := pOf w
  let d := dOf w
  let a := aOf w
  let b := bOf w
  let fn := fnOf w
  if fn = 0x00 then decIf (true) (.vaddF c p d a b)
  else if fn = 0x01 then decIf (true) (.vsubF c p d a b)
  else if fn = 0x02 then decIf (true) (.vmulF c p d a b)
  else if fn = 0x03 then decIf (true) (.vfmaF c p d a b)
  else if fn = 0x04 then decIf (true) (.vminF c p d a b)
  else if fn = 0x05 then decIf (true) (.vmaxF c p d a b)
  else if fn = 0x06 then decIf (true) (.vdotF c p d a b)
  else if fn = 0x07 then decIf (true) (.vcmpltF c p d a b)
  else if fn = 0x08 then decIf (true) (.vcmpeqF c p d a b)
  else none

/-- Words of major opcode 0x19. -/
def dec19 (c : Proc) (w : Word) : Option Instr :=
  let p := pOf w
  let d := dOf w
  let a := aOf w
  let b := bOf w
  let fn := fnOf w
  if fn = 0x00 then decIf (true) (.vaddH c p d a b)
  else if fn = 0x01 then decIf (true) (.vsubH c p d a b)
  else if fn = 0x02 then decIf (true) (.vmulqH c p d a b)
  else if fn = 0x03 then decIf (b == 0) (.vcvtFh c p d a)
  else if fn = 0x04 then decIf (b == 0) (.vcvtHf c p d a)
  else none

/-- Words of major opcode 0x1A. -/
def dec1A (c : Proc) (w : Word) : Option Instr :=
  let p := pOf w
  let d := dOf w
  let a := aOf w
  let b := bOf w
  let fn := fnOf w
  if fn = 0x00 then decIf (b == 0) (.vsplat c p d a)
  else if fn = 0x01 then decIf (true) (.vins c p d a b)
  else if fn = 0x02 then decIf (true) (.vext c p d a b)
  else none

/-- Words of major opcode 0x1C. -/
def dec1C (c : Proc) (w : Word) : Option Instr :=
  let p := pOf w
  let d := dOf w
  let a := aOf w
  let b := bOf w
  let fn := fnOf w
  if fn = 0x00 then decIf (b == 0) (.vclarke c p d a)
  else if fn = 0x01 then decIf (true) (.vpark c p d a b)
  else if fn = 0x02 then decIf (true) (.vipark c p d a b)
  else if fn = 0x03 then decIf (b == 0) (.vsincos c p d a)
  else if fn = 0x04 then decIf (true) (.vsvm c p d a b)
  else if fn = 0x05 then decIf (true) (.vpi c p d a b)
  else if fn = 0x06 then decIf (true) (.vlim c p d a b)
  else if fn = 0x07 then decIf (true) (.lut c p d a b)
  else none

/-- Words of major opcode 0x29. -/
def dec29 (c : Proc) (w : Word) : Option Instr :=
  let p := pOf w
  let d := dOf w
  let a := aOf w
  let b := bOf w
  let fn := fnOf w
  if fn = 0x00 then decIf (d == 0 && a == 0 && b == 0) (.tcommit c p)
  else if fn = 0x01 then decIf (d == 0 && a == 0 && b == 0) (.tabort c p)
  else none

/-- Words of major opcode 0x2B. -/
def dec2B (c : Proc) (w : Word) : Option Instr :=
  let p := pOf w
  let d := dOf w
  let a := aOf w
  let b := bOf w
  let fn := fnOf w
  if fn = 0x00 then decIf (d == 0 && a == 0 && b == 0) (.nop c p)
  else if fn = 0x01 then decIf (d == 0 && a == 0 && b == 0) (.yield c p)
  else if fn = 0x02 then decIf (d == 0 && b.extractLsb' 1 4 == 0) (.evt c p a (b.getLsbD 0))
  else if fn = 0x03 then decIf (a == 0) (.mfs c p d b)
  else if fn = 0x04 then decIf (d == 0) (.mts c p a b)
  else none

/-- The instruction a word spells, its register ranges and its core not yet looked at. -/
def decodeRaw (c : Proc) (w : Word) : Option Instr :=
  let p := pOf w
  let d := dOf w
  let a := aOf w
  let b := bOf w
  let imm := immOf w
  let op := opOf w
  if op = 0x00 then dec00 c w
  else if op = 0x08 then dec08 c w
  else if op = 0x09 then dec09 c w
  else if op = 0x0A then dec0A c w
  else if op = 0x0B then dec0B c w
  else if op = 0x18 then dec18 c w
  else if op = 0x19 then dec19 c w
  else if op = 0x1A then dec1A c w
  else if op = 0x1C then dec1C c w
  else if op = 0x29 then dec29 c w
  else if op = 0x2B then dec2B c w
  else if op = 0x01 then some (.addi c p d a imm)
  else if op = 0x02 then some (.andi c p d a imm)
  else if op = 0x03 then some (.ori c p d a imm)
  else if op = 0x04 then some (.xori c p d a imm)
  else if op = 0x0C then some (.lwl c p d a imm)
  else if op = 0x0D then some (.swl c p d a imm)
  else if op = 0x0E then some (.lwd c p d a imm)
  else if op = 0x0F then some (.swd c p d a imm)
  else if op = 0x10 then some (.lwh c p d a imm)
  else if op = 0x12 then some (.vll c p d a imm)
  else if op = 0x13 then some (.vsl c p d a imm)
  else if op = 0x14 then some (.vld c p d a imm)
  else if op = 0x15 then some (.vsd c p d a imm)
  else if op = 0x16 then some (.vlh c p d a imm)
  else if op = 0x05 then
    (if imm.extractLsb' 5 8 = 0 then some (.shli c p d a (imm.extractLsb' 0 5))
     else if imm.extractLsb' 5 8 = 1 then some (.shri c p d a (imm.extractLsb' 0 5))
     else if imm.extractLsb' 5 8 = 2 then some (.sari c p d a (imm.extractLsb' 0 5)) else none)
  else if op = 0x06 then some (.lui c p d (imm18Of w))
  else if op = 0x07 then decIf ((imm18Of w).extractLsb' 14 4 == 0) (.lli c p d ((imm18Of w).extractLsb' 0 14))
  else if op = 0x11 then decIf (b == 0) (.lwt c p d a (fnOf w))
  else if op = 0x17 then decIf (b == 0) (.vlt c p d a (fnOf w))
  else if op = 0x1B then decIf (b == 0) (.vshuf c p d a (fnOf w))
  else if op = 0x20 then decIf (w.extractLsb' 0 10 == 0) (.br c p d (w.extractLsb' 10 8))
  else if op = 0x21 then decIf (p == 0) (.loop c d (w.extractLsb' 6 12) (w.extractLsb' 0 6))
  else if op = 0x28 then decIf (d.extractLsb' 1 4 == 0 && fnOf w == 0) (.stg c p (d.getLsbD 0) a b)
  else if op = 0x2A then decIf (b == 0 && fnOf w == 0) (.topen c p d a)
  else if op = 0x2C then decIf (d == 0) (.callk c p (fnOf w) a b)
  else none

/-- The Nimson instruction that word `w` spells on core `c`; `none` for a word that is ILLEGAL there (R73, R82). -/
def decodeNimson (c : Proc) (w : Word) : Option Instr :=
  match decodeRaw c w with
  | none => none
  | some i => if fieldsOk i then some i else none

/-- The word of a Nimson instruction; `none` for every other command. -/
def encodeNimson : Instr → Option Word
  | .add _ p d a b => some (wordR 0x00 p d a b 0x00)
  | .sub _ p d a b => some (wordR 0x00 p d a b 0x01)
  | .and _ p d a b => some (wordR 0x00 p d a b 0x02)
  | .or _ p d a b => some (wordR 0x00 p d a b 0x03)
  | .xor _ p d a b => some (wordR 0x00 p d a b 0x04)
  | .shl _ p d a b => some (wordR 0x00 p d a b 0x05)
  | .shr _ p d a b => some (wordR 0x00 p d a b 0x06)
  | .sar _ p d a b => some (wordR 0x00 p d a b 0x07)
  | .slt _ p d a b => some (wordR 0x00 p d a b 0x08)
  | .sltu _ p d a b => some (wordR 0x00 p d a b 0x09)
  | .min _ p d a b => some (wordR 0x00 p d a b 0x0A)
  | .max _ p d a b => some (wordR 0x00 p d a b 0x0B)
  | .mul _ p d a b => some (wordR 0x00 p d a b 0x0C)
  | .mulh _ p d a b => some (wordR 0x00 p d a b 0x0D)
  | .div _ p d a b => some (wordR 0x00 p d a b 0x0E)
  | .rem _ p d a b => some (wordR 0x00 p d a b 0x0F)
  | .adds _ p d a b => some (wordR 0x00 p d a b 0x10)
  | .subs _ p d a b => some (wordR 0x00 p d a b 0x11)
  | .addi _ p d a imm => some (wordI 0x01 p d a imm)
  | .andi _ p d a imm => some (wordI 0x02 p d a imm)
  | .ori _ p d a imm => some (wordI 0x03 p d a imm)
  | .xori _ p d a imm => some (wordI 0x04 p d a imm)
  | .shli _ p d a amt => some (wordI 0x05 p d a ((0 : BitVec 8) ++ amt))
  | .shri _ p d a amt => some (wordI 0x05 p d a ((1 : BitVec 8) ++ amt))
  | .sari _ p d a amt => some (wordI 0x05 p d a ((2 : BitVec 8) ++ amt))
  | .lui _ p d imm => some (wordL 0x06 p d imm)
  | .lli _ p d imm => some (wordL 0x07 p d ((0 : BitVec 4) ++ imm))
  | .cmpEq _ p d a b => some (wordR 0x08 p d a b 0x00)
  | .cmpNe _ p d a b => some (wordR 0x08 p d a b 0x01)
  | .cmpLt _ p d a b => some (wordR 0x08 p d a b 0x02)
  | .cmpGe _ p d a b => some (wordR 0x08 p d a b 0x03)
  | .cmpLtu _ p d a b => some (wordR 0x08 p d a b 0x04)
  | .cmpGeu _ p d a b => some (wordR 0x08 p d a b 0x05)
  | .fcmpEq _ p d a b => some (wordR 0x09 p d a b 0x00)
  | .fcmpLt _ p d a b => some (wordR 0x09 p d a b 0x01)
  | .fcmpLe _ p d a b => some (wordR 0x09 p d a b 0x02)
  | .fcmpUn _ p d a b => some (wordR 0x09 p d a b 0x03)
  | .pand _ p d a b => some (wordR 0x0A p d a b 0x00)
  | .por _ p d a b => some (wordR 0x0A p d a b 0x01)
  | .pxor _ p d a b => some (wordR 0x0A p d a b 0x02)
  | .pnot _ p d a => some (wordR 0x0A p d a 0 0x03)
  | .pset _ p d a => some (wordR 0x0A p d a 0 0x04)
  | .fadd _ p d a b => some (wordR 0x0B p d a b 0x00)
  | .fsub _ p d a b => some (wordR 0x0B p d a b 0x01)
  | .fmul _ p d a b => some (wordR 0x0B p d a b 0x02)
  | .fma _ p d a b => some (wordR 0x0B p d a b 0x03)
  | .fdiv _ p d a b => some (wordR 0x0B p d a b 0x04)
  | .fsqrt _ p d a => some (wordR 0x0B p d a 0 0x05)
  | .fmin _ p d a b => some (wordR 0x0B p d a b 0x06)
  | .fmax _ p d a b => some (wordR 0x0B p d a b 0x07)
  | .fabs _ p d a => some (wordR 0x0B p d a 0 0x08)
  | .fneg _ p d a => some (wordR 0x0B p d a 0 0x09)
  | .fclamp _ p d a b => some (wordR 0x0B p d a b 0x0A)
  | .ftoi _ p d a => some (wordR 0x0B p d a 0 0x0B)
  | .itof _ p d a => some (wordR 0x0B p d a 0 0x0C)
  | .ftoq _ p d a b => some (wordR 0x0B p d a b 0x0D)
  | .qtof _ p d a b => some (wordR 0x0B p d a b 0x0E)
  | .fclass _ p d a => some (wordR 0x0B p d a 0 0x0F)
  | .lwl _ p d a imm => some (wordI 0x0C p d a imm)
  | .swl _ p d a imm => some (wordI 0x0D p d a imm)
  | .lwd _ p d a imm => some (wordI 0x0E p d a imm)
  | .swd _ p d a imm => some (wordI 0x0F p d a imm)
  | .lwh _ p d a imm => some (wordI 0x10 p d a imm)
  | .lwt _ p d a w => some (wordR 0x11 p d a 0 w)
  | .vll _ p d a imm => some (wordI 0x12 p d a imm)
  | .vsl _ p d a imm => some (wordI 0x13 p d a imm)
  | .vld _ p d a imm => some (wordI 0x14 p d a imm)
  | .vsd _ p d a imm => some (wordI 0x15 p d a imm)
  | .vlh _ p d a imm => some (wordI 0x16 p d a imm)
  | .vlt _ p d a w => some (wordR 0x17 p d a 0 w)
  | .vaddF _ p d a b => some (wordR 0x18 p d a b 0x00)
  | .vsubF _ p d a b => some (wordR 0x18 p d a b 0x01)
  | .vmulF _ p d a b => some (wordR 0x18 p d a b 0x02)
  | .vfmaF _ p d a b => some (wordR 0x18 p d a b 0x03)
  | .vminF _ p d a b => some (wordR 0x18 p d a b 0x04)
  | .vmaxF _ p d a b => some (wordR 0x18 p d a b 0x05)
  | .vdotF _ p d a b => some (wordR 0x18 p d a b 0x06)
  | .vcmpltF _ p d a b => some (wordR 0x18 p d a b 0x07)
  | .vcmpeqF _ p d a b => some (wordR 0x18 p d a b 0x08)
  | .vaddH _ p d a b => some (wordR 0x19 p d a b 0x00)
  | .vsubH _ p d a b => some (wordR 0x19 p d a b 0x01)
  | .vmulqH _ p d a b => some (wordR 0x19 p d a b 0x02)
  | .vcvtFh _ p d a => some (wordR 0x19 p d a 0 0x03)
  | .vcvtHf _ p d a => some (wordR 0x19 p d a 0 0x04)
  | .vsplat _ p d a => some (wordR 0x1A p d a 0 0x00)
  | .vins _ p d a b => some (wordR 0x1A p d a b 0x01)
  | .vext _ p d a b => some (wordR 0x1A p d a b 0x02)
  | .vshuf _ p d a sel => some (wordR 0x1B p d a 0 sel)
  | .vclarke _ p d a => some (wordR 0x1C p d a 0 0x00)
  | .vpark _ p d a b => some (wordR 0x1C p d a b 0x01)
  | .vipark _ p d a b => some (wordR 0x1C p d a b 0x02)
  | .vsincos _ p d a => some (wordR 0x1C p d a 0 0x03)
  | .vsvm _ p d a b => some (wordR 0x1C p d a b 0x04)
  | .vpi _ p d a b => some (wordR 0x1C p d a b 0x05)
  | .vlim _ p d a b => some (wordR 0x1C p d a b 0x06)
  | .lut _ p d a b => some (wordR 0x1C p d a b 0x07)
  | .br _ p slot word => some (wordB 0x20 p slot word)
  | .loop _ a max len => some (wordLoop 0x21 0 a max len)
  | .stg _ p cv a b => some (wordR 0x28 p ((0 : BitVec 4) ++ (BitVec.ofBool cv)) a b 0)
  | .tcommit _ p => some (wordR 0x29 p 0 0 0 0x00)
  | .tabort _ p => some (wordR 0x29 p 0 0 0 0x01)
  | .topen _ p d a => some (wordR 0x2A p d a 0 0)
  | .nop _ p => some (wordR 0x2B p 0 0 0 0x00)
  | .yield _ p => some (wordR 0x2B p 0 0 0 0x01)
  | .evt _ p a src => some (wordR 0x2B p 0 a ((0 : BitVec 4) ++ (BitVec.ofBool src)) 0x02)
  | .mfs _ p d sel => some (wordR 0x2B p d 0 sel 0x03)
  | .mts _ p a sel => some (wordR 0x2B p 0 a sel 0x04)
  | .callk _ p svc a b => some (wordR 0x2C p 0 a b svc)
  | _ => none

end Sys2Proof
end

