-- ==== Sys2Proof/Image.lean ====
section
/-! DEFINITION. Boot images and schedule tables as plain data (R45, R450). -/

namespace Sys2Proof.Machine

/-- One slice of the schedule table (R45), with its stage list of (program tile, lane slot) pairs. -/
structure Slice where
  ctx : Nat
  lane : Nat
  k : Nat
  start : Nat
  budget : Nat
  tile : Nat
  word : Nat
  stage : List (Nat × Nat)
  deriving DecidableEq, Repr

/-- One ownership range of a context (R45, R54). -/
structure Own where
  ctx : Nat
  kind : Nat
  first : Nat
  last : Nat
  deriving DecidableEq, Repr

/-- The schedule table (R45), its slice entries decoded. `formatOk` says that header, length, image check value and reserved
bits are right; `resident` holds (lane, slot, tile), `drives` (context, drive mask), `svcAddr` (context, data memory
address). -/
structure Sched where
  formatOk : Bool := true
  slices : List Slice := []
  resident : List (Nat × Nat × Nat) := []
  owners : List Own := []
  drives : List (Nat × Nat) := []
  svcAddr : List (Nat × Nat) := []
  deriving DecidableEq, Repr

/-- A slice entry as the image brings it (R45): its four words and its stage list. -/
structure SliceEntry where
  w0 : Word
  w1 : Word
  w2 : Word
  w3 : Word
  stage : List (Nat × Nat)
  deriving DecidableEq, Repr

/-- A schedule table record of an image (R45), before its slice entries are decoded. -/
structure SchedRec where
  formatOk : Bool := true
  entries : List SliceEntry := []
  resident : List (Nat × Nat × Nat) := []
  owners : List Own := []
  drives : List (Nat × Nat) := []
  svcAddr : List (Nat × Nat) := []
  deriving DecidableEq, Repr, Inhabited

/-- A program or table tile record of an image (R450): kind 1 or 2, tile number, encrypted, GCM tag, 256 words. -/
structure TileRec where
  kind : Nat
  tile : Nat
  encrypted : Bool
  tag : BitVec 128
  words : List Word
  deriving DecidableEq, Repr

/-- A boot image (R450) as its bytes: the manifest, the keeper section and the application section, which the loader parses. -/
structure Image where
  man : List Byte
  keeper : List Byte
  app : List Byte
  deriving DecidableEq, Repr

end Sys2Proof.Machine
end

