-- ==== Sys2Proof/Config.lean ====
section
/-! DEFINITION. What the spec leaves open: opaque constants without a body, so that nothing can be proved of a value of
theirs. Each is named in the assumption log. Those that take a `Nat` first are applied to `State.freeCtr`, the counter
of free values a run has drawn (a field of the model, not of the spec). -/

namespace Sys2Proof

/-- A fresh free value of `w` bits (log entry 2). -/
opaque Config.freeBits (w : Nat) : Nat → BitVec w

/-- The sine and cosine the lane's circuit gives for an angle word (R89: any value within 2^−21 of the exact one). -/
opaque Config.sinFree : F32 → F32
opaque Config.cosFree : F32 → F32

/-- The keeper firmware version (R65, R436), a number of the signed image. -/
opaque Config.keeperVersion : Word

/-- Signature and hash checks of R451 and R457: ECDSA P-384 with SHA-384, key first. The standards fix them; the
model leaves them uninterpreted. -/
opaque Config.vendorKey : BitVec 768
opaque Config.transportKey : BitVec 256
opaque Config.ecdsaVerify (key : BitVec 768) (message : List Byte) (sig : BitVec 768) : Bool
opaque Config.sha384 : List Byte → BitVec 384

/-- AES-256-GCM decryption of a tile (R452): key, IV, tag, ciphertext; `none` where the tag fails. -/
opaque Config.gcmDecrypt (key : BitVec 256) (iv : BitVec 96) (tag : BitVec 128) (text : List Word) : Option (List Word)

/-- AES key unwrap of RFC 3394 (R450): key, wrapped key; `none` where the integrity check fails. -/
opaque Config.keyUnwrap (key : BitVec 256) (wrapped : BitVec 320) : Option (BitVec 256)

/-- The image, known by its manifest, is one of the vendor's test images, which the manual leaves out (R448). -/
opaque Config.vendorTest : List Byte → Bool

/-- The schedule table that the bytes of a kind-3 record spell (R45). The manual lays out one slice entry and says what else the
table holds, but not its header, its image check value and the places of its parts (log entry 134). -/
opaque Config.schedRecord : List Byte → Machine.SchedRec

/-- The keeper section and the application section of the image that a host has written: what data memory holds and the byte
address of the manifest (R452). The manual places the manifest and the tiles and leaves the place of the sections' other bytes
to the tools (log entry 134); the contents of the tile records come from the windows. -/
opaque Config.hostSections (data : List Host.Cell) (manifest : Nat) : List Byte × List Byte

end Sys2Proof
end

