-- ==== Sys2Proof/Machine/Fp.lean ====
section
/-! DEFINITION. Binary32 arithmetic as R78 lays it down: round to nearest even, subnormal operands and results flushed
to signed zero, the canonical quiet NaN, the sticky flags SAT (bit 0), NAN (bit 1) and DZ (bit 2) of R79; the
conversions of R8 and R80; and the sine and cosine of R89. -/

namespace Sys2Proof.Machine

/-- Sticky flags of LST (R79). -/
abbrev Flags := BitVec 3
/-- SAT, bit 0. -/
def flSat : Flags := 1
/-- NAN, bit 1. -/
def flNan : Flags := 2
/-- DZ, bit 2. -/
def flDz : Flags := 4

/-- A binary32 value with the flags its computation has set so far. -/
structure Fl where
  v : F32
  fl : Flags := 0
  deriving DecidableEq, Repr

/-- What a binary32 word stands for; a finite non-zero value is `(−1)^neg · m · 2^e`. -/
inductive FpVal where
  | nan
  | inf (neg : Bool)
  | zero (neg : Bool)
  | fin (neg : Bool) (m : Nat) (e : Int)
  deriving DecidableEq, Repr

/-- The canonical quiet NaN (R78). -/
def canonNan : F32 := 0x7FC00000
/-- 0.0, 1.0, 0.5 and 2.0. -/
def fZero : F32 := 0
/-- 1.0 -/
def fOne : F32 := 0x3F800000
/-- 0.5 -/
def fHalf : F32 := 0x3F000000
/-- 2.0 -/
def fTwo : F32 := 0x40000000
/-- 3.0 -/
def fThree : F32 := 0x40400000

/-- A word read as a value; a subnormal reads as a signed zero (R78). -/
def fUnpack (w : F32) : FpVal :=
  let n := w.toNat
  let neg := n / 0x80000000 == 1
  let ex := n / 0x800000 % 0x100
  let ma := n % 0x800000
  if ex = 255 then (if ma = 0 then .inf neg else .nan)
  else if ex = 0 then .zero neg
  else .fin neg (0x800000 + ma) ((ex : Int) - 150)

/-- The zero of sign `neg`. -/
def fZeroS (neg : Bool) : F32 := if neg then 0x80000000 else 0
/-- The infinity of sign `neg`. -/
def fInfS (neg : Bool) : F32 := if neg then 0xFF800000 else 0x7F800000

/-- Round `(−1)^neg · m · 2^e` to 24 significant bits, ties to even, with an unbounded exponent, then flush a result
below 2^−126 to zero and let one beyond the range be infinite (R78). -/
def fRound (neg : Bool) (m : Nat) (e : Int) : F32 :=
  if m = 0 then fZeroS neg
  else
    let b := Nat.log2 m + 1
    let (q, e1) : Nat × Int :=
      if b ≤ 24 then (m <<< (24 - b), e - ((24 - b : Nat) : Int))
      else
        let sh := b - 24
        let q := m >>> sh
        let r := m % 2 ^ sh
        let up := 2 ^ sh < 2 * r || (2 * r = 2 ^ sh && q % 2 = 1)
        (if up then q + 1 else q, e + (sh : Int))
    let (q, e1) : Nat × Int := if q = 0x1000000 then (0x800000, e1 + 1) else (q, e1)
    let ex := e1 + 150
    if 255 ≤ ex then fInfS neg
    else if ex ≤ 0 then fZeroS neg
    else BitVec.ofNat 32 ((if neg then 0x80000000 else 0) + ex.toNat * 0x800000 + (q - 0x800000))

/-- Round the exact `i · 2^e`; an exact zero is +0. -/
def fOfInt (i : Int) (e : Int := 0) : F32 := fRound (decide (i < 0)) i.natAbs e

/-- The rational `n / d`, `d > 0`, rounded once. -/
def fOfRat (n : Int) (d : Nat) : F32 :=
  let b := Nat.log2 d + 40
  let m := n.natAbs <<< b
  fRound (decide (n < 0)) (2 * (m / d) + (if m % d = 0 then 0 else 1)) (-(b : Int) - 1)

/-- Is the word a NaN? -/
def fIsNan (w : F32) : Bool := fUnpack w == .nan

/-- `m·2^e` as an integer multiple of `2^e0`, `e0 ≤ e`. -/
def fAlign (neg : Bool) (m : Nat) (e e0 : Int) : Int :=
  let v : Int := (m <<< (e - e0).toNat : Nat)
  if neg then -v else v

/-- Sum of two exact finite values, one rounding. -/
def fAddExact (na : Bool) (ma : Nat) (ea : Int) (nb : Bool) (mb : Nat) (eb : Int) : F32 :=
  let e0 := min ea eb
  fOfInt (fAlign na ma ea e0 + fAlign nb mb eb e0) e0

/-- Addition (R78). -/
def fAdd (a b : F32) : Fl :=
  match fUnpack a, fUnpack b with
  | .nan, _ => ⟨canonNan, 0⟩
  | _, .nan => ⟨canonNan, 0⟩
  | .inf x, .inf y => if x = y then ⟨fInfS x, 0⟩ else ⟨canonNan, flNan⟩
  | .inf x, _ => ⟨fInfS x, 0⟩
  | _, .inf y => ⟨fInfS y, 0⟩
  | .zero x, .zero y => ⟨fZeroS (x && y), 0⟩
  | .zero _, .fin n m e => ⟨fRound n m e, 0⟩
  | .fin n m e, .zero _ => ⟨fRound n m e, 0⟩
  | .fin na ma ea, .fin nb mb eb => ⟨fAddExact na ma ea nb mb eb, 0⟩

/-- The sign bit inverted (FNEG). -/
def fNeg (a : F32) : F32 := a ^^^ 0x80000000
/-- The sign bit cleared (FABS). -/
def fAbs (a : F32) : F32 := a &&& 0x7FFFFFFF

/-- Subtraction (R78): a NaN subtrahend stays a NaN whatever its sign. -/
def fSub (a b : F32) : Fl := fAdd a (fNeg b)

/-- Multiplication (R78). -/
def fMul (a b : F32) : Fl :=
  match fUnpack a, fUnpack b with
  | .nan, _ => ⟨canonNan, 0⟩
  | _, .nan => ⟨canonNan, 0⟩
  | .inf _, .zero _ => ⟨canonNan, flNan⟩
  | .zero _, .inf _ => ⟨canonNan, flNan⟩
  | .inf x, .inf y => ⟨fInfS (x != y), 0⟩
  | .inf x, .fin y _ _ => ⟨fInfS (x != y), 0⟩
  | .fin x _ _, .inf y => ⟨fInfS (x != y), 0⟩
  | .zero x, .zero y => ⟨fZeroS (x != y), 0⟩
  | .zero x, .fin y _ _ => ⟨fZeroS (x != y), 0⟩
  | .fin x _ _, .zero y => ⟨fZeroS (x != y), 0⟩
  | .fin x ma ea, .fin y mb eb => ⟨fRound (x != y) (ma * mb) (ea + eb), 0⟩

/-- `d + a × b` with one rounding (R78 FMA). -/
def fFma (d a b : F32) : Fl :=
  match fUnpack d, fUnpack a, fUnpack b with
  | .nan, _, _ => ⟨canonNan, 0⟩
  | _, .fin x ma ea, .fin y mb eb =>
    match fUnpack d with
    | .fin n m e => ⟨fAddExact (x != y) (ma * mb) (ea + eb) n m e, 0⟩
    | .zero _ => ⟨fRound (x != y) (ma * mb) (ea + eb), 0⟩
    | _ => ⟨d, 0⟩
  | _, _, _ =>
    let p := fMul a b
    let r := fAdd p.v d
    ⟨r.v, p.fl ||| r.fl⟩

/-- Division (R78): a non-zero finite value over zero gives an infinity and DZ. -/
def fDiv (a b : F32) : Fl :=
  match fUnpack a, fUnpack b with
  | .nan, _ => ⟨canonNan, 0⟩
  | _, .nan => ⟨canonNan, 0⟩
  | .zero _, .zero _ => ⟨canonNan, flNan⟩
  | .inf _, .inf _ => ⟨canonNan, flNan⟩
  | .inf x, .zero y => ⟨fInfS (x != y), flDz⟩
  | .inf x, .fin y _ _ => ⟨fInfS (x != y), 0⟩
  | .fin x _ _, .zero y => ⟨fInfS (x != y), flDz⟩
  | .zero x, .inf y => ⟨fZeroS (x != y), 0⟩
  | .zero x, .fin y _ _ => ⟨fZeroS (x != y), 0⟩
  | .fin x _ _, .inf y => ⟨fZeroS (x != y), 0⟩
  | .fin x ma ea, .fin y mb eb =>
    let n := ma <<< 52
    ⟨fRound (x != y) (2 * (n / mb) + (if n % mb = 0 then 0 else 1)) (ea - eb - 53), 0⟩

/-- Bit-by-bit integer square root: the largest `r` with `r² ≤ n`, bits below `2^k`. -/
def isqrtBits (n : Nat) : Nat → Nat → Nat
  | 0, acc => acc
  | k + 1, acc => if (acc + 2 ^ k) * (acc + 2 ^ k) ≤ n then isqrtBits n k (acc + 2 ^ k) else isqrtBits n k acc

/-- Square root (R78): of a negative non-zero value NaN. -/
def fSqrt (a : F32) : Fl :=
  match fUnpack a with
  | .nan => ⟨canonNan, 0⟩
  | .zero x => ⟨fZeroS x, 0⟩
  | .inf true => ⟨canonNan, flNan⟩
  | .inf false => ⟨fInfS false, 0⟩
  | .fin true _ _ => ⟨canonNan, flNan⟩
  | .fin false m e =>
    let (m, e) := if e % 2 = 0 then (m, e) else (2 * m, e - 1)
    let n := m <<< 40
    let r := isqrtBits n 34 0
    ⟨fRound false (2 * r + (if r * r = n then 0 else 1)) (e / 2 - 21), 0⟩

/-- Order key of a non-NaN value: −0 and +0 alike. -/
def fKey (w : F32) : Int :=
  match fUnpack w with
  | .zero _ => 0
  | _ => if w.toNat / 0x80000000 = 1 then -((w.toNat % 0x80000000 : Nat) : Int) else (w.toNat % 0x80000000 : Nat)

/-- Order key that puts −0 below +0 (R78, FMIN and FMAX). -/
def fKeyZ (w : F32) : Int :=
  match fUnpack w with
  | .zero n => if n then -1 else 0
  | _ => 2 * fKey w

/-- Equality, false for any NaN operand. -/
def fEq (a b : F32) : Bool := !fIsNan a && !fIsNan b && fKey a == fKey b
/-- Less than, false for any NaN operand. -/
def fLt (a b : F32) : Bool := !fIsNan a && !fIsNan b && fKey a < fKey b
/-- Less than or equal, false for any NaN operand. -/
def fLe (a b : F32) : Bool := !fIsNan a && !fIsNan b && fKey a ≤ fKey b
/-- Greater than, false for any NaN operand. -/
def fGt (a b : F32) : Bool := fLt b a

/-- A value with a subnormal flushed to zero and a NaN made canonical. -/
def fNorm (a : F32) : F32 :=
  match fUnpack a with
  | .nan => canonNan
  | .zero n => fZeroS n
  | _ => a

/-- Minimum (R78): one NaN operand gives the other, −0 lies below +0. -/
def fMin (a b : F32) : F32 :=
  if fIsNan a then fNorm b else if fIsNan b then fNorm a else if fKeyZ b < fKeyZ a then fNorm b else fNorm a
/-- Maximum (R78). -/
def fMax (a b : F32) : F32 :=
  if fIsNan a then fNorm b else if fIsNan b then fNorm a else if fKeyZ a < fKeyZ b then fNorm b else fNorm a

/-! ## Sequences of operations that collect their flags (R503) -/

/-- Sum. -/
def Fl.add (x y : Fl) : Fl := let r := fAdd x.v y.v; ⟨r.v, x.fl ||| y.fl ||| r.fl⟩
/-- Difference. -/
def Fl.sub (x y : Fl) : Fl := let r := fSub x.v y.v; ⟨r.v, x.fl ||| y.fl ||| r.fl⟩
/-- Product. -/
def Fl.mul (x y : Fl) : Fl := let r := fMul x.v y.v; ⟨r.v, x.fl ||| y.fl ||| r.fl⟩
/-- Quotient. -/
def Fl.div (x y : Fl) : Fl := let r := fDiv x.v y.v; ⟨r.v, x.fl ||| y.fl ||| r.fl⟩
/-- Square root. -/
def Fl.sqrt (x : Fl) : Fl := let r := fSqrt x.v; ⟨r.v, x.fl ||| r.fl⟩
/-- Sign inverted. -/
def Fl.neg (x : Fl) : Fl := ⟨fNeg x.v, x.fl⟩
/-- Smaller. -/
def Fl.min (x y : Fl) : Fl := ⟨fMin x.v y.v, x.fl ||| y.fl⟩
/-- Larger. -/
def Fl.max (x y : Fl) : Fl := ⟨fMax x.v y.v, x.fl ||| y.fl⟩

/-- Sum of two values, flags apart. -/
def fadd (a b : F32) : F32 := (fAdd a b).v
/-- Difference, flags apart. -/
def fsub (a b : F32) : F32 := (fSub a b).v
/-- Product, flags apart. -/
def fmul (a b : F32) : F32 := (fMul a b).v
/-- Quotient, flags apart. -/
def fdiv (a b : F32) : F32 := (fDiv a b).v
/-- Square root, flags apart. -/
def fsqrt (a : F32) : F32 := (fSqrt a).v

/-! ## Conversions (R8, R80) -/

/-- Round `(−1)^neg · m · 2^e` to an integer, ties to even. -/
def roundToInt (neg : Bool) (m : Nat) (e : Int) : Int :=
  let q : Nat :=
    if 0 ≤ e then m <<< e.toNat
    else
      let sh := (-e).toNat
      let q := m >>> sh
      let r := m % 2 ^ sh
      if 2 ^ sh < 2 * r || (2 * r = 2 ^ sh && q % 2 = 1) then q + 1 else q
  if neg then -(q : Int) else q

/-- `w × 2^n` rounded to the nearest integer and cut to `lo … hi`, with a flag that says it was cut; NaN gives 0
(R8, R80). -/
def fToFixed (lo hi : Int) (n : Int) (w : F32) : Int × Bool :=
  match fUnpack w with
  | .nan => (0, false)
  | .zero _ => (0, false)
  | .inf neg => (if neg then lo else hi, true)
  | .fin neg m e =>
    let i := roundToInt neg m (e + n)
    if i < lo then (lo, true) else if hi < i then (hi, true) else (i, false)

/-- A Qm.n field of `w` bits with `n` fraction bits, as its code (R8). -/
def fToQ (w n : Nat) (x : F32) : Nat × Bool :=
  let r := fToFixed (-(2 : Int) ^ (w - 1)) ((2 : Int) ^ (w - 1) - 1) n x
  ((r.1 % (2 : Int) ^ w).toNat, r.2)

/-- A Q0.n field: the fractional part, rounded, with 1.0 wrapped to 0; NaN and infinities give 0 (R8). -/
def fToQ0 (n : Nat) (x : F32) : Nat :=
  match fUnpack x with
  | .fin neg m e => (roundToInt neg m (e + n) % (2 : Int) ^ n).toNat
  | _ => 0

/-- A Qm.n code of `w` bits with `n` fraction bits, exactly as binary32 where it fits 24 bits, else rounded. -/
def fOfQ (w n : Nat) (c : Nat) : F32 :=
  fOfInt (if c % 2 ^ w < 2 ^ (w - 1) then (c % 2 ^ w : Nat) else ((c % 2 ^ w : Nat) : Int) - (2 : Int) ^ w) (-(n : Int))

/-- An unsigned code with `n` fraction bits. -/
def fOfU (n : Nat) (c : Nat) : F32 := fOfInt c (-(n : Int))

/-- FTOI (R80): nearest even, saturated at the 32-bit limits, NaN 0; either case sets SAT. -/
def fToI (w : F32) : Fl :=
  let r := fToFixed (-0x80000000) 0x7FFFFFFF 0 w
  ⟨BitVec.ofInt 32 r.1, if r.2 || fIsNan w then flSat else 0⟩

/-! ## Angles (R89) -/

/-- θ − floor(θ) in units of 2^−64, rounded down; 0 for a value that has no fractional part. -/
def frac64 (w : F32) : Nat :=
  match fUnpack w with
  | .fin neg m e =>
    let x : Int :=
      if 0 ≤ e + 64 then (m <<< (e + 64).toNat : Nat) else (m >>> (-(e + 64)).toNat : Nat)
    ((if neg then -x else x) % (2 : Int) ^ 64).toNat
  | _ => 0

/-- floor(θ) of a finite value. -/
def fFloor (w : F32) : Int :=
  match fUnpack w with
  | .fin neg m e =>
    if 0 ≤ e then (if neg then -((m <<< e.toNat : Nat) : Int) else (m <<< e.toNat : Nat))
    else (if neg then -(m : Int) else m) / ((2 : Int) ^ (-e).toNat)
  | _ => 0

/-- θ − floor(θ), rounded once. -/
def fFrac (w : F32) : F32 :=
  match fUnpack w with
  | .fin neg m e =>
    if 0 ≤ e then 0
    else fOfInt ((if neg then -(m : Int) else m) % ((2 : Int) ^ (-e).toNat)) e
  | _ => 0

/-- π/2 in units of 2^−60. -/
def halfPi60 : Nat := 1811004864519280711

/-- Alternating series `t − t·x²/((k)(k+1)) + …` in units of 2^−60: the tail of the sine or cosine series. -/
def trigSeries (x2 : Nat) : Nat → Nat → Nat → Int
  | 0, _, _ => 0
  | n + 1, k, t => (t : Int) - trigSeries x2 n (k + 2) (t * x2 / 2 ^ 60 / (k * (k + 1)))

/-- sin and cos of 2πφ in units of 2^−60, φ in units of 2^−64; within 2^−45 of the exact values. -/
def sinCos60 (phi : Nat) : Int × Int :=
  let q := phi / 2 ^ 62 % 4
  let x := (phi % 2 ^ 62) * halfPi60 / 2 ^ 62
  let x2 := x * x / 2 ^ 60
  let s := trigSeries x2 12 2 x
  let c := trigSeries x2 12 1 (2 ^ 60)
  if q = 0 then (s, c) else if q = 1 then (c, -s) else if q = 2 then (-s, -c) else (-c, s)

/-- Is `w` within 2^−21 of `x · 2^−60` (less a margin for the error of `x`)? -/
def nearTrig (w : F32) (x : Int) : Bool :=
  match fUnpack w with
  | .nan => false
  | .inf _ => false
  | .zero _ => x.natAbs ≤ 2 ^ 39 - 2 ^ 17
  | .fin neg m e =>
    let v : Int := if 0 ≤ e + 60 then (m <<< (e + 60).toNat : Nat) else (m >>> (-(e + 60)).toNat : Nat)
    ((if neg then -v else v) - x).natAbs ≤ 2 ^ 39 - 2 ^ 17

/-- The sine R89 gives for angle `w`: any value within 2^−21 of the exact one, held by an opaque constant. -/
def fSin (w : F32) : F32 :=
  let x := (sinCos60 (frac64 w)).1
  let f := Config.sinFree w
  if nearTrig f x then f else fOfInt x (-60)

/-- The cosine R89 gives for angle `w`. -/
def fCos (w : F32) : F32 :=
  let x := (sinCos60 (frac64 w)).2
  let f := Config.cosFree w
  if nearTrig f x then f else fOfInt x (-60)

/-- Is the word an infinity? -/
def fIsInf (w : F32) : Bool := match fUnpack w with | .inf _ => true | _ => false

end Sys2Proof.Machine
end

