-- ==== Sys2Proof/Machine/Fields.lean ====
section
/-! DEFINITION. The register addresses (namespace `R`) and register fields (namespace `F`) of the spec's tables, one
name each, so that every meaning speaks of registers and fields by the spec's own names. -/

namespace Sys2Proof.Machine

/-- A register field: the BAR0 address of its register, its least significant bit and its width in bits. -/
structure Fld where
  addr : Nat
  lsb : Nat
  width : Nat
  deriving DecidableEq, Repr

/-! ### Block 0x0000_0000 -/

/-- DEV_ID (R495 18_register_map.md). -/
abbrev R.DEV_ID : Nat := 0
/-- [7:0] RO, reset 0xB0, at reset (R496). DEV_ID: [7:4] letter, 0xA = A, 0xB = B; [3:0] number -/
abbrev F.DEV_ID_stepping : Fld := ⟨0, 0, 8⟩
/-- [31:16] RO, reset per part, at reset (R496). DEV_ID: 0x8840, 0x8830 or 0x8810 -/
abbrev F.DEV_ID_part : Fld := ⟨0, 16, 16⟩
/-- DEV_VARIANT (R495 18_register_map.md). -/
abbrev R.DEV_VARIANT : Nat := 4
/-- [15:0] RO, reset per part, at reset (R496). DEV_VARIANT: bit n set if KLn is present -/
abbrev F.DEV_VARIANT_kl : Fld := ⟨4, 0, 16⟩
/-- [23:16] RO, reset per part, at reset (R496). DEV_VARIANT: bit n set if LNn is present -/
abbrev F.DEV_VARIANT_ln : Fld := ⟨4, 16, 8⟩
/-- [31:24] RO, reset per part, at reset (R496). DEV_VARIANT: bit n set if FUn is present -/
abbrev F.DEV_VARIANT_fu : Fld := ⟨4, 24, 8⟩
/-- DEV_IDCODE (R495 18_register_map.md). -/
abbrev R.DEV_IDCODE : Nat := 8
/-- [31:0] RO, reset per part, at reset (R496). DEV_IDCODE: the JTAG IDCODE (R497) -/
abbrev F.DEV_IDCODE_idcode : Fld := ⟨8, 0, 32⟩
/-- DEV_PCI_ID (R495 18_register_map.md). -/
abbrev R.DEV_PCI_ID : Nat := 0xC
/-- [15:0] RO, reset 0x1F4C, at reset (R496). DEV_PCI_ID: PCIe vendor identifier -/
abbrev F.DEV_PCI_ID_vendor : Fld := ⟨0xC, 0, 16⟩
/-- [31:16] RO, reset per part, at reset (R496). DEV_PCI_ID: PCIe device identifier, equal to DEV_ID.part -/
abbrev F.DEV_PCI_ID_device : Fld := ⟨0xC, 16, 16⟩
/-- DEV_LOCK_KEY (R495 18_register_map.md). -/
abbrev R.DEV_LOCK_KEY : Nat := 0x10
/-- [15:0] WO, reset 0x0000, immediately (R447). DEV_LOCK_KEY: R428 -/
abbrev F.DEV_LOCK_KEY_key : Fld := ⟨0x10, 0, 16⟩
/-- DEV_LOCK_STS (R495 18_register_map.md). -/
abbrev R.DEV_LOCK_STS : Nat := 0x14
/-- [0:0] RO, reset 0, immediately (R447). DEV_LOCK_STS: lock of each host master open -/
abbrev F.DEV_LOCK_STS_pcie_open : Fld := ⟨0x14, 0, 1⟩
/-- [1:1] RO, reset 0, immediately (R447). DEV_LOCK_STS: lock of each host master open -/
abbrev F.DEV_LOCK_STS_spi_open : Fld := ⟨0x14, 1, 1⟩
/-- [2:2] RO, reset 0, immediately (R447). DEV_LOCK_STS: lock of each host master open -/
abbrev F.DEV_LOCK_STS_cmd_open : Fld := ⟨0x14, 2, 1⟩
/-- [4:4] W1C, reset 0, immediately (R447). DEV_LOCK_STS: R428, R437 -/
abbrev F.DEV_LOCK_STS_kg_drop : Fld := ⟨0x14, 4, 1⟩
/-- [5:5] W1C, reset 0, immediately (R447). DEV_LOCK_STS: R429 -/
abbrev F.DEV_LOCK_STS_sg_drop : Fld := ⟨0x14, 5, 1⟩
/-- [6:6] W1C, reset 0, immediately (R447). DEV_LOCK_STS: R428 -/
abbrev F.DEV_LOCK_STS_lapsed : Fld := ⟨0x14, 6, 1⟩
/-- [7:7] W1C, reset 0, immediately (R447). DEV_LOCK_STS: R424 -/
abbrev F.DEV_LOCK_STS_part_drop : Fld := ⟨0x14, 7, 1⟩
/-- [9:8] RO, reset 0, immediately (R447). DEV_LOCK_STS: R429 -/
abbrev F.DEV_LOCK_STS_phase : Fld := ⟨0x14, 8, 2⟩
/-- [10:10] RO, reset 0, immediately (R447). DEV_LOCK_STS: key guard in force -/
abbrev F.DEV_LOCK_STS_guard : Fld := ⟨0x14, 10, 1⟩
/-- DEV_SVN (R495 18_register_map.md). -/
abbrev R.DEV_SVN : Nat := 0x18
/-- [31:0] RO, reset from OTP, at reset (R496). DEV_SVN: minimum security version of R451 -/
abbrev F.DEV_SVN_svn : Fld := ⟨0x18, 0, 32⟩
/-- DEV_LC (R495 18_register_map.md). -/
abbrev R.DEV_LC : Nat := 0x20
/-- [2:0] RO, reset from OTP, immediately (R464). DEV_LC: 0 BLANK, 1 VENDOR_TEST, 2 PROVISIONED, 3 FIELD, 4 FIELD_OPEN, 5 SCRAPPED -/
abbrev F.DEV_LC_state : Fld := ⟨0x20, 0, 3⟩
/-- [4:4] RO, reset from OTP, immediately (R464). DEV_LC: a recorded target is not yet reached (R457, R458) -/
abbrev F.DEV_LC_opening : Fld := ⟨0x20, 4, 1⟩
/-- [5:5] RO, reset 0, immediately (R464). DEV_LC: full JTAG enabled -/
abbrev F.DEV_LC_jtag : Fld := ⟨0x20, 5, 1⟩
/-- [7:6] RO, reset from OTP, immediately (R464). DEV_LC: recorded target: 0 none, 1 FIELD_OPEN, 2 SCRAPPED (R458) -/
abbrev F.DEV_LC_target : Fld := ⟨0x20, 6, 2⟩
/-- DEV_BOOT (R495 18_register_map.md). -/
abbrev R.DEV_BOOT : Nat := 0x24
/-- [2:0] RO, reset straps, immediately (R464). DEV_BOOT: R449 -/
abbrev F.DEV_BOOT_mode : Fld := ⟨0x24, 0, 3⟩
/-- [8:8] WO, reset 0, immediately (R464). DEV_BOOT: R452 -/
abbrev F.DEV_BOOT_go : Fld := ⟨0x24, 8, 1⟩
/-- [9:9] WO, reset 0, immediately (R464). DEV_BOOT: R454 -/
abbrev F.DEV_BOOT_program : Fld := ⟨0x24, 9, 1⟩
/-- [13:12] RO, reset 0, immediately (R464). DEV_BOOT: 0 BOOTING, 1 BOOTED, 2 FAILED, 3 FLASHED -/
abbrev F.DEV_BOOT_status : Fld := ⟨0x24, 12, 2⟩
/-- [19:16] RO, reset 0, immediately (R464). DEV_BOOT: code of R451; 0 = none -/
abbrev F.DEV_BOOT_error : Fld := ⟨0x24, 16, 4⟩
/-- DEV_BOOT_MAN (R495 18_register_map.md). -/
abbrev R.DEV_BOOT_MAN : Nat := 0x28
/-- [20:0] RW, reset 0, immediately (R464). DEV_BOOT_MAN: manifest byte address in data memory -/
abbrev F.DEV_BOOT_MAN_addr : Fld := ⟨0x28, 0, 21⟩

/-! ### Block 0x0001_0000 -/

/-- CLK_STS (R489 17_power_pins_ratings.md). -/
abbrev R.CLK_STS : Nat := 0x10000
/-- [0:0] RO, reset 0, immediately (R490). CLK_STS: both loops locked (R476) -/
abbrev F.CLK_STS_pll_lock : Fld := ⟨0x10000, 0, 1⟩
/-- [1:1] RO, reset 0, immediately (R490). CLK_STS: reference within the window of R477 -/
abbrev F.CLK_STS_ref_ok : Fld := ⟨0x10000, 1, 1⟩
/-- [2:2] RO, reset 0, immediately (R490). CLK_STS: safety core island supply in range -/
abbrev F.CLK_STS_island_ok : Fld := ⟨0x10000, 2, 1⟩
/-- CLK_RST_CAUSE (R489 17_power_pins_ratings.md). -/
abbrev R.CLK_RST_CAUSE : Nat := 0x10004
/-- [0:0] W1C, reset per cause, immediately (R490). CLK_RST_CAUSE: power-up of VCORE -/
abbrev F.CLK_RST_CAUSE_por : Fld := ⟨0x10004, 0, 1⟩
/-- [1:1] W1C, reset per cause, immediately (R490). CLK_RST_CAUSE: PORST_N low -/
abbrev F.CLK_RST_CAUSE_pin : Fld := ⟨0x10004, 1, 1⟩
/-- [2:2] W1C, reset per cause, immediately (R490). CLK_RST_CAUSE: a rail left its reset window (R472) -/
abbrev F.CLK_RST_CAUSE_supply : Fld := ⟨0x10004, 2, 1⟩
/-- [3:3] W1C, reset per cause, immediately (R490). CLK_RST_CAUSE: clock failure (R477) -/
abbrev F.CLK_RST_CAUSE_clock : Fld := ⟨0x10004, 3, 1⟩
/-- [4:4] W1C, reset per cause, immediately (R490). CLK_RST_CAUSE: thermal reset (R474) -/
abbrev F.CLK_RST_CAUSE_thermal : Fld := ⟨0x10004, 4, 1⟩
/-- [5:5] W1C, reset per cause, immediately (R490). CLK_RST_CAUSE: safety core island supply -/
abbrev F.CLK_RST_CAUSE_island : Fld := ⟨0x10004, 5, 1⟩
/-- [10:8] RO, reset per cause, immediately (R490). CLK_RST_CAUSE: rail of the latest supply cause, 0–4 -/
abbrev F.CLK_RST_CAUSE_rail : Fld := ⟨0x10004, 8, 3⟩
/-- CLK_SUP_STS (R489 17_power_pins_ratings.md). -/
abbrev R.CLK_SUP_STS : Nat := 0x10008
/-- [5:0] RO, reset 0x00, immediately (R490). CLK_SUP_STS: bit n set while rail n lies inside its warning window -/
abbrev F.CLK_SUP_STS_in_warn : Fld := ⟨0x10008, 0, 6⟩
/-- [13:8] W1C, reset 0x00, immediately (R490). CLK_SUP_STS: bit n set when rail n left its warning window (R473) -/
abbrev F.CLK_SUP_STS_warn_seen : Fld := ⟨0x10008, 8, 6⟩
/-- CLK_TEMP (R489 17_power_pins_ratings.md). -/
abbrev R.CLK_TEMP : Nat := 0x1000C
/-- [10:0] RO, reset 0x000, immediately (R490). CLK_TEMP: highest sensor, (T + 64) × 4; 0 until the first reading -/
abbrev F.CLK_TEMP_temp : Fld := ⟨0x1000C, 0, 11⟩
/-- [12:12] RO, reset 0, immediately (R490). CLK_TEMP: R474 -/
abbrev F.CLK_TEMP_hot : Fld := ⟨0x1000C, 12, 1⟩
/-- [13:13] W1C, reset 0, immediately (R490). CLK_TEMP: EV56 was raised -/
abbrev F.CLK_TEMP_hot_seen : Fld := ⟨0x1000C, 13, 1⟩
/-- CLK_TEMP_CFG (R489 17_power_pins_ratings.md). -/
abbrev R.CLK_TEMP_CFG : Nat := 0x10010
/-- [10:0] RW, MW, reset 0x2CC, immediately (R490). CLK_TEMP_CFG: warning level, (T + 64) × 4; reset is 115 °C -/
abbrev F.CLK_TEMP_CFG_warn : Fld := ⟨0x10010, 0, 11⟩
/-- [23:16] RW, MW, reset 0x14, immediately (R490). CLK_TEMP_CFG: hysteresis in 0.25 °C steps; reset is 5 °C -/
abbrev F.CLK_TEMP_CFG_hyst : Fld := ⟨0x10010, 16, 8⟩
/-- CLK_SUP (R489 17_power_pins_ratings.md). -/
abbrev R.CLK_SUP (n : Nat) : Nat := 0x10020 + 4 * n
/-- [11:0] RO, reset 0x000, immediately (R490). CLK_SUPn: voltage of rail n in mV (R473); rail 5 as the safety die reports it -/
abbrev F.CLK_SUP_mv (n : Nat) : Fld := ⟨0x10020 + 4 * n, 0, 12⟩

/-! ### Block 0x0002_0000 -/

/-- TIME_NOW_LO (R39 01_drive_model.md). -/
abbrev R.TIME_NOW_LO : Nat := 0x20000
/-- [31:0] RO, reset 0x0000_0000, immediately (R40). Global time [31:0] in ns; a read latches now_hi (R31) -/
abbrev F.TIME_NOW_LO_now_lo : Fld := ⟨0x20000, 0, 32⟩
/-- TIME_NOW_HI (R39 01_drive_model.md). -/
abbrev R.TIME_NOW_HI : Nat := 0x20004
/-- [31:0] RO, reset 0x0000_0000, immediately (R40). Global time [63:32] in ns -/
abbrev F.TIME_NOW_HI_now_hi : Fld := ⟨0x20004, 0, 32⟩
/-- TIME_TICK_CTL (R39 01_drive_model.md). -/
abbrev R.TIME_TICK_CTL : Nat := 0x20010
/-- [0:0] RW, MW, KG, SG, reset 0, immediately (R40). 1 starts the tick (R27); 0 stops it (R28); reads 1 from an accepted start until an accepted stop, the pending interval before the first tick included -/
abbrev F.TIME_TICK_CTL_run : Fld := ⟨0x20010, 0, 1⟩
/-- [4:4] RW, MW, reset 0, immediately (R40). 1 enables the second pulse on PPSO (R35) -/
abbrev F.TIME_TICK_CTL_ppso_en : Fld := ⟨0x20010, 4, 1⟩
/-- TIME_TICK_STS (R39 01_drive_model.md). -/
abbrev R.TIME_TICK_STS : Nat := 0x20014
/-- [0:0] RO, reset 0, immediately (R40). 1 from the first tick start until the end of the last tick (R28) -/
abbrev F.TIME_TICK_STS_running : Fld := ⟨0x20014, 0, 1⟩
/-- [1:1] W1C, reset 0, immediately (R40). A write of 0 to run was ignored (R28) -/
abbrev F.TIME_TICK_STS_stop_rejected : Fld := ⟨0x20014, 1, 1⟩
/-- [2:2] W1C, reset 0, immediately (R40). A start failed a check (R27) -/
abbrev F.TIME_TICK_STS_start_refused : Fld := ⟨0x20014, 2, 1⟩
/-- [6:4] RO, reset 0, immediately (R40). Code of the failed check; 0 = none; kept until the next start attempt -/
abbrev F.TIME_TICK_STS_start_error : Fld := ⟨0x20014, 4, 3⟩
/-- TIME_TICK_PERIOD (R39 01_drive_model.md). -/
abbrev R.TIME_TICK_PERIOD : Nat := 0x20018
/-- [15:0] RW, MW, KG, SG, reset 0x1387, at next enable (R40). Tick period in 4 ns counts, value − 1; legal 1,999–49,999; reset is 20 µs -/
abbrev F.TIME_TICK_PERIOD_period_m1 : Fld := ⟨0x20018, 0, 16⟩
/-- TIME_COUCH_LEAD (R39 01_drive_model.md). -/
abbrev R.TIME_COUCH_LEAD : Nat := 0x2001C
/-- [15:0] RW, MW, KG, SG, reset 0x05DC, at next enable (R40). Couch lead L in 4 ns counts; reset is 6 µs; legal range per R25 -/
abbrev F.TIME_COUCH_LEAD_lead : Fld := ⟨0x2001C, 0, 16⟩
/-- TIME_REQ_LEAD (R39 01_drive_model.md). -/
abbrev R.TIME_REQ_LEAD : Nat := 0x20020
/-- [15:0] RO, reset 0x0000, immediately (R40). Shortest lead for the configured lanes, in 4 ns counts; 0 when no lane is configured -/
abbrev F.TIME_REQ_LEAD_req_lead : Fld := ⟨0x20020, 0, 16⟩
/-- TIME_TICK_COUNT (R39 01_drive_model.md). -/
abbrev R.TIME_TICK_COUNT : Nat := 0x20024
/-- [31:0] RO, reset 0x0000_0000, immediately (R40). Number of the current tick since the last start; 0 in the first tick; wraps from 0xFFFF_FFFF to 0; holds its value while the tick is stopped -/
abbrev F.TIME_TICK_COUNT_count : Fld := ⟨0x20024, 0, 32⟩
/-- TIME_TICK_EPOCH_LO (R39 01_drive_model.md). -/
abbrev R.TIME_TICK_EPOCH_LO : Nat := 0x20028
/-- [31:0] RW, KG, SG, reset 0x0000_0000, at next enable (R40). E [31:0] in ns; bits [1:0] read as zero; ignored on a follower -/
abbrev F.TIME_TICK_EPOCH_LO_epoch_lo : Fld := ⟨0x20028, 0, 32⟩
/-- TIME_TICK_EPOCH_HI (R39 01_drive_model.md). -/
abbrev R.TIME_TICK_EPOCH_HI : Nat := 0x2002C
/-- [31:0] RW, KG, SG, reset 0x0000_0000, at next enable (R40). E [63:32] in ns; ignored on a follower -/
abbrev F.TIME_TICK_EPOCH_HI_epoch_hi : Fld := ⟨0x2002C, 0, 32⟩
/-- TIME_LINE_STS (R39 01_drive_model.md). -/
abbrev R.TIME_LINE_STS : Nat := 0x20030
/-- [1:0] RO, reset 0, immediately (R40). 0 standalone, 1 time master, 2 follower; 3 does not occur -/
abbrev F.TIME_LINE_STS_role : Fld := ⟨0x20030, 0, 2⟩
/-- [2:2] RO, reset 1, immediately (R40). Follower within ±10 ns of the master (R37); always 1 on a master or a standalone device, and therefore 1 after reset; 0 from the moment the device becomes a follower until it first locks -/
abbrev F.TIME_LINE_STS_locked : Fld := ⟨0x20030, 2, 1⟩
/-- [3:3] RO, reset 0, immediately (R40). Follower running on its own timebase after loss of time (R38) -/
abbrev F.TIME_LINE_STS_holdover : Fld := ⟨0x20030, 3, 1⟩
/-- [10:8] RO, reset 0, immediately (R40). The device's position on its ring; 0 when standalone -/
abbrev F.TIME_LINE_STS_position : Fld := ⟨0x20030, 8, 3⟩
/-- [31:16] RO, reset 0x0000, immediately (R40). Last measured offset to the master in ns, two's complement, saturating at ±32,767; 0 on a master or a standalone device -/
abbrev F.TIME_LINE_STS_offset : Fld := ⟨0x20030, 16, 16⟩
/-- TIME_PPSI_LO (R39 01_drive_model.md). -/
abbrev R.TIME_PPSI_LO : Nat := 0x20038
/-- [31:0] RO, reset 0x0000_0000, immediately (R40). Stamp [31:0] of the latest PPSI rising edge -/
abbrev F.TIME_PPSI_LO_ppsi_lo : Fld := ⟨0x20038, 0, 32⟩
/-- TIME_PPSI_HI (R39 01_drive_model.md). -/
abbrev R.TIME_PPSI_HI : Nat := 0x2003C
/-- [31:0] RO, reset 0x0000_0000, immediately (R40). Stamp [63:32] of the latest PPSI rising edge -/
abbrev F.TIME_PPSI_HI_ppsi_hi : Fld := ⟨0x2003C, 0, 32⟩
/-- TIME_SRV_STS (R359 12_shaft_link.md). -/
abbrev R.TIME_SRV_STS : Nat := 0x20040
/-- [0:0] RO, reset 0, immediately (R360). TIME_SRV_STS: a SYNC frame arrived in the last 1 ms -/
abbrev F.TIME_SRV_STS_sync_seen : Fld := ⟨0x20040, 0, 1⟩
/-- [2:1] RO, reset 0, immediately (R360). TIME_SRV_STS: copy in use, 0 none, 1 A, 2 B -/
abbrev F.TIME_SRV_STS_ring : Fld := ⟨0x20040, 1, 2⟩
/-- TIME_SRV_DLYA (R359 12_shaft_link.md). -/
abbrev R.TIME_SRV_DLYA : Nat := 0x20044
/-- [15:0] RO, reset 0x0000, immediately (R360). TIME_SRV_DLYA, TIME_SRV_DLYB: link delay from upstream, ns (R346) -/
abbrev F.TIME_SRV_DLYA_dly : Fld := ⟨0x20044, 0, 16⟩
/-- TIME_SRV_DLYB (R359 12_shaft_link.md). -/
abbrev R.TIME_SRV_DLYB : Nat := 0x20048
/-- [15:0] RO, reset 0x0000, immediately (R360). TIME_SRV_DLYA, TIME_SRV_DLYB: link delay from upstream, ns (R346) -/
abbrev F.TIME_SRV_DLYB_dly : Fld := ⟨0x20048, 0, 16⟩
/-- TIME_SRV_PERIOD (R359 12_shaft_link.md). -/
abbrev R.TIME_SRV_PERIOD : Nat := 0x2004C
/-- [15:0] RO, reset 0x0000, immediately (R360). TIME_SRV_PERIOD: master's period_m1 from the last SYNC -/
abbrev F.TIME_SRV_PERIOD_period_m1 : Fld := ⟨0x2004C, 0, 16⟩
/-- TIME_SRV_LOSS (R359 12_shaft_link.md). -/
abbrev R.TIME_SRV_LOSS : Nat := 0x20050
/-- [15:0] RC, reset 0x0000, immediately (R360). TIME_SRV_LOSS: entries into holdover; saturates -/
abbrev F.TIME_SRV_LOSS_count : Fld := ⟨0x20050, 0, 16⟩

/-! ### Block 0x0003_0000 -/

/-- ENG_LANE_STS (R67 02_nimson_engine.md). -/
abbrev R.ENG_LANE_STS (n : Nat) : Nat := 0x30000 + 0x80 * n
/-- [0:0] RO, reset 0, immediately (R68). 1 while a slice runs on the lane -/
abbrev F.ENG_LANE_STS_busy (n : Nat) : Fld := ⟨0x30000 + 0x80 * n, 0, 1⟩
/-- [1:1] W1C, reset 0, immediately (R68). A lane exception has occurred since last cleared -/
abbrev F.ENG_LANE_STS_exc_seen (n : Nat) : Fld := ⟨0x30000 + 0x80 * n, 1, 1⟩
/-- [13:8] RO, reset 0, immediately (R68). Context of the current or last slice -/
abbrev F.ENG_LANE_STS_context (n : Nat) : Fld := ⟨0x30000 + 0x80 * n, 8, 6⟩
/-- [23:16] RO, reset 0, immediately (R68). Index in the schedule table of the current or last slice -/
abbrev F.ENG_LANE_STS_slice (n : Nat) : Fld := ⟨0x30000 + 0x80 * n, 16, 8⟩
/-- ENG_LANE_EXC (R67 02_nimson_engine.md). -/
abbrev R.ENG_LANE_EXC (n : Nat) : Nat := 0x30004 + 0x80 * n
/-- [3:0] RO, reset 0, immediately (R68). ENG_LANE_EXC: code of the latest lane exception (R58) -/
abbrev F.ENG_LANE_EXC_cause (n : Nat) : Fld := ⟨0x30004 + 0x80 * n, 0, 4⟩
/-- [9:4] RO, reset 0, immediately (R68). ENG_LANE_EXC: context of that exception -/
abbrev F.ENG_LANE_EXC_exc_context (n : Nat) : Fld := ⟨0x30004 + 0x80 * n, 4, 6⟩
/-- ENG_LANE_EXC_PC (R67 02_nimson_engine.md). -/
abbrev R.ENG_LANE_EXC_PC (n : Nat) : Nat := 0x30008 + 0x80 * n
/-- [31:0] RO, reset 0x0000_0000, immediately (R68). ENG_LANE_EXC_PC: program-memory byte address of the faulting instruction; for a position without a staged tile, the marked value of R58 -/
abbrev F.ENG_LANE_EXC_PC_pc (n : Nat) : Fld := ⟨0x30008 + 0x80 * n, 0, 32⟩
/-- ENG_LANE_CYC_LAST (R67 02_nimson_engine.md). -/
abbrev R.ENG_LANE_CYC_LAST (n : Nat) : Nat := 0x3000C + 0x80 * n
/-- [19:0] RO, reset 0, immediately (R68). End cycle of the lane's last slice in the previous tick, including gaps -/
abbrev F.ENG_LANE_CYC_LAST_cyc_last (n : Nat) : Fld := ⟨0x3000C + 0x80 * n, 0, 20⟩
/-- ENG_LANE_CYC_MAX (R67 02_nimson_engine.md). -/
abbrev R.ENG_LANE_CYC_MAX (n : Nat) : Nat := 0x30010 + 0x80 * n
/-- [19:0] RC, reset 0, immediately (R68). Largest cyc_last since last read -/
abbrev F.ENG_LANE_CYC_MAX_cyc_max (n : Nat) : Fld := ⟨0x30010 + 0x80 * n, 0, 20⟩
/-- ENG_LANE_EXC_TICK (R67 02_nimson_engine.md). -/
abbrev R.ENG_LANE_EXC_TICK (n : Nat) : Nat := 0x30014 + 0x80 * n
/-- [31:0] RO, reset 0x0000_0000, immediately (R68). ENG_LANE_EXC_TICK: TIME_TICK_COUNT at the exception -/
abbrev F.ENG_LANE_EXC_TICK_tick (n : Nat) : Fld := ⟨0x30014 + 0x80 * n, 0, 32⟩
/-- ENG_LANE_ECC_CNT (R67 02_nimson_engine.md). -/
abbrev R.ENG_LANE_ECC_CNT (n : Nat) : Nat := 0x30018 + 0x80 * n
/-- [15:0] RC, reset 0x0000, immediately (R68). ENG_LANE_ECC_CNT: corrected single-bit errors; saturates at 0xFFFF -/
abbrev F.ENG_LANE_ECC_CNT_ecc_corr (n : Nat) : Fld := ⟨0x30018 + 0x80 * n, 0, 16⟩
/-- ENG_DBG_CTL (R100 03_nimson_instructions.md). -/
abbrev R.ENG_DBG_CTL (n : Nat) : Nat := 0x3001C + 0x80 * n
/-- [0:0] WO, reset 0, immediately (R101). ENG_DBG_CTL: 1 requests a halt of all lanes -/
abbrev F.ENG_DBG_CTL_halt (n : Nat) : Fld := ⟨0x3001C + 0x80 * n, 0, 1⟩
/-- [1:1] WO, reset 0, immediately (R101). ENG_DBG_CTL: 1 executes one instruction on this lane while halted -/
abbrev F.ENG_DBG_CTL_step (n : Nat) : Fld := ⟨0x3001C + 0x80 * n, 1, 1⟩
/-- [2:2] WO, reset 0, immediately (R101). ENG_DBG_CTL: 1 resumes all lanes -/
abbrev F.ENG_DBG_CTL_resume (n : Nat) : Fld := ⟨0x3001C + 0x80 * n, 2, 1⟩
/-- [7:4] RW, reset 0x0, immediately (R101). ENG_DBG_CTL: bit m enables ENG_DBG_BPm -/
abbrev F.ENG_DBG_CTL_bp_en (n : Nat) : Fld := ⟨0x3001C + 0x80 * n, 4, 4⟩
/-- ENG_DBG_STS (R100 03_nimson_instructions.md). -/
abbrev R.ENG_DBG_STS (n : Nat) : Nat := 0x30020 + 0x80 * n
/-- [0:0] RO, reset 0, immediately (R101). ENG_DBG_STS: lanes are halted -/
abbrev F.ENG_DBG_STS_halted (n : Nat) : Fld := ⟨0x30020 + 0x80 * n, 0, 1⟩
/-- [3:1] RO, reset 0, immediately (R101). ENG_DBG_STS: 0 none, 1 request, 2 breakpoint on this lane, 3 step, 4 halted by another lane -/
abbrev F.ENG_DBG_STS_reason (n : Nat) : Fld := ⟨0x30020 + 0x80 * n, 1, 3⟩
/-- ENG_DBG_PC (R100 03_nimson_instructions.md). -/
abbrev R.ENG_DBG_PC (n : Nat) : Nat := 0x30024 + 0x80 * n
/-- [20:0] RO, reset 0, immediately (R101). ENG_DBG_PC: program-memory byte address of the next instruction -/
abbrev F.ENG_DBG_PC_addr (n : Nat) : Fld := ⟨0x30024 + 0x80 * n, 0, 21⟩
/-- [28:24] RO, reset 0, immediately (R101). ENG_DBG_PC: slot of the next instruction -/
abbrev F.ENG_DBG_PC_slot (n : Nat) : Fld := ⟨0x30024 + 0x80 * n, 24, 5⟩
/-- ENG_DBG_BP (R100 03_nimson_instructions.md). -/
abbrev R.ENG_DBG_BP (n i : Nat) : Nat := 0x30028 + 0x80 * n + 4 * i
/-- [20:0] RW, reset 0, immediately (R101). ENG_DBG_BPm: halt before executing the instruction at this address -/
abbrev F.ENG_DBG_BP_addr (n i : Nat) : Fld := ⟨0x30028 + 0x80 * n + 4 * i, 0, 21⟩
/-- ENG_DBG_SEL (R100 03_nimson_instructions.md). -/
abbrev R.ENG_DBG_SEL (n : Nat) : Nat := 0x30038 + 0x80 * n
/-- [1:0] RW, reset 0, immediately (R101). ENG_DBG_SEL: 0 S, 1 V, 2 P, 3 A -/
abbrev F.ENG_DBG_SEL_file (n : Nat) : Fld := ⟨0x30038 + 0x80 * n, 0, 2⟩
/-- [12:8] RW, reset 0, immediately (R101). ENG_DBG_SEL: register number -/
abbrev F.ENG_DBG_SEL_index (n : Nat) : Fld := ⟨0x30038 + 0x80 * n, 8, 5⟩
/-- ENG_DBG_DATA (R100 03_nimson_instructions.md). -/
abbrev R.ENG_DBG_DATA (n i : Nat) : Nat := 0x3003C + 0x80 * n + 4 * i
/-- [31:0] RW, reset 0, immediately (R101). ENG_DBG_DATAm: bits [32m+31:32m] of the selected register. An S, P or A register uses DATA0 only, and an A register reads as tile in [9:0] and open in [31]. Writes act only while halted. -/
abbrev F.ENG_DBG_DATA_data (n i : Nat) : Fld := ⟨0x3003C + 0x80 * n + 4 * i, 0, 32⟩
/-- ENG_DBG_LST (R100 03_nimson_instructions.md). -/
abbrev R.ENG_DBG_LST (n : Nat) : Nat := 0x3004C + 0x80 * n
/-- [2:0] RO, reset 0, immediately (R101). ENG_DBG_LST: LST -/
abbrev F.ENG_DBG_LST_lst (n : Nat) : Fld := ⟨0x3004C + 0x80 * n, 0, 3⟩
/-- ENG_DBG_LOOP (R100 03_nimson_instructions.md). -/
abbrev R.ENG_DBG_LOOP (n : Nat) : Nat := 0x30050 + 0x80 * n
/-- [11:0] RO, reset 0, immediately (R101). ENG_DBG_LOOP: iteration index of the inner loop -/
abbrev F.ENG_DBG_LOOP_inner (n : Nat) : Fld := ⟨0x30050 + 0x80 * n, 0, 12⟩
/-- [23:12] RO, reset 0, immediately (R101). ENG_DBG_LOOP: iteration index of the outer loop -/
abbrev F.ENG_DBG_LOOP_outer (n : Nat) : Fld := ⟨0x30050 + 0x80 * n, 12, 12⟩
/-- [25:24] RO, reset 0, immediately (R101). ENG_DBG_LOOP: active loops, 0–2 -/
abbrev F.ENG_DBG_LOOP_depth (n : Nat) : Fld := ⟨0x30050 + 0x80 * n, 24, 2⟩
/-- ENG_DBG_CYC (R100 03_nimson_instructions.md). -/
abbrev R.ENG_DBG_CYC (n : Nat) : Nat := 0x30054 + 0x80 * n
/-- [19:0] RO, reset 0, immediately (R101). ENG_DBG_CYC: lane cycles since the slice started -/
abbrev F.ENG_DBG_CYC_cycles (n : Nat) : Fld := ⟨0x30054 + 0x80 * n, 0, 20⟩
/-- ENG_DBG_PRED0 (R100 03_nimson_instructions.md). -/
abbrev R.ENG_DBG_PRED0 (n : Nat) : Nat := 0x30058 + 0x80 * n
/-- [31:0] RO, reset 0xFF, immediately (R101). ENG_DBG_PRED0: P0 in [7:0] to P3 in [31:24]; ENG_DBG_PRED1: P4 to P7 -/
abbrev F.ENG_DBG_PRED0_pred (n : Nat) : Fld := ⟨0x30058 + 0x80 * n, 0, 32⟩
/-- ENG_DBG_PRED1 (R100 03_nimson_instructions.md). -/
abbrev R.ENG_DBG_PRED1 (n : Nat) : Nat := 0x3005C + 0x80 * n
/-- [31:0] RO, reset 0x0, immediately (R101). ENG_DBG_PRED0: P0 in [7:0] to P3 in [31:24]; ENG_DBG_PRED1: P4 to P7 -/
abbrev F.ENG_DBG_PRED1_pred (n : Nat) : Fld := ⟨0x3005C + 0x80 * n, 0, 32⟩

/-! ### Block 0x0004_0000 -/

/-- CTX_STS (R67 02_nimson_engine.md). -/
abbrev R.CTX_STS (n : Nat) : Nat := 0x40000 + 0x80 * n
/-- [2:0] RO, reset 0, immediately (R68). CTX_STS: 0 IDLE (no slice), 1 ACTIVE, 2 HALTED, 3 KEEPER (CX0 only) -/
abbrev F.CTX_STS_state (n : Nat) : Fld := ⟨0x40000 + 0x80 * n, 0, 3⟩
/-- [5:4] RO, reset 0, immediately (R68). CTX_STS: consecutive discards counted by R63, 0–3 -/
abbrev F.CTX_STS_streak (n : Nat) : Fld := ⟨0x40000 + 0x80 * n, 4, 2⟩
/-- [6:6] W1C, reset 0, immediately (R68). CTX_STS: a restart was ignored (R64) -/
abbrev F.CTX_STS_restart_rejected (n : Nat) : Fld := ⟨0x40000 + 0x80 * n, 6, 1⟩
/-- [11:8] RO, reset 0, immediately (R68). CTX_STS: discard cause that halted the context; 0 for HALT_SELF -/
abbrev F.CTX_STS_halt_cause (n : Nat) : Fld := ⟨0x40000 + 0x80 * n, 8, 4⟩
/-- CTX_CTL (R67 02_nimson_engine.md). -/
abbrev R.CTX_CTL (n : Nat) : Nat := 0x40004 + 0x80 * n
/-- [0:0] WO, KG, reset 0, immediately (R68). CTX_CTL: 1 restarts a halted context (R64) -/
abbrev F.CTX_CTL_restart (n : Nat) : Fld := ⟨0x40004 + 0x80 * n, 0, 1⟩
/-- CTX_SAFE_DRIVES (R67 02_nimson_engine.md). -/
abbrev R.CTX_SAFE_DRIVES (n : Nat) : Nat := 0x40008 + 0x80 * n
/-- [7:0] RO, reset 0x00, at reset (R68). CTX_SAFE_DRIVES: bit n set if the context serves FUn; loaded from the verified schedule table -/
abbrev F.CTX_SAFE_DRIVES_drives (n : Nat) : Fld := ⟨0x40008 + 0x80 * n, 0, 8⟩
/-- CTX_COMMIT_CNT (R67 02_nimson_engine.md). -/
abbrev R.CTX_COMMIT_CNT (n : Nat) : Nat := 0x4000C + 0x80 * n
/-- [31:0] RC, reset 0x0000_0000, immediately (R68). CTX_COMMIT_CNT: groups committed; saturates at 0xFFFF_FFFF -/
abbrev F.CTX_COMMIT_CNT_commit_cnt (n : Nat) : Fld := ⟨0x4000C + 0x80 * n, 0, 32⟩
/-- CTX_ABORT_CNT (R67 02_nimson_engine.md). -/
abbrev R.CTX_ABORT_CNT (n : Nat) : Nat := 0x40010 + 0x80 * n
/-- [31:0] RC, reset 0x0000_0000, immediately (R68). CTX_ABORT_CNT: groups discarded; saturates -/
abbrev F.CTX_ABORT_CNT_abort_cnt (n : Nat) : Fld := ⟨0x40010 + 0x80 * n, 0, 32⟩
/-- CTX_LAST_ABORT (R67 02_nimson_engine.md). -/
abbrev R.CTX_LAST_ABORT (n : Nat) : Nat := 0x40014 + 0x80 * n
/-- [3:0] RO, reset 0, immediately (R68). CTX_LAST_ABORT: discard cause (R56); 0 = none -/
abbrev F.CTX_LAST_ABORT_cause (n : Nat) : Fld := ⟨0x40014 + 0x80 * n, 0, 4⟩
/-- [7:4] RO, reset 0, immediately (R68). CTX_LAST_ABORT: lane exception code when cause is 5 -/
abbrev F.CTX_LAST_ABORT_exc_cause (n : Nat) : Fld := ⟨0x40014 + 0x80 * n, 4, 4⟩
/-- [31:8] RO, reset 0, immediately (R68). CTX_LAST_ABORT: TIME_TICK_COUNT[23:0] of the discard -/
abbrev F.CTX_LAST_ABORT_tick (n : Nat) : Fld := ⟨0x40014 + 0x80 * n, 8, 24⟩
/-- CTX_OVERRUN_CNT (R67 02_nimson_engine.md). -/
abbrev R.CTX_OVERRUN_CNT (n : Nat) : Nat := 0x40018 + 0x80 * n
/-- [31:0] RC, reset 0x0000_0000, immediately (R68). CTX_OVERRUN_CNT: overruns (R62); saturates -/
abbrev F.CTX_OVERRUN_CNT_overrun_cnt (n : Nat) : Fld := ⟨0x40018 + 0x80 * n, 0, 32⟩
/-- CTX_CYC_LAST (R67 02_nimson_engine.md). -/
abbrev R.CTX_CYC_LAST (n : Nat) : Nat := 0x4001C + 0x80 * n
/-- [19:0] RO, reset 0, immediately (R68). CTX_CYC_LAST: lane cycles used by the context's slices in the previous tick -/
abbrev F.CTX_CYC_LAST_cyc_last (n : Nat) : Fld := ⟨0x4001C + 0x80 * n, 0, 20⟩
/-- CTX_CYC_MAX (R67 02_nimson_engine.md). -/
abbrev R.CTX_CYC_MAX (n : Nat) : Nat := 0x40020 + 0x80 * n
/-- [19:0] RC, reset 0, immediately (R68). CTX_CYC_MAX: largest cyc_last since last read -/
abbrev F.CTX_CYC_MAX_cyc_max (n : Nat) : Fld := ⟨0x40020 + 0x80 * n, 0, 20⟩
/-- CTX_BUDGET (R67 02_nimson_engine.md). -/
abbrev R.CTX_BUDGET (n : Nat) : Nat := 0x40024 + 0x80 * n
/-- [19:0] RO, reset 0, at reset (R68). CTX_BUDGET: sum of the budgets of the context's slices -/
abbrev F.CTX_BUDGET_budget (n : Nat) : Fld := ⟨0x40024 + 0x80 * n, 0, 20⟩
/-- CTX_CLAMP_CNT (R67 02_nimson_engine.md). -/
abbrev R.CTX_CLAMP_CNT (n : Nat) : Nat := 0x40028 + 0x80 * n
/-- [31:0] RC, reset 0x0000_0000, immediately (R68). CTX_CLAMP_CNT: couches with a clamped target (R61); saturates -/
abbrev F.CTX_CLAMP_CNT_clamp_cnt (n : Nat) : Fld := ⟨0x40028 + 0x80 * n, 0, 32⟩
/-- CTX_HOST_DROP (R67 02_nimson_engine.md). -/
abbrev R.CTX_HOST_DROP (n : Nat) : Nat := 0x4002C + 0x80 * n
/-- [31:0] RC, reset 0x0000_0000, immediately (R68). CTX_HOST_DROP: host writes dropped (R59); saturates -/
abbrev F.CTX_HOST_DROP_host_drop (n : Nat) : Fld := ⟨0x4002C + 0x80 * n, 0, 32⟩
/-- CTX_SVC_RESULT (R67 02_nimson_engine.md). -/
abbrev R.CTX_SVC_RESULT (n : Nat) : Nat := 0x40030 + 0x80 * n
/-- [31:0] RO, reset 0x0000_0000, immediately (R68). CTX_SVC_RESULT: result of the latest completed request; zero for UNKNOWN and REFUSED (R65) -/
abbrev F.CTX_SVC_RESULT_result (n : Nat) : Fld := ⟨0x40030 + 0x80 * n, 0, 32⟩
/-- CTX_SVC_STS (R67 02_nimson_engine.md). -/
abbrev R.CTX_SVC_STS (n : Nat) : Nat := 0x40034 + 0x80 * n
/-- [1:0] RO, reset 0, immediately (R68). CTX_SVC_STS: 0 PENDING or none, 1 DONE, 2 UNKNOWN, 3 REFUSED -/
abbrev F.CTX_SVC_STS_status (n : Nat) : Fld := ⟨0x40034 + 0x80 * n, 0, 2⟩
/-- [2:2] W1C, reset 0, immediately (R68). CTX_SVC_STS: a second request in one tick was dropped -/
abbrev F.CTX_SVC_STS_dropped (n : Nat) : Fld := ⟨0x40034 + 0x80 * n, 2, 1⟩
/-- [15:8] RO, reset 0x00, immediately (R68). CTX_SVC_STS: number of the latest request -/
abbrev F.CTX_SVC_STS_service (n : Nat) : Fld := ⟨0x40034 + 0x80 * n, 8, 8⟩
/-- CTX_FELT_USED (R67 02_nimson_engine.md). -/
abbrev R.CTX_FELT_USED (n : Nat) : Nat := 0x40038 + 0x80 * n
/-- [6:0] RO, reset 0, immediately (R68). CTX_FELT_USED: writes in the last closed group, 0–64 -/
abbrev F.CTX_FELT_USED_used (n : Nat) : Fld := ⟨0x40038 + 0x80 * n, 0, 7⟩
/-- CTX_FELT_MAX (R67 02_nimson_engine.md). -/
abbrev R.CTX_FELT_MAX (n : Nat) : Nat := 0x4003C + 0x80 * n
/-- [6:0] RC, reset 0, immediately (R68). CTX_FELT_MAX: largest value of used since last read -/
abbrev F.CTX_FELT_MAX_max (n : Nat) : Fld := ⟨0x4003C + 0x80 * n, 0, 7⟩
/-- CTX_OWN (R67 02_nimson_engine.md). -/
abbrev R.CTX_OWN (n i : Nat) : Nat := 0x40040 + 0x80 * n + 4 * i
/-- [7:0] RO, reset 0x00, at reset (R68). Target kind (R54); 0 = unused entry -/
abbrev F.CTX_OWN_kind (n i : Nat) : Fld := ⟨0x40040 + 0x80 * n + 4 * i, 0, 8⟩
/-- [15:8] RO, reset 0x00, at reset (R68). First instance owned -/
abbrev F.CTX_OWN_first (n i : Nat) : Fld := ⟨0x40040 + 0x80 * n + 4 * i, 8, 8⟩
/-- [23:16] RO, reset 0x00, at reset (R68). Last instance owned; not below first -/
abbrev F.CTX_OWN_last (n i : Nat) : Fld := ⟨0x40040 + 0x80 * n + 4 * i, 16, 8⟩

/-! ### Block 0x0005_0000 -/

/-- TILE_SCHED_STS (R67 02_nimson_engine.md). -/
abbrev R.TILE_SCHED_STS : Nat := 0x50000
/-- [0:0] RO, reset 0, immediately (R68). TILE_SCHED_STS: a schedule table is present -/
abbrev F.TILE_SCHED_STS_loaded : Fld := ⟨0x50000, 0, 1⟩
/-- [1:1] RO, reset 0, immediately (R68). TILE_SCHED_STS: it passed R47 -/
abbrev F.TILE_SCHED_STS_verified : Fld := ⟨0x50000, 1, 1⟩
/-- [7:4] RO, reset 0, immediately (R68). TILE_SCHED_STS: code of R47; 0 = none -/
abbrev F.TILE_SCHED_STS_error : Fld := ⟨0x50000, 4, 4⟩
/-- TILE_SCHED_INFO (R67 02_nimson_engine.md). -/
abbrev R.TILE_SCHED_INFO : Nat := 0x50004
/-- [8:0] RO, reset 0, immediately (R68). TILE_SCHED_INFO: number of slices, 0–256 -/
abbrev F.TILE_SCHED_INFO_slices : Fld := ⟨0x50004, 0, 9⟩
/-- [21:16] RO, reset 0, immediately (R68). TILE_SCHED_INFO: highest context named -/
abbrev F.TILE_SCHED_INFO_top_context : Fld := ⟨0x50004, 16, 6⟩
/-- TILE_SCRUB_STS (R67 02_nimson_engine.md). -/
abbrev R.TILE_SCRUB_STS : Nat := 0x50008
/-- [11:0] RO, reset 0, immediately (R68). TILE_SCRUB_STS: tile being scrubbed; 0–2,047 program, 2,048–3,071 table tile n at 2,048 + n -/
abbrev F.TILE_SCRUB_STS_position : Fld := ⟨0x50008, 0, 12⟩
/-- TILE_WM_FAIL (R67 02_nimson_engine.md). -/
abbrev R.TILE_WM_FAIL : Nat := 0x5000C
/-- [11:0] RO, reset 0, immediately (R68). TILE_WM_FAIL: latest failed tile, numbered as for position -/
abbrev F.TILE_WM_FAIL_tile : Fld := ⟨0x5000C, 0, 12⟩
/-- [13:12] RO, reset 0, immediately (R68). TILE_WM_FAIL: 0 staging, 1 TOPEN, 2 scrubber, 3 host rewrite -/
abbrev F.TILE_WM_FAIL_where : Fld := ⟨0x5000C, 12, 2⟩
/-- [31:16] RO, reset 0, immediately (R68). TILE_WM_FAIL: failures; saturates at 0xFFFF -/
abbrev F.TILE_WM_FAIL_count : Fld := ⟨0x5000C, 16, 16⟩
/-- TILE_WM_STS (R67 02_nimson_engine.md). -/
abbrev R.TILE_WM_STS : Nat := 0x50010
/-- [11:0] RO, reset 0, immediately (R68). TILE_WM_STS: tiles now quarantined -/
abbrev F.TILE_WM_STS_quarantined : Fld := ⟨0x50010, 0, 12⟩
/-- [16:16] RO, reset 0, immediately (R68). TILE_WM_STS: keeper is checking a rewrite (R52) -/
abbrev F.TILE_WM_STS_busy : Fld := ⟨0x50010, 16, 1⟩
/-- [17:17] W1C, reset 0, immediately (R68). TILE_WM_STS: a rewrite's CRC did not match -/
abbrev F.TILE_WM_STS_mismatch : Fld := ⟨0x50010, 17, 1⟩
/-- TILE_WM_VALUE (R67 02_nimson_engine.md). -/
abbrev R.TILE_WM_VALUE : Nat := 0x50014
/-- [31:0] RW, reset 0x0000_0000, immediately (R68). TILE_WM_VALUE: CRC-32C of the rewritten tile -/
abbrev F.TILE_WM_VALUE_value : Fld := ⟨0x50014, 0, 32⟩
/-- TILE_WM_COMMIT (R67 02_nimson_engine.md). -/
abbrev R.TILE_WM_COMMIT : Nat := 0x50018
/-- [9:0] WO, reset 0, immediately (R68). TILE_WM_COMMIT: table tile number; a write starts the check -/
abbrev F.TILE_WM_COMMIT_tile : Fld := ⟨0x50018, 0, 10⟩
/-- TILE_SCRUB_CNT (R67 02_nimson_engine.md). -/
abbrev R.TILE_SCRUB_CNT : Nat := 0x5001C
/-- [31:0] RO, reset 0x0000_0000, immediately (R68). TILE_SCRUB_CNT: completed scrubber passes; wraps -/
abbrev F.TILE_SCRUB_CNT_passes : Fld := ⟨0x5001C, 0, 32⟩
/-- TILE_LANE_RES (R67 02_nimson_engine.md). -/
abbrev R.TILE_LANE_RES (n : Nat) : Nat := 0x50020 + 0xC * n
/-- [31:0] RO, reset 0x0000_0000, immediately (R68). TILE_LANE_RESn / TILE_LANE_OVLn: bit s set if slot s holds a resident or overlay tile -/
abbrev F.TILE_LANE_RES_slots (n : Nat) : Fld := ⟨0x50020 + 0xC * n, 0, 32⟩
/-- TILE_LANE_OVL (R67 02_nimson_engine.md). -/
abbrev R.TILE_LANE_OVL (n : Nat) : Nat := 0x50024 + 0xC * n
/-- [31:0] RO, reset 0x0000_0000, immediately (R68). TILE_LANE_RESn / TILE_LANE_OVLn: bit s set if slot s holds a resident or overlay tile -/
abbrev F.TILE_LANE_OVL_slots (n : Nat) : Fld := ⟨0x50024 + 0xC * n, 0, 32⟩
/-- TILE_LANE_STAGED (R67 02_nimson_engine.md). -/
abbrev R.TILE_LANE_STAGED (n : Nat) : Nat := 0x50028 + 0xC * n
/-- [31:0] RO, reset 0x0000_0000, immediately (R68). TILE_LANE_STAGEDn: tiles staged on the lane since reset; wraps -/
abbrev F.TILE_LANE_STAGED_staged (n : Nat) : Fld := ⟨0x50028 + 0xC * n, 0, 32⟩
/-- TILE_QUAR_LIST (R67 02_nimson_engine.md). -/
abbrev R.TILE_QUAR_LIST (n : Nat) : Nat := 0x50080 + 4 * n
/-- [11:0] RO, reset 0, immediately (R68). TILE_QUAR_LISTm: quarantined tile, numbered as for position -/
abbrev F.TILE_QUAR_LIST_tile (n : Nat) : Fld := ⟨0x50080 + 4 * n, 0, 12⟩
/-- [31:31] RO, reset 0, immediately (R68). TILE_QUAR_LISTm: entry in use -/
abbrev F.TILE_QUAR_LIST_valid (n : Nat) : Fld := ⟨0x50080 + 4 * n, 31, 1⟩

/-! ### Block 0x0006_0000 -/

/-- SNS_SD_CFG (R121 04_measurement.md). -/
abbrev R.SNS_SD_CFG (n : Nat) : Nat := 0x60000 + 0x20 * n
/-- [0:0] RW, MW, reset 0, immediately (R121). SNS_SD_CFGn: 1 enables the channel; refused per R110 -/
abbrev F.SNS_SD_CFG_en (n : Nat) : Fld := ⟨0x60000 + 0x20 * n, 0, 1⟩
/-- [2:1] RW, MW, reset 0, at next enable (R121). SNS_SD_CFGn: clock SDC0–SDC3 -/
abbrev F.SNS_SD_CFG_clk_sel (n : Nat) : Fld := ⟨0x60000 + 0x20 * n, 1, 2⟩
/-- [3:3] RW, MW, reset 0, at next enable (R121). SNS_SD_CFGn: 0 rising, 1 falling latch edge -/
abbrev F.SNS_SD_CFG_edge (n : Nat) : Fld := ⟨0x60000 + 0x20 * n, 3, 1⟩
/-- [15:8] RW, MW, reset 0x3F, at next enable (R121). SNS_SD_CFGn: N, value − 1; legal 15–255; a value below 15 refuses the enable and sets cfg_error -/
abbrev F.SNS_SD_CFG_osr_m1 (n : Nat) : Fld := ⟨0x60000 + 0x20 * n, 8, 8⟩
/-- [31:16] RW, MW, reset 0x0000, immediately (R121). SNS_SD_CFGn: offset, Q1.15 -/
abbrev F.SNS_SD_CFG_offset (n : Nat) : Fld := ⟨0x60000 + 0x20 * n, 16, 16⟩
/-- SNS_SD_FAST (R121 04_measurement.md). -/
abbrev R.SNS_SD_FAST (n : Nat) : Nat := 0x60004 + 0x20 * n
/-- [0:0] RW, MW, KG, SG, reset 0, immediately (R121). SNS_SD_FASTn: enables the fast path (R107) -/
abbrev F.SNS_SD_FAST_fast_en (n : Nat) : Fld := ⟨0x60004 + 0x20 * n, 0, 1⟩
/-- [12:8] RW, MW, KG, SG, reset 0x0F, at next enable (R121). SNS_SD_FASTn: Nf, value − 1; legal 7–31; below 7 refuses fast_en -/
abbrev F.SNS_SD_FAST_fosr_m1 (n : Nat) : Fld := ⟨0x60004 + 0x20 * n, 8, 5⟩
/-- SNS_SD_THR (R121 04_measurement.md). -/
abbrev R.SNS_SD_THR (n : Nat) : Nat := 0x60008 + 0x20 * n
/-- [15:0] RW, MW, KG, reset 0x7FFF, immediately (R121). SNS_SD_THRn: high threshold, Q1.15 -/
abbrev F.SNS_SD_THR_hi (n : Nat) : Fld := ⟨0x60008 + 0x20 * n, 0, 16⟩
/-- [31:16] RW, MW, KG, reset 0x8000, immediately (R121). SNS_SD_THRn: low threshold, Q1.15 -/
abbrev F.SNS_SD_THR_lo (n : Nat) : Fld := ⟨0x60008 + 0x20 * n, 16, 16⟩
/-- SNS_SD_SCALE (R121 04_measurement.md). -/
abbrev R.SNS_SD_SCALE (n : Nat) : Nat := 0x6000C + 0x20 * n
/-- [31:0] RW, reset 0x3F80_0000, immediately (R121). SNS_SD_SCALEn: scale, fp32; reset 1.0 -/
abbrev F.SNS_SD_SCALE_gain (n : Nat) : Fld := ⟨0x6000C + 0x20 * n, 0, 32⟩
/-- SNS_SD_MAP (R121 04_measurement.md). -/
abbrev R.SNS_SD_MAP (n : Nat) : Nat := 0x60010 + 0x20 * n
/-- [2:0] RW, MW, reset 0, at next enable (R121). SNS_SD_MAPn: R110 -/
abbrev F.SNS_SD_MAP_role (n : Nat) : Fld := ⟨0x60010 + 0x20 * n, 0, 3⟩
/-- [10:8] RW, MW, reset 0, at next enable (R121). SNS_SD_MAPn: drive for roles 1–3 -/
abbrev F.SNS_SD_MAP_drive (n : Nat) : Fld := ⟨0x60010 + 0x20 * n, 8, 3⟩
/-- [15:12] RW, MW, reset 0, at next enable (R121). SNS_SD_MAPn: arm for role 4; above 11 with role 4 refuses the enable and sets cfg_error; ignored for every other role -/
abbrev F.SNS_SD_MAP_arm (n : Nat) : Fld := ⟨0x60010 + 0x20 * n, 12, 4⟩
/-- SNS_SD_STS (R121 04_measurement.md). -/
abbrev R.SNS_SD_STS (n : Nat) : Nat := 0x60014 + 0x20 * n
/-- [15:0] RO, reset 0x0000, immediately (R121). SNS_SD_STSn: last control output, Q1.15 -/
abbrev F.SNS_SD_STS_raw (n : Nat) : Fld := ⟨0x60014 + 0x20 * n, 0, 16⟩
/-- [16:16] RO, reset 0, immediately (R121). SNS_SD_STSn: R105 -/
abbrev F.SNS_SD_STS_valid (n : Nat) : Fld := ⟨0x60014 + 0x20 * n, 16, 1⟩
/-- [17:17] RO, reset 0, immediately (R121). SNS_SD_STSn: fewer than 3N bits since enable -/
abbrev F.SNS_SD_STS_settling (n : Nat) : Fld := ⟨0x60014 + 0x20 * n, 17, 1⟩
/-- [18:18] W1C, reset 0, immediately (R121). SNS_SD_STSn: 64 equal bits seen -/
abbrev F.SNS_SD_STS_stuck (n : Nat) : Fld := ⟨0x60014 + 0x20 * n, 18, 1⟩
/-- [19:19] W1C, reset 0, immediately (R121). SNS_SD_STSn: ¦raw¦ above 0.9375 seen -/
abbrev F.SNS_SD_STS_range (n : Nat) : Fld := ⟨0x60014 + 0x20 * n, 19, 1⟩
/-- [20:20] W1C, reset 0, immediately (R121). SNS_SD_STSn: high comparator tripped -/
abbrev F.SNS_SD_STS_fast_hi (n : Nat) : Fld := ⟨0x60014 + 0x20 * n, 20, 1⟩
/-- [21:21] W1C, reset 0, immediately (R121). SNS_SD_STSn: low comparator tripped -/
abbrev F.SNS_SD_STS_fast_lo (n : Nat) : Fld := ⟨0x60014 + 0x20 * n, 21, 1⟩
/-- [22:22] RO, reset 0, immediately (R121). SNS_SD_STSn: fast over-current signal now asserted -/
abbrev F.SNS_SD_STS_fast_act (n : Nat) : Fld := ⟨0x60014 + 0x20 * n, 22, 1⟩
/-- [23:23] W1C, reset 0, immediately (R121). SNS_SD_STSn: an enable was refused -/
abbrev F.SNS_SD_STS_cfg_error (n : Nat) : Fld := ⟨0x60014 + 0x20 * n, 23, 1⟩
/-- [24:24] W1C, reset 0, immediately (R121). SNS_SD_STSn: fast_en refused (R107) -/
abbrev F.SNS_SD_STS_fast_refused (n : Nat) : Fld := ⟨0x60014 + 0x20 * n, 24, 1⟩
/-- [31:25] RO, reset 0, immediately (R121). SNS_SD_STSn: fast latency in 16 ns counts, rounded up; 0 when fast_en is 0 -/
abbrev F.SNS_SD_STS_fast_lat (n : Nat) : Fld := ⟨0x60014 + 0x20 * n, 25, 7⟩
/-- SNS_SAR_CTL (R121 04_measurement.md). -/
abbrev R.SNS_SAR_CTL : Nat := 0x60800
/-- [0:0] RW, MW, reset 0, immediately (R121). SNS_SAR_CTL: 1 enables the sequencer after R116 -/
abbrev F.SNS_SAR_CTL_en : Fld := ⟨0x60800, 0, 1⟩
/-- [7:4] RW, MW, reset 0, at next enable (R121). SNS_SAR_CTL: S, value − 1 -/
abbrev F.SNS_SAR_CTL_len_m1 : Fld := ⟨0x60800, 4, 4⟩
/-- SNS_SAR_STS (R121 04_measurement.md). -/
abbrev R.SNS_SAR_STS : Nat := 0x60804
/-- [0:0] RO, reset 0, immediately (R121). SNS_SAR_STS: sequencer enabled -/
abbrev F.SNS_SAR_STS_running : Fld := ⟨0x60804, 0, 1⟩
/-- [3:1] RO, reset 0, immediately (R121). SNS_SAR_STS: code of R116; 0 = none; kept until the next enable -/
abbrev F.SNS_SAR_STS_error : Fld := ⟨0x60804, 1, 3⟩
/-- SNS_SAR_SEQ (R121 04_measurement.md). -/
abbrev R.SNS_SAR_SEQ (n : Nat) : Nat := 0x60808 + 4 * n
/-- [3:0] RW, MW, reset 0, at next enable (R121). SNS_SAR_SEQm: SAR0 input of slot 2m, and of slot 2m + 1 in [19:16] -/
abbrev F.SNS_SAR_SEQ_in0 (n : Nat) : Fld := ⟨0x60808 + 4 * n, 0, 4⟩
/-- [19:16] RW, MW, reset 0, at next enable (R121). SNS_SAR_SEQm: SAR0 input of slot 2m, and of slot 2m + 1 in [19:16] -/
abbrev F.SNS_SAR_SEQ_in0_hi (n : Nat) : Fld := ⟨0x60808 + 4 * n, 16, 4⟩
/-- [4:4] RW, MW, reset 0, at next enable (R121). SNS_SAR_SEQm: SAR0 converts in slot 2m, and in slot 2m + 1 -/
abbrev F.SNS_SAR_SEQ_en0 (n : Nat) : Fld := ⟨0x60808 + 4 * n, 4, 1⟩
/-- [20:20] RW, MW, reset 0, at next enable (R121). SNS_SAR_SEQm: SAR0 converts in slot 2m, and in slot 2m + 1 -/
abbrev F.SNS_SAR_SEQ_en0_hi (n : Nat) : Fld := ⟨0x60808 + 4 * n, 20, 1⟩
/-- [11:8] RW, MW, reset 0, at next enable (R121). SNS_SAR_SEQm: SAR1 input of slot 2m, and of slot 2m + 1 -/
abbrev F.SNS_SAR_SEQ_in1 (n : Nat) : Fld := ⟨0x60808 + 4 * n, 8, 4⟩
/-- [27:24] RW, MW, reset 0, at next enable (R121). SNS_SAR_SEQm: SAR1 input of slot 2m, and of slot 2m + 1 -/
abbrev F.SNS_SAR_SEQ_in1_hi (n : Nat) : Fld := ⟨0x60808 + 4 * n, 24, 4⟩
/-- [12:12] RW, MW, reset 0, at next enable (R121). SNS_SAR_SEQm: SAR1 converts in slot 2m, and in slot 2m + 1 -/
abbrev F.SNS_SAR_SEQ_en1 (n : Nat) : Fld := ⟨0x60808 + 4 * n, 12, 1⟩
/-- [28:28] RW, MW, reset 0, at next enable (R121). SNS_SAR_SEQm: SAR1 converts in slot 2m, and in slot 2m + 1 -/
abbrev F.SNS_SAR_SEQ_en1_hi (n : Nat) : Fld := ⟨0x60808 + 4 * n, 28, 1⟩
/-- SNS_SDC_CLK (R121 04_measurement.md). -/
abbrev R.SNS_SDC_CLK (n : Nat) : Nat := 0x60828 + 4 * n
/-- [0:0] RW, MW, reset 0, immediately (R121). SNS_SDC_CLKm: 1 runs SDCm; 0 holds it low -/
abbrev F.SNS_SDC_CLK_en (n : Nat) : Fld := ⟨0x60828 + 4 * n, 0, 1⟩
/-- [13:8] RW, MW, reset 0x0A, at next enable (R121). SNS_SDC_CLKm: period in 4 ns counts; legal 10–50 -/
abbrev F.SNS_SDC_CLK_div (n : Nat) : Fld := ⟨0x60828 + 4 * n, 8, 6⟩
/-- [16:16] W1C, reset 0, immediately (R121). SNS_SDC_CLKm: an enable with div out of range was refused -/
abbrev F.SNS_SDC_CLK_error (n : Nat) : Fld := ⟨0x60828 + 4 * n, 16, 1⟩
/-- SNS_HB_STS (R121 04_measurement.md). -/
abbrev R.SNS_HB_STS : Nat := 0x60838
/-- [0:0] RO, reset 0, immediately (R121). SNS_HB_STS: every entry with a role was valid in the last headbox; entries of an absent drive or converter are not counted (R117) -/
abbrev F.SNS_HB_STS_all_valid : Fld := ⟨0x60838, 0, 1⟩
/-- [1:1] W1C, reset 0, immediately (R121). SNS_HB_STS: a headbox was published with an invalid entry that has a role, counted as for all_valid -/
abbrev F.SNS_HB_STS_invalid_seen : Fld := ⟨0x60838, 1, 1⟩
/-- SNS_HB_CNT (R121 04_measurement.md). -/
abbrev R.SNS_HB_CNT : Nat := 0x6083C
/-- [31:0] RC, reset 0x0000_0000, immediately (R121). SNS_HB_CNT: headboxes with such an entry; saturates -/
abbrev F.SNS_HB_CNT_invalid_ticks : Fld := ⟨0x6083C, 0, 32⟩
/-- SNS_AIN_CFG (R121 04_measurement.md). -/
abbrev R.SNS_AIN_CFG (n : Nat) : Nat := 0x60840 + 0x10 * n
/-- [0:0] RW, MW, reset 0, at next enable (R121). SNS_AIN_CFGi: R115 -/
abbrev F.SNS_AIN_CFG_bipolar (n : Nat) : Fld := ⟨0x60840 + 0x10 * n, 0, 1⟩
/-- [6:4] RW, MW, reset 0, at next enable (R121). SNS_AIN_CFGi: R115 -/
abbrev F.SNS_AIN_CFG_role (n : Nat) : Fld := ⟨0x60840 + 0x10 * n, 4, 3⟩
/-- [10:8] RW, MW, reset 0, at next enable (R121). SNS_AIN_CFGi: drive for roles 1–4 -/
abbrev F.SNS_AIN_CFG_drive (n : Nat) : Fld := ⟨0x60840 + 0x10 * n, 8, 3⟩
/-- [31:16] RW, MW, reset 0x0000, immediately (R121). SNS_AIN_CFGi: offset, Q1.15 -/
abbrev F.SNS_AIN_CFG_offset (n : Nat) : Fld := ⟨0x60840 + 0x10 * n, 16, 16⟩
/-- SNS_AIN_SCALE (R121 04_measurement.md). -/
abbrev R.SNS_AIN_SCALE (n : Nat) : Nat := 0x60844 + 0x10 * n
/-- [31:0] RW, reset 0x3F80_0000, immediately (R121). SNS_AIN_SCALEi: scale, fp32 -/
abbrev F.SNS_AIN_SCALE_gain (n : Nat) : Fld := ⟨0x60844 + 0x10 * n, 0, 32⟩
/-- SNS_AIN_RES (R121 04_measurement.md). -/
abbrev R.SNS_AIN_RES (n : Nat) : Nat := 0x60848 + 0x10 * n
/-- [15:0] RO, reset 0x0000, immediately (R121). SNS_AIN_RESi: last conversion -/
abbrev F.SNS_AIN_RES_code (n : Nat) : Fld := ⟨0x60848 + 0x10 * n, 0, 16⟩
/-- [19:16] RO, reset 0, immediately (R121). SNS_AIN_RESi: slot of that conversion -/
abbrev F.SNS_AIN_RES_slot (n : Nat) : Fld := ⟨0x60848 + 0x10 * n, 16, 4⟩
/-- [20:20] RO, reset 0, immediately (R121). SNS_AIN_RESi: 0 SAR0, 1 SAR1 -/
abbrev F.SNS_AIN_RES_conv (n : Nat) : Fld := ⟨0x60848 + 0x10 * n, 20, 1⟩
/-- [21:21] RO, reset 0, immediately (R121). SNS_AIN_RESi: R115 -/
abbrev F.SNS_AIN_RES_valid (n : Nat) : Fld := ⟨0x60848 + 0x10 * n, 21, 1⟩

/-! ### Block 0x0007_0000 -/

/-- FLD_CTL (R169 05_field_control.md). -/
abbrev R.FLD_CTL (n : Nat) : Nat := 0x70000 + 0x100 * n
/-- [0:0] RW, MW, KG, SG, reset 0, immediately (R170). FLD_CTL: R125, R126 -/
abbrev F.FLD_CTL_en (n : Nat) : Fld := ⟨0x70000 + 0x100 * n, 0, 1⟩
/-- [1:1] RW, MW, reset 0, at next enable (R170). FLD_CTL: 0 FU, 1 ENGINE (R123) -/
abbrev F.FLD_CTL_cc_src (n : Nat) : Fld := ⟨0x70000 + 0x100 * n, 1, 1⟩
/-- [3:2] RW, MW, reset 0, at next enable (R170). FLD_CTL: 0 CURRENT, 1 TORQUE, 2 SPEED -/
abbrev F.FLD_CTL_ref_mode (n : Nat) : Fld := ⟨0x70000 + 0x100 * n, 2, 2⟩
/-- [4:4] RW, MW, reset 0, at next enable (R170). FLD_CTL: 0 PM, 1 IM -/
abbrev F.FLD_CTL_machine (n : Nat) : Fld := ⟨0x70000 + 0x100 * n, 4, 1⟩
/-- [5:5] RW, MW, reset 0, immediately (R170). FLD_CTL: ride-through (R165) -/
abbrev F.FLD_CTL_rt_en (n : Nat) : Fld := ⟨0x70000 + 0x100 * n, 5, 1⟩
/-- [6:6] RW, MW, reset 0, at next enable (R170). FLD_CTL: speed-command curve (R156) -/
abbrev F.FLD_CTL_curve_en (n : Nat) : Fld := ⟨0x70000 + 0x100 * n, 6, 1⟩
/-- [7:7] RW, MW, reset 0, at next enable (R170). FLD_CTL: 0 FLD_REF4, 1 AIN -/
abbrev F.FLD_CTL_crv_src (n : Nat) : Fld := ⟨0x70000 + 0x100 * n, 7, 1⟩
/-- [11:8] RW, MW, reset 0, at next enable (R170). FLD_CTL: AIN number for crv_src 1 -/
abbrev F.FLD_CTL_crv_ain (n : Nat) : Fld := ⟨0x70000 + 0x100 * n, 8, 4⟩
/-- [12:12] RW, MW, reset 0, immediately (R170). FLD_CTL: status record (R134) -/
abbrev F.FLD_CTL_mirror_en (n : Nat) : Fld := ⟨0x70000 + 0x100 * n, 12, 1⟩
/-- [13:13] RW, MW, KG, reset 0, immediately (R170). FLD_CTL: 0 ASC_LOW, 1 ASC_HIGH -/
abbrev F.FLD_CTL_asc_side (n : Nat) : Fld := ⟨0x70000 + 0x100 * n, 13, 1⟩
/-- [14:14] RW, MW, reset 0, immediately (R170). FLD_CTL: R167 -/
abbrev F.FLD_CTL_limp_en (n : Nat) : Fld := ⟨0x70000 + 0x100 * n, 14, 1⟩
/-- FLD_BIND (R169 05_field_control.md). -/
abbrev R.FLD_BIND (n : Nat) : Nat := 0x70004 + 0x100 * n
/-- [1:0] RW, MW, KG, SG, reset 0, at next enable (R170). FLD_BIND: 0 two-level, 1 NPC, 2 MMC -/
abbrev F.FLD_BIND_conv (n : Nat) : Fld := ⟨0x70004 + 0x100 * n, 0, 2⟩
/-- [6:4] RW, MW, KG, SG, reset 0, at next enable (R170). FLD_BIND: domain for conv 0 and 1 -/
abbrev F.FLD_BIND_md (n : Nat) : Fld := ⟨0x70004 + 0x100 * n, 4, 3⟩
/-- [8:8] RW, MW, KG, SG, reset 0, at next enable (R170). FLD_BIND: converter for conv 2 -/
abbrev F.FLD_BIND_cv (n : Nat) : Fld := ⟨0x70004 + 0x100 * n, 8, 1⟩
/-- [14:12] RW, MW, KG, SG, reset 0, at next enable (R170). FLD_BIND: feedback port -/
abbrev F.FLD_BIND_fbp (n : Nat) : Fld := ⟨0x70004 + 0x100 * n, 12, 3⟩
/-- [15:15] RW, MW, KG, SG, reset 0, at next enable (R170). FLD_BIND: a port is bound -/
abbrev F.FLD_BIND_fb_en (n : Nat) : Fld := ⟨0x70004 + 0x100 * n, 15, 1⟩
/-- FLD_STS (R169 05_field_control.md). -/
abbrev R.FLD_STS (n : Nat) : Nat := 0x70008 + 0x100 * n
/-- [2:0] RO, reset 0, immediately (R170). FLD_STS: 0 OFF, 1 READY, 2 ALIGN, 3 CATCH, 4 RUN, 5 RAMP, 6 SAFE, 7 ASC -/
abbrev F.FLD_STS_state (n : Nat) : Fld := ⟨0x70008 + 0x100 * n, 0, 3⟩
/-- [5:4] RO, reset 0, immediately (R170). FLD_STS: 0 NEUTRAL, 1 AHEAD, 2 ASTERN -/
abbrev F.FLD_STS_dir (n : Nat) : Fld := ⟨0x70008 + 0x100 * n, 4, 2⟩
/-- [6:6] RO, reset 0, immediately (R170). FLD_STS: limp-home -/
abbrev F.FLD_STS_limp (n : Nat) : Fld := ⟨0x70008 + 0x100 * n, 6, 1⟩
/-- [7:7] RO, reset 0, immediately (R170). FLD_STS: crash stop (R164) -/
abbrev F.FLD_STS_crash (n : Nat) : Fld := ⟨0x70008 + 0x100 * n, 7, 1⟩
/-- [8:8] RO, reset 0, immediately (R170). FLD_STS: ride-through -/
abbrev F.FLD_STS_rt (n : Nat) : Fld := ⟨0x70008 + 0x100 * n, 8, 1⟩
/-- [9:9] RO, reset 0, immediately (R170). FLD_STS: R133 -/
abbrev F.FLD_STS_fw_lim (n : Nat) : Fld := ⟨0x70008 + 0x100 * n, 9, 1⟩
/-- [12:10] RO, reset 0, immediately (R170). FLD_STS: 0 none, 1 PULSE_BLOCK, 2 ASC_LOW, 3 ASC_HIGH, 4 RAMP_DOWN -/
abbrev F.FLD_STS_safe_state (n : Nat) : Fld := ⟨0x70008 + 0x100 * n, 10, 3⟩
/-- [13:13] RO, reset 0, immediately (R170). FLD_STS: R150 -/
abbrev F.FLD_STS_aligned (n : Nat) : Fld := ⟨0x70008 + 0x100 * n, 13, 1⟩
/-- [14:14] RO, reset 0, immediately (R170). FLD_STS: R145 -/
abbrev F.FLD_STS_obs_valid (n : Nat) : Fld := ⟨0x70008 + 0x100 * n, 14, 1⟩
/-- [15:15] RO, reset 0, immediately (R170). FLD_STS: 0 ahead, 1 astern -/
abbrev F.FLD_STS_last_dir (n : Nat) : Fld := ⟨0x70008 + 0x100 * n, 15, 1⟩
/-- [19:16] RO, reset 0, immediately (R170). FLD_STS: code of R125; 0 = none -/
abbrev F.FLD_STS_cfg_error (n : Nat) : Fld := ⟨0x70008 + 0x100 * n, 16, 4⟩
/-- FLD_FLAGS (R169 05_field_control.md). -/
abbrev R.FLD_FLAGS (n : Nat) : Nat := 0x7000C + 0x100 * n
/-- [9:0] W1C, reset 0, immediately (R170). FLD_FLAGS: bit 0 stop_rejected, 1 lr, 2 obs_loss, 3 ovs, 4 fw_limit, 5 limp_rejected, 6 asc_denied, 7 rt_fail, 8 crv_invalid, 9 catch_retry -/
abbrev F.FLD_FLAGS_flags (n : Nat) : Fld := ⟨0x7000C + 0x100 * n, 0, 10⟩
/-- FLD_BASE_I (R169 05_field_control.md). -/
abbrev R.FLD_BASE_I (n : Nat) : Nat := 0x70010 + 0x100 * n
/-- [31:0] RW, reset 0x3F80_0000, at next enable (R170). FLD_BASE_I, _V, _N, _T: fp32 (R127) -/
abbrev F.FLD_BASE_I_value (n : Nat) : Fld := ⟨0x70010 + 0x100 * n, 0, 32⟩
/-- FLD_BASE_V (R169 05_field_control.md). -/
abbrev R.FLD_BASE_V (n : Nat) : Nat := 0x70014 + 0x100 * n
/-- [31:0] RW, reset 0x3F80_0000, at next enable (R170). FLD_BASE_I, _V, _N, _T: fp32 (R127) -/
abbrev F.FLD_BASE_V_value (n : Nat) : Fld := ⟨0x70014 + 0x100 * n, 0, 32⟩
/-- FLD_BASE_N (R169 05_field_control.md). -/
abbrev R.FLD_BASE_N (n : Nat) : Nat := 0x70018 + 0x100 * n
/-- [31:0] RW, reset 0x3F80_0000, at next enable (R170). FLD_BASE_I, _V, _N, _T: fp32 (R127) -/
abbrev F.FLD_BASE_N_value (n : Nat) : Fld := ⟨0x70018 + 0x100 * n, 0, 32⟩
/-- FLD_BASE_T (R169 05_field_control.md). -/
abbrev R.FLD_BASE_T (n : Nat) : Nat := 0x7001C + 0x100 * n
/-- [31:0] RW, reset 0x3F80_0000, at next enable (R170). FLD_BASE_I, _V, _N, _T: fp32 (R127) -/
abbrev F.FLD_BASE_T_value (n : Nat) : Fld := ⟨0x7001C + 0x100 * n, 0, 32⟩
/-- FLD_TBL_CRV (R169 05_field_control.md). -/
abbrev R.FLD_TBL_CRV (n : Nat) : Nat := 0x70020 + 0x100 * n
/-- [9:0] RW, MW, reset 0, at next enable (R170). FLD_TBL_CRV, FLD_TBL_FW: table tile -/
abbrev F.FLD_TBL_CRV_tile (n : Nat) : Fld := ⟨0x70020 + 0x100 * n, 0, 10⟩
/-- [17:10] RW, reset 0, at next enable (R170). FLD_TBL_CRV, FLD_TBL_FW: first word -/
abbrev F.FLD_TBL_CRV_word (n : Nat) : Fld := ⟨0x70020 + 0x100 * n, 10, 8⟩
/-- FLD_MACH_RS (R169 05_field_control.md). -/
abbrev R.FLD_MACH_RS (n : Nat) : Nat := 0x70024 + 0x100 * n
/-- [31:0] RW, reset 0x0000_0000, at next enable (R170). FLD_MACH_RS, _LD, _LQ, _PSI, _LM, _KT: fp32 pu; FLD_MACH_TR: fp32 s -/
abbrev F.FLD_MACH_RS_value (n : Nat) : Fld := ⟨0x70024 + 0x100 * n, 0, 32⟩
/-- FLD_MACH_LD (R169 05_field_control.md). -/
abbrev R.FLD_MACH_LD (n : Nat) : Nat := 0x70028 + 0x100 * n
/-- [31:0] RW, reset 0x0000_0000, at next enable (R170). FLD_MACH_RS, _LD, _LQ, _PSI, _LM, _KT: fp32 pu; FLD_MACH_TR: fp32 s -/
abbrev F.FLD_MACH_LD_value (n : Nat) : Fld := ⟨0x70028 + 0x100 * n, 0, 32⟩
/-- FLD_MACH_LQ (R169 05_field_control.md). -/
abbrev R.FLD_MACH_LQ (n : Nat) : Nat := 0x7002C + 0x100 * n
/-- [31:0] RW, reset 0x0000_0000, at next enable (R170). FLD_MACH_RS, _LD, _LQ, _PSI, _LM, _KT: fp32 pu; FLD_MACH_TR: fp32 s -/
abbrev F.FLD_MACH_LQ_value (n : Nat) : Fld := ⟨0x7002C + 0x100 * n, 0, 32⟩
/-- FLD_MACH_PSI (R169 05_field_control.md). -/
abbrev R.FLD_MACH_PSI (n : Nat) : Nat := 0x70030 + 0x100 * n
/-- [31:0] RW, reset 0x0000_0000, at next enable (R170). FLD_MACH_RS, _LD, _LQ, _PSI, _LM, _KT: fp32 pu; FLD_MACH_TR: fp32 s -/
abbrev F.FLD_MACH_PSI_value (n : Nat) : Fld := ⟨0x70030 + 0x100 * n, 0, 32⟩
/-- FLD_MACH_LM (R169 05_field_control.md). -/
abbrev R.FLD_MACH_LM (n : Nat) : Nat := 0x70034 + 0x100 * n
/-- [31:0] RW, reset 0x0000_0000, at next enable (R170). FLD_MACH_RS, _LD, _LQ, _PSI, _LM, _KT: fp32 pu; FLD_MACH_TR: fp32 s -/
abbrev F.FLD_MACH_LM_value (n : Nat) : Fld := ⟨0x70034 + 0x100 * n, 0, 32⟩
/-- FLD_MACH_TR (R169 05_field_control.md). -/
abbrev R.FLD_MACH_TR (n : Nat) : Nat := 0x70038 + 0x100 * n
/-- [31:0] RW, reset 0x0000_0000, at next enable (R170). FLD_MACH_RS, _LD, _LQ, _PSI, _LM, _KT: fp32 pu; FLD_MACH_TR: fp32 s -/
abbrev F.FLD_MACH_TR_value (n : Nat) : Fld := ⟨0x70038 + 0x100 * n, 0, 32⟩
/-- FLD_MACH_KT (R169 05_field_control.md). -/
abbrev R.FLD_MACH_KT (n : Nat) : Nat := 0x7003C + 0x100 * n
/-- [31:0] RW, reset 0x0000_0000, at next enable (R170). FLD_MACH_RS, _LD, _LQ, _PSI, _LM, _KT: fp32 pu; FLD_MACH_TR: fp32 s -/
abbrev F.FLD_MACH_KT_value (n : Nat) : Fld := ⟨0x7003C + 0x100 * n, 0, 32⟩
/-- FLD_CC_CFG (R169 05_field_control.md). -/
abbrev R.FLD_CC_CFG (n : Nat) : Nat := 0x70040 + 0x100 * n
/-- [1:0] RW, MW, reset 0, at next enable (R170). FLD_CC_CFG: R133 -/
abbrev F.FLD_CC_CFG_svm (n : Nat) : Fld := ⟨0x70040 + 0x100 * n, 0, 2⟩
/-- [2:2] RW, MW, reset 0, immediately (R170). FLD_CC_CFG: R132 -/
abbrev F.FLD_CC_CFG_decouple (n : Nat) : Fld := ⟨0x70040 + 0x100 * n, 2, 1⟩
/-- [3:3] RW, MW, reset 0, immediately (R170). FLD_CC_CFG: R132 -/
abbrev F.FLD_CC_CFG_lead_comp (n : Nat) : Fld := ⟨0x70040 + 0x100 * n, 3, 1⟩
/-- FLD_CC_KP (R169 05_field_control.md). -/
abbrev R.FLD_CC_KP (n : Nat) : Nat := 0x70044 + 0x100 * n
/-- [31:0] RW, reset 0x0000_0000, immediately (R170). FLD_CC_KP, _KI, FLD_SPD_KP, _KI: fp32 -/
abbrev F.FLD_CC_KP_gain (n : Nat) : Fld := ⟨0x70044 + 0x100 * n, 0, 32⟩
/-- FLD_CC_KI (R169 05_field_control.md). -/
abbrev R.FLD_CC_KI (n : Nat) : Nat := 0x70048 + 0x100 * n
/-- [31:0] RW, reset 0x0000_0000, immediately (R170). FLD_CC_KP, _KI, FLD_SPD_KP, _KI: fp32 -/
abbrev F.FLD_CC_KI_gain (n : Nat) : Fld := ⟨0x70048 + 0x100 * n, 0, 32⟩
/-- FLD_SPD_KP (R169 05_field_control.md). -/
abbrev R.FLD_SPD_KP (n : Nat) : Nat := 0x7004C + 0x100 * n
/-- [31:0] RW, reset 0x0000_0000, immediately (R170). FLD_CC_KP, _KI, FLD_SPD_KP, _KI: fp32 -/
abbrev F.FLD_SPD_KP_gain (n : Nat) : Fld := ⟨0x7004C + 0x100 * n, 0, 32⟩
/-- FLD_SPD_KI (R169 05_field_control.md). -/
abbrev R.FLD_SPD_KI (n : Nat) : Nat := 0x70050 + 0x100 * n
/-- [31:0] RW, reset 0x0000_0000, immediately (R170). FLD_CC_KP, _KI, FLD_SPD_KP, _KI: fp32 -/
abbrev F.FLD_SPD_KI_gain (n : Nat) : Fld := ⟨0x70050 + 0x100 * n, 0, 32⟩
/-- FLD_TBL_FW (R169 05_field_control.md). -/
abbrev R.FLD_TBL_FW (n : Nat) : Nat := 0x70054 + 0x100 * n
/-- [9:0] RW, MW, reset 0, at next enable (R170). FLD_TBL_CRV, FLD_TBL_FW: table tile -/
abbrev F.FLD_TBL_FW_tile (n : Nat) : Fld := ⟨0x70054 + 0x100 * n, 0, 10⟩
/-- [17:10] RW, reset 0, at next enable (R170). FLD_TBL_CRV, FLD_TBL_FW: first word -/
abbrev F.FLD_TBL_FW_word (n : Nat) : Fld := ⟨0x70054 + 0x100 * n, 10, 8⟩
/-- FLD_ANGLE (R169 05_field_control.md). -/
abbrev R.FLD_ANGLE (n : Nat) : Nat := 0x70058 + 0x100 * n
/-- [1:0] RW, MW, reset 0, at next enable (R170). FLD_ANGLE: 0 FEEDBACK, 1 OBSERVER, 2 AUTO -/
abbrev F.FLD_ANGLE_src (n : Nat) : Fld := ⟨0x70058 + 0x100 * n, 0, 2⟩
/-- [2:2] RW, MW, KG, reset 0, at next enable (R170). FLD_ANGLE: offset calibrated -/
abbrev F.FLD_ANGLE_abs (n : Nat) : Fld := ⟨0x70058 + 0x100 * n, 2, 1⟩
/-- [13:8] RW, MW, reset 0, at next enable (R170). FLD_ANGLE: 1–63 -/
abbrev F.FLD_ANGLE_pole_pairs (n : Nat) : Fld := ⟨0x70058 + 0x100 * n, 8, 6⟩
/-- [31:16] RW, MW, reset 0x0000, immediately (R170). FLD_ANGLE: Q0.16 revolution; also written by R150 -/
abbrev F.FLD_ANGLE_offset (n : Nat) : Fld := ⟨0x70058 + 0x100 * n, 16, 16⟩
/-- FLD_OBS_CFG (R169 05_field_control.md). -/
abbrev R.FLD_OBS_CFG (n : Nat) : Nat := 0x7005C + 0x100 * n
/-- [0:0] RW, MW, reset 0, at next enable (R170). FLD_OBS_CFG: 0 commanded, 1 measured -/
abbrev F.FLD_OBS_CFG_vsrc (n : Nat) : Fld := ⟨0x7005C + 0x100 * n, 0, 1⟩
/-- [7:4] RW, MW, reset 0x4, at next enable (R170). FLD_OBS_CFG: 5 Hz × 2^bw; legal 0–8 -/
abbrev F.FLD_OBS_CFG_bw (n : Nat) : Fld := ⟨0x7005C + 0x100 * n, 4, 4⟩
/-- [10:8] RW, MW, reset 1, immediately (R170). FLD_OBS_CFG: R161 -/
abbrev F.FLD_OBS_CFG_loss_action (n : Nat) : Fld := ⟨0x7005C + 0x100 * n, 8, 3⟩
/-- [14:11] RW, MW, reset 0x5, immediately (R170). FLD_OBS_CFG: loss after 2^loss_k ticks -/
abbrev F.FLD_OBS_CFG_loss_k (n : Nat) : Fld := ⟨0x7005C + 0x100 * n, 11, 4⟩
/-- [31:16] RW, MW, reset 0x03D7, immediately (R170). FLD_OBS_CFG: Q1.15; 0.03 pu -/
abbrev F.FLD_OBS_CFG_valid_min (n : Nat) : Fld := ⟨0x7005C + 0x100 * n, 16, 16⟩
/-- FLD_OBS_STS (R169 05_field_control.md). -/
abbrev R.FLD_OBS_STS (n : Nat) : Nat := 0x70060 + 0x100 * n
/-- [15:0] RO, reset 0x0000, immediately (R170). FLD_OBS_STS: observer speed, Q2.14 -/
abbrev F.FLD_OBS_STS_speed (n : Nat) : Fld := ⟨0x70060 + 0x100 * n, 0, 16⟩
/-- [16:16] RO, reset 0, immediately (R170). FLD_OBS_STS: as obs_valid -/
abbrev F.FLD_OBS_STS_valid (n : Nat) : Fld := ⟨0x70060 + 0x100 * n, 16, 1⟩
/-- [17:17] RO, reset 0, immediately (R170). FLD_OBS_STS: R146 -/
abbrev F.FLD_OBS_STS_forced (n : Nat) : Fld := ⟨0x70060 + 0x100 * n, 17, 1⟩
/-- [31:24] RO, reset 0, immediately (R170). FLD_OBS_STS: loop angle error in 1/256 revolution, saturating -/
abbrev F.FLD_OBS_STS_err (n : Nat) : Fld := ⟨0x70060 + 0x100 * n, 24, 8⟩
/-- FLD_ALIGN_CFG (R169 05_field_control.md). -/
abbrev R.FLD_ALIGN_CFG (n : Nat) : Nat := 0x70064 + 0x100 * n
/-- [12:0] RW, MW, reset 0x09C4, at next enable (R170). FLD_ALIGN_CFG, FLD_CATCH_CFG: pulse width in 4 ns counts; legal 500–5,000 -/
abbrev F.FLD_ALIGN_CFG_width (n : Nat) : Fld := ⟨0x70064 + 0x100 * n, 0, 13⟩
/-- [15:13] RW, MW, reset 1, at next enable (R170). FLD_ALIGN_CFG, FLD_CATCH_CFG: ticks between pulses, value − 1 -/
abbrev F.FLD_ALIGN_CFG_spacing_m1 (n : Nat) : Fld := ⟨0x70064 + 0x100 * n, 13, 3⟩
/-- [31:16] RW, MW, reset 0x4000, immediately (R170). FLD_ALIGN_CFG: Q1.15 -/
abbrev F.FLD_ALIGN_CFG_i_max (n : Nat) : Fld := ⟨0x70064 + 0x100 * n, 16, 16⟩
/-- FLD_CATCH_CFG (R169 05_field_control.md). -/
abbrev R.FLD_CATCH_CFG (n : Nat) : Nat := 0x70068 + 0x100 * n
/-- [12:0] RW, MW, reset 0x09C4, at next enable (R170). FLD_ALIGN_CFG, FLD_CATCH_CFG: pulse width in 4 ns counts; legal 500–5,000 -/
abbrev F.FLD_CATCH_CFG_width (n : Nat) : Fld := ⟨0x70068 + 0x100 * n, 0, 13⟩
/-- [15:13] RW, MW, reset 1, at next enable (R170). FLD_ALIGN_CFG, FLD_CATCH_CFG: ticks between pulses, value − 1 -/
abbrev F.FLD_CATCH_CFG_spacing_m1 (n : Nat) : Fld := ⟨0x70068 + 0x100 * n, 13, 3⟩
/-- [18:16] RW, MW, reset 3, at next enable (R170). FLD_CATCH_CFG: np, value − 1; legal 2–7 -/
abbrev F.FLD_CATCH_CFG_pulses_m1 (n : Nat) : Fld := ⟨0x70068 + 0x100 * n, 16, 3⟩
/-- FLD_CATCH_LIM (R169 05_field_control.md). -/
abbrev R.FLD_CATCH_LIM (n : Nat) : Nat := 0x7006C + 0x100 * n
/-- [15:0] RW, MW, KG, reset 0x4666, immediately (R170). FLD_CATCH_LIM: catch limit, Q2.14 -/
abbrev F.FLD_CATCH_LIM_limit (n : Nat) : Fld := ⟨0x7006C + 0x100 * n, 0, 16⟩
/-- [31:16] RW, MW, reset 0x4000, immediately (R170). FLD_CATCH_LIM: Q1.15 (R152) -/
abbrev F.FLD_CATCH_LIM_i_max (n : Nat) : Fld := ⟨0x7006C + 0x100 * n, 16, 16⟩
/-- FLD_CATCH_STS (R169 05_field_control.md). -/
abbrev R.FLD_CATCH_STS (n : Nat) : Nat := 0x70070 + 0x100 * n
/-- [2:0] RO, reset 0, immediately (R170). FLD_CATCH_STS: R154 -/
abbrev F.FLD_CATCH_STS_outcome (n : Nat) : Fld := ⟨0x70070 + 0x100 * n, 0, 3⟩
/-- [3:3] RO, reset 0, immediately (R170). FLD_CATCH_STS: 0 pulses or search, 1 feedback -/
abbrev F.FLD_CATCH_STS_method (n : Nat) : Fld := ⟨0x70070 + 0x100 * n, 3, 1⟩
/-- [6:4] RO, reset 0, immediately (R170). FLD_CATCH_STS: R150 -/
abbrev F.FLD_CATCH_STS_align (n : Nat) : Fld := ⟨0x70070 + 0x100 * n, 4, 3⟩
/-- [11:8] RO, reset 0, immediately (R170). FLD_CATCH_STS: pulses applied in the last sequence -/
abbrev F.FLD_CATCH_STS_pulses (n : Nat) : Fld := ⟨0x70070 + 0x100 * n, 8, 4⟩
/-- [31:16] RO, reset 0x0000, immediately (R170). FLD_CATCH_STS: caught speed, Q2.14 -/
abbrev F.FLD_CATCH_STS_speed (n : Nat) : Fld := ⟨0x70070 + 0x100 * n, 16, 16⟩
/-- FLD_IM_CFG (R169 05_field_control.md). -/
abbrev R.FLD_IM_CFG (n : Nat) : Nat := 0x70074 + 0x100 * n
/-- [15:0] RW, MW, reset 0x0CCD, at next enable (R170). FLD_IM_CFG: Q1.15 -/
abbrev F.FLD_IM_CFG_i_search (n : Nat) : Fld := ⟨0x70074 + 0x100 * n, 0, 16⟩
/-- [23:16] RW, reset 0x32, at next enable (R170). FLD_IM_CFG: 10 ms counts per direction -/
abbrev F.FLD_IM_CFG_sweep (n : Nat) : Fld := ⟨0x70074 + 0x100 * n, 16, 8⟩
/-- [31:24] RW, reset 0x0A, at next enable (R170). FLD_IM_CFG: magnetising, 10 ms counts -/
abbrev F.FLD_IM_CFG_mag (n : Nat) : Fld := ⟨0x70074 + 0x100 * n, 24, 8⟩
/-- FLD_LR_CFG (R169 05_field_control.md). -/
abbrev R.FLD_LR_CFG (n : Nat) : Nat := 0x70078 + 0x100 * n
/-- [15:0] RW, MW, reset 0x4000, immediately (R170). FLD_LR_CFG: torque threshold, Q1.15 -/
abbrev F.FLD_LR_CFG_thr (n : Nat) : Fld := ⟨0x70078 + 0x100 * n, 0, 16⟩
/-- [25:16] RW, MW, reset 0, immediately (R170). FLD_LR_CFG: 10 ms counts; 0 disables; legal 0–1,000 -/
abbrev F.FLD_LR_CFG_window (n : Nat) : Fld := ⟨0x70078 + 0x100 * n, 16, 10⟩
/-- [30:28] RW, MW, reset 1, immediately (R170). FLD_LR_CFG: R161 -/
abbrev F.FLD_LR_CFG_action (n : Nat) : Fld := ⟨0x70078 + 0x100 * n, 28, 3⟩
/-- FLD_OVS_CFG (R169 05_field_control.md). -/
abbrev R.FLD_OVS_CFG (n : Nat) : Nat := 0x7007C + 0x100 * n
/-- [15:0] RW, MW, KG, reset 0x499A, immediately (R170). FLD_OVS_CFG: Q2.14; 0 disables -/
abbrev F.FLD_OVS_CFG_limit (n : Nat) : Fld := ⟨0x7007C + 0x100 * n, 0, 16⟩
/-- [18:16] RW, MW, KG, reset 2, immediately (R170). FLD_OVS_CFG: R161 -/
abbrev F.FLD_OVS_CFG_action (n : Nat) : Fld := ⟨0x7007C + 0x100 * n, 16, 3⟩
/-- FLD_ASC_CFG (R169 05_field_control.md). -/
abbrev R.FLD_ASC_CFG (n : Nat) : Nat := 0x70080 + 0x100 * n
/-- [15:0] RW, MW, KG, reset 0x7FFF, immediately (R170). FLD_ASC_CFG: Q1.15 (R163) -/
abbrev F.FLD_ASC_CFG_min_speed (n : Nat) : Fld := ⟨0x70080 + 0x100 * n, 0, 16⟩
/-- [31:16] RW, MW, KG, reset 0x0000, immediately (R170). FLD_ASC_CFG: Q1.15 -/
abbrev F.FLD_ASC_CFG_still_band (n : Nat) : Fld := ⟨0x70080 + 0x100 * n, 16, 16⟩
/-- FLD_CRV_FWD (R169 05_field_control.md). -/
abbrev R.FLD_CRV_FWD (n : Nat) : Nat := 0x70084 + 0x100 * n
/-- [15:0] RW, MW, reset 0x0000, at next enable (R170). FLD_CRV_FWD, FLD_CRV_AST: Q1.15 magnitude -/
abbrev F.FLD_CRV_FWD_on (n : Nat) : Fld := ⟨0x70084 + 0x100 * n, 0, 16⟩
/-- [31:16] RW, MW, reset 0x0000, at next enable (R170). FLD_CRV_FWD, FLD_CRV_AST: Q1.15 magnitude -/
abbrev F.FLD_CRV_FWD_off (n : Nat) : Fld := ⟨0x70084 + 0x100 * n, 16, 16⟩
/-- FLD_CRV_AST (R169 05_field_control.md). -/
abbrev R.FLD_CRV_AST (n : Nat) : Nat := 0x70088 + 0x100 * n
/-- [15:0] RW, MW, reset 0x0000, at next enable (R170). FLD_CRV_FWD, FLD_CRV_AST: Q1.15 magnitude -/
abbrev F.FLD_CRV_AST_on (n : Nat) : Fld := ⟨0x70088 + 0x100 * n, 0, 16⟩
/-- [31:16] RW, MW, reset 0x0000, at next enable (R170). FLD_CRV_FWD, FLD_CRV_AST: Q1.15 magnitude -/
abbrev F.FLD_CRV_AST_off (n : Nat) : Fld := ⟨0x70088 + 0x100 * n, 16, 16⟩
/-- FLD_RT_CFG (R169 05_field_control.md). -/
abbrev R.FLD_RT_CFG (n : Nat) : Nat := 0x7008C + 0x100 * n
/-- [15:0] RW, MW, reset 0x1000, immediately (R170). FLD_RT_CFG: Q4.12 -/
abbrev F.FLD_RT_CFG_kp (n : Nat) : Fld := ⟨0x7008C + 0x100 * n, 0, 16⟩
/-- [31:16] RW, MW, reset 0x0CCD, immediately (R170). FLD_RT_CFG: Q1.15 -/
abbrev F.FLD_RT_CFG_floor (n : Nat) : Fld := ⟨0x7008C + 0x100 * n, 16, 16⟩
/-- FLD_RT_LVL (R169 05_field_control.md). -/
abbrev R.FLD_RT_LVL (n : Nat) : Nat := 0x70090 + 0x100 * n
/-- [15:0] RW, MW, reset 0x0000, immediately (R170). FLD_RT_LVL: vdc, Q3.13 -/
abbrev F.FLD_RT_LVL_enter (n : Nat) : Fld := ⟨0x70090 + 0x100 * n, 0, 16⟩
/-- [31:16] RW, MW, reset 0x0000, immediately (R170). FLD_RT_LVL: vdc, Q3.13 -/
abbrev F.FLD_RT_LVL_hold (n : Nat) : Fld := ⟨0x70090 + 0x100 * n, 16, 16⟩
/-- FLD_LIMP_CFG (R169 05_field_control.md). -/
abbrev R.FLD_LIMP_CFG (n : Nat) : Nat := 0x70094 + 0x100 * n
/-- [15:0] RW, MW, reset 0x7FFF, immediately (R170). FLD_LIMP_CFG: Q1.15 -/
abbrev F.FLD_LIMP_CFG_i_limp (n : Nat) : Fld := ⟨0x70094 + 0x100 * n, 0, 16⟩
/-- [31:16] RW, MW, reset 0x7FFF, immediately (R170). FLD_LIMP_CFG: Q1.15 -/
abbrev F.FLD_LIMP_CFG_speed_limp (n : Nat) : Fld := ⟨0x70094 + 0x100 * n, 16, 16⟩
/-- FLD_MIRROR (R169 05_field_control.md). -/
abbrev R.FLD_MIRROR (n : Nat) : Nat := 0x70098 + 0x100 * n
/-- [20:5] RW, reset 0, at next enable (R170). FLD_MIRROR: byte address / 32 -/
abbrev F.FLD_MIRROR_addr (n : Nat) : Fld := ⟨0x70098 + 0x100 * n, 5, 16⟩
/-- FLD_CMD (R169 05_field_control.md). -/
abbrev R.FLD_CMD (n : Nat) : Nat := 0x7009C + 0x100 * n
/-- [0:0] WO, reset 0, immediately (R170). FLD_CMD: R168 -/
abbrev F.FLD_CMD_limp_clear (n : Nat) : Fld := ⟨0x7009C + 0x100 * n, 0, 1⟩
/-- FLD_DECK (R169 05_field_control.md). -/
abbrev R.FLD_DECK (n i : Nat) : Nat := 0x700A0 + 0x100 * n + 4 * i
/-- [15:0] RO, reset 0x0000, at couch (R170). FLD_DECKm: deckle quantity m, Q1.15; written by the keeper only (R60) -/
abbrev F.FLD_DECK_value (n i : Nat) : Fld := ⟨0x700A0 + 0x100 * n + 4 * i, 0, 16⟩
/-- FLD_LIM (R169 05_field_control.md). -/
abbrev R.FLD_LIM (n i : Nat) : Nat := 0x700C0 + 0x100 * n + 4 * i
/-- [15:0] RW, CO, reset 0x7FFF, at couch (R170). FLD_LIMm: limit m, Q1.15; narrows only (R61) -/
abbrev F.FLD_LIM_value (n i : Nat) : Fld := ⟨0x700C0 + 0x100 * n + 4 * i, 0, 16⟩
/-- FLD_REF (R169 05_field_control.md). -/
abbrev R.FLD_REF (n i : Nat) : Nat := 0x700E0 + 0x100 * n + 4 * i
/-- [15:0] RW, CO, reset 0x0000, at couch (R170). FLD_REF0–FLD_REF4: torque_ref, id_ref, iq_ref, speed_ref, cmd_in, Q1.15 -/
abbrev F.FLD_REF_value (n i : Nat) : Fld := ⟨0x700E0 + 0x100 * n + 4 * i, 0, 16⟩
/-- FLD_REF5 (R169 05_field_control.md). -/
abbrev R.FLD_REF5 (n : Nat) : Nat := 0x700F4 + 0x100 * n
/-- [1:0] RW, CO, reset 0, at couch (R170). FLD_REF5: R129; staged with cv = 0 -/
abbrev F.FLD_REF5_run_req (n : Nat) : Fld := ⟨0x700F4 + 0x100 * n, 0, 2⟩
/-- FLD_MEAS (R169 05_field_control.md). -/
abbrev R.FLD_MEAS (n : Nat) : Nat := 0x700F8 + 0x100 * n
/-- [15:0] RO, reset 0x0000, immediately (R170). FLD_MEAS: measured speed, Q2.14 -/
abbrev F.FLD_MEAS_speed (n : Nat) : Fld := ⟨0x700F8 + 0x100 * n, 0, 16⟩
/-- [31:16] RO, reset 0x0000, immediately (R170). FLD_MEAS: R159, saturating -/
abbrev F.FLD_MEAS_lr_time (n : Nat) : Fld := ⟨0x700F8 + 0x100 * n, 16, 16⟩
/-- FLD_FORCE (R169 05_field_control.md). -/
abbrev R.FLD_FORCE (n : Nat) : Nat := 0x700FC + 0x100 * n
/-- [15:0] RW, MW, reset 0x2666, immediately (R170). FLD_FORCE: Q1.15 -/
abbrev F.FLD_FORCE_i_force (n : Nat) : Fld := ⟨0x700FC + 0x100 * n, 0, 16⟩

/-! ### Block 0x0008_0000 -/

/-- MOD_CTL (R198 06_modulation.md). -/
abbrev R.MOD_CTL (n : Nat) : Nat := 0x80000 + 0x100 * n
/-- [0:0] RW, MW, KG, SG, reset 0, immediately (R199). MOD_CTL: R173 -/
abbrev F.MOD_CTL_en (n : Nat) : Fld := ⟨0x80000 + 0x100 * n, 0, 1⟩
/-- [1:1] RW, MW, KG, SG, reset 0, at next enable (R199). MOD_CTL: 1 bound to the tick (R176) -/
abbrev F.MOD_CTL_bind (n : Nat) : Fld := ⟨0x80000 + 0x100 * n, 1, 1⟩
/-- [3:2] RW, MW, KG, SG, reset 0, at next enable (R199). MOD_CTL: R172 -/
abbrev F.MOD_CTL_topo (n : Nat) : Fld := ⟨0x80000 + 0x100 * n, 2, 2⟩
/-- [6:4] RW, MW, KG, SG, reset 0, at next enable (R199). MOD_CTL: BR0–BR5 (R171) -/
abbrev F.MOD_CTL_bridge (n : Nat) : Fld := ⟨0x80000 + 0x100 * n, 4, 3⟩
/-- MOD_STS (R198 06_modulation.md). -/
abbrev R.MOD_STS (n : Nat) : Nat := 0x80004 + 0x100 * n
/-- [0:0] RO, reset 0, immediately (R199). MOD_STS: carrier running -/
abbrev F.MOD_STS_running (n : Nat) : Fld := ⟨0x80004 + 0x100 * n, 0, 1⟩
/-- [1:1] RO, reset 0, immediately (R199). MOD_STS: bound and enabled, tick not running -/
abbrev F.MOD_STS_waiting (n : Nat) : Fld := ⟨0x80004 + 0x100 * n, 1, 1⟩
/-- [5:2] RO, reset 0, immediately (R199). MOD_STS: code of R173; 0 = none -/
abbrev F.MOD_STS_error (n : Nat) : Fld := ⟨0x80004 + 0x100 * n, 2, 4⟩
/-- [6:6] W1C, reset 0, immediately (R199). MOD_STS: R180 -/
abbrev F.MOD_STS_late_seen (n : Nat) : Fld := ⟨0x80004 + 0x100 * n, 6, 1⟩
/-- [7:7] RO, reset 0, immediately (R199). MOD_STS: unit and topology disagree (R173) -/
abbrev F.MOD_STS_mismatch (n : Nat) : Fld := ⟨0x80004 + 0x100 * n, 7, 1⟩
/-- MOD_PERIOD (R198 06_modulation.md). -/
abbrev R.MOD_PERIOD (n : Nat) : Nat := 0x80008 + 0x100 * n
/-- [17:0] RW, MW, KG, SG, reset 0x009C4, at next enable (R199). MOD_PERIOD: P in 4 ns counts; legal 1,250–250,000; reset 50 kHz -/
abbrev F.MOD_PERIOD_half (n : Nat) : Fld := ⟨0x80008 + 0x100 * n, 0, 18⟩
/-- MOD_RELOAD (R198 06_modulation.md). -/
abbrev R.MOD_RELOAD (n : Nat) : Nat := 0x8000C + 0x100 * n
/-- [3:0] RW, MW, reset 0, at next enable (R199). MOD_RELOAD: N, value − 1 -/
abbrev F.MOD_RELOAD_n_m1 (n : Nat) : Fld := ⟨0x8000C + 0x100 * n, 0, 4⟩
/-- [5:4] RW, MW, reset 1, at next enable (R199). MOD_RELOAD: 1 zero, 2 peak, 3 both; 0 refuses the enable -/
abbrev F.MOD_RELOAD_evt (n : Nat) : Fld := ⟨0x8000C + 0x100 * n, 4, 2⟩
/-- MOD_PHASE (R198 06_modulation.md). -/
abbrev R.MOD_PHASE (n : Nat) : Nat := 0x80010 + 0x100 * n
/-- [18:0] RW, MW, reset 0, at next enable (R199). MOD_PHASE: start position, 4 ns counts, below 2P -/
abbrev F.MOD_PHASE_offset (n : Nat) : Fld := ⟨0x80010 + 0x100 * n, 0, 19⟩
/-- MOD_HOST_CTL (R198 06_modulation.md). -/
abbrev R.MOD_HOST_CTL (n : Nat) : Nat := 0x80014 + 0x100 * n
/-- [0:0] RW, MW, reset 0, immediately (R199). MOD_HOST_CTL: R181 -/
abbrev F.MOD_HOST_CTL_hold (n : Nat) : Fld := ⟨0x80014 + 0x100 * n, 0, 1⟩
/-- MOD_LATE (R198 06_modulation.md). -/
abbrev R.MOD_LATE (n : Nat) : Nat := 0x80018 + 0x100 * n
/-- [15:0] RC, reset 0x0000, immediately (R199). MOD_LATE: R180; saturates -/
abbrev F.MOD_LATE_late (n : Nat) : Fld := ⟨0x80018 + 0x100 * n, 0, 16⟩
/-- MOD_CNT (R198 06_modulation.md). -/
abbrev R.MOD_CNT (n : Nat) : Nat := 0x8001C + 0x100 * n
/-- [17:0] RO, reset 0, immediately (R199). MOD_CNT: carrier position, 4 ns counts; 0 while the carrier is not running, as when the domain is disabled or waiting -/
abbrev F.MOD_CNT_count (n : Nat) : Fld := ⟨0x8001C + 0x100 * n, 0, 18⟩
/-- [18:18] RO, reset 0, immediately (R199). MOD_CNT: 1 in the down half; 0 while the carrier is not running -/
abbrev F.MOD_CNT_down (n : Nat) : Fld := ⟨0x8001C + 0x100 * n, 18, 1⟩
/-- MOD_DUTY (R198 06_modulation.md). -/
abbrev R.MOD_DUTY (n i : Nat) : Nat := 0x80020 + 0x100 * n + 4 * i
/-- [15:0] RW, MW, CO, reset 0x4000, at reload (R199). MOD_DUTYp: phase duty, Q1.15 (R178); host writes and committed values ignored in INDEPENDENT (R179) -/
abbrev F.MOD_DUTY_duty (n i : Nat) : Fld := ⟨0x80020 + 0x100 * n + 4 * i, 0, 16⟩
/-- MOD_SYNC (R198 06_modulation.md). -/
abbrev R.MOD_SYNC (n : Nat) : Nat := 0x8002C + 0x100 * n
/-- [18:0] RW, MW, reset 0, at next enable (R199). MOD_SYNC: PSYNCI load position (R195) -/
abbrev F.MOD_SYNC_offset (n : Nat) : Fld := ⟨0x8002C + 0x100 * n, 0, 19⟩
/-- [20:20] RW, MW, reset 0, at next enable (R199). MOD_SYNC: PSYNCI enabled -/
abbrev F.MOD_SYNC_in_en (n : Nat) : Fld := ⟨0x8002C + 0x100 * n, 20, 1⟩
/-- [21:21] RW, MW, reset 0, immediately (R199). MOD_SYNC: PSYNCO enabled (R194) -/
abbrev F.MOD_SYNC_out_en (n : Nat) : Fld := ⟨0x8002C + 0x100 * n, 21, 1⟩
/-- [24:24] W1C, reset 0, immediately (R199). MOD_SYNC: a PSYNCI edge was taken -/
abbrev F.MOD_SYNC_in_seen (n : Nat) : Fld := ⟨0x8002C + 0x100 * n, 24, 1⟩
/-- MOD_CMP (R198 06_modulation.md). -/
abbrev R.MOD_CMP (n i : Nat) : Nat := 0x80030 + 0x100 * n + 4 * i
/-- [19:0] RW, MW, CO, reset 0x00000, at reload (R199). MOD_CMPj: compare in ns; count [19:2], fine [1:0]; used in INDEPENDENT only, host writes and committed values ignored otherwise (R179) -/
abbrev F.MOD_CMP_value (n i : Nat) : Fld := ⟨0x80030 + 0x100 * n + 4 * i, 0, 20⟩
/-- MOD_ACT (R198 06_modulation.md). -/
abbrev R.MOD_ACT (n i : Nat) : Nat := 0x80050 + 0x100 * n + 4 * i
/-- [19:0] RO, reset 0x00000, immediately (R199). MOD_ACTj: compare in force of slot j, in every topology -/
abbrev F.MOD_ACT_value (n i : Nat) : Fld := ⟨0x80050 + 0x100 * n + 4 * i, 0, 20⟩
/-- MOD_SHD (R198 06_modulation.md). -/
abbrev R.MOD_SHD (n i : Nat) : Nat := 0x80070 + 0x100 * n + 4 * i
/-- [19:0] RO, reset 0x00000, immediately (R199). MOD_SHDj: shadow of slot j -/
abbrev F.MOD_SHD_value (n i : Nat) : Fld := ⟨0x80070 + 0x100 * n + 4 * i, 0, 20⟩
/-- [31:31] RO, reset 0, immediately (R199). MOD_SHDj: the shadow differs from the value in force -/
abbrev F.MOD_SHD_pending (n i : Nat) : Fld := ⟨0x80070 + 0x100 * n + 4 * i, 31, 1⟩

/-! ### Block 0x0009_0000 -/

/-- GATE_CFG (R198 06_modulation.md). -/
abbrev R.GATE_CFG (n : Nat) : Nat := 0x90000 + 0x20 * n
/-- [0:0] RW, KG, reset 0, immediately (R199). GATE_CFGn: leg belongs to a domain (R171); ignored while enabled (R189) -/
abbrev F.GATE_CFG_assigned (n : Nat) : Fld := ⟨0x90000 + 0x20 * n, 0, 1⟩
/-- [3:1] RW, KG, reset 0, immediately (R199). GATE_CFGn: domain -/
abbrev F.GATE_CFG_md (n : Nat) : Fld := ⟨0x90000 + 0x20 * n, 1, 3⟩
/-- [6:4] RW, KG, reset 0, immediately (R199). GATE_CFGn: slot 0–5 -/
abbrev F.GATE_CFG_slot (n : Nat) : Fld := ⟨0x90000 + 0x20 * n, 4, 3⟩
/-- [8:8] RW, KG, reset 0, immediately (R199). GATE_CFGn: R189 -/
abbrev F.GATE_CFG_swap (n : Nat) : Fld := ⟨0x90000 + 0x20 * n, 8, 1⟩
/-- [9:9] RW, KG, reset 0, immediately (R199). GATE_CFGn: invert the GHn ball -/
abbrev F.GATE_CFG_inv_h (n : Nat) : Fld := ⟨0x90000 + 0x20 * n, 9, 1⟩
/-- [10:10] RW, KG, reset 0, immediately (R199). GATE_CFGn: invert the GLn ball -/
abbrev F.GATE_CFG_inv_l (n : Nat) : Fld := ⟨0x90000 + 0x20 * n, 10, 1⟩
/-- [12:12] RW, KG, reset 0, immediately (R199). GATE_CFGn: 0 CHARGE_PUMP/ISOLATED, 1 BOOTSTRAP -/
abbrev F.GATE_CFG_supply (n : Nat) : Fld := ⟨0x90000 + 0x20 * n, 12, 1⟩
/-- GATE_DT (R198 06_modulation.md). -/
abbrev R.GATE_DT (n : Nat) : Nat := 0x90004 + 0x20 * n
/-- [12:0] RW, MW, reset 0x03E8, at next enable (R199). GATE_DTn: dead time in ns; legal 0–8,000 -/
abbrev F.GATE_DT_dt (n : Nat) : Fld := ⟨0x90004 + 0x20 * n, 0, 13⟩
/-- GATE_MINP (R198 06_modulation.md). -/
abbrev R.GATE_MINP (n : Nat) : Nat := 0x90008 + 0x20 * n
/-- [10:0] RW, MW, reset 0x064, at next enable (R199). GATE_MINPn: minimum pulse in ns; legal 0–2,000 -/
abbrev F.GATE_MINP_t_min (n : Nat) : Fld := ⟨0x90008 + 0x20 * n, 0, 11⟩
/-- GATE_BOOT (R198 06_modulation.md). -/
abbrev R.GATE_BOOT (n : Nat) : Nat := 0x9000C + 0x20 * n
/-- [3:0] RW, MW, reset 0xF, at next enable (R199). GATE_BOOTn: K, value − 1 (R192) -/
abbrev F.GATE_BOOT_k_m1 (n : Nat) : Fld := ⟨0x9000C + 0x20 * n, 0, 4⟩
/-- [26:16] RW, MW, reset 0x1F4, at next enable (R199). GATE_BOOTn: refresh width in ns; legal 100–2,000 -/
abbrev F.GATE_BOOT_width (n : Nat) : Fld := ⟨0x9000C + 0x20 * n, 16, 11⟩
/-- GATE_CMD (R198 06_modulation.md). -/
abbrev R.GATE_CMD (n : Nat) : Nat := 0x90010 + 0x20 * n
/-- [0:0] RW, KG, CO, reset 0, at reload (R199). GATE_CMDn: leg enable (R191) -/
abbrev F.GATE_CMD_en (n : Nat) : Fld := ⟨0x90010 + 0x20 * n, 0, 1⟩
/-- [5:4] RW, CO, reset 0, at reload (R199). GATE_CMDn: 0 PWM, 1 OFF, 2 GH_ON, 3 GL_ON -/
abbrev F.GATE_CMD_force (n : Nat) : Fld := ⟨0x90010 + 0x20 * n, 4, 2⟩
/-- GATE_STS (R198 06_modulation.md). -/
abbrev R.GATE_STS (n : Nat) : Nat := 0x90014 + 0x20 * n
/-- [2:0] RO, reset 3, immediately (R199). GATE_STSn: rank in force (R185) -/
abbrev F.GATE_STS_src (n : Nat) : Fld := ⟨0x90014 + 0x20 * n, 0, 3⟩
/-- [3:3] RO, reset 0, immediately (R199). GATE_STSn: leg enabled -/
abbrev F.GATE_STS_enabled (n : Nat) : Fld := ⟨0x90014 + 0x20 * n, 3, 1⟩
/-- [7:4] RO, reset 0, immediately (R199). GATE_STSn: code of R191; 0 = none; kept until the next enable -/
abbrev F.GATE_STS_cfg_error (n : Nat) : Fld := ⟨0x90014 + 0x20 * n, 4, 4⟩
/-- [8:8] W1C, reset 0, immediately (R199). GATE_STSn: R189 -/
abbrev F.GATE_STS_wr_ignored (n : Nat) : Fld := ⟨0x90014 + 0x20 * n, 8, 1⟩
/-- [9:9] W1C, reset 0, immediately (R199). GATE_STSn: R188 -/
abbrev F.GATE_STS_interlock (n : Nat) : Fld := ⟨0x90014 + 0x20 * n, 9, 1⟩
/-- [10:10] W1C, reset 0, immediately (R199). GATE_STSn: R192 -/
abbrev F.GATE_STS_refresh (n : Nat) : Fld := ⟨0x90014 + 0x20 * n, 10, 1⟩
/-- [11:11] W1C, reset 0, immediately (R199). GATE_STSn: R183 -/
abbrev F.GATE_STS_suppressed (n : Nat) : Fld := ⟨0x90014 + 0x20 * n, 11, 1⟩
/-- [12:12] W1C, reset 0, immediately (R199). GATE_STSn: R184 -/
abbrev F.GATE_STS_narrow (n : Nat) : Fld := ⟨0x90014 + 0x20 * n, 12, 1⟩
/-- [28:16] RO, reset 0x03E8, immediately (R199). GATE_STSn: effective dead time in ns (R182); the reset value is max of the reset GATE_DTn.dt and GATE_FLOORn.floor -/
abbrev F.GATE_STS_td_eff (n : Nat) : Fld := ⟨0x90014 + 0x20 * n, 16, 13⟩
/-- GATE_CNT (R198 06_modulation.md). -/
abbrev R.GATE_CNT (n : Nat) : Nat := 0x90018 + 0x20 * n
/-- [15:0] RC, reset 0x0000, immediately (R199). GATE_CNTn: interlock episodes; saturates -/
abbrev F.GATE_CNT_interlock (n : Nat) : Fld := ⟨0x90018 + 0x20 * n, 0, 16⟩
/-- [31:16] RC, reset 0x0000, immediately (R199). GATE_CNTn: refreshes; saturates -/
abbrev F.GATE_CNT_refresh (n : Nat) : Fld := ⟨0x90018 + 0x20 * n, 16, 16⟩
/-- GATE_FLOOR (R198 06_modulation.md). -/
abbrev R.GATE_FLOOR (n : Nat) : Nat := 0x9001C + 0x20 * n
/-- [12:0] RO, reset 0x0014, at next enable (R199). GATE_FLOORn: dead-time floor in ns, at least 20; written by the keeper only -/
abbrev F.GATE_FLOOR_floor (n : Nat) : Fld := ⟨0x9001C + 0x20 * n, 0, 13⟩

/-! ### Block 0x000A_0000 -/

/-- KYN_LANE_CTL (R223 07_kynor_link.md). -/
abbrev R.KYN_LANE_CTL (n : Nat) : Nat := 0xA0000 + 0x40 * n
/-- [0:0] RW, MW, KG, SG, reset 0, immediately (R224). KYN_LANE_CTL: R212 -/
abbrev F.KYN_LANE_CTL_en (n : Nat) : Fld := ⟨0xA0000 + 0x40 * n, 0, 1⟩
/-- [12:8] RW, MW, KG, SG, reset 0, at next enable (R224). KYN_LANE_CTL: n, 0–24; 0 = lane unused -/
abbrev F.KYN_LANE_CTL_chain (n : Nat) : Fld := ⟨0xA0000 + 0x40 * n, 8, 5⟩
/-- KYN_LANE_STS (R223 07_kynor_link.md). -/
abbrev R.KYN_LANE_STS (n : Nat) : Nat := 0xA0004 + 0x40 * n
/-- [2:0] RO, reset 0, immediately (R224). KYN_LANE_STS: 0 OFF, 1 TRAIN, 2 IDENT, 3 READY, 4 RUN, 5 DOWN -/
abbrev F.KYN_LANE_STS_state (n : Nat) : Fld := ⟨0xA0004 + 0x40 * n, 0, 3⟩
/-- [3:3] RO, reset 0, immediately (R224). KYN_LANE_STS: character alignment held -/
abbrev F.KYN_LANE_STS_locked (n : Nat) : Fld := ⟨0xA0004 + 0x40 * n, 3, 1⟩
/-- [6:4] RO, reset 0, immediately (R224). KYN_LANE_STS: code of R212; 0 = none; kept until the next enable -/
abbrev F.KYN_LANE_STS_error (n : Nat) : Fld := ⟨0xA0004 + 0x40 * n, 4, 3⟩
/-- [12:8] RO, reset 0, immediately (R224). KYN_LANE_STS: cells found in the last IDENT -/
abbrev F.KYN_LANE_STS_found (n : Nat) : Fld := ⟨0xA0004 + 0x40 * n, 8, 5⟩
/-- KYN_LANE_LOOP (R223 07_kynor_link.md). -/
abbrev R.KYN_LANE_LOOP (n : Nat) : Nat := 0xA0008 + 0x40 * n
/-- [15:0] RO, reset 0x0000, immediately (R224). KYN_LANE_LOOP: loop delay in ns (R207) -/
abbrev F.KYN_LANE_LOOP_loop (n : Nat) : Fld := ⟨0xA0008 + 0x40 * n, 0, 16⟩
/-- KYN_LANE_REQ (R223 07_kynor_link.md). -/
abbrev R.KYN_LANE_REQ (n : Nat) : Nat := 0xA000C + 0x40 * n
/-- [15:0] RO, reset 0x0000, immediately (R224). KYN_LANE_REQ: D in 4 ns counts (R209) -/
abbrev F.KYN_LANE_REQ_dn_req (n : Nat) : Fld := ⟨0xA000C + 0x40 * n, 0, 16⟩
/-- [31:16] RO, reset 0x0000, immediately (R224). KYN_LANE_REQ: U in 4 ns counts -/
abbrev F.KYN_LANE_REQ_up_req (n : Nat) : Fld := ⟨0xA000C + 0x40 * n, 16, 16⟩
/-- KYN_LANE_UPT (R223 07_kynor_link.md). -/
abbrev R.KYN_LANE_UPT (n : Nat) : Nat := 0xA0010 + 0x40 * n
/-- [15:0] RO, reset 0x0000, immediately (R224). KYN_LANE_UPT: completion of the last accepted uplink, ns after the sample point -/
abbrev F.KYN_LANE_UPT_upt (n : Nat) : Fld := ⟨0xA0010 + 0x40 * n, 0, 16⟩
/-- KYN_LANE_CRCERR (R223 07_kynor_link.md). -/
abbrev R.KYN_LANE_CRCERR (n : Nat) : Nat := 0xA0014 + 0x40 * n
/-- [15:0] RC, reset 0x0000, immediately (R224). KYN_LANE_CRCERR: rejected uplink frames; saturates -/
abbrev F.KYN_LANE_CRCERR_frame (n : Nat) : Fld := ⟨0xA0014 + 0x40 * n, 0, 16⟩
/-- [31:16] RC, reset 0x0000, immediately (R224). KYN_LANE_CRCERR: discarded slots (R215); saturates -/
abbrev F.KYN_LANE_CRCERR_slot (n : Nat) : Fld := ⟨0xA0014 + 0x40 * n, 16, 16⟩
/-- KYN_LANE_LATE (R223 07_kynor_link.md). -/
abbrev R.KYN_LANE_LATE (n : Nat) : Nat := 0xA0018 + 0x40 * n
/-- [15:0] RC, reset 0x0000, immediately (R224). KYN_LANE_LATE: late reports; saturates -/
abbrev F.KYN_LANE_LATE_late (n : Nat) : Fld := ⟨0xA0018 + 0x40 * n, 0, 16⟩
/-- KYN_LANE_MISS (R223 07_kynor_link.md). -/
abbrev R.KYN_LANE_MISS (n : Nat) : Nat := 0xA001C + 0x40 * n
/-- [15:0] RC, reset 0x0000, immediately (R224). KYN_LANE_MISS: missing slots and dl_err reports; saturates -/
abbrev F.KYN_LANE_MISS_miss (n : Nat) : Fld := ⟨0xA001C + 0x40 * n, 0, 16⟩
/-- KYN_LANE_LATE_MAP (R223 07_kynor_link.md). -/
abbrev R.KYN_LANE_LATE_MAP (n : Nat) : Nat := 0xA0020 + 0x40 * n
/-- [23:0] RO, reset 0, immediately (R224). KYN_LANE_LATE_MAP: bit p set if position p reported late in the last accepted frame -/
abbrev F.KYN_LANE_LATE_MAP_map (n : Nat) : Fld := ⟨0xA0020 + 0x40 * n, 0, 24⟩
/-- KYN_LANE_FLT_MAP (R223 07_kynor_link.md). -/
abbrev R.KYN_LANE_FLT_MAP (n : Nat) : Nat := 0xA0024 + 0x40 * n
/-- [23:0] RO, reset 0, immediately (R224). KYN_LANE_FLT_MAP: bit p set if position p reported sc, uvlo_hi, uvlo_lo or ot -/
abbrev F.KYN_LANE_FLT_MAP_map (n : Nat) : Fld := ⟨0xA0024 + 0x40 * n, 0, 24⟩
/-- KYN_LANE_AGE_MAP (R223 07_kynor_link.md). -/
abbrev R.KYN_LANE_AGE_MAP (n : Nat) : Nat := 0xA0028 + 0x40 * n
/-- [23:0] RO, reset 0, immediately (R224). KYN_LANE_AGE_MAP: bit p set if position p was not written at the last sample point -/
abbrev F.KYN_LANE_AGE_MAP_map (n : Nat) : Fld := ⟨0xA0028 + 0x40 * n, 0, 24⟩
/-- KYN_LANE_CMD (R223 07_kynor_link.md). -/
abbrev R.KYN_LANE_CMD (n : Nat) : Nat := 0xA002C + 0x40 * n
/-- [1:0] WO, KG, reset 0, immediately (R224). KYN_LANE_CMD: 1 DIAG (R214), 2 IDENT (READY only, else cmd_rejected); 0 and 3 no effect -/
abbrev F.KYN_LANE_CMD_op (n : Nat) : Fld := ⟨0xA002C + 0x40 * n, 0, 2⟩
/-- [12:8] WO, KG, reset 0, immediately (R224). KYN_LANE_CMD: position for DIAG -/
abbrev F.KYN_LANE_CMD_position (n : Nat) : Fld := ⟨0xA002C + 0x40 * n, 8, 5⟩
/-- [15:15] WO, KG, reset 0, immediately (R224). KYN_LANE_CMD: every position -/
abbrev F.KYN_LANE_CMD_all (n : Nat) : Fld := ⟨0xA002C + 0x40 * n, 15, 1⟩
/-- KYN_LANE_IDSEL (R223 07_kynor_link.md). -/
abbrev R.KYN_LANE_IDSEL (n : Nat) : Nat := 0xA0030 + 0x40 * n
/-- [4:0] RW, reset 0, immediately (R224). KYN_LANE_IDSEL: position shown in IDDAT and DLY -/
abbrev F.KYN_LANE_IDSEL_position (n : Nat) : Fld := ⟨0xA0030 + 0x40 * n, 0, 5⟩
/-- KYN_LANE_IDDAT (R223 07_kynor_link.md). -/
abbrev R.KYN_LANE_IDDAT (n : Nat) : Nat := 0xA0034 + 0x40 * n
/-- [15:0] RO, reset 0x0000, immediately (R224). KYN_LANE_IDDAT: t_r of that position, ns -/
abbrev F.KYN_LANE_IDDAT_t_r (n : Nat) : Fld := ⟨0xA0034 + 0x40 * n, 0, 16⟩
/-- [23:16] RO, reset 0x00, immediately (R224). KYN_LANE_IDDAT: cell model code -/
abbrev F.KYN_LANE_IDDAT_model (n : Nat) : Fld := ⟨0xA0034 + 0x40 * n, 16, 8⟩
/-- [31:24] RO, reset 0x00, immediately (R224). KYN_LANE_IDDAT: contract revision -/
abbrev F.KYN_LANE_IDDAT_revision (n : Nat) : Fld := ⟨0xA0034 + 0x40 * n, 24, 8⟩
/-- KYN_LANE_DLY (R223 07_kynor_link.md). -/
abbrev R.KYN_LANE_DLY (n : Nat) : Nat := 0xA0038 + 0x40 * n
/-- [15:0] RO, reset 0x0000, immediately (R224). KYN_LANE_DLY: δ of that position, ns -/
abbrev F.KYN_LANE_DLY_delta (n : Nat) : Fld := ⟨0xA0038 + 0x40 * n, 0, 16⟩
/-- KYN_LANE_FLAGS (R223 07_kynor_link.md). -/
abbrev R.KYN_LANE_FLAGS (n : Nat) : Nat := 0xA003C + 0x40 * n
/-- [0:0] W1C, reset 0, immediately (R224). KYN_LANE_FLAGS: the lane entered DOWN -/
abbrev F.KYN_LANE_FLAGS_down_seen (n : Nat) : Fld := ⟨0xA003C + 0x40 * n, 0, 1⟩
/-- [1:1] W1C, reset 0, immediately (R224). KYN_LANE_FLAGS: a late report was received -/
abbrev F.KYN_LANE_FLAGS_late_seen (n : Nat) : Fld := ⟨0xA003C + 0x40 * n, 1, 1⟩
/-- [2:2] W1C, reset 0, immediately (R224). KYN_LANE_FLAGS: an sc report was received -/
abbrev F.KYN_LANE_FLAGS_sc_seen (n : Nat) : Fld := ⟨0xA003C + 0x40 * n, 2, 1⟩
/-- [3:3] W1C, reset 0, immediately (R224). KYN_LANE_FLAGS: a KYN_LANE_CMD write was ignored -/
abbrev F.KYN_LANE_FLAGS_cmd_rejected (n : Nat) : Fld := ⟨0xA003C + 0x40 * n, 3, 1⟩
/-- [4:4] W1C, reset 0, immediately (R224). KYN_LANE_FLAGS: R211 -/
abbrev F.KYN_LANE_FLAGS_up_late (n : Nat) : Fld := ⟨0xA003C + 0x40 * n, 4, 1⟩

/-! ### Block 0x000B_0000 -/

/-- ARM_CTL (R248 08_arms_and_cells.md). -/
abbrev R.ARM_CTL (n : Nat) : Nat := 0xB0000 + 0x80 * n
/-- [0:0] RW, MW, KG, SG, reset 0, immediately (R249). ARM_CTL: R226–R228 -/
abbrev F.ARM_CTL_en (n : Nat) : Fld := ⟨0xB0000 + 0x80 * n, 0, 1⟩
/-- ARM_STS (R248 08_arms_and_cells.md). -/
abbrev R.ARM_STS (n : Nat) : Nat := 0xB0004 + 0x80 * n
/-- [0:0] RO, reset 0, immediately (R249). ARM_STS: arm enabled -/
abbrev F.ARM_STS_enabled (n : Nat) : Fld := ⟨0xB0004 + 0x80 * n, 0, 1⟩
/-- [1:1] RO, reset 0, immediately (R249). ARM_STS: R245 -/
abbrev F.ARM_STS_derated (n : Nat) : Fld := ⟨0xB0004 + 0x80 * n, 1, 1⟩
/-- [2:2] RO, reset 0, immediately (R249). ARM_STS: R246 -/
abbrev F.ARM_STS_tripped (n : Nat) : Fld := ⟨0xB0004 + 0x80 * n, 2, 1⟩
/-- [3:3] RO, reset 0, immediately (R249). ARM_STS: R230, at the last couch -/
abbrev F.ARM_STS_ref_sat (n : Nat) : Fld := ⟨0xB0004 + 0x80 * n, 3, 1⟩
/-- [4:4] RO, reset 0, immediately (R249). ARM_STS: R231 -/
abbrev F.ARM_STS_override (n : Nat) : Fld := ⟨0xB0004 + 0x80 * n, 4, 1⟩
/-- [10:8] RO, reset 0, immediately (R249). ARM_STS: code of R227; 0 = none -/
abbrev F.ARM_STS_error (n : Nat) : Fld := ⟨0xB0004 + 0x80 * n, 8, 3⟩
/-- [22:16] RO, reset 0, immediately (R249). ARM_STS: A -/
abbrev F.ARM_STS_active (n : Nat) : Fld := ⟨0xB0004 + 0x80 * n, 16, 7⟩
/-- [30:24] RO, reset 0, immediately (R249). ARM_STS: spares left -/
abbrev F.ARM_STS_spares (n : Nat) : Fld := ⟨0xB0004 + 0x80 * n, 24, 7⟩
/-- ARM_CFG (R248 08_arms_and_cells.md). -/
abbrev R.ARM_CFG (n : Nat) : Nat := 0xB0008 + 0x80 * n
/-- [1:0] RW, MW, KG, SG, reset 0, at next enable (R249). ARM_CFG: 0 NLM, 1 PSC -/
abbrev F.ARM_CFG_mode (n : Nat) : Fld := ⟨0xB0008 + 0x80 * n, 0, 2⟩
/-- [2:2] RW, MW, KG, SG, reset 0, at next enable (R249). ARM_CFG: R234 -/
abbrev F.ARM_CFG_pol (n : Nat) : Fld := ⟨0xB0008 + 0x80 * n, 2, 1⟩
/-- [14:8] RW, MW, KG, SG, reset 0, at next enable (R249). ARM_CFG: A_cfg, 0–64; 0 = arm absent -/
abbrev F.ARM_CFG_active (n : Nat) : Fld := ⟨0xB0008 + 0x80 * n, 8, 7⟩
/-- [22:16] RW, MW, KG, SG, reset 0, at next enable (R249). ARM_CFG: S_cfg, 0–64 -/
abbrev F.ARM_CFG_spares (n : Nat) : Fld := ⟨0xB0008 + 0x80 * n, 16, 7⟩
/-- ARM_RED (R248 08_arms_and_cells.md). -/
abbrev R.ARM_RED (n : Nat) : Nat := 0xB000C + 0x80 * n
/-- [6:0] RW, MW, KG, SG, reset 1, at next enable (R249). ARM_RED: R246 -/
abbrev F.ARM_RED_min_active (n : Nat) : Fld := ⟨0xB000C + 0x80 * n, 0, 7⟩
/-- [14:8] RW, MW, KG, SG, reset 0, at next enable (R249). ARM_RED: R244 -/
abbrev F.ARM_RED_low_water (n : Nat) : Fld := ⟨0xB000C + 0x80 * n, 8, 7⟩
/-- ARM_VNOM (R248 08_arms_and_cells.md). -/
abbrev R.ARM_VNOM (n : Nat) : Nat := 0xB0010 + 0x80 * n
/-- [15:0] RW, MW, KG, SG, reset 0x0000, at next enable (R249). ARM_VNOM: nominal cell voltage, 50 mV counts (R120) -/
abbrev F.ARM_VNOM_vnom (n : Nat) : Fld := ⟨0xB0010 + 0x80 * n, 0, 16⟩
/-- ARM_BAL (R248 08_arms_and_cells.md). -/
abbrev R.ARM_BAL (n : Nat) : Nat := 0xB0014 + 0x80 * n
/-- [15:0] RW, MW, reset 0x0148, immediately (R249). ARM_BAL: Q1.15 pu of vnom (R236) -/
abbrev F.ARM_BAL_band (n : Nat) : Fld := ⟨0xB0014 + 0x80 * n, 0, 16⟩
/-- [31:16] RW, MW, reset 0x028F, immediately (R249). ARM_BAL: Q1.15 pu (R234) -/
abbrev F.ARM_BAL_i_band (n : Nat) : Fld := ⟨0xB0014 + 0x80 * n, 16, 16⟩
/-- ARM_SEL (R248 08_arms_and_cells.md). -/
abbrev R.ARM_SEL (n : Nat) : Nat := 0xB0018 + 0x80 * n
/-- [15:0] RW, MW, reset 0x0000, immediately (R249). ARM_SEL: PSC balance gain, Q4.12 -/
abbrev F.ARM_SEL_kb (n : Nat) : Fld := ⟨0xB0018 + 0x80 * n, 0, 16⟩
/-- [21:16] RW, MW, reset 4, immediately (R249). ARM_SEL: swaps per couch, 0–63 -/
abbrev F.ARM_SEL_max_swap (n : Nat) : Fld := ⟨0xB0018 + 0x80 * n, 16, 6⟩
/-- ARM_VLIM (R248 08_arms_and_cells.md). -/
abbrev R.ARM_VLIM (n : Nat) : Nat := 0xB001C + 0x80 * n
/-- [15:0] RW, MW, KG, reset 0x5000, immediately (R249). ARM_VLIM: over-voltage, Q2.14 pu -/
abbrev F.ARM_VLIM_hi (n : Nat) : Fld := ⟨0xB001C + 0x80 * n, 0, 16⟩
/-- [31:16] RW, MW, reset 0x0CCD, immediately (R249). ARM_VLIM: Q1.15 pu (R239) -/
abbrev F.ARM_VLIM_spread_max (n : Nat) : Fld := ⟨0xB001C + 0x80 * n, 16, 16⟩
/-- ARM_FLT (R248 08_arms_and_cells.md). -/
abbrev R.ARM_FLT (n : Nat) : Nat := 0xB0020 + 0x80 * n
/-- [0:0] RW, MW, KG, reset 1, immediately (R249). ARM_FLT: R241 -/
abbrev F.ARM_FLT_ot_en (n : Nat) : Fld := ⟨0xB0020 + 0x80 * n, 0, 1⟩
/-- [1:1] RW, MW, KG, reset 1, immediately (R249). ARM_FLT: R241 -/
abbrev F.ARM_FLT_ov_en (n : Nat) : Fld := ⟨0xB0020 + 0x80 * n, 1, 1⟩
/-- [11:8] RW, MW, KG, reset 3, immediately (R249). ARM_FLT: couches; 0 disables -/
abbrev F.ARM_FLT_stale (n : Nat) : Fld := ⟨0xB0020 + 0x80 * n, 8, 4⟩
/-- [19:16] RW, MW, KG, reset 2, immediately (R249). ARM_FLT: reports; 0 disables -/
abbrev F.ARM_FLT_uvlo (n : Nat) : Fld := ⟨0xB0020 + 0x80 * n, 16, 4⟩
/-- ARM_REF (R248 08_arms_and_cells.md). -/
abbrev R.ARM_REF (n : Nat) : Nat := 0xB0024 + 0x80 * n
/-- [15:0] RW, CO, reset 0x0000, at couch (R249). ARM_REF: Q8.8 cells (R230) -/
abbrev F.ARM_REF_level (n : Nat) : Fld := ⟨0xB0024 + 0x80 * n, 0, 16⟩
/-- ARM_LVL (R248 08_arms_and_cells.md). -/
abbrev R.ARM_LVL (n : Nat) : Nat := 0xB0028 + 0x80 * n
/-- [6:0] RO, reset 0, immediately (R249). ARM_LVL: cells in S for the next tick -/
abbrev F.ARM_LVL_whole (n : Nat) : Fld := ⟨0xB0028 + 0x80 * n, 0, 7⟩
/-- [15:8] RO, reset 0, immediately (R249). ARM_LVL: f × 256 in force -/
abbrev F.ARM_LVL_frac (n : Nat) : Fld := ⟨0xB0028 + 0x80 * n, 8, 8⟩
/-- [17:16] RO, reset 0, immediately (R249). ARM_LVL: 0 NONE, 1 CHARGE, 2 DISCHARGE -/
abbrev F.ARM_LVL_dir (n : Nat) : Fld := ⟨0xB0028 + 0x80 * n, 16, 2⟩
/-- [29:24] RO, reset 0, immediately (R249). ARM_LVL: slot of mod -/
abbrev F.ARM_LVL_mod_slot (n : Nat) : Fld := ⟨0xB0028 + 0x80 * n, 24, 6⟩
/-- [31:31] RO, reset 0, immediately (R249). ARM_LVL: a modulated cell is in use -/
abbrev F.ARM_LVL_mod_valid (n : Nat) : Fld := ⟨0xB0028 + 0x80 * n, 31, 1⟩
/-- ARM_SPREAD (R248 08_arms_and_cells.md). -/
abbrev R.ARM_SPREAD (n : Nat) : Nat := 0xB002C + 0x80 * n
/-- [15:0] RO, reset 0x0000, immediately (R249). ARM_SPREAD: Q2.14 pu -/
abbrev F.ARM_SPREAD_vmin (n : Nat) : Fld := ⟨0xB002C + 0x80 * n, 0, 16⟩
/-- [31:16] RO, reset 0x0000, immediately (R249). ARM_SPREAD: Q2.14 pu -/
abbrev F.ARM_SPREAD_vmax (n : Nat) : Fld := ⟨0xB002C + 0x80 * n, 16, 16⟩
/-- ARM_VSUM (R248 08_arms_and_cells.md). -/
abbrev R.ARM_VSUM (n : Nat) : Nat := 0xB0030 + 0x80 * n
/-- [31:0] RO, reset 0x0000_0000, immediately (R249). ARM_VSUM: fp32 pu -/
abbrev F.ARM_VSUM_sum (n : Nat) : Fld := ⟨0xB0030 + 0x80 * n, 0, 32⟩
/-- ARM_SW_CNT (R248 08_arms_and_cells.md). -/
abbrev R.ARM_SW_CNT (n : Nat) : Nat := 0xB0034 + 0x80 * n
/-- [31:0] RC, reset 0x0000_0000, immediately (R249). ARM_SW_CNT, ARM_SWAP_CNT: saturate -/
abbrev F.ARM_SW_CNT_count (n : Nat) : Fld := ⟨0xB0034 + 0x80 * n, 0, 32⟩
/-- ARM_SWAP_CNT (R248 08_arms_and_cells.md). -/
abbrev R.ARM_SWAP_CNT (n : Nat) : Nat := 0xB0038 + 0x80 * n
/-- [31:0] RC, reset 0x0000_0000, immediately (R249). ARM_SW_CNT, ARM_SWAP_CNT: saturate -/
abbrev F.ARM_SWAP_CNT_count (n : Nat) : Fld := ⟨0xB0038 + 0x80 * n, 0, 32⟩
/-- ARM_FAIL_CNT (R248 08_arms_and_cells.md). -/
abbrev R.ARM_FAIL_CNT (n : Nat) : Nat := 0xB003C + 0x80 * n
/-- [7:0] RO, reset 0x00, immediately (R249). ARM_FAIL_CNT: failures since enable -/
abbrev F.ARM_FAIL_CNT_failed (n : Nat) : Fld := ⟨0xB003C + 0x80 * n, 0, 8⟩
/-- ARM_FLAGS (R248 08_arms_and_cells.md). -/
abbrev R.ARM_FLAGS (n : Nat) : Nat := 0xB0040 + 0x80 * n
/-- [4:0] W1C, reset 0, immediately (R249). ARM_FLAGS: bit 0 stop_rejected, 1 spread, 2 circ, 3 bypass_unconfirmed, 4 retire_ignored -/
abbrev F.ARM_FLAGS_flags (n : Nat) : Fld := ⟨0xB0040 + 0x80 * n, 0, 5⟩
/-- ARM_DERATE (R248 08_arms_and_cells.md). -/
abbrev R.ARM_DERATE (n : Nat) : Nat := 0xB0044 + 0x80 * n
/-- [15:0] RO, reset 0x7FFF, immediately (R249). ARM_DERATE: Q1.15 (R245) -/
abbrev F.ARM_DERATE_factor (n : Nat) : Fld := ⟨0xB0044 + 0x80 * n, 0, 16⟩
/-- ARM_MIRROR (R248 08_arms_and_cells.md). -/
abbrev R.ARM_MIRROR (n : Nat) : Nat := 0xB0048 + 0x80 * n
/-- [0:0] RW, MW, reset 0, immediately (R249). ARM_MIRROR: R232; ARM0 and ARM6 only -/
abbrev F.ARM_MIRROR_en (n : Nat) : Fld := ⟨0xB0048 + 0x80 * n, 0, 1⟩
/-- [20:5] RW, reset 0, immediately (R249). ARM_MIRROR: byte address / 32 -/
abbrev F.ARM_MIRROR_addr (n : Nat) : Fld := ⟨0xB0048 + 0x80 * n, 5, 16⟩
/-- ARM_BALCFG (R248 08_arms_and_cells.md). -/
abbrev R.ARM_BALCFG (n : Nat) : Nat := 0xB004C + 0x80 * n
/-- [7:0] RW, MW, reset 0, immediately (R249). ARM_BALCFG: R239; 0 disables -/
abbrev F.ARM_BALCFG_ticks (n : Nat) : Fld := ⟨0xB004C + 0x80 * n, 0, 8⟩
/-- [31:16] RW, MW, reset 0x0000, immediately (R249). ARM_BALCFG: Q1.15 pu; upper arms only; 0 disables -/
abbrev F.ARM_BALCFG_ic_max (n : Nat) : Fld := ⟨0xB004C + 0x80 * n, 16, 16⟩
/-- ARM_INS (R248 08_arms_and_cells.md). -/
abbrev R.ARM_INS (n i : Nat) : Nat := 0xB0050 + 0x80 * n + 4 * i
/-- [31:0] RO, reset 0x0000_0000, immediately (R249). ARM_INS0/1: bit s (s − 32) set if slot s is in S -/
abbrev F.ARM_INS_map (n i : Nat) : Fld := ⟨0xB0050 + 0x80 * n + 4 * i, 0, 32⟩
/-- ARM_SPR (R248 08_arms_and_cells.md). -/
abbrev R.ARM_SPR (n i : Nat) : Nat := 0xB0058 + 0x80 * n + 4 * i
/-- [31:0] RO, reset 0x0000_0000, immediately (R249). ARM_SPR0/1: bit s (s − 32) set if slot s is SPARE -/
abbrev F.ARM_SPR_map (n i : Nat) : Fld := ⟨0xB0058 + 0x80 * n + 4 * i, 0, 32⟩
/-- ARM_CELL_CFG (R248 08_arms_and_cells.md). -/
abbrev R.ARM_CELL_CFG (n : Nat) : Nat := 0xB1000 + 8 * n
/-- [3:0] RW, KG, reset 0, at next enable (R249). ARM_CELLc_CFG: 0–11 (R225) -/
abbrev F.ARM_CELL_CFG_arm (n : Nat) : Fld := ⟨0xB1000 + 8 * n, 0, 4⟩
/-- [13:8] RW, KG, reset 0, at next enable (R249). ARM_CELLc_CFG: 0–63 -/
abbrev F.ARM_CELL_CFG_slot (n : Nat) : Fld := ⟨0xB1000 + 8 * n, 8, 6⟩
/-- [15:15] RW, KG, reset 0, at next enable (R249). ARM_CELLc_CFG: cell placed in an arm -/
abbrev F.ARM_CELL_CFG_mapped (n : Nat) : Fld := ⟨0xB1000 + 8 * n, 15, 1⟩
/-- [16:16] WO, KG, reset 0, immediately (R249). ARM_CELLc_CFG: cause HOST at the next couch; ignored as R241 lays down, setting retire_ignored -/
abbrev F.ARM_CELL_CFG_retire (n : Nat) : Fld := ⟨0xB1000 + 8 * n, 16, 1⟩
/-- ARM_CELL_STS (R248 08_arms_and_cells.md). -/
abbrev R.ARM_CELL_STS (n : Nat) : Nat := 0xB1004 + 8 * n
/-- [2:0] RO, reset 0, immediately (R249). ARM_CELLc_STS: R229 -/
abbrev F.ARM_CELL_STS_state (n : Nat) : Fld := ⟨0xB1004 + 8 * n, 0, 3⟩
/-- [7:4] RO, reset 0, immediately (R249). ARM_CELLc_STS: R241; 0 = none -/
abbrev F.ARM_CELL_STS_cause (n : Nat) : Fld := ⟨0xB1004 + 8 * n, 4, 4⟩
/-- [31:8] RO, reset 0, immediately (R249). ARM_CELLc_STS: TIME_TICK_COUNT[23:0] of the failure -/
abbrev F.ARM_CELL_STS_tick (n : Nat) : Fld := ⟨0xB1004 + 8 * n, 8, 24⟩

/-! ### Block 0x000C_0000 -/

/-- PROT_CTL (R281 09_protection.md). -/
abbrev R.PROT_CTL : Nat := 0xC0000
/-- [0:0] RW, MW, reset 1, immediately (R282). PROT_CTL: R280 -/
abbrev F.PROT_CTL_fault_n_en : Fld := ⟨0xC0000, 0, 1⟩
/-- PROT_STS (R281 09_protection.md). -/
abbrev R.PROT_STS : Nat := 0xC0004
/-- [7:0] RO, reset 0xFF, immediately (R282). PROT_STS: bit k set if converter k is in a safe state -/
abbrev F.PROT_STS_safe : Fld := ⟨0xC0004, 0, 8⟩
/-- [15:8] RO, reset 0x00, immediately (R282). PROT_STS: bit k set if converter k is enabled -/
abbrev F.PROT_STS_enabled : Fld := ⟨0xC0004, 8, 8⟩
/-- [16:16] RO, reset 0, immediately (R282). PROT_STS: a diagnosis runs -/
abbrev F.PROT_STS_diag_busy : Fld := ⟨0xC0004, 16, 1⟩
/-- PROT_TRIP_STS (R281 09_protection.md). -/
abbrev R.PROT_TRIP_STS : Nat := 0xC0008
/-- [7:0] RO, reset 0x00, immediately (R282). PROT_TRIP_STS: filtered level of TRIP0–TRIP7 -/
abbrev F.PROT_TRIP_STS_active : Fld := ⟨0xC0008, 0, 8⟩
/-- [15:8] RO, reset 0x00, immediately (R282). PROT_TRIP_STS: trip latches (R266) -/
abbrev F.PROT_TRIP_STS_latched : Fld := ⟨0xC0008, 8, 8⟩
/-- [23:16] W1C, reset 0x00, immediately (R282). PROT_TRIP_STS: R268 -/
abbrev F.PROT_TRIP_STS_clear_rejected : Fld := ⟨0xC0008, 16, 8⟩
/-- PROT_TRIP_CLR (R281 09_protection.md). -/
abbrev R.PROT_TRIP_CLR : Nat := 0xC000C
/-- [7:0] WO, KG, reset 0x00, immediately (R282). PROT_TRIP_CLR: R268 -/
abbrev F.PROT_TRIP_CLR_clear : Fld := ⟨0xC000C, 0, 8⟩
/-- PROT_TRIP_CFG (R281 09_protection.md). -/
abbrev R.PROT_TRIP_CFG (n : Nat) : Nat := 0xC0010 + 4 * n
/-- [0:0] RW, KG, SG, reset 0, immediately (R282). PROT_TRIPm_CFG: R266 -/
abbrev F.PROT_TRIP_CFG_en (n : Nat) : Fld := ⟨0xC0010 + 4 * n, 0, 1⟩
/-- [1:1] RW, KG, SG, reset 0, immediately (R282). PROT_TRIPm_CFG: 0 active low, 1 active high -/
abbrev F.PROT_TRIP_CFG_pol (n : Nat) : Fld := ⟨0xC0010 + 4 * n, 1, 1⟩
/-- [6:4] RW, KG, SG, reset 1, immediately (R282). PROT_TRIPm_CFG: R266 -/
abbrev F.PROT_TRIP_CFG_action (n : Nat) : Fld := ⟨0xC0010 + 4 * n, 4, 3⟩
/-- [15:8] RW, KG, SG, reset 0x00, immediately (R282). PROT_TRIPm_CFG: converters -/
abbrev F.PROT_TRIP_CFG_mask (n : Nat) : Fld := ⟨0xC0010 + 4 * n, 8, 8⟩
/-- [29:16] RW, KG, SG, reset 0x03E8, immediately (R282). PROT_TRIPm_CFG: ns; acts within 50–10,000 -/
abbrev F.PROT_TRIP_CFG_filter (n : Nat) : Fld := ⟨0xC0010 + 4 * n, 16, 14⟩
/-- PROT_CHP_CFG (R281 09_protection.md). -/
abbrev R.PROT_CHP_CFG (n : Nat) : Nat := 0xC0030 + 4 * n
/-- [0:0] RW, KG, SG, reset 0, immediately (R282). PROT_CHPn_CFG: R271 -/
abbrev F.PROT_CHP_CFG_en (n : Nat) : Fld := ⟨0xC0030 + 4 * n, 0, 1⟩
/-- [1:1] RW, KG, SG, reset 0, immediately (R282). PROT_CHPn_CFG: 0 ball high for on -/
abbrev F.PROT_CHP_CFG_pol (n : Nat) : Fld := ⟨0xC0030 + 4 * n, 1, 1⟩
/-- [2:2] RW, KG, SG, reset 0, immediately (R282). PROT_CHPn_CFG: CFn enabled (R273) -/
abbrev F.PROT_CHP_CFG_cf_en (n : Nat) : Fld := ⟨0xC0030 + 4 * n, 2, 1⟩
/-- [3:3] RW, KG, SG, reset 0, immediately (R282). PROT_CHPn_CFG: 0 active low -/
abbrev F.PROT_CHP_CFG_cf_pol (n : Nat) : Fld := ⟨0xC0030 + 4 * n, 3, 1⟩
/-- [6:4] RW, KG, SG, reset 0, immediately (R282). PROT_CHPn_CFG: converter whose vdc is used -/
abbrev F.PROT_CHP_CFG_src (n : Nat) : Fld := ⟨0xC0030 + 4 * n, 4, 3⟩
/-- [15:8] RW, KG, SG, reset 0x00, immediately (R282). PROT_CHPn_CFG: converters served -/
abbrev F.PROT_CHP_CFG_mask (n : Nat) : Fld := ⟨0xC0030 + 4 * n, 8, 8⟩
/-- [19:16] RW, KG, reset 0, immediately (R282). PROT_CHPn_CFG: ticks -/
abbrev F.PROT_CHP_CFG_min_on (n : Nat) : Fld := ⟨0xC0030 + 4 * n, 16, 4⟩
/-- [23:20] RW, KG, reset 0, immediately (R282). PROT_CHPn_CFG: ticks -/
abbrev F.PROT_CHP_CFG_min_off (n : Nat) : Fld := ⟨0xC0030 + 4 * n, 20, 4⟩
/-- [31:24] RW, KG, reset 0x00, immediately (R282). PROT_CHPn_CFG: 2^−10 pu (R274) -/
abbrev F.PROT_CHP_CFG_fall_min (n : Nat) : Fld := ⟨0xC0030 + 4 * n, 24, 8⟩
/-- PROT_CHP_LVL (R281 09_protection.md). -/
abbrev R.PROT_CHP_LVL (n : Nat) : Nat := 0xC0040 + 4 * n
/-- [15:0] RW, MW, KG, reset 0x7FFF, immediately (R282). PROT_CHPn_LVL: Q3.13 -/
abbrev F.PROT_CHP_LVL_on (n : Nat) : Fld := ⟨0xC0040 + 4 * n, 0, 16⟩
/-- [31:16] RW, MW, KG, reset 0x7FFF, immediately (R282). PROT_CHPn_LVL: Q3.13; must lie below on -/
abbrev F.PROT_CHP_LVL_off (n : Nat) : Fld := ⟨0xC0040 + 4 * n, 16, 16⟩
/-- PROT_CHP_STS (R281 09_protection.md). -/
abbrev R.PROT_CHP_STS (n : Nat) : Nat := 0xC0050 + 4 * n
/-- [0:0] RO, reset 0, immediately (R282). PROT_CHPn_STS: chopper commanded on -/
abbrev F.PROT_CHP_STS_on (n : Nat) : Fld := ⟨0xC0050 + 4 * n, 0, 1⟩
/-- [1:1] W1C, reset 0, immediately (R282). PROT_CHPn_STS: R275 -/
abbrev F.PROT_CHP_STS_fault (n : Nat) : Fld := ⟨0xC0050 + 4 * n, 1, 1⟩
/-- [2:2] RO, reset 0, immediately (R282). PROT_CHPn_STS: fault from CFn -/
abbrev F.PROT_CHP_STS_cause_cf (n : Nat) : Fld := ⟨0xC0050 + 4 * n, 2, 1⟩
/-- [3:3] RO, reset 0, immediately (R282). PROT_CHPn_STS: fault from R274 -/
abbrev F.PROT_CHP_STS_cause_eff (n : Nat) : Fld := ⟨0xC0050 + 4 * n, 3, 1⟩
/-- [4:4] W1C, reset 0, immediately (R282). PROT_CHPn_STS: a clear was ignored -/
abbrev F.PROT_CHP_STS_clr_rej (n : Nat) : Fld := ⟨0xC0050 + 4 * n, 4, 1⟩
/-- [31:16] RO, reset 0x0000, immediately (R282). PROT_CHPn_STS: present on-interval in µs; saturates -/
abbrev F.PROT_CHP_STS_on_us (n : Nat) : Fld := ⟨0xC0050 + 4 * n, 16, 16⟩
/-- PROT_DRDY_CFG (R281 09_protection.md). -/
abbrev R.PROT_DRDY_CFG : Nat := 0xC0060
/-- [5:0] RW, KG, SG, reset 0x00, immediately (R282). PROT_DRDY_CFG: bit b enables DRDYb -/
abbrev F.PROT_DRDY_CFG_en : Fld := ⟨0xC0060, 0, 6⟩
/-- [13:8] RW, KG, SG, reset 0x00, immediately (R282). PROT_DRDY_CFG: bit b = 0 ready when high -/
abbrev F.PROT_DRDY_CFG_pol : Fld := ⟨0xC0060, 8, 6⟩
/-- [23:16] RW, KG, SG, reset 0x0A, immediately (R282). PROT_DRDY_CFG: 4 ns counts (R262) -/
abbrev F.PROT_DRDY_CFG_filt : Fld := ⟨0xC0060, 16, 8⟩
/-- PROT_DRDY_STS (R281 09_protection.md). -/
abbrev R.PROT_DRDY_STS : Nat := 0xC0064
/-- [5:0] RO, reset 0x00, immediately (R282). PROT_DRDY_STS: filtered readiness -/
abbrev F.PROT_DRDY_STS_ready : Fld := ⟨0xC0064, 0, 6⟩
/-- [13:8] W1C, reset 0x00, immediately (R282). PROT_DRDY_STS: loss latched -/
abbrev F.PROT_DRDY_STS_lat : Fld := ⟨0xC0064, 8, 6⟩
/-- [21:16] W1C, reset 0x00, immediately (R282). PROT_DRDY_STS: a clear was ignored -/
abbrev F.PROT_DRDY_STS_clr_rej : Fld := ⟨0xC0064, 16, 6⟩
/-- PROT_DIAG_CTL (R281 09_protection.md). -/
abbrev R.PROT_DIAG_CTL : Nat := 0xC0068
/-- [0:0] WO, KG, reset 0, immediately (R282). PROT_DIAG_CTL: R276 -/
abbrev F.PROT_DIAG_CTL_start : Fld := ⟨0xC0068, 0, 1⟩
/-- [1:1] WO, reset 0, immediately (R282). PROT_DIAG_CTL: ends the diagnosis, error 3 -/
abbrev F.PROT_DIAG_CTL_abort : Fld := ⟨0xC0068, 1, 1⟩
/-- [10:8] RW, reset 0, immediately (R282). PROT_DIAG_CTL: converter k -/
abbrev F.PROT_DIAG_CTL_conv : Fld := ⟨0xC0068, 8, 3⟩
/-- PROT_DIAG_CFG (R281 09_protection.md). -/
abbrev R.PROT_DIAG_CFG : Nat := 0xC006C
/-- [3:0] RW, MW, reset 0, immediately (R282). PROT_DIAG_CFG: GPIO of the network -/
abbrev F.PROT_DIAG_CFG_gpio : Fld := ⟨0xC006C, 0, 4⟩
/-- [4:4] RW, MW, reset 0, immediately (R282). PROT_DIAG_CFG: 0 high enables -/
abbrev F.PROT_DIAG_CFG_gpio_pol : Fld := ⟨0xC006C, 4, 1⟩
/-- [5:5] RW, MW, reset 0, immediately (R282). PROT_DIAG_CFG: 0 LOAD, 1 ISOLATED -/
abbrev F.PROT_DIAG_CFG_mode : Fld := ⟨0xC006C, 5, 1⟩
/-- [15:8] RW, MW, reset 0x05, immediately (R282). PROT_DIAG_CFG: ms per step -/
abbrev F.PROT_DIAG_CFG_settle : Fld := ⟨0xC006C, 8, 8⟩
/-- PROT_DIAG_LVL (R281 09_protection.md). -/
abbrev R.PROT_DIAG_LVL : Nat := 0xC0070
/-- [15:0] RW, MW, reset 0x0100, immediately (R282). PROT_DIAG_LVL: Q3.13 -/
abbrev F.PROT_DIAG_LVL_lo_lvl : Fld := ⟨0xC0070, 0, 16⟩
/-- [31:16] RW, MW, reset 0x0800, immediately (R282). PROT_DIAG_LVL: Q3.13 -/
abbrev F.PROT_DIAG_LVL_dcp_margin : Fld := ⟨0xC0070, 16, 16⟩
/-- PROT_DIAG_STS (R281 09_protection.md). -/
abbrev R.PROT_DIAG_STS : Nat := 0xC0074
/-- [0:0] RO, reset 0, immediately (R282). PROT_DIAG_STS: diagnosis running -/
abbrev F.PROT_DIAG_STS_busy : Fld := ⟨0xC0074, 0, 1⟩
/-- [3:1] RO, reset 0, immediately (R282). PROT_DIAG_STS: R276; 0 = none -/
abbrev F.PROT_DIAG_STS_error : Fld := ⟨0xC0074, 1, 3⟩
/-- [4:4] W1C, reset 0, immediately (R282). PROT_DIAG_STS: diagnosis ended -/
abbrev F.PROT_DIAG_STS_done : Fld := ⟨0xC0074, 4, 1⟩
/-- [10:8] RO, reset 0, immediately (R282). PROT_DIAG_STS: step 0–3 -/
abbrev F.PROT_DIAG_STS_step : Fld := ⟨0xC0074, 8, 3⟩
/-- [31:16] RO, reset 0x0000, immediately (R282). PROT_DIAG_STS: cells failed by DIAG -/
abbrev F.PROT_DIAG_STS_failed : Fld := ⟨0xC0074, 16, 16⟩
/-- PROT_DIAG_RES (R281 09_protection.md). -/
abbrev R.PROT_DIAG_RES : Nat := 0xC0078
/-- [11:0] RO, reset 0x000, immediately (R282). PROT_DIAG_RES, bridge: codes of phases a, b, c in [3:0], [7:4], [11:8] (R279) -/
abbrev F.PROT_DIAG_RES_phase : Fld := ⟨0xC0078, 0, 12⟩
/-- [15:0] RO, reset 0x0000, immediately (R282). PROT_DIAG_RES, MMC: PASS results -/
abbrev F.PROT_DIAG_RES_passed : Fld := ⟨0xC0078, 0, 16⟩
/-- [31:16] RO, reset 0x0000, immediately (R282). PROT_DIAG_RES, MMC: cells without result -/
abbrev F.PROT_DIAG_RES_silent : Fld := ⟨0xC0078, 16, 16⟩
/-- PROT_LAST (R281 09_protection.md). -/
abbrev R.PROT_LAST : Nat := 0xC007C
/-- [31:0] RO, reset 0x0000_0000, immediately (R282). PROT_LAST: global time [31:0] of the latest applied demand -/
abbrev F.PROT_LAST_time : Fld := ⟨0xC007C, 0, 32⟩
/-- PROT_GF (R281 09_protection.md). -/
abbrev R.PROT_GF (n : Nat) : Nat := 0xC0080 + 4 * n
/-- [0:0] RW, KG, SG, reset 0, immediately (R282). PROT_GFn: GF enabled -/
abbrev F.PROT_GF_en (n : Nat) : Fld := ⟨0xC0080 + 4 * n, 0, 1⟩
/-- [1:1] RW, KG, SG, reset 0, immediately (R282). PROT_GFn: 0 active low -/
abbrev F.PROT_GF_pol (n : Nat) : Fld := ⟨0xC0080 + 4 * n, 1, 1⟩
/-- [2:2] W1C, reset 0, immediately (R282). PROT_GFn: R260 -/
abbrev F.PROT_GF_lat (n : Nat) : Fld := ⟨0xC0080 + 4 * n, 2, 1⟩
/-- [3:3] W1C, reset 0, immediately (R282). PROT_GFn: a clear was ignored -/
abbrev F.PROT_GF_clr_rej (n : Nat) : Fld := ⟨0xC0080 + 4 * n, 3, 1⟩
/-- [4:4] RO, reset 0, immediately (R282). PROT_GFn: filtered input active -/
abbrev F.PROT_GF_act (n : Nat) : Fld := ⟨0xC0080 + 4 * n, 4, 1⟩
/-- [5:5] RO, reset 0, immediately (R282). PROT_GFn: blanking running -/
abbrev F.PROT_GF_in_blank (n : Nat) : Fld := ⟨0xC0080 + 4 * n, 5, 1⟩
/-- [13:8] RW, KG, SG, reset 0x0A, immediately (R282). PROT_GFn: 4 ns counts, 0–50 -/
abbrev F.PROT_GF_filt (n : Nat) : Fld := ⟨0xC0080 + 4 * n, 8, 6⟩
/-- [29:16] RW, KG, SG, reset 0x07D0, immediately (R282). PROT_GFn: ns; acts within 500–10,000 -/
abbrev F.PROT_GF_blank (n : Nat) : Fld := ⟨0xC0080 + 4 * n, 16, 14⟩
/-- PROT_GF_CNT (R281 09_protection.md). -/
abbrev R.PROT_GF_CNT (n : Nat) : Nat := 0xC0100 + 4 * n
/-- [15:0] RC, reset 0x0000, immediately (R282). PROT_GF_CNTn: GF faults; saturates -/
abbrev F.PROT_GF_CNT_faults (n : Nat) : Fld := ⟨0xC0100 + 4 * n, 0, 16⟩
/-- [31:16] RC, reset 0x0000, immediately (R282). PROT_GF_CNTn: of which detected at the end of blanking -/
abbrev F.PROT_GF_CNT_at_blank_end (n : Nat) : Fld := ⟨0xC0100 + 4 * n, 16, 16⟩
/-- PROT_SD_OC0 (R281 09_protection.md). -/
abbrev R.PROT_SD_OC0 : Nat := 0xC0180
/-- [31:0] RO, reset 0x0000_0000, immediately (R282). PROT_SD_OC0: fast_act of channels 0–31; PROT_SD_OC1 [7:0]: channels 32–39 -/
abbrev F.PROT_SD_OC0_act : Fld := ⟨0xC0180, 0, 32⟩
/-- PROT_SD_OC1 (R281 09_protection.md). -/
abbrev R.PROT_SD_OC1 : Nat := 0xC0184
/-- [7:0] RO, reset 0x0000_0000, immediately (R282). PROT_SD_OC0: fast_act of channels 0–31; PROT_SD_OC1 [7:0]: channels 32–39 -/
abbrev F.PROT_SD_OC1_act : Fld := ⟨0xC0184, 0, 8⟩
/-- PROT_TRIP_CNT (R281 09_protection.md). -/
abbrev R.PROT_TRIP_CNT : Nat := 0xC0188
/-- [31:0] RC, reset 0x0000_0000, immediately (R282). PROT_TRIP_CNT: trips; saturates -/
abbrev F.PROT_TRIP_CNT_count : Fld := ⟨0xC0188, 0, 32⟩
/-- PROT_HIST_IDX (R281 09_protection.md). -/
abbrev R.PROT_HIST_IDX : Nat := 0xC018C
/-- [3:0] RO, reset 0, immediately (R282). PROT_HIST_IDX: entry written next -/
abbrev F.PROT_HIST_IDX_next : Fld := ⟨0xC018C, 0, 4⟩
/-- [31:16] RO, reset 0x0000, immediately (R282). PROT_HIST_IDX: demands applied; wraps -/
abbrev F.PROT_HIST_IDX_total : Fld := ⟨0xC018C, 16, 16⟩
/-- PROT_CV_CTL (R281 09_protection.md). -/
abbrev R.PROT_CV_CTL (n : Nat) : Nat := 0xC0200 + 0x40 * n
/-- [0:0] RW, KG, SG, reset 0, immediately (R282). PROT_CVk_CTL: R252; a write of 1 makes the checks in error -/
abbrev F.PROT_CV_CTL_en (n : Nat) : Fld := ⟨0xC0200 + 0x40 * n, 0, 1⟩
/-- [31:16] RW, KG, SG, reset 0x7FFF, at next enable (R282). PROT_CVk_CTL: Q3.13 (R269) -/
abbrev F.PROT_CV_CTL_uv_arm (n : Nat) : Fld := ⟨0xC0200 + 0x40 * n, 16, 16⟩
/-- PROT_CV_STS (R281 09_protection.md). -/
abbrev R.PROT_CV_STS (n : Nat) : Nat := 0xC0204 + 0x40 * n
/-- [2:0] RO, reset 1, immediately (R282). PROT_CVk_STS: R251 -/
abbrev F.PROT_CV_STS_state (n : Nat) : Fld := ⟨0xC0204 + 0x40 * n, 0, 3⟩
/-- [7:4] RO, reset 10, immediately (R282). PROT_CVk_STS: 0 none, 1–10 -/
abbrev F.PROT_CV_STS_class (n : Nat) : Fld := ⟨0xC0204 + 0x40 * n, 4, 4⟩
/-- [8:8] RO, reset 0, immediately (R282). PROT_CVk_STS: en accepted -/
abbrev F.PROT_CV_STS_enabled (n : Nat) : Fld := ⟨0xC0204 + 0x40 * n, 8, 1⟩
/-- [9:9] RO, reset 0, immediately (R282). PROT_CVk_STS: R253 -/
abbrev F.PROT_CV_STS_asc_ok (n : Nat) : Fld := ⟨0xC0204 + 0x40 * n, 9, 1⟩
/-- [10:10] RO, reset 0, immediately (R282). PROT_CVk_STS: R270 -/
abbrev F.PROT_CV_STS_ov2_asc (n : Nat) : Fld := ⟨0xC0204 + 0x40 * n, 10, 1⟩
/-- [11:11] RO, reset 0, immediately (R282). PROT_CVk_STS: R261; cleared by release -/
abbrev F.PROT_CV_STS_no_asc (n : Nat) : Fld := ⟨0xC0204 + 0x40 * n, 11, 1⟩
/-- [12:12] RO, reset 0, immediately (R282). PROT_CVk_STS: R269 -/
abbrev F.PROT_CV_STS_uv_armed (n : Nat) : Fld := ⟨0xC0204 + 0x40 * n, 12, 1⟩
/-- [13:13] RO, reset 0, immediately (R282). PROT_CVk_STS: vdc above ov1 at the last couch -/
abbrev F.PROT_CV_STS_ov1 (n : Nat) : Fld := ⟨0xC0204 + 0x40 * n, 13, 1⟩
/-- [14:14] W1C, reset 0, immediately (R282). PROT_CVk_STS: R269 -/
abbrev F.PROT_CV_STS_vdc_lost (n : Nat) : Fld := ⟨0xC0204 + 0x40 * n, 14, 1⟩
/-- [15:15] W1C, reset 0, immediately (R282). PROT_CVk_STS: R261 -/
abbrev F.PROT_CV_STS_derated (n : Nat) : Fld := ⟨0xC0204 + 0x40 * n, 15, 1⟩
/-- [16:16] W1C, reset 0, immediately (R282). PROT_CVk_STS: R258 -/
abbrev F.PROT_CV_STS_release_rejected (n : Nat) : Fld := ⟨0xC0204 + 0x40 * n, 16, 1⟩
/-- [17:17] W1C, reset 0, immediately (R282). PROT_CVk_STS: R254 -/
abbrev F.PROT_CV_STS_ramp_timeout (n : Nat) : Fld := ⟨0xC0204 + 0x40 * n, 17, 1⟩
/-- [23:20] RO, reset 0, immediately (R282). PROT_CVk_STS: enable refused: 1 ABSENT (R3), 2 DRIVE (drive absent), 3 LEVELS (not uv < uv_arm ≤ ov1 < ov1_top), 4 CHANNEL (ov2_en with sd_ch above 39, not enabled, not GENERAL or fast_en 0) -/
abbrev F.PROT_CV_STS_error (n : Nat) : Fld := ⟨0xC0204 + 0x40 * n, 20, 4⟩
/-- [31:24] RO, reset 0x40, immediately (R282). PROT_CVk_STS: bits 0–6 for classes 1, 2, 3, 4, 5, 7, 10 (R258); bit 7 diagnosis running -/
abbrev F.PROT_CV_STS_persist (n : Nat) : Fld := ⟨0xC0204 + 0x40 * n, 24, 8⟩
/-- PROT_CV_POL (R281 09_protection.md). -/
abbrev R.PROT_CV_POL (n : Nat) : Nat := 0xC0208 + 0x40 * n
/-- [1:0] RW, KG, SG, reset 2, immediately (R282). PROT_CVk_POL: R261; 3 acts as 2 -/
abbrev F.PROT_CV_POL_sc_pol (n : Nat) : Fld := ⟨0xC0208 + 0x40 * n, 0, 2⟩
/-- [6:4] RW, KG, SG, reset 1, immediately (R282). PROT_CVk_POL: states 1–3 -/
abbrev F.PROT_CV_POL_sc_state (n : Nat) : Fld := ⟨0xC0208 + 0x40 * n, 4, 3⟩
/-- [10:8] RW, KG, SG, reset 1, immediately (R282). PROT_CVk_POL: states 1–3; others act as 1 -/
abbrev F.PROT_CV_POL_oc_state (n : Nat) : Fld := ⟨0xC0208 + 0x40 * n, 8, 3⟩
/-- [14:12] RW, KG, SG, reset 1, immediately (R282). PROT_CVk_POL: states 1–3; others act as 1 -/
abbrev F.PROT_CV_POL_arm_state (n : Nat) : Fld := ⟨0xC0208 + 0x40 * n, 12, 3⟩
/-- [18:16] RW, KG, SG, reset 1, immediately (R282). PROT_CVk_POL: states 1–3; others act as 1 -/
abbrev F.PROT_CV_POL_uv_state (n : Nat) : Fld := ⟨0xC0208 + 0x40 * n, 16, 3⟩
/-- [22:20] RW, KG, SG, reset 1, immediately (R282). PROT_CVk_POL: states 1–4; others act as 1 -/
abbrev F.PROT_CV_POL_sw_state (n : Nat) : Fld := ⟨0xC0208 + 0x40 * n, 20, 3⟩
/-- [26:24] RW, KG, SG, reset 0, immediately (R282). PROT_CVk_POL: codes of R161 -/
abbrev F.PROT_CV_POL_deckle_act (n : Nat) : Fld := ⟨0xC0208 + 0x40 * n, 24, 3⟩
/-- PROT_CV_POL2 (R281 09_protection.md). -/
abbrev R.PROT_CV_POL2 (n : Nat) : Nat := 0xC020C + 0x40 * n
/-- [15:0] RW, KG, SG, reset 0x7FFF, immediately (R282). PROT_CVk_POL2: Q1.15 (R261) -/
abbrev F.PROT_CV_POL2_derate (n : Nat) : Fld := ⟨0xC020C + 0x40 * n, 0, 16⟩
/-- [23:16] RW, KG, SG, reset 0x00, immediately (R282). PROT_CVk_POL2: 100 ms counts; 0 no limit -/
abbrev F.PROT_CV_POL2_ramp_max (n : Nat) : Fld := ⟨0xC020C + 0x40 * n, 16, 8⟩
/-- PROT_CV_DC (R281 09_protection.md). -/
abbrev R.PROT_CV_DC (n : Nat) : Nat := 0xC0210 + 0x40 * n
/-- [5:0] RW, KG, SG, reset 0, at next enable (R282). PROT_CVk_DC: DC-link channel (R270) -/
abbrev F.PROT_CV_DC_sd_ch (n : Nat) : Fld := ⟨0xC0210 + 0x40 * n, 0, 6⟩
/-- [8:8] RW, KG, SG, reset 0, at next enable (R282). PROT_CVk_DC: OV2 detection enabled -/
abbrev F.PROT_CV_DC_ov2_en (n : Nat) : Fld := ⟨0xC0210 + 0x40 * n, 8, 1⟩
/-- [14:12] RW, KG, SG, reset 0, at next enable (R282). PROT_CVk_DC: drive whose vdc is used -/
abbrev F.PROT_CV_DC_drive (n : Nat) : Fld := ⟨0xC0210 + 0x40 * n, 12, 3⟩
/-- [31:16] RW, KG, SG, reset 0x0000, immediately (R282). PROT_CVk_DC: Q3.13 -/
abbrev F.PROT_CV_DC_uv (n : Nat) : Fld := ⟨0xC0210 + 0x40 * n, 16, 16⟩
/-- PROT_CV_LVL (R281 09_protection.md). -/
abbrev R.PROT_CV_LVL (n : Nat) : Nat := 0xC0214 + 0x40 * n
/-- [15:0] RW, KG, SG, reset 0x7FFE, immediately (R282). PROT_CVk_LVL: Q3.13 -/
abbrev F.PROT_CV_LVL_ov1 (n : Nat) : Fld := ⟨0xC0214 + 0x40 * n, 0, 16⟩
/-- [31:16] RW, KG, SG, reset 0x7FFF, immediately (R282). PROT_CVk_LVL: Q3.13 -/
abbrev F.PROT_CV_LVL_ov1_top (n : Nat) : Fld := ⟨0xC0214 + 0x40 * n, 16, 16⟩
/-- PROT_CV_GOV (R281 09_protection.md). -/
abbrev R.PROT_CV_GOV (n : Nat) : Nat := 0xC0218 + 0x40 * n
/-- [15:0] RO, reset 0x7FFF, immediately (R282). PROT_CVk_GOV: k_ov, Q1.15 -/
abbrev F.PROT_CV_GOV_kov (n : Nat) : Fld := ⟨0xC0218 + 0x40 * n, 0, 16⟩
/-- [31:16] RO, reset 0x0000, immediately (R282). PROT_CVk_GOV: vdc at the last couch, Q3.13; 0x8000 when invalid -/
abbrev F.PROT_CV_GOV_vdc (n : Nat) : Fld := ⟨0xC0218 + 0x40 * n, 16, 16⟩
/-- PROT_CV_CMD (R281 09_protection.md). -/
abbrev R.PROT_CV_CMD (n : Nat) : Nat := 0xC021C + 0x40 * n
/-- [0:0] WO, KG, reset 0, immediately (R282). PROT_CVk_CMD: R258 -/
abbrev F.PROT_CV_CMD_release (n : Nat) : Fld := ⟨0xC021C + 0x40 * n, 0, 1⟩
/-- [3:1] WO, KG, reset 0, immediately (R282). PROT_CVk_CMD: R257 -/
abbrev F.PROT_CV_CMD_req (n : Nat) : Fld := ⟨0xC021C + 0x40 * n, 1, 3⟩
/-- PROT_CV_CNT (R281 09_protection.md). -/
abbrev R.PROT_CV_CNT (n : Nat) : Nat := 0xC0220 + 0x40 * n
/-- [15:0] RC, reset 0x0000, immediately (R282). PROT_CVk_CNT: safe-state entries; saturates -/
abbrev F.PROT_CV_CNT_entries (n : Nat) : Fld := ⟨0xC0220 + 0x40 * n, 0, 16⟩
/-- [31:16] RC, reset 0x0000, immediately (R282). PROT_CVk_CNT: demands that changed no state; saturates -/
abbrev F.PROT_CV_CNT_logged (n : Nat) : Fld := ⟨0xC0220 + 0x40 * n, 16, 16⟩
/-- PROT_HIST (R281 09_protection.md). -/
abbrev R.PROT_HIST (n : Nat) : Nat := 0xC0400 + 4 * n
/-- [3:0] RO, reset 0, immediately (R282). PROT_HISTm: class of the demand -/
abbrev F.PROT_HIST_class (n : Nat) : Fld := ⟨0xC0400 + 4 * n, 0, 4⟩
/-- [6:4] RO, reset 0, immediately (R282). PROT_HISTm: state demanded -/
abbrev F.PROT_HIST_state (n : Nat) : Fld := ⟨0xC0400 + 4 * n, 4, 3⟩
/-- [7:7] RO, reset 0, immediately (R282). PROT_HISTm: the demand changed the state (R256) -/
abbrev F.PROT_HIST_changed (n : Nat) : Fld := ⟨0xC0400 + 4 * n, 7, 1⟩
/-- [10:8] RO, reset 0, immediately (R282). PROT_HISTm: converter -/
abbrev F.PROT_HIST_conv (n : Nat) : Fld := ⟨0xC0400 + 4 * n, 8, 3⟩
/-- [21:16] RO, reset 0, immediately (R282). PROT_HISTm: event source -/
abbrev F.PROT_HIST_source (n : Nat) : Fld := ⟨0xC0400 + 4 * n, 16, 6⟩
/-- [31:24] RO, reset 0x00, immediately (R282). PROT_HISTm: TIME_TICK_COUNT[7:0] -/
abbrev F.PROT_HIST_tick (n : Nat) : Fld := ⟨0xC0400 + 4 * n, 24, 8⟩

/-! ### Block 0x000D_0000 -/

/-- FBK_CTL (R302 10_feedback.md). -/
abbrev R.FBK_CTL (n : Nat) : Nat := 0xD0000 + 0x80 * n
/-- [0:0] RW, MW, KG, reset 0, immediately (R303). FBK_CTL: R284 -/
abbrev F.FBK_CTL_en (n : Nat) : Fld := ⟨0xD0000 + 0x80 * n, 0, 1⟩
/-- FBK_CFG (R302 10_feedback.md). -/
abbrev R.FBK_CFG (n : Nat) : Nat := 0xD0004 + 0x80 * n
/-- [1:0] RW, MW, KG, reset 0, at next enable (R303). FBK_CFG: R283 -/
abbrev F.FBK_CFG_mode (n : Nat) : Fld := ⟨0xD0004 + 0x80 * n, 0, 2⟩
/-- [2:2] RW, MW, KG, reset 0, at next enable (R303). FBK_CFG: invert counting (R285, R286) -/
abbrev F.FBK_CFG_dir (n : Nat) : Fld := ⟨0xD0004 + 0x80 * n, 2, 1⟩
/-- [7:4] RW, MW, reset 0x2, at next enable (R303). FBK_CFG: filter, samples − 1 -/
abbrev F.FBK_CFG_filt (n : Nat) : Fld := ⟨0xD0004 + 0x80 * n, 4, 4⟩
/-- [8:8] RW, MW, reset 0, at next enable (R303). FBK_CFG: 0 index on rising edge -/
abbrev F.FBK_CFG_z_pol (n : Nat) : Fld := ⟨0xD0004 + 0x80 * n, 8, 1⟩
/-- [9:9] RW, MW, reset 0, at next enable (R303). FBK_CFG: R293 -/
abbrev F.FBK_CFG_z_gate (n : Nat) : Fld := ⟨0xD0004 + 0x80 * n, 9, 1⟩
/-- [15:12] RW, MW, reset 0x3, at next enable (R303). FBK_CFG: 10 Hz × 2^bw; legal 0–9 -/
abbrev F.FBK_CFG_bw (n : Nat) : Fld := ⟨0xD0004 + 0x80 * n, 12, 4⟩
/-- [19:16] RW, MW, reset 0x8, at next enable (R303). FBK_CFG: interpolation bits; legal 2–12 -/
abbrev F.FBK_CFG_ib (n : Nat) : Fld := ⟨0xD0004 + 0x80 * n, 16, 4⟩
/-- [24:24] RW, MW, KG, reset 0, immediately (R303). FBK_CFG: soft limits (R291) -/
abbrev F.FBK_CFG_lim_en (n : Nat) : Fld := ⟨0xD0004 + 0x80 * n, 24, 1⟩
/-- FBK_STS (R302 10_feedback.md). -/
abbrev R.FBK_STS (n : Nat) : Nat := 0xD0008 + 0x80 * n
/-- [0:0] RO, reset 0, immediately (R303). FBK_STS: port enabled -/
abbrev F.FBK_STS_enabled (n : Nat) : Fld := ⟨0xD0008 + 0x80 * n, 0, 1⟩
/-- [1:1] RO, reset 0, immediately (R303). FBK_STS: R295 -/
abbrev F.FBK_STS_valid (n : Nat) : Fld := ⟨0xD0008 + 0x80 * n, 1, 1⟩
/-- [2:2] RO, reset 0, immediately (R303). FBK_STS: R293 -/
abbrev F.FBK_STS_referenced (n : Nat) : Fld := ⟨0xD0008 + 0x80 * n, 2, 1⟩
/-- [3:3] RO, reset 0, immediately (R303). FBK_STS: R292 -/
abbrev F.FBK_STS_sat_hi (n : Nat) : Fld := ⟨0xD0008 + 0x80 * n, 3, 1⟩
/-- [4:4] RO, reset 0, immediately (R303). FBK_STS: R292 -/
abbrev F.FBK_STS_sat_lo (n : Nat) : Fld := ⟨0xD0008 + 0x80 * n, 4, 1⟩
/-- [5:5] RO, reset 0, immediately (R303). FBK_STS: R295 -/
abbrev F.FBK_STS_fault (n : Nat) : Fld := ⟨0xD0008 + 0x80 * n, 5, 1⟩
/-- [10:8] RO, reset 0, immediately (R303). FBK_STS: code of R284; 0 = none -/
abbrev F.FBK_STS_error (n : Nat) : Fld := ⟨0xD0008 + 0x80 * n, 8, 3⟩
/-- [14:12] RO, reset 0, immediately (R303). FBK_STS: R295; 0 = none -/
abbrev F.FBK_STS_fault_src (n : Nat) : Fld := ⟨0xD0008 + 0x80 * n, 12, 3⟩
/-- FBK_FLAGS (R302 10_feedback.md). -/
abbrev R.FBK_FLAGS (n : Nat) : Nat := 0xD000C + 0x80 * n
/-- [7:0] W1C, reset 0, immediately (R303). FBK_FLAGS: bit 0 quad_err, 1 idx_err, 2 amp_err, 3 ssi_err, 4 sat_seen, 5 clr_rejected, 6 cmp_done, 7 ssi_late -/
abbrev F.FBK_FLAGS_flags (n : Nat) : Fld := ⟨0xD000C + 0x80 * n, 0, 8⟩
/-- FBK_RES (R302 10_feedback.md). -/
abbrev R.FBK_RES (n : Nat) : Nat := 0xD0010 + 0x80 * n
/-- [19:0] RW, MW, reset 0x00400, at next enable (R303). FBK_RES: lines per revolution, INCR and SINCOS -/
abbrev F.FBK_RES_lines (n : Nat) : Fld := ⟨0xD0010 + 0x80 * n, 0, 20⟩
/-- FBK_POS (R302 10_feedback.md). -/
abbrev R.FBK_POS (n : Nat) : Nat := 0xD0014 + 0x80 * n
/-- [31:0] RO, reset 0x0000_0000, immediately (R303). FBK_POS: R291 -/
abbrev F.FBK_POS_pos (n : Nat) : Fld := ⟨0xD0014 + 0x80 * n, 0, 32⟩
/-- FBK_ANG (R302 10_feedback.md). -/
abbrev R.FBK_ANG (n : Nat) : Nat := 0xD0018 + 0x80 * n
/-- [31:0] RO, reset 0x0000_0000, immediately (R303). FBK_ANG: observer angle, Q0.32 revolution -/
abbrev F.FBK_ANG_ang (n : Nat) : Fld := ⟨0xD0018 + 0x80 * n, 0, 32⟩
/-- FBK_SPEED (R302 10_feedback.md). -/
abbrev R.FBK_SPEED (n : Nat) : Nat := 0xD001C + 0x80 * n
/-- [31:0] RO, reset 0x0000_0000, immediately (R303). FBK_SPEED: fp32 rev/s -/
abbrev F.FBK_SPEED_speed (n : Nat) : Fld := ⟨0xD001C + 0x80 * n, 0, 32⟩
/-- FBK_ACCEL (R302 10_feedback.md). -/
abbrev R.FBK_ACCEL (n : Nat) : Nat := 0xD0020 + 0x80 * n
/-- [31:0] RO, reset 0x0000_0000, immediately (R303). FBK_ACCEL: fp32 rev/s² -/
abbrev F.FBK_ACCEL_accel (n : Nat) : Fld := ⟨0xD0020 + 0x80 * n, 0, 32⟩
/-- FBK_IDX_POS (R302 10_feedback.md). -/
abbrev R.FBK_IDX_POS (n : Nat) : Nat := 0xD0024 + 0x80 * n
/-- [31:0] RW, KG, reset 0x0000_0000, immediately (R303). FBK_IDX_POS: pos set at the referencing index -/
abbrev F.FBK_IDX_POS_value (n : Nat) : Fld := ⟨0xD0024 + 0x80 * n, 0, 32⟩
/-- FBK_IDX (R302 10_feedback.md). -/
abbrev R.FBK_IDX (n : Nat) : Nat := 0xD0028 + 0x80 * n
/-- [3:0] RW, MW, reset 0, immediately (R303). FBK_IDX: k, 0–15 -/
abbrev F.FBK_IDX_tol (n : Nat) : Fld := ⟨0xD0028 + 0x80 * n, 0, 4⟩
/-- [5:4] RW, MW, KG, reset 0, immediately (R303). FBK_IDX: 0 FLAG, 1 CORRECT, 2 FAULT; 3 acts as 2 -/
abbrev F.FBK_IDX_idx_mode (n : Nat) : Fld := ⟨0xD0028 + 0x80 * n, 4, 2⟩
/-- [6:6] RW, MW, reset 0, immediately (R303). FBK_IDX: R293 -/
abbrev F.FBK_IDX_set_pos (n : Nat) : Fld := ⟨0xD0028 + 0x80 * n, 6, 1⟩
/-- [7:7] RW, MW, reset 0, at next enable (R303). FBK_IDX: index handling enabled -/
abbrev F.FBK_IDX_idx_en (n : Nat) : Fld := ⟨0xD0028 + 0x80 * n, 7, 1⟩
/-- FBK_IDX_STS (R302 10_feedback.md). -/
abbrev R.FBK_IDX_STS (n : Nat) : Nat := 0xD002C + 0x80 * n
/-- [15:0] RO, reset 0x0000, immediately (R303). FBK_IDX_STS: last d, saturating -/
abbrev F.FBK_IDX_STS_dev (n : Nat) : Fld := ⟨0xD002C + 0x80 * n, 0, 16⟩
/-- [31:16] RO, reset 0x0000, immediately (R303). FBK_IDX_STS: indices seen; wraps -/
abbrev F.FBK_IDX_STS_count (n : Nat) : Fld := ⟨0xD002C + 0x80 * n, 16, 16⟩
/-- FBK_LIM_LO (R302 10_feedback.md). -/
abbrev R.FBK_LIM_LO (n : Nat) : Nat := 0xD0030 + 0x80 * n
/-- [31:0] RW, KG, reset 0x8000_0000, immediately (R303). FBK_LIM_LO: lower soft limit -/
abbrev F.FBK_LIM_LO_lo (n : Nat) : Fld := ⟨0xD0030 + 0x80 * n, 0, 32⟩
/-- FBK_LIM_HI (R302 10_feedback.md). -/
abbrev R.FBK_LIM_HI (n : Nat) : Nat := 0xD0034 + 0x80 * n
/-- [31:0] RW, KG, reset 0x7FFF_FFFF, immediately (R303). FBK_LIM_HI: upper soft limit -/
abbrev F.FBK_LIM_HI_hi (n : Nat) : Fld := ⟨0xD0034 + 0x80 * n, 0, 32⟩
/-- FBK_SC_OFS (R302 10_feedback.md). -/
abbrev R.FBK_SC_OFS (n : Nat) : Nat := 0xD0038 + 0x80 * n
/-- [15:0] RW, MW, reset 0x0000, immediately (R303). FBK_SC_OFS: Q1.15 -/
abbrev F.FBK_SC_OFS_ofs_sin (n : Nat) : Fld := ⟨0xD0038 + 0x80 * n, 0, 16⟩
/-- [31:16] RW, MW, reset 0x0000, immediately (R303). FBK_SC_OFS: Q1.15 -/
abbrev F.FBK_SC_OFS_ofs_cos (n : Nat) : Fld := ⟨0xD0038 + 0x80 * n, 16, 16⟩
/-- FBK_SC_AMP (R302 10_feedback.md). -/
abbrev R.FBK_SC_AMP (n : Nat) : Nat := 0xD003C + 0x80 * n
/-- [7:0] RW, MW, reset 0x04, immediately (R303). FBK_SC_AMP: R287 -/
abbrev F.FBK_SC_AMP_amp_n (n : Nat) : Fld := ⟨0xD003C + 0x80 * n, 0, 8⟩
/-- [15:8] RW, MW, reset 0x40, immediately (R303). FBK_SC_AMP: 1/128 units -/
abbrev F.FBK_SC_AMP_amp_lo (n : Nat) : Fld := ⟨0xD003C + 0x80 * n, 8, 8⟩
/-- [23:16] RW, MW, reset 0xC0, immediately (R303). FBK_SC_AMP: 1/128 units -/
abbrev F.FBK_SC_AMP_amp_hi (n : Nat) : Fld := ⟨0xD003C + 0x80 * n, 16, 8⟩
/-- FBK_SSI (R302 10_feedback.md). -/
abbrev R.FBK_SSI (n : Nat) : Nat := 0xD0040 + 0x80 * n
/-- [11:0] RW, MW, reset 0x07D, at next enable (R303). FBK_SSI: t_clk in 4 ns counts; legal 25–2,500 -/
abbrev F.FBK_SSI_div (n : Nat) : Fld := ⟨0xD0040 + 0x80 * n, 0, 12⟩
/-- [19:12] RW, MW, reset 0x00, at next enable (R303). FBK_SSI: data delay, 4 ns counts -/
abbrev F.FBK_SSI_dly (n : Nat) : Fld := ⟨0xD0040 + 0x80 * n, 12, 8⟩
/-- [23:20] RW, MW, reset 0, at next enable (R303). FBK_SSI: M, value − 1 -/
abbrev F.FBK_SSI_every_m1 (n : Nat) : Fld := ⟨0xD0040 + 0x80 * n, 20, 4⟩
/-- [31:24] RW, MW, reset 0x14, at next enable (R303). FBK_SSI: recovery in µs -/
abbrev F.FBK_SSI_rec (n : Nat) : Fld := ⟨0xD0040 + 0x80 * n, 24, 8⟩
/-- FBK_SSI_FMT (R302 10_feedback.md). -/
abbrev R.FBK_SSI_FMT (n : Nat) : Nat := 0xD0044 + 0x80 * n
/-- [5:0] RW, MW, reset 0x19, at next enable (R303). FBK_SSI_FMT: data bits, 1–40 -/
abbrev F.FBK_SSI_FMT_len (n : Nat) : Fld := ⟨0xD0044 + 0x80 * n, 0, 6⟩
/-- [10:6] RW, MW, reset 0x0D, at next enable (R303). FBK_SSI_FMT: single-turn bits -/
abbrev F.FBK_SSI_FMT_st (n : Nat) : Fld := ⟨0xD0044 + 0x80 * n, 6, 5⟩
/-- [15:11] RW, MW, reset 0x0C, at next enable (R303). FBK_SSI_FMT: multiturn bits -/
abbrev F.FBK_SSI_FMT_mt (n : Nat) : Fld := ⟨0xD0044 + 0x80 * n, 11, 5⟩
/-- [16:16] RW, MW, reset 0, at next enable (R303). FBK_SSI_FMT: Gray code -/
abbrev F.FBK_SSI_FMT_gray (n : Nat) : Fld := ⟨0xD0044 + 0x80 * n, 16, 1⟩
/-- [22:17] RW, MW, reset 0, at next enable (R303). FBK_SSI_FMT: error bit index -/
abbrev F.FBK_SSI_FMT_err_bit (n : Nat) : Fld := ⟨0xD0044 + 0x80 * n, 17, 6⟩
/-- [23:23] RW, MW, reset 0, at next enable (R303). FBK_SSI_FMT: error bit present -/
abbrev F.FBK_SSI_FMT_err_en (n : Nat) : Fld := ⟨0xD0044 + 0x80 * n, 23, 1⟩
/-- [24:24] RW, MW, reset 0, at next enable (R303). FBK_SSI_FMT: 1 error when high -/
abbrev F.FBK_SSI_FMT_err_pol (n : Nat) : Fld := ⟨0xD0044 + 0x80 * n, 24, 1⟩
/-- FBK_SSI_RAW (R302 10_feedback.md). -/
abbrev R.FBK_SSI_RAW (n : Nat) : Nat := 0xD0048 + 0x80 * n
/-- [31:0] RO, reset 0x0000_0000, immediately (R303). FBK_SSI_RAW: position bits of the last frame -/
abbrev F.FBK_SSI_RAW_raw (n : Nat) : Fld := ⟨0xD0048 + 0x80 * n, 0, 32⟩
/-- FBK_CMP_START (R302 10_feedback.md). -/
abbrev R.FBK_CMP_START (n : Nat) : Nat := 0xD004C + 0x80 * n
/-- [31:0] RW, reset 0x0000_0000, immediately (R303). FBK_CMP_START: first compare value -/
abbrev F.FBK_CMP_START_start (n : Nat) : Fld := ⟨0xD004C + 0x80 * n, 0, 32⟩
/-- FBK_CMP_PITCH (R302 10_feedback.md). -/
abbrev R.FBK_CMP_PITCH (n : Nat) : Nat := 0xD0050 + 0x80 * n
/-- [31:0] RW, reset 0x0000_0000, immediately (R303). FBK_CMP_PITCH: signed; 0 refuses arming -/
abbrev F.FBK_CMP_PITCH_pitch (n : Nat) : Fld := ⟨0xD0050 + 0x80 * n, 0, 32⟩
/-- FBK_CMP_CFG (R302 10_feedback.md). -/
abbrev R.FBK_CMP_CFG (n : Nat) : Nat := 0xD0054 + 0x80 * n
/-- [15:0] RW, reset 0x0000, immediately (R303). FBK_CMP_CFG: R298; 0 disarms -/
abbrev F.FBK_CMP_CFG_count (n : Nat) : Fld := ⟨0xD0054 + 0x80 * n, 0, 16⟩
/-- [19:16] RW, reset 0, immediately (R303). FBK_CMP_CFG: GPIO0–GPIO15 -/
abbrev F.FBK_CMP_CFG_gpio (n : Nat) : Fld := ⟨0xD0054 + 0x80 * n, 16, 4⟩
/-- [31:24] RW, reset 0x00, immediately (R303). FBK_CMP_CFG: 40 ns counts; 0 no pulse -/
abbrev F.FBK_CMP_CFG_width (n : Nat) : Fld := ⟨0xD0054 + 0x80 * n, 24, 8⟩
/-- FBK_CMP_STS (R302 10_feedback.md). -/
abbrev R.FBK_CMP_STS (n : Nat) : Nat := 0xD0058 + 0x80 * n
/-- [15:0] RO, reset 0x0000, immediately (R303). FBK_CMP_STS: hits remaining -/
abbrev F.FBK_CMP_STS_remaining (n : Nat) : Fld := ⟨0xD0058 + 0x80 * n, 0, 16⟩
/-- [16:16] RO, reset 0, immediately (R303). FBK_CMP_STS: compare armed -/
abbrev F.FBK_CMP_STS_armed (n : Nat) : Fld := ⟨0xD0058 + 0x80 * n, 16, 1⟩
/-- [31:24] RC, reset 0x00, immediately (R303). FBK_CMP_STS: R299; saturates -/
abbrev F.FBK_CMP_STS_merged (n : Nat) : Fld := ⟨0xD0058 + 0x80 * n, 24, 8⟩
/-- FBK_CNT (R302 10_feedback.md). -/
abbrev R.FBK_CNT (n : Nat) : Nat := 0xD005C + 0x80 * n
/-- [15:0] RC, reset 0x0000, immediately (R303). FBK_CNT: illegal transitions; saturates -/
abbrev F.FBK_CNT_illegal (n : Nat) : Fld := ⟨0xD005C + 0x80 * n, 0, 16⟩
/-- [31:16] RC, reset 0x0000, immediately (R303). FBK_CNT: bad frames; saturates -/
abbrev F.FBK_CNT_ssi_bad (n : Nat) : Fld := ⟨0xD005C + 0x80 * n, 16, 16⟩
/-- FBK_EE_CFG (R302 10_feedback.md). -/
abbrev R.FBK_EE_CFG (n : Nat) : Nat := 0xD0060 + 0x80 * n
/-- [0:0] RW, KG, reset 0, immediately (R303). FBK_EE_CFG: ports 0 and 1 only (R300) -/
abbrev F.FBK_EE_CFG_en (n : Nat) : Fld := ⟨0xD0060 + 0x80 * n, 0, 1⟩
/-- [3:1] RW, reset 0, at next enable (R303). FBK_EE_CFG: source port -/
abbrev F.FBK_EE_CFG_src (n : Nat) : Fld := ⟨0xD0060 + 0x80 * n, 1, 3⟩
/-- [4:4] RW, reset 0, at next enable (R303). FBK_EE_CFG: reverse direction -/
abbrev F.FBK_EE_CFG_inv (n : Nat) : Fld := ⟨0xD0060 + 0x80 * n, 4, 1⟩
/-- [31:16] RW, reset 0x03FF, at next enable (R303). FBK_EE_CFG: L, value − 1 -/
abbrev F.FBK_EE_CFG_lines_m1 (n : Nat) : Fld := ⟨0xD0060 + 0x80 * n, 16, 16⟩
/-- FBK_EE_GAP (R302 10_feedback.md). -/
abbrev R.FBK_EE_GAP (n : Nat) : Nat := 0xD0064 + 0x80 * n
/-- [15:0] RW, reset 0x0019, at next enable (R303). FBK_EE_GAP: 4 ns counts; legal 25–65,535 -/
abbrev F.FBK_EE_GAP_gap (n : Nat) : Fld := ⟨0xD0064 + 0x80 * n, 0, 16⟩
/-- FBK_EE_STS (R302 10_feedback.md). -/
abbrev R.FBK_EE_STS (n : Nat) : Nat := 0xD0068 + 0x80 * n
/-- [15:0] RO, reset 0x0000, immediately (R303). FBK_EE_STS: R301 -/
abbrev F.FBK_EE_STS_backlog (n : Nat) : Fld := ⟨0xD0068 + 0x80 * n, 0, 16⟩
/-- [16:16] W1C, reset 0, immediately (R303). FBK_EE_STS: EV33 raised -/
abbrev F.FBK_EE_STS_ovr_seen (n : Nat) : Fld := ⟨0xD0068 + 0x80 * n, 16, 1⟩
/-- [17:17] W1C, reset 0, immediately (R303). FBK_EE_STS: counts lost -/
abbrev F.FBK_EE_STS_lost (n : Nat) : Fld := ⟨0xD0068 + 0x80 * n, 17, 1⟩
/-- [18:18] RO, reset 0, immediately (R303). FBK_EE_STS: source invalid -/
abbrev F.FBK_EE_STS_hold (n : Nat) : Fld := ⟨0xD0068 + 0x80 * n, 18, 1⟩
/-- FBK_CMD (R302 10_feedback.md). -/
abbrev R.FBK_CMD (n : Nat) : Nat := 0xD006C + 0x80 * n
/-- [0:0] WO, KG, reset 0, immediately (R303). FBK_CMD: R295 -/
abbrev F.FBK_CMD_clear (n : Nat) : Fld := ⟨0xD006C + 0x80 * n, 0, 1⟩
/-- [1:1] WO, reset 0, immediately (R303). FBK_CMD: clears referenced -/
abbrev F.FBK_CMD_ref_clear (n : Nat) : Fld := ⟨0xD006C + 0x80 * n, 1, 1⟩
/-- FBK_SSI_LEAD (R302 10_feedback.md). -/
abbrev R.FBK_SSI_LEAD (n : Nat) : Nat := 0xD0070 + 0x80 * n
/-- [15:0] RW, MW, reset 0x0000, at next enable (R303). FBK_SSI_LEAD: 4 ns counts (R288) -/
abbrev F.FBK_SSI_LEAD_lead (n : Nat) : Fld := ⟨0xD0070 + 0x80 * n, 0, 16⟩
/-- FBK_IDX_REF (R302 10_feedback.md). -/
abbrev R.FBK_IDX_REF (n : Nat) : Nat := 0xD0074 + 0x80 * n
/-- [31:0] RO, reset 0x0000_0000, immediately (R303). FBK_IDX_REF: r -/
abbrev F.FBK_IDX_REF_ref (n : Nat) : Fld := ⟨0xD0074 + 0x80 * n, 0, 32⟩
/-- FBK_CMP_CUR (R302 10_feedback.md). -/
abbrev R.FBK_CMP_CUR (n : Nat) : Nat := 0xD0078 + 0x80 * n
/-- [31:0] RO, reset 0x0000_0000, immediately (R303). FBK_CMP_CUR: present compare value -/
abbrev F.FBK_CMP_CUR_value (n : Nat) : Fld := ⟨0xD0078 + 0x80 * n, 0, 32⟩
/-- FBK_CPR (R302 10_feedback.md). -/
abbrev R.FBK_CPR (n : Nat) : Nat := 0xD007C + 0x80 * n
/-- [31:0] RO, reset 0x0000_0000, immediately (R303). FBK_CPR: counts per revolution in force -/
abbrev F.FBK_CPR_cpr (n : Nat) : Fld := ⟨0xD007C + 0x80 * n, 0, 32⟩

/-! ### Block 0x000E_0000 -/

/-- MOT_CTL (R340 11_motion.md). -/
abbrev R.MOT_CTL (n : Nat) : Nat := 0xE0000 + 0x80 * n
/-- [0:0] RW, MW, KG, reset 0, immediately (R341). MOT_CTL: R308, R309 -/
abbrev F.MOT_CTL_en (n : Nat) : Fld := ⟨0xE0000 + 0x80 * n, 0, 1⟩
/-- [2:1] RW, MW, reset 0, at next enable (R341). MOT_CTL: 0 PROFILE, 1 CAM, 2 SHARE -/
abbrev F.MOT_CTL_src (n : Nat) : Fld := ⟨0xE0000 + 0x80 * n, 1, 2⟩
/-- [3:3] RW, MW, reset 0, at next enable (R341). MOT_CTL: R306 -/
abbrev F.MOT_CTL_own_run (n : Nat) : Fld := ⟨0xE0000 + 0x80 * n, 3, 1⟩
/-- [4:4] RW, MW, KG, reset 0, immediately (R341). MOT_CTL: R318 -/
abbrev F.MOT_CTL_vlim_en (n : Nat) : Fld := ⟨0xE0000 + 0x80 * n, 4, 1⟩
/-- [8:8] WO, reset 0, immediately (R341). MOT_CTL: stop request -/
abbrev F.MOT_CTL_stop (n : Nat) : Fld := ⟨0xE0000 + 0x80 * n, 8, 1⟩
/-- [9:9] WO, reset 0, immediately (R341). MOT_CTL: R323 -/
abbrev F.MOT_CTL_home (n : Nat) : Fld := ⟨0xE0000 + 0x80 * n, 9, 1⟩
/-- [10:10] WO, KG, reset 0, immediately (R341). MOT_CTL: R321, R338 -/
abbrev F.MOT_CTL_clear (n : Nat) : Fld := ⟨0xE0000 + 0x80 * n, 10, 1⟩
/-- MOT_STS (R340 11_motion.md). -/
abbrev R.MOT_STS (n : Nat) : Nat := 0xE0004 + 0x80 * n
/-- [2:0] RO, reset 0, immediately (R341). MOT_STS: 0 OFF, 1 WAIT, 2 HOLD, 3 MOVE, 4 STOP, 5 HOME, 6 PARK, 7 RELEASE -/
abbrev F.MOT_STS_state (n : Nat) : Fld := ⟨0xE0004 + 0x80 * n, 0, 3⟩
/-- [5:3] RO, reset 0, immediately (R341). MOT_STS: code of R308; 0 = none -/
abbrev F.MOT_STS_error (n : Nat) : Fld := ⟨0xE0004 + 0x80 * n, 3, 3⟩
/-- [6:6] RO, reset 0, immediately (R341). MOT_STS: R325 -/
abbrev F.MOT_STS_homed (n : Nat) : Fld := ⟨0xE0004 + 0x80 * n, 6, 1⟩
/-- [9:7] RO, reset 0, immediately (R341). MOT_STS: R316 -/
abbrev F.MOT_STS_outcome (n : Nat) : Fld := ⟨0xE0004 + 0x80 * n, 7, 3⟩
/-- [12:10] RO, reset 0, immediately (R341). MOT_STS: 0 none, 1 DONE, 2 LIMIT, 3 DISTANCE, 4 ABORTED -/
abbrev F.MOT_STS_home_res (n : Nat) : Fld := ⟨0xE0004 + 0x80 * n, 10, 3⟩
/-- [19:16] RO, reset 0, immediately (R341). MOT_STS: R317; 0 = none -/
abbrev F.MOT_STS_cause (n : Nat) : Fld := ⟨0xE0004 + 0x80 * n, 16, 4⟩
/-- [20:20] RO, reset 0, immediately (R341). MOT_STS: debounced switches -/
abbrev F.MOT_STS_sw_hi (n : Nat) : Fld := ⟨0xE0004 + 0x80 * n, 20, 1⟩
/-- [21:21] RO, reset 0, immediately (R341). MOT_STS: debounced switches -/
abbrev F.MOT_STS_sw_lo (n : Nat) : Fld := ⟨0xE0004 + 0x80 * n, 21, 1⟩
/-- [22:22] RO, reset 0, immediately (R341). MOT_STS: R319 -/
abbrev F.MOT_STS_beyond (n : Nat) : Fld := ⟨0xE0004 + 0x80 * n, 22, 1⟩
/-- [23:23] RO, reset 0, immediately (R341). MOT_STS: R335 -/
abbrev F.MOT_STS_rendering (n : Nat) : Fld := ⟨0xE0004 + 0x80 * n, 23, 1⟩
/-- [24:24] RO, reset 0, immediately (R341). MOT_STS: R335 -/
abbrev F.MOT_STS_recovering (n : Nat) : Fld := ⟨0xE0004 + 0x80 * n, 24, 1⟩
/-- [25:25] RO, reset 0, immediately (R341). MOT_STS: apply request in force -/
abbrev F.MOT_STS_brake (n : Nat) : Fld := ⟨0xE0004 + 0x80 * n, 25, 1⟩
/-- [26:26] RO, reset 0, immediately (R341). MOT_STS: R321, R322 -/
abbrev F.MOT_STS_hl_latched (n : Nat) : Fld := ⟨0xE0004 + 0x80 * n, 26, 1⟩
/-- MOT_FLAGS (R340 11_motion.md). -/
abbrev R.MOT_FLAGS (n : Nat) : Nat := 0xE0008 + 0x80 * n
/-- [10:0] W1C, reset 0, immediately (R341). MOT_FLAGS: bit 0 stop_rejected, 1 move_refused, 2 cmd_rejected, 3 ferr, 4 hard_lim, 5 chatter, 6 soft_lim, 7 slack, 8 ovl_render, 9 sync_err, 10 cam_refused -/
abbrev F.MOT_FLAGS_flags (n : Nat) : Fld := ⟨0xE0008 + 0x80 * n, 0, 11⟩
/-- MOT_BIND (R340 11_motion.md). -/
abbrev R.MOT_BIND (n : Nat) : Nat := 0xE000C + 0x80 * n
/-- [2:0] RW, KG, reset 0, at next enable (R341). MOT_BIND: FUn -/
abbrev F.MOT_BIND_unit (n : Nat) : Fld := ⟨0xE000C + 0x80 * n, 0, 3⟩
/-- [6:4] RW, KG, reset 0, at next enable (R341). MOT_BIND: FPn -/
abbrev F.MOT_BIND_port (n : Nat) : Fld := ⟨0xE000C + 0x80 * n, 4, 3⟩
/-- [11:8] RW, KG, reset 0, at next enable (R341). MOT_BIND: cam for src CAM -/
abbrev F.MOT_BIND_cam (n : Nat) : Fld := ⟨0xE000C + 0x80 * n, 8, 4⟩
/-- [14:12] RW, KG, reset 0, at next enable (R341). MOT_BIND: leader for src SHARE -/
abbrev F.MOT_BIND_leader (n : Nat) : Fld := ⟨0xE000C + 0x80 * n, 12, 3⟩
/-- MOT_GEAR (R340 11_motion.md). -/
abbrev R.MOT_GEAR (n : Nat) : Nat := 0xE0010 + 0x80 * n
/-- [31:0] RW, reset 0x0000_0000, at next enable (R341). MOT_GEAR: fp32 motor rev per count -/
abbrev F.MOT_GEAR_g (n : Nat) : Fld := ⟨0xE0010 + 0x80 * n, 0, 32⟩
/-- MOT_KP (R340 11_motion.md). -/
abbrev R.MOT_KP (n : Nat) : Nat := 0xE0014 + 0x80 * n
/-- [31:0] RW, reset 0x0000_0000, immediately (R341). MOT_KP: fp32, 1/s -/
abbrev F.MOT_KP_kp (n : Nat) : Fld := ⟨0xE0014 + 0x80 * n, 0, 32⟩
/-- MOT_TGT0 (R340 11_motion.md). -/
abbrev R.MOT_TGT0 (n : Nat) : Nat := 0xE0018 + 0x80 * n
/-- [31:0] RW, CO, reset 0x0000_0000, at couch (R341). MOT_TGT0: target, signed counts -/
abbrev F.MOT_TGT0_pos (n : Nat) : Fld := ⟨0xE0018 + 0x80 * n, 0, 32⟩
/-- MOT_TGT1 (R340 11_motion.md). -/
abbrev R.MOT_TGT1 (n : Nat) : Nat := 0xE001C + 0x80 * n
/-- [31:0] RW, CO, reset 0x0000_0000, at couch (R341). MOT_TGT1–MOT_TGT5: fp32 speed target or recover speed, V, A, D, J -/
abbrev F.MOT_TGT1_value (n : Nat) : Fld := ⟨0xE001C + 0x80 * n, 0, 32⟩
/-- MOT_TGT2 (R340 11_motion.md). -/
abbrev R.MOT_TGT2 (n : Nat) : Nat := 0xE0020 + 0x80 * n
/-- [31:0] RW, CO, reset 0x0000_0000, at couch (R341). MOT_TGT1–MOT_TGT5: fp32 speed target or recover speed, V, A, D, J -/
abbrev F.MOT_TGT2_value (n : Nat) : Fld := ⟨0xE0020 + 0x80 * n, 0, 32⟩
/-- MOT_TGT3 (R340 11_motion.md). -/
abbrev R.MOT_TGT3 (n : Nat) : Nat := 0xE0024 + 0x80 * n
/-- [31:0] RW, CO, reset 0x0000_0000, at couch (R341). MOT_TGT1–MOT_TGT5: fp32 speed target or recover speed, V, A, D, J -/
abbrev F.MOT_TGT3_value (n : Nat) : Fld := ⟨0xE0024 + 0x80 * n, 0, 32⟩
/-- MOT_TGT4 (R340 11_motion.md). -/
abbrev R.MOT_TGT4 (n : Nat) : Nat := 0xE0028 + 0x80 * n
/-- [31:0] RW, CO, reset 0x0000_0000, at couch (R341). MOT_TGT1–MOT_TGT5: fp32 speed target or recover speed, V, A, D, J -/
abbrev F.MOT_TGT4_value (n : Nat) : Fld := ⟨0xE0028 + 0x80 * n, 0, 32⟩
/-- MOT_TGT5 (R340 11_motion.md). -/
abbrev R.MOT_TGT5 (n : Nat) : Nat := 0xE002C + 0x80 * n
/-- [31:0] RW, CO, reset 0x0000_0000, at couch (R341). MOT_TGT1–MOT_TGT5: fp32 speed target or recover speed, V, A, D, J -/
abbrev F.MOT_TGT5_value (n : Nat) : Fld := ⟨0xE002C + 0x80 * n, 0, 32⟩
/-- MOT_TGT6 (R340 11_motion.md). -/
abbrev R.MOT_TGT6 (n : Nat) : Nat := 0xE0030 + 0x80 * n
/-- [15:0] RW, CO, reset 0x0000, at couch (R341). MOT_TGT6: Q1.15 (R335) -/
abbrev F.MOT_TGT6_t_set (n : Nat) : Fld := ⟨0xE0030 + 0x80 * n, 0, 16⟩
/-- MOT_TGT7 (R340 11_motion.md). -/
abbrev R.MOT_TGT7 (n : Nat) : Nat := 0xE0034 + 0x80 * n
/-- [1:0] RW, CO, reset 0, at couch (R341). MOT_TGT7: 0 STOP, 1 POSITION, 2 SPEED, 3 as 0 -/
abbrev F.MOT_TGT7_kind (n : Nat) : Fld := ⟨0xE0034 + 0x80 * n, 0, 2⟩
/-- [2:2] RW, CO, reset 0, at couch (R341). MOT_TGT7: relative target -/
abbrev F.MOT_TGT7_rel (n : Nat) : Fld := ⟨0xE0034 + 0x80 * n, 2, 1⟩
/-- [15:8] RW, CO, reset 0x00, at couch (R341). MOT_TGT7: a change starts a move -/
abbrev F.MOT_TGT7_seq (n : Nat) : Fld := ⟨0xE0034 + 0x80 * n, 8, 8⟩
/-- MOT_STOPD (R340 11_motion.md). -/
abbrev R.MOT_STOPD (n : Nat) : Nat := 0xE0038 + 0x80 * n
/-- [31:0] RW, reset 0x0000_0000, immediately (R341). MOT_STOPD: fp32 counts/s² (R314) -/
abbrev F.MOT_STOPD_ds (n : Nat) : Fld := ⟨0xE0038 + 0x80 * n, 0, 32⟩
/-- MOT_OFS (R340 11_motion.md). -/
abbrev R.MOT_OFS (n : Nat) : Nat := 0xE003C + 0x80 * n
/-- [31:0] RW, KG, reset 0x0000_0000, immediately (R341). MOT_OFS: R304, R325 -/
abbrev F.MOT_OFS_ofs (n : Nat) : Fld := ⟨0xE003C + 0x80 * n, 0, 32⟩
/-- MOT_VLIM_LO (R340 11_motion.md). -/
abbrev R.MOT_VLIM_LO (n : Nat) : Nat := 0xE0040 + 0x80 * n
/-- [31:0] RW, KG, reset 0x8000_0000, immediately (R341). MOT_VLIM_LO -/
abbrev F.MOT_VLIM_LO_lo (n : Nat) : Fld := ⟨0xE0040 + 0x80 * n, 0, 32⟩
/-- MOT_VLIM_HI (R340 11_motion.md). -/
abbrev R.MOT_VLIM_HI (n : Nat) : Nat := 0xE0044 + 0x80 * n
/-- [31:0] RW, KG, reset 0x7FFF_FFFF, immediately (R341). MOT_VLIM_HI -/
abbrev F.MOT_VLIM_HI_hi (n : Nat) : Fld := ⟨0xE0044 + 0x80 * n, 0, 32⟩
/-- MOT_TOL (R340 11_motion.md). -/
abbrev R.MOT_TOL (n : Nat) : Nat := 0xE0048 + 0x80 * n
/-- [15:0] RW, MW, reset 0x0004, immediately (R341). MOT_TOL: counts -/
abbrev F.MOT_TOL_tol (n : Nat) : Fld := ⟨0xE0048 + 0x80 * n, 0, 16⟩
/-- [31:16] RW, MW, reset 0x0000, immediately (R341). MOT_TOL: 16-count units; 0 disables -/
abbrev F.MOT_TOL_ferr (n : Nat) : Fld := ⟨0xE0048 + 0x80 * n, 16, 16⟩
/-- MOT_SW (R340 11_motion.md). -/
abbrev R.MOT_SW (n : Nat) : Nat := 0xE004C + 0x80 * n
/-- [3:0] RW, KG, reset 0, immediately (R341). MOT_SW: GPIO of each switch -/
abbrev F.MOT_SW_gpio_hi (n : Nat) : Fld := ⟨0xE004C + 0x80 * n, 0, 4⟩
/-- [11:8] RW, KG, reset 0, immediately (R341). MOT_SW: GPIO of each switch -/
abbrev F.MOT_SW_gpio_lo (n : Nat) : Fld := ⟨0xE004C + 0x80 * n, 8, 4⟩
/-- [4:4] RW, KG, reset 0, immediately (R341). MOT_SW: switch enabled -/
abbrev F.MOT_SW_hi_en (n : Nat) : Fld := ⟨0xE004C + 0x80 * n, 4, 1⟩
/-- [12:12] RW, KG, reset 0, immediately (R341). MOT_SW: switch enabled -/
abbrev F.MOT_SW_lo_en (n : Nat) : Fld := ⟨0xE004C + 0x80 * n, 12, 1⟩
/-- [5:5] RW, KG, reset 0, immediately (R341). MOT_SW: 0 active low -/
abbrev F.MOT_SW_hi_pol (n : Nat) : Fld := ⟨0xE004C + 0x80 * n, 5, 1⟩
/-- [13:13] RW, KG, reset 0, immediately (R341). MOT_SW: 0 active low -/
abbrev F.MOT_SW_lo_pol (n : Nat) : Fld := ⟨0xE004C + 0x80 * n, 13, 1⟩
/-- [26:24] RW, KG, reset 0, immediately (R341). MOT_SW: R321 -/
abbrev F.MOT_SW_action (n : Nat) : Fld := ⟨0xE004C + 0x80 * n, 24, 3⟩
/-- MOT_DEB (R340 11_motion.md). -/
abbrev R.MOT_DEB (n : Nat) : Nat := 0xE0050 + 0x80 * n
/-- [7:0] RW, MW, reset 0x0A, immediately (R341). MOT_DEB: samples -/
abbrev F.MOT_DEB_deb (n : Nat) : Fld := ⟨0xE0050 + 0x80 * n, 0, 8⟩
/-- [15:8] RW, MW, reset 0x00, immediately (R341). MOT_DEB: 0 disables -/
abbrev F.MOT_DEB_chat_n (n : Nat) : Fld := ⟨0xE0050 + 0x80 * n, 8, 8⟩
/-- [23:16] RW, MW, reset 0x0A, immediately (R341). MOT_DEB: 10 ms counts -/
abbrev F.MOT_DEB_chat_w (n : Nat) : Fld := ⟨0xE0050 + 0x80 * n, 16, 8⟩
/-- MOT_HOME (R340 11_motion.md). -/
abbrev R.MOT_HOME (n : Nat) : Nat := 0xE0054 + 0x80 * n
/-- [1:0] RW, MW, reset 0, immediately (R341). MOT_HOME: R323; 0 refuses -/
abbrev F.MOT_HOME_method (n : Nat) : Fld := ⟨0xE0054 + 0x80 * n, 0, 2⟩
/-- [2:2] RW, MW, reset 0, immediately (R341). MOT_HOME: 0 positive -/
abbrev F.MOT_HOME_dir (n : Nat) : Fld := ⟨0xE0054 + 0x80 * n, 2, 1⟩
/-- [31:16] RW, MW, reset 0x0000, immediately (R341). MOT_HOME: 4,096-count units; 0 no bound -/
abbrev F.MOT_HOME_max (n : Nat) : Fld := ⟨0xE0054 + 0x80 * n, 16, 16⟩
/-- MOT_HOME_V (R340 11_motion.md). -/
abbrev R.MOT_HOME_V (n : Nat) : Nat := 0xE0058 + 0x80 * n
/-- [31:0] RW, reset 0x0000_0000, immediately (R341). MOT_HOME_V, MOT_HOME_C: fp32 counts/s -/
abbrev F.MOT_HOME_V_speed (n : Nat) : Fld := ⟨0xE0058 + 0x80 * n, 0, 32⟩
/-- MOT_HOME_C (R340 11_motion.md). -/
abbrev R.MOT_HOME_C (n : Nat) : Nat := 0xE005C + 0x80 * n
/-- [31:0] RW, reset 0x0000_0000, immediately (R341). MOT_HOME_V, MOT_HOME_C: fp32 counts/s -/
abbrev F.MOT_HOME_C_speed (n : Nat) : Fld := ⟨0xE005C + 0x80 * n, 0, 32⟩
/-- MOT_HOME_POS (R340 11_motion.md). -/
abbrev R.MOT_HOME_POS (n : Nat) : Nat := 0xE0060 + 0x80 * n
/-- [31:0] RW, reset 0x0000_0000, immediately (R341). MOT_HOME_POS -/
abbrev F.MOT_HOME_POS_pos (n : Nat) : Fld := ⟨0xE0060 + 0x80 * n, 0, 32⟩
/-- MOT_STAND (R340 11_motion.md). -/
abbrev R.MOT_STAND (n : Nat) : Nat := 0xE0064 + 0x80 * n
/-- [7:0] RW, MW, reset 0x00, at next enable (R341). MOT_STAND: 10 ms counts; 0 disables -/
abbrev F.MOT_STAND_stand_t (n : Nat) : Fld := ⟨0xE0064 + 0x80 * n, 0, 8⟩
/-- [8:8] RW, MW, KG, reset 0, immediately (R341). MOT_STAND: 0 OFF, 1 SHORT -/
abbrev F.MOT_STAND_coils (n : Nat) : Fld := ⟨0xE0064 + 0x80 * n, 8, 1⟩
/-- [9:9] RW, MW, KG, reset 0, immediately (R341). MOT_STAND: brake used -/
abbrev F.MOT_STAND_sbc_en (n : Nat) : Fld := ⟨0xE0064 + 0x80 * n, 9, 1⟩
/-- [10:10] RW, MW, KG, reset 0, immediately (R341). MOT_STAND: SBC0 or SBC1 -/
abbrev F.MOT_STAND_sbc (n : Nat) : Fld := ⟨0xE0064 + 0x80 * n, 10, 1⟩
/-- [23:16] RW, reset 0x14, immediately (R341). MOT_STAND: 10 ms counts -/
abbrev F.MOT_STAND_brake_t (n : Nat) : Fld := ⟨0xE0064 + 0x80 * n, 16, 8⟩
/-- [31:24] RW, reset 0x14, immediately (R341). MOT_STAND: 10 ms counts -/
abbrev F.MOT_STAND_rel_t (n : Nat) : Fld := ⟨0xE0064 + 0x80 * n, 24, 8⟩
/-- MOT_WINCH (R340 11_motion.md). -/
abbrev R.MOT_WINCH (n : Nat) : Nat := 0xE0068 + 0x80 * n
/-- [1:0] RW, MW, KG, reset 0, at next enable (R341). MOT_WINCH: 0 NONE, 1 PAYOUT_HAUL, 2 TENSION -/
abbrev F.MOT_WINCH_mode (n : Nat) : Fld := ⟨0xE0068 + 0x80 * n, 0, 2⟩
/-- [2:2] RW, MW, KG, reset 0, at next enable (R341). MOT_WINCH: R333 -/
abbrev F.MOT_WINCH_haul_dir (n : Nat) : Fld := ⟨0xE0068 + 0x80 * n, 2, 1⟩
/-- [15:8] RW, MW, reset 0x00, immediately (R341). MOT_WINCH: 10 ms counts; 0 disables -/
abbrev F.MOT_WINCH_slack_t (n : Nat) : Fld := ⟨0xE0068 + 0x80 * n, 8, 8⟩
/-- [31:16] RW, MW, reset 0x0CCD, immediately (R341). MOT_WINCH: Q1.15 -/
abbrev F.MOT_WINCH_band (n : Nat) : Fld := ⟨0xE0068 + 0x80 * n, 16, 16⟩
/-- MOT_WINCH2 (R340 11_motion.md). -/
abbrev R.MOT_WINCH2 (n : Nat) : Nat := 0xE006C + 0x80 * n
/-- [15:0] RW, MW, KG, reset 0x7FFF, immediately (R341). MOT_WINCH2: Q1.15 -/
abbrev F.MOT_WINCH2_t_ovl (n : Nat) : Fld := ⟨0xE006C + 0x80 * n, 0, 16⟩
/-- [31:16] RW, MW, reset 0x0000, immediately (R341). MOT_WINCH2: Q1.15 -/
abbrev F.MOT_WINCH2_slack_thr (n : Nat) : Fld := ⟨0xE006C + 0x80 * n, 16, 16⟩
/-- MOT_SHARE (R340 11_motion.md). -/
abbrev R.MOT_SHARE (n : Nat) : Nat := 0xE0070 + 0x80 * n
/-- [15:0] RW, MW, reset 0x4000, immediately (R341). MOT_SHARE: Q2.14 -/
abbrev F.MOT_SHARE_ratio (n : Nat) : Fld := ⟨0xE0070 + 0x80 * n, 0, 16⟩
/-- [31:16] RW, MW, reset 0x0000, immediately (R341). MOT_SHARE: 0.1 rpm; 0 disables -/
abbrev F.MOT_SHARE_sync_tol (n : Nat) : Fld := ⟨0xE0070 + 0x80 * n, 16, 16⟩
/-- MOT_SET_POS (R340 11_motion.md). -/
abbrev R.MOT_SET_POS (n : Nat) : Nat := 0xE0074 + 0x80 * n
/-- [31:0] RO, reset 0x0000_0000, immediately (R341). MOT_SET_POS -/
abbrev F.MOT_SET_POS_pos (n : Nat) : Fld := ⟨0xE0074 + 0x80 * n, 0, 32⟩
/-- MOT_SET_VEL (R340 11_motion.md). -/
abbrev R.MOT_SET_VEL (n : Nat) : Nat := 0xE0078 + 0x80 * n
/-- [31:0] RO, reset 0x0000_0000, immediately (R341). MOT_SET_VEL: fp32 counts/s -/
abbrev F.MOT_SET_VEL_vel (n : Nat) : Fld := ⟨0xE0078 + 0x80 * n, 0, 32⟩
/-- MOT_POS (R340 11_motion.md). -/
abbrev R.MOT_POS (n : Nat) : Nat := 0xE007C + 0x80 * n
/-- [31:0] RO, reset 0x0000_0000, immediately (R341). MOT_POS -/
abbrev F.MOT_POS_pos (n : Nat) : Fld := ⟨0xE007C + 0x80 * n, 0, 32⟩
/-- MOT_CAM_CFG (R340 11_motion.md). -/
abbrev R.MOT_CAM_CFG (n : Nat) : Nat := 0xE0400 + 0x20 * n
/-- [0:0] RW, MW, KG, reset 0, immediately (R341). MOT_CAMm_CFG: R326 -/
abbrev F.MOT_CAM_CFG_en (n : Nat) : Fld := ⟨0xE0400 + 0x20 * n, 0, 1⟩
/-- [1:1] RW, MW, reset 0, at next enable (R341). MOT_CAMm_CFG: 0 linear, 1 cubic -/
abbrev F.MOT_CAM_CFG_interp (n : Nat) : Fld := ⟨0xE0400 + 0x20 * n, 1, 1⟩
/-- [2:2] RW, MW, reset 0, at next enable (R341). MOT_CAMm_CFG: R327 -/
abbrev F.MOT_CAM_CFG_cyclic (n : Nat) : Fld := ⟨0xE0400 + 0x20 * n, 2, 1⟩
/-- [3:3] RW, MW, reset 0, at next enable (R341). MOT_CAMm_CFG: R329 -/
abbrev F.MOT_CAM_CFG_rel (n : Nat) : Fld := ⟨0xE0400 + 0x20 * n, 3, 1⟩
/-- [4:4] RW, MW, reset 0, immediately (R341). MOT_CAMm_CFG: EV39 at each wrap -/
abbrev F.MOT_CAM_CFG_wrap_ev (n : Nat) : Fld := ⟨0xE0400 + 0x20 * n, 4, 1⟩
/-- [12:8] RW, MW, reset 0, at next enable (R341). MOT_CAMm_CFG: 0–16 -/
abbrev F.MOT_CAM_CFG_master (n : Nat) : Fld := ⟨0xE0400 + 0x20 * n, 8, 5⟩
/-- [26:16] RW, MW, reset 0, at next enable (R341). MOT_CAMm_CFG: n, 0–1,024; 0 inactive -/
abbrev F.MOT_CAM_CFG_length (n : Nat) : Fld := ⟨0xE0400 + 0x20 * n, 16, 11⟩
/-- MOT_CAM_TILE (R340 11_motion.md). -/
abbrev R.MOT_CAM_TILE (n : Nat) : Nat := 0xE0404 + 0x20 * n
/-- [9:0] RW, reset 0, at next enable (R341). MOT_CAMm_TILE: first table tile -/
abbrev F.MOT_CAM_TILE_tile (n : Nat) : Fld := ⟨0xE0404 + 0x20 * n, 0, 10⟩
/-- MOT_CAM_X0 (R340 11_motion.md). -/
abbrev R.MOT_CAM_X0 (n : Nat) : Nat := 0xE0408 + 0x20 * n
/-- [31:0] RW, reset 0x0000_0000, immediately (R341). MOT_CAMm_X0, MOT_CAMm_DX: fp32 master units -/
abbrev F.MOT_CAM_X0_value (n : Nat) : Fld := ⟨0xE0408 + 0x20 * n, 0, 32⟩
/-- MOT_CAM_DX (R340 11_motion.md). -/
abbrev R.MOT_CAM_DX (n : Nat) : Nat := 0xE040C + 0x20 * n
/-- [31:0] RW, reset 0x0000_0000, immediately (R341). MOT_CAMm_X0, MOT_CAMm_DX: fp32 master units -/
abbrev F.MOT_CAM_DX_value (n : Nat) : Fld := ⟨0xE040C + 0x20 * n, 0, 32⟩
/-- MOT_CAM_SCALE (R340 11_motion.md). -/
abbrev R.MOT_CAM_SCALE (n : Nat) : Nat := 0xE0410 + 0x20 * n
/-- [31:0] RW, reset 0x3F80_0000, immediately (R341). MOT_CAMm_SCALE: fp32 -/
abbrev F.MOT_CAM_SCALE_scale (n : Nat) : Fld := ⟨0xE0410 + 0x20 * n, 0, 32⟩
/-- MOT_CAM_OFS (R340 11_motion.md). -/
abbrev R.MOT_CAM_OFS (n : Nat) : Nat := 0xE0414 + 0x20 * n
/-- [31:0] RW, reset 0x0000_0000, immediately (R341). MOT_CAMm_OFS: counts; written at a rel engagement -/
abbrev F.MOT_CAM_OFS_ofs (n : Nat) : Fld := ⟨0xE0414 + 0x20 * n, 0, 32⟩
/-- MOT_CAM_STS (R340 11_motion.md). -/
abbrev R.MOT_CAM_STS (n : Nat) : Nat := 0xE0418 + 0x20 * n
/-- [10:0] RO, reset 0, immediately (R341). MOT_CAMm_STS: k -/
abbrev F.MOT_CAM_STS_index (n : Nat) : Fld := ⟨0xE0418 + 0x20 * n, 0, 11⟩
/-- [16:16] RO, reset 0, immediately (R341). MOT_CAMm_STS: enabled with n ≥ 2 -/
abbrev F.MOT_CAM_STS_active (n : Nat) : Fld := ⟨0xE0418 + 0x20 * n, 16, 1⟩
/-- [17:17] RO, reset 0, immediately (R341). MOT_CAMm_STS: R327 -/
abbrev F.MOT_CAM_STS_ended (n : Nat) : Fld := ⟨0xE0418 + 0x20 * n, 17, 1⟩
/-- [22:20] RO, reset 0, immediately (R341). MOT_CAMm_STS: code of R326 -/
abbrev F.MOT_CAM_STS_error (n : Nat) : Fld := ⟨0xE0418 + 0x20 * n, 20, 3⟩
/-- [31:24] RO, reset 0x00, immediately (R341). MOT_CAMm_STS: wraps -/
abbrev F.MOT_CAM_STS_wraps (n : Nat) : Fld := ⟨0xE0418 + 0x20 * n, 24, 8⟩
/-- MOT_CAM_Y (R340 11_motion.md). -/
abbrev R.MOT_CAM_Y (n : Nat) : Nat := 0xE041C + 0x20 * n
/-- [31:0] RO, reset 0x0000_0000, immediately (R341). MOT_CAMm_Y: fp32 -/
abbrev F.MOT_CAM_Y_y (n : Nat) : Fld := ⟨0xE041C + 0x20 * n, 0, 32⟩

/-! ### Block 0x000F_0000 -/

/-- SHFT_CTL (R359 12_shaft_link.md). -/
abbrev R.SHFT_CTL : Nat := 0xF0000
/-- [0:0] RW, MW, KG, SG, reset 0, immediately (R360). SHFT_CTL: R344; 0 leaves the line at once and makes the device standalone -/
abbrev F.SHFT_CTL_en : Fld := ⟨0xF0000, 0, 1⟩
/-- SHFT_CFG (R359 12_shaft_link.md). -/
abbrev R.SHFT_CFG : Nat := 0xF0004
/-- [2:0] RW, KG, SG, reset 0, at next enable (R360). SHFT_CFG: node 0–7 -/
abbrev F.SHFT_CFG_node : Fld := ⟨0xF0004, 0, 3⟩
/-- [7:4] RW, KG, SG, reset 0, at next enable (R360). SHFT_CFG: members, 2–8 -/
abbrev F.SHFT_CFG_n : Fld := ⟨0xF0004, 4, 4⟩
/-- [15:8] RW, KG, SG, reset 0x00, at next enable (R360). SHFT_CFG: line identity -/
abbrev F.SHFT_CFG_line : Fld := ⟨0xF0004, 8, 8⟩
/-- [16:16] RW, KG, SG, reset 0, at next enable (R360). SHFT_CFG: 0 2.5 Gbaud, 1 legacy 1.25 Gbaud -/
abbrev F.SHFT_CFG_rate : Fld := ⟨0xF0004, 16, 1⟩
/-- SHFT_STS (R359 12_shaft_link.md). -/
abbrev R.SHFT_STS : Nat := 0xF0008
/-- [2:0] RO, reset 0, immediately (R360). SHFT_STS: 0 OFF, 1 FORMING, 2 BOTH, 3 A_ONLY, 4 B_ONLY, 5 NONE -/
abbrev F.SHFT_STS_link : Fld := ⟨0xF0008, 0, 3⟩
/-- [6:4] RO, reset 0, immediately (R360). SHFT_STS: R344; 0 = none -/
abbrev F.SHFT_STS_error : Fld := ⟨0xF0008, 4, 3⟩
/-- [15:8] RO, reset 0x00, immediately (R360). SHFT_STS: current bit of each member (R352) -/
abbrev F.SHFT_STS_members : Fld := ⟨0xF0008, 8, 8⟩
/-- [16:16] RO, reset 0, immediately (R360). SHFT_STS: ring up -/
abbrev F.SHFT_STS_ring_a : Fld := ⟨0xF0008, 16, 1⟩
/-- [17:17] RO, reset 0, immediately (R360). SHFT_STS: ring up -/
abbrev F.SHFT_STS_ring_b : Fld := ⟨0xF0008, 17, 1⟩
/-- SHFT_FLAGS (R359 12_shaft_link.md). -/
abbrev R.SHFT_FLAGS : Nat := 0xF000C
/-- [3:0] W1C, reset 0, immediately (R360). SHFT_FLAGS: bit 0 xch_late, 1 crash_late, 2 resume_rejected, 3 mail_bad -/
abbrev F.SHFT_FLAGS_flags : Fld := ⟨0xF000C, 0, 4⟩
/-- SHFT_XCH_CFG (R359 12_shaft_link.md). -/
abbrev R.SHFT_XCH_CFG : Nat := 0xF0010
/-- [3:0] RW, MW, reset 0, at next enable (R360). SHFT_XCH_CFG: b, 0–8 -/
abbrev F.SHFT_XCH_CFG_blocks : Fld := ⟨0xF0010, 0, 4⟩
/-- [20:5] RW, reset 0, at next enable (R360). SHFT_XCH_CFG: receive area, byte address / 32 -/
abbrev F.SHFT_XCH_CFG_addr : Fld := ⟨0xF0010, 5, 16⟩
/-- SHFT_XCH_REQ (R359 12_shaft_link.md). -/
abbrev R.SHFT_XCH_REQ : Nat := 0xF0014
/-- [15:0] RO, reset 0x0000, immediately (R360). SHFT_XCH_REQ: X in 4 ns counts, rounded up (R349) -/
abbrev F.SHFT_XCH_REQ_req : Fld := ⟨0xF0014, 0, 16⟩
/-- SHFT_LINK_A (R359 12_shaft_link.md). -/
abbrev R.SHFT_LINK_A : Nat := 0xF0018
/-- [15:0] RC, reset 0x0000, immediately (R360). SHFT_LINK_A, SHFT_LINK_B: times the ring went down; saturates -/
abbrev F.SHFT_LINK_A_downs : Fld := ⟨0xF0018, 0, 16⟩
/-- SHFT_LINK_B (R359 12_shaft_link.md). -/
abbrev R.SHFT_LINK_B : Nat := 0xF001C
/-- [15:0] RC, reset 0x0000, immediately (R360). SHFT_LINK_A, SHFT_LINK_B: times the ring went down; saturates -/
abbrev F.SHFT_LINK_B_downs : Fld := ⟨0xF001C, 0, 16⟩
/-- SHFT_CRASH (R359 12_shaft_link.md). -/
abbrev R.SHFT_CRASH : Nat := 0xF0020
/-- [7:0] RW, MW, KG, reset 0x00, immediately (R360). SHFT_CRASH: crash group (R358) -/
abbrev F.SHFT_CRASH_drives : Fld := ⟨0xF0020, 0, 8⟩
/-- SHFT_CMD (R359 12_shaft_link.md). -/
abbrev R.SHFT_CMD : Nat := 0xF0024
/-- [7:0] WO, KG, reset 0x00, immediately (R360). SHFT_CMD: R357 -/
abbrev F.SHFT_CMD_resume : Fld := ⟨0xF0024, 0, 8⟩
/-- SHFT_CNT (R359 12_shaft_link.md). -/
abbrev R.SHFT_CNT : Nat := 0xF0028
/-- [15:0] RC, reset 0x0000, immediately (R360). SHFT_CNT: frames with a wrong CRC; saturates -/
abbrev F.SHFT_CNT_crc : Fld := ⟨0xF0028, 0, 16⟩
/-- [31:16] RC, reset 0x0000, immediately (R360). SHFT_CNT: late EXCH frames; saturates -/
abbrev F.SHFT_CNT_late : Fld := ⟨0xF0028, 16, 16⟩
/-- SHFT_RING_DLY (R359 12_shaft_link.md). -/
abbrev R.SHFT_RING_DLY : Nat := 0xF002C
/-- [15:0] RO, reset 0x0000, immediately (R360). SHFT_RING_DLY: D in ns (R349) -/
abbrev F.SHFT_RING_DLY_d : Fld := ⟨0xF002C, 0, 16⟩
/-- SHFT_LS_CFG (R359 12_shaft_link.md). -/
abbrev R.SHFT_LS_CFG (n : Nat) : Nat := 0xF0040 + 0x10 * n
/-- [1:0] RW, MW, KG, reset 0, at next enable (R360). SHFT_LSd_CFG: 1 FOLLOW, 2 DROOP, 3 TENSION -/
abbrev F.SHFT_LS_CFG_mode (n : Nat) : Fld := ⟨0xF0040 + 0x10 * n, 0, 2⟩
/-- [3:3] RW, MW, KG, reset 0, immediately (R360). SHFT_LSd_CFG: R356; 0 ends the replacement at the next couch -/
abbrev F.SHFT_LS_CFG_en (n : Nat) : Fld := ⟨0xF0040 + 0x10 * n, 3, 1⟩
/-- [6:4] RW, MW, reset 0, at next enable (R360). SHFT_LSd_CFG: source member -/
abbrev F.SHFT_LS_CFG_src_node (n : Nat) : Fld := ⟨0xF0040 + 0x10 * n, 4, 3⟩
/-- [10:8] RW, MW, reset 0, at next enable (R360). SHFT_LSd_CFG: source drive word -/
abbrev F.SHFT_LS_CFG_src_drive (n : Nat) : Fld := ⟨0xF0040 + 0x10 * n, 8, 3⟩
/-- [31:16] RW, MW, reset 0x4000, immediately (R360). SHFT_LSd_CFG: Q2.14 -/
abbrev F.SHFT_LS_CFG_ratio (n : Nat) : Fld := ⟨0xF0040 + 0x10 * n, 16, 16⟩
/-- SHFT_LS_PAR (R359 12_shaft_link.md). -/
abbrev R.SHFT_LS_PAR (n : Nat) : Nat := 0xF0044 + 0x10 * n
/-- [15:0] RW, MW, reset 0x0000, immediately (R360). SHFT_LSd_PAR: Q1.15 pu speed per pu torque -/
abbrev F.SHFT_LS_PAR_droop (n : Nat) : Fld := ⟨0xF0044 + 0x10 * n, 0, 16⟩
/-- [31:16] RW, MW, reset 0x0000, immediately (R360). SHFT_LSd_PAR: Q4.12 pu torque per pu speed -/
abbrev F.SHFT_LS_PAR_kd (n : Nat) : Fld := ⟨0xF0044 + 0x10 * n, 16, 16⟩
/-- SHFT_LS_STS (R359 12_shaft_link.md). -/
abbrev R.SHFT_LS_STS (n : Nat) : Nat := 0xF0048 + 0x10 * n
/-- [0:0] RO, reset 0, immediately (R360). SHFT_LSd_STS: function enabled -/
abbrev F.SHFT_LS_STS_active (n : Nat) : Fld := ⟨0xF0048 + 0x10 * n, 0, 1⟩
/-- [1:1] RO, reset 0, immediately (R360). SHFT_LSd_STS: R357 -/
abbrev F.SHFT_LS_STS_fallback (n : Nat) : Fld := ⟨0xF0048 + 0x10 * n, 1, 1⟩
/-- [2:2] RO, reset 0, immediately (R360). SHFT_LSd_STS: R357 -/
abbrev F.SHFT_LS_STS_blending (n : Nat) : Fld := ⟨0xF0048 + 0x10 * n, 2, 1⟩
/-- [6:4] RO, reset 0, immediately (R360). SHFT_LSd_STS: code of R356; 0 = none -/
abbrev F.SHFT_LS_STS_error (n : Nat) : Fld := ⟨0xF0048 + 0x10 * n, 4, 3⟩
/-- [31:16] RO, reset 0x0000, immediately (R360). SHFT_LSd_STS: held torque or t_set, Q1.15 -/
abbrev F.SHFT_LS_STS_held (n : Nat) : Fld := ⟨0xF0048 + 0x10 * n, 16, 16⟩

/-! ### Block 0x0010_0000 -/

/-- CAN_CTL (R382 13_can_fd.md). -/
abbrev R.CAN_CTL (n : Nat) : Nat := 0x100000 + 0x4000 * n
/-- [0:0] RW, MW, KG, SG, reset 0, immediately (R383). CAN_CTL: R364 -/
abbrev F.CAN_CTL_en (n : Nat) : Fld := ⟨0x100000 + 0x4000 * n, 0, 1⟩
/-- [2:1] RW, MW, reset 0, immediately (R383). CAN_CTL: R365; acts at bus idle -/
abbrev F.CAN_CTL_mode (n : Nat) : Fld := ⟨0x100000 + 0x4000 * n, 1, 2⟩
/-- [3:3] RW, MW, KG, reset 0, at next enable (R383). CAN_CTL: FD frames allowed -/
abbrev F.CAN_CTL_fd_en (n : Nat) : Fld := ⟨0x100000 + 0x4000 * n, 3, 1⟩
/-- [4:4] RW, MW, reset 0, immediately (R383). CAN_CTL: R372 -/
abbrev F.CAN_CTL_oneshot (n : Nat) : Fld := ⟨0x100000 + 0x4000 * n, 4, 1⟩
/-- [5:5] RW, MW, reset 0, at next enable (R383). CAN_CTL: 0 identifier, 1 buffer number (R370) -/
abbrev F.CAN_CTL_tx_prio (n : Nat) : Fld := ⟨0x100000 + 0x4000 * n, 5, 1⟩
/-- [6:6] WO, reset 0, immediately (R383). CAN_CTL: R373 -/
abbrev F.CAN_CTL_recover (n : Nat) : Fld := ⟨0x100000 + 0x4000 * n, 6, 1⟩
/-- [7:7] RW, MW, reset 0, at next enable (R383). CAN_CTL: RG12 through TXB2 (R376) -/
abbrev F.CAN_CTL_ring_tx (n : Nat) : Fld := ⟨0x100000 + 0x4000 * n, 7, 1⟩
/-- CAN_STS (R382 13_can_fd.md). -/
abbrev R.CAN_STS (n : Nat) : Nat := 0x100004 + 0x4000 * n
/-- [0:0] RO, reset 0, immediately (R383). CAN_STS: integrated and enabled -/
abbrev F.CAN_STS_enabled (n : Nat) : Fld := ⟨0x100004 + 0x4000 * n, 0, 1⟩
/-- [1:1] RO, reset 0, immediately (R383). CAN_STS: R380 -/
abbrev F.CAN_STS_sleeping (n : Nat) : Fld := ⟨0x100004 + 0x4000 * n, 1, 1⟩
/-- [3:2] RO, reset 0, immediately (R383). CAN_STS: 0 active, 1 passive, 2 bus-off -/
abbrev F.CAN_STS_conf (n : Nat) : Fld := ⟨0x100004 + 0x4000 * n, 2, 2⟩
/-- [4:4] RO, reset 0, immediately (R383). CAN_STS: R373 -/
abbrev F.CAN_STS_recovering (n : Nat) : Fld := ⟨0x100004 + 0x4000 * n, 4, 1⟩
/-- [5:5] RO, reset 0, immediately (R383). CAN_STS: bus idle -/
abbrev F.CAN_STS_bus_idle (n : Nat) : Fld := ⟨0x100004 + 0x4000 * n, 5, 1⟩
/-- [10:8] RO, reset 0, immediately (R383). CAN_STS: code of R364; 0 = none -/
abbrev F.CAN_STS_error (n : Nat) : Fld := ⟨0x100004 + 0x4000 * n, 8, 3⟩
/-- [14:12] RO, reset 0, immediately (R383). CAN_STS: last error: 0 none, 1 stuff, 2 form, 3 ack, 4 bit 1, 5 bit 0, 6 CRC -/
abbrev F.CAN_STS_lec (n : Nat) : Fld := ⟨0x100004 + 0x4000 * n, 12, 3⟩
/-- CAN_NBT (R382 13_can_fd.md). -/
abbrev R.CAN_NBT (n : Nat) : Nat := 0x100008 + 0x4000 * n
/-- [7:0] RW, MW, KG, reset 0x0E, at next enable (R383). CAN_NBT: value − 1 -/
abbrev F.CAN_NBT_tseg1_m1 (n : Nat) : Fld := ⟨0x100008 + 0x4000 * n, 0, 8⟩
/-- [14:8] RW, MW, KG, reset 0x03, at next enable (R383). CAN_NBT: value − 1 -/
abbrev F.CAN_NBT_tseg2_m1 (n : Nat) : Fld := ⟨0x100008 + 0x4000 * n, 8, 7⟩
/-- [22:16] RW, KG, reset 0x03, at next enable (R383). CAN_NBT: value − 1 -/
abbrev F.CAN_NBT_sjw_m1 (n : Nat) : Fld := ⟨0x100008 + 0x4000 * n, 16, 7⟩
/-- [28:24] RW, KG, reset 0x03, at next enable (R383). CAN_NBT: value − 1; reset gives 1 Mbit/s -/
abbrev F.CAN_NBT_brp_m1 (n : Nat) : Fld := ⟨0x100008 + 0x4000 * n, 24, 5⟩
/-- CAN_DBT (R382 13_can_fd.md). -/
abbrev R.CAN_DBT (n : Nat) : Nat := 0x10000C + 0x4000 * n
/-- [4:0] RW, MW, KG, reset 0x0D, at next enable (R383). CAN_DBT: value − 1 -/
abbrev F.CAN_DBT_tseg1_m1 (n : Nat) : Fld := ⟨0x10000C + 0x4000 * n, 0, 5⟩
/-- [11:8] RW, MW, KG, reset 0x04, at next enable (R383). CAN_DBT: value − 1 -/
abbrev F.CAN_DBT_tseg2_m1 (n : Nat) : Fld := ⟨0x10000C + 0x4000 * n, 8, 4⟩
/-- [19:16] RW, KG, reset 0x04, at next enable (R383). CAN_DBT: value − 1 -/
abbrev F.CAN_DBT_sjw_m1 (n : Nat) : Fld := ⟨0x10000C + 0x4000 * n, 16, 4⟩
/-- [28:24] RW, KG, reset 0x00, at next enable (R383). CAN_DBT: value − 1; reset gives 4 Mbit/s -/
abbrev F.CAN_DBT_brp_m1 (n : Nat) : Fld := ⟨0x10000C + 0x4000 * n, 24, 5⟩
/-- CAN_TDC (R382 13_can_fd.md). -/
abbrev R.CAN_TDC (n : Nat) : Nat := 0x100010 + 0x4000 * n
/-- [6:0] RW, MW, KG, reset 0x00, at next enable (R383). CAN_TDC: minimum time quanta (R363) -/
abbrev F.CAN_TDC_tdco (n : Nat) : Fld := ⟨0x100010 + 0x4000 * n, 0, 7⟩
/-- [16:16] RW, KG, reset 0, at next enable (R383). CAN_TDC: R363 -/
abbrev F.CAN_TDC_tdc_en (n : Nat) : Fld := ⟨0x100010 + 0x4000 * n, 16, 1⟩
/-- CAN_TDC_STS (R382 13_can_fd.md). -/
abbrev R.CAN_TDC_STS (n : Nat) : Nat := 0x100014 + 0x4000 * n
/-- [6:0] RO, reset 0x00, immediately (R383). CAN_TDC_STS: d of the last FD transmission -/
abbrev F.CAN_TDC_STS_measured (n : Nat) : Fld := ⟨0x100014 + 0x4000 * n, 0, 7⟩
/-- [8:8] W1C, reset 0, immediately (R383). CAN_TDC_STS: d saturated -/
abbrev F.CAN_TDC_STS_sat (n : Nat) : Fld := ⟨0x100014 + 0x4000 * n, 8, 1⟩
/-- CAN_ERR (R382 13_can_fd.md). -/
abbrev R.CAN_ERR (n : Nat) : Nat := 0x100018 + 0x4000 * n
/-- [8:0] RO, reset 0x000, immediately (R383). CAN_ERR: transmit error counter -/
abbrev F.CAN_ERR_tec (n : Nat) : Fld := ⟨0x100018 + 0x4000 * n, 0, 9⟩
/-- [24:16] RO, reset 0x000, immediately (R383). CAN_ERR: receive error counter -/
abbrev F.CAN_ERR_rec (n : Nat) : Fld := ⟨0x100018 + 0x4000 * n, 16, 9⟩
/-- CAN_CNT (R382 13_can_fd.md). -/
abbrev R.CAN_CNT (n : Nat) : Nat := 0x10001C + 0x4000 * n
/-- [15:0] RC, reset 0x0000, immediately (R383). CAN_CNT: R367; saturates -/
abbrev F.CAN_CNT_nomatch (n : Nat) : Fld := ⟨0x10001C + 0x4000 * n, 0, 16⟩
/-- [31:16] RC, reset 0x0000, immediately (R383). CAN_CNT: R368; saturates -/
abbrev F.CAN_CNT_lost (n : Nat) : Fld := ⟨0x10001C + 0x4000 * n, 16, 16⟩
/-- CAN_IRQ (R382 13_can_fd.md). -/
abbrev R.CAN_IRQ (n : Nat) : Nat := 0x100020 + 0x4000 * n
/-- [12:0] W1C, reset 0, immediately (R383). CAN_IRQ: bit 0 rx, 1 tx_done, 2 tx_fail, 3 warn, 4 passive, 5 busoff, 6 lost, 7 wake, 8 tdc_sat, 9 ref, 10 req_refused, 11 nomatch, 12 wr_ignored -/
abbrev F.CAN_IRQ_irq (n : Nat) : Fld := ⟨0x100020 + 0x4000 * n, 0, 13⟩
/-- CAN_IE (R382 13_can_fd.md). -/
abbrev R.CAN_IE (n : Nat) : Nat := 0x100024 + 0x4000 * n
/-- [12:0] RW, reset 0, immediately (R383). CAN_IE: enables of R381 -/
abbrev F.CAN_IE_ie (n : Nat) : Fld := ⟨0x100024 + 0x4000 * n, 0, 13⟩
/-- CAN_TXB_CMD (R382 13_can_fd.md). -/
abbrev R.CAN_TXB_CMD (n : Nat) : Nat := 0x100028 + 0x4000 * n
/-- [2:0] WO, reset 0, immediately (R383). CAN_TXB_CMD: TXB0–TXB2 (R370) -/
abbrev F.CAN_TXB_CMD_request (n : Nat) : Fld := ⟨0x100028 + 0x4000 * n, 0, 3⟩
/-- [10:8] WO, reset 0, immediately (R383). CAN_TXB_CMD: R371 -/
abbrev F.CAN_TXB_CMD_cancel (n : Nat) : Fld := ⟨0x100028 + 0x4000 * n, 8, 3⟩
/-- CAN_TXB_STS (R382 13_can_fd.md). -/
abbrev R.CAN_TXB_STS (n : Nat) : Nat := 0x10002C + 0x4000 * n
/-- [2:0] RO, reset 0, immediately (R383). CAN_TXB_STS: per buffer -/
abbrev F.CAN_TXB_STS_pending (n : Nat) : Fld := ⟨0x10002C + 0x4000 * n, 0, 3⟩
/-- [6:4] W1C, reset 0, immediately (R383). CAN_TXB_STS: sent -/
abbrev F.CAN_TXB_STS_done (n : Nat) : Fld := ⟨0x10002C + 0x4000 * n, 4, 3⟩
/-- [10:8] W1C, reset 0, immediately (R383). CAN_TXB_STS: R372 -/
abbrev F.CAN_TXB_STS_fail (n : Nat) : Fld := ⟨0x10002C + 0x4000 * n, 8, 3⟩
/-- [14:12] W1C, reset 0, immediately (R383). CAN_TXB_STS: R371 -/
abbrev F.CAN_TXB_STS_cancelled (n : Nat) : Fld := ⟨0x10002C + 0x4000 * n, 12, 3⟩
/-- [21:16] RO, reset 0, immediately (R383). CAN_TXB_STS: fail cause of TXBb in [17+2b:16+2b] -/
abbrev F.CAN_TXB_STS_cause (n : Nat) : Fld := ⟨0x10002C + 0x4000 * n, 16, 6⟩
/-- CAN_MOREQ (R382 13_can_fd.md). -/
abbrev R.CAN_MOREQ (n i : Nat) : Nat := 0x100030 + 0x4000 * n + 4 * i
/-- [31:0] WO, reset 0, immediately (R383). CAN_MOREQk: R370 -/
abbrev F.CAN_MOREQ_request (n i : Nat) : Fld := ⟨0x100030 + 0x4000 * n + 4 * i, 0, 32⟩
/-- CAN_MOPEND (R382 13_can_fd.md). -/
abbrev R.CAN_MOPEND (n i : Nat) : Nat := 0x10003C + 0x4000 * n + 4 * i
/-- [31:0] RO, reset 0x0000_0000, immediately (R383). CAN_MOPENDk -/
abbrev F.CAN_MOPEND_pending (n i : Nat) : Fld := ⟨0x10003C + 0x4000 * n + 4 * i, 0, 32⟩
/-- CAN_NEW (R382 13_can_fd.md). -/
abbrev R.CAN_NEW (n i : Nat) : Nat := 0x100048 + 0x4000 * n + 4 * i
/-- [31:0] W1C, reset 0x0000_0000, immediately (R383). CAN_NEWk: R367, R368 -/
abbrev F.CAN_NEW_new (n i : Nat) : Fld := ⟨0x100048 + 0x4000 * n + 4 * i, 0, 32⟩
/-- CAN_LOST (R382 13_can_fd.md). -/
abbrev R.CAN_LOST (n i : Nat) : Nat := 0x100054 + 0x4000 * n + 4 * i
/-- [31:0] W1C, reset 0x0000_0000, immediately (R383). CAN_LOSTk: R368 -/
abbrev F.CAN_LOST_lost (n i : Nat) : Fld := ⟨0x100054 + 0x4000 * n + 4 * i, 0, 32⟩
/-- CAN_TTCFG (R382 13_can_fd.md). -/
abbrev R.CAN_TTCFG (n : Nat) : Nat := 0x100060 + 0x4000 * n
/-- [0:0] RW, MW, KG, reset 0, at next enable (R383). CAN_TTCFG: R377–R379 -/
abbrev F.CAN_TTCFG_tt_en (n : Nat) : Fld := ⟨0x100060 + 0x4000 * n, 0, 1⟩
/-- [1:1] RW, MW, KG, reset 0, at next enable (R383). CAN_TTCFG: time master -/
abbrev F.CAN_TTCFG_master (n : Nat) : Fld := ⟨0x100060 + 0x4000 * n, 1, 1⟩
/-- [31:16] RW, KG, reset 0x03E8, at next enable (R383). CAN_TTCFG: µs; legal 100–65,535 -/
abbrev F.CAN_TTCFG_ref_period (n : Nat) : Fld := ⟨0x100060 + 0x4000 * n, 16, 16⟩
/-- CAN_TTSTS (R382 13_can_fd.md). -/
abbrev R.CAN_TTSTS (n : Nat) : Nat := 0x100064 + 0x4000 * n
/-- [5:0] RO, reset 0, immediately (R383). CAN_TTSTS: cycle count -/
abbrev F.CAN_TTSTS_cycle (n : Nat) : Fld := ⟨0x100064 + 0x4000 * n, 0, 6⟩
/-- [8:8] W1C, reset 0, immediately (R383). CAN_TTSTS: R378 -/
abbrev F.CAN_TTSTS_ref_lost (n : Nat) : Fld := ⟨0x100064 + 0x4000 * n, 8, 1⟩
/-- [31:16] RC, reset 0x0000, immediately (R383). CAN_TTSTS: withdrawn triggers (R379); saturates -/
abbrev F.CAN_TTSTS_missed (n : Nat) : Fld := ⟨0x100064 + 0x4000 * n, 16, 16⟩
/-- CAN_REFID (R382 13_can_fd.md). -/
abbrev R.CAN_REFID (n : Nat) : Nat := 0x100068 + 0x4000 * n
/-- [28:0] RW, KG, reset 0, at next enable (R383). CAN_REFID: reference identifier -/
abbrev F.CAN_REFID_id (n : Nat) : Fld := ⟨0x100068 + 0x4000 * n, 0, 29⟩
/-- [29:29] RW, KG, reset 0, at next enable (R383). CAN_REFID: extended format -/
abbrev F.CAN_REFID_xtd (n : Nat) : Fld := ⟨0x100068 + 0x4000 * n, 29, 1⟩
/-- CAN_WAKE (R382 13_can_fd.md). -/
abbrev R.CAN_WAKE (n : Nat) : Nat := 0x10006C + 0x4000 * n
/-- [0:0] RW, MW, reset 0, immediately (R383). CAN_WAKE: R380 -/
abbrev F.CAN_WAKE_frame_wake (n : Nat) : Fld := ⟨0x10006C + 0x4000 * n, 0, 1⟩
/-- [14:8] RW, MW, reset 0, immediately (R383). CAN_WAKE: MO0–MO95 -/
abbrev F.CAN_WAKE_wake_obj (n : Nat) : Fld := ⟨0x10006C + 0x4000 * n, 8, 7⟩
/-- [23:16] RW, reset 0x01, immediately (R383). CAN_WAKE: nominal bit times -/
abbrev F.CAN_WAKE_filt (n : Nat) : Fld := ⟨0x10006C + 0x4000 * n, 16, 8⟩
/-- CAN_TS_LO (R382 13_can_fd.md). -/
abbrev R.CAN_TS_LO (n : Nat) : Nat := 0x100070 + 0x4000 * n
/-- [31:0] RO, reset 0x0000_0000, immediately (R383). CAN_TS_LO: R375; a read latches ts_hi -/
abbrev F.CAN_TS_LO_ts_lo (n : Nat) : Fld := ⟨0x100070 + 0x4000 * n, 0, 32⟩
/-- CAN_TS_HI (R382 13_can_fd.md). -/
abbrev R.CAN_TS_HI (n : Nat) : Nat := 0x100074 + 0x4000 * n
/-- [31:0] RO, reset 0x0000_0000, immediately (R383). CAN_TS_HI: R375 -/
abbrev F.CAN_TS_HI_ts_hi (n : Nat) : Fld := ⟨0x100074 + 0x4000 * n, 0, 32⟩

/-! ### Block 0x0011_0000 -/

/-- RING_CFG (R446 15_host_interface.md). -/
abbrev R.RING_CFG (n : Nat) : Nat := 0x110000 + 0x20 * n
/-- [3:0] RW, MW, reset 0x0, immediately (R447). RING_CFGn: R431 -/
abbrev F.RING_CFG_size (n : Nat) : Fld := ⟨0x110000 + 0x20 * n, 0, 4⟩
/-- RING_STS (R446 15_host_interface.md). -/
abbrev R.RING_STS (n : Nat) : Nat := 0x110004 + 0x20 * n
/-- [0:0] RO, reset 0, immediately (R447). RING_STSn: ring enabled -/
abbrev F.RING_STS_enabled (n : Nat) : Fld := ⟨0x110004 + 0x20 * n, 0, 1⟩
/-- [1:1] RO, reset fixed, immediately (R447). RING_STSn: 1 if the device produces (R430) -/
abbrev F.RING_STS_device_prod (n : Nat) : Fld := ⟨0x110004 + 0x20 * n, 1, 1⟩
/-- [2:2] W1C, reset 0, immediately (R447). RING_STSn: R431 -/
abbrev F.RING_STS_cfg_error (n : Nat) : Fld := ⟨0x110004 + 0x20 * n, 2, 1⟩
/-- [3:3] W1C, reset 0, immediately (R447). RING_STSn: R432 -/
abbrev F.RING_STS_idx_bad (n : Nat) : Fld := ⟨0x110004 + 0x20 * n, 3, 1⟩
/-- [4:4] W1C, reset 0, immediately (R447). RING_STSn: R433 -/
abbrev F.RING_STS_overflow (n : Nat) : Fld := ⟨0x110004 + 0x20 * n, 4, 1⟩
/-- [5:5] RO, reset 0, immediately (R447). RING_STSn: count equals 2^size -/
abbrev F.RING_STS_full (n : Nat) : Fld := ⟨0x110004 + 0x20 * n, 5, 1⟩
/-- RING_HEAD (R446 15_host_interface.md). -/
abbrev R.RING_HEAD (n : Nat) : Nat := 0x110008 + 0x20 * n
/-- [15:0] RW or RO, reset 0x0000, immediately (R447). RING_HEADn: R430 -/
abbrev F.RING_HEAD_head (n : Nat) : Fld := ⟨0x110008 + 0x20 * n, 0, 16⟩
/-- RING_TAIL (R446 15_host_interface.md). -/
abbrev R.RING_TAIL (n : Nat) : Nat := 0x11000C + 0x20 * n
/-- [15:0] RW or RO, reset 0x0000, immediately (R447). RING_TAILn: R430; a host write is the doorbell -/
abbrev F.RING_TAIL_tail (n : Nat) : Fld := ⟨0x11000C + 0x20 * n, 0, 16⟩
/-- RING_THR (R446 15_host_interface.md). -/
abbrev R.RING_THR (n : Nat) : Nat := 0x110010 + 0x20 * n
/-- [12:0] RW, MW, reset 1 on RG4–RG7, else 0, immediately (R447). RING_THRn: R434 -/
abbrev F.RING_THR_thr (n : Nat) : Fld := ⟨0x110010 + 0x20 * n, 0, 13⟩
/-- RING_DROP (R446 15_host_interface.md). -/
abbrev R.RING_DROP (n : Nat) : Nat := 0x110014 + 0x20 * n
/-- [15:0] RC, reset 0x0000, immediately (R447). RING_DROPn: R433; saturates -/
abbrev F.RING_DROP_drops (n : Nat) : Fld := ⟨0x110014 + 0x20 * n, 0, 16⟩
/-- RING_CNT (R446 15_host_interface.md). -/
abbrev R.RING_CNT (n : Nat) : Nat := 0x110018 + 0x20 * n
/-- [31:0] RO, reset 0x0000_0000, immediately (R447). RING_CNTn: entries written by the producer; wraps -/
abbrev F.RING_CNT_entries (n : Nat) : Fld := ⟨0x110018 + 0x20 * n, 0, 32⟩
/-- RING_LVL (R446 15_host_interface.md). -/
abbrev R.RING_LVL (n : Nat) : Nat := 0x11001C + 0x20 * n
/-- [12:0] RO, reset 0x0000, immediately (R447). RING_LVLn: present count -/
abbrev F.RING_LVL_level (n : Nat) : Fld := ⟨0x11001C + 0x20 * n, 0, 13⟩

/-! ### Block 0x0012_0000 -/

/-- EVT_CTL (R446 15_host_interface.md). -/
abbrev R.EVT_CTL : Nat := 0x120000
/-- [0:0] RW, MW, reset 0, immediately (R447). EVT_CTL: R444 -/
abbrev F.EVT_CTL_alert_en : Fld := ⟨0x120000, 0, 1⟩
/-- EVT_STS (R446 15_host_interface.md). -/
abbrev R.EVT_STS : Nat := 0x120004
/-- [8:0] RO, reset 0, immediately (R447). EVT_STS: records now queued, 0–256 -/
abbrev F.EVT_STS_queue : Fld := ⟨0x120004, 0, 9⟩
/-- [9:9] W1C, reset 0, immediately (R447). EVT_STS: a raise found the queue full -/
abbrev F.EVT_STS_queue_full : Fld := ⟨0x120004, 9, 1⟩
/-- EVT_PEND (R446 15_host_interface.md). -/
abbrev R.EVT_PEND (n : Nat) : Nat := 0x120008 + 4 * n
/-- [31:0] W1C, reset 0x0000_0000, immediately (R447). EVT_PEND0, EVT_PEND1: bit j of EVT_PENDk is source 32k + j -/
abbrev F.EVT_PEND_pend (n : Nat) : Fld := ⟨0x120008 + 4 * n, 0, 32⟩
/-- EVT_LOST (R446 15_host_interface.md). -/
abbrev R.EVT_LOST : Nat := 0x120010
/-- [31:0] RC, reset 0x0000_0000, immediately (R447). EVT_LOST: R441; saturates -/
abbrev F.EVT_LOST_lost : Fld := ⟨0x120010, 0, 32⟩
/-- EVT_VEC (R446 15_host_interface.md). -/
abbrev R.EVT_VEC (n : Nat) : Nat := 0x120040 + 4 * n
/-- [0:0] RO, reset 0, immediately (R447). EVT_VECv: R443 -/
abbrev F.EVT_VEC_level (n : Nat) : Fld := ⟨0x120040 + 4 * n, 0, 1⟩
/-- [1:1] WO, reset 0, immediately (R447). EVT_VECv: R443 -/
abbrev F.EVT_VEC_ack (n : Nat) : Fld := ⟨0x120040 + 4 * n, 1, 1⟩
/-- [31:16] RC, reset 0x0000, immediately (R447). EVT_VECv: messages sent; saturates -/
abbrev F.EVT_VEC_sent (n : Nat) : Fld := ⟨0x120040 + 4 * n, 16, 16⟩
/-- EVT_SRC (R446 15_host_interface.md). -/
abbrev R.EVT_SRC (n : Nat) : Nat := 0x120080 + 4 * n
/-- [3:0] RW, MW, reset 0x0, immediately (R447). EVT_SRCs: MSI-X vector -/
abbrev F.EVT_SRC_vector (n : Nat) : Fld := ⟨0x120080 + 4 * n, 0, 4⟩
/-- [4:4] RW, MW, reset 0, immediately (R447). EVT_SRCs: R443 -/
abbrev F.EVT_SRC_vec_en (n : Nat) : Fld := ⟨0x120080 + 4 * n, 4, 1⟩
/-- [5:5] RW, MW, reset 0, immediately (R447). EVT_SRCs: R441 -/
abbrev F.EVT_SRC_log_en (n : Nat) : Fld := ⟨0x120080 + 4 * n, 5, 1⟩
/-- [6:6] RW, MW, reset 0, immediately (R447). EVT_SRCs: R444 -/
abbrev F.EVT_SRC_alert_en (n : Nat) : Fld := ⟨0x120080 + 4 * n, 6, 1⟩
/-- [31:16] RO, reset 0x0000, immediately (R447). EVT_SRCs: raises; wraps -/
abbrev F.EVT_SRC_count (n : Nat) : Fld := ⟨0x120080 + 4 * n, 16, 16⟩
/-- EVT_FR (R446 15_host_interface.md). -/
abbrev R.EVT_FR (n : Nat) : Nat := 0x120180 + 4 * n
/-- [31:0] RO, reset per register, immediately (R447). EVT_FRm: R445 -/
abbrev F.EVT_FR_value (n : Nat) : Fld := ⟨0x120180 + 4 * n, 0, 32⟩
/-- EVT_TRC_CTL (R446 15_host_interface.md). -/
abbrev R.EVT_TRC_CTL : Nat := 0x1201E0
/-- [0:0] RW, MW, reset 0, immediately (R447). EVT_TRC_CTL: R438 -/
abbrev F.EVT_TRC_CTL_en : Fld := ⟨0x1201E0, 0, 1⟩
/-- [15:8] RW, MW, reset 0x00, immediately (R447). EVT_TRC_CTL: every (value + 1)-th tick -/
abbrev F.EVT_TRC_CTL_div_m1 : Fld := ⟨0x1201E0, 8, 8⟩
/-- EVT_TRC_SEL (R446 15_host_interface.md). -/
abbrev R.EVT_TRC_SEL (n : Nat) : Nat := 0x1201E4 + 4 * n
/-- [13:2] RW, MW, reset 0x000, immediately (R447). EVT_TRC_SELk: headbox word address / 4 -/
abbrev F.EVT_TRC_SEL_addr (n : Nat) : Fld := ⟨0x1201E4 + 4 * n, 2, 12⟩
/-- [15:15] RW, MW, reset 0, immediately (R447). EVT_TRC_SELk: word k + 1 of the entry is sampled -/
abbrev F.EVT_TRC_SEL_sel_en (n : Nat) : Fld := ⟨0x1201E4 + 4 * n, 15, 1⟩

/-! ### Block 0x0013_0000 -/

/-- SAFE_STS (R418 14_safety.md). -/
abbrev R.SAFE_STS : Nat := 0x130000
/-- [2:0] RO, reset 0, immediately (R419). SAFE_STS: 0 INIT, 1 NO_PARAM, 2 UNCONFIRMED, 3 RUN, 4 LOCKOUT (R389) -/
abbrev F.SAFE_STS_state : Fld := ⟨0x130000, 0, 3⟩
/-- [7:4] RO, reset 0, immediately (R419). SAFE_STS: device lockout cause (R407); 0 = none -/
abbrev F.SAFE_STS_lock_cause : Fld := ⟨0x130000, 4, 4⟩
/-- [11:8] RO, reset 0, immediately (R419). SAFE_STS: R410; 0 = none -/
abbrev F.SAFE_STS_perr : Fld := ⟨0x130000, 8, 4⟩
/-- [12:12] RO, reset 0, immediately (R419). SAFE_STS: gate-enable net active -/
abbrev F.SAFE_STS_gen : Fld := ⟨0x130000, 12, 1⟩
/-- [13:13] RO, reset 0, immediately (R419). SAFE_STS: safety core permit word fresh (R387) -/
abbrev F.SAFE_STS_core_ok : Fld := ⟨0x130000, 13, 1⟩
/-- [14:14] RO, reset 0, immediately (R419). SAFE_STS: safety die permit word fresh -/
abbrev F.SAFE_STS_die_ok : Fld := ⟨0x130000, 14, 1⟩
/-- [15:15] RO, reset 1, immediately (R419). SAFE_STS: SFAULT_N is low -/
abbrev F.SAFE_STS_sfault : Fld := ⟨0x130000, 15, 1⟩
/-- SAFE_FLAGS (R418 14_safety.md). -/
abbrev R.SAFE_FLAGS : Nat := 0x130004
/-- [7:0] W1C, reset 0, immediately (R419). SAFE_FLAGS: bit 0 reset_bad, 1 reset_rej, 2 load_rej, 3 confirm_bad, 4 nip_once, 5 tp_fault_seen, 6 readback_seen, 7 clk_seen -/
abbrev F.SAFE_FLAGS_flags : Fld := ⟨0x130004, 0, 8⟩
/-- SAFE_IN (R418 14_safety.md). -/
abbrev R.SAFE_IN : Nat := 0x130008
/-- [23:0] RO, reset 0x00_0000, immediately (R419). SAFE_IN: filtered SIN0–SIN23 -/
abbrev F.SAFE_IN_image : Fld := ⟨0x130008, 0, 24⟩
/-- SAFE_INFLT (R418 14_safety.md). -/
abbrev R.SAFE_INFLT : Nat := 0x13000C
/-- [23:0] RO, reset 0x00_0000, immediately (R419). SAFE_INFLT: test-pulse fault per input (R393) -/
abbrev F.SAFE_INFLT_tp_fault : Fld := ⟨0x13000C, 0, 24⟩
/-- SAFE_OUT (R418 14_safety.md). -/
abbrev R.SAFE_OUT : Nat := 0x130010
/-- [7:0] RO, reset 0x00, immediately (R419). SAFE_OUT: levels of STOA0–STOA7 -/
abbrev F.SAFE_OUT_stoa : Fld := ⟨0x130010, 0, 8⟩
/-- [15:8] RO, reset 0x00, immediately (R419). SAFE_OUT: levels of STOB0–STOB7 -/
abbrev F.SAFE_OUT_stob : Fld := ⟨0x130010, 8, 8⟩
/-- [17:16] RO, reset 0, immediately (R419). SAFE_OUT: levels of SBCA0–SBCA1 -/
abbrev F.SAFE_OUT_sbca : Fld := ⟨0x130010, 16, 2⟩
/-- [19:18] RO, reset 0, immediately (R419). SAFE_OUT: levels of SBCB0–SBCB1 -/
abbrev F.SAFE_OUT_sbcb : Fld := ⟨0x130010, 18, 2⟩
/-- [20:20] RO, reset 0, immediately (R419). SAFE_OUT: gate-enable net as the main die reads it -/
abbrev F.SAFE_OUT_net : Fld := ⟨0x130010, 20, 1⟩
/-- [31:24] RO, reset 0x00, immediately (R419). SAFE_OUT: levels of TPO0–TPO7 -/
abbrev F.SAFE_OUT_tpo : Fld := ⟨0x130010, 24, 8⟩
/-- SAFE_PCRC (R418 14_safety.md). -/
abbrev R.SAFE_PCRC : Nat := 0x130014
/-- [31:0] RO, reset 0x0000_0000, immediately (R419). SAFE_PCRC: CRC of the accepted set (R411); 0 in NO_PARAM -/
abbrev F.SAFE_PCRC_crc : Fld := ⟨0x130014, 0, 32⟩
/-- SAFE_CONFIRM (R418 14_safety.md). -/
abbrev R.SAFE_CONFIRM : Nat := 0x130018
/-- [31:0] RW, reset 0x0000_0000, immediately (R419). SAFE_CONFIRM: one write after the commissioning key; reads the confirmed value in force -/
abbrev F.SAFE_CONFIRM_value : Fld := ⟨0x130018, 0, 32⟩
/-- SAFE_COMM_KEY (R418 14_safety.md). -/
abbrev R.SAFE_COMM_KEY : Nat := 0x13001C
/-- [15:0] WO, reset 0x0000, immediately (R419). SAFE_COMM_KEY: 0xC3A5 arms SAFE_CONFIRM for one write -/
abbrev F.SAFE_COMM_KEY_key : Fld := ⟨0x13001C, 0, 16⟩
/-- SAFE_PLOAD (R418 14_safety.md). -/
abbrev R.SAFE_PLOAD : Nat := 0x130020
/-- [0:0] WO, KG, SG, reset 0, immediately (R419). SAFE_PLOAD: R410 -/
abbrev F.SAFE_PLOAD_start : Fld := ⟨0x130020, 0, 1⟩
/-- [1:1] RO, reset 0, immediately (R419). SAFE_PLOAD: load being checked -/
abbrev F.SAFE_PLOAD_busy : Fld := ⟨0x130020, 1, 1⟩
/-- [20:5] RW, KG, reset 0, immediately (R419). SAFE_PLOAD: data-memory byte address / 32 -/
abbrev F.SAFE_PLOAD_addr : Fld := ⟨0x130020, 5, 16⟩
/-- SAFE_REQ (R418 14_safety.md). -/
abbrev R.SAFE_REQ : Nat := 0x130024
/-- [1:0] RW, MW, reset 0, immediately (R419). SAFE_REQ: host release request, SBC0–SBC1 (R404) -/
abbrev F.SAFE_REQ_rel_host : Fld := ⟨0x130024, 0, 2⟩
/-- [3:2] RW, MW, reset 0, immediately (R419). SAFE_REQ: host unlock request -/
abbrev F.SAFE_REQ_unlock_host : Fld := ⟨0x130024, 2, 2⟩
/-- [5:4] RO, reset 0, immediately (R419). SAFE_REQ: release requests from axes -/
abbrev F.SAFE_REQ_rel_axis : Fld := ⟨0x130024, 4, 2⟩
/-- [7:6] RO, reset 0, immediately (R419). SAFE_REQ: release requests in force -/
abbrev F.SAFE_REQ_rel_force : Fld := ⟨0x130024, 6, 2⟩
/-- SAFE_NIP (R418 14_safety.md). -/
abbrev R.SAFE_NIP : Nat := 0x130028
/-- [15:0] RO, reset 0x0000, immediately (R419). SAFE_NIP: nip checks made; wraps -/
abbrev F.SAFE_NIP_checks : Fld := ⟨0x130028, 0, 16⟩
/-- [23:16] RC, reset 0x00, immediately (R419). SAFE_NIP: single mismatches; saturates -/
abbrev F.SAFE_NIP_mismatches : Fld := ⟨0x130028, 16, 8⟩
/-- [24:24] RO, reset 0, immediately (R419). SAFE_NIP: the last check mismatched -/
abbrev F.SAFE_NIP_last : Fld := ⟨0x130028, 24, 1⟩
/-- SAFE_RESET (R418 14_safety.md). -/
abbrev R.SAFE_RESET : Nat := 0x13002C
/-- [11:0] RO, reset 0x000, immediately (R419). SAFE_RESET: width of the last pulse in ticks; saturates at 4,095 -/
abbrev F.SAFE_RESET_width : Fld := ⟨0x13002C, 0, 12⟩
/-- [12:12] RO, reset 0, immediately (R419). SAFE_RESET: filtered SRESET -/
abbrev F.SAFE_RESET_level : Fld := ⟨0x13002C, 12, 1⟩
/-- [31:16] RO, reset 0x0000, immediately (R419). SAFE_RESET: valid pulses; wraps -/
abbrev F.SAFE_RESET_accepted : Fld := ⟨0x13002C, 16, 16⟩
/-- SAFE_PAIR (R418 14_safety.md). -/
abbrev R.SAFE_PAIR (n : Nat) : Nat := 0x130030 + 4 * n
/-- [2:0] RO, reset 0, immediately (R419). SAFE_PAIRn: 0 OFF, 1 RUN, 2 STOP, 3 LOCKOUT -/
abbrev F.SAFE_PAIR_state (n : Nat) : Fld := ⟨0x130030 + 4 * n, 0, 3⟩
/-- [3:3] RO, reset 0, immediately (R419). SAFE_PAIRn: channel A in run state -/
abbrev F.SAFE_PAIR_a_run (n : Nat) : Fld := ⟨0x130030 + 4 * n, 3, 1⟩
/-- [4:4] RO, reset 0, immediately (R419). SAFE_PAIRn: channel B in run state -/
abbrev F.SAFE_PAIR_b_run (n : Nat) : Fld := ⟨0x130030 + 4 * n, 4, 1⟩
/-- [5:5] RO, reset 0, immediately (R419). SAFE_PAIRn: channels disagree -/
abbrev F.SAFE_PAIR_disagree (n : Nat) : Fld := ⟨0x130030 + 4 * n, 5, 1⟩
/-- [6:6] RO, reset 0, immediately (R419). SAFE_PAIRn: R395 -/
abbrev F.SAFE_PAIR_passed_stop (n : Nat) : Fld := ⟨0x130030 + 4 * n, 6, 1⟩
/-- [7:7] RO, reset 0, immediately (R419). SAFE_PAIRn: a channel has a test-pulse fault -/
abbrev F.SAFE_PAIR_tp_fault (n : Nat) : Fld := ⟨0x130030 + 4 * n, 7, 1⟩
/-- [20:8] RO, reset 0, immediately (R419). SAFE_PAIRn: discrepancy timer, ticks (R394) -/
abbrev F.SAFE_PAIR_timer (n : Nat) : Fld := ⟨0x130030 + 4 * n, 8, 13⟩
/-- [23:21] RO, reset 0, immediately (R419). SAFE_PAIRn: lockout cause (R407); 0 = none -/
abbrev F.SAFE_PAIR_cause (n : Nat) : Fld := ⟨0x130030 + 4 * n, 21, 3⟩
/-- [31:24] RC, reset 0x00, immediately (R419). SAFE_PAIRn: disagreements cleared in time; saturates -/
abbrev F.SAFE_PAIR_disc_cnt (n : Nat) : Fld := ⟨0x130030 + 4 * n, 24, 8⟩
/-- SAFE_STO (R418 14_safety.md). -/
abbrev R.SAFE_STO (n : Nat) : Nat := 0x130060 + 4 * n
/-- [0:0] RO, reset 0, immediately (R419). SAFE_STOn: output on (R400) -/
abbrev F.SAFE_STO_on (n : Nat) : Fld := ⟨0x130060 + 4 * n, 0, 1⟩
/-- [1:1] RO, reset 0, immediately (R419). SAFE_STOn: STOAn commanded on -/
abbrev F.SAFE_STO_a (n : Nat) : Fld := ⟨0x130060 + 4 * n, 1, 1⟩
/-- [2:2] RO, reset 0, immediately (R419). SAFE_STOn: STOBn commanded on -/
abbrev F.SAFE_STO_b (n : Nat) : Fld := ⟨0x130060 + 4 * n, 2, 1⟩
/-- [3:3] RO, reset 0, immediately (R419). SAFE_STOn: SS1 timer running -/
abbrev F.SAFE_STO_ss1 (n : Nat) : Fld := ⟨0x130060 + 4 * n, 3, 1⟩
/-- [4:4] RO, reset 0, immediately (R419). SAFE_STOn: read-back fault (R405) -/
abbrev F.SAFE_STO_readback (n : Nat) : Fld := ⟨0x130060 + 4 * n, 4, 1⟩
/-- [31:16] RO, reset 0x0000, immediately (R419). SAFE_STOn: SS1 time left, 10 ms counts -/
abbrev F.SAFE_STO_ss1_left (n : Nat) : Fld := ⟨0x130060 + 4 * n, 16, 16⟩
/-- SAFE_SBC (R418 14_safety.md). -/
abbrev R.SAFE_SBC (n : Nat) : Nat := 0x130080 + 4 * n
/-- [0:0] RO, reset 0, immediately (R419). SAFE_SBCm: both balls high -/
abbrev F.SAFE_SBC_released (n : Nat) : Fld := ⟨0x130080 + 4 * n, 0, 1⟩
/-- [1:1] RO, reset 0, immediately (R419). SAFE_SBCm: SBCAm, SBCBm commanded high -/
abbrev F.SAFE_SBC_a (n : Nat) : Fld := ⟨0x130080 + 4 * n, 1, 1⟩
/-- [2:2] RO, reset 0, immediately (R419). SAFE_SBCm: SBCAm, SBCBm commanded high -/
abbrev F.SAFE_SBC_b (n : Nat) : Fld := ⟨0x130080 + 4 * n, 2, 1⟩
/-- [3:3] RO, reset 0, immediately (R419). SAFE_SBCm: release or unlock request in force -/
abbrev F.SAFE_SBC_requested (n : Nat) : Fld := ⟨0x130080 + 4 * n, 3, 1⟩
/-- [4:4] RO, reset 0, immediately (R419). SAFE_SBCm: read-back fault -/
abbrev F.SAFE_SBC_readback (n : Nat) : Fld := ⟨0x130080 + 4 * n, 4, 1⟩
/-- SAFE_LAST (R418 14_safety.md). -/
abbrev R.SAFE_LAST : Nat := 0x130088
/-- [7:0] RO, reset 0x00, immediately (R419). SAFE_LAST: outputs of the latest EV0 -/
abbrev F.SAFE_LAST_outputs : Fld := ⟨0x130088, 0, 8⟩
/-- [11:8] RO, reset 0, immediately (R419). SAFE_LAST: cause of the latest EV0 (R407) -/
abbrev F.SAFE_LAST_cause : Fld := ⟨0x130088, 8, 4⟩
/-- [15:12] RO, reset 0, immediately (R419). SAFE_LAST: pair or connection -/
abbrev F.SAFE_LAST_source : Fld := ⟨0x130088, 12, 4⟩
/-- [31:16] RO, reset 0x0000, immediately (R419). SAFE_LAST: EV0 decisions; wraps -/
abbrev F.SAFE_LAST_count : Fld := ⟨0x130088, 16, 16⟩
/-- SAFE_CLK (R418 14_safety.md). -/
abbrev R.SAFE_CLK : Nat := 0x13008C
/-- [15:0] RO, reset 0x0000, immediately (R419). SAFE_CLK: safety die oscillator measured by the main die, kHz -/
abbrev F.SAFE_CLK_sosc_khz : Fld := ⟨0x13008C, 0, 16⟩
/-- [16:16] RO, reset 0, immediately (R419). SAFE_CLK: crystal on SXIN/SXOUT in use -/
abbrev F.SAFE_CLK_xtal : Fld := ⟨0x13008C, 16, 1⟩
/-- [17:17] RO, reset 0, immediately (R419). SAFE_CLK: R388 -/
abbrev F.SAFE_CLK_fault : Fld := ⟨0x13008C, 17, 1⟩
/-- SAFE_CONN (R418 14_safety.md). -/
abbrev R.SAFE_CONN (n : Nat) : Nat := 0x130090 + 4 * n
/-- [1:0] RO, reset 0, immediately (R419). SAFE_CONNc: 0 unused, 1 FAILSAFE, 2 VALID -/
abbrev F.SAFE_CONN_state (n : Nat) : Fld := ⟨0x130090 + 4 * n, 0, 2⟩
/-- [2:2] RO, reset 0, immediately (R419). SAFE_CONNc: run bit in force (consumer) -/
abbrev F.SAFE_CONN_run (n : Nat) : Fld := ⟨0x130090 + 4 * n, 2, 1⟩
/-- [15:8] RC, reset 0x00, immediately (R419). SAFE_CONNc: rejected frames; saturates -/
abbrev F.SAFE_CONN_rejected (n : Nat) : Fld := ⟨0x130090 + 4 * n, 8, 8⟩
/-- [31:16] RO, reset 0x0000, immediately (R419). SAFE_CONNc: last accepted or sent sequence number -/
abbrev F.SAFE_CONN_seq (n : Nat) : Fld := ⟨0x130090 + 4 * n, 16, 16⟩

/-! ### Block 0x0014_0000 -/

/-- SEC_STS (R464 16_lifecycle_security.md). -/
abbrev R.SEC_STS : Nat := 0x140000
/-- [7:0] RC, reset 0x00, immediately (R464). SEC_STS: EV59 raises since last read; saturates -/
abbrev F.SEC_STS_alerts : Fld := ⟨0x140000, 0, 8⟩
/-- SEC_ALERT (R464 16_lifecycle_security.md). -/
abbrev R.SEC_ALERT : Nat := 0x140004
/-- [2:0] RO, reset 0, immediately (R464). SEC_ALERT: latest EV59 cause: 1 BOOT, 2 TOKEN, 3 KEEPER, 4 JTAG, 5 OTP; also EV59 payload [2:0] -/
abbrev F.SEC_ALERT_cause : Fld := ⟨0x140004, 0, 3⟩
/-- SEC_NONCE (R464 16_lifecycle_security.md). -/
abbrev R.SEC_NONCE (n : Nat) : Nat := 0x140008 + 4 * n
/-- [31:0] RO, reset random, immediately (R464). SEC_NONCE0–3: R456 -/
abbrev F.SEC_NONCE_nonce (n : Nat) : Fld := ⟨0x140008 + 4 * n, 0, 32⟩
/-- SEC_UID (R464 16_lifecycle_security.md). -/
abbrev R.SEC_UID (n : Nat) : Nat := 0x140018 + 4 * n
/-- [31:0] RO, reset from OTP, immediately (R464). SEC_UID0–3: device identity -/
abbrev F.SEC_UID_uid (n : Nat) : Fld := ⟨0x140018 + 4 * n, 0, 32⟩
/-- SEC_ERASE (R464 16_lifecycle_security.md). -/
abbrev R.SEC_ERASE : Nat := 0x140028
/-- [31:0] RO, reset 0x0000_0000, immediately (R464). SEC_ERASE: R457 step 4 -/
abbrev F.SEC_ERASE_confirm : Fld := ⟨0x140028, 0, 32⟩
/-- SEC_TOKEN_STS (R464 16_lifecycle_security.md). -/
abbrev R.SEC_TOKEN_STS : Nat := 0x14002C
/-- [2:0] RO, reset 0, immediately (R464). SEC_TOKEN_STS: R457 -/
abbrev F.SEC_TOKEN_STS_step : Fld := ⟨0x14002C, 0, 3⟩
/-- [6:4] RO, reset 0, immediately (R464). SEC_TOKEN_STS: codes 1–7 of R457; 0 = none -/
abbrev F.SEC_TOKEN_STS_result : Fld := ⟨0x14002C, 4, 3⟩
/-- SEC_TOKEN (R464 16_lifecycle_security.md). -/
abbrev R.SEC_TOKEN : Nat := 0x140030
/-- [0:0] WO, KG, reset 0, immediately (R464). SEC_TOKEN: R457 -/
abbrev F.SEC_TOKEN_go : Fld := ⟨0x140030, 0, 1⟩
/-- [20:5] RW, KG, reset 0, immediately (R464). SEC_TOKEN: byte address / 32 -/
abbrev F.SEC_TOKEN_addr : Fld := ⟨0x140030, 5, 16⟩
/-- DBG_CTL (R464 16_lifecycle_security.md). -/
abbrev R.DBG_CTL : Nat := 0x140040
/-- [0:0] RW, MW, KG, reset 0, immediately (R464). DBG_CTL: 0 drives every TMX ball low -/
abbrev F.DBG_CTL_tmx_en : Fld := ⟨0x140040, 0, 1⟩
/-- DBG_STS (R464 16_lifecycle_security.md). -/
abbrev R.DBG_STS : Nat := 0x140044
/-- [0:0] W1C, reset 0, immediately (R464). DBG_STS: R460 -/
abbrev F.DBG_STS_halt_refused : Fld := ⟨0x140044, 0, 1⟩
/-- [1:1] W1C, reset 0, immediately (R464). DBG_STS: R459 -/
abbrev F.DBG_STS_tmx_denied : Fld := ⟨0x140044, 1, 1⟩
/-- [2:2] RO, reset 0, immediately (R464). DBG_STS: a halt holds -/
abbrev F.DBG_STS_halted : Fld := ⟨0x140044, 2, 1⟩
/-- DBG_TMX_SEL (R464 16_lifecycle_security.md). -/
abbrev R.DBG_TMX_SEL (n : Nat) : Nat := 0x140048 + 4 * n
/-- [7:0] RW, MW, reset 0x00, immediately (R464). DBG_TMX_SELk: R459 -/
abbrev F.DBG_TMX_SEL_code (n : Nat) : Fld := ⟨0x140048 + 4 * n, 0, 8⟩
/-- GPIO_IN (R498 18_register_map.md). -/
abbrev R.GPIO_IN : Nat := 0x140100
/-- [15:0] RO, reset 0x0000, immediately (R498). GPIO_IN: filtered level of GPIO0–GPIO15 -/
abbrev F.GPIO_IN_level : Fld := ⟨0x140100, 0, 16⟩
/-- GPIO_OUT (R498 18_register_map.md). -/
abbrev R.GPIO_OUT : Nat := 0x140104
/-- [15:0] RW, MW, reset 0x0000, immediately (R498). GPIO_OUT: level driven where the host owns the GPIO -/
abbrev F.GPIO_OUT_out : Fld := ⟨0x140104, 0, 16⟩
/-- GPIO_OE (R498 18_register_map.md). -/
abbrev R.GPIO_OE : Nat := 0x140108
/-- [15:0] RW, MW, reset 0x0000, immediately (R498). GPIO_OE: 1 drives the ball where the host owns it -/
abbrev F.GPIO_OE_oe : Fld := ⟨0x140108, 0, 16⟩
/-- GPIO_OWN0 (R498 18_register_map.md). -/
abbrev R.GPIO_OWN0 : Nat := 0x14010C
/-- [31:0] RO, reset 0x0000_0000, immediately (R498). GPIO_OWN0, GPIO_OWN1: 4 bits per GPIO, GPIOn of OWN0 in [4n+3:4n], of OWN1 at n − 8; codes of R499 -/
abbrev F.GPIO_OWN0_owner : Fld := ⟨0x14010C, 0, 32⟩
/-- GPIO_OWN1 (R498 18_register_map.md). -/
abbrev R.GPIO_OWN1 : Nat := 0x140110
/-- [31:0] RO, reset 0x0000_0000, immediately (R498). GPIO_OWN0, GPIO_OWN1: 4 bits per GPIO, GPIOn of OWN0 in [4n+3:4n], of OWN1 at n − 8; codes of R499 -/
abbrev F.GPIO_OWN1_owner : Fld := ⟨0x140110, 0, 32⟩
/-- GPIO_RISE_EN (R498 18_register_map.md). -/
abbrev R.GPIO_RISE_EN : Nat := 0x140114
/-- [15:0] RW, MW, reset 0x0000, immediately (R498). GPIO_RISE_EN: EV61 on a rising filtered edge -/
abbrev F.GPIO_RISE_EN_rise : Fld := ⟨0x140114, 0, 16⟩
/-- GPIO_FALL_EN (R498 18_register_map.md). -/
abbrev R.GPIO_FALL_EN : Nat := 0x140118
/-- [15:0] RW, MW, reset 0x0000, immediately (R498). GPIO_FALL_EN: EV61 on a falling filtered edge -/
abbrev F.GPIO_FALL_EN_fall : Fld := ⟨0x140118, 0, 16⟩
/-- GPIO_EDGE (R498 18_register_map.md). -/
abbrev R.GPIO_EDGE : Nat := 0x14011C
/-- [15:0] W1C, reset 0x0000, immediately (R498). GPIO_EDGE: an enabled edge was seen -/
abbrev F.GPIO_EDGE_edge : Fld := ⟨0x14011C, 0, 16⟩
/-- GPIO_FILT (R498 18_register_map.md). -/
abbrev R.GPIO_FILT : Nat := 0x140120
/-- [7:0] RW, MW, reset 0x00, immediately (R498). GPIO_FILT: filter, samples − 1 -/
abbrev F.GPIO_FILT_filt : Fld := ⟨0x140120, 0, 8⟩
/-- GPIO_CONFLICT (R498 18_register_map.md). -/
abbrev R.GPIO_CONFLICT : Nat := 0x140124
/-- [15:0] W1C, reset 0x0000, immediately (R498). GPIO_CONFLICT: R499 -/
abbrev F.GPIO_CONFLICT_conflict : Fld := ⟨0x140124, 0, 16⟩
/-- GPIO_STAMP_LO (R498 18_register_map.md). -/
abbrev R.GPIO_STAMP_LO : Nat := 0x140128
/-- [31:0] RO, reset 0x0000_0000, immediately (R498). GPIO_STAMP_LO, _HI: stamp [31:0], [63:32] of the latest EV61; a read of LO latches HI as R31 lays down -/
abbrev F.GPIO_STAMP_LO_stamp : Fld := ⟨0x140128, 0, 32⟩
/-- GPIO_STAMP_HI (R498 18_register_map.md). -/
abbrev R.GPIO_STAMP_HI : Nat := 0x14012C
/-- [31:0] RO, reset 0x0000_0000, immediately (R498). GPIO_STAMP_LO, _HI: stamp [31:0], [63:32] of the latest EV61; a read of LO latches HI as R31 lays down -/
abbrev F.GPIO_STAMP_HI_stamp : Fld := ⟨0x14012C, 0, 32⟩
/-- GPIO_EDGE_CNT (R498 18_register_map.md). -/
abbrev R.GPIO_EDGE_CNT : Nat := 0x140130
/-- [31:0] RC, reset 0x0000_0000, immediately (R498). GPIO_EDGE_CNT: EV61 raises; saturates -/
abbrev F.GPIO_EDGE_CNT_count : Fld := ⟨0x140130, 0, 32⟩

end Sys2Proof.Machine
end

