-- ==== Sys2Proof/Machine/RegMap.lean ====
section
/-! DEFINITION. The register map: one `RegSpec` per register kind of the spec's register tables, with the access
masks of R9 and the reset value, block by block (R491, R492, and the offset and field tables of each chapter). -/

namespace Sys2Proof.Machine

/-- One register kind. `addr` is the BAR0 address of instance 0; `dims` gives the repetition as (count, stride)
pairs, the larger stride first. The masks name the bits that carry each access code of R9 (`rw` RW, `w1c` W1C,
`rc` RC, `wo` WO, `mw` MW, `kg` KG, `sg` SG, `co` CO) and the moments of R11 other than "immediately"
(`ne` at next enable, `rl` at reload). -/
structure RegSpec where
  addr : Nat
  dims : List (Nat × Nat)
  rw : Nat
  w1c : Nat
  rc : Nat
  wo : Nat
  mw : Nat
  kg : Nat
  sg : Nat
  co : Nat
  ne : Nat
  rl : Nat
  reset : Nat
  deriving DecidableEq, Repr

/-- Does offset `d` from instance 0 name an instance of a register repeated as `dims` says (R492)? -/
def dimsHit : List (Nat × Nat) → Nat → Bool
  | [], d => d == 0
  | (count, stride) :: rest, d => d / stride < count && dimsHit rest (d % stride)

/-- Is `a` the address of an instance of this register kind? -/
def RegSpec.hit (r : RegSpec) (a : Nat) : Bool := r.addr ≤ a && dimsHit r.dims (a - r.addr)

/-- The register kind at address `a` in one block's table. -/
def findSpec : List RegSpec → Nat → Option RegSpec
  | [], _ => none
  | r :: rest, a => if r.hit a then some r else findSpec rest a

/-- Registers of block 0x0000_0000 (DEV). -/
def regsDev : List RegSpec := [
  ⟨0, [], 0, 0, 0, 0, 0, 0, 0, 0, 0, 0, 0xB0⟩, -- DEV_ID (R495 18_register_map.md)
  ⟨4, [], 0, 0, 0, 0, 0, 0, 0, 0, 0, 0, 0⟩, -- DEV_VARIANT (R495 18_register_map.md)
  ⟨8, [], 0, 0, 0, 0, 0, 0, 0, 0, 0, 0, 0⟩, -- DEV_IDCODE (R495 18_register_map.md)
  ⟨0xC, [], 0, 0, 0, 0, 0, 0, 0, 0, 0, 0, 0x1F4C⟩, -- DEV_PCI_ID (R495 18_register_map.md)
  ⟨0x10, [], 0, 0, 0, 0xFFFF, 0, 0, 0, 0, 0, 0, 0⟩, -- DEV_LOCK_KEY (R495 18_register_map.md)
  ⟨0x14, [], 0, 0xF0, 0, 0, 0, 0, 0, 0, 0, 0, 0⟩, -- DEV_LOCK_STS (R495 18_register_map.md)
  ⟨0x18, [], 0, 0, 0, 0, 0, 0, 0, 0, 0, 0, 0⟩, -- DEV_SVN (R495 18_register_map.md)
  ⟨0x20, [], 0, 0, 0, 0, 0, 0, 0, 0, 0, 0, 0⟩, -- DEV_LC (R495 18_register_map.md)
  ⟨0x24, [], 0, 0, 0, 0x300, 0, 0, 0, 0, 0, 0, 0⟩, -- DEV_BOOT (R495 18_register_map.md)
  ⟨0x28, [], 0x1FFFFF, 0, 0, 0, 0, 0, 0, 0, 0, 0, 0⟩ -- DEV_BOOT_MAN (R495 18_register_map.md)
]

/-- Registers of block 0x0001_0000 (CLK). -/
def regsClk : List RegSpec := [
  ⟨0x10000, [], 0, 0, 0, 0, 0, 0, 0, 0, 0, 0, 0⟩, -- CLK_STS (R489 17_power_pins_ratings.md)
  ⟨0x10004, [], 0, 0x3F, 0, 0, 0, 0, 0, 0, 0, 0, 0⟩, -- CLK_RST_CAUSE (R489 17_power_pins_ratings.md)
  ⟨0x10008, [], 0, 0x3F00, 0, 0, 0, 0, 0, 0, 0, 0, 0⟩, -- CLK_SUP_STS (R489 17_power_pins_ratings.md)
  ⟨0x1000C, [], 0, 0x2000, 0, 0, 0, 0, 0, 0, 0, 0, 0⟩, -- CLK_TEMP (R489 17_power_pins_ratings.md)
  ⟨0x10010, [], 0xFF07FF, 0, 0, 0, 0xFF07FF, 0, 0, 0, 0, 0, 0x1402CC⟩, -- CLK_TEMP_CFG (R489 17_power_pins_ratings.md)
  ⟨0x10020, [(6, 4)], 0, 0, 0, 0, 0, 0, 0, 0, 0, 0, 0⟩ -- CLK_SUP (R489 17_power_pins_ratings.md)
]

/-- Registers of block 0x0002_0000 (TIME). -/
def regsTime : List RegSpec := [
  ⟨0x20000, [], 0, 0, 0, 0, 0, 0, 0, 0, 0, 0, 0⟩, -- TIME_NOW_LO (R39 01_drive_model.md)
  ⟨0x20004, [], 0, 0, 0, 0, 0, 0, 0, 0, 0, 0, 0⟩, -- TIME_NOW_HI (R39 01_drive_model.md)
  ⟨0x20010, [], 0x11, 0, 0, 0, 0x11, 1, 1, 0, 0, 0, 0⟩, -- TIME_TICK_CTL (R39 01_drive_model.md)
  ⟨0x20014, [], 0, 6, 0, 0, 0, 0, 0, 0, 0, 0, 0⟩, -- TIME_TICK_STS (R39 01_drive_model.md)
  ⟨0x20018, [], 0xFFFF, 0, 0, 0, 0xFFFF, 0xFFFF, 0xFFFF, 0, 0xFFFF, 0, 0x1387⟩, -- TIME_TICK_PERIOD (R39 01_drive_model.md)
  ⟨0x2001C, [], 0xFFFF, 0, 0, 0, 0xFFFF, 0xFFFF, 0xFFFF, 0, 0xFFFF, 0, 0x5DC⟩, -- TIME_COUCH_LEAD (R39 01_drive_model.md)
  ⟨0x20020, [], 0, 0, 0, 0, 0, 0, 0, 0, 0, 0, 0⟩, -- TIME_REQ_LEAD (R39 01_drive_model.md)
  ⟨0x20024, [], 0, 0, 0, 0, 0, 0, 0, 0, 0, 0, 0⟩, -- TIME_TICK_COUNT (R39 01_drive_model.md)
  ⟨0x20028, [], 0xFFFFFFFF, 0, 0, 0, 0, 0xFFFFFFFF, 0xFFFFFFFF, 0, 0xFFFFFFFF, 0, 0⟩, -- TIME_TICK_EPOCH_LO (R39 01_drive_model.md)
  ⟨0x2002C, [], 0xFFFFFFFF, 0, 0, 0, 0, 0xFFFFFFFF, 0xFFFFFFFF, 0, 0xFFFFFFFF, 0, 0⟩, -- TIME_TICK_EPOCH_HI (R39 01_drive_model.md)
  ⟨0x20030, [], 0, 0, 0, 0, 0, 0, 0, 0, 0, 0, 4⟩, -- TIME_LINE_STS (R39 01_drive_model.md)
  ⟨0x20038, [], 0, 0, 0, 0, 0, 0, 0, 0, 0, 0, 0⟩, -- TIME_PPSI_LO (R39 01_drive_model.md)
  ⟨0x2003C, [], 0, 0, 0, 0, 0, 0, 0, 0, 0, 0, 0⟩, -- TIME_PPSI_HI (R39 01_drive_model.md)
  ⟨0x20040, [], 0, 0, 0, 0, 0, 0, 0, 0, 0, 0, 0⟩, -- TIME_SRV_STS (R359 12_shaft_link.md)
  ⟨0x20044, [], 0, 0, 0, 0, 0, 0, 0, 0, 0, 0, 0⟩, -- TIME_SRV_DLYA (R359 12_shaft_link.md)
  ⟨0x20048, [], 0, 0, 0, 0, 0, 0, 0, 0, 0, 0, 0⟩, -- TIME_SRV_DLYB (R359 12_shaft_link.md)
  ⟨0x2004C, [], 0, 0, 0, 0, 0, 0, 0, 0, 0, 0, 0⟩, -- TIME_SRV_PERIOD (R359 12_shaft_link.md)
  ⟨0x20050, [], 0, 0, 0xFFFF, 0, 0, 0, 0, 0, 0, 0, 0⟩ -- TIME_SRV_LOSS (R359 12_shaft_link.md)
]

/-- Registers of block 0x0003_0000 (ENG). ENG_DBG_PRED1 resets to 0, of the one reset 0xFF that its row shares
with ENG_DBG_PRED0 (DESIGN CHOICE, log entry 127). -/
def regsEng : List RegSpec := [
  ⟨0x30000, [(8, 0x80)], 0, 2, 0, 0, 0, 0, 0, 0, 0, 0, 0⟩, -- ENG_LANE_STS (R67 02_nimson_engine.md)
  ⟨0x30004, [(8, 0x80)], 0, 0, 0, 0, 0, 0, 0, 0, 0, 0, 0⟩, -- ENG_LANE_EXC (R67 02_nimson_engine.md)
  ⟨0x30008, [(8, 0x80)], 0, 0, 0, 0, 0, 0, 0, 0, 0, 0, 0⟩, -- ENG_LANE_EXC_PC (R67 02_nimson_engine.md)
  ⟨0x3000C, [(8, 0x80)], 0, 0, 0, 0, 0, 0, 0, 0, 0, 0, 0⟩, -- ENG_LANE_CYC_LAST (R67 02_nimson_engine.md)
  ⟨0x30010, [(8, 0x80)], 0, 0, 0xFFFFF, 0, 0, 0, 0, 0, 0, 0, 0⟩, -- ENG_LANE_CYC_MAX (R67 02_nimson_engine.md)
  ⟨0x30014, [(8, 0x80)], 0, 0, 0, 0, 0, 0, 0, 0, 0, 0, 0⟩, -- ENG_LANE_EXC_TICK (R67 02_nimson_engine.md)
  ⟨0x30018, [(8, 0x80)], 0, 0, 0xFFFF, 0, 0, 0, 0, 0, 0, 0, 0⟩, -- ENG_LANE_ECC_CNT (R67 02_nimson_engine.md)
  ⟨0x3001C, [(8, 0x80)], 0xF0, 0, 0, 7, 0, 0, 0, 0, 0, 0, 0⟩, -- ENG_DBG_CTL (R100 03_nimson_instructions.md)
  ⟨0x30020, [(8, 0x80)], 0, 0, 0, 0, 0, 0, 0, 0, 0, 0, 0⟩, -- ENG_DBG_STS (R100 03_nimson_instructions.md)
  ⟨0x30024, [(8, 0x80)], 0, 0, 0, 0, 0, 0, 0, 0, 0, 0, 0⟩, -- ENG_DBG_PC (R100 03_nimson_instructions.md)
  ⟨0x30028, [(8, 0x80), (4, 4)], 0x1FFFFF, 0, 0, 0, 0, 0, 0, 0, 0, 0, 0⟩, -- ENG_DBG_BP (R100 03_nimson_instructions.md)
  ⟨0x30038, [(8, 0x80)], 0x1F03, 0, 0, 0, 0, 0, 0, 0, 0, 0, 0⟩, -- ENG_DBG_SEL (R100 03_nimson_instructions.md)
  ⟨0x3003C, [(8, 0x80), (4, 4)], 0xFFFFFFFF, 0, 0, 0, 0, 0, 0, 0, 0, 0, 0⟩, -- ENG_DBG_DATA (R100 03_nimson_instructions.md)
  ⟨0x3004C, [(8, 0x80)], 0, 0, 0, 0, 0, 0, 0, 0, 0, 0, 0⟩, -- ENG_DBG_LST (R100 03_nimson_instructions.md)
  ⟨0x30050, [(8, 0x80)], 0, 0, 0, 0, 0, 0, 0, 0, 0, 0, 0⟩, -- ENG_DBG_LOOP (R100 03_nimson_instructions.md)
  ⟨0x30054, [(8, 0x80)], 0, 0, 0, 0, 0, 0, 0, 0, 0, 0, 0⟩, -- ENG_DBG_CYC (R100 03_nimson_instructions.md)
  ⟨0x30058, [(8, 0x80)], 0, 0, 0, 0, 0, 0, 0, 0, 0, 0, 0xFF⟩, -- ENG_DBG_PRED0 (R100 03_nimson_instructions.md)
  ⟨0x3005C, [(8, 0x80)], 0, 0, 0, 0, 0, 0, 0, 0, 0, 0, 0⟩ -- ENG_DBG_PRED1 (R100 03_nimson_instructions.md)
]

/-- Registers of block 0x0004_0000 (CTX). -/
def regsCtx : List RegSpec := [
  ⟨0x40000, [(64, 0x80)], 0, 0x40, 0, 0, 0, 0, 0, 0, 0, 0, 0⟩, -- CTX_STS (R67 02_nimson_engine.md)
  ⟨0x40004, [(64, 0x80)], 0, 0, 0, 1, 0, 1, 0, 0, 0, 0, 0⟩, -- CTX_CTL (R67 02_nimson_engine.md)
  ⟨0x40008, [(64, 0x80)], 0, 0, 0, 0, 0, 0, 0, 0, 0, 0, 0⟩, -- CTX_SAFE_DRIVES (R67 02_nimson_engine.md)
  ⟨0x4000C, [(64, 0x80)], 0, 0, 0xFFFFFFFF, 0, 0, 0, 0, 0, 0, 0, 0⟩, -- CTX_COMMIT_CNT (R67 02_nimson_engine.md)
  ⟨0x40010, [(64, 0x80)], 0, 0, 0xFFFFFFFF, 0, 0, 0, 0, 0, 0, 0, 0⟩, -- CTX_ABORT_CNT (R67 02_nimson_engine.md)
  ⟨0x40014, [(64, 0x80)], 0, 0, 0, 0, 0, 0, 0, 0, 0, 0, 0⟩, -- CTX_LAST_ABORT (R67 02_nimson_engine.md)
  ⟨0x40018, [(64, 0x80)], 0, 0, 0xFFFFFFFF, 0, 0, 0, 0, 0, 0, 0, 0⟩, -- CTX_OVERRUN_CNT (R67 02_nimson_engine.md)
  ⟨0x4001C, [(64, 0x80)], 0, 0, 0, 0, 0, 0, 0, 0, 0, 0, 0⟩, -- CTX_CYC_LAST (R67 02_nimson_engine.md)
  ⟨0x40020, [(64, 0x80)], 0, 0, 0xFFFFF, 0, 0, 0, 0, 0, 0, 0, 0⟩, -- CTX_CYC_MAX (R67 02_nimson_engine.md)
  ⟨0x40024, [(64, 0x80)], 0, 0, 0, 0, 0, 0, 0, 0, 0, 0, 0⟩, -- CTX_BUDGET (R67 02_nimson_engine.md)
  ⟨0x40028, [(64, 0x80)], 0, 0, 0xFFFFFFFF, 0, 0, 0, 0, 0, 0, 0, 0⟩, -- CTX_CLAMP_CNT (R67 02_nimson_engine.md)
  ⟨0x4002C, [(64, 0x80)], 0, 0, 0xFFFFFFFF, 0, 0, 0, 0, 0, 0, 0, 0⟩, -- CTX_HOST_DROP (R67 02_nimson_engine.md)
  ⟨0x40030, [(64, 0x80)], 0, 0, 0, 0, 0, 0, 0, 0, 0, 0, 0⟩, -- CTX_SVC_RESULT (R67 02_nimson_engine.md)
  ⟨0x40034, [(64, 0x80)], 0, 4, 0, 0, 0, 0, 0, 0, 0, 0, 0⟩, -- CTX_SVC_STS (R67 02_nimson_engine.md)
  ⟨0x40038, [(64, 0x80)], 0, 0, 0, 0, 0, 0, 0, 0, 0, 0, 0⟩, -- CTX_FELT_USED (R67 02_nimson_engine.md)
  ⟨0x4003C, [(64, 0x80)], 0, 0, 0x7F, 0, 0, 0, 0, 0, 0, 0, 0⟩, -- CTX_FELT_MAX (R67 02_nimson_engine.md)
  ⟨0x40040, [(64, 0x80), (16, 4)], 0, 0, 0, 0, 0, 0, 0, 0, 0, 0, 0⟩ -- CTX_OWN (R67 02_nimson_engine.md)
]

/-- Registers of block 0x0005_0000 (TILE). -/
def regsTile : List RegSpec := [
  ⟨0x50000, [], 0, 0, 0, 0, 0, 0, 0, 0, 0, 0, 0⟩, -- TILE_SCHED_STS (R67 02_nimson_engine.md)
  ⟨0x50004, [], 0, 0, 0, 0, 0, 0, 0, 0, 0, 0, 0⟩, -- TILE_SCHED_INFO (R67 02_nimson_engine.md)
  ⟨0x50008, [], 0, 0, 0, 0, 0, 0, 0, 0, 0, 0, 0⟩, -- TILE_SCRUB_STS (R67 02_nimson_engine.md)
  ⟨0x5000C, [], 0, 0, 0, 0, 0, 0, 0, 0, 0, 0, 0⟩, -- TILE_WM_FAIL (R67 02_nimson_engine.md)
  ⟨0x50010, [], 0, 0x20000, 0, 0, 0, 0, 0, 0, 0, 0, 0⟩, -- TILE_WM_STS (R67 02_nimson_engine.md)
  ⟨0x50014, [], 0xFFFFFFFF, 0, 0, 0, 0, 0, 0, 0, 0, 0, 0⟩, -- TILE_WM_VALUE (R67 02_nimson_engine.md)
  ⟨0x50018, [], 0, 0, 0, 0x3FF, 0, 0, 0, 0, 0, 0, 0⟩, -- TILE_WM_COMMIT (R67 02_nimson_engine.md)
  ⟨0x5001C, [], 0, 0, 0, 0, 0, 0, 0, 0, 0, 0, 0⟩, -- TILE_SCRUB_CNT (R67 02_nimson_engine.md)
  ⟨0x50020, [(8, 0xC)], 0, 0, 0, 0, 0, 0, 0, 0, 0, 0, 0⟩, -- TILE_LANE_RES (R67 02_nimson_engine.md)
  ⟨0x50024, [(8, 0xC)], 0, 0, 0, 0, 0, 0, 0, 0, 0, 0, 0⟩, -- TILE_LANE_OVL (R67 02_nimson_engine.md)
  ⟨0x50028, [(8, 0xC)], 0, 0, 0, 0, 0, 0, 0, 0, 0, 0, 0⟩, -- TILE_LANE_STAGED (R67 02_nimson_engine.md)
  ⟨0x50080, [(32, 4)], 0, 0, 0, 0, 0, 0, 0, 0, 0, 0, 0⟩ -- TILE_QUAR_LIST (R67 02_nimson_engine.md)
]

/-- Registers of block 0x0006_0000 (SNS). -/
def regsSns : List RegSpec := [
  ⟨0x60000, [(40, 0x20)], 0xFFFFFF0F, 0, 0, 0, 0xFFFFFF0F, 0, 0, 0, 0xFF0E, 0, 0x3F00⟩, -- SNS_SD_CFG (R121 04_measurement.md)
  ⟨0x60004, [(40, 0x20)], 0x1F01, 0, 0, 0, 0x1F01, 0x1F01, 0x1F01, 0, 0x1F00, 0, 0xF00⟩, -- SNS_SD_FAST (R121 04_measurement.md)
  ⟨0x60008, [(40, 0x20)], 0xFFFFFFFF, 0, 0, 0, 0xFFFFFFFF, 0xFFFFFFFF, 0, 0, 0, 0, 0x80007FFF⟩, -- SNS_SD_THR (R121 04_measurement.md)
  ⟨0x6000C, [(40, 0x20)], 0xFFFFFFFF, 0, 0, 0, 0, 0, 0, 0, 0, 0, 0x3F800000⟩, -- SNS_SD_SCALE (R121 04_measurement.md)
  ⟨0x60010, [(40, 0x20)], 0xF707, 0, 0, 0, 0xF707, 0, 0, 0, 0xF707, 0, 0⟩, -- SNS_SD_MAP (R121 04_measurement.md)
  ⟨0x60014, [(40, 0x20)], 0, 0x1BC0000, 0, 0, 0, 0, 0, 0, 0, 0, 0⟩, -- SNS_SD_STS (R121 04_measurement.md)
  ⟨0x60800, [], 0xF1, 0, 0, 0, 0xF1, 0, 0, 0, 0xF0, 0, 0⟩, -- SNS_SAR_CTL (R121 04_measurement.md)
  ⟨0x60804, [], 0, 0, 0, 0, 0, 0, 0, 0, 0, 0, 0⟩, -- SNS_SAR_STS (R121 04_measurement.md)
  ⟨0x60808, [(8, 4)], 0x1F1F1F1F, 0, 0, 0, 0x1F1F1F1F, 0, 0, 0, 0x1F1F1F1F, 0, 0⟩, -- SNS_SAR_SEQ (R121 04_measurement.md)
  ⟨0x60828, [(4, 4)], 0x3F01, 0x10000, 0, 0, 0x3F01, 0, 0, 0, 0x3F00, 0, 0xA00⟩, -- SNS_SDC_CLK (R121 04_measurement.md)
  ⟨0x60838, [], 0, 2, 0, 0, 0, 0, 0, 0, 0, 0, 0⟩, -- SNS_HB_STS (R121 04_measurement.md)
  ⟨0x6083C, [], 0, 0, 0xFFFFFFFF, 0, 0, 0, 0, 0, 0, 0, 0⟩, -- SNS_HB_CNT (R121 04_measurement.md)
  ⟨0x60840, [(16, 0x10)], 0xFFFF0771, 0, 0, 0, 0xFFFF0771, 0, 0, 0, 0x771, 0, 0⟩, -- SNS_AIN_CFG (R121 04_measurement.md)
  ⟨0x60844, [(16, 0x10)], 0xFFFFFFFF, 0, 0, 0, 0, 0, 0, 0, 0, 0, 0x3F800000⟩, -- SNS_AIN_SCALE (R121 04_measurement.md)
  ⟨0x60848, [(16, 0x10)], 0, 0, 0, 0, 0, 0, 0, 0, 0, 0, 0⟩ -- SNS_AIN_RES (R121 04_measurement.md)
]

/-- Registers of block 0x0007_0000 (FLD, part 1). -/
def regsFldA : List RegSpec := [
  ⟨0x70000, [(8, 0x100)], 0x7FFF, 0, 0, 0, 0x7FFF, 0x2001, 1, 0, 0xFDE, 0, 0⟩, -- FLD_CTL (R169 05_field_control.md)
  ⟨0x70004, [(8, 0x100)], 0xF173, 0, 0, 0, 0xF173, 0xF173, 0xF173, 0, 0xF173, 0, 0⟩, -- FLD_BIND (R169 05_field_control.md)
  ⟨0x70008, [(8, 0x100)], 0, 0, 0, 0, 0, 0, 0, 0, 0, 0, 0⟩, -- FLD_STS (R169 05_field_control.md)
  ⟨0x7000C, [(8, 0x100)], 0, 0x3FF, 0, 0, 0, 0, 0, 0, 0, 0, 0⟩, -- FLD_FLAGS (R169 05_field_control.md)
  ⟨0x70010, [(8, 0x100)], 0xFFFFFFFF, 0, 0, 0, 0, 0, 0, 0, 0xFFFFFFFF, 0, 0x3F800000⟩, -- FLD_BASE_I (R169 05_field_control.md)
  ⟨0x70014, [(8, 0x100)], 0xFFFFFFFF, 0, 0, 0, 0, 0, 0, 0, 0xFFFFFFFF, 0, 0x3F800000⟩, -- FLD_BASE_V (R169 05_field_control.md)
  ⟨0x70018, [(8, 0x100)], 0xFFFFFFFF, 0, 0, 0, 0, 0, 0, 0, 0xFFFFFFFF, 0, 0x3F800000⟩, -- FLD_BASE_N (R169 05_field_control.md)
  ⟨0x7001C, [(8, 0x100)], 0xFFFFFFFF, 0, 0, 0, 0, 0, 0, 0, 0xFFFFFFFF, 0, 0x3F800000⟩, -- FLD_BASE_T (R169 05_field_control.md)
  ⟨0x70020, [(8, 0x100)], 0x3FFFF, 0, 0, 0, 0x3FF, 0, 0, 0, 0x3FFFF, 0, 0⟩, -- FLD_TBL_CRV (R169 05_field_control.md)
  ⟨0x70024, [(8, 0x100)], 0xFFFFFFFF, 0, 0, 0, 0, 0, 0, 0, 0xFFFFFFFF, 0, 0⟩, -- FLD_MACH_RS (R169 05_field_control.md)
  ⟨0x70028, [(8, 0x100)], 0xFFFFFFFF, 0, 0, 0, 0, 0, 0, 0, 0xFFFFFFFF, 0, 0⟩, -- FLD_MACH_LD (R169 05_field_control.md)
  ⟨0x7002C, [(8, 0x100)], 0xFFFFFFFF, 0, 0, 0, 0, 0, 0, 0, 0xFFFFFFFF, 0, 0⟩, -- FLD_MACH_LQ (R169 05_field_control.md)
  ⟨0x70030, [(8, 0x100)], 0xFFFFFFFF, 0, 0, 0, 0, 0, 0, 0, 0xFFFFFFFF, 0, 0⟩, -- FLD_MACH_PSI (R169 05_field_control.md)
  ⟨0x70034, [(8, 0x100)], 0xFFFFFFFF, 0, 0, 0, 0, 0, 0, 0, 0xFFFFFFFF, 0, 0⟩, -- FLD_MACH_LM (R169 05_field_control.md)
  ⟨0x70038, [(8, 0x100)], 0xFFFFFFFF, 0, 0, 0, 0, 0, 0, 0, 0xFFFFFFFF, 0, 0⟩, -- FLD_MACH_TR (R169 05_field_control.md)
  ⟨0x7003C, [(8, 0x100)], 0xFFFFFFFF, 0, 0, 0, 0, 0, 0, 0, 0xFFFFFFFF, 0, 0⟩, -- FLD_MACH_KT (R169 05_field_control.md)
  ⟨0x70040, [(8, 0x100)], 0xF, 0, 0, 0, 0xF, 0, 0, 0, 3, 0, 0⟩, -- FLD_CC_CFG (R169 05_field_control.md)
  ⟨0x70044, [(8, 0x100)], 0xFFFFFFFF, 0, 0, 0, 0, 0, 0, 0, 0, 0, 0⟩, -- FLD_CC_KP (R169 05_field_control.md)
  ⟨0x70048, [(8, 0x100)], 0xFFFFFFFF, 0, 0, 0, 0, 0, 0, 0, 0, 0, 0⟩, -- FLD_CC_KI (R169 05_field_control.md)
  ⟨0x7004C, [(8, 0x100)], 0xFFFFFFFF, 0, 0, 0, 0, 0, 0, 0, 0, 0, 0⟩, -- FLD_SPD_KP (R169 05_field_control.md)
  ⟨0x70050, [(8, 0x100)], 0xFFFFFFFF, 0, 0, 0, 0, 0, 0, 0, 0, 0, 0⟩, -- FLD_SPD_KI (R169 05_field_control.md)
  ⟨0x70054, [(8, 0x100)], 0x3FFFF, 0, 0, 0, 0x3FF, 0, 0, 0, 0x3FFFF, 0, 0⟩, -- FLD_TBL_FW (R169 05_field_control.md)
  ⟨0x70058, [(8, 0x100)], 0xFFFF3F07, 0, 0, 0, 0xFFFF3F07, 4, 0, 0, 0x3F07, 0, 0⟩, -- FLD_ANGLE (R169 05_field_control.md)
  ⟨0x7005C, [(8, 0x100)], 0xFFFF7FF1, 0, 0, 0, 0xFFFF7FF1, 0, 0, 0, 0xF1, 0, 0x3D72940⟩ -- FLD_OBS_CFG (R169 05_field_control.md)
]

/-- Registers of block 0x0007_0000 (FLD, part 2). -/
def regsFldB : List RegSpec := [
  ⟨0x70060, [(8, 0x100)], 0, 0, 0, 0, 0, 0, 0, 0, 0, 0, 0⟩, -- FLD_OBS_STS (R169 05_field_control.md)
  ⟨0x70064, [(8, 0x100)], 0xFFFFFFFF, 0, 0, 0, 0xFFFFFFFF, 0, 0, 0, 0xFFFF, 0, 0x400029C4⟩, -- FLD_ALIGN_CFG (R169 05_field_control.md)
  ⟨0x70068, [(8, 0x100)], 0x7FFFF, 0, 0, 0, 0x7FFFF, 0, 0, 0, 0x7FFFF, 0, 0x329C4⟩, -- FLD_CATCH_CFG (R169 05_field_control.md)
  ⟨0x7006C, [(8, 0x100)], 0xFFFFFFFF, 0, 0, 0, 0xFFFFFFFF, 0xFFFF, 0, 0, 0, 0, 0x40004666⟩, -- FLD_CATCH_LIM (R169 05_field_control.md)
  ⟨0x70070, [(8, 0x100)], 0, 0, 0, 0, 0, 0, 0, 0, 0, 0, 0⟩, -- FLD_CATCH_STS (R169 05_field_control.md)
  ⟨0x70074, [(8, 0x100)], 0xFFFFFFFF, 0, 0, 0, 0xFFFF, 0, 0, 0, 0xFFFFFFFF, 0, 0xA320CCD⟩, -- FLD_IM_CFG (R169 05_field_control.md)
  ⟨0x70078, [(8, 0x100)], 0x73FFFFFF, 0, 0, 0, 0x73FFFFFF, 0, 0, 0, 0, 0, 0x10004000⟩, -- FLD_LR_CFG (R169 05_field_control.md)
  ⟨0x7007C, [(8, 0x100)], 0x7FFFF, 0, 0, 0, 0x7FFFF, 0x7FFFF, 0, 0, 0, 0, 0x2499A⟩, -- FLD_OVS_CFG (R169 05_field_control.md)
  ⟨0x70080, [(8, 0x100)], 0xFFFFFFFF, 0, 0, 0, 0xFFFFFFFF, 0xFFFFFFFF, 0, 0, 0, 0, 0x7FFF⟩, -- FLD_ASC_CFG (R169 05_field_control.md)
  ⟨0x70084, [(8, 0x100)], 0xFFFFFFFF, 0, 0, 0, 0xFFFFFFFF, 0, 0, 0, 0xFFFFFFFF, 0, 0⟩, -- FLD_CRV_FWD (R169 05_field_control.md)
  ⟨0x70088, [(8, 0x100)], 0xFFFFFFFF, 0, 0, 0, 0xFFFFFFFF, 0, 0, 0, 0xFFFFFFFF, 0, 0⟩, -- FLD_CRV_AST (R169 05_field_control.md)
  ⟨0x7008C, [(8, 0x100)], 0xFFFFFFFF, 0, 0, 0, 0xFFFFFFFF, 0, 0, 0, 0, 0, 0xCCD1000⟩, -- FLD_RT_CFG (R169 05_field_control.md)
  ⟨0x70090, [(8, 0x100)], 0xFFFFFFFF, 0, 0, 0, 0xFFFFFFFF, 0, 0, 0, 0, 0, 0⟩, -- FLD_RT_LVL (R169 05_field_control.md)
  ⟨0x70094, [(8, 0x100)], 0xFFFFFFFF, 0, 0, 0, 0xFFFFFFFF, 0, 0, 0, 0, 0, 0x7FFF7FFF⟩, -- FLD_LIMP_CFG (R169 05_field_control.md)
  ⟨0x70098, [(8, 0x100)], 0x1FFFE0, 0, 0, 0, 0, 0, 0, 0, 0x1FFFE0, 0, 0⟩, -- FLD_MIRROR (R169 05_field_control.md)
  ⟨0x7009C, [(8, 0x100)], 0, 0, 0, 1, 0, 0, 0, 0, 0, 0, 0⟩, -- FLD_CMD (R169 05_field_control.md)
  ⟨0x700A0, [(8, 0x100), (8, 4)], 0, 0, 0, 0, 0, 0, 0, 0, 0, 0, 0⟩, -- FLD_DECK (R169 05_field_control.md)
  ⟨0x700C0, [(8, 0x100), (8, 4)], 0xFFFF, 0, 0, 0, 0, 0, 0, 0xFFFF, 0, 0, 0x7FFF⟩, -- FLD_LIM (R169 05_field_control.md)
  ⟨0x700E0, [(8, 0x100), (5, 4)], 0xFFFF, 0, 0, 0, 0, 0, 0, 0xFFFF, 0, 0, 0⟩, -- FLD_REF (R169 05_field_control.md)
  ⟨0x700F4, [(8, 0x100)], 3, 0, 0, 0, 0, 0, 0, 3, 0, 0, 0⟩, -- FLD_REF5 (R169 05_field_control.md)
  ⟨0x700F8, [(8, 0x100)], 0, 0, 0, 0, 0, 0, 0, 0, 0, 0, 0⟩, -- FLD_MEAS (R169 05_field_control.md)
  ⟨0x700FC, [(8, 0x100)], 0xFFFF, 0, 0, 0, 0xFFFF, 0, 0, 0, 0, 0, 0x2666⟩ -- FLD_FORCE (R169 05_field_control.md)
]

/-- Registers of block 0x0007_0000. -/
def regsFld : List RegSpec := regsFldA ++ regsFldB

/-- Registers of block 0x0008_0000 (MOD). -/
def regsMod : List RegSpec := [
  ⟨0x80000, [(8, 0x100)], 0x7F, 0, 0, 0, 0x7F, 0x7F, 0x7F, 0, 0x7E, 0, 0⟩, -- MOD_CTL (R198 06_modulation.md)
  ⟨0x80004, [(8, 0x100)], 0, 0x40, 0, 0, 0, 0, 0, 0, 0, 0, 0⟩, -- MOD_STS (R198 06_modulation.md)
  ⟨0x80008, [(8, 0x100)], 0x3FFFF, 0, 0, 0, 0x3FFFF, 0x3FFFF, 0x3FFFF, 0, 0x3FFFF, 0, 0x9C4⟩, -- MOD_PERIOD (R198 06_modulation.md)
  ⟨0x8000C, [(8, 0x100)], 0x3F, 0, 0, 0, 0x3F, 0, 0, 0, 0x3F, 0, 0x10⟩, -- MOD_RELOAD (R198 06_modulation.md)
  ⟨0x80010, [(8, 0x100)], 0x7FFFF, 0, 0, 0, 0x7FFFF, 0, 0, 0, 0x7FFFF, 0, 0⟩, -- MOD_PHASE (R198 06_modulation.md)
  ⟨0x80014, [(8, 0x100)], 1, 0, 0, 0, 1, 0, 0, 0, 0, 0, 0⟩, -- MOD_HOST_CTL (R198 06_modulation.md)
  ⟨0x80018, [(8, 0x100)], 0, 0, 0xFFFF, 0, 0, 0, 0, 0, 0, 0, 0⟩, -- MOD_LATE (R198 06_modulation.md)
  ⟨0x8001C, [(8, 0x100)], 0, 0, 0, 0, 0, 0, 0, 0, 0, 0, 0⟩, -- MOD_CNT (R198 06_modulation.md)
  ⟨0x80020, [(8, 0x100), (3, 4)], 0xFFFF, 0, 0, 0, 0xFFFF, 0, 0, 0xFFFF, 0, 0xFFFF, 0x4000⟩, -- MOD_DUTY (R198 06_modulation.md)
  ⟨0x8002C, [(8, 0x100)], 0x37FFFF, 0x1000000, 0, 0, 0x37FFFF, 0, 0, 0, 0x17FFFF, 0, 0⟩, -- MOD_SYNC (R198 06_modulation.md)
  ⟨0x80030, [(8, 0x100), (6, 4)], 0xFFFFF, 0, 0, 0, 0xFFFFF, 0, 0, 0xFFFFF, 0, 0xFFFFF, 0⟩, -- MOD_CMP (R198 06_modulation.md)
  ⟨0x80050, [(8, 0x100), (6, 4)], 0, 0, 0, 0, 0, 0, 0, 0, 0, 0, 0⟩, -- MOD_ACT (R198 06_modulation.md)
  ⟨0x80070, [(8, 0x100), (6, 4)], 0, 0, 0, 0, 0, 0, 0, 0, 0, 0, 0⟩ -- MOD_SHD (R198 06_modulation.md)
]

/-- Registers of block 0x0009_0000 (GATE). -/
def regsGate : List RegSpec := [
  ⟨0x90000, [(18, 0x20)], 0x177F, 0, 0, 0, 0, 0x177F, 0, 0, 0, 0, 0⟩, -- GATE_CFG (R198 06_modulation.md)
  ⟨0x90004, [(18, 0x20)], 0x1FFF, 0, 0, 0, 0x1FFF, 0, 0, 0, 0x1FFF, 0, 0x3E8⟩, -- GATE_DT (R198 06_modulation.md)
  ⟨0x90008, [(18, 0x20)], 0x7FF, 0, 0, 0, 0x7FF, 0, 0, 0, 0x7FF, 0, 0x64⟩, -- GATE_MINP (R198 06_modulation.md)
  ⟨0x9000C, [(18, 0x20)], 0x7FF000F, 0, 0, 0, 0x7FF000F, 0, 0, 0, 0x7FF000F, 0, 0x1F4000F⟩, -- GATE_BOOT (R198 06_modulation.md)
  ⟨0x90010, [(18, 0x20)], 0x31, 0, 0, 0, 0, 1, 0, 0x31, 0, 0x31, 0⟩, -- GATE_CMD (R198 06_modulation.md)
  ⟨0x90014, [(18, 0x20)], 0, 0x1F00, 0, 0, 0, 0, 0, 0, 0, 0, 0x3E80003⟩, -- GATE_STS (R198 06_modulation.md)
  ⟨0x90018, [(18, 0x20)], 0, 0, 0xFFFFFFFF, 0, 0, 0, 0, 0, 0, 0, 0⟩, -- GATE_CNT (R198 06_modulation.md)
  ⟨0x9001C, [(18, 0x20)], 0, 0, 0, 0, 0, 0, 0, 0, 0x1FFF, 0, 0x14⟩ -- GATE_FLOOR (R198 06_modulation.md)
]

/-- Registers of block 0x000A_0000 (KYN). -/
def regsKyn : List RegSpec := [
  ⟨0xA0000, [(16, 0x40)], 0x1F01, 0, 0, 0, 0x1F01, 0x1F01, 0x1F01, 0, 0x1F00, 0, 0⟩, -- KYN_LANE_CTL (R223 07_kynor_link.md)
  ⟨0xA0004, [(16, 0x40)], 0, 0, 0, 0, 0, 0, 0, 0, 0, 0, 0⟩, -- KYN_LANE_STS (R223 07_kynor_link.md)
  ⟨0xA0008, [(16, 0x40)], 0, 0, 0, 0, 0, 0, 0, 0, 0, 0, 0⟩, -- KYN_LANE_LOOP (R223 07_kynor_link.md)
  ⟨0xA000C, [(16, 0x40)], 0, 0, 0, 0, 0, 0, 0, 0, 0, 0, 0⟩, -- KYN_LANE_REQ (R223 07_kynor_link.md)
  ⟨0xA0010, [(16, 0x40)], 0, 0, 0, 0, 0, 0, 0, 0, 0, 0, 0⟩, -- KYN_LANE_UPT (R223 07_kynor_link.md)
  ⟨0xA0014, [(16, 0x40)], 0, 0, 0xFFFFFFFF, 0, 0, 0, 0, 0, 0, 0, 0⟩, -- KYN_LANE_CRCERR (R223 07_kynor_link.md)
  ⟨0xA0018, [(16, 0x40)], 0, 0, 0xFFFF, 0, 0, 0, 0, 0, 0, 0, 0⟩, -- KYN_LANE_LATE (R223 07_kynor_link.md)
  ⟨0xA001C, [(16, 0x40)], 0, 0, 0xFFFF, 0, 0, 0, 0, 0, 0, 0, 0⟩, -- KYN_LANE_MISS (R223 07_kynor_link.md)
  ⟨0xA0020, [(16, 0x40)], 0, 0, 0, 0, 0, 0, 0, 0, 0, 0, 0⟩, -- KYN_LANE_LATE_MAP (R223 07_kynor_link.md)
  ⟨0xA0024, [(16, 0x40)], 0, 0, 0, 0, 0, 0, 0, 0, 0, 0, 0⟩, -- KYN_LANE_FLT_MAP (R223 07_kynor_link.md)
  ⟨0xA0028, [(16, 0x40)], 0, 0, 0, 0, 0, 0, 0, 0, 0, 0, 0⟩, -- KYN_LANE_AGE_MAP (R223 07_kynor_link.md)
  ⟨0xA002C, [(16, 0x40)], 0, 0, 0, 0x9F03, 0, 0x9F03, 0, 0, 0, 0, 0⟩, -- KYN_LANE_CMD (R223 07_kynor_link.md)
  ⟨0xA0030, [(16, 0x40)], 0x1F, 0, 0, 0, 0, 0, 0, 0, 0, 0, 0⟩, -- KYN_LANE_IDSEL (R223 07_kynor_link.md)
  ⟨0xA0034, [(16, 0x40)], 0, 0, 0, 0, 0, 0, 0, 0, 0, 0, 0⟩, -- KYN_LANE_IDDAT (R223 07_kynor_link.md)
  ⟨0xA0038, [(16, 0x40)], 0, 0, 0, 0, 0, 0, 0, 0, 0, 0, 0⟩, -- KYN_LANE_DLY (R223 07_kynor_link.md)
  ⟨0xA003C, [(16, 0x40)], 0, 0x1F, 0, 0, 0, 0, 0, 0, 0, 0, 0⟩ -- KYN_LANE_FLAGS (R223 07_kynor_link.md)
]

/-- Registers of block 0x000B_0000 (ARM). -/
def regsArm : List RegSpec := [
  ⟨0xB0000, [(12, 0x80)], 1, 0, 0, 0, 1, 1, 1, 0, 0, 0, 0⟩, -- ARM_CTL (R248 08_arms_and_cells.md)
  ⟨0xB0004, [(12, 0x80)], 0, 0, 0, 0, 0, 0, 0, 0, 0, 0, 0⟩, -- ARM_STS (R248 08_arms_and_cells.md)
  ⟨0xB0008, [(12, 0x80)], 0x7F7F07, 0, 0, 0, 0x7F7F07, 0x7F7F07, 0x7F7F07, 0, 0x7F7F07, 0, 0⟩, -- ARM_CFG (R248 08_arms_and_cells.md)
  ⟨0xB000C, [(12, 0x80)], 0x7F7F, 0, 0, 0, 0x7F7F, 0x7F7F, 0x7F7F, 0, 0x7F7F, 0, 1⟩, -- ARM_RED (R248 08_arms_and_cells.md)
  ⟨0xB0010, [(12, 0x80)], 0xFFFF, 0, 0, 0, 0xFFFF, 0xFFFF, 0xFFFF, 0, 0xFFFF, 0, 0⟩, -- ARM_VNOM (R248 08_arms_and_cells.md)
  ⟨0xB0014, [(12, 0x80)], 0xFFFFFFFF, 0, 0, 0, 0xFFFFFFFF, 0, 0, 0, 0, 0, 0x28F0148⟩, -- ARM_BAL (R248 08_arms_and_cells.md)
  ⟨0xB0018, [(12, 0x80)], 0x3FFFFF, 0, 0, 0, 0x3FFFFF, 0, 0, 0, 0, 0, 0x40000⟩, -- ARM_SEL (R248 08_arms_and_cells.md)
  ⟨0xB001C, [(12, 0x80)], 0xFFFFFFFF, 0, 0, 0, 0xFFFFFFFF, 0xFFFF, 0, 0, 0, 0, 0xCCD5000⟩, -- ARM_VLIM (R248 08_arms_and_cells.md)
  ⟨0xB0020, [(12, 0x80)], 0xF0F03, 0, 0, 0, 0xF0F03, 0xF0F03, 0, 0, 0, 0, 0x20303⟩, -- ARM_FLT (R248 08_arms_and_cells.md)
  ⟨0xB0024, [(12, 0x80)], 0xFFFF, 0, 0, 0, 0, 0, 0, 0xFFFF, 0, 0, 0⟩, -- ARM_REF (R248 08_arms_and_cells.md)
  ⟨0xB0028, [(12, 0x80)], 0, 0, 0, 0, 0, 0, 0, 0, 0, 0, 0⟩, -- ARM_LVL (R248 08_arms_and_cells.md)
  ⟨0xB002C, [(12, 0x80)], 0, 0, 0, 0, 0, 0, 0, 0, 0, 0, 0⟩, -- ARM_SPREAD (R248 08_arms_and_cells.md)
  ⟨0xB0030, [(12, 0x80)], 0, 0, 0, 0, 0, 0, 0, 0, 0, 0, 0⟩, -- ARM_VSUM (R248 08_arms_and_cells.md)
  ⟨0xB0034, [(12, 0x80)], 0, 0, 0xFFFFFFFF, 0, 0, 0, 0, 0, 0, 0, 0⟩, -- ARM_SW_CNT (R248 08_arms_and_cells.md)
  ⟨0xB0038, [(12, 0x80)], 0, 0, 0xFFFFFFFF, 0, 0, 0, 0, 0, 0, 0, 0⟩, -- ARM_SWAP_CNT (R248 08_arms_and_cells.md)
  ⟨0xB003C, [(12, 0x80)], 0, 0, 0, 0, 0, 0, 0, 0, 0, 0, 0⟩, -- ARM_FAIL_CNT (R248 08_arms_and_cells.md)
  ⟨0xB0040, [(12, 0x80)], 0, 0x1F, 0, 0, 0, 0, 0, 0, 0, 0, 0⟩, -- ARM_FLAGS (R248 08_arms_and_cells.md)
  ⟨0xB0044, [(12, 0x80)], 0, 0, 0, 0, 0, 0, 0, 0, 0, 0, 0x7FFF⟩, -- ARM_DERATE (R248 08_arms_and_cells.md)
  ⟨0xB0048, [(12, 0x80)], 0x1FFFE1, 0, 0, 0, 1, 0, 0, 0, 0, 0, 0⟩, -- ARM_MIRROR (R248 08_arms_and_cells.md)
  ⟨0xB004C, [(12, 0x80)], 0xFFFF00FF, 0, 0, 0, 0xFFFF00FF, 0, 0, 0, 0, 0, 0⟩, -- ARM_BALCFG (R248 08_arms_and_cells.md)
  ⟨0xB0050, [(12, 0x80), (2, 4)], 0, 0, 0, 0, 0, 0, 0, 0, 0, 0, 0⟩, -- ARM_INS (R248 08_arms_and_cells.md)
  ⟨0xB0058, [(12, 0x80), (2, 4)], 0, 0, 0, 0, 0, 0, 0, 0, 0, 0, 0⟩, -- ARM_SPR (R248 08_arms_and_cells.md)
  ⟨0xB1000, [(384, 8)], 0xBF0F, 0, 0, 0x10000, 0, 0x1BF0F, 0, 0, 0xBF0F, 0, 0⟩, -- ARM_CELL_CFG (R248 08_arms_and_cells.md)
  ⟨0xB1004, [(384, 8)], 0, 0, 0, 0, 0, 0, 0, 0, 0, 0, 0⟩ -- ARM_CELL_STS (R248 08_arms_and_cells.md)
]

/-- Registers of block 0x000C_0000 (PROT, part 1). -/
def regsProtA : List RegSpec := [
  ⟨0xC0000, [], 1, 0, 0, 0, 1, 0, 0, 0, 0, 0, 1⟩, -- PROT_CTL (R281 09_protection.md)
  ⟨0xC0004, [], 0, 0, 0, 0, 0, 0, 0, 0, 0, 0, 0xFF⟩, -- PROT_STS (R281 09_protection.md)
  ⟨0xC0008, [], 0, 0xFF0000, 0, 0, 0, 0, 0, 0, 0, 0, 0⟩, -- PROT_TRIP_STS (R281 09_protection.md)
  ⟨0xC000C, [], 0, 0, 0, 0xFF, 0, 0xFF, 0, 0, 0, 0, 0⟩, -- PROT_TRIP_CLR (R281 09_protection.md)
  ⟨0xC0010, [(8, 4)], 0x3FFFFF73, 0, 0, 0, 0, 0x3FFFFF73, 0x3FFFFF73, 0, 0, 0, 0x3E80010⟩, -- PROT_TRIP_CFG (R281 09_protection.md)
  ⟨0xC0030, [(4, 4)], 0xFFFFFF7F, 0, 0, 0, 0, 0xFFFFFF7F, 0xFF7F, 0, 0, 0, 0⟩, -- PROT_CHP_CFG (R281 09_protection.md)
  ⟨0xC0040, [(4, 4)], 0xFFFFFFFF, 0, 0, 0, 0xFFFFFFFF, 0xFFFFFFFF, 0, 0, 0, 0, 0x7FFF7FFF⟩, -- PROT_CHP_LVL (R281 09_protection.md)
  ⟨0xC0050, [(4, 4)], 0, 0x12, 0, 0, 0, 0, 0, 0, 0, 0, 0⟩, -- PROT_CHP_STS (R281 09_protection.md)
  ⟨0xC0060, [], 0xFF3F3F, 0, 0, 0, 0, 0xFF3F3F, 0xFF3F3F, 0, 0, 0, 0xA0000⟩, -- PROT_DRDY_CFG (R281 09_protection.md)
  ⟨0xC0064, [], 0, 0x3F3F00, 0, 0, 0, 0, 0, 0, 0, 0, 0⟩, -- PROT_DRDY_STS (R281 09_protection.md)
  ⟨0xC0068, [], 0x700, 0, 0, 3, 0, 1, 0, 0, 0, 0, 0⟩, -- PROT_DIAG_CTL (R281 09_protection.md)
  ⟨0xC006C, [], 0xFF3F, 0, 0, 0, 0xFF3F, 0, 0, 0, 0, 0, 0x500⟩, -- PROT_DIAG_CFG (R281 09_protection.md)
  ⟨0xC0070, [], 0xFFFFFFFF, 0, 0, 0, 0xFFFFFFFF, 0, 0, 0, 0, 0, 0x8000100⟩, -- PROT_DIAG_LVL (R281 09_protection.md)
  ⟨0xC0074, [], 0, 0x10, 0, 0, 0, 0, 0, 0, 0, 0, 0⟩, -- PROT_DIAG_STS (R281 09_protection.md)
  ⟨0xC0078, [], 0, 0, 0, 0, 0, 0, 0, 0, 0, 0, 0⟩, -- PROT_DIAG_RES (R281 09_protection.md)
  ⟨0xC007C, [], 0, 0, 0, 0, 0, 0, 0, 0, 0, 0, 0⟩, -- PROT_LAST (R281 09_protection.md)
  ⟨0xC0080, [(18, 4)], 0x3FFF3F03, 0xC, 0, 0, 0, 0x3FFF3F03, 0x3FFF3F03, 0, 0, 0, 0x7D00A00⟩, -- PROT_GF (R281 09_protection.md)
  ⟨0xC0100, [(18, 4)], 0, 0, 0xFFFFFFFF, 0, 0, 0, 0, 0, 0, 0, 0⟩, -- PROT_GF_CNT (R281 09_protection.md)
  ⟨0xC0180, [], 0, 0, 0, 0, 0, 0, 0, 0, 0, 0, 0⟩, -- PROT_SD_OC0 (R281 09_protection.md)
  ⟨0xC0184, [], 0, 0, 0, 0, 0, 0, 0, 0, 0, 0, 0⟩, -- PROT_SD_OC1 (R281 09_protection.md)
  ⟨0xC0188, [], 0, 0, 0xFFFFFFFF, 0, 0, 0, 0, 0, 0, 0, 0⟩, -- PROT_TRIP_CNT (R281 09_protection.md)
  ⟨0xC018C, [], 0, 0, 0, 0, 0, 0, 0, 0, 0, 0, 0⟩, -- PROT_HIST_IDX (R281 09_protection.md)
  ⟨0xC0200, [(8, 0x40)], 0xFFFF0001, 0, 0, 0, 0, 0xFFFF0001, 0xFFFF0001, 0, 0xFFFF0000, 0, 0x7FFF0000⟩, -- PROT_CV_CTL (R281 09_protection.md)
  ⟨0xC0204, [(8, 0x40)], 0, 0x3C000, 0, 0, 0, 0, 0, 0, 0, 0, 0x400000A1⟩ -- PROT_CV_STS (R281 09_protection.md)
]

/-- Registers of block 0x000C_0000 (PROT, part 2). -/
def regsProtB : List RegSpec := [
  ⟨0xC0208, [(8, 0x40)], 0x7777773, 0, 0, 0, 0, 0x7777773, 0x7777773, 0, 0, 0, 0x111112⟩, -- PROT_CV_POL (R281 09_protection.md)
  ⟨0xC020C, [(8, 0x40)], 0xFFFFFF, 0, 0, 0, 0, 0xFFFFFF, 0xFFFFFF, 0, 0, 0, 0x7FFF⟩, -- PROT_CV_POL2 (R281 09_protection.md)
  ⟨0xC0210, [(8, 0x40)], 0xFFFF713F, 0, 0, 0, 0, 0xFFFF713F, 0xFFFF713F, 0, 0x713F, 0, 0⟩, -- PROT_CV_DC (R281 09_protection.md)
  ⟨0xC0214, [(8, 0x40)], 0xFFFFFFFF, 0, 0, 0, 0, 0xFFFFFFFF, 0xFFFFFFFF, 0, 0, 0, 0x7FFF7FFE⟩, -- PROT_CV_LVL (R281 09_protection.md)
  ⟨0xC0218, [(8, 0x40)], 0, 0, 0, 0, 0, 0, 0, 0, 0, 0, 0x7FFF⟩, -- PROT_CV_GOV (R281 09_protection.md)
  ⟨0xC021C, [(8, 0x40)], 0, 0, 0, 0xF, 0, 0xF, 0, 0, 0, 0, 0⟩, -- PROT_CV_CMD (R281 09_protection.md)
  ⟨0xC0220, [(8, 0x40)], 0, 0, 0xFFFFFFFF, 0, 0, 0, 0, 0, 0, 0, 0⟩, -- PROT_CV_CNT (R281 09_protection.md)
  ⟨0xC0400, [(16, 4)], 0, 0, 0, 0, 0, 0, 0, 0, 0, 0, 0⟩ -- PROT_HIST (R281 09_protection.md)
]

/-- Registers of block 0x000C_0000. -/
def regsProt : List RegSpec := regsProtA ++ regsProtB

/-- Registers of block 0x000D_0000 (FBK, part 1). -/
def regsFbkA : List RegSpec := [
  ⟨0xD0000, [(8, 0x80)], 1, 0, 0, 0, 1, 1, 0, 0, 0, 0, 0⟩, -- FBK_CTL (R302 10_feedback.md)
  ⟨0xD0004, [(8, 0x80)], 0x10FF3F7, 0, 0, 0, 0x10FF3F7, 0x1000007, 0, 0, 0xFF3F7, 0, 0x83020⟩, -- FBK_CFG (R302 10_feedback.md)
  ⟨0xD0008, [(8, 0x80)], 0, 0, 0, 0, 0, 0, 0, 0, 0, 0, 0⟩, -- FBK_STS (R302 10_feedback.md)
  ⟨0xD000C, [(8, 0x80)], 0, 0xFF, 0, 0, 0, 0, 0, 0, 0, 0, 0⟩, -- FBK_FLAGS (R302 10_feedback.md)
  ⟨0xD0010, [(8, 0x80)], 0xFFFFF, 0, 0, 0, 0xFFFFF, 0, 0, 0, 0xFFFFF, 0, 0x400⟩, -- FBK_RES (R302 10_feedback.md)
  ⟨0xD0014, [(8, 0x80)], 0, 0, 0, 0, 0, 0, 0, 0, 0, 0, 0⟩, -- FBK_POS (R302 10_feedback.md)
  ⟨0xD0018, [(8, 0x80)], 0, 0, 0, 0, 0, 0, 0, 0, 0, 0, 0⟩, -- FBK_ANG (R302 10_feedback.md)
  ⟨0xD001C, [(8, 0x80)], 0, 0, 0, 0, 0, 0, 0, 0, 0, 0, 0⟩, -- FBK_SPEED (R302 10_feedback.md)
  ⟨0xD0020, [(8, 0x80)], 0, 0, 0, 0, 0, 0, 0, 0, 0, 0, 0⟩, -- FBK_ACCEL (R302 10_feedback.md)
  ⟨0xD0024, [(8, 0x80)], 0xFFFFFFFF, 0, 0, 0, 0, 0xFFFFFFFF, 0, 0, 0, 0, 0⟩, -- FBK_IDX_POS (R302 10_feedback.md)
  ⟨0xD0028, [(8, 0x80)], 0xFF, 0, 0, 0, 0xFF, 0x30, 0, 0, 0x80, 0, 0⟩, -- FBK_IDX (R302 10_feedback.md)
  ⟨0xD002C, [(8, 0x80)], 0, 0, 0, 0, 0, 0, 0, 0, 0, 0, 0⟩, -- FBK_IDX_STS (R302 10_feedback.md)
  ⟨0xD0030, [(8, 0x80)], 0xFFFFFFFF, 0, 0, 0, 0, 0xFFFFFFFF, 0, 0, 0, 0, 0x80000000⟩, -- FBK_LIM_LO (R302 10_feedback.md)
  ⟨0xD0034, [(8, 0x80)], 0xFFFFFFFF, 0, 0, 0, 0, 0xFFFFFFFF, 0, 0, 0, 0, 0x7FFFFFFF⟩, -- FBK_LIM_HI (R302 10_feedback.md)
  ⟨0xD0038, [(8, 0x80)], 0xFFFFFFFF, 0, 0, 0, 0xFFFFFFFF, 0, 0, 0, 0, 0, 0⟩, -- FBK_SC_OFS (R302 10_feedback.md)
  ⟨0xD003C, [(8, 0x80)], 0xFFFFFF, 0, 0, 0, 0xFFFFFF, 0, 0, 0, 0, 0, 0xC04004⟩, -- FBK_SC_AMP (R302 10_feedback.md)
  ⟨0xD0040, [(8, 0x80)], 0xFFFFFFFF, 0, 0, 0, 0xFFFFFFFF, 0, 0, 0, 0xFFFFFFFF, 0, 0x1400007D⟩, -- FBK_SSI (R302 10_feedback.md)
  ⟨0xD0044, [(8, 0x80)], 0x1FFFFFF, 0, 0, 0, 0x1FFFFFF, 0, 0, 0, 0x1FFFFFF, 0, 0x6359⟩, -- FBK_SSI_FMT (R302 10_feedback.md)
  ⟨0xD0048, [(8, 0x80)], 0, 0, 0, 0, 0, 0, 0, 0, 0, 0, 0⟩, -- FBK_SSI_RAW (R302 10_feedback.md)
  ⟨0xD004C, [(8, 0x80)], 0xFFFFFFFF, 0, 0, 0, 0, 0, 0, 0, 0, 0, 0⟩, -- FBK_CMP_START (R302 10_feedback.md)
  ⟨0xD0050, [(8, 0x80)], 0xFFFFFFFF, 0, 0, 0, 0, 0, 0, 0, 0, 0, 0⟩, -- FBK_CMP_PITCH (R302 10_feedback.md)
  ⟨0xD0054, [(8, 0x80)], 0xFF0FFFFF, 0, 0, 0, 0, 0, 0, 0, 0, 0, 0⟩, -- FBK_CMP_CFG (R302 10_feedback.md)
  ⟨0xD0058, [(8, 0x80)], 0, 0, 0xFF000000, 0, 0, 0, 0, 0, 0, 0, 0⟩, -- FBK_CMP_STS (R302 10_feedback.md)
  ⟨0xD005C, [(8, 0x80)], 0, 0, 0xFFFFFFFF, 0, 0, 0, 0, 0, 0, 0, 0⟩ -- FBK_CNT (R302 10_feedback.md)
]

/-- Registers of block 0x000D_0000 (FBK, part 2). -/
def regsFbkB : List RegSpec := [
  ⟨0xD0060, [(8, 0x80)], 0xFFFF001F, 0, 0, 0, 0, 1, 0, 0, 0xFFFF001E, 0, 0x3FF0000⟩, -- FBK_EE_CFG (R302 10_feedback.md)
  ⟨0xD0064, [(8, 0x80)], 0xFFFF, 0, 0, 0, 0, 0, 0, 0, 0xFFFF, 0, 0x19⟩, -- FBK_EE_GAP (R302 10_feedback.md)
  ⟨0xD0068, [(8, 0x80)], 0, 0x30000, 0, 0, 0, 0, 0, 0, 0, 0, 0⟩, -- FBK_EE_STS (R302 10_feedback.md)
  ⟨0xD006C, [(8, 0x80)], 0, 0, 0, 3, 0, 1, 0, 0, 0, 0, 0⟩, -- FBK_CMD (R302 10_feedback.md)
  ⟨0xD0070, [(8, 0x80)], 0xFFFF, 0, 0, 0, 0xFFFF, 0, 0, 0, 0xFFFF, 0, 0⟩, -- FBK_SSI_LEAD (R302 10_feedback.md)
  ⟨0xD0074, [(8, 0x80)], 0, 0, 0, 0, 0, 0, 0, 0, 0, 0, 0⟩, -- FBK_IDX_REF (R302 10_feedback.md)
  ⟨0xD0078, [(8, 0x80)], 0, 0, 0, 0, 0, 0, 0, 0, 0, 0, 0⟩, -- FBK_CMP_CUR (R302 10_feedback.md)
  ⟨0xD007C, [(8, 0x80)], 0, 0, 0, 0, 0, 0, 0, 0, 0, 0, 0⟩ -- FBK_CPR (R302 10_feedback.md)
]

/-- Registers of block 0x000D_0000. -/
def regsFbk : List RegSpec := regsFbkA ++ regsFbkB

/-- Registers of block 0x000E_0000 (MOT, part 1). -/
def regsMotA : List RegSpec := [
  ⟨0xE0000, [(8, 0x80)], 0x1F, 0, 0, 0x700, 0x1F, 0x411, 0, 0, 0xE, 0, 0⟩, -- MOT_CTL (R340 11_motion.md)
  ⟨0xE0004, [(8, 0x80)], 0, 0, 0, 0, 0, 0, 0, 0, 0, 0, 0⟩, -- MOT_STS (R340 11_motion.md)
  ⟨0xE0008, [(8, 0x80)], 0, 0x7FF, 0, 0, 0, 0, 0, 0, 0, 0, 0⟩, -- MOT_FLAGS (R340 11_motion.md)
  ⟨0xE000C, [(8, 0x80)], 0x7F77, 0, 0, 0, 0, 0x7F77, 0, 0, 0x7F77, 0, 0⟩, -- MOT_BIND (R340 11_motion.md)
  ⟨0xE0010, [(8, 0x80)], 0xFFFFFFFF, 0, 0, 0, 0, 0, 0, 0, 0xFFFFFFFF, 0, 0⟩, -- MOT_GEAR (R340 11_motion.md)
  ⟨0xE0014, [(8, 0x80)], 0xFFFFFFFF, 0, 0, 0, 0, 0, 0, 0, 0, 0, 0⟩, -- MOT_KP (R340 11_motion.md)
  ⟨0xE0018, [(8, 0x80)], 0xFFFFFFFF, 0, 0, 0, 0, 0, 0, 0xFFFFFFFF, 0, 0, 0⟩, -- MOT_TGT0 (R340 11_motion.md)
  ⟨0xE001C, [(8, 0x80)], 0xFFFFFFFF, 0, 0, 0, 0, 0, 0, 0xFFFFFFFF, 0, 0, 0⟩, -- MOT_TGT1 (R340 11_motion.md)
  ⟨0xE0020, [(8, 0x80)], 0xFFFFFFFF, 0, 0, 0, 0, 0, 0, 0xFFFFFFFF, 0, 0, 0⟩, -- MOT_TGT2 (R340 11_motion.md)
  ⟨0xE0024, [(8, 0x80)], 0xFFFFFFFF, 0, 0, 0, 0, 0, 0, 0xFFFFFFFF, 0, 0, 0⟩, -- MOT_TGT3 (R340 11_motion.md)
  ⟨0xE0028, [(8, 0x80)], 0xFFFFFFFF, 0, 0, 0, 0, 0, 0, 0xFFFFFFFF, 0, 0, 0⟩, -- MOT_TGT4 (R340 11_motion.md)
  ⟨0xE002C, [(8, 0x80)], 0xFFFFFFFF, 0, 0, 0, 0, 0, 0, 0xFFFFFFFF, 0, 0, 0⟩, -- MOT_TGT5 (R340 11_motion.md)
  ⟨0xE0030, [(8, 0x80)], 0xFFFF, 0, 0, 0, 0, 0, 0, 0xFFFF, 0, 0, 0⟩, -- MOT_TGT6 (R340 11_motion.md)
  ⟨0xE0034, [(8, 0x80)], 0xFF07, 0, 0, 0, 0, 0, 0, 0xFF07, 0, 0, 0⟩, -- MOT_TGT7 (R340 11_motion.md)
  ⟨0xE0038, [(8, 0x80)], 0xFFFFFFFF, 0, 0, 0, 0, 0, 0, 0, 0, 0, 0⟩, -- MOT_STOPD (R340 11_motion.md)
  ⟨0xE003C, [(8, 0x80)], 0xFFFFFFFF, 0, 0, 0, 0, 0xFFFFFFFF, 0, 0, 0, 0, 0⟩, -- MOT_OFS (R340 11_motion.md)
  ⟨0xE0040, [(8, 0x80)], 0xFFFFFFFF, 0, 0, 0, 0, 0xFFFFFFFF, 0, 0, 0, 0, 0x80000000⟩, -- MOT_VLIM_LO (R340 11_motion.md)
  ⟨0xE0044, [(8, 0x80)], 0xFFFFFFFF, 0, 0, 0, 0, 0xFFFFFFFF, 0, 0, 0, 0, 0x7FFFFFFF⟩, -- MOT_VLIM_HI (R340 11_motion.md)
  ⟨0xE0048, [(8, 0x80)], 0xFFFFFFFF, 0, 0, 0, 0xFFFFFFFF, 0, 0, 0, 0, 0, 4⟩, -- MOT_TOL (R340 11_motion.md)
  ⟨0xE004C, [(8, 0x80)], 0x7003F3F, 0, 0, 0, 0, 0x7003F3F, 0, 0, 0, 0, 0⟩, -- MOT_SW (R340 11_motion.md)
  ⟨0xE0050, [(8, 0x80)], 0xFFFFFF, 0, 0, 0, 0xFFFFFF, 0, 0, 0, 0, 0, 0xA000A⟩, -- MOT_DEB (R340 11_motion.md)
  ⟨0xE0054, [(8, 0x80)], 0xFFFF0007, 0, 0, 0, 0xFFFF0007, 0, 0, 0, 0, 0, 0⟩, -- MOT_HOME (R340 11_motion.md)
  ⟨0xE0058, [(8, 0x80)], 0xFFFFFFFF, 0, 0, 0, 0, 0, 0, 0, 0, 0, 0⟩, -- MOT_HOME_V (R340 11_motion.md)
  ⟨0xE005C, [(8, 0x80)], 0xFFFFFFFF, 0, 0, 0, 0, 0, 0, 0, 0, 0, 0⟩ -- MOT_HOME_C (R340 11_motion.md)
]

/-- Registers of block 0x000E_0000 (MOT, part 2). -/
def regsMotB : List RegSpec := [
  ⟨0xE0060, [(8, 0x80)], 0xFFFFFFFF, 0, 0, 0, 0, 0, 0, 0, 0, 0, 0⟩, -- MOT_HOME_POS (R340 11_motion.md)
  ⟨0xE0064, [(8, 0x80)], 0xFFFF07FF, 0, 0, 0, 0x7FF, 0x700, 0, 0, 0xFF, 0, 0x14140000⟩, -- MOT_STAND (R340 11_motion.md)
  ⟨0xE0068, [(8, 0x80)], 0xFFFFFF07, 0, 0, 0, 0xFFFFFF07, 7, 0, 0, 7, 0, 0xCCD0000⟩, -- MOT_WINCH (R340 11_motion.md)
  ⟨0xE006C, [(8, 0x80)], 0xFFFFFFFF, 0, 0, 0, 0xFFFFFFFF, 0xFFFF, 0, 0, 0, 0, 0x7FFF⟩, -- MOT_WINCH2 (R340 11_motion.md)
  ⟨0xE0070, [(8, 0x80)], 0xFFFFFFFF, 0, 0, 0, 0xFFFFFFFF, 0, 0, 0, 0, 0, 0x4000⟩, -- MOT_SHARE (R340 11_motion.md)
  ⟨0xE0074, [(8, 0x80)], 0, 0, 0, 0, 0, 0, 0, 0, 0, 0, 0⟩, -- MOT_SET_POS (R340 11_motion.md)
  ⟨0xE0078, [(8, 0x80)], 0, 0, 0, 0, 0, 0, 0, 0, 0, 0, 0⟩, -- MOT_SET_VEL (R340 11_motion.md)
  ⟨0xE007C, [(8, 0x80)], 0, 0, 0, 0, 0, 0, 0, 0, 0, 0, 0⟩, -- MOT_POS (R340 11_motion.md)
  ⟨0xE0400, [(16, 0x20)], 0x7FF1F1F, 0, 0, 0, 0x7FF1F1F, 1, 0, 0, 0x7FF1F0E, 0, 0⟩, -- MOT_CAM_CFG (R340 11_motion.md)
  ⟨0xE0404, [(16, 0x20)], 0x3FF, 0, 0, 0, 0, 0, 0, 0, 0x3FF, 0, 0⟩, -- MOT_CAM_TILE (R340 11_motion.md)
  ⟨0xE0408, [(16, 0x20)], 0xFFFFFFFF, 0, 0, 0, 0, 0, 0, 0, 0, 0, 0⟩, -- MOT_CAM_X0 (R340 11_motion.md)
  ⟨0xE040C, [(16, 0x20)], 0xFFFFFFFF, 0, 0, 0, 0, 0, 0, 0, 0, 0, 0⟩, -- MOT_CAM_DX (R340 11_motion.md)
  ⟨0xE0410, [(16, 0x20)], 0xFFFFFFFF, 0, 0, 0, 0, 0, 0, 0, 0, 0, 0x3F800000⟩, -- MOT_CAM_SCALE (R340 11_motion.md)
  ⟨0xE0414, [(16, 0x20)], 0xFFFFFFFF, 0, 0, 0, 0, 0, 0, 0, 0, 0, 0⟩, -- MOT_CAM_OFS (R340 11_motion.md)
  ⟨0xE0418, [(16, 0x20)], 0, 0, 0, 0, 0, 0, 0, 0, 0, 0, 0⟩, -- MOT_CAM_STS (R340 11_motion.md)
  ⟨0xE041C, [(16, 0x20)], 0, 0, 0, 0, 0, 0, 0, 0, 0, 0, 0⟩ -- MOT_CAM_Y (R340 11_motion.md)
]

/-- Registers of block 0x000E_0000. -/
def regsMot : List RegSpec := regsMotA ++ regsMotB

/-- Registers of block 0x000F_0000 (SHFT). -/
def regsShft : List RegSpec := [
  ⟨0xF0000, [], 1, 0, 0, 0, 1, 1, 1, 0, 0, 0, 0⟩, -- SHFT_CTL (R359 12_shaft_link.md)
  ⟨0xF0004, [], 0x1FFF7, 0, 0, 0, 0, 0x1FFF7, 0x1FFF7, 0, 0x1FFF7, 0, 0⟩, -- SHFT_CFG (R359 12_shaft_link.md)
  ⟨0xF0008, [], 0, 0, 0, 0, 0, 0, 0, 0, 0, 0, 0⟩, -- SHFT_STS (R359 12_shaft_link.md)
  ⟨0xF000C, [], 0, 0xF, 0, 0, 0, 0, 0, 0, 0, 0, 0⟩, -- SHFT_FLAGS (R359 12_shaft_link.md)
  ⟨0xF0010, [], 0x1FFFEF, 0, 0, 0, 0xF, 0, 0, 0, 0x1FFFEF, 0, 0⟩, -- SHFT_XCH_CFG (R359 12_shaft_link.md)
  ⟨0xF0014, [], 0, 0, 0, 0, 0, 0, 0, 0, 0, 0, 0⟩, -- SHFT_XCH_REQ (R359 12_shaft_link.md)
  ⟨0xF0018, [], 0, 0, 0xFFFF, 0, 0, 0, 0, 0, 0, 0, 0⟩, -- SHFT_LINK_A (R359 12_shaft_link.md)
  ⟨0xF001C, [], 0, 0, 0xFFFF, 0, 0, 0, 0, 0, 0, 0, 0⟩, -- SHFT_LINK_B (R359 12_shaft_link.md)
  ⟨0xF0020, [], 0xFF, 0, 0, 0, 0xFF, 0xFF, 0, 0, 0, 0, 0⟩, -- SHFT_CRASH (R359 12_shaft_link.md)
  ⟨0xF0024, [], 0, 0, 0, 0xFF, 0, 0xFF, 0, 0, 0, 0, 0⟩, -- SHFT_CMD (R359 12_shaft_link.md)
  ⟨0xF0028, [], 0, 0, 0xFFFFFFFF, 0, 0, 0, 0, 0, 0, 0, 0⟩, -- SHFT_CNT (R359 12_shaft_link.md)
  ⟨0xF002C, [], 0, 0, 0, 0, 0, 0, 0, 0, 0, 0, 0⟩, -- SHFT_RING_DLY (R359 12_shaft_link.md)
  ⟨0xF0040, [(8, 0x10)], 0xFFFF077B, 0, 0, 0, 0xFFFF077B, 0xB, 0, 0, 0x773, 0, 0x40000000⟩, -- SHFT_LS_CFG (R359 12_shaft_link.md)
  ⟨0xF0044, [(8, 0x10)], 0xFFFFFFFF, 0, 0, 0, 0xFFFFFFFF, 0, 0, 0, 0, 0, 0⟩, -- SHFT_LS_PAR (R359 12_shaft_link.md)
  ⟨0xF0048, [(8, 0x10)], 0, 0, 0, 0, 0, 0, 0, 0, 0, 0, 0⟩ -- SHFT_LS_STS (R359 12_shaft_link.md)
]

/-- Registers of block 0x0010_0000 (CAN). -/
def regsCan : List RegSpec := [
  ⟨0x100000, [(4, 0x4000)], 0xBF, 0, 0, 0x40, 0xBF, 9, 1, 0, 0xA8, 0, 0⟩, -- CAN_CTL (R382 13_can_fd.md)
  ⟨0x100004, [(4, 0x4000)], 0, 0, 0, 0, 0, 0, 0, 0, 0, 0, 0⟩, -- CAN_STS (R382 13_can_fd.md)
  ⟨0x100008, [(4, 0x4000)], 0x1F7F7FFF, 0, 0, 0, 0x7FFF, 0x1F7F7FFF, 0, 0, 0x1F7F7FFF, 0, 0x303030E⟩, -- CAN_NBT (R382 13_can_fd.md)
  ⟨0x10000C, [(4, 0x4000)], 0x1F0F0F1F, 0, 0, 0, 0xF1F, 0x1F0F0F1F, 0, 0, 0x1F0F0F1F, 0, 0x4040D⟩, -- CAN_DBT (R382 13_can_fd.md)
  ⟨0x100010, [(4, 0x4000)], 0x1007F, 0, 0, 0, 0x7F, 0x1007F, 0, 0, 0x1007F, 0, 0⟩, -- CAN_TDC (R382 13_can_fd.md)
  ⟨0x100014, [(4, 0x4000)], 0, 0x100, 0, 0, 0, 0, 0, 0, 0, 0, 0⟩, -- CAN_TDC_STS (R382 13_can_fd.md)
  ⟨0x100018, [(4, 0x4000)], 0, 0, 0, 0, 0, 0, 0, 0, 0, 0, 0⟩, -- CAN_ERR (R382 13_can_fd.md)
  ⟨0x10001C, [(4, 0x4000)], 0, 0, 0xFFFFFFFF, 0, 0, 0, 0, 0, 0, 0, 0⟩, -- CAN_CNT (R382 13_can_fd.md)
  ⟨0x100020, [(4, 0x4000)], 0, 0x1FFF, 0, 0, 0, 0, 0, 0, 0, 0, 0⟩, -- CAN_IRQ (R382 13_can_fd.md)
  ⟨0x100024, [(4, 0x4000)], 0x1FFF, 0, 0, 0, 0, 0, 0, 0, 0, 0, 0⟩, -- CAN_IE (R382 13_can_fd.md)
  ⟨0x100028, [(4, 0x4000)], 0, 0, 0, 0x707, 0, 0, 0, 0, 0, 0, 0⟩, -- CAN_TXB_CMD (R382 13_can_fd.md)
  ⟨0x10002C, [(4, 0x4000)], 0, 0x7770, 0, 0, 0, 0, 0, 0, 0, 0, 0⟩, -- CAN_TXB_STS (R382 13_can_fd.md)
  ⟨0x100030, [(4, 0x4000), (3, 4)], 0, 0, 0, 0xFFFFFFFF, 0, 0, 0, 0, 0, 0, 0⟩, -- CAN_MOREQ (R382 13_can_fd.md)
  ⟨0x10003C, [(4, 0x4000), (3, 4)], 0, 0, 0, 0, 0, 0, 0, 0, 0, 0, 0⟩, -- CAN_MOPEND (R382 13_can_fd.md)
  ⟨0x100048, [(4, 0x4000), (3, 4)], 0, 0xFFFFFFFF, 0, 0, 0, 0, 0, 0, 0, 0, 0⟩, -- CAN_NEW (R382 13_can_fd.md)
  ⟨0x100054, [(4, 0x4000), (3, 4)], 0, 0xFFFFFFFF, 0, 0, 0, 0, 0, 0, 0, 0, 0⟩, -- CAN_LOST (R382 13_can_fd.md)
  ⟨0x100060, [(4, 0x4000)], 0xFFFF0003, 0, 0, 0, 3, 0xFFFF0003, 0, 0, 0xFFFF0003, 0, 0x3E80000⟩, -- CAN_TTCFG (R382 13_can_fd.md)
  ⟨0x100064, [(4, 0x4000)], 0, 0x100, 0xFFFF0000, 0, 0, 0, 0, 0, 0, 0, 0⟩, -- CAN_TTSTS (R382 13_can_fd.md)
  ⟨0x100068, [(4, 0x4000)], 0x3FFFFFFF, 0, 0, 0, 0, 0x3FFFFFFF, 0, 0, 0x3FFFFFFF, 0, 0⟩, -- CAN_REFID (R382 13_can_fd.md)
  ⟨0x10006C, [(4, 0x4000)], 0xFF7F01, 0, 0, 0, 0x7F01, 0, 0, 0, 0, 0, 0x10000⟩, -- CAN_WAKE (R382 13_can_fd.md)
  ⟨0x100070, [(4, 0x4000)], 0, 0, 0, 0, 0, 0, 0, 0, 0, 0, 0⟩, -- CAN_TS_LO (R382 13_can_fd.md)
  ⟨0x100074, [(4, 0x4000)], 0, 0, 0, 0, 0, 0, 0, 0, 0, 0, 0⟩ -- CAN_TS_HI (R382 13_can_fd.md)
]

/-- Registers of block 0x0011_0000 (RING). -/
def regsRing : List RegSpec := [
  ⟨0x110000, [(16, 0x20)], 0xF, 0, 0, 0, 0xF, 0, 0, 0, 0, 0, 0⟩, -- RING_CFG (R446 15_host_interface.md)
  ⟨0x110004, [(16, 0x20)], 0, 0x1C, 0, 0, 0, 0, 0, 0, 0, 0, 0⟩, -- RING_STS (R446 15_host_interface.md)
  ⟨0x110008, [(16, 0x20)], 0xFFFF, 0, 0, 0, 0, 0, 0, 0, 0, 0, 0⟩, -- RING_HEAD (R446 15_host_interface.md)
  ⟨0x11000C, [(16, 0x20)], 0xFFFF, 0, 0, 0, 0, 0, 0, 0, 0, 0, 0⟩, -- RING_TAIL (R446 15_host_interface.md)
  ⟨0x110010, [(16, 0x20)], 0x1FFF, 0, 0, 0, 0x1FFF, 0, 0, 0, 0, 0, 0⟩, -- RING_THR (R446 15_host_interface.md)
  ⟨0x110014, [(16, 0x20)], 0, 0, 0xFFFF, 0, 0, 0, 0, 0, 0, 0, 0⟩, -- RING_DROP (R446 15_host_interface.md)
  ⟨0x110018, [(16, 0x20)], 0, 0, 0, 0, 0, 0, 0, 0, 0, 0, 0⟩, -- RING_CNT (R446 15_host_interface.md)
  ⟨0x11001C, [(16, 0x20)], 0, 0, 0, 0, 0, 0, 0, 0, 0, 0, 0⟩ -- RING_LVL (R446 15_host_interface.md)
]

/-- Registers of block 0x0012_0000 (EVT). -/
def regsEvt : List RegSpec := [
  ⟨0x120000, [], 1, 0, 0, 0, 1, 0, 0, 0, 0, 0, 0⟩, -- EVT_CTL (R446 15_host_interface.md)
  ⟨0x120004, [], 0, 0x200, 0, 0, 0, 0, 0, 0, 0, 0, 0⟩, -- EVT_STS (R446 15_host_interface.md)
  ⟨0x120008, [(2, 4)], 0, 0xFFFFFFFF, 0, 0, 0, 0, 0, 0, 0, 0, 0⟩, -- EVT_PEND (R446 15_host_interface.md)
  ⟨0x120010, [], 0, 0, 0xFFFFFFFF, 0, 0, 0, 0, 0, 0, 0, 0⟩, -- EVT_LOST (R446 15_host_interface.md)
  ⟨0x120040, [(16, 4)], 0, 0, 0xFFFF0000, 2, 0, 0, 0, 0, 0, 0, 0⟩, -- EVT_VEC (R446 15_host_interface.md)
  ⟨0x120080, [(64, 4)], 0x7F, 0, 0, 0, 0x7F, 0, 0, 0, 0, 0, 0⟩, -- EVT_SRC (R446 15_host_interface.md)
  ⟨0x120180, [(24, 4)], 0, 0, 0, 0, 0, 0, 0, 0, 0, 0, 0⟩, -- EVT_FR (R446 15_host_interface.md)
  ⟨0x1201E0, [], 0xFF01, 0, 0, 0, 0xFF01, 0, 0, 0, 0, 0, 0⟩, -- EVT_TRC_CTL (R446 15_host_interface.md)
  ⟨0x1201E4, [(7, 4)], 0xBFFC, 0, 0, 0, 0xBFFC, 0, 0, 0, 0, 0, 0⟩ -- EVT_TRC_SEL (R446 15_host_interface.md)
]

/-- Registers of block 0x0013_0000 (SAFE). -/
def regsSafe : List RegSpec := [
  ⟨0x130000, [], 0, 0, 0, 0, 0, 0, 0, 0, 0, 0, 0x8000⟩, -- SAFE_STS (R418 14_safety.md)
  ⟨0x130004, [], 0, 0xFF, 0, 0, 0, 0, 0, 0, 0, 0, 0⟩, -- SAFE_FLAGS (R418 14_safety.md)
  ⟨0x130008, [], 0, 0, 0, 0, 0, 0, 0, 0, 0, 0, 0⟩, -- SAFE_IN (R418 14_safety.md)
  ⟨0x13000C, [], 0, 0, 0, 0, 0, 0, 0, 0, 0, 0, 0⟩, -- SAFE_INFLT (R418 14_safety.md)
  ⟨0x130010, [], 0, 0, 0, 0, 0, 0, 0, 0, 0, 0, 0⟩, -- SAFE_OUT (R418 14_safety.md)
  ⟨0x130014, [], 0, 0, 0, 0, 0, 0, 0, 0, 0, 0, 0⟩, -- SAFE_PCRC (R418 14_safety.md)
  ⟨0x130018, [], 0xFFFFFFFF, 0, 0, 0, 0, 0, 0, 0, 0, 0, 0⟩, -- SAFE_CONFIRM (R418 14_safety.md)
  ⟨0x13001C, [], 0, 0, 0, 0xFFFF, 0, 0, 0, 0, 0, 0, 0⟩, -- SAFE_COMM_KEY (R418 14_safety.md)
  ⟨0x130020, [], 0x1FFFE0, 0, 0, 1, 0, 0x1FFFE1, 1, 0, 0, 0, 0⟩, -- SAFE_PLOAD (R418 14_safety.md)
  ⟨0x130024, [], 0xF, 0, 0, 0, 0xF, 0, 0, 0, 0, 0, 0⟩, -- SAFE_REQ (R418 14_safety.md)
  ⟨0x130028, [], 0, 0, 0xFF0000, 0, 0, 0, 0, 0, 0, 0, 0⟩, -- SAFE_NIP (R418 14_safety.md)
  ⟨0x13002C, [], 0, 0, 0, 0, 0, 0, 0, 0, 0, 0, 0⟩, -- SAFE_RESET (R418 14_safety.md)
  ⟨0x130030, [(12, 4)], 0, 0, 0xFF000000, 0, 0, 0, 0, 0, 0, 0, 0⟩, -- SAFE_PAIR (R418 14_safety.md)
  ⟨0x130060, [(8, 4)], 0, 0, 0, 0, 0, 0, 0, 0, 0, 0, 0⟩, -- SAFE_STO (R418 14_safety.md)
  ⟨0x130080, [(2, 4)], 0, 0, 0, 0, 0, 0, 0, 0, 0, 0, 0⟩, -- SAFE_SBC (R418 14_safety.md)
  ⟨0x130088, [], 0, 0, 0, 0, 0, 0, 0, 0, 0, 0, 0⟩, -- SAFE_LAST (R418 14_safety.md)
  ⟨0x13008C, [], 0, 0, 0, 0, 0, 0, 0, 0, 0, 0, 0⟩, -- SAFE_CLK (R418 14_safety.md)
  ⟨0x130090, [(8, 4)], 0, 0, 0xFF00, 0, 0, 0, 0, 0, 0, 0, 0⟩ -- SAFE_CONN (R418 14_safety.md)
]

/-- Registers of block 0x0014_0000 (SHARED). -/
def regsShared : List RegSpec := [
  ⟨0x140000, [], 0, 0, 0xFF, 0, 0, 0, 0, 0, 0, 0, 0⟩, -- SEC_STS (R464 16_lifecycle_security.md)
  ⟨0x140004, [], 0, 0, 0, 0, 0, 0, 0, 0, 0, 0, 0⟩, -- SEC_ALERT (R464 16_lifecycle_security.md)
  ⟨0x140008, [(4, 4)], 0, 0, 0, 0, 0, 0, 0, 0, 0, 0, 0⟩, -- SEC_NONCE (R464 16_lifecycle_security.md)
  ⟨0x140018, [(4, 4)], 0, 0, 0, 0, 0, 0, 0, 0, 0, 0, 0⟩, -- SEC_UID (R464 16_lifecycle_security.md)
  ⟨0x140028, [], 0, 0, 0, 0, 0, 0, 0, 0, 0, 0, 0⟩, -- SEC_ERASE (R464 16_lifecycle_security.md)
  ⟨0x14002C, [], 0, 0, 0, 0, 0, 0, 0, 0, 0, 0, 0⟩, -- SEC_TOKEN_STS (R464 16_lifecycle_security.md)
  ⟨0x140030, [], 0x1FFFE0, 0, 0, 1, 0, 0x1FFFE1, 0, 0, 0, 0, 0⟩, -- SEC_TOKEN (R464 16_lifecycle_security.md)
  ⟨0x140040, [], 1, 0, 0, 0, 1, 1, 0, 0, 0, 0, 0⟩, -- DBG_CTL (R464 16_lifecycle_security.md)
  ⟨0x140044, [], 0, 3, 0, 0, 0, 0, 0, 0, 0, 0, 0⟩, -- DBG_STS (R464 16_lifecycle_security.md)
  ⟨0x140048, [(8, 4)], 0xFF, 0, 0, 0, 0xFF, 0, 0, 0, 0, 0, 0⟩, -- DBG_TMX_SEL (R464 16_lifecycle_security.md)
  ⟨0x140100, [], 0, 0, 0, 0, 0, 0, 0, 0, 0, 0, 0⟩, -- GPIO_IN (R498 18_register_map.md)
  ⟨0x140104, [], 0xFFFF, 0, 0, 0, 0xFFFF, 0, 0, 0, 0, 0, 0⟩, -- GPIO_OUT (R498 18_register_map.md)
  ⟨0x140108, [], 0xFFFF, 0, 0, 0, 0xFFFF, 0, 0, 0, 0, 0, 0⟩, -- GPIO_OE (R498 18_register_map.md)
  ⟨0x14010C, [], 0, 0, 0, 0, 0, 0, 0, 0, 0, 0, 0⟩, -- GPIO_OWN0 (R498 18_register_map.md)
  ⟨0x140110, [], 0, 0, 0, 0, 0, 0, 0, 0, 0, 0, 0⟩, -- GPIO_OWN1 (R498 18_register_map.md)
  ⟨0x140114, [], 0xFFFF, 0, 0, 0, 0xFFFF, 0, 0, 0, 0, 0, 0⟩, -- GPIO_RISE_EN (R498 18_register_map.md)
  ⟨0x140118, [], 0xFFFF, 0, 0, 0, 0xFFFF, 0, 0, 0, 0, 0, 0⟩, -- GPIO_FALL_EN (R498 18_register_map.md)
  ⟨0x14011C, [], 0, 0xFFFF, 0, 0, 0, 0, 0, 0, 0, 0, 0⟩, -- GPIO_EDGE (R498 18_register_map.md)
  ⟨0x140120, [], 0xFF, 0, 0, 0, 0xFF, 0, 0, 0, 0, 0, 0⟩, -- GPIO_FILT (R498 18_register_map.md)
  ⟨0x140124, [], 0, 0xFFFF, 0, 0, 0, 0, 0, 0, 0, 0, 0⟩, -- GPIO_CONFLICT (R498 18_register_map.md)
  ⟨0x140128, [], 0, 0, 0, 0, 0, 0, 0, 0, 0, 0, 0⟩, -- GPIO_STAMP_LO (R498 18_register_map.md)
  ⟨0x14012C, [], 0, 0, 0, 0, 0, 0, 0, 0, 0, 0, 0⟩, -- GPIO_STAMP_HI (R498 18_register_map.md)
  ⟨0x140130, [], 0, 0, 0xFFFFFFFF, 0, 0, 0, 0, 0, 0, 0, 0⟩ -- GPIO_EDGE_CNT (R498 18_register_map.md)
]

/-- The register kind at BAR0 address `a`, by block (R491); `none` at a reserved offset (R6). -/
def regSpec (a : Nat) : Option RegSpec :=
  match a / 0x10000 with
  | 0 => findSpec regsDev a
  | 1 => findSpec regsClk a
  | 2 => findSpec regsTime a
  | 3 => findSpec regsEng a
  | 4 => findSpec regsCtx a
  | 5 => findSpec regsTile a
  | 6 => findSpec regsSns a
  | 7 => findSpec regsFld a
  | 8 => findSpec regsMod a
  | 9 => findSpec regsGate a
  | 10 => findSpec regsKyn a
  | 11 => findSpec regsArm a
  | 12 => findSpec regsProt a
  | 13 => findSpec regsFbk a
  | 14 => findSpec regsMot a
  | 15 => findSpec regsShft a
  | 16 => findSpec regsCan a
  | 17 => findSpec regsRing a
  | 18 => findSpec regsEvt a
  | 19 => findSpec regsSafe a
  | 20 => findSpec regsShared a
  | _ => none

/-- The value of the register at BAR0 address `a` after reset, as its register table gives it; a field whose reset
the tables give as "per part", "from OTP", "straps", "per cause", "fixed" or "per register" is overlaid at the read
(`State.view` in Machine/View.lean) or written by the reset commands. RING_THRn resets to 1 on RG4–RG7, else 0
(R447). -/
def resetWord (a : Nat) : Word :=
  if 0x110000 ≤ a ∧ a < 0x110200 ∧ a % 0x20 = 0x10 then (if 4 ≤ (a - 0x110000) / 0x20 ∧ (a - 0x110000) / 0x20 ≤ 7 then 1 else 0)
  else match regSpec a with
    | some r => BitVec.ofNat 32 r.reset
    | none => 0

end Sys2Proof.Machine
end

