-- ==== Sys2Proof/Machine/Store.lean ====
section
/-! DEFINITION. The two containers State is made of: a finite table keyed by number (register file, per-instance
records), and byte memory as a list of cells in one canonical form. Both are plain data. -/

namespace Sys2Proof.Machine

/-- A finite table: keys rising, a key that is not listed holds a default that the reader supplies. -/
abbrev Tbl (α : Type) := List (Nat × α)

/-- The entry of `t` at `k`; `d` where none is listed. -/
def tblGet {α : Type} (d : α) : Tbl α → Nat → α
  | [], _ => d
  | (j, x) :: t, k => if k = j then x else tblGet d t k

/-- `t` with `v` at `k`, keys kept rising. -/
def tblSet {α : Type} : Tbl α → Nat → α → Tbl α
  | [], k, v => [(k, v)]
  | (j, x) :: t, k, v =>
    if k = j then (k, v) :: t else if k < j then (k, v) :: (j, x) :: t else (j, x) :: tblSet t k v

/-- The value listed at `k`, if one is. -/
def tblFind {α : Type} : Tbl α → Nat → Option α
  | [], _ => none
  | (j, x) :: t, k => if k = j then some x else tblFind t k

/-- `t` without an entry at `k`. -/
def tblDel {α : Type} : Tbl α → Nat → Tbl α
  | [], _ => []
  | (j, x) :: t, k => if k = j then tblDel t k else (j, x) :: tblDel t k

/-- `t` without its entries whose key lies in `lo ≤ key < hi`. -/
def tblDelRange {α : Type} (t : Tbl α) (lo hi : Nat) : Tbl α := t.filter fun e => !(lo ≤ e.1 && e.1 < hi)

/-- What a byte of memory that nothing has written reads as: zero (R71, R430 for the memories the spec zeroes at
PORST_N; DESIGN CHOICE for the others, log entry 3). -/
def memDefault : Byte := 0

/-- The byte of memory at address `a`. -/
def memGet : List Host.Cell → Nat → Byte
  | [], _ => memDefault
  | (j, x) :: t, a => if a = j then x else memGet t a

/-- Memory with byte `v` at `a`, in canonical form: addresses rising, no cell equal to `memDefault`. -/
def memPut : List Host.Cell → Nat → Byte → List Host.Cell
  | [], a, v => if v = memDefault then [] else [(a, v)]
  | (j, x) :: t, a, v =>
    if a = j then (if v = memDefault then t else (a, v) :: t)
    else if a < j then (if v = memDefault then (j, x) :: t else (a, v) :: (j, x) :: t)
    else (j, x) :: memPut t a v

/-- The canonical form of memory above address `lo`: addresses strictly rising, no cell equal to `memDefault`. -/
def Memory.wfFrom : Nat → List Host.Cell → Bool
  | _, [] => true
  | lo, (a, v) :: t => lo ≤ a && v ≠ memDefault && Memory.wfFrom (a + 1) t

/-- The canonical form of memory. -/
def Memory.wf (m : List Host.Cell) : Bool := Memory.wfFrom 0 m

/-- The little-endian word of memory at `a` (bytes `a` to `a + 3`, least significant first; log entry 4). -/
def memWord (m : List Host.Cell) (a : Nat) : Word :=
  memGet m (a + 3) ++ memGet m (a + 2) ++ memGet m (a + 1) ++ memGet m a

/-- Memory with the word `w` stored at `a`, least significant byte first. -/
def memPutWord (m : List Host.Cell) (a : Nat) (w : Word) : List Host.Cell :=
  memPut (memPut (memPut (memPut m a (w.extractLsb' 0 8)) (a + 1) (w.extractLsb' 8 8)) (a + 2) (w.extractLsb' 16 8))
    (a + 3) (w.extractLsb' 24 8)

/-- Memory with the bytes of `w` that the byte enables `be` select stored at `a`. -/
def memPutBytes (m : List Host.Cell) (a : Nat) (w : Word) (be : BitVec 4) : List Host.Cell :=
  let m := if be.getLsbD 0 then memPut m a (w.extractLsb' 0 8) else m
  let m := if be.getLsbD 1 then memPut m (a + 1) (w.extractLsb' 8 8) else m
  let m := if be.getLsbD 2 then memPut m (a + 2) (w.extractLsb' 16 8) else m
  if be.getLsbD 3 then memPut m (a + 3) (w.extractLsb' 24 8) else m

/-- Memory with the words `ws` stored from `a` upward. -/
def memPutWords (m : List Host.Cell) (a : Nat) : List Word → List Host.Cell
  | [] => m
  | w :: ws => memPutWords (memPutWord m a w) (a + 4) ws

/-- Memory with the `n` bytes at `src` copied to `dst`, lowest first. -/
def memCopy (m : List Host.Cell) (src dst : Nat) : Nat → List Host.Cell
  | 0 => m
  | n + 1 => memCopy (memPut m dst (memGet m src)) (src + 1) (dst + 1) n

/-- The `n` bytes at `a`, lowest address first. -/
def memBytes (m : List Host.Cell) (a : Nat) : Nat → List Byte
  | 0 => []
  | n + 1 => memGet m a :: memBytes m (a + 1) n

/-- Memory with the bytes `bs` stored from `a` upward. -/
def memPutList (m : List Host.Cell) (a : Nat) : List Byte → List Host.Cell
  | [] => m
  | b :: bs => memPutList (memPut m a b) (a + 1) bs

end Sys2Proof.Machine
end

