-- ==== Sys2Proof/Machine/State.lean ====
section
/-! DEFINITION. The state of the block: plain data, holding every register, memory, FIFO, counter, mode and pin the
spec gives it, and the queue of the commands that wait. Registers are one table by BAR0 address (`regs`), with the
copies R11 speaks of beside it (`inForce`, `shadow`, `held`); what the rules imply but no register shows stands in
one structure per chapter. -/

namespace Sys2Proof.Machine

/-- The family members (R2). -/
inductive Part where
  | olv8840
  | olv8830
  | olv8810
  deriving DecidableEq, Repr

/-! ## Time and the tick (01_drive_model.md) -/

/-- An accepted start that is pending (R27, R29): its first tick start, and the period and lead in 4 ns counts and the epoch
in ns that it took. -/
structure StartReq where
  first : Nat
  period : Nat
  lead : Nat
  epoch : Nat
  deriving DecidableEq, Repr

/-- The tick generator and the global-time counter. -/
structure TimeSt where
  /-- Global time in ns (R30), the 64-bit counter's value. -/
  now : Nat := 0
  pend : Option StartReq := none
  /-- Period in 4 ns counts, lead in 4 ns counts and epoch in ns that govern the run (R29). -/
  period : Nat := 5000
  lead : Nat := 1500
  epoch : Nat := 0
  /-- Start instant of the tick in progress. -/
  start : Nat := 0
  /-- Phase of the tick in progress (R19): 0 none, 1 sample point passed, 2 headbox ready passed, 3 couch passed. -/
  phase : Nat := 0
  /-- A stop has been accepted and the tick in progress is the last (R28). -/
  stopping : Bool := false
  /-- The ball PPSO (R35). -/
  ppso : Bool := false
  /-- A follower that holds its counter (R37): by how many ns the master's time is behind the held value. -/
  holdLag : Option Nat := none
  /-- By how many ns a follower's counter still has to fall behind its timebase in a slew (R37). -/
  slow : Nat := 0
  /-- Time was lost while the tick ran, and the follower has not locked since: it re-locks by slewing (R38). -/
  reslew : Bool := false
  /-- The master's tick epoch as the last SYNC frame gave it (R36). -/
  masterEpoch : Nat := 0
  deriving DecidableEq, Repr

/-! ## The engine (02_nimson_engine.md, 03_nimson_instructions.md) -/

/-- An active loop of a lane (R87): slot of its body, first and last word, iteration index and count. -/
structure LoopRec where
  slot : Nat
  first : Nat
  last : Nat
  idx : Nat
  count : Nat
  deriving DecidableEq, Repr

/-- One core (R69): the slice it runs, its position, its register files, its instruction slots. Register tables list
only what differs from zero after slice start (R70). -/
structure LaneSt where
  busy : Bool := false
  ctx : Nat := 0
  start : Nat := 0
  budget : Nat := 0
  cyc : Nat := 0
  /-- Cycles of instructions stepped while halted, which the budget monitor does not count (R101). -/
  free : Nat := 0
  slot : Nat := 0
  word : Nat := 0
  s : Tbl Word := []
  v : Tbl VWord := []
  p : Tbl (BitVec 8) := []
  /-- A registers: tile number + 1 while open, 0 while not. -/
  a : Tbl Nat := []
  lst : BitVec 3 := 0
  loops : List LoopRec := []
  /-- Instruction slots: program tile + 1 staged in the slot, 0 for none. -/
  slots : Tbl Nat := []
  /-- End cycle of the lane's last slice in this tick. -/
  endCyc : Nat := 0
  /-- Slices that have started on the lane in this tick. -/
  done : List Nat := []
  /-- A write of step lets the lane execute one instruction while halted (R101). -/
  step : Bool := false
  deriving DecidableEq, Repr

/-- The commit group of a context in this tick (R53, R56, R57). -/
inductive Group where
  | opened
  | committed
  | discarded
  deriving DecidableEq, Repr

/-- One context slot (R44). `felt` holds (target word, staged bits) in program order. -/
structure CtxSt where
  felt : List (Word × Word) := []
  group : Group := .opened
  /-- Discard cause of this tick (R56). -/
  cause : Nat := 0
  /-- A keeper request was posted in this tick (R65). -/
  posted : Bool := false
  /-- TCOMMIT or TABORT has closed the group for the tick (R57). -/
  closed : Bool := false
  /-- Lane cycles that the context's ended slices have used in this tick. -/
  cyc : Nat := 0
  /-- A HALT_SELF that the keeper has served, and an accepted restart, wait for the next tick start (R64, R65). -/
  haltNext : Bool := false
  resumeNext : Bool := false
  deriving DecidableEq, Repr

/-- A posted keeper request (R65): context, service, arguments, tick and lane cycle of posting. -/
structure SvcReq where
  ctx : Nat
  svc : Nat
  a : Word
  b : Word
  tick : Nat
  cyc : Nat := 0
  deriving DecidableEq, Repr

/-- A deckle write of the keeper that acts at the next couch (R42, R60): drive, quantity, value, and whether it counts
as a narrowing for [8] of EV20 (R61). -/
structure DeckleWr where
  drive : Nat
  qty : Nat
  value : Nat
  narrow : Bool
  deriving DecidableEq, Repr

/-- The Nimson engine. -/
structure EngSt where
  /-- Cores by number: lanes 0–7, keeper core 8, safety core 9. -/
  lanes : Tbl LaneSt := []
  ctxs : Tbl CtxSt := []
  sched : Option Sched := none
  /-- Quarantined tiles in the order of quarantine (R51, R502), numbered as TILE_WM_FAIL.tile. -/
  quar : List Nat := []
  /-- Program tiles whose re-fetch did not lift the quarantine (R502). -/
  stuck : List Nat := []
  /-- Watermarks that differ from that of 1,024 zero bytes (R504). -/
  wm : Tbl Word := []
  /-- The scrubber runs (R49), the instant of its next check and the tile it checks next. -/
  scrub : Bool := false
  scrubAt : Nat := 0
  scrubTile : Nat := 0
  /-- Tile being re-fetched (R502). -/
  refetch : Option Nat := none
  /-- Table tiles whose rewrite the keeper has to check, with the value of TILE_WM_VALUE at each commit (R52). -/
  checking : List (Nat × Word) := []
  svcQ : List SvcReq := []
  /-- Words queued to the safety core and from it (R65 services 4 and 5). -/
  toSafety : List Word := []
  fromSafety : List Word := []
  /-- Configured deckle values (R437) by 8 × drive + quantity, and the keeper's writes that act at the next couch. -/
  configured : Tbl Nat := []
  deckleWr : List DeckleWr := []
  /-- Factors that driver-fault derating (R261) holds on a drive's quantities, same numbering. -/
  cap : Tbl Nat := []
  /-- Targets clamped at the previous couch (R61), as 32 × drive + number of the target. -/
  clamped : List Nat := []
  /-- Headbox words that are visible (R19, R117). -/
  headbox : Tbl Word := []
  /-- Instant of the debug halt in force (R460). -/
  haltAt : Option Nat := none
  /-- Reason code of the halt (R101), carried by the events of R460. -/
  haltReason : Nat := 0
  /-- Words of memory whose SECDED code is broken (R48): 1 a single-bit, 2 a double-bit error, by word address. -/
  ecc : Tbl Nat := []
  deriving DecidableEq, Repr

/-! ## Host interface, lifecycle, power and pins (15, 16, 17, 18) -/

/-- An event record in the log queue (R441, R442). -/
structure EvRec where
  source : Nat
  safety : Bool
  payload : Nat
  stamp : Nat
  origin : Word
  reaction : Word
  tick : Nat
  deriving DecidableEq, Repr

/-- A command taken from a ring and not yet answered (R435): ring, index, its eight words. -/
structure CmdRec where
  ring : Nat
  index : Nat
  words : List Word
  deriving DecidableEq, Repr

/-- The host side: latches, locks, log queue, message signalling. -/
structure HostSt where
  /-- R31 latches: upper halves by 4 × latch + master, latch 0 TIME_NOW, 1 GPIO_STAMP, 2+n CAN_TS of CANn. -/
  latch : Tbl Word := []
  /-- Instant of the last counted write of each host master while its lock is open (R428). -/
  lockAt : Tbl Nat := []
  /-- What the last read by each master returned. -/
  rdata : Tbl (List Word) := []
  queue : List EvRec := []
  logNo : Nat := 0
  /-- Records were dropped since the last one written (R441). -/
  dropped : Bool := false
  /-- Rings that have dropped since their last accepted record or configuration (R433). -/
  dropping : List Nat := []
  /-- Vectors whose message waits for a mask (R443), the MSI-X pending bits. -/
  pba : List Nat := []
  /-- The last MSI-X vector sent. -/
  lastMsg : Option Nat := none
  /-- Vectors masked in the MSI-X table, and the function mask (R443). -/
  masked : List Nat := List.range 16
  fnMask : Bool := false
  cmd : Option CmdRec := none
  /-- PCIe endpoint (R421): PERST_N level, link up, D3hot. -/
  perstN : Bool := true
  linkUp : Bool := false
  d3hot : Bool := false
  /-- SPI STATUS bits [0] and [1] (R423). -/
  spiDropped : Bool := false
  spiError : Bool := false
  deriving DecidableEq, Repr

/-- One-time-programmable memory, key store and boot flash (R448–R458, R412). -/
structure SecSt where
  /-- Lifecycle state in OTP, coded as DEV_LC.state. -/
  lifecycle : Nat := 2
  openMark : Bool := false
  scrapMark : Bool := false
  svnMin : Nat := 0
  customerKey : BitVec 768 := 0
  uid : BitVec 128 := 0
  /-- The image key in the key store (R453), absent until a provisioning image stores one. -/
  imageKey : Option (BitVec 256) := none
  jtag : Bool := false
  /-- The JTAG instruction selected (R448). -/
  jtagIr : JtagInstr := .idcode
  flash : Option Image := none
  /-- No boot flash is fitted (R412). -/
  noFlash : Bool := false
  /-- The admitted image, and whether it was read from the boot flash (R502). -/
  image : Option Image := none
  fromFlash : Bool := false
  /-- The keeper watchdog has fired (R455). -/
  wdFired : Bool := false
  deriving DecidableEq, Repr

/-- Resets, clocks, supplies, sensors (17_power_pins_ratings.md) and the GPIO balls (R498, R499). -/
structure PwrSt where
  mainRst : Bool := false
  safRst : Bool := false
  /-- The main die has left reset and the loader has not latched the straps yet (R449). -/
  bootPend : Bool := true
  /-- The safety die has left reset and not entered its self-test yet (R470). -/
  safPend : Bool := true
  /-- Causes of the reset that ends at the next release, as bits of CLK_RST_CAUSE; power-up before the first. -/
  causes : Word := 1
  rail : Nat := 0
  clockFail : Bool := false
  locked : Bool := false
  rstoutN : Bool := false
  /-- Measurements in a row, up to 2, that found a rail inside its warning window; EV55 can go out at 2 (R473). -/
  railIn : Tbl Nat := []
  /-- Rails that their last measurement found outside their reset window: 1 below it, 2 above it (R467–R470, R472). -/
  railOut : Tbl Nat := []
  /-- A reading has reached the thermal reset threshold, and none below 120 °C has come since (R474). -/
  hotRst : Bool := false
  /-- Levels of the GPIO balls, and of the filtered GPIOs. -/
  gpio : BitVec 16 := 0
  deriving DecidableEq, Repr

/-! ## Measurement (04_measurement.md) -/

/-- One sigma-delta channel: the bits it latched since its enable, newest in bit 0, how many (up to 768), the instant
after its last latching edge, and the instant its enable completed (R104, R106). -/
structure SdSt where
  bits : BitVec 768 := 0
  count : Nat := 0
  nextAt : Nat := 0
  enAt : Nat := 0
  /-- The instant after its last output while the tick is stopped (R106). -/
  outNext : Nat := 0
  /-- States of the high and low comparators after the last sinc2 output (R108). -/
  hi : Bool := false
  lo : Bool := false
  deriving DecidableEq, Repr

/-- The measurement front end. -/
structure SnsSt where
  sd : Tbl SdSt := []
  /-- First rising edge of each clock generator (R102). -/
  sdcAt : Tbl Nat := []
  /-- A start of the tick is accepted and its first tick start restarts the generators (R102). -/
  sdcRestart : Bool := false
  /-- Completion of the SAR enable, and the instant after its last idle sequence (R114). -/
  sarAt : Nat := 0
  sarNext : Nat := 0
  /-- Codes by input: slots 0 and 1 of this tick, slots 2–15 of this tick, slots 2–15 of the tick before (R114). -/
  ainNow : Tbl Nat := []
  ainBg : Tbl Nat := []
  ainPrior : Tbl Nat := []
  /-- Global time of the last sample point. -/
  sampleAt : Nat := 0
  /-- Uplink frames completed in this tick, one bit a lane (R117 0x060C). -/
  lanesDone : Nat := 0
  deriving DecidableEq, Repr

/-! ## Field control (05_field_control.md) -/

/-- A sequence a unit runs (R147–R153). -/
inductive Seq where
  | none
  | align
  | pulses
  | search
  | magnetise
  | feedback
  deriving DecidableEq, Repr

/-- The output pattern a unit gives outside RUN and RAMP (R148, R185 rank 5). -/
inductive Pattern where
  | block
  | low
  | high
  | vector (dir : Nat)
  | pwm
  deriving DecidableEq, Repr

/-- One field-control unit FUn. Per-unit values are binary32. -/
structure UnitSt where
  /-- The unit has been enabled at least once (R265). -/
  ever : Bool := false
  /-- Values that axes and load sharing put in place of reference fields at this couch, by field (R306, R355). -/
  ovr : Tbl F32 := []
  /-- Ramp value (R137), speed reference after curve, ramp and limits, integrators of R132 and of the speed controller. -/
  ramp : F32 := 0
  ref : F32 := 0
  xd : F32 := 0
  xq : F32 := 0
  xs : F32 := 0
  vdPre : F32 := 0
  vqPre : F32 := 0
  /-- The unit's own torque and the slip of an IM in pu at the last couch. -/
  torque : F32 := 0
  slip : F32 := 0
  /-- Effective torque limits of R136 as last computed. -/
  tMot : F32 := 0
  tReg : F32 := 0
  /-- Number of the next tick of the soft start, 1–16; 0 after it (R138). -/
  soft : Nat := 0
  /-- run_req at the previous couch (R129). -/
  runPrev : Nat := 0
  /-- A crash stop of the line's crash group starts at this couch (R358), and the run_req 2 in force has had its crash stop. -/
  crashGo : Bool := false
  crashDone : Bool := false
  /-- Locked-rotor timer in ns, its hold, sector now and sector last left, each + 1 (R158, R159). -/
  lrTime : Nat := 0
  lrHeld : Bool := false
  secNow : Nat := 0
  secLeft : Nat := 0
  /-- Couches in a row with the speed above the limit, 3 after EV22; fw_lim at the previous couch (R160, R142). -/
  ovs : Nat := 0
  fwPrev : Bool := false
  /-- Observer: angle, speed, EMF magnitude, loop angle error, ticks good in a row, ticks bad in a row, the bad run has been
  declared a loss (R144, R145). -/
  obsAng : F32 := 0
  obsSpd : F32 := 0
  obsEmf : F32 := 0
  obsErr : F32 := 0
  obsGood : Nat := 0
  obsBad : Nat := 0
  obsLost : Bool := false
  /-- Forced angle (R146). -/
  forced : Bool := false
  forcedAng : F32 := 0
  /-- The unit runs on the angle of its catch, with the speed `caught` (R152), and that angle at the sample point. -/
  caughtOn : Bool := false
  caughtAng : F32 := 0
  /-- The unit is in RUN or RAMP and no reload has come since its entry into RUN (R124). -/
  fresh : Bool := false
  /-- Measured speed, the angle in use at the sample point, and whether each is valid (R143). -/
  meas : F32 := 0
  measOk : Bool := false
  ang : F32 := 0
  angOk : Bool := false
  /-- Sequence in progress (R147): its pulse number, pulse width in 4 ns counts, sample points since it began, those to the
  end of its first pulse, its output pattern, whether a pulse is on and whether its second half is. -/
  seq : Seq := .none
  pulse : Nat := 0
  width : Nat := 0
  ticks : Nat := 0
  d0 : Nat := 0
  pat : Pattern := .block
  pulseOn : Bool := false
  half : Bool := false
  /-- Captured currents Δi in the stator frame with the width each pulse had, newest last; the check of R152 has failed
  once. -/
  caps : List (F32 × F32 × Nat) := []
  retried : Bool := false
  /-- A unit on an MMC in a sequence: the patterns that begin in the tick after the couch, with their offsets in ns (R147,
  R148). -/
  plan : Option (List (Nat × Pattern)) := none
  /-- Frequency search (R153): voltage magnitudes with their frequencies, the direction has been changed, ns since the
  sweep of this direction began, frame angle, caught speed, and the magnetising time has expired. -/
  search : List (F32 × F32) := []
  turned : Bool := false
  seqNs : Nat := 0
  seqAng : F32 := 0
  caught : F32 := 0
  magDone : Bool := false
  /-- Instant at which magnetising began (R153). -/
  magAt : Nat := 0
  /-- Phase duties of the search and of magnetising: asked for, the instant from which a reload takes them, and in force. -/
  own : List Nat := []
  ownFrom : Nat := 0
  ownAct : List Nat := []
  /-- Ride-through: couches with vdc below enter, couches of zero demand (R165, R166). -/
  rtLow : Nat := 0
  rtZero : Nat := 0
  /-- The short circuit was entered above min_speed (R163). -/
  ascAbove : Bool := false
  /-- One of three mapped phase channels was invalid at the previous couch (R167). -/
  phaseBad : Bool := false
  /-- Limp-home causes present: bit 0 port, bit 1 phase, bit 2 spares (R167). -/
  limp : Nat := 0
  deriving DecidableEq, Repr

/-! ## Modulation domains and legs (06_modulation.md) -/

/-- One modulation domain MDn. -/
structure MdSt where
  /-- The domain has had an accepted enable, so it has a topology and a bridge (R171). -/
  ever : Bool := false
  /-- Instant of the carrier's last zero event, or of the one its start position implies (R174, R176), and whether the
  counter is in the up half. -/
  zero : Int := 0
  up : Bool := true
  /-- Selected events still to pass before a reload event (R175), and a reload event is due. -/
  evLeft : Nat := 0
  due : Bool := false
  /-- Instant of the last reload event (R180). -/
  reloadAt : Option Nat := none
  /-- Values in the shadow act at no reload event before this instant (R179, R131). -/
  notBefore : Nat := 0
  /-- Carrier position (ns since the zero event) held during a debug halt (R196). -/
  held : Option Int := none
  /-- PSYNCO of MD0: end of the pulse (R194). -/
  syncUntil : Nat := 0
  deriving DecidableEq, Repr

/-- The output stage of leg LEGn. -/
structure LegSt where
  /-- The PWM command h (R177) as R183 lets it through, whether its present pulse was tested at rank 7, and the end that the
  test took for it (R184). -/
  h : Bool := false
  tested : Bool := false
  endAt : Int := 0
  /-- A pulse has been dropped (R183): the value h keeps until the schedule comes back to it. -/
  drop : Option Bool := none
  /-- GH and GL on after dead time, before the interlock, swap and inversion. -/
  gh : Bool := false
  gl : Bool := false
  /-- GH and GL as the interlock of R188 lets them through, and an interlock episode in progress. -/
  oh : Bool := false
  ol : Bool := false
  lock : Bool := false
  /-- A turn-on pending in dead time: GH (true) or GL, and its instant (R182). -/
  pend : Option (Bool × Nat) := none
  /-- A late turn-off of the switch T2 or T3 of an NPC phase on its way to all-off (R187). -/
  late : Option Nat := none
  /-- Instants at which GH and GL last turned on. -/
  ghAt : Nat := 0
  glAt : Nat := 0
  /-- GF hold of rank 2 (R260). -/
  held : Bool := false
  /-- Bootstrap (R192): start of the carrier period being counted, GL was on for the refresh width in it, periods without
  that, and the end of a refresh in progress. -/
  period : Option Nat := none
  refSeen : Bool := false
  refCnt : Nat := 0
  refUntil : Option Nat := none
  /-- A GATE_CMD in the shadow acts at no reload event or tick start before this instant (R191). -/
  notBefore : Nat := 0
  /-- End of GF blanking (R259). -/
  blankEnd : Nat := 0
  deriving DecidableEq, Repr

/-! ## Protection (09_protection.md) -/

/-- A demand that waits for the couch (R255): converter, class, state, event source, stamp, origin scope. -/
structure Demand where
  conv : Nat
  cls : Nat
  state : Nat
  source : Nat
  stamp : Nat
  origin : Word
  deriving DecidableEq, Repr

/-- Protection per converter position. -/
structure ConvSt where
  release : Bool := false
  /-- Instant of the RAMP_DOWN demand in force (R254). -/
  rampAt : Nat := 0
  /-- Stamp of the first GF leg since the last release, and that leg (R261). -/
  gfAt : Option (Nat × Nat) := none
  /-- Consecutive couches with vdc below uv, and with vdc invalid (R269). -/
  uvLow : Nat := 0
  vdcBad : Nat := 0
  /-- vdc at the last decision of the governor; NaN when invalid (R269). -/
  vdc : F32 := 0
  /-- An SS1 request of the safety die is present (R258). -/
  ss1 : Bool := false
  deriving DecidableEq, Repr

/-- One chopper channel (R271–R275). -/
structure ChopSt where
  /-- Decisions since the last change, start of the on-interval, vdc of its first decision. -/
  run : Nat := 0
  onAt : Nat := 0
  vStart : F32 := 0
  blankEnd : Nat := 0
  /-- The effectiveness check of this on-interval has been made, and its v_start is still to be taken (R274). -/
  checked : Bool := false
  vAsk : Bool := false
  /-- Level of the filtered CF input. -/
  cf : Bool := false
  deriving DecidableEq, Repr

/-- A pre-start diagnosis (R276–R279). -/
structure DiagSt where
  conv : Nat := 0
  step : Nat := 0
  startAt : Nat := 0
  /-- Readings of va, vb, vc and vdc by 4 × step + phase. -/
  reads : Tbl F32 := []
  deriving DecidableEq, Repr

/-- The protection logic. -/
structure ProtSt where
  convs : Tbl ConvSt := []
  /-- Demands of "couch" classes that wait (R255). -/
  waiting : List Demand := []
  /-- Faults of the coming couch that a command of their own has raised already: kind and index (R256). -/
  taken : List (Nat × Nat) := []
  chops : Tbl ChopSt := []
  diag : DiagSt := {}
  deriving DecidableEq, Repr

/-! ## Kynor lanes, cells and arms (07_kynor_link.md, 08_arms_and_cells.md) -/

/-- The two transitions of a downlink slot (R203, R205): command codes and offsets in ns. -/
structure CellCmd where
  c0 : Nat := 4
  o0 : Nat := 0
  c1 : Nat := 0
  o1 : Nat := 0
  deriving DecidableEq, Repr

/-- One Kynor lane KLn. -/
structure KynSt where
  /-- Frames go out at couches (RUN), the lane has come to READY from RUN, and the next READY frame is the first after IDENT. -/
  run : Bool := false
  afterRun : Bool := false
  sync : Bool := false
  /-- Instant at which the state in progress was entered. -/
  since : Nat := 0
  /-- The last downlink frame from SOF to EOF, a character with its control flag each (R202), and the instant its SOF left. -/
  frame : List (Bool × Byte) := []
  sof : Nat := 0
  /-- The downlink requirement D in ns (R209). -/
  dn : Nat := 0
  /-- The frames sent whose sample point has not come: base and tick character, oldest first. -/
  ahead : List (Nat × Nat) := []
  /-- The frame that named the last sample point: base and tick character; an uplink frame for it has been accepted;
  consecutive sample points without one (R215). -/
  due : Option (Nat × Nat) := none
  got : Bool := false
  missed : Nat := 0
  /-- Instant at which the SOF of the last uplink frame arrived (R459). -/
  upAt : Option Nat := none
  deriving DecidableEq, Repr

/-- One cell, as the device knows it. -/
structure CellSt where
  /-- The last accepted report (R204, R206): voltage count, flags, temperature, sequence number; its age (R120). -/
  raw : Nat := 0
  flags : Nat := 0
  temp : Nat := 0
  seq : Nat := 0
  age : Nat := 3
  /-- IDENT data (R207): t_r, δ, model, revision. -/
  tr : Nat := 0
  delta : Nat := 0
  model : Nat := 0
  revision : Nat := 0
  /-- DIAG is requested, has been sent, and its result (R214, R221). -/
  diagReq : Bool := false
  diagSent : Bool := false
  diagRes : Nat := 0
  /-- Consecutive accepted reports with uvlo, consecutive couches at age 3 (R241). -/
  uvRun : Nat := 0
  staleRun : Nat := 0
  /-- A failure cause that takes effect at the next couch (R242). -/
  fail : Option Nat := none
  /-- Stamp of a reported short circuit that waits for the couch (R263). -/
  scAt : Option Nat := none
  /-- PERMANENT_BYPASS is ordered, the couches since, and BYPASS_UNCONFIRMED has been raised (R213, R243). -/
  order : Bool := false
  couches : Nat := 0
  unconf : Bool := false
  /-- The slot composed for the next downlink (R213). -/
  cmd : CellCmd := {}
  deriving DecidableEq, Repr

/-- One arm ARMn. -/
structure ArmSt where
  /-- Slots inserted for the whole of the tick before (R236). -/
  w : List Nat := []
  /-- Couches in a row above spread_max and ic_max, and whether EV12 has been raised for each (R239, R240). -/
  spread : Nat := 0
  spreadUp : Bool := false
  circ : Nat := 0
  circUp : Bool := false
  /-- EV10 has been raised since the enable (R244). -/
  low : Bool := false
  deriving DecidableEq, Repr

/-! ## Feedback (10_feedback.md) -/

/-- One feedback port FPn. Observer quantities are in counts with 32 fraction bits, w per second, a per second². -/
structure PortSt where
  /-- Filtered levels of FAn, FBn and FZn. -/
  a : Bool := false
  b : Bool := false
  z : Bool := false
  /-- Decoder count of the tracks, whether it has been preset by a first conversion, and its changes of the last microsecond,
  newest first: instant and count before (R286). -/
  q : Int := 0
  preset : Bool := false
  qWas : List (Nat × Int) := []
  /-- Unsaturated count (R291) and the count within the revolution. -/
  u : Int := 0
  ang : Nat := 0
  /-- FBK_POS at the last observer update (R307), and before its first change after each of the last whole multiples of
  100,000 ns, newest first: the multiple and the position (R320). -/
  obsPos : Int := 0
  posWas : List (Nat × Int) := []
  /-- Last measured position of a SINCOS port; pending SINE code of the pair in conversion. -/
  lastP : Option Int := none
  /-- Instants of the last three illegal transitions, newest first. -/
  illegal : List Nat := []
  /-- Consecutive conversions with amp2 outside its window; the last conversion was inside it; EV28 has been raised since the
  last one inside. -/
  ampOut : Nat := 0
  ampOk : Bool := true
  ampTold : Bool := false
  /-- SSI: data line level at the first falling edge, instant of that edge, bad frames in a row, the last frame was good,
  a frame is in progress, its sample point is still to come, the first frame is still to come, the timing check failed in
  this run. -/
  ssiLow : Bool := false
  ssiAt : Nat := 0
  ssiBadRow : Nat := 0
  ssiGood : Bool := true
  ssiBusy : Bool := false
  ssiPre : Bool := false
  ssiFirst : Bool := true
  ssiFail : Bool := false
  /-- The sample point that the last frame was read for. -/
  ssiPoint : Option Nat := none
  /-- The last frame's position, its single-turn reading with mt 0, and whole turns counted with mt 0. -/
  lastSt : Option Nat := none
  turns : Int := 0
  /-- Observer (R294): position, speed, acceleration, measurements taken (0, 1, 2 = more), the first measurement,
  and the measurement of this tick with its instant relative to the sample point in ns. -/
  th : Int := 0
  w : Int := 0
  acc : Int := 0
  seen : Nat := 0
  first : Int := 0
  meas : Option (Int × Int) := none
  /-- Ticks since enable or clear, and whether the port has settled (R295). -/
  ticks : Nat := 0
  settled : Bool := false
  /-- Instant of the last idle cycle's end (R294). -/
  idleAt : Nat := 0
  /-- Farthest position in the direction of the pitch since the compare was armed, its count or measurement instant, and the
  instant at which the compare saw it (R298). -/
  best : Option Int := none
  bestAt : Nat := 0
  bestSeen : Nat := 0
  /-- End of the compare pulse in progress (R299). -/
  pulse : Option Nat := none
  deriving DecidableEq, Repr

/-- One encoder emulation output EEm (R300). -/
structure EmuSt where
  e : Int := 0
  t : Int := 0
  /-- The source's u to which target `tBase` corresponds, and z0. -/
  uBase : Int := 0
  tBase : Int := 0
  z0 : Nat := 0
  /-- Instant of the last step. -/
  stepAt : Nat := 0
  /-- EV33 has been raised and the backlog has not been 0 since. -/
  raised : Bool := false
  deriving DecidableEq, Repr

/-! ## Motion (11_motion.md) -/

/-- A command that a parked axis holds until its brake is released (R310). -/
inductive HeldCmd where
  | none
  | move
  | home
  deriving DecidableEq, Repr

/-- One motion axis MXn. Positions have 16 fraction bits (R304). -/
structure AxisSt where
  p : Int := 0
  v : F32 := 0
  a : F32 := 0
  /-- Move taken last (R311): kind, position target, speed target, and the target was clamped to a virtual limit (R318). -/
  kind : Nat := 0
  pt : Int := 0
  vt : F32 := 0
  clamped : Bool := false
  /-- MOT_TGT7.seq at the previous couch. -/
  seq : Nat := 0
  /-- The axis has spent a couch in WAIT since it entered it; its run request at the previous couch (R310). -/
  waited : Bool := false
  runReq : Nat := 0
  /-- A stop request and a home command wait for the couch. -/
  stopReq : Bool := false
  homeReq : Bool := false
  /-- Cause of an axis fault that waits for the couch (R317). -/
  fault : Nat := 0
  /-- STOP was entered from MOVE, and for a fault. -/
  fromMove : Bool := false
  byFault : Bool := false
  held : HeldCmd := .none
  /-- Sides whose switch latched hl_latched (R321, R322), and the instants of the last raw changes of each switch. -/
  latchHi : Bool := false
  latchLo : Bool := false
  chgHi : List Nat := []
  chgLo : List Nat := []
  /-- Homing (R323–R325): phase (1 search, 2 stop before the creep, 3 creep to the release, 4 creep to the index, 5 final
  stop, 6 stop at an unexpected limit), the phase to go on with after 6, direction, travel, unexpected limits, captured home
  position, and the axis waits for an index. -/
  phase : Nat := 0
  after : Nat := 0
  neg : Bool := false
  travel : Nat := 0
  limits : Nat := 0
  home : Option Int := none
  wantIdx : Bool := false
  /-- A home that ended without a home: home_res and cause, for the couch (R324). -/
  homeEnd : Nat := 0
  /-- Couches in a row above the following-error limit, in MOVE or HOME and in HOLD (R317); standstill timer in ns (R330). -/
  ferrRun : Nat := 0
  ferrHold : Nat := 0
  stand : Nat := 0
  /-- Instant of entry into PARK, the run request has changed (R331), instant of the release request (R332), the axis asks
  for a release (R404). -/
  parkAt : Nat := 0
  coiled : Bool := false
  relAt : Option Nat := none
  rel : Bool := false
  /-- The axis follows its cam, or holds until the cam is enabled again (R329). -/
  camOn : Bool := false
  camHold : Bool := false
  /-- Slack timer in ns, slack has been declared; couches in a row of speed difference; sync inhibit (R336, R338). -/
  slackNs : Nat := 0
  slackUp : Bool := false
  syncRun : Nat := 0
  syncInh : Bool := false
  /-- The unit's torque at the previous couch (R337), and overload render at this couch (R334). -/
  tau : F32 := 0
  ovl : Bool := false
  deriving DecidableEq, Repr

/-- One cam CAMm: couches since its enable, turns of the coordinate at the previous couch (R327). -/
structure CamSt where
  couches : Nat := 0
  turns : Option Int := none
  deriving DecidableEq, Repr

/-! ## Shaft link (12_shaft_link.md) -/

/-- A load-share function (R355–R357). -/
structure ShareSt where
  /-- The last linked source torque, replaced value, and the drive's speed at that couch. -/
  src : F32 := 0
  val : F32 := 0
  w : F32 := 0
  /-- Couches of a blend done (1–64), 0 for none, and the value it starts from. -/
  blend : Nat := 0
  frm : F32 := 0
  /-- The drive's own torque at the previous couch. -/
  tau : F32 := 0
  deriving DecidableEq, Repr

/-- The shaft link. Rings: 0 A, 1 B; tables keyed by 8 × ring + node where both matter. -/
structure LineSt where
  /-- Instant of the start of forming, and of the last good frame of each origin on each ring. -/
  since : Nat := 0
  heard : Tbl Nat := []
  /-- Instant of the last formation failure on each ring. -/
  failAt : Tbl Nat := []
  /-- Rings and origins that have delivered in this tick or period; ticks in a row in which some member has not, and in
  which all have, per ring (R353). -/
  got : List Nat := []
  miss : Tbl Nat := []
  good : Tbl Nat := []
  /-- Rings that have gone down and need 16 good ticks (R353), sums of the link delays of each ring (R349). -/
  fallen : List Nat := []
  sums : Tbl Nat := []
  /-- EXCH frames accepted for the next receive-area write: origin, ring and frame (R349). -/
  acc : Tbl (Nat × List Byte) := []
  /-- Ages of members, members received since the line formed, crash flag of each member's last written frame, its b (R352). -/
  age : Tbl Nat := []
  seen : List Nat := []
  crash : List Nat := []
  blocks : Tbl Nat := []
  /-- A crash stop starts at the next couch, and its flag came late (R358); grouped drives whose request waits for that. -/
  crashGo : Bool := false
  flagged : List Nat := []
  /-- Instant of the last usable SYNC frame (R347). -/
  syncAt : Option Nat := none
  /-- Sequence number of the next MAIL frame, numbers delivered last per origin, the mail entry given up (R354). -/
  mailSeq : Nat := 0
  mailLast : Tbl Nat := []
  /-- The couch last passed in this run, its EXCH frame has not been sent, and mail may leave after the last EXCH or HELLO
  frame (R348, R354). -/
  couched : Option Nat := none
  exchGo : Bool := false
  mailGo : Bool := false
  /-- The frames that the last command sent on both rings, from K27.7 to K29.7, a character with its control flag each (R344,
  R348, R354). -/
  sent : List (List (Bool × Byte)) := []
  /-- Frames on each ring's transmitter: the instant at which each begins to leave, in order (R343, R354). -/
  out : Tbl (List (Nat × List (Bool × Byte))) := []
  shares : Tbl ShareSt := []
  deriving DecidableEq, Repr

/-! ## CAN FD (13_can_fd.md) -/

/-- One controller CANn. Objects 0–2 are TXB0–TXB2, 3 + m is MOm. -/
structure CanSt where
  /-- Mode in force; a disable waits for the end of the frame in progress. -/
  mode : Nat := 0
  leaving : Bool := false
  /-- Object whose frame is on the bus, 99 for a reference message; its cancel waits for the frame's end. -/
  onBus : Option Nat := none
  cancel : Bool := false
  /-- The frame that CTXn sends; another node's frame is on the bus; 11 recessive bits are awaited after an error (R364, R374). -/
  sending : Option CanFrame := none
  foreign : Bool := false
  wait : Bool := false
  /-- The read buffer of R369: object and words. -/
  rbuf : Option (Nat × List Word) := none
  /-- A reference message is requested, its cycle count, the cycle start, the stamp of the last one, objects triggered in
  this cycle, objects that have been triggered and not started (R377–R379). -/
  refReq : Bool := false
  cycle : Nat := 0
  start : Nat := 0
  refSeen : Bool := false
  /-- A receiver has seen no reference message for 2 × ref_period since the last one, or since its enable (R378). -/
  refTold : Bool := false
  triggered : List Nat := []
  due : List Nat := []
  deriving DecidableEq, Repr

/-! ## Safety (14_safety.md) -/

/-- One pair as a channel evaluates it (R395–R397). -/
structure PairSt where
  st : Nat := 0
  passed : Bool := false
  timer : Nat := 0
  cause : Nat := 0
  /-- Two-hand function (even pair): both hands have been released since the last permit, tick at which the first became
  actuated, the function permits. -/
  freed : Bool := false
  firstAt : Option Nat := none
  permit : Bool := false
  deriving DecidableEq, Repr

/-- A channel: the safety die or the safety core (R384). -/
structure ChanSt where
  /-- Filtered inputs, samples each has differed from its filtered level, test-pulse faults. -/
  img : BitVec 24 := 0
  cnt : Tbl Nat := []
  inflt : BitVec 24 := 0
  /-- Filtered SRESET, samples it has differed, sample of its rising edge, a valid pulse that has just ended. -/
  sres : Bool := false
  scnt : Nat := 0
  rise : Nat := 0
  pulse : Bool := false
  pairs : Tbl PairSt := []
  /-- Outputs the channel wants on, SS1 timers (sample of expiry), outputs an SS1 has turned off, brakes and locks it wants
  released, gate-enable net it wants. -/
  sto : BitVec 8 := 0
  ss1 : Tbl Nat := []
  sbc : BitVec 2 := 0
  gen : Bool := false
  /-- Last permit word received from the other channel: STO, SBC and net bits; ticks since. -/
  permit : BitVec 11 := 0
  permitAge : Nat := 2
  /-- The channel's own STO balls as last commanded, and the sample at which each turned off last. -/
  ball : BitVec 8 := 0
  offAt : Tbl Nat := []
  /-- The pairs that the reset accepted since the last tick has reset (R406). -/
  rst : Option (List Nat) := none
  /-- The CRC of the set as the channel computed it; 0 while it holds none (R406, R411). -/
  crc : Word := 0
  deriving DecidableEq, Repr

/-- One safety connection (R415, R416). -/
structure ConnSt where
  /-- Consumer: a reference is held. Producer: echoes in a row, up to 2. -/
  good : Nat := 0
  latched : Bool := false
  /-- Instant at which the watchdog expires. -/
  due : Option Nat := none
  data : List Byte := []
  /-- A producer's frames without an echo yet: sequence number and the instant by which the echo is due. -/
  out : List (Nat × Nat) := []
  /-- Instant of a producer's next DATA frame (R416). -/
  sendAt : Option Nat := none
  deriving DecidableEq, Repr

/-- The two channels and what they share. -/
structure SafeSt where
  die : ChanSt := {}
  core : ChanSt := {}
  /-- Samples since the safety die's release. -/
  sample : Nat := 0
  /-- Read-back: consecutive samples with a wrong level per ball (0–7 STOA, 8–15 STOB, 16–17 SBCA, 18–19 SBCB), and the
  levels read last. -/
  rbRun : Tbl Nat := []
  back : BitVec 20 := 0
  /-- Sample at which the latest pulse of each TPO began (R392), and sample at which the latest output test of each ball
  ends (R405). -/
  tpoAt : Tbl Nat := []
  testEnd : Tbl Nat := []
  /-- Nip mismatches in a row (R406); counts out of range in a row (R388), of the die's clock and of the core's. -/
  nipRow : Nat := 0
  clkRow : Nat := 0
  clkRowCore : Nat := 0
  /-- Both channels have finished their self-test (R389). -/
  selfDone : Bool := false
  /-- A load is being checked, and it comes from the safety store. -/
  checking : Bool := false
  fromStore : Bool := false
  armed : Bool := false
  /-- Samples at which brakes are to be applied (R403): key m for the safety die, 2 + m for the safety core. -/
  brakeAt : Tbl Nat := []
  conns : Tbl ConnSt := []
  /-- The safety store of the boot flash (R412): a set is stored; the confirmed value. -/
  stored : Bool := false
  storedConf : Option Word := none
  deriving DecidableEq, Repr

/-! ## The state -/

/-- The whole state of the block. -/
structure State where
  /-- Commands that wait, first in, first out (the model's own field). -/
  pending : List Instr := []
  /-- Free values drawn so far (the model's own field; log entry 2). -/
  freeCtr : Nat := 0
  part : Part := .olv8840
  /-- Every register by BAR0 address: the value a read returns, at the reset value where none is listed. -/
  regs : Tbl Word := []
  /-- Values that "at next enable" fields had at their block's last enable (R11). -/
  inForce : Tbl Word := []
  /-- Shadow values of the "at reload" fields (R11, R179). -/
  shadow : Tbl Word := []
  /-- Shadow values as they stood before the last couch, which reload events take until the couch's values act (R179). -/
  elig : Tbl Word := []
  /-- Host writes to "at couch" fields that wait for the couch (R59). -/
  held : Tbl Word := []
  /-- All byte memory: windows by BAR0 address, ring memory, local data, slots, open tiles. -/
  mem : List Host.Cell := []
  tm : TimeSt := {}
  eng : EngSt := {}
  host : HostSt := {}
  sec : SecSt := {}
  pwr : PwrSt := {}
  units : Tbl UnitSt := []
  mds : Tbl MdSt := []
  legs : Tbl LegSt := []
  prot : ProtSt := {}
  /-- The gate-enable net from the safety die is active (R386). -/
  gateNet : Bool := false
  sns : SnsSt := {}
  ports : Tbl PortSt := []
  emus : Tbl EmuSt := []
  kyn : Tbl KynSt := []
  cells : Tbl CellSt := []
  arms : Tbl ArmSt := []
  axes : Tbl AxisSt := []
  cams : Tbl CamSt := []
  line : LineSt := {}
  cans : Tbl CanSt := []
  saf : SafeSt := {}
  deriving DecidableEq, Repr

/-- The reasons a command stops the model. -/
inductive Fault where
  /-- Raised by no meaning: the spec gives every command of the table an effect, and the answer to a bad operand is an
  effect too (a dropped frame, an ILLEGAL word, a refused request). Safe: where it would be raised the model stops. -/
  | noEffect
  deriving DecidableEq, Repr

/-- The reasons the model gives a command no meaning. -/
inductive Refusal where
  /-- Answered by the dispatch alone, for a row that has no meaning yet. Safe: the model stops. -/
  | notModelled (mnemonic : String)
  deriving DecidableEq, Repr

/-- The block right after reset: both dies have just been released, every register holds its reset value, no command
waits. -/
def State.reset : State := {}

end Sys2Proof.Machine
end

