-- ==== Sys2Proof/Machine/Ops.lean ====
section
/-! DEFINITION. The named operations over registers, memory, events, rings and time that every meaning is written in. -/

namespace Sys2Proof.Machine

/-! ## Registers -/

/-- `2^n − 1` as a number. -/
def ones (n : Nat) : Nat := 2 ^ n - 1

/-- Word `w` with its `width` bits from `lsb` up replaced by the low bits of `v`. -/
def insertBits (w : Word) (lsb width v : Nat) : Word :=
  (w &&& ~~~(BitVec.ofNat 32 (ones width <<< lsb))) ||| BitVec.ofNat 32 ((v % 2 ^ width) <<< lsb)

/-- The `width` bits of `w` from `lsb` up, as a number. -/
def getBits (w : Word) (lsb width : Nat) : Nat := (w.toNat >>> lsb) % 2 ^ width

/-- The register at BAR0 address `a`, as it stands. -/
def State.reg (s : State) (a : Nat) : Word := tblGet (resetWord a) s.regs a

/-- The state with register `a` holding `w`. -/
def State.setReg (s : State) (a : Nat) (w : Word) : State := { s with regs := tblSet s.regs a w }

/-- A register field, as a number. -/
def State.f (s : State) (x : Fld) : Nat := getBits (s.reg x.addr) x.lsb x.width

/-- A register field read as a flag. -/
def State.bit (s : State) (x : Fld) : Bool := s.f x != 0

/-- The state with field `x` holding the low bits of `v`. -/
def State.setF (s : State) (x : Fld) (v : Nat) : State :=
  s.setReg x.addr (insertBits (s.reg x.addr) x.lsb x.width v)

/-- The state with field `x` holding the flag `v`. -/
def State.setB (s : State) (x : Fld) (v : Bool) : State := s.setF x v.toNat

/-- A counter field one higher, saturating at the largest value of its width. -/
def State.incSat (s : State) (x : Fld) (by_ : Nat := 1) : State := s.setF x (min (ones x.width) (s.f x + by_))

/-- A counter field one higher, wrapping. -/
def State.incWrap (s : State) (x : Fld) (by_ : Nat := 1) : State := s.setF x (s.f x + by_)

/-- A field raised to `v` where it is lower (the "largest since last read" counters). -/
def State.maxF (s : State) (x : Fld) (v : Nat) : State := s.setF x (max (s.f x) v)

/-- The value of a field that was in force at the block's last enable (R11 "at next enable"). -/
def State.fe (s : State) (x : Fld) : Nat := getBits (tblGet (resetWord x.addr) s.inForce x.addr) x.lsb x.width

/-- As `fe`, read as a flag. -/
def State.bitE (s : State) (x : Fld) : Bool := s.fe x != 0

/-- The registers in `lo ≤ a < hi` that are listed, copied into the values in force: what an enable does (R11). -/
def State.takeInForce (s : State) (lo hi : Nat) : State :=
  { s with inForce := tblDelRange s.inForce lo hi ++ s.regs.filter fun e => lo ≤ e.1 && e.1 < hi }

/-- A two's-complement number of `w` bits. -/
def signed (w n : Nat) : Int := if n < 2 ^ (w - 1) then (n : Int) else (n : Int) - (2 : Int) ^ w

/-- The `w`-bit two's-complement code of `i`. -/
def unsigned (w : Nat) (i : Int) : Nat := (i % (2 : Int) ^ w).toNat

/-- `i` cut to the range `lo … hi`. -/
def clampInt (lo hi i : Int) : Int := max lo (min hi i)

/-- A register field read as a two's-complement number. -/
def State.fi (s : State) (x : Fld) : Int := signed x.width (s.f x)

/-- A field in force read as a two's-complement number. -/
def State.fei (s : State) (x : Fld) : Int := signed x.width (s.fe x)

/-- The state with a signed field holding `i`, saturated to the field's range. -/
def State.setI (s : State) (x : Fld) (i : Int) : State :=
  s.setF x (unsigned x.width (clampInt (-(2 : Int) ^ (x.width - 1)) ((2 : Int) ^ (x.width - 1) - 1) i))

/-! ## Free values -/

/-- Draw a free value of `w` bits: it is unconstrained, and the next draw is another (log entry 2). -/
def State.free (s : State) (w : Nat) : BitVec w × State :=
  (Config.freeBits w s.freeCtr, { s with freeCtr := s.freeCtr + 1 })

/-! ## Memory: one address space, BAR0 addresses for the windows and addresses beyond BAR0 for what no host reaches -/

/-- Program memory window (R494): 2,048 tiles of 1 KiB. -/
def progBase : Nat := 0x200000
/-- Table memory window (R494): 1,024 tiles of 1 KiB. -/
def tableBase : Nat := 0x400000
/-- Data memory window (R494): 2 MiB. -/
def dataBase : Nat := 0x500000
/-- MSI-X table (R494). -/
def msixBase : Nat := 0xFF0000
/-- Ring memory, BAR2 (R430): address bit 31 selects it (R423). -/
def ringBase : Nat := 0x80000000
/-- Local data of core `c` (lanes 0–7, keeper 8, safety core 9; R71, R99). -/
def localBase (c : Nat) : Nat := 0x100000000 + c * 0x10000
/-- Contents of instruction slot `s` of lane `n` (R41). -/
def slotBase (n s : Nat) : Nat := 0x200000000 + n * 0x10000 + s * 0x400
/-- Open-tile buffer of A register `a` of lane `n` (R49). -/
def tileBuf (n a : Nat) : Nat := 0x300000000 + n * 0x10000 + a * 0x400
/-- Message RAM of controller CANn (R492). -/
def canRam (n : Nat) : Nat := 0x102000 + n * 0x4000
/-- Copies of tables that a block takes at its enable (R125, R326): block number `k`, 0x10000 bytes each. -/
def copyBase (k : Nat) : Nat := 0x400000000 + k * 0x10000

/-- Word `i` of SHARE block `n`, the exchange values that a couch commits (R54, R350). -/
def shareAt (n i : Nat) : Nat := 0x500000000 + n * 32 + i * 4

/-- The word of memory at `a`. -/
def State.word (s : State) (a : Nat) : Word := memWord s.mem a

/-- The state with the word `w` stored at `a`. -/
def State.putWord (s : State) (a : Nat) (w : Word) : State := { s with mem := memPutWord s.mem a w }

/-- The state with the bytes of `w` that `be` selects stored at `a`. -/
def State.putBytes (s : State) (a : Nat) (w : Word) (be : BitVec 4) : State :=
  { s with mem := memPutBytes s.mem a w be }

/-- The state with the words `ws` stored from `a` upward. -/
def State.putWords (s : State) (a : Nat) (ws : List Word) : State := { s with mem := memPutWords s.mem a ws }

/-- The state with `n` bytes copied from `src` to `dst`. -/
def State.copy (s : State) (src dst n : Nat) : State := { s with mem := memCopy s.mem src dst n }

/-- The `n` words of memory from `a` upward. -/
def State.words (s : State) (a : Nat) : Nat → List Word
  | 0 => []
  | n + 1 => s.word a :: s.words (a + 4) n

/-! ## CRC -/

/-- One bit of a reflected CRC. -/
def crcBit (poly : Nat) (c : Nat) : Nat := if c % 2 = 1 then (c >>> 1) ^^^ poly else c >>> 1

/-- One byte of a reflected CRC. -/
def crcByte (poly : Nat) (c : Nat) (b : Byte) : Nat :=
  let c := c ^^^ b.toNat
  crcBit poly (crcBit poly (crcBit poly (crcBit poly (crcBit poly (crcBit poly (crcBit poly (crcBit poly c)))))))

/-- A reflected 32-bit CRC that starts at all ones and is inverted at the end. -/
def crcReflected (poly : Nat) (bs : List Byte) : Word := ~~~(BitVec.ofNat 32 (bs.foldl (crcByte poly) 0xFFFFFFFF))

/-- CRC-32C (R49). -/
def crc32c (bs : List Byte) : Word := crcReflected 0x82F63B78 bs

/-- One bit of an unreflected CRC of `w` bits. -/
def crcBitUp (w poly : Nat) (c : Nat) : Nat :=
  if c / 2 ^ (w - 1) % 2 = 1 then ((c <<< 1) % 2 ^ w) ^^^ poly else (c <<< 1) % 2 ^ w

/-- One byte of an unreflected CRC of `w` bits, `w ≥ 8`. -/
def crcByteUp (w poly : Nat) (c : Nat) (b : Byte) : Nat :=
  let c := c ^^^ (b.toNat <<< (w - 8))
  crcBitUp w poly (crcBitUp w poly (crcBitUp w poly (crcBitUp w poly
    (crcBitUp w poly (crcBitUp w poly (crcBitUp w poly (crcBitUp w poly c)))))))

/-- An unreflected CRC of `w` bits from the start value `init`. -/
def crcUp (w poly init : Nat) (bs : List Byte) : Nat := bs.foldl (crcByteUp w poly) init

/-! ## Variants (R2, R3) -/

/-- Number of Kynor lanes, engine lanes and field-control units, and of cells, by part (R2). -/
def Part.kynLanes : Part → Nat
  | .olv8840 => 16
  | .olv8830 => 8
  | .olv8810 => 0

/-- Engine lanes, and field-control units, of the part (R2). -/
def Part.lanes : Part → Nat
  | .olv8840 => 8
  | .olv8830 => 8
  | .olv8810 => 4

/-- Cells of the part (R2). -/
def Part.cells (p : Part) : Nat := 24 * p.kynLanes

/-- Arms and MMC converters present (R2, R3). -/
def Part.mmc : Part → Bool
  | .olv8810 => false
  | _ => true

/-- Is the BAR0 register address one of a resource the part lacks (R3)? PROT_CV0 and PROT_CV1 of an OLV8810 are, although R282
has a code for their enable (log entry 97). -/
def Part.lacks (p : Part) (a : Nat) : Bool :=
  let blk := a / 0x10000
  let off := a % 0x10000
  if blk = 3 then off / 0x80 ≥ p.lanes
  else if blk = 7 then off / 0x100 ≥ p.lanes
  else if blk = 10 then off / 0x40 ≥ p.kynLanes
  else if blk = 11 then !p.mmc || (0x1000 ≤ off && (off - 0x1000) / 8 ≥ p.cells)
  else if blk = 12 then !p.mmc && (0x200 ≤ off && off < 0x280)
  else false

/-- The bits that the register at `a` has: TIME_TICK_EPOCH_LO[1:0] read zero (R26), MOD_SYNC is MD0's (R194, R198), ARM_MIRROR
is ARM0's and ARM6's (R232), ARM_BALCFG.ic_max belongs to upper arms (R240), the FBK_EE registers to ports 0 and 1 (R300). -/
def liveBits (a : Nat) : Word :=
  let o := a % 0x10000
  match a / 0x10000 with
  | 2 => if o = 0x28 then 0xFFFFFFFC else 0xFFFFFFFF
  | 8 => if o % 0x100 = 0x2C && 0x100 ≤ o then 0 else 0xFFFFFFFF
  | 11 =>
    if 0x600 ≤ o then 0xFFFFFFFF
    else if o % 0x80 = 0x48 then (if o / 0x80 % 6 = 0 then 0xFFFFFFFF else 0)
    else if o % 0x80 = 0x4C && o / 0x80 % 2 = 1 then 0x0000FFFF else 0xFFFFFFFF
  | 13 => if 0x100 ≤ o && 0x60 ≤ o % 0x80 && o % 0x80 < 0x6C then 0 else 0xFFFFFFFF
  | _ => 0xFFFFFFFF

/-! ## Time -/

/-- The state with global time brought forward to `t`; it never decreases (R30), and it stands while a follower holds its
counter (R37). -/
def State.at (s : State) (t : Nat) : State :=
  if s.tm.holdLag.isSome then s else { s with tm := { s.tm with now := max s.tm.now t } }

/-- A debug halt holds (R101, R196). -/
def State.halted (s : State) : Bool := s.eng.haltAt.isSome

/-- First grid instant `e + m × t` at or after `x` (R26). -/
def gridAt (e t x : Nat) : Nat := e + (x - e + t - 1) / t * t

/-- Global time. -/
def State.now (s : State) : Nat := s.tm.now

/-- The tick runs (TIME_TICK_STS.running). -/
def State.running (s : State) : Bool := s.bit F.TIME_TICK_STS_running

/-- Period of the tick in force, in ns. -/
def State.periodNs (s : State) : Nat := 4 * s.tm.period

/-- Instant of the couch of the tick in progress (R19). -/
def State.couchAt (s : State) : Nat := s.tm.start + s.periodNs - 4 * s.tm.lead

/-- The TIME_TICK_COUNT of the tick that contains the stamp, of the present run or of the last one; 0 where the tick is stopped
then (R442 word 5). -/
def State.tickOf (s : State) (stamp : Nat) : Nat :=
  let n := s.f F.TIME_TICK_COUNT_count
  let back := (s.tm.start - stamp + s.periodNs - 1) / s.periodNs
  if s.tm.start + s.periodNs ≤ stamp then
    (if s.running && !s.tm.stopping then (n + (stamp - s.tm.start) / s.periodNs) % 2 ^ 32 else 0)
  else if s.tm.start ≤ stamp then n
  else if back ≤ n then n - back else 0

/-! ## Scope words (R16) -/

/-- The scope word of an element. -/
def scopeWord (level index : Nat) : Word := BitVec.ofNat 32 (level % 8 * 0x10000 + index % 0x10000)

/-- No element of the drive train. -/
def scopeNone : Word := 0

/-- The device, at its position on its line (R16). -/
def State.scopeDev (s : State) : Word := scopeWord 6 (s.f F.TIME_LINE_STS_position)

/-! ## Events (R440–R444) -/

/-- A source's pending bit. -/
def pendFld (src : Nat) : Fld := ⟨R.EVT_PEND (src / 32), src % 32, 1⟩

/-- The level of MSI-X vector `v` (R443). -/
def State.vecLevel (s : State) (v : Nat) : Bool :=
  (List.range 64).any fun k =>
    s.bit (F.EVT_SRC_vec_en k) && s.f (F.EVT_SRC_vector k) == v && s.bit (pendFld k)

/-- Send vector `v`'s message, or hold it in the PBA while a mask holds it back (R443; log entry 41). -/
def State.sendMsg (s : State) (v : Nat) : State :=
  if s.host.masked.contains v || s.host.fnMask then
    { s with host := { s.host with pba := if s.host.pba.contains v then s.host.pba else v :: s.host.pba } }
  else { s.incSat (F.EVT_VEC_sent v) with
    host := { s.host with lastMsg := some v, pba := s.host.pba.filter (· != v) } }

/-- What a change from `s` to `s'` sends: vector `v`'s message where its level rises (R443). -/
def State.msgOnRise (s s' : State) (v : Nat) : State :=
  if !s.vecLevel v && s'.vecLevel v then s'.sendMsg v else s'

/-- A record enters the log queue, or is lost when the queue is full (R441). -/
def State.enqueue (s : State) (r : EvRec) : State :=
  if 256 ≤ s.host.queue.length then
    { (s.incSat F.EVT_LOST_lost).setF F.EVT_STS_queue_full 1 with host := { s.host with dropped := true } }
  else
    let q := s.host.queue ++ [r]
    { s.setF F.EVT_STS_queue q.length with host := { s.host with queue := q } }

/-- Raise source `src` with stamp `stamp` (R440): the pending bit, the count, the log queue where log_en is 1, and
the message of the source's vector where its level rises. -/
def State.raiseAt (s : State) (stamp : Nat) (safety : Bool) (src payload : Nat) (origin reaction : Word) : State :=
  let v := s.f (F.EVT_SRC_vector src)
  let s1 := (s.setF (pendFld src) 1).incWrap (F.EVT_SRC_count src)
  let s2 := s.msgOnRise s1 v
  if s.bit (F.EVT_SRC_log_en src) then
    s2.enqueue ⟨src, safety, payload % 0x10000, stamp, origin, reaction, s.tickOf stamp⟩
  else s2

/-- Raise a main-die source at the present instant. -/
def State.raise (s : State) (src payload : Nat) (origin reaction : Word) : State :=
  s.raiseAt s.now false src payload origin reaction

/-- Raise a safety-die source: its stamp is that of its arrival, 2 µs after the event, so that the log places it after every
main-die event of that time (R32, R33; log entry 98). -/
def State.raiseSafety (s : State) (src payload : Nat) (reaction : Word) : State :=
  s.raiseAt (s.now + 2000) true src payload s.scopeDev reaction

/-- Raise a source whose origin is the device and whose reaction changed no output. -/
def State.raiseDev (s : State) (src payload : Nat) : State := s.raise src payload s.scopeDev scopeNone

/-- ALERT_N is low (R444). -/
def State.alert (s : State) : Bool :=
  s.bit F.EVT_CTL_alert_en && (List.range 64).any fun k => s.bit (F.EVT_SRC_alert_en k) && s.bit (pendFld k)

/-! ## Rings (R430–R434) -/

/-- The ring is enabled (R431). -/
def State.ringOn (s : State) (n : Nat) : Bool := s.bit (F.RING_STS_enabled n)

/-- Number of entries the ring can hold, 2^size. -/
def State.ringCap (s : State) (n : Nat) : Nat := 2 ^ s.f (F.RING_CFG_size n)

/-- Number of entries the ring holds, (tail − head) mod 65,536 (R430). -/
def State.ringCount (s : State) (n : Nat) : Nat :=
  (s.f (F.RING_TAIL_tail n) + 0x10000 - s.f (F.RING_HEAD_head n)) % 0x10000

/-- Address of entry index `i` of ring `n` (R430). -/
def State.ringEntry (s : State) (n i : Nat) : Nat := ringBase + n * 0x20000 + (i % s.ringCap n) * 32

/-- The rings the device produces (R430). -/
def deviceRing (n : Nat) : Bool := (4 ≤ n && n ≤ 9) || n == 11 || n == 13 || n == 15

/-- Store the entries of one record at the tail of ring `n` (each entry eight words). -/
def State.ringStore (s : State) (n i : Nat) : List (List Word) → State
  | [] => s
  | e :: es => (s.putWords (s.ringEntry n i) e).ringStore n (i + 1) es

/-- A device producer offers a record of one or more entries to ring `n` (R432–R434): it is written whole and the tail
advances in one step, with EV52 where the count rises to thr; or it is dropped whole, with EV53 at the first drop. -/
def State.ringPut (s : State) (n : Nat) (es : List (List Word)) : State :=
  if !s.ringOn n then s
  else if s.ringCount n + es.length ≤ s.ringCap n then
    let c := s.ringCount n
    let thr := s.f (F.RING_THR_thr n)
    let s1 := ((s.ringStore n (s.f (F.RING_TAIL_tail n)) es).incWrap (F.RING_TAIL_tail n) es.length).incWrap
      (F.RING_CNT_entries n) es.length
    let s2 := { s1 with host := { s1.host with dropping := s1.host.dropping.filter (· != n) } }
    if thr != 0 && c < thr && thr ≤ c + es.length then s2.raiseDev 52 n else s2
  else
    let s1 := (s.incSat (F.RING_DROP_drops n)).setF (F.RING_STS_overflow n) 1
    if s.host.dropping.contains n then s1
    else
      let s2 := { s1 with host := { s1.host with dropping := n :: s1.host.dropping } }
      if n == 8 then
        let s3 := (s2.setF (pendFld 53) 1).incWrap (F.EVT_SRC_count 53)
        s2.msgOnRise s3 (s2.f (F.EVT_SRC_vector 53))
      else s2.raiseDev 53 n

/-- The device takes the entry at the head of ring `n`, where there is one (R430). -/
def State.ringTake (s : State) (n : Nat) : Option (List Word × State) :=
  if !s.ringOn n || s.ringCount n = 0 then none
  else some (s.words (s.ringEntry n (s.f (F.RING_HEAD_head n))) 8, s.incWrap (F.RING_HEAD_head n))

/-! ## Masters and locks (R422, R424, R428) -/

/-- Number of a master in the per-master tables (R31, R428). -/
def masterIdx : Sys2Proof.Master → Nat
  | .keeper => 0
  | .pcie => 1
  | .spi => 2
  | .cmd => 3

/-- The key guard applies: the lifecycle state is FIELD or FIELD_OPEN (R428). -/
def State.guard (s : State) : Bool := s.sec.lifecycle == 3 || s.sec.lifecycle == 4

/-- The open bit of a host master's lock; the keeper has none. -/
def lockFld : Master → Option Fld
  | .keeper => none
  | .pcie => some F.DEV_LOCK_STS_pcie_open
  | .spi => some F.DEV_LOCK_STS_spi_open
  | .cmd => some F.DEV_LOCK_STS_cmd_open

/-- Master `m` may write key-guarded fields: the guard does not apply to it, or its lock is open. -/
def State.keyed (s : State) (m : Master) : Bool :=
  match lockFld m with
  | none => true
  | some x => !s.guard || s.bit x

/-- The lock of master `m` opens or closes. -/
def State.setLock (s : State) (m : Master) (v : Bool) : State :=
  match lockFld m with
  | none => s
  | some x =>
    let s := s.setB x v
    { s with host := { s.host with
      lockAt := if v then tblSet s.host.lockAt (masterIdx m) s.now else tblDel s.host.lockAt (masterIdx m) } }

/-- A write of `val` to DEV_LOCK_KEY. -/
def State.lockKey (s : State) (m : Master) (val : Word) : State := s.setLock m (getBits val 0 16 == 0x5A3C)

/-- A write by master `m` that no rule exempts closes its lock. -/
def State.lockUse (s : State) (m : Master) : State := s.setLock m false

/-- An open lock has seen no write for 1 ms. -/
def State.lockLapse (s : State) (m : Master) : State :=
  match lockFld m, tblFind s.host.lockAt (masterIdx m) with
  | some x, some t => if s.bit x then (((s.at (t + 1000000)).setLock m false).setF F.DEV_LOCK_STS_lapsed 1) else s
  | _, _ => s

/-! ## What a reset die does with a command -/

/-- A command that the main die acts on: while its reset is asserted nothing happens (R468, R469). -/
def onMain (s : State) (act : State → State) : Host.Outcome State Fault Refusal :=
  .next (if s.pwr.mainRst then s else act s)

/-- A command that the safety die acts on (R470). -/
def onSafety (s : State) (act : State → State) : Host.Outcome State Fault Refusal :=
  .next (if s.pwr.safRst then s else act s)

/-- An access of master `m`: in D3hot the device takes no action on a request of the PCIe host (R421, R422). -/
def onBus (s : State) (m : Master) (act : State → State) : Host.Outcome State Fault Refusal :=
  onMain s fun s => if m = .pcie && s.host.d3hot then s else act s

/-- The first instant of the grid `origin + j × step`, `j ≥ 1`, at or after `t` (R106, R114). -/
def gridNext (origin step t : Nat) : Nat := origin + step * max 1 ((t - origin + step - 1) / step)

/-! ## Numbers of R8 -/

/-- Round a rational `n / d` (d > 0) to the nearest integer, ties to even. -/
def roundEven (n : Int) (d : Nat) : Int :=
  let q := n / (d : Int)
  let r := (n % (d : Int)).toNat
  if 2 * r < d then q else if d < 2 * r then q + 1 else if q % 2 = 0 then q else q + 1

end Sys2Proof.Machine
end

