-- ==== Sys2Proof/Machine/Bind.lean ====
section
/-! DEFINITION. Who belongs to whom: units, domains, legs, bridges and converters (R14, R122, R171, R250), and the leg
output stage that every block acts on (R182, R185–R190). -/

namespace Sys2Proof.Machine

/-- Unit FUn's hidden state. -/
def State.unit (s : State) (n : Nat) : UnitSt := tblGet {} s.units n
/-- The state with unit `n` as `u`. -/
def State.setUnit (s : State) (n : Nat) (u : UnitSt) : State := { s with units := tblSet s.units n u }
/-- Domain MDd's hidden state. -/
def State.md (s : State) (d : Nat) : MdSt := tblGet {} s.mds d
/-- The state with domain `d` as `x`. -/
def State.setMd (s : State) (d : Nat) (x : MdSt) : State := { s with mds := tblSet s.mds d x }
/-- Leg LEGn's hidden state. -/
def State.leg (s : State) (n : Nat) : LegSt := tblGet {} s.legs n
/-- The state with leg `n` as `x`. -/
def State.setLeg (s : State) (n : Nat) (x : LegSt) : State := { s with legs := tblSet s.legs n x }
/-- Converter position `k`'s hidden state. -/
def State.conv (s : State) (k : Nat) : ConvSt := tblGet {} s.prot.convs k
/-- The state with converter position `k` as `x`. -/
def State.setConv (s : State) (k : Nat) (x : ConvSt) : State :=
  { s with prot := { s.prot with convs := tblSet s.prot.convs k x } }

/-! ## Converters (R250) -/

/-- The converter positions of the part: 0 and 1 are absent on the OLV8810 (R3, R250). -/
def State.convExists (s : State) (k : Nat) : Bool := k < 8 && (2 ≤ k || s.part.mmc)

/-- Scope word of converter position `k`: CVv, or the direct bridge BRb (R16). -/
def scopeConv (k : Nat) : Word := if k < 2 then scopeWord 4 k else scopeWord 4 (0x100 + (k - 2))

/-- The topology that governs domain `d`: that of its last accepted enable; `none` before the first (R171). -/
def State.topo (s : State) (d : Nat) : Option Nat := if (s.md d).ever then some (s.fe (F.MOD_CTL_topo d)) else none

/-- The bridge that governs domain `d` (R171). -/
def State.bridge (s : State) (d : Nat) : Option Nat := if (s.md d).ever then some (s.fe (F.MOD_CTL_bridge d)) else none

/-- The unit is enabled: its state is other than OFF. -/
def State.unitOn (s : State) (u : Nat) : Bool := s.f (F.FLD_STS_state u) != 0

/-- The converter to which FUu was bound at its last enable (R122, R265). -/
def State.unitConv (s : State) (u : Nat) : Option Nat :=
  if !(s.unit u).ever then none
  else if s.fe (F.FLD_BIND_conv u) == 2 then some (s.fe (F.FLD_BIND_cv u))
  else (s.bridge (s.fe (F.FLD_BIND_md u))).map (· + 2)

/-- The enabled units bound to converter position `k` (R250; only an enabled unit counts as bound, log entry 11). -/
def State.boundUnits (s : State) (k : Nat) : List Nat :=
  (List.range 8).filter fun u => s.unitOn u && s.unitConv u == some k

/-- The enabled unit bound to domain `d`, if any (R122, R125 DUP). -/
def State.domainUnit (s : State) (d : Nat) : Option Nat :=
  (List.range 8).find? fun u => s.unitOn u && s.fe (F.FLD_BIND_conv u) != 2 && s.fe (F.FLD_BIND_md u) == d

/-- The domain of leg `n` (R171). -/
def State.legDomain (s : State) (n : Nat) : Option Nat :=
  if s.bit (F.GATE_CFG_assigned n) then some (s.f (F.GATE_CFG_md n)) else none

/-- The bridge of leg `n`, through its domain (R14, R171). -/
def State.legBridge (s : State) (n : Nat) : Option Nat := (s.legDomain n).bind s.bridge

/-- The assigned leg that holds slot `j` of domain `d`; the lowest where several do. -/
def State.slotLeg (s : State) (d j : Nat) : Option Nat :=
  (List.range 18).find? fun n => s.legDomain n == some d && s.f (F.GATE_CFG_slot n) == j

/-- The legs of domain `d`. -/
def State.domainLegs (s : State) (d : Nat) : List Nat := (List.range 18).filter fun n => s.legDomain n == some d

/-- The legs of bridge `b`. -/
def State.bridgeLegs (s : State) (b : Nat) : List Nat := (List.range 18).filter fun n => s.legBridge n == some b

/-- The unit that governs the legs of domain `d` (R185): the enabled one bound to it, else one that was bound to it at its
last enable and is in OFF, which blocks its converter's pulses (R126; log entry 23). -/
def State.governUnit (s : State) (d : Nat) : Option Nat :=
  match s.domainUnit d with
  | some u => some u
  | none => (List.range 8).find? fun u => (s.unit u).ever && s.fe (F.FLD_BIND_conv u) != 2 && s.fe (F.FLD_BIND_md u) == d

/-- The unit and its domain's topology disagree (R173). -/
def State.mismatch (s : State) (d : Nat) : Bool :=
  match s.domainUnit d, s.topo d with
  | some u, some t => (s.fe (F.FLD_BIND_conv u) == 0 && t != 0) || (s.fe (F.FLD_BIND_conv u) == 1 && t != 1)
  | some _, none => true
  | none, _ => false

/-- Legs that carry an NPC phase: the partner of leg `n` and whether `n` is the outer leg (R172). -/
def State.npcPartner (s : State) (n : Nat) : Option (Nat × Bool) :=
  match s.legDomain n with
  | none => none
  | some d =>
    if s.topo d == some 1 then
      let j := s.f (F.GATE_CFG_slot n)
      if j % 2 = 0 then (s.slotLeg d (j + 1)).map fun m => (m, true)
      else (s.slotLeg d (j - 1)).map fun m => (m, false)
    else none

/-- Phase number of leg `n` in its domain. -/
def State.legPhase (s : State) (n : Nat) : Nat :=
  let j := s.f (F.GATE_CFG_slot n)
  match s.legDomain n with
  | none => j
  | some d => if s.topo d == some 1 then j / 2 else j

/-- td_eff of leg `n`: the larger of the dead time in force and the floor (R182). -/
def State.tdEff (s : State) (n : Nat) : Nat := max (s.fe (F.GATE_DT_dt n)) (s.fe (F.GATE_FLOOR_floor n))

/-- The gate-enable net from the safety die is active (R386). -/
def State.netOn (s : State) : Bool := s.gateNet

/-! ## The leg output stage (R185–R188) -/

/-- Rank of the condition that governs leg `n` (R185); a bridge in PULSE_BLOCK is held off at rank 2 (R251). -/
def State.legRank (s : State) (n : Nat) : Nat :=
  let dom := s.legDomain n
  let drdy := match s.legBridge n with
    | some b => (s.f F.PROT_DRDY_STS_lat).testBit b
    | none => false
  let diag := s.bit F.PROT_DIAG_STS_busy && s.legBridge n == some (s.prot.diag.conv - 2) && 2 ≤ s.prot.diag.conv
  let blocked := match s.legBridge n with
    | some b => s.f (F.PROT_CV_STS_state (b + 2)) == 1
    | none => false
  if !s.netOn then 1
  else if (s.leg n).held || drdy || diag || blocked then 2
  else if !s.bit (F.GATE_STS_enabled n) then 3
  else match dom with
    | none => if s.f (F.GATE_CMD_force n) != 0 then 6 else 7
    | some d =>
      if !s.bit (F.MOD_STS_running d) || s.mismatch d then 3
      else
        let rank45 := match s.governUnit d with
          | some u =>
            let st := match s.bridge d with
              | some b => s.f (F.PROT_CV_STS_state (b + 2))
              | none => 0
            let us := s.f (F.FLD_STS_state u)
            if 2 ≤ st && st ≤ 3 then 4 else if (us != 4 && us != 5) || (s.unit u).fresh then 5 else 0
          | none => 0
        if rank45 != 0 then rank45 else if s.f (F.GATE_CMD_force n) != 0 then 6 else 7

/-- Phases at DC+ of the active vector k × 60°. -/
def vectorMask (k : Nat) : Nat := [1, 3, 2, 6, 4, 5][k % 6]?.getD 1

/-- What a pattern of R148 asks of a leg: (GH, GL). For an NPC phase DC− is T3 and T4, DC+ T1 and T2, so both legs of
the phase take the same side. The direction of a vector counts 15°; a direct unit gives active vectors, every 60°. -/
def patternAsk (p : Pattern) (phase : Nat) : Bool × Bool :=
  match p with
  | .block => (false, false)
  | .low => (false, true)
  | .high => (true, false)
  | .vector k => if (vectorMask (k / 4)).testBit phase then (true, false) else (false, true)
  | .pwm => (false, false)

/-- The pattern of the phase-bias test for a leg of the tested bridge (R278): step p+1 puts phase p at DC−. -/
def State.diagAsk (s : State) (n : Nat) : Bool × Bool :=
  let st := s.prot.diag.step
  if st != 0 && s.legPhase n == st - 1 && !(s.leg n).held then (false, true) else (false, false)

/-- What the governing source asks of leg `n`: (GH, GL), before NPC sequencing (R185). -/
def State.legAsk (s : State) (n : Nat) : Bool × Bool :=
  match s.legRank n with
  | 1 => (false, false)
  | 2 => if s.bit F.PROT_DIAG_STS_busy && s.legBridge n == some (s.prot.diag.conv - 2) then s.diagAsk n else (false, false)
  | 3 => (false, false)
  | 4 =>
    match s.legBridge n with
    | some b =>
      let st := s.f (F.PROT_CV_STS_state (b + 2))
      if st = 2 then (false, true) else if st = 3 then (true, false) else (false, false)
    | none => (false, false)
  | 5 =>
    match (s.legDomain n).bind s.governUnit with
    | some u => if (s.unit u).pat = .pwm then ((s.leg n).h, !(s.leg n).h) else patternAsk (s.unit u).pat (s.legPhase n)
    | none => (false, false)
  | 6 =>
    if (s.leg n).refUntil.isSome then (false, true)
    else
      let fo := s.f (F.GATE_CMD_force n)
      if fo = 2 then (true, false) else if fo = 3 then (false, true) else (false, false)
  | _ =>
    if (s.leg n).refUntil.isSome then (false, true)
    else if (s.legDomain n).isNone then (false, false)
    else ((s.leg n).h, !(s.leg n).h)

/-- The ask of leg `n` with the NPC sequence of R187: between +1 and −1 the leg that leaves its level switches first,
and the other leg keeps its level until that leg's turn-on has completed. -/
def State.legTarget (s : State) (n : Nat) : Bool × Bool :=
  let a := s.legAsk n
  match s.npcPartner n with
  | none => a
  | some (m, outer) =>
    let x := s.leg n
    let y := s.leg m
    let b := s.legAsk m
    if outer then (if a.1 && x.gl && b.1 && !y.gh then (false, true) else a)
    else (if a.2 && x.gh && b.2 && !y.gl then (true, false) else a)

/-! ## After dead time: interlock, blanking, bootstrap (R188, R192, R259) -/

/-- Blanking of leg `n` starts at the present instant (R259). -/
def State.gfBlank (s : State) (n : Nat) : State :=
  let w := max 500 (min 10000 (s.f (F.PROT_GF_blank n)))
  (s.setF (F.PROT_GF_in_blank n) 1).setLeg n { s.leg n with blankEnd := s.now + w }

/-- The outputs of leg `n` as the interlock lets them through: both off while both ask for on, T1 off while T2 is not on,
T4 off while T3 is not on (R188). -/
def State.interlocked (s : State) (n : Nat) : Bool × Bool :=
  let x := s.leg n
  if x.gh && x.gl then (false, false)
  else match s.npcPartner n with
    | none => (x.gh, x.gl)
    | some (m, outer) =>
      let y := s.leg m
      if outer then (x.gh && y.gh && !y.gl, x.gl) else (x.gh, x.gl && y.gl && !y.gh)

/-- GL of leg `n` has been on for the refresh width without a break in the period being counted (R192). -/
def State.refreshSeen (s : State) (n : Nat) : Bool :=
  let x := s.leg n
  match x.period with
  | none => false
  | some z => x.refSeen || (x.ol && s.fe (F.GATE_BOOT_width n) ≤ s.now - max x.glAt z)

/-- Bring the outputs of leg `n` up to date: interlock episode, blanking at a turn-on, time GL has been on. A refresh lasts for
its width from the turn-on of GL (R192). -/
def State.legSettle (s : State) (n : Nat) : State :=
  let x := s.leg n
  let o := s.interlocked n
  let lock := o != (x.gh, x.gl)
  let s := if lock && !x.lock then (s.setF (F.GATE_STS_interlock n) 1).incSat (F.GATE_CNT_interlock n) else s
  let seen := s.refreshSeen n
  let s := s.setLeg n { x with oh := o.1, ol := o.2, lock := lock, refSeen := seen,
                               refUntil := if o.2 && !x.ol then x.refUntil.map fun _ => s.now + s.fe (F.GATE_BOOT_width n)
                                 else x.refUntil,
                               ghAt := if o.1 && !x.oh then s.now else x.ghAt,
                               glAt := if o.2 && !x.ol then s.now else x.glAt }
  if (o.1 && !x.oh) || (o.2 && !x.ol) then s.gfBlank n else s

/-- Bring leg `n` to what its source asks (R186): a switch that is not asked for turns off at once (T2 and T3 of an
NPC phase on its way to all-off td_eff later, R187); a switch that is asked for turns on td_eff later; a pending
turn-on whose switch is asked off is cancelled. A debug halt keeps every level but for ranks 1 and 2 (R196). -/
def State.legApply (s : State) (n : Nat) : State :=
  let rank := s.legRank n
  if 2 < rank && s.eng.haltAt.isSome then s
  else
    let x := s.leg n
    let x := { x with refUntil := if rank < 6 then none else x.refUntil, tested := x.tested && rank == 7 }
    let x := if rank = 3 then { x with period := none, refCnt := 0, refSeen := false } else x
    let s := s.setLeg n x
    let t := s.legTarget n
    let td := s.tdEff n
    let npc := s.npcPartner n
    let (m, outer) := npc.getD (n, false)
    let allOff := npc.isSome && rank != 1 && s.legRank m != 1 && t == (false, false) && s.legAsk m == (false, false)
    let tdIn := if outer then s.tdEff m else td
    let lateGl := allOff && outer && x.gl
    let lateGh := allOff && !outer && x.gh
    let late := if lateGl || lateGh then some (x.late.getD (s.now + tdIn)) else none
    let gh := if t.1 then x.gh else lateGh
    let gl := if t.2 then x.gl else lateGl
    let pend :=
      if t.1 && !x.gh then (match x.pend with | some (true, i) => some (true, i) | _ => some (true, s.now + td))
      else if t.2 && !x.gl then (match x.pend with | some (false, i) => some (false, i) | _ => some (false, s.now + td))
      else none
    (s.setLeg n { x with gh := gh, gl := gl, pend := pend, late := late }).setF (F.GATE_STS_src n) rank

/-- Bring the listed legs to what their sources ask, in ascending order, twice, so that an NPC partner follows, and then
settle their outputs. -/
def State.legsApply (s : State) (ls : List Nat) : State :=
  let s := ls.foldl State.legApply s
  let s := ls.foldl State.legApply s
  ls.foldl State.legSettle s

/-- Bring every leg to what its source asks. -/
def State.allLegs (s : State) : State := s.legsApply (List.range 18)

/-- Leg `n` and its NPC partner. -/
def State.legPair (s : State) (n : Nat) : List Nat :=
  match s.npcPartner n with
  | some (m, _) => if m < n then [m, n] else [n, m]
  | none => [n]

/-- The dead time, or the late turn-off of R187, of leg `n` ends (R182): the switch that waits turns on. A debug halt keeps the
switch that is to turn off, but for ranks 1 and 2 (R196). -/
def State.deadTimeEnd (s : State) (n : Nat) : State :=
  let x := s.leg n
  match x.late, x.pend with
  | some i, _ => if s.halted && 2 < s.legRank n then s else ((s.at i).setLeg n { x with gh := false, gl := false, late := none }).legsApply (s.legPair n)
  | none, some (upper, i) =>
    ((s.at i).setLeg n { x with gh := x.gh || upper, gl := x.gl || !upper, pend := none }).legsApply (s.legPair n)
  | none, none => s

/-- Level of a ball: `none` for high impedance (R189, R190); `upper` is the ball GHn, else GLn. swap exchanges the two
signals, and an inversion goes with its signal (DEDUCED, log entry 21). -/
def State.ball (s : State) (n : Nat) (upper : Bool) : Option Bool :=
  if !s.netOn || s.pwr.mainRst then none
  else
    let x := s.leg n
    let sig := if s.bit (F.GATE_CFG_swap n) then !upper else upper
    let on := if sig then x.oh else x.ol
    let inv := if sig then s.bit (F.GATE_CFG_inv_h n) else s.bit (F.GATE_CFG_inv_l n)
    some (on != inv)

end Sys2Proof.Machine
end

