-- ==== Sys2Proof/Machine/Gpio.lean ====
section
/-! DEFINITION. The GPIO balls (R498, R499): who drives each, the owner codes, and the edge detector. -/

namespace Sys2Proof.Machine

/-- Feedback port `n`'s hidden state. -/
def State.port (s : State) (n : Nat) : PortSt := tblGet {} s.ports n
/-- The state with port `n` as `x`. -/
def State.setPort (s : State) (n : Nat) (x : PortSt) : State := { s with ports := tblSet s.ports n x }

/-- The ports whose compare claims GPIO `g`: a width other than 0 makes the compare the owner (R299). -/
def State.compareClaims (s : State) (g : Nat) : List Nat :=
  (List.range 8).filter fun p => s.f (F.FBK_CMP_CFG_width p) != 0 && s.f (F.FBK_CMP_CFG_gpio p) == g

/-- The phase-bias test claims GPIO `g`: a bridge diagnosis is in steps 0–3 (R278). -/
def State.biasClaims (s : State) (g : Nat) : Bool :=
  s.bit F.PROT_DIAG_STS_busy && 2 ≤ s.prot.diag.conv && s.f F.PROT_DIAG_CFG_gpio == g

/-- An enabled limit switch reads GPIO `g` (R320). -/
def State.switchReads (s : State) (g : Nat) : Bool :=
  (List.range 8).any fun n =>
    (s.bit (F.MOT_SW_hi_en n) && s.f (F.MOT_SW_gpio_hi n) == g) || (s.bit (F.MOT_SW_lo_en n) && s.f (F.MOT_SW_gpio_lo n) == g)

/-- Owner code of GPIO `g` (R499): 0 HOST, 1 COMPARE, 2 BIAS, 3 SWITCH. -/
def State.gpioOwner (s : State) (g : Nat) : Nat :=
  if s.biasClaims g then 2
  else if !(s.compareClaims g).isEmpty then 1
  else if s.switchReads g && !(s.f F.GPIO_OE_oe).testBit g then 3 else 0

/-- Level the device drives on GPIO `g`; `none` where it drives nothing (R498, R499). -/
def State.gpioDriven (s : State) (g : Nat) : Option Bool :=
  if s.biasClaims g then some (!s.bit F.PROT_DIAG_CFG_gpio_pol)
  else match s.compareClaims g with
    | p :: _ => some (s.port p).pulse.isSome
    | [] => if (s.f F.GPIO_OE_oe).testBit g then some ((s.f F.GPIO_OUT_out).testBit g) else none

/-- Level of GPIO ball `g`. -/
def State.gpioLevel (s : State) (g : Nat) : Bool := (s.gpioDriven g).getD (s.pwr.gpio.getLsbD g)

/-- Two blocks claim GPIO `g`, or a block drives one that a switch reads (R499). -/
def State.gpioConflict (s : State) (g : Nat) : Bool :=
  let claims := (s.biasClaims g).toNat + (s.compareClaims g).length
  2 ≤ claims || (1 ≤ claims && s.switchReads g)

/-- Bring GPIO_OWN0, GPIO_OWN1 and GPIO_CONFLICT up to date with the claims. -/
def State.gpioSync (s : State) : State :=
  let own := fun lo => (List.range 8).foldl (fun a k => a + s.gpioOwner (lo + k) * 2 ^ (4 * k)) 0
  let conf := (List.range 16).foldl (fun a g => if s.gpioConflict g then a ||| 2 ^ g else a) 0
  ((s.setF F.GPIO_OWN0_owner (own 0)).setF F.GPIO_OWN1_owner (own 8)).setF F.GPIO_CONFLICT_conflict
    (s.f F.GPIO_CONFLICT_conflict ||| conf)

/-- Axis MXn's hidden state. -/
def State.axis (s : State) (n : Nat) : AxisSt := tblGet {} s.axes n
/-- The state with axis `n` as `x`. -/
def State.setAxis (s : State) (n : Nat) (x : AxisSt) : State := { s with axes := tblSet s.axes n x }

/-- Instants of the last raw changes of a switch, newest first, with one at `t`. -/
def noteChange (t : Nat) (l : List Nat) : List Nat := (t :: l).take 256

/-- A raw level change of GPIO `g` enters the histories of the enabled limit switches that read it (R322). -/
def State.chatNote (s : State) (g : Nat) : State :=
  (List.range 8).foldl (fun s n =>
    let hi := s.bit (F.MOT_SW_hi_en n) && s.f (F.MOT_SW_gpio_hi n) == g
    let lo := s.bit (F.MOT_SW_lo_en n) && s.f (F.MOT_SW_gpio_lo n) == g
    if hi || lo then
      let x := s.axis n
      s.setAxis n { x with chgHi := if hi then noteChange s.now x.chgHi else x.chgHi
                           chgLo := if lo then noteChange s.now x.chgLo else x.chgLo }
    else s) s

/-- GPIO ball `g` has stood at `level` for `held` samples of 4 ns. A raw change counts for the switches that read the ball; a
change that has held for filt + 1 samples is a filtered one, stamped with `ph` ns within the timebase cycle (R32, R322, R498,
R499). -/
def State.gpioEdge (s : State) (g : Nat) (level : Bool) (held ph : Nat) : State :=
  let was := (s.f F.GPIO_IN_level).testBit g
  let raw := if (s.gpioDriven g).isSome then was else s.pwr.gpio.getLsbD g
  let s := { s with pwr := { s.pwr with gpio :=
    if (s.gpioDriven g).isSome then s.pwr.gpio else (s.pwr.gpio &&& ~~~(1#16 <<< g)) ||| (if level then 1#16 <<< g else 0) } }
  let s := if raw == level then s else s.chatNote g
  if was == level || held ≤ s.f F.GPIO_FILT_filt then s
  else
    let s := s.setF ⟨R.GPIO_IN, g, 1⟩ level.toNat
    let en := if level then F.GPIO_RISE_EN_rise else F.GPIO_FALL_EN_fall
    if !(s.f en).testBit g then s
    else
      let t := s.now / 4 * 4 + ph
      let s := s.setF ⟨R.GPIO_EDGE, g, 1⟩ 1
      let s := (s.setF F.GPIO_STAMP_LO_stamp t).setF F.GPIO_STAMP_HI_stamp (t / 2 ^ 32)
      (s.incSat F.GPIO_EDGE_CNT_count).raiseAt t false 61 (g + 256 * level.toNat) s.scopeDev scopeNone

/-- GPIO_EDGE (R499). -/
def execGpioEdge (n : InputHeld 16) (level : Bool) (ph : Fin 4) (s : State) : Host.Outcome State Fault Refusal :=
  onMain s fun s => s.gpioEdge n.n level n.held ph

end Sys2Proof.Machine
end

