-- ==== Sys2Proof/Machine/Demand.lean ====
section
/-! DEFINITION. The safe-state decision of a converter (R251–R257) and what a safe state does to the units bound to it
(R128, R130). Every fault of the block comes down to `State.demand`. -/

namespace Sys2Proof.Machine

/-- Flag bits of FLD_FLAGS (R170). -/
def flagBit (u bit : Nat) : Fld := ⟨R.FLD_FLAGS u, bit, 1⟩

/-- Scope word of drive `u` (R16). -/
def scopeDrive (u : Nat) : Word := scopeWord 5 u

/-- A running sequence of unit `u` ends with outcome ABORTED and raises its event (R128, R150, R154). -/
def State.abortSeq (s : State) (u : Nat) : State :=
  let st := s.f (F.FLD_STS_state u)
  let s := if st = 3 then (s.setF (F.FLD_CATCH_STS_outcome u) 5).raise 24 0 (scopeDrive u) scopeNone
    else if st = 2 then (s.setF (F.FLD_CATCH_STS_align u) 4).raise 25 0 (scopeDrive u) scopeNone else s
  s.setUnit u { s.unit u with seq := .none, pat := .block, pulseOn := false }

/-- Unit `u` enters the state of code `st` of FLD_STS.state. -/
def State.unitEnter (s : State) (u st : Nat) : State := s.setF (F.FLD_STS_state u) st

/-- The short-circuit condition of R163 for unit `u`: |speed| at or above min_speed or at or below still_band, or no
valid speed. -/
def State.ascPermitted (s : State) (u : Nat) : Bool :=
  let v := s.unit u
  let w := fAbs v.meas
  !v.measOk || fLe (fOfQ 16 15 (s.f (F.FLD_ASC_CFG_min_speed u))) w || fLe w (fOfQ 16 15 (s.f (F.FLD_ASC_CFG_still_band u)))

/-- |speed| is at or above min_speed, or there is no valid speed (R163, R270). -/
def State.aboveMin (s : State) (u : Nat) : Bool :=
  let v := s.unit u
  !v.measOk || fLe (fOfQ 16 15 (s.f (F.FLD_ASC_CFG_min_speed u))) (fAbs v.meas)

/-- |speed| is at or below still_band (R61, R163). -/
def State.still (s : State) (u : Nat) : Bool :=
  let v := s.unit u
  v.measOk && fLe (fAbs v.meas) (fOfQ 16 15 (s.f (F.FLD_ASC_CFG_still_band u)))

/-- What ends when unit `u` leaves RUN and RAMP, or a sequence: the crash stop, ride-through, the forced or caught angle, the
soft start, the ramp and the slip (R128, R146, R164, R166; log entry 106). -/
def State.leaveRun (s : State) (u : Nat) : State :=
  let s := ((s.setF (F.FLD_STS_crash u) 0).setF (F.FLD_STS_rt u) 0).setF (F.FLD_OBS_STS_forced u) 0
  s.setUnit u { s.unit u with forced := false, caughtOn := false, fresh := false, soft := 0, ramp := 0, ref := 0, slip := 0 }

/-- Unit `u` goes from RUN to RAMP: a crash stop ends, and the ramp goes on from the measured speed (R128, R164; log
entry 106). -/
def State.unitRampDown (s : State) (u : Nat) : State :=
  let x := s.unit u
  let s := if s.bit (F.FLD_STS_crash u) then
      (s.setF (F.FLD_STS_crash u) 0).setUnit u { x with ramp := if x.measOk then x.meas else x.ramp } else s
  s.unitEnter u 5

/-- Protection puts the converter of unit `u` into safe state `st` (R128, R130, R162): SAFE for a pulse block or a short
circuit, RAMP with safe_state 4 for RAMP_DOWN. `shorted` says that the converter stood in a short circuit already: EV26
tells of its entry only. -/
def State.unitSafe (st : Nat) (shorted : Bool) (s : State) (u : Nat) : State :=
  let us := s.f (F.FLD_STS_state u)
  if us = 0 then s
  else if st = 4 then
    if us = 4 then (s.unitRampDown u).setF (F.FLD_STS_safe_state u) 4
    else if us = 5 then s.setF (F.FLD_STS_safe_state u) 4 else s
  else
    let s := (s.abortSeq u).leaveRun u
    let s := (s.unitEnter u 6).setF (F.FLD_STS_safe_state u) st
    if st = 2 || st = 3 then
      let s := if us = 7 || (us = 6 && shorted) then s else s.setUnit u { s.unit u with ascAbove := s.aboveMin u }
      if shorted || us = 7 then s else s.raise 26 0 (scopeDrive u) scopeNone
    else s

/-- PROT_CVk_POL codes: a state field of which only 1–3 name a state; others act as 1 (R282). -/
def polState (n : Nat) : Nat := if 1 ≤ n && n ≤ 3 then n else 1
/-- The same for sw_state, 1–4. -/
def polState4 (n : Nat) : Nat := if 1 ≤ n && n ≤ 4 then n else 1

/-- The state that a demand for `st` comes to (R253, R254): an ASC that is not permitted and a RAMP_DOWN that finds a
bound unit outside RUN and RAMP become PULSE_BLOCK. -/
def State.realState (s : State) (k st : Nat) : Nat :=
  if st = 2 || st = 3 then (if s.bit (F.PROT_CV_STS_asc_ok k) then st else 1)
  else if st = 4 then
    (if (s.boundUnits k).all fun u => s.f (F.FLD_STS_state u) == 4 || s.f (F.FLD_STS_state u) == 5 then 4 else 1)
  else st

/-- Would a demand of class `cls` change the state of converter `k` (R256)? A converter whose protection is not enabled is
held in class 10 (R252). -/
def State.demandChanges (s : State) (k cls : Nat) : Bool :=
  s.convExists k && s.bit (F.PROT_CV_CTL_en k) && (s.f (F.PROT_CV_STS_state k) == 0 || cls < s.f (F.PROT_CV_STS_class k))

/-- Would a demand of class `cls` that waits for the couch change converter `k` there, the state in force and the demands that
wait already being as they are (R17, R256; log entry 113)? -/
def State.demandWill (s : State) (k cls : Nat) : Bool :=
  s.demandChanges k cls && !s.prot.waiting.any fun d => d.conv == k && d.cls ≤ cls

/-- Log a demand in PROT_HIST and PROT_LAST. -/
def State.histLog (s : State) (k cls st src : Nat) (changed : Bool) : State :=
  let i := s.f F.PROT_HIST_IDX_next
  let s := ((((s.setF (F.PROT_HIST_class i) cls).setF (F.PROT_HIST_state i) st).setB (F.PROT_HIST_changed i) changed).setF
    (F.PROT_HIST_conv i) k).setF (F.PROT_HIST_source i) src
  let s := s.setF (F.PROT_HIST_tick i) (s.f F.TIME_TICK_COUNT_count)
  ((s.incWrap F.PROT_HIST_IDX_next).incWrap F.PROT_HIST_IDX_total).setF F.PROT_LAST_time s.now

/-- A demand of class 1–5 for converter `k` ends a diagnosis that runs for it (R276). -/
def State.diagStop (s : State) (k cls : Nat) : State :=
  if s.bit F.PROT_DIAG_STS_busy && s.prot.diag.conv == k && cls ≤ 5 then
    (((((s.setF F.PROT_DIAG_STS_busy 0).setF F.PROT_DIAG_STS_error 3).setF F.PROT_DIAG_STS_done 1).gpioSync).raiseDev 60 0).allLegs
  else s

/-- Converter `k` takes state `st` with class `cls`: the units bound to it follow at once, and the legs follow their
sources. -/
def State.convEnter (s : State) (k cls st : Nat) : State :=
  let was := s.f (F.PROT_CV_STS_state k)
  let s := ((s.setF (F.PROT_CV_STS_state k) st).setF (F.PROT_CV_STS_class k) cls).incSat (F.PROT_CV_CNT_entries k)
  let s := s.setConv k { s.conv k with release := false, rampAt := s.now }
  ((s.boundUnits k).foldl (State.unitSafe st (was = 2 || was = 3)) s).allLegs

/-- An ASC that is not permitted sets asc_denied in every bound unit (R253). -/
def State.ascDenied (s : State) (k st : Nat) : State :=
  if (st = 2 || st = 3) && !s.bit (F.PROT_CV_STS_asc_ok k) then
    (s.boundUnits k).foldl (fun s u => s.setF (flagBit u 6) 1) s
  else s

/-- Apply a demand of class `cls` for state `st` to converter `k`, raised by event source `src` (R256). -/
def State.demand (s : State) (k cls st src : Nat) : State :=
  if !s.convExists k then s
  else
    let real := s.realState k st
    let s := s.ascDenied k st
    let ch := s.demandChanges k cls
    let s := (s.histLog k cls st src ch).diagStop k cls
    if ch then s.convEnter k cls real else s.incSat (F.PROT_CV_CNT_logged k)

/-- Queue a demand that acts at the next couch (R255 "couch"), of a fault stamped `stamp` with origin scope `origin`. -/
def State.demandStamped (s : State) (stamp k cls st src : Nat) (origin : Word) : State :=
  { s with prot := { s.prot with waiting := s.prot.waiting ++ [⟨k, cls, st, src, stamp, origin⟩] } }

/-- The same of a fault stamped now. -/
def State.demandLater (s : State) (k cls st src : Nat) (origin : Word) : State := s.demandStamped s.now k cls st src origin

/-- Reaction scope of a demand on converter `k` (R257): the converter where its state changes, else level 0. -/
def State.demandScope (s : State) (k cls : Nat) : Word :=
  if s.demandChanges k cls then scopeConv k else scopeNone

/-- Reaction scope of one demand on several converters: the one that changes, the device where several do (R17, R257). -/
def State.demandScopes (s : State) (ks : List Nat) (cls : Nat) : Word :=
  match ks.filter fun k => s.demandChanges k cls with
  | [] => scopeNone
  | [k] => scopeConv k
  | _ => s.scopeDev

/-- The same of demands that wait for the couch. -/
def State.demandScopesLater (s : State) (ks : List Nat) (cls : Nat) : Word :=
  match ks.filter fun k => s.demandWill k cls with
  | [] => scopeNone
  | [k] => scopeConv k
  | _ => s.scopeDev

/-- Bits of a mask, ascending. -/
def bitsOf (n mask : Nat) : List Nat := (List.range n).filter fun i => mask.testBit i

/-- The converters of the drives that context `c` serves (R64, R257). -/
def State.ctxConvs (s : State) (c : Nat) : List Nat :=
  ((bitsOf 8 (s.f (F.CTX_SAFE_DRIVES_drives c))).filterMap fun u => s.unitConv u).eraseDups

/-- A halt of context `c` (`src` 17), or its HALT_SELF (`src` 0), demands sw_state in class 10 for the converters of its
drives, at a couch (R64, R255, R257). -/
def State.haltDemand (s : State) (c src : Nat) : State :=
  (s.ctxConvs c).foldl (fun s k => s.demandLater k 10 (polState4 (s.f (F.PROT_CV_POL_sw_state k))) src s.scopeDev) s

/-- Action codes of R161 for unit `u` as a safe state: `none` for REPORT. -/
def State.actionState (s : State) (u act : Nat) : Option Nat :=
  if act = 0 then none
  else if act = 2 then some (if s.bit (F.FLD_CTL_asc_side u) then 3 else 2)
  else if act = 3 then some 4
  else some 1

/-- Unit `u` demands action `act` in class `cls` now (R161). -/
def State.unitDemand (s : State) (u act cls src : Nat) : State :=
  match s.actionState u act, s.unitConv u with
  | some st, some k => s.demand k cls st src
  | _, _ => s

/-- Reaction scope of such a demand. -/
def State.unitDemandScope (s : State) (u act cls : Nat) : Word :=
  match s.actionState u act, s.unitConv u with
  | some _, some k => s.demandScope k cls
  | _, _ => scopeNone

/-- Unit `u` demands action `act` in class `cls` at the next couch (R161, R255). -/
def State.unitDemandLater (s : State) (u act cls src : Nat) : State :=
  match s.actionState u act, s.unitConv u with
  | some st, some k => s.demandLater k cls st src (scopeDrive u)
  | _, _ => s

/-- Reaction scope of such a demand. -/
def State.unitScopeLater (s : State) (u act cls : Nat) : Word :=
  match s.actionState u act, s.unitConv u with
  | some _, some k => s.demandScopesLater [k] cls
  | _, _ => scopeNone

/-! ## Faults of a couch that a command may raise (R256) -/

/-- A fault of kind `kind` and index `k` that no command has raised for this couch already is raised by `f` (R256; log entry
126). Kinds: 0 UV, 1 vdc lost, 2 locked rotor, 3 overspeed, 4 bypass unconfirmed. -/
def State.unlessTaken (s : State) (kind k : Nat) (f : State → State) : State :=
  if s.prot.taken.contains (kind, k) then s else f s

/-- A command raises a fault of the coming couch itself, at the couch's instant, where its condition `due` holds there (R256; log
entry 126). -/
def State.beforeCouch (s : State) (kind k : Nat) (due : Bool) (f : State → State) : State :=
  if s.running && s.tm.phase == 2 && !s.halted && due && !s.prot.taken.contains (kind, k) then
    let s := s.at s.couchAt
    f { s with prot := { s.prot with taken := (kind, k) :: s.prot.taken } }
  else s

/-! ## Limp-home (R167) -/

/-- Unit `u` enters limp-home on cause `bit`: 0 port, 1 phase, 2 spares. -/
def State.limpEnter (s : State) (u bit : Nat) : State :=
  (s.setUnit u { s.unit u with limp := (s.unit u).limp ||| 2 ^ bit }).setF (F.FLD_STS_limp u) 1

/-- The bound port of unit `u` has faulted while it is the angle source: limp-home on the observer, or the demand of
loss_action where limp_en is 0 or the observer is not valid. -/
def State.limpPort (src : Nat) (s : State) (u : Nat) : State :=
  let act := s.f (F.FLD_OBS_CFG_loss_action u)
  if s.bit (F.FLD_CTL_limp_en u) then
    let s := s.limpEnter u 0
    if s.bit (F.FLD_STS_obs_valid u) then s else s.unitDemandLater u act 8 src
  else s.unitDemandLater u act 8 src

end Sys2Proof.Machine
end

