-- ==== Sys2Proof/Machine/Sense.lean ====
section
/-! DEFINITION. The measurement front end (04_measurement.md): sigma-delta clocks and channels, the sinc3 and sinc2
filters, the fast comparators, the SAR converters, scaling, and the front-end part of the headbox. -/

namespace Sys2Proof.Machine

/-- Channel `n`'s hidden state. -/
def State.sd (s : State) (n : Nat) : SdSt := tblGet {} s.sns.sd n
/-- The state with channel `n` as `x`. -/
def State.setSd (s : State) (n : Nat) (x : SdSt) : State :=
  { s with sns := { s.sns with sd := tblSet s.sns.sd n x } }

/-- Channel `n` is enabled. -/
def State.sdOn (s : State) (n : Nat) : Bool := s.bit (F.SNS_SD_CFG_en n)
/-- The clock that channel `n` is tied to (R103). -/
def State.sdClk (s : State) (n : Nat) : Nat :=
  if s.sdOn n then s.fe (F.SNS_SD_CFG_clk_sel n) else s.f (F.SNS_SD_CFG_clk_sel n)
/-- Clock `m` runs. -/
def State.sdcOn (s : State) (m : Nat) : Bool := s.bit (F.SNS_SDC_CLK_en m)
/-- Period of clock `m` in 4 ns counts: the value in force while it runs (R102). -/
def State.sdcDiv (s : State) (m : Nat) : Nat :=
  if s.sdcOn m then s.fe (F.SNS_SDC_CLK_div m) else s.f (F.SNS_SDC_CLK_div m)

/-! ## Clocks (R102) -/

/-- A write of 1 to SNS_SDC_CLKm.en: the clock's first rising edge lies at the next timebase edge; a div outside 10–50
refuses the enable (R102, R121). -/
def State.sdcEnable (s : State) (m : Nat) : State :=
  if s.sdcOn m then s
  else
    let d := s.f (F.SNS_SDC_CLK_div m)
    if d < 10 || 50 < d then s.setF (F.SNS_SDC_CLK_error m) 1
    else
      let s := (s.takeInForce (R.SNS_SDC_CLK m) (R.SNS_SDC_CLK m + 4)).setF (F.SNS_SDC_CLK_en m) 1
      { s with sns := { s.sns with sdcAt := tblSet s.sns.sdcAt m (s.now / 4 * 4 + 4) } }

/-- A write of 0 to SNS_SDC_CLKm.en holds the clock low, and the channels tied to it are invalid (R103). -/
def State.sdcDisable (s : State) (m : Nat) : State :=
  (List.range 40).foldl (fun s n => if s.sdOn n && s.sdClk n == m then s.setF (F.SNS_SD_STS_valid n) 0 else s)
    (s.setF (F.SNS_SDC_CLK_en m) 0)

/-- At the first tick start after an accepted start, each enabled generator restarts with a rising edge (R102). -/
def State.sdcRestart (s : State) (t : Nat) : State :=
  if s.sns.sdcRestart then
    { s with sns := { s.sns with sdcRestart := false, sdcAt :=
        ((List.range 4).filter s.sdcOn).foldl (fun a m => tblSet a m t) s.sns.sdcAt } }
  else s

/-- The first instant of the grid `o + j × p` at or after `t`. -/
def edgeFrom (o p t : Nat) : Nat := if t ≤ o then o else o + p * ((t - o + p - 1) / p)

/-- The next latching edge of channel `n` at or after `t` (R103). From the first tick start of an accepted start on the edges
follow the restarted generator, whose first rising edge lies on that start (R102): the start waits for the end of the last tick
of the run before (log entry 31), for a debug halt and for a held counter (R37, R461). -/
def State.sdEdgeAt (s : State) (n t : Nat) : Nat :=
  let m := s.sdClk n
  let p := 4 * s.sdcDiv m
  let h := if s.fe (F.SNS_SD_CFG_edge n) = 1 then 4 * (s.sdcDiv m / 2) else 0
  let e := edgeFrom (tblGet 0 s.sns.sdcAt m + h) p t
  match s.tm.pend with
  | some r =>
    let first := if s.running then gridAt r.epoch (4 * r.period) (max r.first (s.tm.start + s.periodNs)) else r.first
    if s.sns.sdcRestart && !s.halted && s.tm.holdLag.isNone && first ≤ e then edgeFrom (first + h) p t else e
  | none => e

/-! ## Filters (R104, R107) -/

/-- `1 + 2 + … + n`. -/
def tri (n : Nat) : Nat := n * (n + 1) / 2

/-- Weight of the bit latched `k` edges before the last one in a sinc3 filter of ratio `n` (R104). -/
def sinc3Weight (n k : Nat) : Nat := tri (k + 1) + 3 * tri (k + 1 - 2 * n) - 3 * tri (k + 1 - n)

/-- Weight in a sinc2 filter of ratio `n` (R107). -/
def sinc2Weight (n k : Nat) : Nat := min (k + 1) (2 * n - 1 - k)

/-- Sum of the weights of the ones among the newest `len` bits. -/
def bitSum (weight : Nat → Nat) (bits : BitVec 768) (len : Nat) : Nat :=
  (List.range len).foldl (fun a k => if bits.getLsbD k then a + weight k else a) 0

/-- A filter's output: all ones give +1.0, all zeros −1.0 (R104, R108). Between two Q1.15 codes it is rounded to the nearest, ties
to even, which R8 gives for conversions of fp32 values only (DESIGN CHOICE, log entry 128), and it saturates. -/
def filterOut (sum total : Nat) : Int :=
  clampInt (-32768) 32767 (roundEven ((2 * (sum : Int) - total) * 32768) total)

/-- Control output of ratio `n`. -/
def sinc3 (bits : BitVec 768) (n : Nat) : Int := filterOut (bitSum (sinc3Weight n) bits (3 * n - 2)) (n * n * n)

/-- Fast output of ratio `n`. -/
def sinc2 (bits : BitVec 768) (n : Nat) : Int := filterOut (bitSum (sinc2Weight n) bits (2 * n - 1)) (n * n)

/-- N of channel `n` in force. -/
def State.sdN (s : State) (n : Nat) : Nat := s.fe (F.SNS_SD_CFG_osr_m1 n) + 1

/-- The last 64 latched bits are all equal (R105). -/
def sdStuck (x : SdSt) : Bool :=
  64 ≤ x.count && (x.bits.extractLsb' 0 64 == 0 || x.bits.extractLsb' 0 64 == BitVec.allOnes 64)

/-- One control output of channel `n`, with its validity (R104, R105). Before 3N − 2 bits have been latched the output
is a free value. -/
def State.sdOutput (s : State) (n : Nat) : State :=
  if !s.sdOn n then s
  else
    let x := s.sd n
    let nn := s.sdN n
    let (raw, s) : Int × State :=
      if 3 * nn - 2 ≤ x.count then (sinc3 x.bits nn, s) else ((s.free 16).1.toInt, (s.free 16).2)
    let settling := x.count < 3 * nn
    let stuck := sdStuck x
    let range := 0x7800 < raw.natAbs
    let s := (s.setF (F.SNS_SD_STS_raw n) (unsigned 16 raw)).setB (F.SNS_SD_STS_settling n) settling
    let s := if stuck then s.setF (F.SNS_SD_STS_stuck n) 1 else s
    let s := if range then s.setF (F.SNS_SD_STS_range n) 1 else s
    s.setB (F.SNS_SD_STS_valid n) (s.sdcOn (s.sdClk n) && !settling && !stuck && !range)

/-! ## Channels (R103, R105–R108, R110) -/

/-- Role, drive or arm that a write of 1 to en would give channel `n`, as one number; `none` for GENERAL (R110). -/
def sdTarget (role drive arm : Nat) : Option Nat :=
  if role = 0 then none else if role = 4 then some (0x400 + arm) else some (role * 0x100 + drive)

/-- The target that enabled channel `n` holds. -/
def State.sdHeld (s : State) (n : Nat) : Option Nat :=
  if s.sdOn n then sdTarget (s.fe (F.SNS_SD_MAP_role n)) (s.fe (F.SNS_SD_MAP_drive n)) (s.fe (F.SNS_SD_MAP_arm n)) else none

/-- A write of 1 to SNS_SD_CFGn.en: refused with cfg_error for osr_m1 below 15, a reserved role, an arm above 11, or a
target that another enabled channel holds (R110, R121). -/
def State.sdEnable (s : State) (n : Nat) : State :=
  if s.sdOn n then s
  else
    let role := s.f (F.SNS_SD_MAP_role n)
    let arm := s.f (F.SNS_SD_MAP_arm n)
    let tgt := sdTarget role (s.f (F.SNS_SD_MAP_drive n)) arm
    if s.f (F.SNS_SD_CFG_osr_m1 n) < 15 || 5 ≤ role || (role == 4 && 11 < arm) ||
        (tgt.isSome && (List.range 40).any fun k => s.sdHeld k == tgt) then
      s.setF (F.SNS_SD_STS_cfg_error n) 1
    else
      let s := (s.takeInForce (R.SNS_SD_CFG n) (R.SNS_SD_CFG n + 4)).takeInForce (R.SNS_SD_MAP n) (R.SNS_SD_MAP n + 4)
      let s := ((s.setF (F.SNS_SD_CFG_en n) 1).setF (F.SNS_SD_STS_settling n) 1).setF (F.SNS_SD_STS_valid n) 0
      s.setSd n { bits := 0, count := 0, nextAt := s.now, enAt := s.now, outNext := s.now + 1 }

/-- The fast over-current signal of channel `n` deasserts (R108). -/
def State.sdFastOff (s : State) (n : Nat) : State :=
  (s.setF (F.SNS_SD_STS_fast_act n) 0).setSd n { s.sd n with hi := false, lo := false }

/-- A write of 0 to SNS_SD_CFGn.en: the channel is invalid and its fast signal deasserted. -/
def State.sdDisable (s : State) (n : Nat) : State :=
  (((s.setF (F.SNS_SD_CFG_en n) 0).setF (F.SNS_SD_STS_valid n) 0).setF (F.SNS_SD_STS_settling n) 0).sdFastOff n

/-- Detection latency in ns with the settings that would be in force (R107). -/
def State.sdLatency (s : State) (n : Nat) : Nat :=
  (s.f (F.SNS_SD_FAST_fosr_m1 n) + 1) * (4 * s.sdcDiv (s.sdClk n)) + 24

/-- A write of 1 to fast_en: accepted if fosr_m1 is at least 7 and the latency at most 1,000 ns (R107, R121). -/
def State.fastEnable (s : State) (n : Nat) : State :=
  if s.bit (F.SNS_SD_FAST_fast_en n) then s
  else if s.f (F.SNS_SD_FAST_fosr_m1 n) < 7 || 1000 < s.sdLatency n then s.setF (F.SNS_SD_STS_fast_refused n) 1
  else
    let s := (s.takeInForce (R.SNS_SD_FAST n) (R.SNS_SD_FAST n + 4)).setF (F.SNS_SD_FAST_fast_en n) 1
    s.setF (F.SNS_SD_STS_fast_lat n) ((s.sdLatency n + 15) / 16)

/-- A write of 0 to fast_en. -/
def State.fastDisable (s : State) (n : Nat) : State :=
  ((s.setF (F.SNS_SD_FAST_fast_en n) 0).setF (F.SNS_SD_STS_fast_lat n) 0).sdFastOff n

/-- The comparators of channel `n` see one sinc2 output (R108); both comparisons are strict. -/
def State.sdCompare (s : State) (n : Nat) (out : Int) : State :=
  let hi := s.fi (F.SNS_SD_THR_hi n) < out
  let lo := out < s.fi (F.SNS_SD_THR_lo n)
  let s := if hi then s.setF (F.SNS_SD_STS_fast_hi n) 1 else s
  let s := if lo then s.setF (F.SNS_SD_STS_fast_lo n) 1 else s
  (s.setB (F.SNS_SD_STS_fast_act n) (hi || lo)).setSd n { s.sd n with hi := hi, lo := lo }

/-- One latching edge of channel `n` with the bit on SDDn (R103, R105, R107, R108). The sinc2 output is a free value until
2Nf − 1 bits have been latched. -/
def State.sdLatch (s : State) (n : Nat) (b : Bool) : State :=
  if !s.sdOn n || !s.sdcOn (s.sdClk n) then s
  else
    let x0 := s.sd n
    let t := s.sdEdgeAt n (max s.now x0.nextAt)
    let s := s.at t
    let x := { x0 with bits := (x0.bits <<< 1) ||| (if b then 1 else 0), count := min 768 (x0.count + 1), nextAt := t + 1 }
    let s := s.setSd n x
    let s := s.setB (F.SNS_SD_STS_settling n) (x.count < 3 * s.sdN n)
    let s := if sdStuck x then s.setF (F.SNS_SD_STS_stuck n) 1 else s
    if !s.bit (F.SNS_SD_FAST_fast_en n) then s
    else
      let nf := s.fe (F.SNS_SD_FAST_fosr_m1 n) + 1
      if 2 * nf - 1 ≤ x.count then s.sdCompare n (sinc2 x.bits nf)
      else (s.free 16).2.sdCompare n (s.free 16).1.toInt

/-- While the tick is stopped, channel `n` gives a control output at the next instant enable + j × 10 µs that has not given one
(R106). -/
def State.sdIdle (s : State) (n : Nat) : State :=
  if s.running || !s.sdOn n then s
  else
    let t := gridNext (s.sd n).enAt 10000 (max s.now (s.sd n).outNext)
    let s := (s.at t).sdOutput n
    s.setSd n { s.sd n with outNext := t + 1 }

/-! ## SAR converters (R113–R116) -/

/-- Entry of SNS_SAR_SEQm for slot `k` of converter `c` as written: enabled input or none. -/
def State.sarEntry (s : State) (c k : Nat) : Option Nat :=
  let sh := 16 * (k % 2) + 8 * c
  let w := (s.reg (R.SNS_SAR_SEQ (k / 2))).toNat >>> sh
  if w.testBit 4 then some (w % 16) else none

/-- The same entry in force. -/
def State.sarEntryE (s : State) (c k : Nat) : Option Nat :=
  let sh := 16 * (k % 2) + 8 * c
  let a := R.SNS_SAR_SEQ (k / 2)
  let w := (tblGet (resetWord a) s.inForce a).toNat >>> sh
  if w.testBit 4 then some (w % 16) else none

/-- The inputs that the enabled entries of a sequence of `len` slots name, slot by slot. -/
def sarInputs (entry : Nat → Nat → Option Nat) (len : Nat) : List Nat :=
  (List.range len).flatMap fun k => (entry 0 k).toList ++ (entry 1 k).toList

/-- The inputs that the running sequence converts. -/
def State.sarNamed (s : State) : List Nat :=
  if s.bit F.SNS_SAR_CTL_en then sarInputs s.sarEntryE (s.fe F.SNS_SAR_CTL_len_m1 + 1) else []

/-- The check of R116 that fails first: 1 DUP, 2 ROLE, 3 PAIR, 0 none. -/
def State.sarCheck (s : State) : Nat :=
  let len := s.f F.SNS_SAR_CTL_len_m1 + 1
  let ins := sarInputs s.sarEntry len
  let role := fun i => s.f (F.SNS_AIN_CFG_role i)
  let keys := (ins.filter fun i => 1 ≤ role i && role i ≤ 4).map fun i => role i * 8 + s.f (F.SNS_AIN_CFG_drive i)
  let pairOk := (List.range 8).all fun p =>
    !(s.bit (F.FBK_CTL_en p) && s.fe (F.FBK_CFG_mode p) == 2) ||
      (List.range len).any fun k => s.sarEntry 0 k == some (2 * p) && s.sarEntry 1 k == some (2 * p + 1)
  if !(decide ins.Nodup) then 1
  else if ins.any (fun i => 6 ≤ role i) || !(decide keys.Nodup) then 2
  else if !pairOk then 3 else 0

/-- A write of 1 to SNS_SAR_CTL.en (R116). -/
def State.sarEnable (s : State) : State :=
  if s.bit F.SNS_SAR_CTL_en then s
  else
    let e := s.sarCheck
    let s := s.setF F.SNS_SAR_STS_error e
    if e != 0 then s
    else
      let s := (s.takeInForce R.SNS_SAR_CTL (R.SNS_SAR_SEQ 8)).takeInForce (R.SNS_AIN_CFG 0) (R.SNS_AIN_CFG 16)
      let s := (s.setF F.SNS_SAR_CTL_en 1).setF F.SNS_SAR_STS_running 1
      { s with sns := { s.sns with sarAt := s.now, sarNext := s.now + 1, ainNow := [], ainBg := [], ainPrior := [] } }

/-- A write of 0 to SNS_SAR_CTL.en: no input is named by an enabled slot any more (R115). -/
def State.sarDisable (s : State) : State :=
  let s := (s.setF F.SNS_SAR_CTL_en 0).setF F.SNS_SAR_STS_running 0
  (List.range 16).foldl (fun s i => s.setF (F.SNS_AIN_RES_valid i) 0) s

/-- The conversion of slot `k` by converter `c` ends with `code` (R113–R115); `idle` while the tick is stopped. SNS_AIN_RESi has
no range bit for a code of 0x0000 or 0xFFFF to set (DESIGN CHOICE, log entry 128). -/
def State.sarStore (s : State) (idle : Bool) (c k code : Nat) : State :=
  match s.sarEntryE c k with
  | none => s
  | some i =>
    let s := ((s.setF (F.SNS_AIN_RES_code i) code).setF (F.SNS_AIN_RES_slot i) k).setF (F.SNS_AIN_RES_conv i) c
    let s := s.setB (F.SNS_AIN_RES_valid i) (code != 0 && code != 0xFFFF)
    if idle then s
    else if k < 2 then { s with sns := { s.sns with ainNow := tblSet s.sns.ainNow i code } }
    else { s with sns := { s.sns with ainBg := tblSet s.sns.ainBg i code } }

/-- Is slot `k` part of the running sequence? -/
def State.sarSlot (s : State) (k : Nat) : Bool := s.bit F.SNS_SAR_CTL_en && k ≤ s.fe F.SNS_SAR_CTL_len_m1

/-! ## Scaling (R109, R115) -/

/-- `gain × (x − offset)`, two rounded operations. -/
def scale (gain x offset : F32) : F32 := fmul gain (fsub x offset)

/-- Scaled value of channel `n`; NaN where its output is not valid. -/
def State.sdValue (s : State) (n : Nat) : F32 :=
  if s.sdOn n && s.bit (F.SNS_SD_STS_valid n) then
    scale (s.reg (R.SNS_SD_SCALE n)) (fOfQ 16 15 (s.f (F.SNS_SD_STS_raw n))) (fOfQ 16 15 (s.f (F.SNS_SD_CFG_offset n)))
  else canonNan

/-- Normalised SAR result (R115). -/
def ainNorm (bipolar : Bool) (code : Nat) : F32 :=
  if bipolar then fOfInt ((code : Int) - 32768) (-15) else fOfU 16 code

/-- Scaled value of a code of AINi; NaN for a code of 0x0000 or 0xFFFF. -/
def State.ainScaled (s : State) (i code : Nat) : F32 :=
  if code = 0 || code = 0xFFFF then canonNan
  else scale (s.reg (R.SNS_AIN_SCALE i)) (ainNorm (s.bitE (F.SNS_AIN_CFG_bipolar i)) code)
    (fOfQ 16 15 (s.f (F.SNS_AIN_CFG_offset i)))

/-- Code of AINi for this tick's headbox, and whether it is a background result of the tick before (R114). -/
def State.ainCode (s : State) (i : Nat) : Option (Nat × Bool) :=
  if !s.sarNamed.contains i then none
  else match tblFind s.sns.ainNow i with
    | some c => some (c, false)
    | none => (tblFind s.sns.ainPrior i).map fun c => (c, true)

/-- Headbox value of AINi with its prior bit; NaN where the input is invalid. -/
def State.ainValue (s : State) (i : Nat) : F32 × Bool :=
  match s.ainCode i with
  | some (c, p) => (s.ainScaled i c, p)
  | none => (canonNan, false)

/-- The input whose result of the running sequence has `role` for `drive`. -/
def State.ainRole (s : State) (role drive : Nat) : Option Nat :=
  s.sarNamed.find? fun i => s.fe (F.SNS_AIN_CFG_role i) == role && s.fe (F.SNS_AIN_CFG_drive i) == drive

/-- vdc of `drive` from SNS_AIN_RESi, as R272 takes it while the tick is stopped. -/
def State.idleVdc (s : State) (drive : Nat) : F32 :=
  match s.ainRole 1 drive with
  | some i => if s.bit (F.SNS_AIN_RES_valid i) then s.ainScaled i (s.f (F.SNS_AIN_RES_code i)) else canonNan
  | none => canonNan

/-! ## Headbox entries (R110–R112, R117, R118) -/

/-- The enabled channel that holds `tgt` (R110). -/
def State.sdOf (s : State) (tgt : Nat) : Option Nat := (List.range 40).find? fun n => s.sdHeld n == some tgt

/-- Is a headbox value valid? Its valid bit and its NaN go together, also where a gain, an offset or a reconstruction from valid
inputs gives the NaN (DEDUCED from R109 and R118, log entry 128). -/
def okBit (w : F32) : Nat := (!fIsNan w).toNat

/-- The three phase currents of `drive`, reconstructed where two are mapped (R111). -/
def State.phaseCurrents (s : State) (drive : Nat) : F32 × F32 × F32 :=
  let ch := fun r => s.sdOf (r * 0x100 + drive)
  let v := fun r => match ch r with | some n => s.sdValue n | none => canonNan
  let rec3 := fun p q => if fIsNan (fadd p q) then canonNan else fNeg (fadd p q)
  let a := v 1
  let b := v 2
  let c := v 3
  match (ch 1).isSome, (ch 2).isSome, (ch 3).isSome with
  | false, true, true => (rec3 b c, b, c)
  | true, false, true => (a, rec3 a c, c)
  | true, true, false => (a, b, rec3 a b)
  | _, _, _ => (a, b, c)

/-- Converter CVv is present: its six arms are enabled (R226). -/
def State.cvPresent (s : State) (v : Nat) : Bool :=
  s.part.mmc && (List.range 6).all fun k => s.bit (F.ARM_STS_enabled (6 * v + k))

/-- Current of ARM `a`; NaN where no valid channel is mapped or its converter is not present. -/
def State.armCurrent (s : State) (a : Nat) : F32 :=
  if !s.cvPresent (a / 6) then canonNan
  else match s.sdOf (0x400 + a) with | some n => s.sdValue n | none => canonNan

/-- Output current of phase `x` of CVv: upper less lower (R112). -/
def State.cvPhase (s : State) (v x : Nat) : F32 :=
  let u := s.armCurrent (6 * v + 2 * x)
  let l := s.armCurrent (6 * v + 2 * x + 1)
  if fIsNan u || fIsNan l then canonNan else fsub u l

/-- Circulating current of phase `x` of CVv (R112). -/
def State.cvCirc (s : State) (v x : Nat) : F32 :=
  let u := s.armCurrent (6 * v + 2 * x)
  let l := s.armCurrent (6 * v + 2 * x + 1)
  if fIsNan u || fIsNan l then canonNan else fmul (fadd u l) fHalf

/-- Voltage of `drive` by SAR role (1 VDC, 2–4 VA, VB, VC), with its prior bit (R115). -/
def State.driveVolt (s : State) (u role : Nat) : F32 × Bool :=
  if s.part.lanes ≤ u then (canonNan, false)
  else match s.ainRole role u with | some i => s.ainValue i | none => (canonNan, false)

/-- Headbox address and word pairs of a drive's currents and voltages, less θ (R117, R118). -/
def State.driveWords (s : State) (u : Nat) : List (Nat × Word) :=
  let b := 0x40 * u
  let (ia, ib, ic) := if s.part.lanes ≤ u then (canonNan, canonNan, canonNan) else s.phaseCurrents u
  let vs := (List.range 4).map fun r => s.driveVolt u (r + 1)
  [(b, ia), (b + 4, ib), (b + 8, ic)] ++ (vs.zipIdx.map fun (v, k) => (b + 0x10 + 4 * k, v.1))

/-- Validity word of a drive, θ's bit given apart (R118). -/
def State.driveValid (s : State) (u : Nat) (theta : Bool) : Word :=
  let (ia, ib, ic) := if s.part.lanes ≤ u then (canonNan, canonNan, canonNan) else s.phaseCurrents u
  let vs := (List.range 4).map fun r => s.driveVolt u (r + 1)
  let volts := vs.zipIdx.foldl (fun a (v, k) => a + okBit v.1 * 2 ^ (4 + k) + v.2.toNat * 2 ^ (8 + k)) 0
  BitVec.ofNat 32 (okBit ia + 2 * okBit ib + 4 * okBit ic + 8 * theta.toNat + volts)

/-- Headbox words of converter CVv (R112, R117, R118). -/
def State.cvWords (s : State) (v : Nat) : List (Nat × Word) :=
  let b := 0x200 + 0x40 * v
  let arms := (List.range 6).map fun k => s.armCurrent (6 * v + k)
  let ph := (List.range 3).map fun x => s.cvPhase v x
  let circ := (List.range 3).map fun x => s.cvCirc v x
  let bits := (arms ++ ph ++ circ).zipIdx.foldl (fun a (w, k) => a + okBit w * 2 ^ k) 0
  (arms.zipIdx.map fun (w, k) => (b + 4 * k, w)) ++ (ph.zipIdx.map fun (w, k) => (b + 0x20 + 4 * k, w)) ++
    (circ.zipIdx.map fun (w, k) => (b + 0x30 + 4 * k, w)) ++ [(b + 0x3C, BitVec.ofNat 32 bits)]

/-- Headbox words of the general area (R117 0x0400–0x0618). -/
def State.generalWords (s : State) : List (Nat × Word) :=
  let sd := (List.range 40).map s.sdValue
  let ain := (List.range 16).map s.ainValue
  let sdBits := sd.zipIdx.foldl (fun a (w, k) => a + okBit w * 2 ^ k) 0
  let ainBits := ain.zipIdx.foldl (fun a (v, k) => a + okBit v.1 * 2 ^ k + v.2.toNat * 2 ^ (16 + k)) 0
  (sd.zipIdx.map fun (w, k) => (0x400 + 4 * k, w)) ++ (ain.zipIdx.map fun (v, k) => (0x500 + 4 * k, v.1)) ++
    [(0x600, BitVec.ofNat 32 sdBits), (0x604, BitVec.ofNat 32 (sdBits / 2 ^ 32)), (0x608, BitVec.ofNat 32 ainBits),
     (0x610, s.reg R.TIME_TICK_COUNT), (0x614, BitVec.ofNat 32 s.sns.sampleAt),
     (0x618, BitVec.ofNat 32 (s.sns.sampleAt / 2 ^ 32))]

/-- Every headbox entry with a role is valid (R121 all_valid; entries of an absent drive or converter do not count). The role
SINCOS fills no entry of the headbox by itself and does not count (DESIGN CHOICE, log entry 128). -/
def State.rolesValid (s : State) : Bool :=
  ((List.range 40).all fun n =>
    match s.sdHeld n with
    | none => true
    | some t =>
      if 0x400 ≤ t then !s.cvPresent ((t - 0x400) / 6) || !fIsNan (s.sdValue n)
      else s.part.lanes ≤ t % 0x100 || !fIsNan (s.sdValue n)) &&
  (s.sarNamed.all fun i =>
    let r := s.fe (F.SNS_AIN_CFG_role i)
    !(1 ≤ r && r ≤ 4) || s.part.lanes ≤ s.fe (F.SNS_AIN_CFG_drive i) || !fIsNan (s.ainValue i).1)

/-- SNS_HB_STS and SNS_HB_CNT at headbox ready (R121). -/
def State.hbStatus (s : State) : State :=
  let ok := s.rolesValid
  let s := s.setB F.SNS_HB_STS_all_valid ok
  if ok then s else (s.setF F.SNS_HB_STS_invalid_seen 1).incSat F.SNS_HB_CNT_invalid_ticks

/-- Cell `c` as the device knows it. -/
def State.cell (s : State) (c : Nat) : CellSt := tblGet {} s.cells c
/-- The state with cell `c` as `x`. -/
def State.setCell (s : State) (c : Nat) (x : CellSt) : State := { s with cells := tblSet s.cells c x }

/-- The arm that cell `c` belongs to: the one that maps it, while that arm is enabled (R225). -/
def State.cellOwner (s : State) (c : Nat) : Option Nat :=
  let a := s.f (F.ARM_CELL_CFG_arm c)
  if s.bit (F.ARM_CELL_CFG_mapped c) && a < 12 && s.bit (F.ARM_STS_enabled a) then some a else none

/-- Capacitor voltage of cell `c` per unit of its arm's vnom; NaN at age 3 and in no arm (R120). -/
def State.cellVolt (s : State) (c : Nat) : F32 :=
  match s.cellOwner c with
  | some a => if 3 ≤ (s.cell c).age then canonNan else fOfRat (s.cell c).raw (s.fe (F.ARM_VNOM_vnom a))
  | none => canonNan

/-- Status word of cell `c` (R120). -/
def State.cellStatus (s : State) (c : Nat) : Word :=
  let x := s.cell c
  BitVec.ofNat 32 (x.flags % 0x100 + x.temp % 0x100 * 0x100 + x.seq % 0x100 * 0x10000 + x.age % 4 * 0x1000000)

/-- A word of the visible headbox; an address without an entry reads zero (R117). Cell entries and the lane current bits
change as uplink frames complete (R119). -/
def State.hbWord (s : State) (a : Nat) : Word :=
  let a := a / 4 * 4
  if a = 0x60C then BitVec.ofNat 32 (s.sns.lanesDone % 0x10000)
  else if 0x1000 ≤ a && a < 0x1000 + 8 * s.part.cells then
    if a % 8 = 0 then s.cellVolt ((a - 0x1000) / 8) else s.cellStatus ((a - 0x1000) / 8)
  else tblGet 0 s.eng.headbox a

/-- The visible headbox with the listed words changed. -/
def State.hbPut (s : State) (ws : List (Nat × Word)) : State :=
  { s with eng := { s.eng with headbox := ws.foldl (fun h e => tblSet h e.1 e.2) s.eng.headbox } }

/-! ## Meanings -/

/-- SDC_ENABLE (R102). -/
def execSdcEnable (m : Fin 4) (s : State) : Host.Outcome State Fault Refusal := onMain s fun s => s.sdcEnable m
/-- SD_ENABLE (R110). -/
def execSdEnable (n : Fin 40) (s : State) : Host.Outcome State Fault Refusal := onMain s fun s => s.sdEnable n
/-- FAST_ENABLE (R107). -/
def execFastEnable (n : Fin 40) (s : State) : Host.Outcome State Fault Refusal := onMain s fun s => s.fastEnable n
/-- SD_IDLE_OUTPUT (R106). -/
def execSdIdleOutput (n : Fin 40) (s : State) : Host.Outcome State Fault Refusal := onMain s fun s => s.sdIdle n
/-- SD_LATCHING_EDGE (R108). -/
def execSdLatchingEdge (n : Fin 40) (bit : Bool) (s : State) : Host.Outcome State Fault Refusal :=
  onMain s fun s => s.sdLatch n bit
/-- SAR_ENABLE (R116). -/
def execSarEnable (s : State) : Host.Outcome State Fault Refusal := onMain s State.sarEnable

end Sys2Proof.Machine
end

