-- ==== Sys2Proof/Machine/Feedback.lean ====
section
/-! DEFINITION. The feedback ports FP0–FP7 (10_feedback.md): decoding, the index, sine and cosine, SSI, the tracking
observer, faults, the position compare and encoder emulation. -/

namespace Sys2Proof.Machine

/-! ## Who is concerned (R296) -/

/-- The enabled-at-least-once units whose last enable named port `p`. -/
def State.portUnits (s : State) (p : Nat) : List Nat :=
  (List.range 8).filter fun u => (s.unit u).ever && s.bitE (F.FLD_BIND_fb_en u) && s.fe (F.FLD_BIND_fbp u) == p

/-- Origin scope of an event of port `p`: the drive whose unit named it, the device where none or several did (R296). -/
def State.portOrigin (s : State) (p : Nat) : Word :=
  match s.portUnits p with
  | [u] => scopeDrive u
  | _ => s.scopeDev

/-- Raise an event of port `p` (R296). -/
def State.raisePort (s : State) (p src : Nat) : State := s.raise src 0 (s.portOrigin p) scopeNone

/-- A flag of FBK_FLAGS. -/
def fbkFlag (p bit : Nat) : Fld := ⟨R.FBK_FLAGS p, bit, 1⟩

/-- Port `p` is enabled, and in the given mode. -/
def State.portOn (s : State) (p : Nat) : Bool := s.bit (F.FBK_CTL_en p)
/-- Mode in force: 1 INCR, 2 SINCOS, 3 SSI. -/
def State.portMode (s : State) (p : Nat) : Nat := s.fe (F.FBK_CFG_mode p)
/-- cpr in force (R283). -/
def State.cpr (s : State) (p : Nat) : Nat := s.f (F.FBK_CPR_cpr p)

/-! ## Encoder emulation (R300, R301) -/

/-- Emulation output `m`'s hidden state. -/
def State.emu (s : State) (m : Nat) : EmuSt := tblGet {} s.emus m
/-- The state with emulation `m` as `x`. -/
def State.setEmu (s : State) (m : Nat) (x : EmuSt) : State := { s with emus := tblSet s.emus m x }

/-- 4L of emulation `m`. -/
def State.emuSteps (s : State) (m : Nat) : Nat := 4 * (s.fe (F.FBK_EE_CFG_lines_m1 m) + 1)

/-- Backlog, EV33 and the cut at 65,535 after a move of the target (R301). -/
def State.emuBacklog (s : State) (m : Nat) : State :=
  let x := s.emu m
  let d := x.t - x.e
  let s := if 65535 < d.natAbs then
      let t := if 0 ≤ d then x.e + 65535 else x.e - 65535
      (s.setEmu m { x with t := t, tBase := x.tBase + (t - x.t) }).setF (F.FBK_EE_STS_lost m) 1
    else s
  let x := s.emu m
  let b := (x.t - x.e).natAbs
  let s := s.setF (F.FBK_EE_STS_backlog m) b
  if 2 ≤ b && !x.raised then
    ((s.setEmu m { x with raised := true }).setF (F.FBK_EE_STS_ovr_seen m) 1).raisePort (s.fe (F.FBK_EE_CFG_src m)) 33
  else if b = 0 then s.setEmu m { x with raised := false }
  else s

/-- The target of emulation `m` follows its source: floor of the change of u in revolutions × 4L (R300). It holds while
the source is invalid, and resumes from e when it is valid again (R301). -/
def State.emuTarget (s : State) (m : Nat) : State :=
  if !s.bit (F.FBK_EE_CFG_en m) then s
  else
    let p := s.fe (F.FBK_EE_CFG_src m)
    let x := s.emu m
    let u := (s.port p).u
    if !s.bit (F.FBK_STS_valid p) then s.setF (F.FBK_EE_STS_hold m) 1
    else
      let s := if s.bit (F.FBK_EE_STS_hold m) then
          ((s.setF (F.FBK_EE_STS_hold m) 0).setF (F.FBK_EE_STS_lost m) 1).setEmu m { x with uBase := u, tBase := x.e }
        else s
      let x := s.emu m
      let t := x.tBase + (u - x.uBase) * (s.emuSteps m : Int) / (max 1 (s.cpr p) : Nat)
      (s.setEmu m { x with t := t }).emuBacklog m

/-- The targets of every emulation whose source is port `p`. -/
def State.emuFollow (s : State) (p : Nat) : State :=
  let s := if s.fe (F.FBK_EE_CFG_src 0) == p then s.emuTarget 0 else s
  if s.fe (F.FBK_EE_CFG_src 1) == p then s.emuTarget 1 else s

/-- A write of 1 to FBK_EE_CFG.en of port `m` (R300). -/
def State.emuEnable (s : State) (m : Nat) : State :=
  if s.bit (F.FBK_EE_CFG_en m) then s
  else
    let s := (s.takeInForce (R.FBK_EE_CFG m) (R.FBK_EE_GAP m + 4)).setF (F.FBK_EE_CFG_en m) 1
    let p := s.fe (F.FBK_EE_CFG_src m)
    let x := s.port p
    let s := s.setB (F.FBK_EE_STS_hold m) (!s.bit (F.FBK_STS_valid p))
    (s.setEmu m { uBase := x.u, z0 := s.emuSteps m * x.ang / max 1 (s.cpr p), stepAt := s.now }).setF
      (F.FBK_EE_STS_backlog m) 0

/-- One step of emulation `m` toward its target, no sooner than gap × 4 ns after the last (R300). -/
def State.emuStep (s : State) (m : Nat) : State :=
  let x := s.emu m
  if !s.bit (F.FBK_EE_CFG_en m) || s.bit (F.FBK_EE_STS_hold m) || x.t == x.e then s
  else
    let s := s.at (x.stepAt + 4 * s.fe (F.FBK_EE_GAP_gap m))
    let e := if x.e < x.t then x.e + 1 else x.e - 1
    (s.setEmu m { x with e := e, stepAt := s.now }).emuBacklog m

/-- Levels of EAm, EBm and EZm (R300). -/
def State.emuBalls (s : State) (m : Nat) : Bool × Bool × Bool :=
  let x := s.emu m
  let k := (if s.bitE (F.FBK_EE_CFG_inv m) then -x.e else x.e) % 4
  (k == 1 || k == 2, k == 2 || k == 3, (x.e + x.z0) % (s.emuSteps m : Int) == 0)

/-! ## Validity (R295) -/

/-- The tick period the observer runs with: T, or 100 µs while the tick is stopped (R294). -/
def State.obsT (s : State) : Nat := if s.running then s.periodNs else 100000

/-- T_m: T for INCR and SINCOS, M × T for SSI (R294). -/
def State.obsTm (s : State) (p : Nat) : Nat :=
  if s.portMode p = 3 && s.running then (s.fe (F.FBK_SSI_every_m1 p) + 1) * s.obsT else s.obsT

/-- Ticks after which the port may be valid: max(8, ceil(2 / (fo × T))), fo = 10 Hz × 2^bw (R295). -/
def State.settleTicks (s : State) (p : Nat) : Nat :=
  let d := 10 * 2 ^ s.fe (F.FBK_CFG_bw p) * s.obsT
  max 8 ((2000000000 + d - 1) / d)

/-- FBK_STS.valid brought up to date; where it changes, emulations of the port hold or resume (R301). -/
def State.portValid (s : State) (p : Nat) : State :=
  let v := s.portOn p && !s.bit (F.FBK_STS_fault p) && (s.port p).settled && (s.portMode p != 3 || (s.port p).ssiGood)
  let t := s.setB (F.FBK_STS_valid p) v
  if v == s.bit (F.FBK_STS_valid p) then t else t.emuFollow p

/-- Units for which port `p` is the angle source (R143): not in limp-home on that port, and with AUTO while FEEDBACK is
valid. -/
def State.angleUnits (s : State) (p : Nat) : List Nat :=
  (s.portUnits p).filter fun u => s.unitOn u && !(s.unit u).limp.testBit 0 &&
    (s.fe (F.FLD_ANGLE_src u) == 0 ||
      (s.fe (F.FLD_ANGLE_src u) == 2 && s.bit (F.FBK_STS_valid p) && s.bit (F.FLD_STS_aligned u)))

/-- A port fault with cause `src` (1 amplitude, 2 quadrature, 3 index, 4 serial), raised as event `ev` (R295, R167). -/
def State.portFault (s : State) (p cause ev : Nat) : State :=
  let us := s.angleUnits p
  let s := ((s.setF (F.FBK_STS_fault p) 1).setF (F.FBK_STS_fault_src p) cause).portValid p
  us.foldl (State.limpPort ev) s

/-! ## Position (R291, R292) and compare (R298) -/

/-- FBK_POS as a number. -/
def State.pos (s : State) (p : Nat) : Int := s.fi (F.FBK_POS_pos p)

/-- The compare is evaluated on pos at instant `t`: the farthest position reached in the direction of the pitch. -/
def State.compareEval (s : State) (p t : Nat) : State :=
  if !s.bit (F.FBK_CMP_STS_armed p) then s
  else
    let x := s.port p
    let v := s.pos p
    let better := match x.best with
      | none => true
      | some b => if 0 ≤ s.fi (F.FBK_CMP_PITCH_pitch p) then b < v else v < b
    if better then s.setPort p { x with best := some v, bestAt := t, bestSeen := s.now } else s

/-- `v` clamped to the soft limits of port `p` (R291). -/
def State.softClamp (s : State) (p : Nat) (v : Int) : Int :=
  if s.bit (F.FBK_CFG_lim_en p) then clampInt (s.fi (F.FBK_LIM_LO_lo p)) (s.fi (F.FBK_LIM_HI_hi p)) v else v

/-- pos is about to change from `v` at `now`: its value at the last multiple of 100,000 ns is kept (R320). -/
def PortSt.notePos (x : PortSt) (now : Nat) (v : Int) : PortSt :=
  let k := (now - 1) / 100000
  match x.posWas with
  | e :: _ => if e.1 = k then x else { x with posWas := (k, v) :: x.posWas.take 255 }
  | [] => { x with posWas := [(k, v)] }

/-- The position at multiple `k` of 100,000 ns: that before the first change after it, where there is one (R320). -/
def State.posAtSample (s : State) (p k : Nat) : Int :=
  ((s.port p).posWas.filter fun e => k ≤ e.1).getLast?.elim (s.pos p) (·.2)

/-- pos is `c`: sat_hi and sat_lo tell whether it rests on a limit, and arrival at one raises EV34 and clears referenced in
INCR and SINCOS (R292). -/
def State.posAt (s : State) (p : Nat) (c : Int) : State :=
  let lim := s.bit (F.FBK_CFG_lim_en p)
  let hi := lim && c == s.fi (F.FBK_LIM_HI_hi p)
  let lo := lim && c == s.fi (F.FBK_LIM_LO_lo p)
  let arrive := (hi && !s.bit (F.FBK_STS_sat_hi p)) || (lo && !s.bit (F.FBK_STS_sat_lo p))
  let s := s.setPort p ((s.port p).notePos s.now (s.pos p))
  let s := ((s.setF (F.FBK_POS_pos p) (unsigned 32 c)).setB (F.FBK_STS_sat_hi p) hi).setB (F.FBK_STS_sat_lo p) lo
  if arrive then
    let s := s.setF (fbkFlag p 4) 1
    let s := if s.portMode p != 3 then s.setF (F.FBK_STS_referenced p) 0 else s
    s.raisePort p 34
  else s

/-- pos takes the value `v`, clamped to the soft limits (R291). -/
def State.setPos (s : State) (p : Nat) (v : Int) : State := s.posAt p (s.softClamp p v)

/-- A soft limit or lim_en is written, which acts immediately: pos stays, and may now rest on a limit or no longer (R292,
R303; log entry 115). -/
def State.limitWritten (s : State) (p : Nat) : State := if s.portOn p then s.posAt p (s.pos p) else s

/-! ## Tracks (R285) -/

/-- A count change of `d` in INCR: ang, u, pos, compare and emulation follow (R291). -/
def State.countBy (s : State) (p : Nat) (d : Int) : State :=
  let x := s.port p
  let c : Int := max 1 (s.cpr p)
  let s := s.setPort p { x with u := x.u + d, ang := ((x.ang + d) % c).toNat }
  ((s.setPos p (s.pos p + d)).compareEval p s.now).emuFollow p

/-- Position of the pair (A, B) in the sequence 00, 10, 11, 01. -/
def pairIndex (a b : Bool) : Nat := match a, b with | false, false => 0 | true, false => 1 | true, true => 2 | false, true => 3

/-- Step of a legal change from one pair to the next: +1 or −1 in the sequence that counts up with dir 0; the SINCOS
sequence 11, 10, 00, 01 runs the other way (R285, R286). -/
def State.pairStep (s : State) (p : Nat) (a b a' b' : Bool) : Int :=
  let up := (pairIndex a b + 1) % 4 == pairIndex a' b'
  let d : Int := if up then 1 else -1
  let d := if s.portMode p = 2 then -d else d
  if s.bitE (F.FBK_CFG_dir p) then -d else d

/-- A level of port `p` that has held its new value for `held` samples of 4 ns counts as changed (R283). -/
def State.fbkHeld (s : State) (p held : Nat) : Bool := s.fe (F.FBK_CFG_filt p) < held

/-- The decoder count of port `p` changes by `d`; its changes of the last microsecond are kept for the SAR (R286). -/
def PortSt.stepQ (x : PortSt) (now : Nat) (d : Int) : PortSt :=
  { x with q := x.q + d, qWas := (now, x.q) :: x.qWas.filter fun e => now < e.1 + 1000 }

/-- The decoder count at instant `t`: the count before the first change after it (R286). -/
def PortSt.qAt (x : PortSt) (t : Nat) : Int := (x.qWas.filter fun e => t < e.1).getLast?.elim x.q (·.2)

/-- One filtered track of port `p` changes: a legal change (R285). -/
def State.quadStep (s : State) (p : Nat) (trackB : Bool) : State :=
  let x := s.port p
  let a' := if trackB then x.a else !x.a
  let b' := if trackB then !x.b else x.b
  let d := s.pairStep p x.a x.b a' b'
  let s := s.setPort p { x with a := a', b := b' }
  if !s.portOn p then s
  else if s.portMode p = 1 then (s.setPort p ((s.port p).stepQ s.now d)).countBy p d
  else if s.portMode p = 2 then s.setPort p ((s.port p).stepQ s.now d)
  else s

/-- An illegal transition: counted; EV29 and a port fault where the third one before it lies within 1,024 samples
(R285). -/
def State.illegal (s : State) (p : Nat) : State :=
  let x := s.port p
  let s := (s.setPort p { x with illegal := (s.now :: x.illegal).take 3 }).incSat (F.FBK_CNT_illegal p)
  match x.illegal with
  | [_, _, third] =>
    if s.now ≤ third + 4096 then ((s.setF (fbkFlag p 0) 1).raisePort p 29).portFault p 2 29 else s
  | _ => s

/-- Both tracks of port `p` change in one sample (R285). -/
def State.bothTracks (s : State) (p : Nat) : State :=
  let x := s.port p
  let s := s.setPort p { x with a := !x.a, b := !x.b }
  if s.portOn p && (s.portMode p = 1 || s.portMode p = 2) then s.illegal p else s

/-! ## Index (R293) -/

/-- `n` wrapped into (−c/2, c/2]. -/
def wrapHalf (c : Nat) (n : Int) : Int :=
  let r := n % (c : Int)
  if (c : Int) < 2 * r then r - c else r

/-- An active edge of filtered FZp counts (R293). -/
def State.indexCounts (s : State) (p : Nat) : Bool :=
  let x := s.port p
  s.portOn p && s.portMode p == 1 && s.bitE (F.FBK_IDX_idx_en p) && !(s.bitE (F.FBK_CFG_z_gate p) && !(x.a && x.b))

/-- The home position of the axes that look for an index of port `p` (R323): its pos as the index leaves it, plus MOT_OFS. -/
def State.axesIndex (s : State) (p : Nat) : State :=
  (List.range 8).foldl (fun s n =>
    let x := s.axis n
    if x.wantIdx && s.fe (F.MOT_BIND_port n) == p then
      s.setAxis n { x with wantIdx := false, home := some (signed 32 (unsigned 32 (s.pos p + s.fi (F.MOT_OFS_ofs n)))) }
    else s) s

/-- Filtered FZp takes level `level`; the active edge is the rising one where z_pol is 0, else the falling one (R293). In SSI
mode FZp is an output (R283). -/
def State.indexLevel (s : State) (p : Nat) (level : Bool) (edge : State → State) : State :=
  let x := s.port p
  if s.portMode p = 3 || x.z == level then s
  else
    let s := s.setPort p { x with z := level }
    if level == s.bitE (F.FBK_CFG_z_pol p) then s else edge s

/-- An active edge of filtered FZp (R293). Where ang is corrected, so is the count that ang and the observer follow
(DEDUCED, log entry 60). -/
def State.indexEdge (s : State) (p : Nat) : State :=
  if !s.indexCounts p then s
  else
    let x := s.port p
    let s := s.incWrap (F.FBK_IDX_STS_count p)
    State.axesIndex (p := p) <|
    if !s.bit (F.FBK_STS_referenced p) then
      let s := (s.setF (F.FBK_IDX_REF_ref p) x.ang).setF (F.FBK_STS_referenced p) 1
      if s.bit (F.FBK_IDX_set_pos p) then (s.setPos p (s.fi (F.FBK_IDX_POS_value p))).compareEval p s.now else s
    else
      let d := wrapHalf (max 1 (s.cpr p)) ((x.ang : Int) - s.f (F.FBK_IDX_REF_ref p))
      let s := s.setI (F.FBK_IDX_STS_dev p) d
      if d.natAbs ≤ s.f (F.FBK_IDX_tol p) then s
      else
        let s := (s.setF (fbkFlag p 1) 1).raisePort p 30
        match s.f (F.FBK_IDX_idx_mode p) with
        | 0 => s
        | 1 =>
          let s := s.setPort p { s.port p with ang := s.f (F.FBK_IDX_REF_ref p), u := x.u - d }
          ((s.setPos p (s.pos p - d)).compareEval p s.now).emuFollow p
        | _ => s.portFault p 3 30

/-! ## Sine and cosine (R286, R287) -/

/-- s·cos θ − c·sin θ ≥ 0 for θ = j/n revolution: the angle of (c, s), taken from θ, lies in the half turn that follows;
`tol` covers the error of `sinCos60`. -/
def halfTurn (sn cs : Int) (j n : Nat) : Bool :=
  let t := sinCos60 (j * 2 ^ 64 / n)
  0 ≤ sn * t.2 - cs * t.1 + (2 : Int) ^ 36

/-- floor(φ · 2^ib) where φ = atan2(s, c) / 2π in [0, 1): bit by bit from the most significant. -/
def angleFloor (sn cs : Int) (ib : Nat) : Nat → Nat → Nat
  | 0, acc => acc
  | k + 1, acc =>
    let j := acc + 2 ^ k
    let q := if 0 ≤ sn then (if 0 < cs || (cs = 0 && sn = 0) then 0 else 1) else (if cs < 0 then 2 else 3)
    let past := if j * 4 < q * 2 ^ ib then true else if (q + 2) * 2 ^ ib ≤ j * 4 then false else halfTurn sn cs j (2 ^ ib)
    angleFloor sn cs ib k (if past then j else acc)

/-- A measurement of port `p` at instant `t`, `tm` ns after the sample point, feeds the observer, compare and emulation. -/
def State.measured (s : State) (p : Nat) (m tm : Int) (t : Nat) : State :=
  (s.setPort p { s.port p with meas := some (m, tm) }).compareEval p t

/-- A conversion of port `p`'s pair: codes of sine and cosine sampled at instant `t`, `tm` ns after the sample point, where the
decoder count is latched (R286, R287). Both at their offset have no angle, so φ is a free value there. -/
def State.sinCos (s : State) (p sinCode cosCode tm t : Nat) : State :=
  if !s.portOn p || s.portMode p != 2 then s
  else
    let sn : Int := (sinCode : Int) - 32768 - s.fi (F.FBK_SC_OFS_ofs_sin p)
    let cs : Int := (cosCode : Int) - 32768 - s.fi (F.FBK_SC_OFS_ofs_cos p)
    let amp2 := (sn * sn + cs * cs).toNat
    let bad := fun c => c = 0 || c = 0xFFFF
    let inside := !(bad sinCode) && !(bad cosCode) &&
      s.f (F.FBK_SC_AMP_amp_lo p) * 2 ^ 23 ≤ amp2 && amp2 ≤ s.f (F.FBK_SC_AMP_amp_hi p) * 2 ^ 23
    let x := s.port p
    let x := { x with ampOk := inside, ampOut := if inside then 0 else x.ampOut + 1, ampTold := x.ampTold && !inside }
    let ib := s.fe (F.FBK_CFG_ib p)
    let n := 2 ^ ib
    let origin := sn == 0 && cs == 0
    let raw := if origin then (s.free 12).1.toNat % n else angleFloor sn cs ib ib 0
    let s := if origin then (s.free 12).2 else s
    let exact := (sn * (sinCos60 (raw * 2 ^ 64 / n)).2 - cs * (sinCos60 (raw * 2 ^ 64 / n)).1).natAbs ≤ 2 ^ 36
    let fl := if s.bitE (F.FBK_CFG_dir p) then (if exact then (n - raw) % n else n - 1 - raw) else raw
    let k := 4 * fl / n
    let off := (k : Int) - x.qAt t % 4
    let x := if x.preset then x else { x with preset := true, q := x.q + off, qWas := x.qWas.map fun e => (e.1, e.2 + off) }
    let s := s.setPort p x
    let q := x.qAt t
    let d := ((k : Int) - q) % 4
    if d = 2 then s.illegal p
    else
      let dq : Int := if d = 3 then -1 else d
      let pos : Int := (q + dq) / 4 * n + fl
      let delta := match x.lastP with | some l => pos - l | none => 0
      let c : Int := max 1 (s.cpr p)
      let s := s.setPort p { s.port p with lastP := some pos, u := x.u + delta, ang := (pos % c).toNat }
      (s.setPos p (s.pos p + delta)).measured p pos tm t

/-- amp2 has been outside its window at more than amp_n consecutive conversions: EV28, once until it is inside again, and a
port fault (R287). -/
def State.ampFault (s : State) (p : Nat) : State :=
  if s.portOn p && s.portMode p = 2 && max 1 (s.f (F.FBK_SC_AMP_amp_n p)) < (s.port p).ampOut && !(s.port p).ampTold then
    (((s.setPort p { s.port p with ampTold := true }).setF (fbkFlag p 2) 1).raisePort p 28).portFault p 1 28
  else s

/-- The port whose pair a slot's two enabled inputs are, if it is a SINCOS port: AIN2p and AIN2p + 1 (R286). -/
def State.slotPort (s : State) (k : Nat) : Option Nat :=
  match s.sarEntryE 0 k, s.sarEntryE 1 k with
  | some i, some j => if i % 2 = 0 && j == i + 1 && i < 8 then some (i / 2) else none
  | _, _ => none

/-- SAR slot `k` of the sequence that began at `t0` completes with the codes of both converters: results held, and a port's
pair decoded, sampled when the slot began (R113, R286). -/
def State.sarSlotDone (s : State) (idle : Bool) (t0 k c0 c1 : Nat) : State :=
  if !s.sarSlot k then s
  else
    let s := (s.sarStore idle 0 k c0).sarStore idle 1 k c1
    match s.slotPort k with
    | some p => s.sinCos p c0 c1 (500 * k) (t0 + 500 * k)
    | none => s

/-! ## SSI (R288–R290) -/

/-- Clock periods × t_clk of a frame, in ns: (len + 1) × t_clk. -/
def ssiFrameNs (len div : Nat) : Nat := (len + 1) * (4 * div)

/-- Both conditions of R289 for period `t` ns. -/
def ssiTimingOk (lead len div dly every rec t : Nat) : Bool :=
  let fr := ssiFrameNs len div
  (fr + 4 * dly ≤ 1000 + 4 * lead) && (4 * lead < t) && (fr + 1000 * rec ≤ every * t)

/-- The frame rule of R289 with the values in force. -/
def State.ssiOk (s : State) (p t : Nat) : Bool :=
  ssiTimingOk (s.fe (F.FBK_SSI_LEAD_lead p)) (s.fe (F.FBK_SSI_FMT_len p)) (s.fe (F.FBK_SSI_div p)) (s.fe (F.FBK_SSI_dly p))
    (s.fe (F.FBK_SSI_every_m1 p) + 1) (s.fe (F.FBK_SSI_rec p)) t

/-- Position bits of a frame, most significant first: bits 0 to `n − 1` as received (R288). -/
def ssiBits (bits : BitVec 40) (n : Nat) : Nat := (List.range n).foldl (fun a i => 2 * a + (bits.getLsbD i).toNat) 0

/-- Gray code of `n` bits to binary. -/
def grayToBin : Nat → Nat → Nat
  | 0, g => g
  | n + 1, g => grayToBin n (g ^^^ (g >>> (2 ^ n)))

/-- The observer's prediction at `tm` ns from the sample point, in counts × 2^32 (R294). -/
def PortSt.predict (x : PortSt) (tm : Int) : Int :=
  x.th + x.w * tm / 1000000000 + x.acc * tm * tm / 2000000000000000000

/-- A reading `st` modulo `c` unwrapped to the value nearest the prediction `pr` (counts × 2^32): a single-turn reading to the
whole revolution (R294), a multiturn one to its range (log entry 115). -/
def unwrapNear (c : Nat) (st : Nat) (pr : Int) : Int :=
  let c' : Int := max 1 c
  let d := pr - (st : Int) * 2 ^ 32
  (st : Int) + c' * ((2 * d + c' * 2 ^ 32) / (2 * c' * 2 ^ 32))

/-- How many steps of `t` from `b` on the first instant lies that is not before `x`. -/
def stepsTo (b t x : Nat) : Nat := if x ≤ b then 0 else (x - b + t - 1) / t

/-- The sample point that port `p`'s next frame is for, and the count of its tick: the first whose edge, lead × 4 ns before it,
is still to come; while no tick runs at it, that of the internal cycle, with M 1 (R288, R294). -/
def State.ssiNext (s : State) (p : Nat) : Nat × Nat :=
  let x := s.now + 4 * s.fe (F.FBK_SSI_LEAD_lead p)
  let idle := fun b => b + 100000 * max 1 (stepsTo b 100000 x)
  if s.running then
    let k := stepsTo s.tm.start s.periodNs x
    if s.tm.stopping && 1 ≤ k then (idle (s.tm.start + s.periodNs), 0)
    else (s.tm.start + k * s.periodNs, s.f F.TIME_TICK_COUNT_count + k)
  else
    let i := idle (s.port p).idleAt
    match s.tm.pend with
    | some r =>
      let k := stepsTo r.first (4 * r.period) x
      if i < r.first then (i, 0) else (r.first + k * (4 * r.period), k)
    | none => (i, 0)

/-- The SSI frame's first falling edge, lead × 4 ns before a sample point whose TIME_TICK_COUNT is a multiple of M: the
measurement instant is latched, with the level of the data line (R288). -/
def State.ssiStart (s : State) (p : Nat) (data : Bool) : State :=
  let x := s.port p
  let next := s.ssiNext p
  if !s.portOn p || s.portMode p != 3 || x.ssiBusy || x.ssiPoint == some next.1 ||
      next.2 % 2 ^ 32 % (s.fe (F.FBK_SSI_every_m1 p) + 1) != 0 then s
  else
    let lead := 4 * s.fe (F.FBK_SSI_LEAD_lead p)
    let s := s.at (next.1 - lead)
    s.setPort p { x with ssiBusy := true, ssiLow := !data, ssiAt := s.now, ssiPre := lead != 0, ssiPoint := some next.1 }

/-- Level of FZp where the port drives it, in SSI mode: the clock, idle high, with a falling edge at the start and at the end of
each of len periods of t_clk (R283, R288); each period begins with its low half (log entry 115). A disabled port drives nothing
(R284). -/
def State.fzDriven (s : State) (p : Nat) : Option Bool :=
  if !s.portOn p || s.portMode p != 3 then none
  else
    let x := s.port p
    let t := s.now - x.ssiAt
    let clk := 4 * s.fe (F.FBK_SSI_div p)
    some (!x.ssiBusy || (s.fe (F.FBK_SSI_FMT_len p) + 1) * clk ≤ t || clk ≤ 2 * (t % clk))

/-- A bad frame (R290). -/
def State.ssiBad (s : State) (p : Nat) : State :=
  let x := s.port p
  let s := (s.setPort p { x with ssiBadRow := x.ssiBadRow + 1, ssiGood := false, ssiBusy := false }).incSat
    (F.FBK_CNT_ssi_bad p)
  let s := (s.setF (fbkFlag p 3) 1).portValid p
  if x.ssiBadRow = 1 then (s.raisePort p 31).portFault p 4 31 else s

/-- The SSI frame ends with the bits received (R288, R290, R291). -/
def State.ssiEnd (s : State) (p : Nat) (bits : BitVec 40) : State :=
  let x := s.port p
  if !s.portOn p || s.portMode p != 3 || !x.ssiBusy then s
  else
    let s := s.at (x.ssiAt + ssiFrameNs (s.fe (F.FBK_SSI_FMT_len p)) (s.fe (F.FBK_SSI_div p)) + 4 * s.fe (F.FBK_SSI_dly p))
    let st := s.fe (F.FBK_SSI_FMT_st p)
    let mt := s.fe (F.FBK_SSI_FMT_mt p)
    let rawPos := ssiBits bits (st + mt)
    let s := s.setF (F.FBK_SSI_RAW_raw p) rawPos
    let v := if s.bitE (F.FBK_SSI_FMT_gray p) then grayToBin 6 rawPos else rawPos
    let errAct := s.bitE (F.FBK_SSI_FMT_err_en p) &&
      bits.getLsbD (s.fe (F.FBK_SSI_FMT_err_bit p)) == s.bitE (F.FBK_SSI_FMT_err_pol p)
    let c := max 1 (s.cpr p)
    let stv := v % 2 ^ st
    let tm : Int := -(4 * s.fe (F.FBK_SSI_LEAD_lead p) : Nat)
    let pr := x.predict (if x.ssiPre || !s.running then tm + s.obsT else tm)
    let range := if mt = 0 then c else 2 ^ (st + mt)
    let m := if x.ssiFirst then (if mt = 0 then (stv : Int) else signed (st + mt) v) else unwrapNear range (v % range) pr
    let jump := !x.ssiFirst && (c : Int) * 2 ^ 32 < 8 * ((m * 2 ^ 32 - pr).natAbs : Int)
    if x.ssiLow || errAct || jump || x.ssiFail then s.ssiBad p
    else
      let half := match x.lastSt with | some l => wrapHalf range (((v % range : Nat) : Int) - l) | none => 0
      let turns := match x.lastSt with
        | some l => x.turns + ((l : Int) + half - (v % range : Nat)) / (range : Int)
        | none => 0
      let du : Int := half
      let posNew : Int := if mt = 0 then turns * (c : Int) + stv else signed (st + mt) v
      let s := s.setPort p { x with
        ssiBusy := false, ssiBadRow := 0, ssiGood := true, ssiFirst := false, lastSt := some (v % range), turns := turns,
        u := x.u + du, ang := stv }
      ((s.setPos p posNew).measured p m tm x.ssiAt).portValid p

/-- At each tick start the SSI port repeats its timing check; a failure makes every frame of the run bad, sets ssi_late
and raises EV31 once (R289). -/
def State.ssiTick (s : State) (p : Nat) : State :=
  let x := s.port p
  if !s.portOn p || s.portMode p != 3 || x.ssiFail || s.ssiOk p s.periodNs then s
  else
    (((s.setPort p { x with ssiFail := true }).setF (fbkFlag p 7) 1).raisePort p 31).portFault p 4 31

/-! ## Tracking observer (R294) -/

/-- The predict step over `t` ns. -/
def PortSt.advance (x : PortSt) (t : Nat) : PortSt :=
  { x with th := x.predict t, w := x.w + x.acc * t / 1000000000 }

/-- Terms `t·(1 − r/k·(1 − r/(k + 1)·(…)))` of exp(−r), in units of 2^−60. -/
def expSeries (r : Nat) : Nat → Nat → Nat → Int
  | 0, _, _ => 0
  | n + 1, k, t => (t : Int) - expSeries r n (k + 1) (t * r / 2 ^ 60 / k)

/-- ln 2 in units of 2^−60. -/
def ln2At60 : Nat := 799144290325165979

/-- exp(−x) in units of 2^−60, `x` in the same units; within 2^−54 of the exact value. -/
def expNeg60 (x : Nat) : Nat := (expSeries (x % ln2At60) 24 1 (2 ^ 60)).toNat >>> (x / ln2At60)

/-- The observer's gain g = exp(−2π·fo·T_m) in units of 2^−60, fo = 10 Hz × 2^bw, T_m in ns (R294; log entry 75). -/
def obsGain (bw tm : Nat) : Nat := expNeg60 (4 * halfPi60 * (10 * 2 ^ bw) * tm / 1000000000)

/-- The correction by measurement `m` (counts) at `tm` ns, with gain `g` in units of 2^−60 and T_m in ns. -/
def PortSt.correct (x : PortSt) (m tm : Int) (g : Nat) (tmNs : Nat) : PortSt :=
  let one : Int := 2 ^ 60
  let g : Int := (g : Nat)
  if x.seen = 0 then { x with th := m * 2 ^ 32, w := 0, acc := 0, seen := 1, first := m }
  else if x.seen = 1 then
    let w := (m - x.first) * 2 ^ 32 * 1000000000 / (max 1 tmNs : Nat)
    { x with w := w, th := m * 2 ^ 32 - w * tm / 1000000000, seen := 2 }
  else
    let e := m * 2 ^ 32 - x.predict tm
    let h := one - g
    { x with
      th := x.th + (one * one * one - g * g * g) * e / (one * one * one)
      w := x.w + 3 * h * h * (one + g) * e * 1000000000 / (2 * one * one * one * (max 1 tmNs : Nat))
      acc := x.acc + h * h * h * e * 1000000000000000000 / (one * one * one * (max 1 tmNs : Nat) * (max 1 tmNs : Nat)) }

/-- FBK_ANG, FBK_SPEED and FBK_ACCEL from the observer. -/
def State.obsShow (s : State) (p : Nat) : State :=
  let x := s.port p
  let c := max 1 (s.cpr p)
  ((s.setF (F.FBK_ANG_ang p) (roundEven x.th c % (2 : Int) ^ 32).toNat).setF (F.FBK_SPEED_speed p)
    (fOfRat x.w (c * 2 ^ 32)).toNat).setF (F.FBK_ACCEL_accel p) (fOfRat x.acc (c * 2 ^ 32)).toNat

/-- Predict, at every sample point; INCR takes the count there as its measurement, and an SSI frame that has ended before
its sample point stays (R294). -/
def State.obsPredict (s : State) (p : Nat) : State :=
  if !s.portOn p then s
  else
    let x := (s.port p).advance s.obsT
    let m := if s.portMode p = 1 then some (x.u, 0) else if s.portMode p = 3 then x.meas else none
    s.setPort p { x with ticks := x.ticks + 1, ssiPre := false, meas := m }

/-- Correct with the tick's measurement, if there is one (R294). -/
def State.obsCorrect (s : State) (p : Nat) : State :=
  if !s.portOn p then s
  else
    let x := s.port p
    let tm := s.obsTm p
    let s := match x.meas with
      | some (m, t) => s.setPort p { x.correct m t (obsGain (s.fe (F.FBK_CFG_bw p)) tm) tm with meas := none }
      | none => s
    let s := s.setPort p { s.port p with obsPos := s.pos p }
    (s.obsShow p).emuFollow p

/-- FP`p`'s mechanical angle, speed and acceleration entries for drive `u` (R297): θ, speed, acceleration, status. -/
def State.feedbackEntries (s : State) (u : Nat) : List (Nat × Word) :=
  let b := 0x20 + 0x40 * u
  if !(s.unit u).ever || !s.bitE (F.FLD_BIND_fb_en u) then
    [(b, canonNan), (b + 4, canonNan), (b + 8, canonNan), (b + 12, 0)]
  else
    let p := s.fe (F.FLD_BIND_fbp u)
    let x := s.port p
    let c := max 1 (s.cpr p)
    let n := BitVec.ofNat 32 (s.fe (F.FLD_BASE_N_value u))
    let sixty := fOfInt 60
    let sts : Word := BitVec.ofNat 32 ((s.f (F.FBK_STS_valid p)) + 2 * s.f (F.FBK_STS_referenced p) +
      4 * s.f (F.FBK_STS_sat_hi p) + 8 * s.f (F.FBK_STS_sat_lo p) + 16 * p)
    if s.bit (F.FBK_STS_valid p) then
      [(b, fOfRat (x.th % ((c : Int) * 2 ^ 32)) (c * 2 ^ 32)),
       (b + 4, fdiv (fmul (fOfRat x.w (c * 2 ^ 32)) sixty) n),
       (b + 8, fdiv (fmul (fOfRat x.acc (c * 2 ^ 32)) sixty) n), (b + 12, sts)]
    else [(b, canonNan), (b + 4, canonNan), (b + 8, canonNan), (b + 12, sts)]

/-! ## Enable, clear (R284, R295) -/

/-- cpr that the registers as written give (R283). -/
def State.cprWritten (s : State) (p : Nat) : Nat :=
  match s.f (F.FBK_CFG_mode p) with
  | 1 => 4 * s.f (F.FBK_RES_lines p)
  | 2 => s.f (F.FBK_RES_lines p) * 2 ^ s.f (F.FBK_CFG_ib p)
  | 3 => 2 ^ s.f (F.FBK_SSI_FMT_st p)
  | _ => 0

/-- The check of R284 that fails first; 0 where none does. A row that names no mode is tested in every mode. -/
def State.portCheck (s : State) (p : Nat) : Nat :=
  let mode := s.f (F.FBK_CFG_mode p)
  let ib := s.f (F.FBK_CFG_ib p)
  let len := s.f (F.FBK_SSI_FMT_len p)
  let st := s.f (F.FBK_SSI_FMT_st p)
  let mt := s.f (F.FBK_SSI_FMT_mt p)
  let div := s.f (F.FBK_SSI_div p)
  let sarOk := s.bit F.SNS_SAR_STS_running && s.fe (F.SNS_AIN_CFG_role (2 * p)) == 5 && s.fe (F.SNS_AIN_CFG_role (2 * p + 1)) == 5 &&
    (List.range 2).any fun k => s.sarSlot k && s.sarEntryE 0 k == some (2 * p) && s.sarEntryE 1 k == some (2 * p + 1)
  if mode = 0 || (mode = 2 && 4 ≤ p) then 1
  else if ((mode = 1 || mode = 2) && (s.f (F.FBK_RES_lines p) = 0)) || ib < 2 || 12 < ib ||
      2 ^ 31 < s.cprWritten p || 9 < s.f (F.FBK_CFG_bw p) then 2
  else if mode = 2 && !sarOk then 3
  else if div < 25 || 2500 < div || len < 1 || 40 < len || st = 0 || 32 < st + mt || len < st + mt ||
      (s.bit (F.FBK_SSI_FMT_err_en p) && len ≤ s.f (F.FBK_SSI_FMT_err_bit p)) then 4
  else if mode = 3 && !ssiTimingOk (s.f (F.FBK_SSI_LEAD_lead p)) len div (s.f (F.FBK_SSI_dly p)) (s.f (F.FBK_SSI_every_m1 p) + 1)
      (s.f (F.FBK_SSI_rec p)) (4 * (s.f F.TIME_TICK_PERIOD_period_m1 + 1)) then 5
  else if s.bit (F.FBK_CFG_lim_en p) && !(s.fi (F.FBK_LIM_LO_lo p) < s.fi (F.FBK_LIM_HI_hi p)) then 6
  else 0

/-- A write of 1 to FBK_CTL.en (R284). pos is 0 until the first SSI frame gives the absolute value. -/
def State.portEnable (s : State) (p : Nat) : State :=
  if s.portOn p then s
  else
    let e := s.portCheck p
    let s := s.setF (F.FBK_STS_error p) e
    if e != 0 then s
    else
      let c := s.cprWritten p
      let x := s.port p
      let s := s.takeInForce (R.FBK_CTL p) (R.FBK_CMP_START p)
      let s := s.takeInForce (R.FBK_SSI_LEAD p) (R.FBK_SSI_LEAD p + 4)
      let s := (((s.setF (F.FBK_CTL_en p) 1).setF (F.FBK_STS_enabled p) 1).setF (F.FBK_CPR_cpr p) c).setF (F.FBK_STS_referenced p) 0
      let s := ((s.setF (F.FBK_STS_fault p) 0).setF (F.FBK_STS_fault_src p) 0).setF (F.FBK_STS_valid p) 0
      let s := s.setPort p { a := x.a, b := x.b, z := x.z, ssiGood := false, idleAt := s.now, pulse := x.pulse }
      let s := s.posAt p 0
      if s.portMode p = 1 then s.compareEval p s.now else s

/-- The compare of port `p` disarms (R298). -/
def State.compareOff (s : State) (p : Nat) : State :=
  ((s.setF (F.FBK_CMP_STS_armed p) 0).setPort p { s.port p with best := none })

/-- A write of 0 to FBK_CTL.en stops the port at once, a frame in progress included (R284). -/
def State.portDisable (s : State) (p : Nat) : State :=
  let s := s.setPort p { s.port p with ssiBusy := false }
  (((s.setF (F.FBK_CTL_en p) 0).setF (F.FBK_STS_enabled p) 0).portValid p).compareOff p

/-- The required ticks have passed since enable or clear (R295). -/
def State.portSettle (s : State) (p : Nat) : State :=
  if s.portOn p && s.settleTicks p ≤ (s.port p).ticks then
    (s.setPort p { s.port p with settled := true }).portValid p
  else s

/-- The condition of the port's fault is absent (R295). -/
def State.faultGone (s : State) (p : Nat) : Bool :=
  let x := s.port p
  match s.f (F.FBK_STS_fault_src p) with
  | 1 => x.ampOk
  | 2 => match x.illegal with | t :: _ => t + 4096 < s.now | [] => true
  | 4 => x.ssiGood
  | _ => true

/-- A write of 1 to FBK_CMD.clear (R295). -/
def State.portClear (s : State) (p : Nat) : State :=
  if !s.faultGone p then s.setF (fbkFlag p 5) 1
  else
    let s := if s.f (F.FBK_STS_fault_src p) = 3 then s.setF (F.FBK_STS_referenced p) 0 else s
    let x := s.port p
    let s := (s.setF (F.FBK_STS_fault p) 0).setF (F.FBK_STS_fault_src p) 0
    let x := { x with th := 0, w := 0, acc := 0, seen := 0, ticks := 0, settled := false }
    (s.setPort p { x with ssiFirst := true }).portValid p

/-! ## Compare (R298, R299) -/

/-- A write to FBK_CMP_CFG (R298). -/
def State.compareArm (s : State) (p : Nat) (val : Word) : State :=
  let s := s.setReg (R.FBK_CMP_CFG p) (val &&& 0xFF0FFFFF)
  let n := s.f (F.FBK_CMP_CFG_count p)
  let s := s.gpioSync
  if n = 0 || s.f (F.FBK_CMP_PITCH_pitch p) = 0 then (s.compareOff p).setF (F.FBK_CMP_STS_remaining p) 0
  else
    let s := ((s.setF (F.FBK_CMP_STS_armed p) 1).setF (F.FBK_CMP_STS_remaining p) n).setF (F.FBK_CMP_CUR_value p)
      (s.f (F.FBK_CMP_START_start p))
    let s := s.setPort p { s.port p with best := none }
    if s.portOn p && s.portMode p = 1 then s.compareEval p s.now else s

/-- One hit of the compare: EV32, the value advances, the GPIO pulse starts or is restarted (R298, R299). -/
def State.compareHit (s : State) (p : Nat) : State :=
  let x := s.port p
  let pitch := s.fi (F.FBK_CMP_PITCH_pitch p)
  let v := s.fi (F.FBK_CMP_CUR_value p)
  match x.best with
  | none => s
  | some b =>
    if !s.bit (F.FBK_CMP_STS_armed p) || !s.portOn p || !(if 0 ≤ pitch then v ≤ b else b ≤ v) then s
    else
      let s := (s.raiseAt x.bestAt false 32 0 (s.portOrigin p) scopeNone).setF (F.FBK_CMP_CUR_value p) (unsigned 32 (v + pitch))
      let rem := s.f (F.FBK_CMP_STS_remaining p) - 1
      let s := s.setF (F.FBK_CMP_STS_remaining p) rem
      let s := if rem = 0 then (s.compareOff p).setF (fbkFlag p 6) 1 else s
      let w := s.f (F.FBK_CMP_CFG_width p)
      if w = 0 then s
      else
        let s := if x.pulse.isSome then s.incSat (F.FBK_CMP_STS_merged p) else s
        s.setPort p { s.port p with pulse := some (x.bestSeen + 40 * w) }

/-- The compare's GPIO pulse ends (R299). -/
def State.comparePulseEnd (s : State) (p : Nat) : State :=
  match (s.port p).pulse with
  | some t => (s.at t).setPort p { s.port p with pulse := none }
  | none => s

/-! ## Meanings -/

/-- SAR_SLOT_DONE (R113): slot `slot` of the tick's sequence completes. -/
def execSarSlotDone (slot : Fin 16) (c0 c1 : BitVec 16) (s : State) : Host.Outcome State Fault Refusal :=
  onMain s fun s =>
    if s.running then (s.at (s.tm.start + 500 * (slot + 1))).sarSlotDone false s.tm.start slot c0.toNat c1.toNat else s
/-- SAR_IDLE_SEQUENCE (R114): the whole sequence at the next instant of its own grid, while the tick is stopped. -/
def execSarIdleSequence (codes : BitVec 512) (s : State) : Host.Outcome State Fault Refusal :=
  onMain s fun s =>
    if s.running || !s.bit F.SNS_SAR_CTL_en then s
    else
      let t := gridNext s.sns.sarAt 10000 (max s.now s.sns.sarNext)
      let s := { s with sns := { s.sns with sarNext := t + 1 } }
      (List.range 16).foldl (fun s k =>
        if s.sarSlot k then
          (s.at (t + 500 * (k + 1))).sarSlotDone true t k (codes.extractLsb' (32 * k) 16).toNat (codes.extractLsb' (32 * k + 16) 16).toNat
        else s) s
/-- PORT_ENABLE (R284). -/
def execPortEnable (n : Fin 8) (s : State) : Host.Outcome State Fault Refusal := onMain s fun s => s.portEnable n
/-- PORT_DISABLE (R284). -/
def execPortDisable (n : Fin 8) (s : State) : Host.Outcome State Fault Refusal := onMain s fun s => s.portDisable n
/-- ILLEGAL_TRANSITION (R285): both raw tracks have changed together and held their new levels for `held` samples. -/
def execIllegalTransition (n : InputHeld 8) (s : State) : Host.Outcome State Fault Refusal :=
  onMain s fun s => if s.fbkHeld n.n n.held then s.bothTracks n.n else s
/-- INDEX (R293): raw FZn has held its level for that many samples. -/
def execIndex (n : InputLevel 8) (s : State) : Host.Outcome State Fault Refusal :=
  onMain s fun s => if s.fbkHeld n.n n.held then s.indexLevel n.n n.high fun s => s.indexEdge n.n else s
/-- AMPLITUDE_FAULT (R287). -/
def execAmplitudeFault (n : Fin 8) (s : State) : Host.Outcome State Fault Refusal := onMain s fun s => s.ampFault n
/-- SSI_FRAME_START (R288). -/
def execSsiFrameStart (n : Fin 8) (data : Bool) (s : State) : Host.Outcome State Fault Refusal :=
  onMain s fun s => s.ssiStart n data
/-- SSI_FRAME_END (R290). -/
def execSsiFrameEnd (n : Fin 8) (bits : BitVec 40) (s : State) : Host.Outcome State Fault Refusal :=
  onMain s fun s => s.ssiEnd n bits
/-- FEEDBACK_OBSERVER_UPDATE (R294). -/
def execFeedbackObserverUpdate (n : Fin 8) (s : State) : Host.Outcome State Fault Refusal :=
  onMain s fun s => if s.running then (s.at (s.tm.start + 1000)).obsCorrect n else s
/-- FEEDBACK_IDLE_CYCLE (R294): an internal cycle of 100 µs while the tick is stopped. The frame of an SSI port ends by 1,000 ns
after the cycle's point (R289), at which the port then corrects. -/
def execFeedbackIdleCycle (n : Fin 8) (s : State) : Host.Outcome State Fault Refusal :=
  onMain s fun s =>
    if s.running || !s.portOn n then s
    else
      let x := s.port n
      let t := x.idleAt + 100000
      let s := s.at (if s.portMode n = 3 then t + 1000 else t)
      let held := x.meas
      let s := s.setPort n { x with idleAt := t }
      let s := s.obsPredict n
      let s := if s.portMode n = 1 then s else s.setPort n { s.port n with meas := held }
      s.obsCorrect n
/-- PORT_SETTLED (R295). -/
def execPortSettled (n : Fin 8) (s : State) : Host.Outcome State Fault Refusal := onMain s fun s => s.portSettle n
/-- PORT_CLEAR (R295). -/
def execPortClear (n : Fin 8) (s : State) : Host.Outcome State Fault Refusal := onMain s fun s => s.portClear n
/-- REF_CLEAR (R295). -/
def execRefClear (n : Fin 8) (s : State) : Host.Outcome State Fault Refusal :=
  onMain s fun s => s.setF (F.FBK_STS_referenced n) 0
/-- COMPARE_ARM (R298). -/
def execCompareArm (n : Fin 8) (val : Word) (s : State) : Host.Outcome State Fault Refusal :=
  onMain s fun s => s.compareArm n val
/-- COMPARE_HIT (R298). -/
def execCompareHit (n : Fin 8) (s : State) : Host.Outcome State Fault Refusal := onMain s fun s => s.compareHit n
/-- COMPARE_PULSE_END (R299). -/
def execComparePulseEnd (n : Fin 8) (s : State) : Host.Outcome State Fault Refusal := onMain s fun s => s.comparePulseEnd n
/-- EMULATION_ENABLE (R300). -/
def execEmulationEnable (m : Fin 2) (s : State) : Host.Outcome State Fault Refusal := onMain s fun s => s.emuEnable m
/-- EMULATOR_STEP (R300). -/
def execEmulatorStep (m : Fin 2) (s : State) : Host.Outcome State Fault Refusal := onMain s fun s => s.emuStep m
/-- QUADRATURE_COUNT (R285): one raw track has changed and held its new level for `held` samples. -/
def execQuadratureCount (n : InputHeld 8) (trackB : Bool) (s : State) : Host.Outcome State Fault Refusal :=
  onMain s fun s => if s.fbkHeld n.n n.held then s.quadStep n.n trackB else s

end Sys2Proof.Machine
end

