-- ==== Sys2Proof/Machine/Modulation.lean ====
section
/-! DEFINITION. Carriers, reloads, the PWM command, leg commands and bootstrap refresh (06_modulation.md). The output stage
itself stands in Bind.lean. -/

namespace Sys2Proof.Machine

/-! ## Ownership (R54) -/

/-- The context that owns instance `i` of couchable kind `kind`, by the schedule table in force. -/
def State.ownerOf (s : State) (kind i : Nat) : Option Nat :=
  match s.eng.sched with
  | none => none
  | some t => (t.owners.find? fun o => o.kind == kind && o.first ≤ i && i ≤ o.last).map Own.ctx

/-- A host write to a field that context `c` owns is dropped and counted (R59). -/
def State.hostDrop (s : State) (c : Nat) : State := s.incSat (F.CTX_HOST_DROP_host_drop c)

/-! ## The carrier (R174–R176) -/

/-- P of domain `d` in force, in 4 ns counts, and H in ns. -/
def State.mdP (s : State) (d : Nat) : Nat := s.fe (F.MOD_PERIOD_half d)
/-- H of domain `d` in ns. -/
def State.mdH (s : State) (d : Nat) : Nat := 4 * s.mdP d
/-- The carrier of domain `d` runs. -/
def State.mdOn (s : State) (d : Nat) : Bool := s.bit (F.MOD_STS_running d)

/-- Reload interval in 4 ns counts for half period `p`, N − 1 `n` and event selection `evt` (R175). -/
def reloadCounts (p n evt : Nat) : Nat := if evt = 3 then (n + 1) * p else (n + 1) * (2 * p)

/-- The carrier of domain `d` takes position `o` (4 ns counts along the period) at instant `t`; an event at that position
still lies ahead and occurs at `t` (R176, R195). -/
def State.mdPlace (s : State) (d o t : Nat) : State :=
  let p := s.mdP d
  let m := s.md d
  let m := if o = 0 then { m with up := false, zero := (t : Int) - 8 * p }
    else if o ≤ p then { m with up := true, zero := (t : Int) - 4 * o }
    else { m with up := false, zero := (t : Int) - 4 * o }
  s.setMd d m

/-- The PWM commands of the legs of domain `d` are 0, and no pulse is being dropped (R177, R183). -/
def State.mdClear (s : State) (d : Nat) : State :=
  (s.domainLegs d).foldl (fun s n => s.setLeg n { s.leg n with h := false, drop := none, tested := false }) s

/-- The carrier of domain `d` starts at instant `t` at MOD_PHASE.offset; the first selected event reloads (R175, R176). A
debug halt holds it at that position (R196). -/
def State.mdStart (s : State) (d t : Nat) : State :=
  let s := ((s.setF (F.MOD_STS_running d) 1).setF (F.MOD_STS_waiting d) 0).mdClear d
  let s := s.setMd d { s.md d with evLeft := 0, due := false, held := none }
  let s := s.mdPlace d (s.fe (F.MOD_PHASE_offset d)) t
  if s.halted then s.setMd d { s.md d with held := some ((t : Int) - (s.md d).zero) } else s

/-- The carrier of domain `d` stops and its legs turn off. -/
def State.mdHalt (s : State) (d : Nat) : State :=
  let s := ((s.setF (F.MOD_STS_running d) 0).setF (F.MOD_STS_waiting d) 0).setMd d { s.md d with due := false, held := none }
  (s.mdClear d).legsApply (s.domainLegs d)

/-- MOD_CNT of domain `d`: position in 4 ns counts, and whether it is in the down half (R199). -/
def State.mdCount (s : State) (d : Nat) : Nat × Bool :=
  if !s.mdOn d then (0, false)
  else
    let m := s.md d
    let x := m.held.getD ((s.now : Int) - m.zero)
    let h : Int := s.mdH d
    if m.up then ((clampInt 0 h x / 4).toNat, false) else ((clampInt 0 h (2 * h - x) / 4).toNat, true)

/-! ## References and compares (R177–R181) -/

/-- Compare value of duty `r` (Q1.15) for half period `h` ns (R178). -/
def dutyCmp (r : Int) (h : Nat) : Nat :=
  if r ≤ 0 then 0 else if r = 0x7FFF then h else (roundEven (r * h) 32768).toNat

/-- Outer and inner duty of an NPC phase (R178). -/
def npcOuter (r : Int) : Int := if r = 0x7FFF then 0x7FFF else max 0 (2 * r - 32768)
/-- Inner duty. -/
def npcInner (r : Int) : Int := if r ≤ 0 then 0 else min 32767 (2 * r)

/-- Compare of slot `j` of domain `d` from reference registers as `get` holds them (R172, R178). -/
def State.slotCmp (s : State) (d : Nat) (get : Nat → Word) (j : Nat) : Nat :=
  let h := s.mdH d
  let duty := fun p => signed 16 (getBits (get (R.MOD_DUTY d p)) 0 16)
  match s.topo d with
  | some 0 => if j < 3 then dutyCmp (duty j) h else 0
  | some 1 => dutyCmp (if j % 2 = 0 then npcOuter (duty (j / 2)) else npcInner (duty (j / 2))) h
  | some 2 => getBits (get (R.MOD_CMP d j)) 0 20
  | _ => 0

/-- The phase duties of the unit of domain `d` while it searches or magnetises (R153): they stand in place of the domain's
references (log entry 107). -/
def State.ownDuties (s : State) (d : Nat) : Option (Nat × UnitSt) :=
  match s.domainUnit d with
  | some u => if (s.unit u).pat = .pwm then some (u, s.unit u) else none
  | none => none

/-- Compare of slot `j` of domain `d` from phase duties `codes`. -/
def State.ownCmp (s : State) (d : Nat) (codes : List Nat) (j : Nat) : Nat :=
  s.slotCmp d (fun a => BitVec.ofNat 32 (codes[(a - R.MOD_DUTY d 0) / 4]?.getD 0)) j

/-- The compare of slot `j` of domain `d` that its PWM command follows. -/
def State.actCmp (s : State) (d j : Nat) : Nat :=
  match s.ownDuties d with
  | some (_, x) => s.ownCmp d x.ownAct j
  | none => s.f (F.MOD_ACT_value d j)

/-- Shadow value of an "at reload" register. -/
def State.shd (s : State) (a : Nat) : Word := tblGet (s.reg a) s.shadow a
/-- The state with the shadow of register `a` holding `w`. -/
def State.setShd (s : State) (a : Nat) (w : Word) : State := { s with shadow := tblSet s.shadow a w }
/-- The shadow as it stood before the last couch: the value in force where nothing else had entered it. -/
def State.eligible (s : State) (a : Nat) : Word := tblGet (s.reg a) s.elig a

/-- MOD_ACTj and MOD_SHDj of domain `d` follow the values in force and the shadow. -/
def State.modShow (s : State) (d : Nat) : State :=
  (List.range 6).foldl (fun s j =>
    let a := s.slotCmp d s.reg j
    let h := s.slotCmp d s.shd j
    ((s.setF (F.MOD_ACT_value d j) a).setF (F.MOD_SHD_value d j) h).setB (F.MOD_SHD_pending d j) (a != h)) s

/-- The reference registers of domain `d`: MOD_DUTY0–2, MOD_CMP0–5. -/
def refRegs (d : Nat) : List Nat := ((List.range 3).map (R.MOD_DUTY d)) ++ ((List.range 6).map (R.MOD_CMP d))

/-- Who writes the references of a domain (R179). -/
inductive RefWriter where
  | ctx (c : Nat)
  | unit
  | host
  deriving DecidableEq, Repr

/-- The writer of domain `d`'s references (R123, R179). -/
def State.refWriter (s : State) (d : Nat) : RefWriter :=
  match s.ownerOf 1 d with
  | some c => .ctx c
  | none =>
    match s.domainUnit d with
    | some u => if s.fe (F.FLD_CTL_cc_src u) = 0 then .unit else .host
    | none => .host

/-- A value for reference register `a` of domain `d` is ignored: its topology in force does not use it (R179). -/
def State.refIgnored (s : State) (d a : Nat) : Bool :=
  match s.topo d with
  | none => false
  | some t => (t == 2) == (a < R.MOD_CMP d 0)

/-- The next tick start after the present instant, on the grid of the run (R19). -/
def State.nextTick (s : State) : Nat := s.tm.start + s.periodNs

/-- The leg check of R191 that fails first, 0 for none. -/
def State.legCheck (s : State) (n : Nat) : Nat :=
  let dt := s.f (F.GATE_DT_dt n)
  let tm := s.f (F.GATE_MINP_t_min n)
  let w := s.f (F.GATE_BOOT_width n)
  let td := max dt (s.f (F.GATE_FLOOR_floor n))
  let dup := match s.legDomain n with
    | none => false
    | some d => (s.domainLegs d).any fun m =>
        m != n && s.bit (F.GATE_STS_enabled m) && s.f (F.GATE_CFG_slot m) == s.f (F.GATE_CFG_slot n)
  let half := match s.legDomain n with
    | none => none
    | some d => some (if s.bit (F.MOD_CTL_en d) then s.mdH d else 4 * s.f (F.MOD_PERIOD_half d))
  if dup then 1
  else if 8000 < dt then 2
  else if 2000 < tm then 3
  else if s.bit (F.GATE_CFG_supply n) && (w < 100 || 2000 < w || w < tm) then 4
  else match half with
    | some h => if h < td + tm then 5 else 0
    | none => 0

/-- GATE_CMDn takes the value `w`: en from 0 to 1 makes the checks of R191 and copies the "at next enable" fields; a
refused enable leaves en at 0 (DEDUCED, log entry 22). -/
def State.legSet (s : State) (n : Nat) (w : Word) : State :=
  let was := s.bit (F.GATE_CMD_en n)
  let force := getBits w 4 2
  let en := getBits w 0 1 = 1
  let e := if en && !was then s.legCheck n else 0
  let ok := en && e = 0
  let s := if en && !was then s.setF (F.GATE_STS_cfg_error n) e else s
  let s := if ok && !was then
      let s := (s.takeInForce (R.GATE_DT n) (R.GATE_CMD n)).takeInForce (R.GATE_FLOOR n) (R.GATE_FLOOR n + 4)
      s.setF (F.GATE_STS_td_eff n) (s.tdEff n)
    else s
  let v := BitVec.ofNat 32 ((if ok then 1 else 0) + 16 * force)
  let s := ((s.setReg (R.GATE_CMD n) v).setB (F.GATE_STS_enabled n) ok)
  if s.shd (R.GATE_CMD n) == w then s.setShd (R.GATE_CMD n) v else s

/-- GATE_CMDn takes the value `w`, and the leg and its NPC partner follow. -/
def State.legCmd (s : State) (n : Nat) (w : Word) : State := let s := s.legSet n w; s.legsApply (s.legPair n)

/-- The shadow of `a` as a reload at the present instant takes it: the copy of before the last couch until `notBefore`. -/
def State.reloadVal (s : State) (notBefore a : Nat) : Word :=
  if s.now < notBefore then s.eligible a else s.shd a

/-- A GATE_CMD of leg `n` acts at a reload event of its domain, where `hold` keeps a host's value back (R181, R191). The legs
follow when all of the domain have taken theirs, so that a phase of an NPC domain sees both (R187). -/
def State.legReload (hold : Bool) (s : State) (n : Nat) : State :=
  let a := R.GATE_CMD n
  let w := if (s.ownerOf 6 n).isSome then s.reloadVal (s.leg n).notBefore a else if hold then s.reg a else s.shd a
  if w == s.reg a then s else s.legSet n w

/-- The reload of domain `d` (R175, R179, R181): every value in force is replaced by the value in its shadow. The first one
after the entry of its unit into RUN hands the outputs back to the references (R124). -/
def State.reload (s : State) (d : Nat) : State :=
  let hold := s.bit (F.MOD_HOST_CTL_hold d)
  let take := fun (s : State) a =>
    let w := match s.refWriter d with
      | .host => if hold then s.reg a else s.shd a
      | _ => s.reloadVal (s.md d).notBefore a
    s.setReg a w
  let s := (refRegs d).foldl take s
  let s := s.modShow d
  let s := (s.domainLegs d).foldl (State.legReload hold) s
  let s := s.legsApply (s.domainLegs d)
  let s := s.setMd d { s.md d with due := false, reloadAt := some s.now }
  match s.domainUnit d with
  | some u =>
    let x := s.unit u
    let s := s.setUnit u { x with ownAct := if s.now < x.ownFrom then x.ownAct else x.own, fresh := false,
                                  pat := if x.fresh then .block else x.pat }
    if x.fresh then s.legsApply (s.domainLegs d) else s
  | none => s

/-- A host write to domain `d` at this instant (R180): a reload event of the same timebase cycle comes first, and the write is
late; no reload occurs in a debug halt (R196). -/
def State.late (s : State) (d : Nat) : State :=
  let s := if (s.md d).due && !s.halted then s.reload d else s
  match (s.md d).reloadAt with
  | some t => if t / 4 = s.now / 4 then (s.incSat (F.MOD_LATE_late d)).setF (F.MOD_STS_late_seen d) 1 else s
  | none => s

/-- A host write of `w` to reference register `a` of domain `d` (R59, R123, R179, R180). -/
def State.refHostWrite (s : State) (d a : Nat) (w : Word) : State :=
  match s.refWriter d with
  | .ctx c => s.hostDrop c
  | .unit => s
  | .host =>
    if s.refIgnored d a then s
    else if !s.mdOn d then ((s.setReg a w).setShd a w).modShow d
    else
      ((s.late d).setShd a w).modShow d

/-- A write of 0 to MOD_HOST_CTL.hold (R181, R180). -/
def State.holdRelease (s : State) (d : Nat) : State :=
  if !s.bit (F.MOD_HOST_CTL_hold d) then s
  else
    (if s.mdOn d then s.late d else s).setF (F.MOD_HOST_CTL_hold d) 0

/-- A host write of `w` to GATE_CMDn (R59, R179–R181, R191). -/
def State.gateHostWrite (s : State) (n : Nat) (w : Word) : State :=
  let a := R.GATE_CMD n
  match s.ownerOf 6 n with
  | some c => s.hostDrop c
  | none =>
    match s.legDomain n with
    | none => if s.running then s.setShd a w else (s.setShd a w).legCmd n w
    | some d =>
      if !s.mdOn d then (s.setShd a w).legCmd n w
      else (s.late d).setShd a w

/-- At a tick start, the GATE_CMD of every leg in no domain acts (R191). -/
def State.freeLegs (s : State) : State :=
  (List.range 18).foldl (fun s n =>
    let w := s.shd (R.GATE_CMD n)
    if (s.legDomain n).isNone && w != s.reg (R.GATE_CMD n) then s.legCmd n w else s) s

/-- A committed value for a reference or leg register enters the shadow at the couch (R179). -/
def State.commitRef (s : State) (d a : Nat) (w : Word) : State :=
  if s.refIgnored d a then s
  else
    let nb := if s.bitE (F.MOD_CTL_bind d) then s.nextTick else s.now + 1
    ((s.setShd a w).setMd d { s.md d with notBefore := nb }).modShow d

/-- A committed field of GATE_CMD of leg `n` (R191): field 0 en, 1 force. -/
def State.commitGate (s : State) (n field : Nat) (raw : Nat) : State :=
  let a := R.GATE_CMD n
  let w := if field = 0 then insertBits (s.shd a) 0 1 raw else insertBits (s.shd a) 4 2 raw
  let nb := match s.legDomain n with
    | some d => if s.bitE (F.MOD_CTL_bind d) then s.nextTick else s.now + 1
    | none => 0
  (s.setShd a w).setLeg n { s.leg n with notBefore := nb }

/-- A unit's phase duties (Q1.15 codes) enter the shadow of domain `d` (R131). -/
def State.unitDuties (s : State) (d : Nat) (codes : List Nat) : State :=
  let s := codes.zipIdx.foldl (fun s (c, p) => s.setShd (R.MOD_DUTY d p) (BitVec.ofNat 32 (c % 0x10000))) s
  (s.setMd d { s.md d with notBefore := s.now + 400 }).modShow d

/-! ## Enable and disable (R173, R176) -/

/-- The check of R173 that fails first, 0 for none; `period` is the tick period in 4 ns counts that check 5 takes. -/
def State.modCheck (s : State) (d period : Nat) : Nat :=
  let topo := s.f (F.MOD_CTL_topo d)
  let p := s.f (F.MOD_PERIOD_half d)
  let slots := (s.domainLegs d).map fun n => s.f (F.GATE_CFG_slot n)
  let used := if topo = 0 then 3 else 6
  let full := if topo = 2 then !slots.isEmpty else (List.range used).all slots.contains
  let evt := s.f (F.MOD_RELOAD_evt d)
  let tr := reloadCounts p (s.f (F.MOD_RELOAD_n_m1 d)) evt
  if topo = 3 || 5 < s.f (F.MOD_CTL_bridge d) then 1
  else if !full || !decide slots.Nodup || slots.any (used ≤ ·) then 2
  else if p < 1250 || 250000 < p || 2 * p ≤ s.f (F.MOD_PHASE_offset d) ||
      (d == 0 && 2 * p ≤ s.f (F.MOD_SYNC_offset d)) then 3
  else if evt = 0 then 4
  else if s.bit (F.MOD_CTL_bind d) && period % tr != 0 then 5
  else if (s.domainLegs d).any fun n =>
      s.bit (F.GATE_STS_enabled n) && 4 * p < s.tdEff n + s.fe (F.GATE_MINP_t_min n) then 6
  else if d == 0 && s.bit (F.MOD_SYNC_in_en d) && s.bit (F.MOD_CTL_bind d) then 7
  else 0

/-- A write of 1 to MOD_CTL.en (R173, R176). An unbound domain runs from the timebase cycle after the write on, to which time has
gone when the command ends (DEDUCED, log entry 132). -/
def State.modEnable (s : State) (d : Nat) : State :=
  if s.bit (F.MOD_CTL_en d) then s
  else
    let e := s.modCheck d (if s.running then s.tm.period else s.f F.TIME_TICK_PERIOD_period_m1 + 1)
    let s := s.setF (F.MOD_STS_error d) e
    if e != 0 then s
    else
      let s := (s.takeInForce (R.MOD_CTL d) (R.MOD_CMP d 0)).setF (F.MOD_CTL_en d) 1
      let s := s.setMd d { s.md d with ever := true, due := false, notBefore := 0 }
      let s := if !s.bitE (F.MOD_CTL_bind d) then let t := s.now / 4 * 4 + 4; (s.at t).mdStart d t
        else if s.running then s else s.setF (F.MOD_STS_waiting d) 1
      (s.modShow d).legsApply (s.domainLegs d)

/-- A write of 0 to MOD_CTL.en. -/
def State.modDisable (s : State) (d : Nat) : State := (s.setF (F.MOD_CTL_en d) 0).mdHalt d

/-- At tick start `t`, bound domains that do not run start; a waiting one repeats its period check first (R176). -/
def State.boundStart (t : Nat) (s : State) (d : Nat) : State :=
  if !s.bit (F.MOD_CTL_en d) || !s.bitE (F.MOD_CTL_bind d) || s.mdOn d then s
  else
    let tr := reloadCounts (s.mdP d) (s.fe (F.MOD_RELOAD_n_m1 d)) (s.fe (F.MOD_RELOAD_evt d))
    if s.bit (F.MOD_STS_waiting d) && s.tm.period % tr != 0 then
      ((s.setF (F.MOD_CTL_en d) 0).setF (F.MOD_STS_waiting d) 0).setF (F.MOD_STS_error d) 5
    else (s.mdStart d t).legsApply (s.domainLegs d)

/-- At the end of the last tick a running bound domain stops, turns its legs off and waits again (R176, R28). -/
def State.boundStop (s : State) (d : Nat) : State :=
  if s.bit (F.MOD_CTL_en d) && s.bitE (F.MOD_CTL_bind d) then (s.mdHalt d).setF (F.MOD_STS_waiting d) 1 else s

/-! ## Carrier events (R174, R175, R192, R194, R195) -/

/-- An event of kind `sel` (1 zero, 2 peak) has occurred on domain `d`: every N-th selected one is a reload event. -/
def State.carrierCount (s : State) (d sel : Nat) : State :=
  if s.fe (F.MOD_RELOAD_evt d) / sel % 2 = 0 then s
  else
    let m := s.md d
    if m.evLeft = 0 then s.setMd d { m with due := true, evLeft := s.fe (F.MOD_RELOAD_n_m1 d) }
    else s.setMd d { m with evLeft := m.evLeft - 1 }

/-- A carrier period of BOOTSTRAP leg `n` ends at its zero event (R192): the count, and the start of the next period. A leg that
is disabled or in a domain that does not run counts none (log entry 132). -/
def State.bootPeriod (s : State) (n : Nat) : State :=
  if !s.bit (F.GATE_CFG_supply n) || s.legRank n == 3 then s
  else
    let x := s.leg n
    let cnt := if x.period.isNone then 0 else if s.refreshSeen n then 0 else x.refCnt + 1
    s.setLeg n { x with period := some s.now, refSeen := false, refCnt := cnt }

/-- The carrier of domain `d` reaches c = 0: the next event of the carrier, if that is what comes next. -/
def State.carrierZero (s : State) (d : Nat) : State :=
  let m := s.md d
  if !s.mdOn d || s.halted || m.up then s
  else
    let z := m.zero + 2 * s.mdH d
    let s := (s.at z.toNat).setMd d { m with zero := z, up := true }
    let s := (s.carrierCount d 1)
    let s := (s.domainLegs d).foldl State.bootPeriod s
    if d == 0 && s.bit (F.MOD_SYNC_out_en d) then s.setMd d { s.md d with syncUntil := z.toNat + 40 } else s

/-- The carrier of domain `d` reaches c = H. -/
def State.carrierPeak (s : State) (d : Nat) : State :=
  let m := s.md d
  if !s.mdOn d || s.halted || !m.up then s
  else ((s.at (m.zero + s.mdH d).toNat).setMd d { m with up := false }).carrierCount d 2

/-- Level of ball PSYNCO (R194). -/
def State.psynco (s : State) : Bool :=
  s.mdOn 0 && s.bit (F.MOD_SYNC_out_en 0) && s.now < (s.md 0).syncUntil

/-- A refresh of BOOTSTRAP leg `n` starts at the zero event at which its count has reached K (R192). -/
def State.refreshStart (s : State) (n : Nat) : State :=
  let x := s.leg n
  let k := s.fe (F.GATE_BOOT_k_m1 n) + 1
  if s.bit (F.GATE_CFG_supply n) && k ≤ x.refCnt && x.refUntil.isNone && 6 ≤ s.legRank n && x.period == some s.now &&
      !s.halted then
    let s := s.setLeg n { x with refUntil := some (s.now + s.tdEff n + s.fe (F.GATE_BOOT_width n)), refCnt := 0 }
    ((s.setF (F.GATE_STS_refresh n) 1).incSat (F.GATE_CNT_refresh n)).legsApply (s.legPair n)
  else s

/-- The refresh width of leg `n`, which runs while GL is on, expires: GL goes off and its source takes over again (R192). -/
def State.refreshEnd (s : State) (n : Nat) : State :=
  match (s.leg n).refUntil with
  | none => s
  | some t => if s.halted || !(s.leg n).ol then s
    else ((s.at t).setLeg n { s.leg n with refUntil := none }).legsApply (s.legPair n)

/-! ## The PWM command (R177, R183, R184) -/

/-- The scheduled command of a half that starts at `a`, with compare `c` and half period `h`, at instant `t` (R177). -/
def halfSched (up : Bool) (a : Int) (h c : Nat) (t : Int) : Bool :=
  if h ≤ c then true
  else if c = 0 then false
  else if up then a + h - c ≤ t else t < a + c

/-- First instant of that half at which the schedule leaves `v`, `v` being its value just before. -/
def halfLeaves (up v : Bool) (a : Int) (h c : Nat) : Option Int :=
  let c := min c h
  match up, v with
  | true, true => if c < h then some a else none
  | true, false => if 0 < c then some (a + h - c) else none
  | false, true => if c < h then some (a + c) else none
  | false, false => if 0 < c then some a else none

/-- Start of the half in progress of domain `d`. -/
def State.halfStart (s : State) (d : Nat) : Int := let m := s.md d; if m.up then m.zero else m.zero + s.mdH d

/-- The coming event of domain `d` is a reload event. -/
def State.reloadNext (s : State) (d : Nat) : Bool :=
  s.fe (F.MOD_RELOAD_evt d) / (if (s.md d).up then 2 else 1) % 2 = 1 && (s.md d).evLeft == 0

/-- The compare of slot `j` in the half that follows: the value due at its reload, as far as it has been written (R184). -/
def State.nextCmp (s : State) (d j : Nat) : Nat :=
  if !s.reloadNext d then s.actCmp d j
  else if let some (_, x) := s.ownDuties d then
    s.ownCmp d (if s.halfStart d + s.mdH d < x.ownFrom then x.ownAct else x.own) j
  else
    let e := s.halfStart d + s.mdH d
    let hold := s.bit (F.MOD_HOST_CTL_hold d)
    s.slotCmp d (fun a => match s.refWriter d with
      | .host => if hold then s.reg a else s.shd a
      | _ => if e < (s.md d).notBefore then s.eligible a else s.shd a) j

/-- End of a pulse of value `v` that begins at the present instant on slot `j` of domain `d`, taken no further than the
half that follows. -/
def State.pulseEnd (s : State) (d j : Nat) (v : Bool) : Int :=
  let h := s.mdH d
  let up := (s.md d).up
  let a := s.halfStart d
  let here := match halfLeaves up v a h (s.actCmp d j) with
    | some e => if (s.now : Int) < e then some e else none
    | none => none
  match here with
  | some e => e
  | none => (halfLeaves (!up) v (a + h) h (s.nextCmp d j)).getD (a + 2 * h)

/-- The command of leg `n`, slot `j` of domain `d`, changes to `v` at the present instant: the pulse test of R183 at rank
7, and R184's narrow flag for a pulse that ends before the end its test took. -/
def State.pwmEdge (s : State) (d j n : Nat) (v : Bool) : State :=
  let x := s.leg n
  let td := s.tdEff n
  let tm := s.fe (F.GATE_MINP_t_min n)
  let rank7 := s.legRank n == 7
  let onFor := if x.h then (if x.oh then s.now - x.ghAt else 0) else (if x.ol then s.now - x.glAt else 0)
  let e := s.pulseEnd d j v
  if rank7 && e - s.now < ((td + tm : Nat) : Int) then
    (s.setF (F.GATE_STS_suppressed n) 1).setLeg n { x with drop := some x.h }
  else
    let narrow := rank7 && x.tested && x.refUntil.isNone && (s.now : Int) < x.endAt && onFor < tm
    (if narrow then s.setF (F.GATE_STS_narrow n) 1 else s).setLeg n { x with h := v, tested := rank7, endAt := e }

/-- The schedule of slot `j` has value `v` now: a dropped pulse ends when the schedule comes back, else an edge. -/
def State.pwmAt (s : State) (d j n : Nat) (v : Bool) : State :=
  let x := s.leg n
  match x.drop with
  | some w => if v == w then s.setLeg n { x with drop := none } else s
  | none => if v != x.h then s.pwmEdge d j n v else s

/-- The scheduled command of slot `j` of domain `d` at the present instant (R177). -/
def State.schedNow (s : State) (d j : Nat) : Bool :=
  halfSched (s.md d).up (s.halfStart d) (s.mdH d) (s.actCmp d j) s.now

/-- Slot `j` of domain `d` takes its scheduled command at the present instant. -/
def State.slotNow (d : Nat) (s : State) (j : Nat) : State :=
  match s.slotLeg d j with
  | some n => s.pwmAt d j n (s.schedNow d j)
  | none => s

/-- Slot `j` of domain `d`, with the other slot of an NPC phase, takes its scheduled command at the present instant, and the
legs follow both at once (R187). -/
def State.phaseNow (s : State) (d j n : Nat) : State :=
  let js := if s.topo d == some 1 then [j, if j % 2 = 0 then j + 1 else j - 1] else [j]
  let t := js.foldl (State.slotNow d) s
  t.legsApply (t.legPair n)

/-- A command edge of slot `j` of domain `d` (R177): the one that is due at this instant, else the next one of the half in
progress. -/
def State.pwmStep (s : State) (d j : Nat) : State :=
  match s.slotLeg d j with
  | none => s
  | some n =>
    if !s.mdOn d || s.halted then s
    else
      let h := s.mdH d
      let up := (s.md d).up
      let a := s.halfStart d
      let c := s.actCmp d j
      let x := s.leg n
      let due := x.drop.isNone && s.schedNow d j != x.h
      let s := s.phaseNow d j n
      let e := if up then a + h - c else a + c
      if !due && 0 < c && c < h && (s.now : Int) < e then (s.at e.toNat).phaseNow d j n else s

/-! ## PSYNCI (R195) -/

/-- The command edges of domain 0 that lie before instant `t` in the half in progress. -/
def State.edgesBefore (s : State) (t : Nat) : State :=
  (List.range 6).foldl (fun s j =>
    let c := s.actCmp 0 j
    let e := if (s.md 0).up then s.halfStart 0 + s.mdH 0 - c else s.halfStart 0 + c
    match s.slotLeg 0 j with
    | some n => if ((s.leg n).drop.isNone && s.schedNow 0 j != (s.leg n).h) || e < (t : Int) then s.pwmStep 0 j else s
    | none => s) s

/-- The carrier event of domain 0 that lies before instant `t`, with its reload. -/
def State.eventBefore (s : State) (t : Nat) : State :=
  let m := s.md 0
  let z : Int := if m.up then m.zero + s.mdH 0 else m.zero + 2 * s.mdH 0
  if (t : Int) ≤ z then s
  else
    let s := if m.up then s.carrierPeak 0 else s.carrierZero 0
    if (s.md 0).due then s.reload 0 else s

/-- A rising edge of PSYNCI takes effect 8 ns after it arrives; the events and edges of MD0 that lie before that instant
occur (R195; DEDUCED, log entry 132). -/
def State.psynci (s : State) : State :=
  if !s.bitE (F.MOD_SYNC_in_en 0) || s.bitE (F.MOD_CTL_bind 0) || !s.mdOn 0 || s.halted then s
  else
    let t := s.now + 8
    let s := (((s.edgesBefore t).eventBefore t).edgesBefore t).at t
    (s.mdPlace 0 (s.fe (F.MOD_SYNC_offset 0)) s.now).setF (F.MOD_SYNC_in_seen 0) 1

/-! ## Leg configuration (R189) -/

/-- A write of `w` to GATE_CFGn (R189). -/
def State.gateCfg (s : State) (n : Nat) (w : Word) : State :=
  if s.bit (F.GATE_STS_enabled n) then s.setF (F.GATE_STS_wr_ignored n) 1
  else (s.setReg (R.GATE_CFG n) (w &&& 0x177F#32)).allLegs

/-! ## Meanings -/

/-- MOD_ENABLE (R173). -/
def execModEnable (d : Fin 8) (s : State) : Host.Outcome State Fault Refusal := onMain s fun s => s.modEnable d
/-- MOD_DISABLE (R173). -/
def execModDisable (d : Fin 8) (s : State) : Host.Outcome State Fault Refusal := onMain s fun s => s.modDisable d
/-- RELOAD_EVENT (R175): takes place where a carrier event has made a reload due. -/
def execReloadEvent (d : Fin 8) (s : State) : Host.Outcome State Fault Refusal :=
  onMain s fun s => if s.mdOn d && (s.md d).due && !s.halted then s.reload d else s
/-- CARRIER_ZERO_EVENT (R174). -/
def execCarrierZeroEvent (d : Fin 8) (s : State) : Host.Outcome State Fault Refusal := onMain s fun s => s.carrierZero d
/-- CARRIER_PEAK_EVENT (R174). -/
def execCarrierPeakEvent (d : Fin 8) (s : State) : Host.Outcome State Fault Refusal := onMain s fun s => s.carrierPeak d
/-- PWM_COMMAND_EDGE (R183). -/
def execPwmCommandEdge (d : Fin 8) (j : Fin 6) (s : State) : Host.Outcome State Fault Refusal :=
  onMain s fun s => s.pwmStep d j
/-- DEAD_TIME_END (R182). -/
def execDeadTimeEnd (n : Fin 18) (s : State) : Host.Outcome State Fault Refusal := onMain s fun s => s.deadTimeEnd n
/-- DUTY_HOST_WRITE (R179): `i` 0–2 is MOD_DUTYi, 3–8 is MOD_CMP(i − 3). -/
def execDutyHostWrite (d : Fin 8) (i : Fin 9) (val : BitVec 20) (s : State) : Host.Outcome State Fault Refusal :=
  onMain s fun s =>
    if i.val < 3 then s.refHostWrite d (R.MOD_DUTY d i) ((val.setWidth 16).setWidth 32)
    else s.refHostWrite d (R.MOD_CMP d (i - 3)) (val.setWidth 32)
/-- HOLD_RELEASE (R181). -/
def execHoldRelease (d : Fin 8) (s : State) : Host.Outcome State Fault Refusal := onMain s fun s => s.holdRelease d
/-- GATE_CFG_WRITE (R189). -/
def execGateCfgWrite (n : Fin 18) (val : Word) (s : State) : Host.Outcome State Fault Refusal :=
  onMain s fun s => s.gateCfg n val
/-- LEG_ENABLE (R191): en changes from 0 to 1 with the force in force. -/
def execLegEnable (n : Fin 18) (s : State) : Host.Outcome State Fault Refusal :=
  onMain s fun s =>
    let w := insertBits (s.reg (R.GATE_CMD n)) 0 1 1
    if s.bit (F.GATE_CMD_en n) then s else (s.setShd (R.GATE_CMD n) w).legCmd n w
/-- BOOTSTRAP_REFRESH (R192). -/
def execBootstrapRefresh (n : Fin 18) (s : State) : Host.Outcome State Fault Refusal := onMain s fun s => s.refreshStart n
/-- REFRESH_END (R192). -/
def execRefreshEnd (n : Fin 18) (s : State) : Host.Outcome State Fault Refusal := onMain s fun s => s.refreshEnd n
/-- PSYNCI_EDGE (R195). -/
def execPsynciEdge (s : State) : Host.Outcome State Fault Refusal := onMain s State.psynci

end Sys2Proof.Machine
end

