-- ==== Sys2Proof/Machine/Operands.lean ====
section
/-! DEFINITION. Operand forms of the Nimson instructions (R69, R72–R74): register files, elements of a V register,
predicates, immediates. -/

namespace Sys2Proof.Machine

/-! ## Register files (R69) -/

/-- S register `r`; S0 reads zero. -/
def LaneSt.getS (l : LaneSt) (r : BitVec 5) : Word := if r = 0 then 0 else tblGet 0 l.s r.toNat
/-- The core with `w` in S register `r`; a write to S0 is discarded. -/
def LaneSt.setS (l : LaneSt) (r : BitVec 5) (w : Word) : LaneSt :=
  if r = 0 then l else { l with s := tblSet l.s r.toNat w }
/-- V register `r`. -/
def LaneSt.getV (l : LaneSt) (r : BitVec 5) : VWord := tblGet 0 l.v r.toNat
/-- The core with `x` in V register `r`. -/
def LaneSt.setV (l : LaneSt) (r : BitVec 5) (x : VWord) : LaneSt := { l with v := tblSet l.v r.toNat x }
/-- P register `r`; P0 reads 0xFF. -/
def LaneSt.getP (l : LaneSt) (r : BitVec 5) : BitVec 8 := if r = 0 then 0xFF else tblGet 0 l.p r.toNat
/-- The core with `x` in P register `r`; a write to P0 is discarded. -/
def LaneSt.setP (l : LaneSt) (r : BitVec 5) (x : BitVec 8) : LaneSt :=
  if r = 0 then l else { l with p := tblSet l.p r.toNat x }
/-- The table tile that A register `r` has open (R84). -/
def LaneSt.getA (l : LaneSt) (r : BitVec 5) : Option Nat :=
  match tblGet 0 l.a r.toNat with
  | 0 => none
  | n + 1 => some n
/-- The core with sticky flags `f` raised (R79). -/
def LaneSt.flag (l : LaneSt) (f : BitVec 3) : LaneSt := { l with lst := l.lst ||| f }
/-- The core after `n` more cycles of its slice. -/
def LaneSt.spend (l : LaneSt) (n : Nat) : LaneSt := { l with cyc := l.cyc + n }
/-- The core with a pending single step used up (R101). -/
def LaneSt.stepUsed (l : LaneSt) : LaneSt := { l with step := false }

/-! ## Elements -/

/-- fp32 element `i` of `v`. -/
def elemF (v : VWord) (i : Nat) : F32 := v.extractLsb' (32 * i) 32
/-- int16 element `j` of `v`. -/
def elemH (v : VWord) (j : Nat) : BitVec 16 := v.extractLsb' (16 * j) 16
/-- The V word of four fp32 elements. -/
def vecF (e0 e1 e2 e3 : F32) : VWord := e3 ++ e2 ++ e1 ++ e0
/-- The V word whose fp32 element `i` is `f i`. -/
def vecOfF (f : Nat → F32) : VWord := vecF (f 0) (f 1) (f 2) (f 3)
/-- The V word whose int16 element `j` is `f j`. -/
def vecOfH (f : Nat → BitVec 16) : VWord := f 7 ++ f 6 ++ f 5 ++ f 4 ++ f 3 ++ f 2 ++ f 1 ++ f 0

/-- Bit 2i of a predicate governs fp32 element i (R74). -/
def permF (p : BitVec 8) (i : Nat) : Bool := p.getLsbD (2 * i)
/-- Bit j of a predicate governs int16 element j. -/
def permH (p : BitVec 8) (j : Nat) : Bool := p.getLsbD j

/-- `new` where the predicate permits the fp32 element, else `old`. -/
def mergeF (p : BitVec 8) (old new : VWord) : VWord := vecOfF fun i => if permF p i then elemF new i else elemF old i
/-- `new` where the predicate permits the int16 element, else `old`. -/
def mergeH (p : BitVec 8) (old new : VWord) : VWord := vecOfH fun j => if permH p j then elemH new j else elemH old j
/-- Flags of the fp32 elements that the predicate permits. -/
def flagsF (p : BitVec 8) (f : Nat → BitVec 3) : BitVec 3 :=
  (List.range 4).foldl (fun a i => if permF p i then a ||| f i else a) 0
/-- Flags of the int16 elements that the predicate permits. -/
def flagsH (p : BitVec 8) (f : Nat → BitVec 3) : BitVec 3 :=
  (List.range 8).foldl (fun a j => if permH p j then a ||| f j else a) 0

/-! ## Immediates and addresses -/

/-- A signed 13-bit immediate as a word. -/
def immS (i : BitVec 13) : Word := i.signExtend 32
/-- An unsigned 13-bit immediate as a word. -/
def immU (i : BitVec 13) : Word := i.setWidth 32
/-- The byte address Sa + imm (R83). -/
def LaneSt.ea (l : LaneSt) (a : BitVec 5) (i : BitVec 13) : Nat := (l.getS a + immS i).toNat

end Sys2Proof.Machine
end

