-- ==== Sys2Proof/Machine/Flags.lean ====
section
/-! DEFINITION. Results of the integer and int16 operations with the sticky flags they set (R77, R79–R81), and the
truth bytes of the compares. -/

namespace Sys2Proof.Machine

/-- 0xFF for true, 0x00 for false. -/
def truth (b : Bool) : BitVec 8 := if b then 0xFF else 0

/-- An exact integer narrowed to 32 bits with saturation, SAT where it was cut (ADDS, SUBS). -/
def satWord (i : Int) : Fl :=
  let c := clampInt (-0x80000000) 0x7FFFFFFF i
  ⟨BitVec.ofInt 32 c, if c = i then 0 else flSat⟩

/-- DIV (R77): toward zero; by zero 0 with DZ; 0x8000_0000 / −1 gives 0x7FFF_FFFF with SAT. -/
def divWord (a b : Word) : Fl :=
  if b = 0 then ⟨0, flDz⟩ else satWord (a.toInt.tdiv b.toInt)

/-- REM (R77): the sign of the dividend; by zero the dividend with DZ. -/
def remWord (a b : Word) : Fl :=
  if b = 0 then ⟨a, flDz⟩ else ⟨BitVec.ofInt 32 (a.toInt.tmod b.toInt), 0⟩

/-- High 32 bits of the signed 64-bit product. -/
def mulHigh (a b : Word) : Word := (a.signExtend 64 * b.signExtend 64).extractLsb' 32 32

/-- An exact integer narrowed to int16 with saturation (R81). -/
def satHalf (i : Int) : BitVec 16 × BitVec 3 :=
  let c := clampInt (-32768) 32767 i
  (BitVec.ofInt 16 c, if c = i then 0 else flSat)

/-- VMULQ.H of one element: (a × b + 0x4000) >> 15, saturated. -/
def mulqHalf (a b : BitVec 16) : BitVec 16 × BitVec 3 := satHalf ((a.toInt * b.toInt + 0x4000) / 0x8000)

/-- FCLASS: 0 zero, 1 normal, 2 infinity, 3 NaN in [1:0], the sign in [2]. -/
def classWord (a : F32) : Word :=
  let k : Nat := match fUnpack a with
    | .zero _ => 0
    | .fin _ _ _ => 1
    | .inf _ => 2
    | .nan => 3
  BitVec.ofNat 32 (k + 4 * (a.toNat / 0x80000000))

/-- FCLAMP (R82): min(max(Sd, Sa), Sb); a NaN Sd stays NaN, a NaN bound is ignored, SAT if Sd changed. -/
def clampF (d a b : F32) : Fl :=
  if fIsNan d then ⟨canonNan, 0⟩
  else
    let r := fMin (fMax d a) b
    ⟨r, if r = fNorm d then 0 else flSat⟩

/-- FTOQ (R80): Q(16−n).n by R8, sign-extended; SAT where it saturates. -/
def toQWord (a : F32) (n : Nat) : Fl :=
  let r := fToFixed (-32768) 32767 n a
  ⟨BitVec.ofInt 32 r.1, if r.2 then flSat else 0⟩

/-- QTOF (R80): the low half read as Q(16−n).n, exactly. -/
def ofQWord (a : Word) (n : Nat) : F32 := fOfInt (a.extractLsb' 0 16).toInt (-(n : Int))

/-- VDOT.F (R78): (a0b0 + a1b1) + (a2b2 + a3b3), rounding after each operation. -/
def dotF (a b : VWord) : Fl :=
  let p := fun i => (⟨elemF a i, 0⟩ : Fl).mul ⟨elemF b i, 0⟩
  ((p 0).add (p 1)).add ((p 2).add (p 3))

end Sys2Proof.Machine
end

