-- ==== Sys2Proof/Machine/Drive.lean ====
section
/-! DEFINITION. The drive operations R89–R94 with the fixed sequences of R503: transforms, space-vector modulation, the PI
step, the vector limit and the table look-up. The lanes and the field-control units use the same ones. -/

namespace Sys2Proof.Machine

/-- A value without flags. -/
abbrev fl (w : F32) : Fl := ⟨w, 0⟩
/-- The binary32 constants 1/√3 and √3/2 (R503). -/
def kClarke : F32 := 0x3F13CD3A
/-- √3/2. -/
def kHalfRoot3 : F32 := 0x3F5DB3D7

/-! ## Transforms (R89, R90) -/

/-- VCLARKE of (a, b, c): ((2a − b) − c)/3 with 2a exact, (b − c) × K1, ((a + b) + c)/3. -/
def clarke (a b c : F32) : Fl × Fl × Fl :=
  let e0 := ((fFma (fNeg b) fTwo a).sub (fl c)).div (fl fThree)
  let e1 := ((fl b).sub (fl c)).mul (fl kClarke)
  let e2 := (((fl a).add (fl b)).add (fl c)).div (fl fThree)
  (e0, e1, e2)

/-- VPARK of (α, β) by the angle `th`. -/
def park (a b th : F32) : Fl × Fl :=
  if fIsNan th then (fl canonNan, fl canonNan)
  else if fIsInf th then (⟨canonNan, flNan⟩, ⟨canonNan, flNan⟩)
  else
    let s := fl (fSin th)
    let c := fl (fCos th)
    (((fl a).mul c).add ((fl b).mul s), ((fl (fNeg a)).mul s).add ((fl b).mul c))

/-- VIPARK of (d, q) by the angle `th`. -/
def ipark (d q th : F32) : Fl × Fl :=
  if fIsNan th then (fl canonNan, fl canonNan)
  else if fIsInf th then (⟨canonNan, flNan⟩, ⟨canonNan, flNan⟩)
  else
    let s := fl (fSin th)
    let c := fl (fCos th)
    (((fl d).mul c).sub ((fl q).mul s), ((fl d).mul s).add ((fl q).mul c))

/-- VSINCOS: sine, cosine and fractional part of `th`. -/
def sinCos (th : F32) : Fl × Fl × Fl :=
  if fIsNan th then (fl canonNan, fl canonNan, fl canonNan)
  else if fIsInf th then (⟨canonNan, flNan⟩, ⟨canonNan, flNan⟩, ⟨canonNan, flNan⟩)
  else (fl (fSin th), fl (fCos th), fl (fFrac th))

/-! ## Space-vector modulation (R91) -/

/-- Magnitude of a value as `m · 2^e`, an infinity beyond every finite one; and its sign (0 for a zero). -/
def magSign (w : F32) : Nat × Int × Int :=
  match fUnpack w with
  | .fin n m e => (m, e, if n then -1 else 1)
  | .inf n => (1, 1000, if n then -1 else 1)
  | _ => (0, 0, 0)

/-- Is β² < 3α² exactly? -/
def flatter (a b : F32) : Bool :=
  let (ma, ea, _) := magSign a
  let (mb, eb, _) := magSign b
  let e0 := min ea eb
  let x := ma <<< (ea - e0).toNat
  let y := mb <<< (eb - e0).toNat
  y * y < 3 * (x * x)

/-- floor(φ/60°) + 1 of the vector (α, β), 1 for a zero vector; decided exactly (R503). -/
def sector (a b : F32) : Nat :=
  let sa := (magSign a).2.2
  let sb := (magSign b).2.2
  let flat := flatter a b
  if sb = 0 then (if sa < 0 then 4 else 1)
  else if 0 < sb then (if 0 < sa then (if flat then 1 else 2) else (if flat then 3 else 2))
  else if sa < 0 then (if flat then 4 else 5)
  else (if flat then 6 else 5)

/-- Result of VSVM: three duties and the sector, with the flags. -/
structure Svm where
  a : F32
  b : F32
  c : F32
  sector : F32
  fl : Flags
  deriving DecidableEq, Repr

/-- One duty of OVM clamped to [0, 1]. -/
def ovmClamp (d : F32) : F32 × Bool := if fLt d fZero then (fZero, true) else if fLt fOne d then (fOne, true) else (d, false)

/-- VSVM of (vα, vβ, vdc) in `mode` 0 SV7, 1 SV5, 2 OVM (R91, R503). -/
def svm (va0 vb0 vdc : F32) (mode : Nat) : Svm :=
  let nan := fIsNan va0 || fIsNan vb0 || fIsNan vdc
  let low := fLe vdc fZero
  if nan || low then ⟨fHalf, fHalf, fHalf, fOne, (if nan then flNan else 0) ||| (if low then flDz else 0)⟩
  else
    let h := (fl va0).mul (fl fHalf)
    let t := (fl kHalfRoot3).mul (fl vb0)
    let va := fl va0
    let vb := h.neg.add t
    let vc := h.neg.sub t
    let span := (va.max (vb.max vc)).sub (va.min (vb.min vc))
    let past := mode != 2 && fGt span.v vdc
    let k := (fl vdc).div ⟨span.v, span.fl⟩
    let va := if past then va.mul k else va
    let vb := if past then vb.mul k else vb
    let vc := if past then vc.mul k else vc
    let vmax := va.max (vb.max vc)
    let vmin := va.min (vb.min vc)
    let sum := vmax.add vmin
    let half := (fl vdc).mul (fl fHalf)
    let off := if mode = 1 then (if fLe fZero sum.v then half.sub vmax else half.neg.sub vmin)
      else (sum.mul (fl fHalf)).neg
    let duty := fun (v : Fl) => (fl fHalf).add ((v.add off).div (fl vdc))
    let da := duty va
    let db := duty vb
    let dc := duty vc
    let fs := da.fl ||| db.fl ||| dc.fl ||| span.fl ||| sum.fl
    let sec := fOfInt (sector va0 vb0)
    if mode = 2 then
      let x := ovmClamp da.v
      let y := ovmClamp db.v
      let z := ovmClamp dc.v
      ⟨x.1, y.1, z.1, sec, fs ||| (if x.2 || y.2 || z.2 then flSat else 0)⟩
    else ⟨da.v, db.v, dc.v, sec, fs ||| (if past then flSat else 0)⟩

/-! ## PI step (R92) -/

/-- Result of VPI. -/
structure PiOut where
  out : F32
  i : F32
  sat : Bool
  fl : Flags
  deriving DecidableEq, Repr

/-- VPI of error `e`, gains `kp` and `ki`, feed-forward `ff`, integrator `i` and bounds `lo`, `hi`. -/
def piStep (e kp ki ff i lo hi : F32) : Option PiOut :=
  if fIsNan e || fIsNan kp || fIsNan ki || fIsNan ff || fIsNan i then none
  else
    let kie := (fl ki).mul (fl e)
    let u := ((((fl kp).mul (fl e)).add (fl i)).add kie).add (fl ff)
    let out := fMax lo (fMin u.v hi)
    let hold := (fGt u.v hi && fGt e fZero) || (fLt u.v lo && fLt e fZero)
    let i1 := if hold then fl i else (fl i).add kie
    let i2 := fMax lo (fMin i1.v hi)
    let sat := !fEq out u.v
    some ⟨out, i2, sat, u.fl ||| i1.fl ||| (if sat then flSat else 0)⟩

/-! ## Vector limit (R93) -/

/-- VLIM of (e0, e1) to magnitude `r`, with whether it limited. -/
def vlim (e0 e1 r : F32) : Fl × Fl × Bool :=
  if fIsNan e0 || fIsNan e1 || fIsNan r then (fl canonNan, fl canonNan, false)
  else
    let r := if fLt r fZero then fZero else r
    let m := (((fl e0).mul (fl e0)).add ((fl e1).mul (fl e1))).sqrt
    if fGt m.v r then
      let k := (fl r).div m
      let x := (fl e0).mul k
      let y := (fl e1).mul k
      (⟨x.v, x.fl ||| flSat⟩, ⟨y.v, y.fl ||| flSat⟩, true)
    else (⟨fNorm e0, m.fl⟩, ⟨fNorm e1, m.fl⟩, false)

/-! ## Table look-up (R94) -/

/-- LUT of `x` in the table whose word `k` is `tab k`. -/
def lut (tab : Nat → Word) (x : F32) : Fl :=
  let n := (tab 2).toNat
  if fIsNan x || n < 2 || 253 < n then ⟨canonNan, flNan⟩
  else
    let f := ((fl x).sub (fl (tab 0))).mul (fl (tab 1))
    if fIsNan f.v then f
    else if fLe f.v fZero then ⟨fNorm (tab 3), f.fl⟩
    else if fLe (fOfInt (n - 1 : Nat)) f.v then ⟨fNorm (tab (n + 2)), f.fl ||| flSat⟩
    else
      let k := (fFloor f.v).toNat
      let yk := fl (tab (3 + k))
      let r := yk.add ((f.sub (fl (fOfInt k))).mul ((fl (tab (4 + k))).sub yk))
      ⟨r.v, r.fl ||| f.fl⟩

end Sys2Proof.Machine
end

