-- ==== Sys2Proof/Machine/Nimson.lean ====
section
/-! DEFINITION. What every Nimson instruction shares (02_nimson_engine.md, 03_nimson_instructions.md): cores, tiles and
watermarks, group discards, lane exceptions, the program counter with its loops, and the frame in which an instruction
runs (R58, R62, R73–R76, R85, R87). -/

namespace Sys2Proof.Machine

/-! ## Cores and contexts -/

/-- Number of a core: lanes 0–7, keeper core 8, safety core 9. -/
def procIdx : Proc → Nat
  | .lane n => n.val
  | .keeper => 8
  | .safety => 9

/-- The core is a lane. -/
def procLane : Proc → Bool
  | .lane _ => true
  | _ => false

/-- Core `i`'s hidden state. -/
def State.core (s : State) (i : Nat) : LaneSt := tblGet {} s.eng.lanes i
/-- The state with core `i` as `l`. -/
def State.setCore (s : State) (i : Nat) (l : LaneSt) : State :=
  { s with eng := { s.eng with lanes := tblSet s.eng.lanes i l } }
/-- Core `i` changed by `f`. -/
def State.onCore (s : State) (i : Nat) (f : LaneSt → LaneSt) : State := s.setCore i (f (s.core i))
/-- Context `c`'s hidden state. -/
def State.ctx (s : State) (c : Nat) : CtxSt := tblGet {} s.eng.ctxs c
/-- The state with context `c` as `x`. -/
def State.setCtx (s : State) (c : Nat) (x : CtxSt) : State :=
  { s with eng := { s.eng with ctxs := tblSet s.eng.ctxs c x } }

/-- Instant of lane cycle `q` of the tick's compute window (R46). -/
def State.laneInstant (s : State) (q : Nat) : Nat := s.tm.start + 1500 + q * 5 / 4

/-! ## Tiles (R48–R52), numbered as TILE_WM_FAIL.tile -/

/-- Address of tile `t`: program tile t, or table tile t − 2,048. -/
def tileAddr (t : Nat) : Nat := if t < 2048 then progBase + t * 1024 else tableBase + (t - 2048) * 1024

/-- CRC-32C of 1,024 zero bytes, the watermark of a tile that the image does not contain (R504). -/
def zeroWm : Word := 0xEEAEDE7C

/-- Watermark of tile `t`. -/
def State.wm (s : State) (t : Nat) : Word := tblGet zeroWm s.eng.wm t

/-- CRC-32C over the contents of tile `t`. -/
def State.tileCrc (s : State) (t : Nat) : Word := crc32c (memBytes s.mem (tileAddr t) 1024)

/-- Tile `t` is quarantined (R51). -/
def State.quarantined (s : State) (t : Nat) : Bool := s.eng.quar.contains t

/-- Tile `t` passes a watermark check; a quarantined tile never does (R51). -/
def State.wmOk (s : State) (t : Nat) : Bool := !s.quarantined t && s.tileCrc t == s.wm t

/-- The smallest entry of a list above `lo` (as `lo ≤ x`). -/
def leastFrom (lo : Nat) (xs : List Nat) : Option Nat :=
  xs.foldl (fun a x => if lo ≤ x then (match a with | some y => some (min x y) | none => some x) else a) none

/-- TILE_WM_STS.quarantined and the quarantine list: the 32 lowest tiles in ascending order (R68). -/
def State.quarSync (s : State) : State :=
  let s := s.setF F.TILE_WM_STS_quarantined s.eng.quar.length
  ((List.range 32).foldl (fun (a : State × Nat) m =>
    let (s, lo) := a
    match leastFrom lo s.eng.quar with
    | some t => ((s.setF (F.TILE_QUAR_LIST_tile m) t).setF (F.TILE_QUAR_LIST_valid m) 1, t + 1)
    | none => ((s.setF (F.TILE_QUAR_LIST_tile m) 0).setF (F.TILE_QUAR_LIST_valid m) 0, lo)) (s, 0)).1

/-- Tile `t` enters quarantine. -/
def State.quarantine (s : State) (t : Nat) : State :=
  if s.quarantined t then s
  else { s with eng := { s.eng with quar := s.eng.quar ++ [t] } }.quarSync

/-- The quarantine of tile `t` is lifted. -/
def State.unquarantine (s : State) (t : Nat) : State :=
  { s with eng := { s.eng with quar := s.eng.quar.filter (· != t) } }.quarSync

/-- A watermark failure of tile `t` found at `wh` (0 staging, 1 TOPEN, 2 scrubber, 3 rewrite): quarantine, TILE_WM_FAIL,
EV18 (R51, R500). -/
def State.wmFail (s : State) (t wh : Nat) : State :=
  let s := s.quarantine t
  let s := ((s.setF F.TILE_WM_FAIL_tile t).setF F.TILE_WM_FAIL_where wh).incSat F.TILE_WM_FAIL_count
  s.raiseDev 18 (t + wh * 0x1000)

/-! ## Discards and exceptions (R56–R58, R500) -/

/-- The group of context `c` is discarded with `cause`, the first cause of the tick being the one recorded; EV17, whose
reaction scope follows R257 where the discard halts the context. -/
def State.discard (s : State) (c cause exc : Nat) : State :=
  let x := s.ctx c
  if x.group = .discarded then s
  else
    let s := s.setCtx c { x with group := .discarded, cause := cause }
    let s := ((s.setF (F.CTX_LAST_ABORT_cause c) cause).setF (F.CTX_LAST_ABORT_exc_cause c) (if cause = 5 then exc else 0)).setF
      (F.CTX_LAST_ABORT_tick c) (s.f F.TIME_TICK_COUNT_count)
    let halts := cause != 3 && 2 ≤ s.f (F.CTX_STS_streak c)
    s.raise 17 (c + cause * 0x100) s.scopeDev (if halts then s.demandScopesLater (s.ctxConvs c) 10 else scopeNone)

/-- The slice of lane `i` ends: the lane is idle until its next slice. -/
def State.sliceEnd (s : State) (i : Nat) : State :=
  let l := s.core i
  let x := s.ctx l.ctx
  let s := s.setCore i { l with busy := false, endCyc := l.start + l.cyc, step := false }
  (s.setF (F.ENG_LANE_STS_busy i) 0).setCtx l.ctx { x with cyc := x.cyc + l.cyc }

/-- Address that ENG_LANE_EXC_PC shows for a position (R58). -/
def LaneSt.pcAddr (l : LaneSt) : Nat :=
  if 32 ≤ l.slot then 0x80000000 + 32 * 1024 + l.word * 4
  else match tblGet 0 l.slots l.slot with
    | 0 => 0x80000000 + (l.slot * 256 + l.word) * 4
    | t + 1 => t * 1024 + l.word * 4

/-- Lane exception `code` at the present position of lane `i` (R58). -/
def State.laneExc (s : State) (i code : Nat) : State :=
  let l := s.core i
  let s := ((s.setF (F.ENG_LANE_EXC_cause i) code).setF (F.ENG_LANE_EXC_exc_context i) l.ctx).setF (F.ENG_LANE_EXC_PC_pc i) l.pcAddr
  let s := (s.setF (F.ENG_LANE_EXC_TICK_tick i) (s.f F.TIME_TICK_COUNT_count)).setF (F.ENG_LANE_STS_exc_seen i) 1
  let s := (s.sliceEnd i).raiseDev 19 (l.ctx + code * 0x100 + i * 0x1000)
  s.discard l.ctx 5 code

/-! ## Program counter (R85, R87) -/

/-- The position after `l`'s, in the order of R85. -/
def LaneSt.nextPos (l : LaneSt) : LaneSt :=
  if l.word = 255 then { l with slot := l.slot + 1, word := 0 } else { l with word := l.word + 1 }

/-- The position after the last instruction of loop `r`: its first again while iterations are left, else what the outer
loops give. -/
def LaneSt.loopNext (l : LaneSt) : List LoopRec → LaneSt
  | [] => { l with loops := [] }.nextPos
  | r :: rest =>
    if l.slot = r.slot && l.word = r.last then
      if r.idx + 1 < r.count then { l with word := r.first, loops := { r with idx := r.idx + 1 } :: rest }
      else l.loopNext rest
    else { l with loops := r :: rest }.nextPos

/-- The core past the instruction at its position. -/
def LaneSt.advance (l : LaneSt) : LaneSt := l.loopNext l.loops

/-- Does position (slot, word) lie in the body of loop `r`? -/
def LoopRec.holds (r : LoopRec) (slot word : Nat) : Bool := slot == r.slot && r.first ≤ word && word ≤ r.last

/-! ## SECDED (R48) -/

/-- The code of the 64-bit word that holds address `a`: 0 whole, 1 a corrected error, 2 uncorrectable. -/
def State.eccOf (s : State) (a : Nat) : Nat := tblGet 0 s.eng.ecc (a / 8)

/-- An access of core `i` to the `n` words from `a`: `none` for an uncorrectable error, else the single-bit errors corrected
and, on a lane, counted. -/
def State.eccAccess (s : State) (i a n : Nat) : Option State :=
  let ws := ((List.range n).map fun k => (a + 4 * k) / 8).eraseDups
  if ws.any fun w => tblGet 0 s.eng.ecc w == 2 then none
  else some (ws.foldl (fun s w =>
    if tblGet 0 s.eng.ecc w == 1 then
      let s := { s with eng := { s.eng with ecc := tblDel s.eng.ecc w } }
      if i < 8 then s.incSat (F.ENG_LANE_ECC_CNT_ecc_corr i) else s
    else s) s)

/-! ## The frame of an instruction -/

/-- Which predicate bits permit an instruction (R74): bit 0, any fp32 element, any int16 element, or all of it. -/
inductive Pred where
  | scalar
  | f32
  | h16
  | always
  deriving DecidableEq, Repr

/-- Is anything of the instruction permitted? -/
def Pred.any (m : Pred) (p : BitVec 8) : Bool :=
  match m with
  | .scalar => p.getLsbD 0
  | .f32 => (List.range 4).any (permF p)
  | .h16 => (List.range 8).any (permH p)
  | .always => true

/-- What an instruction does: the state after it, and an exception code of R58, 0 for none. `s` has the core past the
instruction; `l` is the core before it, from which the operands come. -/
abbrev Effect := State → LaneSt → State × Nat

/-- A lane can execute an instruction now: its slice runs, and no debug halt holds it. -/
def State.laneReady (s : State) (l : LaneSt) : Bool := l.busy && (!s.halted || l.step)

/-- Core `l` after `n` more cycles. Those of an instruction stepped while the lanes are halted do not count against the budget
(R101). -/
def State.spendOf (s : State) (l : LaneSt) (n : Nat) : LaneSt := if s.halted then { l with free := l.free + n } else l.spend n

/-- `n` more cycles of lane `l` go beyond its budget, which nothing does while the lanes are halted (R62, R101). -/
def State.overBudget (s : State) (l : LaneSt) (n : Nat) : Bool := !s.halted && l.budget < l.cyc + n

/-- The instant at which lane `l` has run `n` more cycles; a stepped instruction takes no time of the tick (R101). -/
def State.ran (s : State) (l : LaneSt) (n : Nat) : State :=
  if s.halted then s else s.at (s.laneInstant (l.start + l.cyc + n))

/-- Execute one instruction of core `c` (R58, R62, R73–R76, R85). `ok` says that its fields obey R73. A position without
a staged tile is an ADDRESS exception and a broken instruction word DATA_UE, both without a lane cycle (log entry 102); a
single-bit error of the word is corrected and counted (R48); the monitor has stopped a slice whose cycles have reached the
budget; an encoding the core does not have is ILLEGAL after one cycle; an instruction whose last cycle lies beyond the budget is
abandoned; one that is not permitted changes nothing but the position. -/
def State.instr (s : State) (c : Proc) (on : Cores) (m : Pred) (n : Nat) (p : BitVec 3) (ok : Bool) (eff : Effect) : State :=
  let i := (procIdx c)
  let l := s.core i
  let lane := procLane c
  if lane && !s.laneReady l then s
  else
    let s := s.onCore i LaneSt.stepUsed
    let l := s.core i
    if lane && l.budget ≤ l.cyc then s
    else if lane && (32 ≤ l.slot || tblGet 0 l.slots l.slot == 0) then s.laneExc i 5
    else match (if lane then s.eccAccess i (slotBase i l.slot + 4 * l.word) 1 else some s) with
    | none => s.laneExc i 6
    | some s =>
    if !(on.has c && ok) then
      if !lane || s.overBudget l 1 then s
      else ((s.ran l 1).setCore i (s.spendOf l 1)).laneExc i 4
    else if lane && s.overBudget l n then s
    else
      let s := if lane then s.ran l n else s
      let l1 := s.spendOf l n
      let s1 := s.setCore i l1.advance
      if !m.any (l.getP (p.setWidth 5)) then s1
      else
        let r := eff s1 l
        if r.2 = 0 then r.1 else if lane then (s.setCore i l1).laneExc i r.2 else s

/-- The effect that writes S register `d` with `f l` and raises its flags. -/
def Effect.s (c : Proc) (d : BitVec 5) (f : LaneSt → Fl) : Effect := fun s l =>
  let r := f l
  (s.onCore (procIdx c) fun k => (k.setS d r.v).flag r.fl, 0)

/-- The effect that writes P register `d`. -/
def Effect.p (c : Proc) (d : BitVec 5) (f : LaneSt → BitVec 8) : Effect := fun s l =>
  (s.onCore (procIdx c) fun k => k.setP d (f l), 0)

/-- The effect that writes the permitted fp32 elements of V register `d`. -/
def Effect.v (c : Proc) (p : BitVec 3) (d : BitVec 5) (f : LaneSt → VWord) (fs : LaneSt → Nat → BitVec 3) : Effect :=
  fun s l =>
    let pb := l.getP (p.setWidth 5)
    (s.onCore (procIdx c) fun k => (k.setV d (mergeF pb (l.getV d) (f l))).flag (flagsF pb (fs l)), 0)

/-- The effect that writes the permitted int16 elements of V register `d`. -/
def Effect.h (c : Proc) (p : BitVec 3) (d : BitVec 5) (f : LaneSt → Nat → BitVec 16 × BitVec 3) : Effect :=
  fun s l =>
    let pb := l.getP (p.setWidth 5)
    (s.onCore (procIdx c) fun k =>
      (k.setV d (mergeH pb (l.getV d) (vecOfH fun j => (f l j).1))).flag (flagsH pb fun j => (f l j).2), 0)

end Sys2Proof.Machine
end

