-- ==== Sys2Proof/Machine/Field.lean ====
section
/-! DEFINITION. The field-control units (05_field_control.md): enable and disable, angle and observer, references and
limits, current control, start sequences, supervision, and what a unit does at a couch. Values are binary32 and every
operation is rounded by R78, in the order the rules write them (log entry 24). -/

namespace Sys2Proof.Machine

/-! ## Values of a unit -/

/-- 2π, π, √3 and 1/2 √3 neighbours as binary32. -/
def kTwoPi : F32 := 0x40C90FDB
/-- π. -/
def kPi : F32 := 0x40490FDB
/-- √3. -/
def kRoot3 : F32 := 0x3FDDB3D7
/-- 2/√3. -/
def kTwoByRoot3 : F32 := 0x3F93CD3A
/-- 0.25 and 0.24. -/
def kQuarter : F32 := 0x3E800000
/-- 0.24. -/
def k024 : F32 := 0x3E75C28F

/-- A Q1.15 field of unit registers as a value. -/
def State.q15 (s : State) (x : Fld) : F32 := fOfQ 16 15 (s.f x)
/-- A Q2.14 field. -/
def State.q14 (s : State) (x : Fld) : F32 := fOfQ 16 14 (s.f x)
/-- A Q3.13 field. -/
def State.q13 (s : State) (x : Fld) : F32 := fOfQ 16 13 (s.f x)
/-- An "at next enable" fp32 field in force. -/
def State.few (s : State) (x : Fld) : F32 := BitVec.ofNat 32 (s.fe x)
/-- A gain register; a NaN gain acts as 0 (R132). -/
def State.gain (s : State) (x : Fld) : F32 := let g := BitVec.ofNat 32 (s.f x); if fIsNan g then fZero else g

/-- Sign of a value: −1, 0 or 1. -/
def fSgn (w : F32) : F32 := if fLt w fZero then 0xBF800000 else if fLt fZero w then fOne else fZero
/-- Magnitude of the vector (x, y). -/
def fMag (x y : F32) : F32 := fsqrt (fadd (fmul x x) (fmul y y))
/-- `v` cut to `lo … hi`. -/
def fCut (lo hi v : F32) : F32 := fMax lo (fMin v hi)

/-- T in seconds. -/
def State.tSec (s : State) : F32 := fOfRat (s.periodNs : Int) 1000000000
/-- f_b = FLD_BASE_N × pole_pairs / 60 (R127). -/
def State.fBase (s : State) (u : Nat) : F32 :=
  fdiv (fmul (s.few (F.FLD_BASE_N_value u)) (fOfInt (s.fe (F.FLD_ANGLE_pole_pairs u)))) (fOfInt 60)
/-- The machine of unit `u` is an IM. -/
def State.isIm (s : State) (u : Nat) : Bool := s.bitE (F.FLD_CTL_machine u)
/-- Unit `u` closes the current loop (R123). -/
def State.fuMode (s : State) (u : Nat) : Bool := s.fe (F.FLD_CTL_cc_src u) == 0
/-- The domain of a direct unit. -/
def State.unitDomain (s : State) (u : Nat) : Option Nat :=
  if s.fe (F.FLD_BIND_conv u) == 2 then none else some (s.fe (F.FLD_BIND_md u))
/-- Copies of the field-weakening table and of the curve (R141). -/
def fwCopy (u : Nat) : Nat := copyBase (2 * u)
/-- The curve. -/
def crvCopy (u : Nat) : Nat := copyBase (2 * u + 1)
/-- The look-up in a copy. -/
def State.lutAt (s : State) (base : Nat) (x : F32) : F32 := (lut (fun k => s.word (base + 4 * k)) x).v

/-- A headbox word of the drive of unit `u`. -/
def State.hbU (s : State) (u off : Nat) : F32 := s.hbWord (0x40 * u + off)

/-! ## Angle and measured speed (R143) -/

/-- The electrical angle from the bound port: pole_pairs × the mechanical position plus FLD_ANGLE.offset. -/
def State.portAngle (s : State) (u : Nat) : F32 :=
  let a := s.fe (F.FLD_ANGLE_pole_pairs u) * s.f (F.FBK_ANG_ang (s.fe (F.FLD_BIND_fbp u))) + s.f (F.FLD_ANGLE_offset u) * 0x10000
  fOfU 32 (a % 2 ^ 32)

/-- The speed of the bound port in pu. -/
def State.portSpeed (s : State) (u : Nat) : F32 :=
  fdiv (fmul (BitVec.ofNat 32 (s.f (F.FBK_SPEED_speed (s.fe (F.FLD_BIND_fbp u))))) (fOfInt 60)) (s.few (F.FLD_BASE_N_value u))

/-- The bound port of unit `u` is valid. -/
def State.portOk (s : State) (u : Nat) : Bool := s.bitE (F.FLD_BIND_fb_en u) && s.bit (F.FBK_STS_valid (s.fe (F.FLD_BIND_fbp u)))

/-- The source that gives the angle now: 0 FEEDBACK, 1 OBSERVER; `none` where none is valid. In limp-home on the port the
observer takes FEEDBACK's place (R167). -/
def State.angleSrc (s : State) (u : Nat) : Option Nat :=
  let src := s.fe (F.FLD_ANGLE_src u)
  let fb := s.portOk u && s.bit (F.FLD_STS_aligned u)
  let ob := s.bit (F.FLD_STS_obs_valid u)
  let limp := (s.unit u).limp % 2 == 1
  if src = 0 then (if limp then (if ob then some 1 else none) else if fb then some 0 else none)
  else if src = 1 then (if ob then some 1 else none)
  else if fb && !limp then some 0 else if ob then some 1 else none

/-- At headbox ready, the angle and the speed of unit `u` (R143, R146): θ reads NaN while the forced angle is in use or no
source is valid. After a catch without a valid source the unit goes on with the angle of its catch, advanced to each sample
point, and with the caught speed (R152; log entry 108). While no source gives a speed the unit goes on with the last one it had (DESIGN
CHOICE, log entry 131), and FLD_MEAS.speed is a free value while no source gives a speed (log
entry 2). -/
def State.unitMeasure (s : State) (u : Nat) : State :=
  if !s.unitOn u then s.setUnit u { s.unit u with measOk := false, angOk := false }
  else
    let x := s.unit u
    match s.angleSrc u with
    | some k =>
      let a := if k = 0 then s.portAngle u else x.obsAng
      let w := if k = 0 then s.portSpeed u else x.obsSpd
      let s := s.setF (F.FLD_MEAS_speed u) (fToQ 16 14 w).1
      s.setUnit u { x with meas := w, measOk := !fIsNan w, ang := if x.forced then x.forcedAng else a, angOk := !x.forced,
                           caughtOn := false }
    | none =>
      if x.caughtOn then
        let a := fFrac (fadd x.caughtAng (fmul (fmul (fadd x.caught x.slip) (s.fBase u)) s.tSec))
        (s.setF (F.FLD_MEAS_speed u) (fToQ 16 14 x.caught).1).setUnit u
          { x with meas := x.caught, measOk := true, caughtAng := a, ang := a, angOk := false }
      else
      let fw := s.free 16
      (fw.2.setF (F.FLD_MEAS_speed u) fw.1.toNat).setUnit u
        { x with measOk := false, ang := if x.forced then x.forcedAng else x.ang, angOk := false }

/-- The θ entry of drive `u`. -/
def State.thetaEntry (s : State) (u : Nat) : F32 :=
  if s.unitOn u && (s.unit u).angOk then (s.unit u).ang else canonNan

/-! ## Observer (R144, R145) -/

/-- OBSERVER_UPDATE of unit `u`. The estimates of a PM unit are free values: R144 names the method, not the computation. An
IM's observer angle is the integral of rotor electrical speed plus slip (R140), the rotor speed being the bound port's,
a free value without a valid one. -/
def State.obsUpdate (s : State) (u : Nat) : State :=
  if !s.unitOn u || !s.running then s
  else
    let s := s.at (s.tm.start + 1250)
    let x := s.unit u
    let im := s.isIm u
    let (x, s) :=
      if im then
        let fr := s.free 32
        let (w, s) := if s.portOk u then (s.portSpeed u, s) else (fr.1, fr.2)
        let a := fadd x.obsAng (fmul (fmul (fadd w x.slip) (s.fBase u)) s.tSec)
        ({ x with obsAng := fFrac a, obsSpd := w, obsErr := fZero }, s)
      else
        let a := s.free 32
        let b := a.2.free 32
        let c := b.2.free 32
        let d := c.2.free 32
        ({ x with obsAng := fFrac (fsub a.1 (fmul kQuarter (fSgn b.1))), obsSpd := b.1, obsEmf := c.1, obsErr := d.1 }, d.2)
    let vmin := s.q15 (F.FLD_OBS_CFG_valid_min u)
    let w := fAbs x.obsSpd
    let err := fAbs x.obsErr
    let fast := fLe vmin w
    let good := fast && fLt err (fdiv fOne (fOfInt 36))
    let we := fmul w (s.few (F.FLD_MACH_PSI_value u))
    let bad := fast && !im && (fLt (0x3E000000 : F32) err || fLt x.obsEmf (fmul fHalf we) || fLt (fmul 0x3FC00000 we) x.obsEmf)
    let x := { x with obsGood := if good then x.obsGood + 1 else 0, obsBad := if bad then x.obsBad + 1 else 0,
                      obsLost := x.obsLost && bad }
    let s := s.setUnit u x
    let s := (s.setF (F.FLD_OBS_STS_speed u) (fToQ 16 14 x.obsSpd).1).setF (F.FLD_OBS_STS_err u)
      (fToFixed 0 255 8 err).1.toNat
    if fLt w (fmul 0x3F4CCCCD vmin) then (s.setF (F.FLD_STS_obs_valid u) 0).setF (F.FLD_OBS_STS_valid u) 0 else s

/-- 64 good ticks in a row: obs_valid (R145). -/
def State.obsValid (s : State) (u : Nat) : State :=
  if s.unitOn u && 64 ≤ (s.unit u).obsGood then (s.setF (F.FLD_STS_obs_valid u) 1).setF (F.FLD_OBS_STS_valid u) 1 else s

/-- 2^loss_k bad ticks in a row: the loss, EV23 once, the demand of loss_action (R145, R161). -/
def State.obsLoss (s : State) (u : Nat) : State :=
  let x := s.unit u
  if !s.unitOn u || x.obsLost || x.obsBad < 2 ^ s.f (F.FLD_OBS_CFG_loss_k u) then s
  else
    let s := s.setUnit u { x with obsLost := true }
    let s := ((s.setF (F.FLD_STS_obs_valid u) 0).setF (F.FLD_OBS_STS_valid u) 0).setF (flagBit u 2) 1
    let act := s.f (F.FLD_OBS_CFG_loss_action u)
    (s.unitDemandLater u act 8 23).raise 23 0 (scopeDrive u) (s.unitScopeLater u act 8)

/-! ## Enable and disable (R125, R126) -/

/-- A base value that is NaN or not above 0. -/
def notPos (w : F32) : Bool := !fLt fZero w

/-- Failing condition of a table of `n` points named by tile and first word (R125 TABLE). -/
def State.tableBad (s : State) (tile word n : Nat) : Bool :=
  !s.wmOk (2048 + tile) || (s.word (tileAddr (2048 + tile) + 4 * (word + 2))).toNat != n || 255 < word + n + 2

/-- The tables an enable looks at: the field-weakening or flux table where the unit forms currents from a torque or
magnetises an IM, the curve with curve_en (DEDUCED, log entry 25). -/
def State.usesFw (s : State) (u : Nat) : Bool :=
  (s.f (F.FLD_CTL_cc_src u) == 0 && s.f (F.FLD_CTL_ref_mode u) != 0) || s.bit (F.FLD_CTL_machine u)

/-- The check of R125 that fails first; 0 where none does. -/
def State.fldCheck (s : State) (u : Nat) : Nat :=
  let conv := s.f (F.FLD_BIND_conv u)
  let md := s.f (F.FLD_BIND_md u)
  let cv := s.f (F.FLD_BIND_cv u)
  let others := (List.range 8).filter fun v => v != u && s.unitOn v
  let dup := others.any fun v =>
    if conv = 2 then s.fe (F.FLD_BIND_conv v) == 2 && s.fe (F.FLD_BIND_cv v) == cv
    else s.fe (F.FLD_BIND_conv v) != 2 && (s.fe (F.FLD_BIND_md v) == md ||
      ((s.bridge md).isSome && s.bridge (s.fe (F.FLD_BIND_md v)) == s.bridge md))
  let fu := s.f (F.FLD_CTL_cc_src u) == 0
  let mode := s.f (F.FLD_CTL_ref_mode u)
  let im := s.bit (F.FLD_CTL_machine u)
  let crv := s.bit (F.FLD_CTL_curve_en u)
  let r := fun (x : Fld) => (BitVec.ofNat 32 (s.f x) : F32)
  let wid := fun (w : Nat) => w < 500 || 5000 < w
  let wa := s.f (F.FLD_ALIGN_CFG_width u)
  let wc := s.f (F.FLD_CATCH_CFG_width u)
  let np := s.f (F.FLD_CATCH_CFG_pulses_m1 u)
  let per := s.f F.TIME_TICK_PERIOD_period_m1 + 1
  if conv = 3 || (conv = 2 && !s.part.mmc) then 1
  else if dup then 2
  else if fu && (conv = 2 || (s.ownerOf 1 md).isSome) then 3
  else if mode = 3 || s.f (F.FLD_CC_CFG_svm u) = 3 || s.f (F.FLD_ANGLE_src u) = 3 || 8 < s.f (F.FLD_OBS_CFG_bw u) ||
      (im && (s.f (F.FLD_IM_CFG_i_search u) = 0 || s.f (F.FLD_IM_CFG_sweep u) = 0 || s.f (F.FLD_IM_CFG_mag u) = 0)) ||
      (crv && (mode != 2 || s.fi (F.FLD_CRV_FWD_on u) ≤ s.fi (F.FLD_CRV_FWD_off u) ||
        s.fi (F.FLD_CRV_AST_on u) ≤ s.fi (F.FLD_CRV_AST_off u))) then 4
  else if notPos (r (F.FLD_BASE_I_value u)) || notPos (r (F.FLD_BASE_V_value u)) || notPos (r (F.FLD_BASE_N_value u)) ||
      notPos (r (F.FLD_BASE_T_value u)) || s.f (F.FLD_ANGLE_pole_pairs u) = 0 || notPos (r (F.FLD_MACH_LD_value u)) ||
      notPos (r (F.FLD_MACH_LQ_value u)) || notPos (r (F.FLD_MACH_KT_value u)) || !fLe fZero (r (F.FLD_MACH_RS_value u)) ||
      (!im && fLe (r (F.FLD_MACH_PSI_value u)) fZero) ||
      (im && (fLe (r (F.FLD_MACH_LM_value u)) fZero || fLe (r (F.FLD_MACH_TR_value u)) fZero)) then 5
  else if (s.usesFw u && s.tableBad (s.f (F.FLD_TBL_FW_tile u)) (s.f (F.FLD_TBL_FW_word u)) 64) ||
      (crv && s.tableBad (s.f (F.FLD_TBL_CRV_tile u)) (s.f (F.FLD_TBL_CRV_word u)) 33) then 6
  else if wid wa || wid wc || np < 2 || 7 < np || (s.f (F.FLD_ALIGN_CFG_spacing_m1 u) + 1) * per < 2 * wa ||
      (s.f (F.FLD_CATCH_CFG_spacing_m1 u) + 1) * per < 2 * wc then 7
  else 0

/-- A write of 1 to FLD_CTL.en (R125, R129, R150). -/
def State.fldEnable (s : State) (u : Nat) : State :=
  if s.part.lanes ≤ u || s.unitOn u then s
  else
    let e := s.fldCheck u
    let s := s.setF (F.FLD_STS_cfg_error u) e
    if e != 0 then s
    else
      let s := s.takeInForce (R.FLD_CTL u) (R.FLD_CTL u + 0x100)
      let tab := fun (s : State) (use : Bool) (dst tile word n : Nat) =>
        if use then s.copy (tileAddr (2048 + tile) + 4 * word) dst (4 * (n + 3)) else s
      let s := tab s (s.usesFw u) (fwCopy u) (s.f (F.FLD_TBL_FW_tile u)) (s.f (F.FLD_TBL_FW_word u)) 64
      let s := tab s (s.bit (F.FLD_CTL_curve_en u)) (crvCopy u) (s.f (F.FLD_TBL_CRV_tile u)) (s.f (F.FLD_TBL_CRV_word u)) 33
      let s := ((s.setF (F.FLD_CTL_en u) 1).setF (F.FLD_STS_aligned u) (s.f (F.FLD_ANGLE_abs u))).unitEnter u 1
      let s := (s.setF (F.FLD_STS_safe_state u) 0).setF (F.FLD_STS_dir u) 0
      let limp := if s.bit (F.FLD_STS_limp u) then (s.unit u).limp else 0
      let s := s.setUnit u { ever := true, runPrev := s.f (F.FLD_REF5_run_req u), limp := limp }
      match s.unitDomain u with
      | some d => s.legsApply (s.domainLegs d)
      | none => s

/-- A write of 0 to FLD_CTL.en (R126). -/
def State.fldDisable (s : State) (u : Nat) : State :=
  let st := s.f (F.FLD_STS_state u)
  if st = 0 then s.setF (F.FLD_CTL_en u) 0
  else if st = 1 || st = 6 then
    let s := ((s.setF (F.FLD_CTL_en u) 0).unitEnter u 0).setF (F.FLD_STS_safe_state u) 0
    let s := (((s.setF (F.FLD_STS_obs_valid u) 0).setF (F.FLD_OBS_STS_valid u) 0).setF (F.FLD_STS_fw_lim u) 0).leaveRun u
    (s.setUnit u { s.unit u with pat := .block, seq := .none, pulseOn := false, angOk := false, measOk := false,
                                 obsGood := 0, obsBad := 0 }).allLegs
  else s.setF (flagBit u 0) 1

/-! ## The deckle's clamps (R60, R61) -/

/-- Deckle quantity `m` of drive `u` in force. -/
def State.deck (s : State) (u m : Nat) : Int := s.fi (F.FLD_DECK_value u m)
/-- A deckle quantity as a value. -/
def State.deckF (s : State) (u m : Nat) : F32 := s.q15 (F.FLD_DECK_value u m)

/-- A torque counts as motoring (R127). -/
def State.motoring (s : State) (u : Nat) (t : F32) : Bool :=
  let x := s.unit u
  s.still u || !x.measOk || fEq t fZero || (fLt t fZero == fLt x.meas fZero)

/-- Bounds of a torque of the motoring and of the regenerating kind from torque bound `t` and power bound `p` (R136); at
speed 0, or with no valid speed, the power gives none. -/
def State.torqueBound (s : State) (u : Nat) (t p : F32) : F32 :=
  let x := s.unit u
  if !x.measOk || fEq x.meas fZero then t else fMin t (fdiv p (fAbs x.meas))

/-- `t` clamped to the deckle. -/
def State.clampTorque (s : State) (u : Nat) (t : F32) : F32 :=
  let b := if s.motoring u t then s.torqueBound u (s.deckF u 2) (s.deckF u 4) else s.torqueBound u (s.deckF u 3) (s.deckF u 5)
  fCut (fNeg b) b t

/-- torque_ref of unit `u` within the deckle. -/
def State.torqueRef (s : State) (u : Nat) : F32 :=
  s.clampTorque u (tblGet (s.q15 (F.FLD_REF_value u 0)) (s.unit u).ovr 0)
/-- id_ref and iq_ref within the deckle. -/
def State.currentRef (s : State) (u : Nat) : F32 × F32 :=
  let r := vlim (s.q15 (F.FLD_REF_value u 1)) (tblGet (s.q15 (F.FLD_REF_value u 2)) (s.unit u).ovr 2) (s.deckF u 6)
  (r.1.v, r.2.1.v)
/-- The speed reference within the deckle. -/
def State.speedRef (s : State) (u : Nat) : F32 :=
  fCut (fNeg (s.deckF u 1)) (s.deckF u 0) (tblGet (s.q15 (F.FLD_REF_value u 3)) (s.unit u).ovr 3)

/-- The targets of drive `u` that lie outside the deckle `dk`, numbered 0–7 FLD_LIMm, 8 torque_ref, 9 the current
references, 10 speed_ref. -/
def State.outside (s : State) (u : Nat) (dk : Nat → Int) : List Nat :=
  let q := fun m => fOfInt (dk m) (-15)
  let lims := (List.range 8).filter fun m => dk m < s.fi (F.FLD_LIM_value u m)
  let t := s.q15 (F.FLD_REF_value u 0)
  let b := if s.motoring u t then s.torqueBound u (q 2) (q 4) else s.torqueBound u (q 3) (q 5)
  let i := s.fi (F.FLD_REF_value u 1) ^ 2 + s.fi (F.FLD_REF_value u 2) ^ 2
  let w := s.fi (F.FLD_REF_value u 3)
  lims ++ (if fLt b (fAbs t) then [8] else []) ++ (if dk 6 < 0 || dk 6 ^ 2 < i then [9] else []) ++
    (if dk 0 < w || w < -(dk 1) then [10] else [])

/-! ## References and limits (R135–R138, R156) -/

/-- DECKm and LIMm together: the smaller. -/
def State.lim (s : State) (u m : Nat) : F32 := fMin (s.deckF u m) (s.q15 (F.FLD_LIM_value u m))

/-- k_ov of unit `u`'s converter, 1 where the governor takes nothing off (R136, R269). -/
def State.kOvOf (s : State) (u : Nat) : F32 :=
  match s.unitConv u with
  | some k => if s.f (F.PROT_CV_GOV_kov k) = 0x7FFF then fOne else s.q15 (F.PROT_CV_GOV_kov k)
  | none => fOne

/-- Effective motoring and regenerating torque limits (R136). -/
def State.torqueLimits (s : State) (u : Nat) : F32 × F32 :=
  (s.torqueBound u (s.lim u 2) (s.lim u 4), fmul (s.torqueBound u (s.lim u 3) (s.lim u 5)) (s.kOvOf u))

/-- The current limit and the speed limits ahead and astern, capped in limp-home (R136, R167). -/
def State.currentLimit (s : State) (u : Nat) : F32 :=
  if s.bit (F.FLD_STS_limp u) then fMin (s.lim u 6) (s.q15 (F.FLD_LIMP_CFG_i_limp u)) else s.lim u 6
/-- A speed limit. -/
def State.speedLimit (s : State) (u m : Nat) : F32 :=
  if s.bit (F.FLD_STS_limp u) then fMin (s.lim u m) (s.q15 (F.FLD_LIMP_CFG_speed_limp u)) else s.lim u m

/-- One step of the speed-command curve (R156): the reference, with dir and the NaN flag written. -/
def State.curve (s : State) (u : Nat) : F32 × State :=
  let raw := if s.bitE (F.FLD_CTL_crv_src u) then s.hbWord (0x500 + 4 * s.fe (F.FLD_CTL_crv_ain u))
    else tblGet (s.q15 (F.FLD_REF_value u 4)) (s.unit u).ovr 4
  if fIsNan raw then (fZero, (s.setF (F.FLD_STS_dir u) 0).setF (flagBit u 8) 1)
  else
    let x := fCut (0xBF800000 : F32) fOne raw
    let q := fun (f : Fld) => fOfQ 16 15 (s.fe f)
    let y := s.lutAt (crvCopy u) x
    let ahead := fMax fZero y
    let astern := fMin fZero y
    match s.f (F.FLD_STS_dir u) with
    | 0 =>
      if fLe (q (F.FLD_CRV_FWD_on u)) x then (ahead, s.setF (F.FLD_STS_dir u) 1)
      else if fLe x (fNeg (q (F.FLD_CRV_AST_on u))) then (astern, s.setF (F.FLD_STS_dir u) 2)
      else (fZero, s)
    | 1 => if fLt x (q (F.FLD_CRV_FWD_off u)) then (fZero, s.setF (F.FLD_STS_dir u) 0) else (ahead, s)
    | _ => if fGt x (fNeg (q (F.FLD_CRV_AST_off u))) then (fZero, s.setF (F.FLD_STS_dir u) 0) else (astern, s)

/-- The ramp moves from `r` toward `ref` by at most `step` (R137). -/
def rampStep (r ref step : F32) : F32 :=
  let d := fsub ref r
  if fLe (fAbs d) step then ref else if fLt d fZero then fsub r step else fadd r step

/-- The speed reference of this couch, before the ramp, within the limits of R136: 0 in RAMP. -/
def State.speedTarget (s : State) (u : Nat) : F32 × State :=
  let r := if s.bitE (F.FLD_CTL_curve_en u) then s.curve u else (s.speedRef u, s)
  let v := if s.f (F.FLD_STS_state u) = 5 then fZero else r.1
  let v := match tblFind (s.unit u).ovr 21 with
    | some d => if s.f (F.FLD_STS_state u) = 5 then v else fsub v d
    | none => v
  (fCut (fNeg (s.speedLimit u 1)) (s.speedLimit u 0) v, r.2)

/-! ## Torque and current references (R138–R140) -/

/-- The current pair within limit `i`: |iq| is reduced first, id only when it alone exceeds the limit (R139). -/
def limitIq (id iq i : F32) : F32 × F32 :=
  if fLe (fMag id iq) i then (id, iq)
  else if fLe (fAbs id) i then (id, fmul (fSgn iq) (fsqrt (fsub (fmul i i) (fmul id id))))
  else (fmul (fSgn id) i, fZero)

/-- The flux reference ψ* of an IM at speed `w` (R140). -/
def State.psiAt (s : State) (u : Nat) (w : F32) : F32 :=
  fCut (0x3D4CCCCD : F32) (0x3F99999A : F32) (s.lutAt (fwCopy u) (fAbs w))

/-- The flux reference ψ* of an IM (R140). -/
def State.psiStar (s : State) (u : Nat) : F32 := s.psiAt u (s.unit u).meas

/-- Current references of torque `t` (R139, R140). -/
def State.torqueCurrents (s : State) (u : Nat) (t : F32) : F32 × F32 :=
  let kt := s.few (F.FLD_MACH_KT_value u)
  let i := s.currentLimit u
  if s.isIm u then
    let psi := s.psiStar u
    let id := fdiv psi (s.few (F.FLD_MACH_LM_value u))
    let iq := fdiv t (fmul kt psi)
    limitIq id iq i
  else
    let b := fCut fZero k024 (s.lutAt (fwCopy u) (fAbs (s.unit u).meas))
    let iq := fdiv t kt
    let id := fmul (fNeg (fAbs iq)) (fdiv (fSin b) (fCos b))
    limitIq id iq i

/-- The slip of an IM with current references `c`, iq/(tr × id) in pu (R140), is kept; the rule gives none for an id of 0:
a free value (log entry 109). A PM machine has none. -/
def State.setSlip (s : State) (u : Nat) (c : F32 × F32) : State :=
  if !s.isIm u then s.setUnit u { s.unit u with slip := fZero }
  else if fEq c.1 fZero then let r := s.free 32; r.2.setUnit u { s.unit u with slip := r.1 }
  else s.setUnit u { s.unit u with
    slip := fdiv (fdiv c.2 (fmul (s.few (F.FLD_MACH_TR_value u)) c.1)) (fmul kTwoPi (s.fBase u)) }

/-- Bound of a positive torque: the effective limit of its kind, and the cap of a winch axis (R333, `ovr` 16). -/
def State.torqueHi (s : State) (u : Nat) : F32 :=
  let x := s.unit u
  let b := if s.motoring u fOne then x.tMot else x.tReg
  match tblFind x.ovr 16 with | some c => fMin b c | none => b

/-- Bound of the magnitude of a negative torque, with the cap of a winch axis (`ovr` 17). -/
def State.torqueLo (s : State) (u : Nat) : F32 :=
  let x := s.unit u
  let b := if s.motoring u (0xBF800000 : F32) then x.tMot else x.tReg
  match tblFind x.ovr 17 with | some c => fMin b c | none => b

/-- The torque of a speed controller with reference `ref` (R135, R92): error to torque with torque_ref as feed-forward,
bounded by the effective limits. -/
def State.speedTorque (s : State) (u : Nat) (ref : F32) : F32 × State :=
  let x := s.unit u
  let hi := s.torqueHi u
  let lo := s.torqueLo u
  match piStep (fsub ref x.meas) (s.gain (F.FLD_SPD_KP_gain u)) (s.gain (F.FLD_SPD_KI_gain u)) (s.torqueRef u) x.xs (fNeg lo) hi with
  | some r => (r.out, s.setUnit u { x with xs := r.i })
  | none => (canonNan, s)

/-- `t` within the effective torque limits. -/
def State.limitTorque (s : State) (u : Nat) (t : F32) : F32 := fCut (fNeg (s.torqueLo u)) (s.torqueHi u) t

/-! ## Current control (R131–R133) -/

/-- The phase currents of drive `u` at the couch; in limp-home on a lost phase that phase is formed from the other two
(R167). -/
def State.unitCurrents (s : State) (u : Nat) : F32 × F32 × F32 :=
  let a := s.hbU u 0
  let b := s.hbU u 4
  let c := s.hbU u 8
  if !(s.unit u).limp.testBit 1 then (a, b, c)
  else match fIsNan a, fIsNan b, fIsNan c with
    | true, false, false => (fNeg (fadd b c), b, c)
    | false, true, false => (a, fNeg (fadd a c), c)
    | false, false, true => (a, b, fNeg (fadd a b))
    | _, _, _ => (a, b, c)

/-- The torque τ of unit `u` as axes and the shaft link take it (R333, R351): kt × i_q at the angle that the unit itself uses,
which is its own while it runs on a forced or a caught angle, or the torque_ref in force. -/
def State.tauOf (s : State) (u : Nat) : F32 :=
  if s.fuMode u then
    let (ia, ib, ic) := s.unitCurrents u
    let ab := clarke ia ib ic
    let x := s.unit u
    fmul (s.few (F.FLD_MACH_KT_value u)) (park ab.1.v ab.2.1.v (if x.forced || x.caughtOn then x.ang else s.hbU u 0xC)).2.v
  else s.torqueRef u

/-- One run of the current control of unit `u` at angle `th` with electrical speed `w` and current references `id`, `iq`
(R132): the voltage vector, the codes of the phase duties, and the state with the integrators and fw_lim. -/
def State.currentControl (s : State) (u : Nat) (th w id iq : F32) : (F32 × F32) × List Nat × State :=
  let x := s.unit u
  let (ia, ib, ic) := s.unitCurrents u
  let vdc := s.hbU u 0x10
  let ab := clarke ia ib ic
  let dq := park ab.1.v ab.2.1.v th
  let ld := s.few (F.FLD_MACH_LD_value u)
  let lq := s.few (F.FLD_MACH_LQ_value u)
  let dec := s.bit (F.FLD_CC_CFG_decouple u)
  let ffd := if dec then fmul (fmul (fNeg w) lq) dq.2.v else fZero
  let flux := if s.isIm u then fmul ld dq.1.v else fadd (fmul ld dq.1.v) (s.few (F.FLD_MACH_PSI_value u))
  let ffq := if dec then fmul w flux else fZero
  let mode := s.fe (F.FLD_CC_CFG_svm u)
  let lim := if mode = 2 then fdiv (fmul fTwo vdc) kPi else fdiv vdc kRoot3
  let kp := s.gain (F.FLD_CC_KP_gain u)
  let ki := s.gain (F.FLD_CC_KI_gain u)
  let pd := piStep (fsub id dq.1.v) kp ki ffd x.xd (fNeg lim) lim
  let pq := piStep (fsub iq dq.2.v) kp ki ffq x.xq (fNeg lim) lim
  let out := fun (r : Option PiOut) (i : F32) => match r with | some r => (r.out, r.i) | none => (canonNan, i)
  let (vd, xd) := out pd x.xd
  let (vq, xq) := out pq x.xq
  let l := vlim vd vq lim
  let x := if l.2.2 then x else { x with xd := xd, xq := xq }
  let d := (s.unitDomain u).getD 0
  let tr := fOfRat (4 * reloadCounts (s.mdP d) (s.fe (F.MOD_RELOAD_n_m1 d)) (s.fe (F.MOD_RELOAD_evt d)) : Nat) 1000000000
  let thv := if s.bit (F.FLD_CC_CFG_lead_comp u) then fadd th (fmul (fmul w (s.fBase u)) (fadd s.tSec (fdiv tr fTwo))) else th
  let v := ipark l.1.v l.2.1.v thv
  let m := svm v.1.v v.2.v vdc mode
  let fw := l.2.2 || m.fl.getLsbD 0
  ((l.1.v, l.2.1.v), [m.a, m.b, m.c].map fun y => (fToQ 16 15 y).1, (s.setUnit u x).setB (F.FLD_STS_fw_lim u) fw)

/-- The current control of a unit in RUN or RAMP: the duties enter its domain's shadow (R131, R179). -/
def State.controlRun (s : State) (u : Nat) (th w id iq : F32) : State :=
  let r := s.currentControl u th w id iq
  match s.unitDomain u with
  | some d => r.2.2.unitDuties d r.2.1
  | none => r.2.2

/-- The current control of a unit that searches or magnetises: its own duties, which a reload takes as it takes those of
R131 (log entry 107); the voltage vector is the result. -/
def State.controlOwn (s : State) (u : Nat) (th w id iq : F32) : (F32 × F32) × State :=
  let r := s.currentControl u th w id iq
  let s := r.2.2
  (r.1, s.setUnit u { s.unit u with own := r.2.1, ownFrom := s.now + 400 })

/-! ## Test pulses (R147) -/

/-- The channels that carry the currents of unit `u`: phase channels, or the arm channels of its MMC. -/
def State.pulseChannels (s : State) (u : Nat) : List (Option Nat) :=
  if s.fe (F.FLD_BIND_conv u) == 2 then (List.range 6).map fun k => s.sdOf (0x400 + 6 * s.fe (F.FLD_BIND_cv u) + k)
  else (List.range 3).map fun p => s.sdOf ((p + 1) * 0x100 + u)

/-- Group delay (Nf − 1) × t_SDC of channel `n` in ns. -/
def State.groupDelay (s : State) (n : Nat) : Nat := s.fe (F.SNS_SD_FAST_fosr_m1 n) * (4 * s.sdcDiv (s.sdClk n))

/-- The fast-path output of channel `n` as a scaled value; NaN where it has none. -/
def State.fastValue (s : State) (n : Nat) : F32 :=
  let nf := s.fe (F.SNS_SD_FAST_fosr_m1 n) + 1
  if s.sdOn n && s.bit (F.SNS_SD_FAST_fast_en n) && 2 * nf - 1 ≤ (s.sd n).count then
    scale (s.reg (R.SNS_SD_SCALE n)) (fOfInt (sinc2 (s.sd n).bits nf) (-15)) (fOfQ 16 15 (s.f (F.SNS_SD_CFG_offset n)))
  else canonNan

/-- The captured value of a channel, corrected for its group delay: × w_p / (w_p − t_gd). -/
def State.captured (s : State) (w : Nat) (ch : Option Nat) : F32 :=
  match ch with
  | none => canonNan
  | some n =>
    let wp := 4 * w
    fdiv (fmul (s.fastValue n) (fOfInt wp)) (fOfInt ((wp : Int) - s.groupDelay n))

/-- The current vector (α, β) of the pulse that ends now. -/
def State.capture (s : State) (u w : Nat) : F32 × F32 :=
  let chs := s.pulseChannels u
  let v := chs.map (s.captured w)
  let at_ := fun k => (v[k]?).getD canonNan
  let none_ := fun k => chs[k]? == some none
  let (a, b, c) :=
    if v.length = 6 then (fsub (at_ 0) (at_ 1), fsub (at_ 2) (at_ 3), fsub (at_ 4) (at_ 5))
    else
      let a := at_ 0
      let b := at_ 1
      let c := at_ 2
      if none_ 0 then (fNeg (fadd b c), b, c) else if none_ 1 then (a, fNeg (fadd a c), c)
      else if none_ 2 then (a, b, fNeg (fadd a b)) else (a, b, c)
  let r := clarke a b c
  (r.1.v, r.2.1.v)

/-- Spacing in ticks of the sequence in progress. -/
def State.spacing (s : State) (u : Nat) : Nat :=
  (if (s.unit u).seq = .align then s.fe (F.FLD_ALIGN_CFG_spacing_m1 u) else s.fe (F.FLD_CATCH_CFG_spacing_m1 u)) + 1

/-- d of R147: the smallest whole number of 1 or more for which a pulse of `w` counts begins no earlier than the couch. -/
def State.firstPulse (s : State) (w : Nat) : Nat :=
  max 1 ((w + s.tm.period - s.tm.lead + s.tm.period - 1) / s.tm.period)

/-- Start a sequence of test pulses at the present couch; a group delay above half the width ends it at once as FAILED,
which the second result says. FLD_CATCH_STS.pulses counts this sequence's (R170). -/
def State.startPulses (s : State) (u : Nat) (q : Seq) : State × Bool :=
  let w := if q = .align then s.fe (F.FLD_ALIGN_CFG_width u) else s.fe (F.FLD_CATCH_CFG_width u)
  let slow := (s.pulseChannels u).any fun c => match c with | some n => 4 * w < 2 * s.groupDelay n | none => false
  let s := s.setF (F.FLD_CATCH_STS_pulses u) 0
  (s.setUnit u { s.unit u with seq := if slow then .none else q, pulse := 0, width := w, ticks := 0, d0 := s.firstPulse w,
                               caps := [], pulseOn := false, half := false, pat := .block }, slow)

/-- The active vector at k × 60°. -/
def activeVec (k : Nat) : Pattern := .vector (4 * (k % 6))

/-- Direction of alignment pulse `p` in units of 15°: p × 30°, or φ0 ± 15° with φ0 = `phi0` × 30° (R149). -/
def alignTurn (p phi0 : Nat) : Nat :=
  (if p < 12 then 2 * p else if p = 12 then 2 * phi0 + 1 else 2 * phi0 + 23) % 24

/-- The pattern of alignment pulse `p`, in its first or second part (R148, R149): the adjacent active vectors one after the
other; an MMC gives the directions φ0 ± 15° as they are. -/
def alignPattern (mmc : Bool) (p phi0 : Nat) (half : Bool) : Pattern :=
  let k := alignTurn p phi0
  if mmc && 12 ≤ p then .vector k
  else activeVec (k / 4 + (half && k % 4 != 0).toNat)

/-- Length in ns of the first part of a pulse of `w` counts in direction `k` × 15°: w_p/2 between two vectors, and the share
of the nearer one, sin 45° : sin 15°, 15° off it (R149, R148; log entry 110). -/
def firstPart (w k : Nat) : Nat :=
  match k % 4 with
  | 1 => 4 * w * 732051 / 1000000
  | 3 => 4 * w * 267949 / 1000000
  | _ => 2 * w

/-- |Δi| of the captures of an alignment, direction by direction; an odd one × 2/√3 (R149). -/
def alignMag (caps : List (F32 × F32 × Nat)) (j : Nat) : F32 :=
  match caps[j]? with
  | none => canonNan
  | some (a, b, _) => if j < 12 && j % 2 = 1 then fmul (fMag a b) kTwoByRoot3 else fMag a b

/-- The direction with the largest |Δi| among pulses 0–11, the lowest of equals. -/
def alignDir (caps : List (F32 × F32 × Nat)) : Nat :=
  (List.range 12).foldl (fun best j => if fGt (alignMag caps j) (alignMag caps best) then j else best) 0

/-- |Δi| of the newest pulse of unit `u` exceeds i_max of its sequence, with the width that pulse had (R150, R152). -/
def State.bigPulse (s : State) (u : Nat) : Option Nat :=
  let x := s.unit u
  let imax := if x.seq = .align then s.q15 (F.FLD_ALIGN_CFG_i_max u) else s.q15 (F.FLD_CATCH_LIM_i_max u)
  match x.caps.getLast? with
  | some (a, b, w) => if fGt (fMag a b) imax then some w else none
  | none => none

/-- The newest pulse ends the sequence of unit `u` at the next couch: it exceeded i_max in ALIGN (R150), or with the least
width in CATCH (R152). -/
def State.pulsesStop (s : State) (u : Nat) : Bool :=
  match s.bigPulse u with
  | some w => (s.unit u).seq == .align || w ≤ 500
  | none => false

/-- The patterns that begin in the tick after the present couch, for a unit on an MMC, whose cells take orders for the coming
tick only (R147, R148, R202; log entry 130): the block that ends a pulse at the tick's start, the vectors of the next one. The
orders for the tick in progress have left: a pulse that would begin in the tick in which the sequence starts begins with the
next one. -/
def State.pulsePlan (s : State) (u : Nat) : Option (List (Nat × Pattern)) :=
  let x := s.unit u
  if s.fe (F.FLD_BIND_conv u) != 2 || (x.seq != .align && x.seq != .pulses) then none
  else
    let i := x.ticks + 1
    let ended := decide (x.d0 + x.pulse * s.spacing u ≤ i)
    let p := if ended then x.pulse + 1 else x.pulse
    let last := if x.seq = .align then 14 else s.fe (F.FLD_CATCH_CFG_pulses_m1 u) + 1
    let t : Int := s.periodNs
    let b : Int := ((x.d0 + p * s.spacing u : Nat) - (i : Int)) * t - 4 * x.width
    let b := if x.ticks = 0 then max 0 b else b
    let dir := alignDir x.caps
    let m : Int := b + firstPart x.width (alignTurn p dir)
    let p1 := if x.seq = .align then alignPattern true p dir false else .low
    let p2 := if x.seq = .align then alignPattern true p dir true else .low
    if last ≤ p || t ≤ b then some [(0, .block)]
    else some ((if ended && 0 < b then [(0, .block)] else []) ++ (if 0 ≤ b then [(b.toNat, p1)] else []) ++
      (if 0 ≤ m && m < t && p1 != p2 then [(m.toNat, p2)] else []))

/-- A test pulse of unit `u` begins in this tick, or changes to its second vector (R147, R149, R152). A sequence that its newest
pulse ends begins no other. -/
def State.testPulse (s : State) (u : Nat) : State :=
  let x := s.unit u
  if (x.seq != .align && x.seq != .pulses) || (!x.pulseOn && s.pulsesStop u) then s
  else
    let stop := s.tm.start + (x.d0 + x.pulse * s.spacing u - x.ticks) * s.periodNs
    let next := s.tm.start + s.periodNs
    let dir := alignDir x.caps
    let mmc := s.fe (F.FLD_BIND_conv u) == 2
    let second := stop - 4 * x.width + firstPart x.width (alignTurn x.pulse dir)
    if !x.pulseOn then
      if next ≤ stop - 4 * x.width then s
      else
        let s := s.at (stop - 4 * x.width)
        let p := if x.seq = .align then alignPattern mmc x.pulse dir false else .low
        (s.setUnit u { x with pulseOn := true, half := false, pat := p }).allLegs
    else if x.half || x.seq != .align || next ≤ second then s
    else ((s.at second).setUnit u { x with half := true, pat := alignPattern mmc x.pulse dir true }).allLegs

/-- At a sample point: the tick count of the sequence, and the end of the pulse that is on, with its capture (R147). In CATCH a
pulse above i_max halves the width of those that follow (R152). -/
def State.pulseSample (s : State) (u : Nat) : State :=
  let x := s.unit u
  if x.seq != .align && x.seq != .pulses then s
  else
    let x := { x with ticks := x.ticks + 1 }
    if !x.pulseOn || x.ticks < x.d0 + x.pulse * s.spacing u then s.setUnit u x
    else
      let c := s.capture u x.width
      let s := s.setUnit u { x with pulseOn := false, half := false, pat := .block, pulse := x.pulse + 1,
                                    caps := x.caps ++ [(c.1, c.2, x.width)] }
      let s := if x.seq = .pulses && (s.bigPulse u).isSome then s.setUnit u { s.unit u with width := max 500 (x.width / 2) } else s
      (s.setF (F.FLD_CATCH_STS_pulses u) (x.pulse + 1)).allLegs

/-! ## State changes (R128) -/

/-- Unit `u` takes state `st` with output pattern `p`. -/
def State.unitGo (s : State) (u st : Nat) (p : Pattern) : State :=
  ((s.unitEnter u st).setUnit u { s.unit u with pat := p, seq := .none, pulseOn := false }).allLegs

/-- READY with pulse block. -/
def State.unitReady (s : State) (u : Nat) : State :=
  ((s.setF (F.FLD_STS_safe_state u) 0).leaveRun u).unitGo u 1 .block

/-- Entry into RUN from ALIGN, at speed 0 (R128, R138, R146). -/
def State.runFromAlign (s : State) (u : Nat) : State :=
  let forced := !s.isIm u && (s.angleSrc u).isNone
  let s := s.setUnit u { s.unit u with ramp := fZero, ref := fZero, xd := fZero, xq := fZero, xs := fZero, soft := 1,
                                       forced := forced, ang := if forced then (s.unit u).forcedAng else (s.unit u).ang,
                                       fresh := true, rtLow := 0, rtZero := 0 }
  (s.setB (F.FLD_OBS_STS_forced u) forced).unitGo u 4 .block

/-- Entry into RUN from CATCH with measured speed `w` (R155). Without a valid source the unit runs on the angle of the catch
(log entry 108). A frequency search goes on applying its voltage until the first reload. -/
def State.runFromCatch (s : State) (u : Nat) (w : F32) : State :=
  let x := s.unit u
  let own := (s.angleSrc u).isNone
  let th := if x.seq = .magnetise then x.seqAng else if own then x.caughtAng else s.hbU u 0xC
  let (ia, ib, ic) := s.unitCurrents u
  let ab := clarke ia ib ic
  let iq := (park ab.1.v ab.2.1.v th).2.v
  let psi := if s.isIm u then s.psiAt u w else s.few (F.FLD_MACH_PSI_value u)
  let vd := fmul (fmul (fNeg w) (s.few (F.FLD_MACH_LQ_value u))) iq
  let vq := fmul w psi
  let x := { x with ramp := w, xd := vd, xq := vq, vdPre := vd, vqPre := vq, xs := fZero, soft := 1, rtLow := 0,
                    rtZero := 0, fresh := true, caught := w, caughtOn := own }
  let s := s.setUnit u (if own then { x with caughtAng := th, ang := th, meas := w, measOk := true } else x)
  (s.setB (F.FLD_STS_last_dir u) (fLt w fZero)).unitGo u 4 (if x.pat = .pwm then .pwm else .block)

/-! ## ALIGN (R149, R150) -/

/-- ALIGN ends with outcome `o`: EV25, and READY but for DONE. -/
def State.alignEnd (s : State) (u o : Nat) : State :=
  let s := (s.setF (F.FLD_CATCH_STS_align u) o).raise 25 0 (scopeDrive u) scopeNone
  if o = 1 then s.runFromAlign u else s.unitReady u

/-- ALIGN is entered: its sequence starts; FAILED of R147 has no code of its own in FLD_CATCH_STS.align, which then holds a
free value (log entry 2). -/
def State.alignStart (s : State) (u : Nat) : State :=
  let s := s.unitGo u 2 .block
  let r := s.startPulses u .align
  if r.2 then let fr := r.1.free 3; fr.2.alignEnd u (if fr.1.toNat = 1 then 0 else fr.1.toNat) else r.1

/-- ALIGN DONE at angle `th`: the forced angle, and the offset of FEEDBACK or AUTO with a valid port (R150), the Q0.16 number
nearest to `th` less the port's angle (R8). -/
def State.aligned (s : State) (u : Nat) (th : F32) : State :=
  let s := s.setUnit u { s.unit u with forcedAng := th }
  if s.fe (F.FLD_ANGLE_src u) != 1 && s.portOk u then
    let raw := s.fe (F.FLD_ANGLE_pole_pairs u) * s.f (F.FBK_ANG_ang (s.fe (F.FLD_BIND_fbp u))) % 2 ^ 32
    let off := (roundEven ((frac64 th + 2 ^ 64 - raw * 2 ^ 32 : Nat) % 2 ^ 64) (2 ^ 48)).toNat % 0x10000
    (s.setF (F.FLD_ANGLE_offset u) off).setF (F.FLD_STS_aligned u) 1
  else s

/-- The outcome of ALIGN at a couch, where its pulses give one (R149, R150). -/
def State.alignCouch (s : State) (u : Nat) : State :=
  let x := s.unit u
  if s.pulsesStop u then s.alignEnd u 3
  else if x.caps.length < 14 then s
  else
    let j := alignDir x.caps
    let i0 := alignMag x.caps j
    let opp := alignMag x.caps ((j + 6) % 12)
    if fLt i0 (fmul (0x3F828F5C : F32) opp) then s.alignEnd u 2
    else
      let ip := alignMag x.caps 12
      let im := alignMag x.caps 13
      let k := fdiv fOne (fOfInt 24)
      let num := fmul k (fsub ip im)
      let den := fmul fTwo (fsub (fsub (fmul fTwo i0) ip) im)
      let delta := fCut (fNeg k) k (fdiv num den)
      (s.aligned u (fFrac (fadd (fdiv (fOfInt j) (fOfInt 12)) delta))).alignEnd u 1

/-! ## CATCH (R151–R154) -/

/-- The angle is known when CATCH ends at standstill. -/
def State.angleKnown (s : State) (u : Nat) : Bool := s.isIm u || (s.angleSrc u).isSome

/-- CATCH ends with outcome `o` and measured speed `w` (R154, R128). -/
def State.catchEnd (s : State) (u o : Nat) (w : F32) : State :=
  let s := s.setF (F.FLD_CATCH_STS_outcome u) o
  let s := if o ≤ 3 then s.setF (F.FLD_CATCH_STS_speed u) (fToQ 16 14 w).1 else s
  let s := s.raise 24 0 (scopeDrive u) scopeNone
  if o = 1 || (o = 2 && s.angleKnown u) then s.runFromCatch u w
  else if o = 2 then s.alignStart u
  else s.unitReady u

/-- The outcome that speed `w` gives (R154). -/
def State.catchOutcome (s : State) (u : Nat) (w : F32) : Nat :=
  if fIsNan w then 4
  else if fGt (fAbs w) (s.q14 (F.FLD_CATCH_LIM_limit u)) then (if fLt (fAbs w) (s.q15 (F.FLD_OBS_CFG_valid_min u)) then 2 else 3)
  else if fLt (fAbs w) (s.q15 (F.FLD_OBS_CFG_valid_min u)) then 2 else 1

/-- CATCH is entered: the method is chosen (R151). -/
def State.catchStart (s : State) (u : Nat) : State :=
  let s := s.unitGo u 3 .block
  let s := ((s.setF (F.FLD_CATCH_STS_outcome u) 0).setF (F.FLD_CATCH_STS_pulses u) 0).setUnit u { s.unit u with retried := false, magDone := false }
  let fb := s.fe (F.FLD_ANGLE_src u) != 1 && s.portOk u && (s.isIm u || s.bit (F.FLD_STS_aligned u))
  if fb then (s.setF (F.FLD_CATCH_STS_method u) 1).setUnit u { s.unit u with seq := .feedback, ticks := 0 }
  else
    let s := s.setF (F.FLD_CATCH_STS_method u) 0
    if s.isIm u then
      s.setUnit u { s.unit u with seq := .search, search := [], turned := false, seqNs := 0, seqAng := fZero,
                                  xd := fZero, xq := fZero, pat := .pwm } |>.allLegs
    else
      let r := s.startPulses u .pulses
      if r.2 then r.1.catchEnd u 4 canonNan else r.1

/-- Angle of the vector (x, y) in revolutions, in [0, 1), to 2^−40; a free value for a zero vector or a NaN. -/
def State.vecAngle (s : State) (x y : F32) : F32 × State :=
  match magSign x, magSign y with
  | (mx, ex, sx), (my, ey, sy) =>
    if fIsNan x || fIsNan y || (mx = 0 && my = 0) then let r := s.free 32; (r.1, r.2)
    else
      let e0 := min (if mx = 0 then ey else ex) (if my = 0 then ex else ey)
      let cx := sx * ((mx <<< (ex - e0).toNat : Nat) : Int)
      let cy := sy * ((my <<< (ey - e0).toNat : Nat) : Int)
      (fOfU 40 (angleFloor cy cx 40 40 0), s)

/-- `d` wrapped into (−0.5, 0.5]. -/
def wrapRev (d : F32) : F32 := let f := fFrac d; if fGt f fHalf then fsub f fOne else f

/-- The back-EMF vectors of the pulses of a catch: e_k = L × Δi_k / (2π × f_b × t_k) (R152). -/
def State.catchEmf (s : State) (u : Nat) (c : F32 × F32 × Nat) : F32 × F32 :=
  let l := fdiv (fadd (s.few (F.FLD_MACH_LD_value u)) (s.few (F.FLD_MACH_LQ_value u))) fTwo
  let den := fmul (fmul kTwoPi (s.fBase u)) (fOfRat (4 * c.2.2 : Nat) 1000000000)
  (fdiv (fmul l c.1) den, fdiv (fmul l c.2.1) den)

/-- The angles of a list of vectors. -/
def State.angles (s : State) : List (F32 × F32) → List F32 × State
  | [] => ([], s)
  | v :: vs =>
    let r := s.vecAngle v.1 v.2
    let q := r.2.angles vs
    (r.1 :: q.1, q.2)

/-- Speeds between successive angles. -/
def speedsOf (den : F32) : List F32 → List F32
  | a :: b :: t => fdiv (wrapRev (fsub b a)) den :: speedsOf den (b :: t)
  | _ => []

/-- The test-pulse catch at a couch (R152): refused by a large pulse of the least width, and the speed when every pulse is in. -/
def State.catchPulses (s : State) (u : Nat) : State :=
  let x := s.unit u
  if s.pulsesStop u then s.catchEnd u 3 fZero
  else
    if x.caps.length < s.fe (F.FLD_CATCH_CFG_pulses_m1 u) + 1 then s
    else
      let es := x.caps.map (s.catchEmf u)
      let r := s.angles es
      let s := r.2
      let dt := fmul (fOfInt (s.spacing u)) s.tSec
      let ws := speedsOf (fmul (s.fBase u) dt) r.1
      let w := fdiv (ws.foldl fadd fZero) (fOfInt (max 1 ws.length))
      let e := es.getLast?.getD (canonNan, canonNan)
      let em := fdiv (fMag e.1 e.2) (s.few (F.FLD_MACH_PSI_value u))
      let diff := fAbs (fsub em (fAbs w))
      if fGt diff (fmul kQuarter (fMax em (fAbs w))) then
        if x.retried then s.catchEnd u 4 canonNan
        else
          let s := (s.setF (flagBit u 9) 1)
          let r := s.startPulses u .pulses
          r.1.setUnit u { r.1.unit u with retried := true }
      else
        let th := fFrac (fsub (r.1.getLast?.getD fZero) (fmul kQuarter (fSgn w)))
        let s := s.setUnit u { s.unit u with caughtAng := th }
        s.catchEnd u (s.catchOutcome u w) w

/-- Index of the largest of the recorded voltages, the first of equals. -/
def peakAt (vs : List (F32 × F32)) : Nat :=
  (vs.zipIdx.foldl (fun (b : Nat × F32) e => if fGt e.1.1 b.2 then (e.2, e.1.1) else b) (0, fZero)).1

/-- The frequency search at a couch (R153): one more voltage at the frequency of this couch, and what it shows. -/
def State.catchSearch (s : State) (u : Nat) : State :=
  let x := s.unit u
  let total := s.fe (F.FLD_IM_CFG_sweep u) * 10000000
  let lim := s.q14 (F.FLD_CATCH_LIM_limit u)
  let back := s.bit (F.FLD_STS_last_dir u) != x.turned
  let mag := fsub lim (fmul lim (fdiv (fOfInt (min total x.seqNs)) (fOfInt (max 1 total))))
  let f := if back then fNeg mag else mag
  let r := s.controlOwn u x.seqAng f (fMin (fOfQ 16 15 (s.fe (F.FLD_IM_CFG_i_search u))) (s.currentLimit u)) fZero
  let s := r.2
  let v := fMag r.1.1 r.1.2
  let x := s.unit u
  let vs := x.search ++ [(v, f)]
  let x := { x with search := vs, seqNs := x.seqNs + s.periodNs,
                    seqAng := fFrac (fadd x.seqAng (fmul (fmul f (s.fBase u)) s.tSec)) }
  let s := s.setUnit u x
  let k := peakAt vs
  let peak := (vs[k]?.getD (fZero, fZero))
  let fell := fLe v (fmul (0x3F666666 : F32) peak.1) && k + 1 < vs.length
  let magnetise := fun (s : State) (w : F32) =>
    s.setUnit u { s.unit u with seq := .magnetise, caught := w, magAt := s.now, magDone := false }
  if fell && k = 0 then s.catchEnd u 3 f
  else if fell then magnetise s peak.2
  else if x.seqNs < total then s
  else if x.turned then magnetise s fZero
  else s.setUnit u { x with turned := true, search := [], seqNs := 0 }

/-- Magnetising at the caught frequency (R153), until MAGNETISE_DONE, with the flux reference at the caught speed. -/
def State.catchMagnetise (s : State) (u : Nat) : State :=
  let x := s.unit u
  if x.magDone then s.catchEnd u (s.catchOutcome u x.caught) x.caught
  else
    let id := fMin (fdiv (s.psiAt u x.caught) (s.few (F.FLD_MACH_LM_value u))) (s.currentLimit u)
    let r := s.controlOwn u x.seqAng x.caught id fZero
    let y := r.2.unit u
    r.2.setUnit u { y with seqAng := fFrac (fadd y.seqAng (fmul (fmul y.caught (s.fBase u)) s.tSec)), obsAng := y.seqAng }

/-- CATCH at a couch after its first. -/
def State.catchCouch (s : State) (u : Nat) : State :=
  let x := s.unit u
  match x.seq with
  | .feedback => let w := if x.measOk then x.meas else s.portSpeed u; s.catchEnd u (s.catchOutcome u w) w
  | .pulses => s.catchPulses u
  | .search => s.catchSearch u
  | .magnetise => s.catchMagnetise u
  | _ => s

/-- The magnetising time, FLD_IM_CFG.mag × 10 ms, has expired (R153). -/
def State.magnetiseDone (s : State) (u : Nat) : State :=
  let x := s.unit u
  if x.seq = .magnetise && x.magAt + s.fe (F.FLD_IM_CFG_mag u) * 10000000 ≤ s.now then s.setUnit u { x with magDone := true } else s

/-! ## Active short circuit (R162, R163) -/

/-- Unit `u` enters ASC as a braking mode, or READY where R163 does not permit it. -/
def State.unitAsc (s : State) (u : Nat) : State :=
  if s.ascPermitted u then
    let s := (s.leaveRun u).setUnit u { (s.leaveRun u).unit u with ascAbove := s.aboveMin u }
    (s.unitGo u 7 (if s.bit (F.FLD_CTL_asc_side u) then .high else .low)).raise 26 0 (scopeDrive u) scopeNone
  else (s.setF (flagBit u 6) 1).unitReady u

/-! ## Transitions at a couch (R128, R129, R163) -/

/-- run_req of unit `u` as its axis or FLD_REF5 gives it. -/
def State.runAsk (s : State) (u : Nat) : Nat := (tblGet (s.reg (R.FLD_REF5 u)) (s.unit u).ovr 5).toNat % 4

/-- run_req as unit `u` takes it: in every state other than RUN, 2 acts as 1 (R129). -/
def State.runReq (s : State) (u : Nat) : Nat :=
  let r := s.runAsk u
  if r = 2 && s.f (F.FLD_STS_state u) != 4 then 1 else r

/-- A unit that was enabled while its converter stands in safe state `conv` enters SAFE (R251). -/
def State.unitJoins (s : State) (u conv : Nat) : State :=
  (State.unitSafe (if conv = 4 then 1 else conv) true s u).setF (F.FLD_STS_safe_state u) conv

/-- The transition of unit `u` at this couch: the first row of R128's table that applies. -/
def State.unitTransition (s : State) (u : Nat) : State :=
  let st := s.f (F.FLD_STS_state u)
  let r := s.runReq u
  let x := s.unit u
  let conv := match s.unitConv u with | some k => s.f (F.PROT_CV_STS_state k) | none => 0
  if st = 0 then s
  else if st = 5 && s.f (F.FLD_STS_safe_state u) = 4 && conv = 0 then s.unitReady u
  else if conv != 0 && st != 6 && !(conv = 4 && (st = 4 || st = 5)) then s.unitJoins u conv
  else match st with
    | 1 => if x.runPrev = 0 && r != 0 then s.catchStart u else s
    | 3 =>
      let s1 := s.catchCouch u
      if s1.f (F.FLD_STS_state u) = 3 && r = 0 then (s1.catchEnd u 5 canonNan) else s1
    | 2 =>
      let s1 := s.alignCouch u
      if s1.f (F.FLD_STS_state u) = 2 && r = 0 then s1.alignEnd u 4 else s1
    | 4 => if r = 0 then s.unitRampDown u else if r = 3 then s.unitAsc u else s
    | 5 =>
      if s.f (F.FLD_STS_safe_state u) = 4 then s
      else if r = 1 then s.unitEnter u 4
      else if s.still u && fEq x.ramp fZero then s.unitReady u else s
    | 7 =>
      if x.measOk && x.ascAbove && !s.aboveMin u then s.unitReady u
      else if r = 1 then s.catchStart u
      else if r = 0 && (!x.ascAbove || !x.measOk) then s.unitReady u
      else s
    | 6 => if conv = 0 then s.unitReady u else s
    | _ => s

/-! ## RUN and RAMP at a couch (R131–R140, R146, R164–R166) -/

/-- The crash stop of unit `u` starts at this couch (R164, R358). `alone` says that its request needs no line. -/
def State.crashStep (s : State) (u : Nat) (alone : Bool) : State :=
  let x := s.unit u
  if s.f (F.FLD_STS_state u) != 4 then s.setUnit u { x with crashGo := false, crashDone := false }
  else
    let r := s.runReq u
    let go := x.crashGo || (r = 2 && !x.crashDone && alone)
    let s := s.setUnit u { x with crashGo := go, crashDone := r = 2 && (x.crashDone || go) }
    if go then s.setF (F.FLD_STS_crash u) 1 else s

/-- The ride-through torque (R165): −sign(w) × kp × (hold − vdc), within the regenerating limit and the cap of a winch axis
(R333), 0 for the motoring sign. -/
def State.rtTorque (s : State) (u : Nat) : F32 :=
  let x := s.unit u
  let t := fmul (fmul (fNeg (fSgn x.meas)) (fOfQ 16 12 (s.f (F.FLD_RT_CFG_kp u)))) (fsub (s.q13 (F.FLD_RT_LVL_hold u)) (s.hbU u 0x10))
  let b := match tblFind x.ovr (if fLt t fZero then 17 else 16) with | some c => fMin x.tReg c | none => x.tReg
  if fEq t fZero || (fLt t fZero == fLt x.meas fZero) then fZero else fCut (fNeg b) b t

/-- Torque and current references of unit `u` at this couch, before the soft start. -/
def State.unitRefs (s : State) (u : Nat) : (F32 × F32) × State :=
  let x := s.unit u
  if s.bit (F.FLD_STS_rt u) then
    let t := s.rtTorque u
    let c := s.torqueCurrents u t
    (c, (s.setUnit u { x with torque := t, rtZero := if fEq t fZero then x.rtZero + 1 else 0 }).setSlip u c)
  else match s.fe (F.FLD_CTL_ref_mode u) with
    | 0 =>
      let c := s.currentRef u
      let r := vlim c.1 c.2 (s.currentLimit u)
      let c := (r.1.v, r.2.1.v)
      (c, (s.setUnit u { x with torque := fmul c.2 (s.few (F.FLD_MACH_KT_value u)) }).setSlip u c)
    | m =>
      let crash := s.bit (F.FLD_STS_crash u)
      let (t, s) := if m = 1 then (s.torqueRef u, s) else s.speedTorque u (if crash then x.ref else x.ramp)
      let t := s.limitTorque u t
      let c := s.torqueCurrents u t
      (c, (s.setUnit u { s.unit u with torque := t }).setSlip u c)

/-- The speed reference and the ramp of unit `u` at this couch (R137, R156). The crash stop and ride-through suspend the ramp;
a crash stop within 0.02 pu of this couch's reference ends, and the ramp goes on from the measured speed (R164). The couch of
the entry into RUN keeps the entry's ramp value (R155). -/
def State.unitRamp (s : State) (u : Nat) : State :=
  let r := s.speedTarget u
  let s := r.2
  let x := s.unit u
  let step := fmul (s.lim u 7) s.tSec
  let near := s.bit (F.FLD_STS_crash u) && !x.crashGo && x.measOk && fLt (fAbs (fsub x.meas r.1)) (0x3CA3D70A : F32)
  let x := { x with crashGo := false, ref := r.1 }
  let s := if near then s.setF (F.FLD_STS_crash u) 0 else s
  if s.fe (F.FLD_CTL_ref_mode u) != 2 then s.setUnit u { x with ramp := fZero }
  else if near then s.setUnit u { x with ramp := x.meas }
  else if s.bit (F.FLD_STS_crash u) || s.bit (F.FLD_STS_rt u) || x.soft = 1 then s.setUnit u x
  else s.setUnit u { x with ref := r.1, ramp := rampStep x.ramp r.1 step }

/-- The q-axis current of the forced frame: FLD_FORCE.i_force within the current limit, with the sign of the ramp value (R146,
R136). -/
def State.forcedCurrent (s : State) (u : Nat) : F32 :=
  fmul (fSgn (s.unit u).ramp) (fMin (s.q15 (F.FLD_FORCE_i_force u)) (s.currentLimit u))

/-- The change from the forced angle to a source that has become valid (R146): the current vector, fixed in the stator
frame, in the new frame. -/
def State.leaveForced (s : State) (u : Nat) : Option (F32 × F32) × State :=
  let x := s.unit u
  if x.forced && (s.angleSrc u).isSome then
    let ab := ipark fZero (s.forcedCurrent u) x.forcedAng
    let th := if s.angleSrc u = some 0 then s.portAngle u else x.obsAng
    let dq := park ab.1.v ab.2.v th
    (some (dq.1.v, dq.2.v), (s.setUnit u { x with forced := false, ang := th }).setF (F.FLD_OBS_STS_forced u) 0)
  else (none, s)

/-- One couch of the forced angle of unit `u` (R146): the unit's own current control in FU mode, and the advance of the angle
by the ramp value. -/
def State.forcedRun (s : State) (u : Nat) : State :=
  let x := s.unit u
  let a := fFrac (fadd x.forcedAng (fmul (fmul x.ramp (s.fBase u)) s.tSec))
  let i := s.forcedCurrent u
  let t := if s.fuMode u then fmul i (s.few (F.FLD_MACH_KT_value u)) else x.torque
  let s := s.setUnit u { x with forcedAng := a, torque := t }
  if s.fuMode u then s.controlRun u x.forcedAng x.ramp fZero i else s

/-- The references and the current control of a unit in FU mode on the angle of its source or of its catch; `vec` is the
current vector of the couch that leaves the forced angle, `soft` the number of the tick of the soft start (R138, R146). -/
def State.controlCouch (s : State) (u soft : Nat) (vec : Option (F32 × F32)) : State :=
  let r := s.unitRefs u
  let s := r.2
  let x := s.unit u
  let (id, iq) := match vec with
    | some v => v
    | none => (r.1.1, if 1 ≤ soft then fmul r.1.2 (fdiv (fOfInt soft) (fOfInt 16)) else r.1.2)
  let th := if vec.isSome || x.caughtOn then x.ang else s.hbU u 0xC
  s.controlRun u th (if s.isIm u then fadd x.meas x.slip else x.meas) id iq

/-- Unit `u` in RUN or RAMP at a couch. In engine mode the unit forms the slip of an IM from the torque_ref in force and the
application closes the loop (R123, R140). -/
def State.unitRun (s : State) (u : Nat) : State :=
  let st := s.f (F.FLD_STS_state u)
  if st != 4 && st != 5 then s
  else
    let s := s.unitRamp u
    let soft := (s.unit u).soft
    let s := s.setUnit u { s.unit u with soft := if 1 ≤ soft && soft < 16 then soft + 1 else 0 }
    let fv := s.leaveForced u
    let s := fv.2
    if (s.unit u).forced then s.forcedRun u
    else if s.fuMode u then s.controlCouch u soft fv.1
    else s.setSlip u (if s.fe (F.FLD_CTL_ref_mode u) = 0 then s.currentRef u
      else s.torqueCurrents u (s.limitTorque u (s.torqueRef u)))

/-! ## Supervision at a couch (R142, R158–R160, R165, R167) -/

/-- The torque that locked-rotor detection looks at (R158): in FU mode the unit's own torque as it is when the couch comes (log
entry 126). -/
def State.ownTorque (s : State) (u : Nat) : F32 := if s.fuMode u then (s.unit u).torque else s.torqueRef u

/-- Sector of the angle in use: floor(6 × frac θ) + 1. -/
def sectorOf (th : F32) : Nat := frac64 th * 6 / 2 ^ 64 + 1

/-- Locked-rotor timer and speed check of unit `u` at a couch (R158–R160). -/
def State.unitWatch (s : State) (u : Nat) : State :=
  if !s.unitOn u then s else
  let st := s.f (F.FLD_STS_state u)
  let x := s.unit u
  let run := st = 4 || st = 5
  let sec := if (x.angOk || x.caughtOn) && !x.forced then sectorOf x.ang else x.secNow
  let commutes := sec != x.secNow && sec != x.secLeft && x.secNow != 0
  let x := if sec != x.secNow then { x with secLeft := x.secNow, secNow := sec } else x
  let load := run && fLe (s.q15 (F.FLD_LR_CFG_thr u)) (fAbs (s.ownTorque u))
  let x := if !load || commutes then { x with lrTime := 0, lrHeld := false }
    else if x.lrHeld then x else { x with lrTime := x.lrTime + s.periodNs }
  let s := s.setF (F.FLD_MEAS_lr_time u) (min 0xFFFF (x.lrTime / 10000000))
  let limit := s.f (F.FLD_OVS_CFG_limit u)
  let fast := x.measOk && limit != 0 && s.fi (F.FLD_OVS_CFG_limit u) < (s.fi (F.FLD_MEAS_speed u)).natAbs
  s.setUnit u { x with ovs := if !fast then 0 else if x.ovs = 3 then 3 else min 2 (x.ovs + 1) }

/-- Ride-through's count of low couches and the fw_lim event of unit `u` at a couch (R142, R165). -/
def State.unitSupervise (s : State) (u : Nat) : State :=
  let st := s.f (F.FLD_STS_state u)
  let x := s.unit u
  let vdc := s.hbU u 0x10
  let low := st = 4 && s.fuMode u && s.bit (F.FLD_CTL_rt_en u) && fLt vdc (s.q13 (F.FLD_RT_LVL_enter u))
  let x := { x with rtLow := if low then x.rtLow + 1 else 0 }
  let fw := s.bit (F.FLD_STS_fw_lim u)
  let rise := fw && !x.fwPrev
  let s := s.setUnit u { x with fwPrev := fw }
  if rise then (s.setF (flagBit u 4) 1).raise 27 0 (scopeDrive u) scopeNone else s

/-- Exactly one of the three phase channels mapped to drive `u` is invalid (R167). -/
def State.phaseLost (s : State) (u : Nat) : Bool :=
  let chs := (List.range 3).filterMap fun p => s.sdOf ((p + 1) * 0x100 + u)
  chs.length == 3 && (chs.filter fun n => !s.bit (F.SNS_SD_STS_valid n)).length == 1

/-- Limp-home on a lost phase, or the demand of loss_action among those of the couch (R167). -/
def State.unitPhase (s : State) (u : Nat) : State :=
  if !s.unitOn u || !s.fuMode u then s
  else
    let lost := s.phaseLost u
    let was := (s.unit u).phaseBad
    let s := s.setUnit u { s.unit u with phaseBad := lost }
    if !lost || was then s
    else if s.bit (F.FLD_CTL_limp_en u) then s.limpEnter u 1
    else s.unitDemandLater u (s.f (F.FLD_OBS_CFG_loss_action u)) 8 23

/-- The status record (R134). Where no ramp applies, in CURRENT and TORQUE mode, in a crash stop and outside RUN and RAMP, word 3
is the limited speed reference (R137, R164; log entry 111). A disabled unit writes no record (DESIGN CHOICE, log entry 131). -/
def State.unitMirror (s : State) (u : Nat) : State :=
  if !s.unitOn u || !s.bit (F.FLD_CTL_mirror_en u) then s
  else
    let x := s.unit u
    s.putWords (dataBase + 32 * s.fe (F.FLD_MIRROR_addr u))
      [s.reg (R.FLD_STS u), x.meas, x.ang,
       if s.bit (F.FLD_STS_crash u) || s.fe (F.FLD_CTL_ref_mode u) != 2 ||
           !(s.f (F.FLD_STS_state u) == 4 || s.f (F.FLD_STS_state u) == 5) then x.ref else x.ramp, x.vdPre, x.vqPre, x.tMot,
       x.tReg]

/-- In every state but RUN and RAMP, where `unitRun` takes it, the limited speed reference and the direction state of the curve
follow the command too (R134, R136, R156). -/
def State.refIdle (s : State) (u : Nat) : State :=
  let st := s.f (F.FLD_STS_state u)
  if st = 4 || st = 5 then s
  else let r := s.speedTarget u; r.2.setUnit u { r.2.unit u with ref := r.1 }

/-- Unit `u` at a couch, after the committed groups, the axes and load sharing. `alone` as in `crashStep`. -/
def State.unitCouch (s : State) (u : Nat) (alone : Bool) : State :=
  if !s.unitOn u then s
  else
    let lims := s.torqueLimits u
    let s := (s.setF (F.FLD_STS_fw_lim u) 0).setUnit u
      { s.unit u with vdPre := fZero, vqPre := fZero, tMot := lims.1, tReg := lims.2 }
    let s := (s.unitTransition u).crashStep u alone
    let s := ((s.refIdle u).unitRun u).unitSupervise u
    s.setUnit u { s.unit u with plan := s.pulsePlan u, runPrev := (tblGet (s.reg (R.FLD_REF5 u)) (s.unit u).ovr 5).toNat % 4 }

/-! ## Events of their own (R159, R160, R165, R166, R168) -/

/-- The locked-rotor timer of unit `u` has reached its window (R159). -/
def State.lrDue (s : State) (u : Nat) : Bool :=
  let x := s.unit u
  let win := s.f (F.FLD_LR_CFG_window u)
  s.unitOn u && win != 0 && !x.lrHeld && win * 10000000 ≤ x.lrTime

/-- The speed of unit `u` has been above the limit at two couches in a row (R160). -/
def State.ovsDue (s : State) (u : Nat) : Bool := s.unitOn u && (s.unit u).ovs == 2

/-- Flag `bit`, the event `src` and the demand of action `act` in class 8 among those of the couch (R159–R161). -/
def State.unitFault (s : State) (bit src act u : Nat) : State :=
  ((s.setF (flagBit u bit) 1).unitDemandLater u act 8 src).raise src 0 (scopeDrive u) (s.unitScopeLater u act 8)

/-- EV21 of unit `u` (R159). -/
def State.lrDemand (s : State) (u : Nat) : State := s.unitFault 1 21 (s.f (F.FLD_LR_CFG_action u)) u
/-- EV22 of unit `u` (R160). -/
def State.ovsDemand (s : State) (u : Nat) : State := s.unitFault 3 22 (s.f (F.FLD_OVS_CFG_action u)) u

/-- The demands that the watch of unit `u` has come to at a couch (R159, R160). -/
def State.unitFaults (s : State) (u : Nat) : State :=
  let s := if s.lrDue u then (s.setUnit u { s.unit u with lrHeld := true }).unlessTaken 2 u fun s => s.lrDemand u else s
  if s.ovsDue u then (s.setUnit u { s.unit u with ovs := 3 }).unlessTaken 3 u fun s => s.ovsDemand u else s

/-- Ride-through starts (R165). -/
def State.rideEnter (s : State) (u : Nat) : State :=
  let x := s.unit u
  if s.f (F.FLD_STS_state u) = 4 && !s.bit (F.FLD_STS_rt u) && 2 ≤ x.rtLow then
    (s.setF (F.FLD_STS_rt u) 1).setUnit u { x with rtZero := 0 }
  else s

/-- Ride-through ends, or fails below the floor (R166). -/
def State.rideEnd (s : State) (u : Nat) : State :=
  let x := s.unit u
  if !s.bit (F.FLD_STS_rt u) then s
  else if x.measOk && fLt (fAbs x.meas) (s.q15 (F.FLD_RT_CFG_floor u)) then (s.setF (flagBit u 7) 1).unitReady u
  else if 16 ≤ x.rtZero then
    (s.setF (F.FLD_STS_rt u) 0).setUnit u { x with xs := x.torque, ramp := x.meas, rtLow := 0, rtZero := 0 }
  else s

/-- A limp-home cause of unit `u` persists (R168). -/
def State.limpPersists (s : State) (u : Nat) : Bool :=
  let l := (s.unit u).limp
  (l % 2 == 1 && !s.portOk u) || (l / 2 % 2 == 1 && s.phaseLost u) ||
    (l / 4 % 2 == 1 && (match s.unitConv u with
      | some k => k < 2 && (List.range 6).any fun a => s.f (F.ARM_DERATE_factor (6 * k + a)) != 0x7FFF
      | none => false))

/-- A write of 1 to FLD_CMD.limp_clear (R168). -/
def State.limpClear (s : State) (u : Nat) : State :=
  if s.limpPersists u then s.setF (flagBit u 5) 1
  else (s.setF (F.FLD_STS_limp u) 0).setUnit u { s.unit u with limp := 0 }

/-! ## Meanings -/

/-- OBSERVER_UPDATE (R144). -/
def execObserverUpdate (n : Fin 8) (s : State) : Host.Outcome State Fault Refusal := onMain s fun s => s.obsUpdate n
/-- OBSERVER_VALID (R145). -/
def execObserverValid (n : Fin 8) (s : State) : Host.Outcome State Fault Refusal := onMain s fun s => s.obsValid n
/-- OBSERVER_LOSS (R145). -/
def execObserverLoss (n : Fin 8) (s : State) : Host.Outcome State Fault Refusal := onMain s fun s => s.obsLoss n
/-- FLD_ENABLE (R125). -/
def execFldEnable (n : Fin 8) (s : State) : Host.Outcome State Fault Refusal := onMain s fun s => s.fldEnable n
/-- FLD_DISABLE (R126). -/
def execFldDisable (n : Fin 8) (s : State) : Host.Outcome State Fault Refusal := onMain s fun s => s.fldDisable n
/-- TEST_PULSE (R147). -/
def execTestPulse (n : Fin 8) (s : State) : Host.Outcome State Fault Refusal := onMain s fun s => s.testPulse n
/-- MAGNETISE_DONE (R153). -/
def execMagnetiseDone (n : Fin 8) (s : State) : Host.Outcome State Fault Refusal := onMain s fun s => s.magnetiseDone n
/-- RIDE_THROUGH_ENTER (R165). -/
def execRideThroughEnter (n : Fin 8) (s : State) : Host.Outcome State Fault Refusal := onMain s fun s => s.rideEnter n
/-- RIDE_THROUGH_END (R166). -/
def execRideThroughEnd (n : Fin 8) (s : State) : Host.Outcome State Fault Refusal := onMain s fun s => s.rideEnd n
/-- LIMP_CLEAR (R168). -/
def execLimpClear (n : Fin 8) (s : State) : Host.Outcome State Fault Refusal := onMain s fun s => s.limpClear n

end Sys2Proof.Machine
end

