-- ==== Sys2Proof/Machine/Protect.lean ====
section
/-! DEFINITION. Power-stage protection (09_protection.md): driver fault inputs, readiness, fast over-current, OV2, trip
inputs, the DC-link governor, the brake choppers, enabling, releasing and requests. -/

namespace Sys2Proof.Machine

/-! ## Causes that persist (R258) -/

/-- Legs of the bridge of converter `k`. -/
def State.convLegs (s : State) (k : Nat) : List Nat := if k < 2 then [] else s.bridgeLegs (k - 2)

/-- The arms of converter CVv are 6v to 6v + 5 (R112). -/
def convArms (k : Nat) : List Nat := if k < 2 then (List.range 6).map (6 * k + ·) else []

/-- Cell `c` belongs to ARM `a`. -/
def State.cellArm (s : State) (c a : Nat) : Bool := s.bit (F.ARM_CELL_CFG_mapped c) && s.f (F.ARM_CELL_CFG_arm c) == a

/-- Lane `l` carries a cell of ARM `a`. -/
def State.laneArm (s : State) (l a : Nat) : Bool := (List.range 24).any fun p => s.cellArm (24 * l + p) a

/-- fast_act of channel `n`. -/
def State.fastAct (s : State) (n : Nat) : Bool := s.bit (F.SNS_SD_STS_fast_act n)

/-- The converter on which an over-current of channel `n` falls, by its role (R265). -/
def State.ocConv (s : State) (n : Nat) : Option Nat :=
  if !s.sdOn n then none
  else
    let role := s.fe (F.SNS_SD_MAP_role n)
    if role = 4 then some (s.fe (F.SNS_SD_MAP_arm n) / 6)
    else if 1 ≤ role && role ≤ 3 then s.unitConv (s.fe (F.SNS_SD_MAP_drive n)) else none

/-- Channel `n` is the DC-link channel of converter `k` with OV2 enabled (R270). -/
def State.dcChannel (s : State) (k n : Nat) : Bool :=
  s.convExists k && s.bit (F.PROT_CV_CTL_en k) && s.bitE (F.PROT_CV_DC_ov2_en k) && s.fe (F.PROT_CV_DC_sd_ch k) == n

/-- A Q3.13 level of a converter as a value. -/
def State.level (s : State) (x : Fld) : F32 := fOfQ 16 13 (s.f x)

/-- PROT_CVk_STS.persist: bits 0–6 for classes 1, 2, 3, 4, 5, 7, 10, bit 7 a diagnosis that runs (R258). The inactive net counts
for an enabled converter: to another it applies no class 1 (R252), and the field resets to 0x40 (R282; log entry 124). -/
def State.persist (s : State) (k : Nat) : Nat :=
  let b0 := (s.bit (F.PROT_CV_CTL_en k) && !s.gateNet) || (s.conv k).ss1
  let b1 := 2 ≤ k && ((s.f F.PROT_DRDY_STS_lat).testBit (k - 2) || (s.convLegs k).any fun n => s.bit (F.PROT_GF_lat n))
  let b2 := (List.range 40).any fun n => s.fastAct n && s.ocConv n == some k
  let uv := s.bit (F.PROT_CV_STS_uv_armed k) &&
    (fIsNan (s.conv k).vdc || fLt (s.conv k).vdc (s.level (F.PROT_CV_DC_uv k)))
  let b3 := ((List.range 40).any fun n => s.dcChannel k n && s.fastAct n) || uv
  let b4 := (List.range 8).any fun m => (s.f F.PROT_TRIP_STS_latched).testBit m && (s.f (F.PROT_TRIP_CFG_mask m)).testBit k
  let b5 := (convArms k).any fun a => s.bit (F.ARM_STS_tripped a) ||
    (List.range 16).any fun l => s.f (F.KYN_LANE_STS_state l) == 5 && s.laneArm l a
  let us := s.boundUnits k
  let halted := (List.range 64).any fun c => s.f (F.CTX_STS_state c) == 2 &&
    us.any fun u => (s.f (F.CTX_SAFE_DRIVES_drives c)).testBit u
  let axis := (List.range 8).any fun m => s.bit (F.MOT_STS_hl_latched m) && s.f (F.MOT_SW_action m) != 0 &&
    us.contains (s.fe (F.MOT_BIND_unit m))
  let b6 := !s.bit (F.PROT_CV_CTL_en k) || halted || axis || s.sec.wdFired
  let b7 := s.bit F.PROT_DIAG_STS_busy && s.prot.diag.conv == k
  b0.toNat + 2 * b1.toNat + 4 * b2.toNat + 8 * b3.toNat + 16 * b4.toNat + 32 * b5.toNat + 64 * b6.toNat + 128 * b7.toNat

/-! ## Enable, disable, release, requests (R252, R257, R258) -/

/-- The enable check of PROT_CVk_CTL that fails first: 1 ABSENT, 2 DRIVE, 3 LEVELS, 4 CHANNEL (R282). -/
def State.protCheck (s : State) (k : Nat) : Nat :=
  let uv := s.fi (F.PROT_CV_DC_uv k)
  let arm := s.fi (F.PROT_CV_CTL_uv_arm k)
  let ov1 := s.fi (F.PROT_CV_LVL_ov1 k)
  let top := s.fi (F.PROT_CV_LVL_ov1_top k)
  let ch := s.f (F.PROT_CV_DC_sd_ch k)
  if !s.convExists k then 1
  else if s.part.lanes ≤ s.f (F.PROT_CV_DC_drive k) then 2
  else if !(uv < arm && arm ≤ ov1 && ov1 < top) then 3
  else if s.bit (F.PROT_CV_DC_ov2_en k) &&
      (39 < ch || !s.sdOn ch || s.fe (F.SNS_SD_MAP_role ch) != 0 || !s.bit (F.SNS_SD_FAST_fast_en ch)) then 4
  else 0

/-- A write of 1 to PROT_CVk_CTL.en: the checks of `error`, then protection is enabled in PULSE_BLOCK (R252); while the net is
inactive, the PULSE_BLOCK of class 1 applies to the converter (R255). -/
def State.protEnable (s : State) (k : Nat) : State :=
  if s.bit (F.PROT_CV_CTL_en k) then s
  else
    let e := s.protCheck k
    let s := s.setF (F.PROT_CV_STS_error k) e
    if e != 0 then s
    else
      let s := (s.takeInForce (R.PROT_CV_CTL k) (R.PROT_CV_CTL k + 4)).takeInForce (R.PROT_CV_DC k) (R.PROT_CV_DC k + 4)
      let s := (((s.setF (F.PROT_CV_CTL_en k) 1).setF (F.PROT_CV_STS_enabled k) 1).setF (F.PROT_CV_STS_uv_armed k) 0).setF
        (F.PROT_CV_STS_ov1 k) 0
      let s := s.setConv k { s.conv k with uvLow := 0, vdcBad := 0, release := false }
      if s.gateNet then s else s.demand k 1 1 0

/-- A write of 0 to PROT_CVk_CTL.en: PULSE_BLOCK of class 10 at once (R252). -/
def State.protDisable (s : State) (k : Nat) : State :=
  if !s.bit (F.PROT_CV_CTL_en k) then s
  else
    let ch := s.f (F.PROT_CV_STS_state k) != 1 || s.f (F.PROT_CV_STS_class k) != 10
    let s := s.histLog k 10 1 0 ch
    let s := if ch then s.convEnter k 10 1 else s.incSat (F.PROT_CV_CNT_logged k)
    let s := (s.setF (F.PROT_CV_CTL_en k) 0).setF (F.PROT_CV_STS_enabled k) 0
    s.setConv k { s.conv k with release := false }

/-- A write of 1 to PROT_CVk_CMD.release (R258). -/
def State.release (s : State) (k : Nat) : State :=
  if s.bit (F.PROT_CV_CTL_en k) && s.f (F.PROT_CV_STS_state k) != 0 && s.persist k == 0 then
    s.setConv k { s.conv k with release := true }
  else s.setF (F.PROT_CV_STS_release_rejected k) 1

/-- An accepted release takes effect at the couch: NONE, and the legs that GF held leave rank 2 where their latch is clear
(R258, R260, R261). A demand applied since its acceptance has voided it. -/
def State.releaseAtCouch (s : State) (k : Nat) : State :=
  if !(s.conv k).release then s
  else
    let s := ((s.setF (F.PROT_CV_STS_state k) 0).setF (F.PROT_CV_STS_class k) 0).setF (F.PROT_CV_STS_no_asc k) 0
    let s := s.setConv k { s.conv k with release := false, gfAt := none }
    let s := (s.convLegs k).foldl (fun s n =>
      if s.bit (F.PROT_GF_lat n) then s else s.setLeg n { s.leg n with held := false }) s
    s.allLegs

/-- A write of PROT_CVk_CMD.req: a host request of class 10 for states 1–4, at the next couch (R255, R257). -/
def State.hostRequest (s : State) (k req : Nat) : State :=
  if 1 ≤ req && req ≤ 4 then s.demandLater k 10 req 0 s.scopeDev else s

/-! ## GF (R259–R261) -/

/-- A configured deckle value of drive `u` (R437): zero until DECKLE_CONFIG has written it. -/
def State.configuredDeckle (s : State) (u q : Nat) : Nat := tblGet 0 s.eng.configured (8 * u + q)

/-- The factor of DERATE, Q1.15, applied to configured deckle quantity `q` of drive `u` (R261): round(raw × derate / 32,768). A
negative factor leaves a quantity that is a magnitude nothing (log entry 125). -/
def State.deratedRaw (s : State) (u q : Nat) (derate : Int) : Nat :=
  (roundEven ((s.configuredDeckle u q : Int) * derate) 32768).toNat

/-- The keeper narrows quantity `q` of drive `u` to `v` at the next couch (R42, R60). -/
def State.narrow (s : State) (u q v : Nat) : State :=
  { s with eng := { s.eng with deckleWr := s.eng.deckleWr ++ [⟨u, q, v, true⟩] } }

/-- The keeper narrows power_mot_max, power_reg_max and current_max of drive `u` at the next couch (R261, numbered as
R97 numbers them). -/
def State.gfDerate (s : State) (k u : Nat) : State :=
  let d := s.fi (F.PROT_CV_POL2_derate k)
  [4, 5, 6].foldl (fun s q =>
    ({ s with eng := { s.eng with cap := tblSet s.eng.cap (8 * u + q) d.toNat } }).narrow u q (s.deratedRaw u q d)) s

/-- R261's rule for two legs changes converter `k`: unless a class 1 state or the PULSE_BLOCK of class 2 is in force. -/
def State.twoLegsChange (s : State) (k : Nat) : Bool :=
  s.bit (F.PROT_CV_CTL_en k) && (s.f (F.PROT_CV_STS_state k) == 0 || 2 ≤ s.f (F.PROT_CV_STS_class k)) &&
    !(s.f (F.PROT_CV_STS_state k) == 1 && s.f (F.PROT_CV_STS_class k) == 2)

/-- The class 2 demand of R261's rule for two legs: PULSE_BLOCK whatever class 2 state is in force. -/
def State.twoLegs (s : State) (k : Nat) : State :=
  let ch := s.twoLegsChange k
  let s := ((s.histLog k 2 1 2 ch).setF (F.PROT_CV_STS_no_asc k) 1).diagStop k 2
  if ch then s.convEnter k 2 1 else s.incSat (F.PROT_CV_CNT_logged k)

/-- The legs among `ls` whose outputs differ between `s` and `t`. -/
def State.legsChanged (s t : State) (ls : List Nat) : List Nat :=
  ls.filter fun n => (s.leg n).oh != (t.leg n).oh || (s.leg n).ol != (t.leg n).ol

/-- The lowest element that contains the changed legs `ls` of bridge `b` (R17): none, the leg, the direct phase, or the bridge. -/
def State.legsScope (s : State) (b : Option Nat) : List Nat → Word
  | [] => scopeNone
  | [n] => scopeWord 2 n
  | n :: rest =>
    if rest.all (s.legPair n).contains then scopeWord 3 (0x100 + (s.legPair n).headD n)
    else match b with | some b => scopeConv (b + 2) | none => scopeWord 2 n

/-- A detected GF fault of leg `n` (R260, R261); `atEnd` when it was detected at the end of blanking. -/
def State.gfDetect (s : State) (n : Nat) (atEnd : Bool) : State :=
  let before := s
  let s := (s.setF (F.PROT_GF_lat n) 1).incSat (F.PROT_GF_CNT_faults n)
  let s := if atEnd then s.incSat (F.PROT_GF_CNT_at_blank_end n) else s
  let s := (s.setLeg n { s.leg n with held := true }).legsApply (s.legPair n)
  let legScope := scopeWord 2 n
  let own := s.legsScope (s.legBridge n) (before.legsChanged s (s.legPair n))
  match s.legBridge n with
  | none => s.raise 2 0 legScope own
  | some b =>
    let k := b + 2
    let two := match (s.conv k).gfAt with
      | some (t, m) => m != n && s.now ≤ t + 10000
      | none => false
    if two then
      let sc := if s.twoLegsChange k then scopeConv k else own
      (s.twoLegs k).raise 2 0 legScope sc
    else
      let s := match (s.conv k).gfAt with
        | none => s.setConv k { s.conv k with gfAt := some (s.now, n) }
        | some (t, _) => if t + 10000 < s.now then s.setConv k { s.conv k with gfAt := some (s.now, n) } else s
      match s.f (F.PROT_CV_POL_sc_pol k) with
      | 0 => s.raise 2 0 legScope own
      | 1 =>
        let s := (s.boundUnits k).foldl (fun s u => s.gfDerate k u) s
        (s.setF (F.PROT_CV_STS_derated k) 1).raise 2 0 legScope own
      | _ =>
        let sc := if s.demandChanges k 2 then scopeConv k else own
        (s.demand k 2 (polState (s.f (F.PROT_CV_POL_sc_state k))) 2).raise 2 0 legScope sc

/-- Level `high` of the GF input of leg `n` is its active one (R259: pol 0 means active when low). -/
def State.gfIs (s : State) (n : Nat) (high : Bool) : Bool := high == s.bit (F.PROT_GF_pol n)

/-- The GF input of leg `n` has held its active level for `held` ns, or has left it (R259): it counts as active from filt × 4 ns
on, and is then a fault unless blanking runs. A level that has been a fault is no other one while it lasts. -/
def State.gfActive (s : State) (n : Nat) (active : Bool) (held : Nat) : State :=
  if !active then s.setF (F.PROT_GF_act n) 0
  else if held < 4 * s.f (F.PROT_GF_filt n) then s
  else
    let old := s.bit (F.PROT_GF_act n) && s.bit (F.PROT_GF_lat n)
    let s := s.setF (F.PROT_GF_act n) 1
    if s.bit (F.PROT_GF_en n) && !s.bit (F.PROT_GF_in_blank n) && !old then s.gfDetect n false else s

/-- Blanking of leg `n` ends with the filtered input at `active` (R259). -/
def State.gfBlankEnd (s : State) (n : Nat) (active : Bool) : State :=
  if !s.bit (F.PROT_GF_in_blank n) then s
  else
    let s := ((s.at (s.leg n).blankEnd).setF (F.PROT_GF_in_blank n) 0).setB (F.PROT_GF_act n) active
    if s.bit (F.PROT_GF_en n) && active then s.gfDetect n true else s

/-- A write of 1 to PROT_GFn.lat with the filtered input at `active` (R260). -/
def State.gfClear (s : State) (n : Nat) (active : Bool) : State :=
  let s := s.setB (F.PROT_GF_act n) active
  if active then s.setF (F.PROT_GF_clr_rej n) 1
  else
    let s := s.setF (F.PROT_GF_lat n) 0
    let free := match s.legBridge n with
      | none => true
      | some b => s.f (F.PROT_CV_STS_state (b + 2)) == 0
    if free then (s.setLeg n { s.leg n with held := false }).legsApply (s.legPair n) else s

/-! ## DRDY (R262) -/

/-- Level `high` of DRDYb means ready (R262: pol 0 means ready when high). -/
def State.drdyIs (s : State) (b : Nat) (high : Bool) : Bool := high != (s.f F.PROT_DRDY_CFG_pol).testBit b

/-- Readiness of bridge `b` is there, or has been lost for `held` ns (R262): a loss of more than filt × 4 ns latches,
once while it lasts. -/
def State.drdyLoss (s : State) (b : Nat) (ready : Bool) (held : Nat) : State :=
  if ready then s.setF ⟨R.PROT_DRDY_STS, b, 1⟩ 1
  else if held ≤ 4 * s.f F.PROT_DRDY_CFG_filt then s
  else if !(s.f F.PROT_DRDY_CFG_en).testBit b then s.setF ⟨R.PROT_DRDY_STS, b, 1⟩ 0
  else if !(s.f F.PROT_DRDY_STS_ready).testBit b && (s.f F.PROT_DRDY_STS_lat).testBit b then s
  else
    let s := s.setF ⟨R.PROT_DRDY_STS, b, 1⟩ 0
    let before := s
    let s := (s.setF ⟨R.PROT_DRDY_STS, 8 + b, 1⟩ 1).legsApply (s.bridgeLegs b)
    let sc := if s.demandChanges (b + 2) 2 then scopeConv (b + 2) else s.legsScope (some b) (before.legsChanged s (s.bridgeLegs b))
    (s.demand (b + 2) 2 1 15).raise 15 0 (scopeConv (b + 2)) sc

/-- A write of 1 to the DRDY latch of bridge `b`, with its readiness as filtered (R262). -/
def State.drdyClear (s : State) (b : Nat) (ready : Bool) : State :=
  let s := s.setF ⟨R.PROT_DRDY_STS, b, 1⟩ ready.toNat
  if ready then (s.setF ⟨R.PROT_DRDY_STS, 8 + b, 1⟩ 0).allLegs else s.setF ⟨R.PROT_DRDY_STS, 16 + b, 1⟩ 1

/-! ## Fast over-current and OV2 (R265, R270) -/

/-- OV2 of converter `k` (R270). -/
def State.ov2 (s : State) (k : Nat) : State :=
  let sc := s.demandScope k 4
  (s.demand k 4 (if s.bit (F.PROT_CV_STS_ov2_asc k) then 2 else 1) 4).raise 4 0 (scopeConv k) sc

/-- Channel `n`'s fast signal asserts, through its high comparator or its low one (R265). -/
def State.fastOc (s : State) (n : Nat) (high : Bool) : State :=
  if !(if high then (s.sd n).hi else (s.sd n).lo) then s
  else
    let role := s.fe (F.SNS_SD_MAP_role n)
    let ks := (List.range 8).filter fun k => s.dcChannel k n
    if role = 0 && !ks.isEmpty && high then ks.foldl State.ov2 s
    else
      let origin := if role = 4 then scopeWord 3 (s.fe (F.SNS_SD_MAP_arm n))
        else if 1 ≤ role && role ≤ 3 then scopeDrive (s.fe (F.SNS_SD_MAP_drive n)) else s.scopeDev
      match s.ocConv n with
      | none => s.raise 3 0 origin scopeNone
      | some k =>
        let sc := s.demandScope k 3
        (s.demand k 3 (polState (s.f (F.PROT_CV_POL_oc_state k))) 3).raise 3 0 origin sc

/-! ## Trip inputs (R266–R268) -/

/-- Level `high` of TRIPm is its active one (R266: pol 0 means active when low). -/
def State.tripIs (s : State) (m : Nat) (high : Bool) : Bool := high == s.bit (F.PROT_TRIP_CFG_pol m)

/-- The active ones among trip inputs at levels `high`, as a mask (R266). -/
def State.tripsAt (s : State) (high : BitVec 8) : Nat :=
  (List.range 8).foldl (fun a m => if s.tripIs m (high.getLsbD m) then a ||| 2 ^ m else a) 0

/-- The filter time of trip input `m` in ns: at least 50, at most 10,000 (R266). -/
def State.tripFilter (s : State) (m : Nat) : Nat := max 50 (min 10000 (s.f (F.PROT_TRIP_CFG_filter m)))

/-- The turn-ons pending in the legs of converter `k` are cancelled where a demand of class 5 for state `st`, other than
RAMP_DOWN, changes it (R267). -/
def State.tripCancel (st : Nat) (s : State) (k : Nat) : State :=
  if st != 4 && s.demandChanges k 5 then (s.convLegs k).foldl (fun s n => s.setLeg n { s.leg n with pend := none }) s else s

/-- Trip input `m` has held its active level for `held` ns, or has left it (R266): PROT_TRIP_STS.active shows the filtered
level, and an enabled input whose filter completes trips, once while the level lasts. -/
def State.trip (s : State) (m : Nat) (active : Bool) (held : Nat) : State :=
  if !active then s.setF ⟨R.PROT_TRIP_STS, m, 1⟩ 0
  else if held < s.tripFilter m then s
  else if !s.bit (F.PROT_TRIP_CFG_en m) then s.setF ⟨R.PROT_TRIP_STS, m, 1⟩ 1
  else if (s.f F.PROT_TRIP_STS_active).testBit m && (s.f F.PROT_TRIP_STS_latched).testBit m then s
  else
    let s := (s.setF ⟨R.PROT_TRIP_STS, m, 1⟩ 1).setF ⟨R.PROT_TRIP_STS, 8 + m, 1⟩ 1
    let s := s.incSat F.PROT_TRIP_CNT_count
    let act := s.f (F.PROT_TRIP_CFG_action m)
    if act = 0 then s.raiseDev 8 0
    else
      let ks := bitsOf 8 (s.f (F.PROT_TRIP_CFG_mask m))
      let sc := s.demandScopes ks 5
      let s := ks.foldl (State.tripCancel (polState4 act)) s
      (ks.foldl (fun s k => s.demand k 5 (polState4 act) 8) s).raise 8 0 s.scopeDev sc

/-- A write of `mask` to PROT_TRIP_CLR with the filtered inputs at `active` (R268). -/
def State.tripClear (s : State) (mask active : Nat) : State :=
  let s := s.setF F.PROT_TRIP_STS_active active
  let s := s.setF F.PROT_TRIP_STS_latched (s.f F.PROT_TRIP_STS_latched &&& (255 - (mask &&& (255 - active &&& 255))))
  s.setF F.PROT_TRIP_STS_clear_rejected (s.f F.PROT_TRIP_STS_clear_rejected ||| (mask &&& active))

/-! ## DC-link governor (R269, R270) -/

/-- A chopper fault holds for a chopper whose mask names converter `k` (R275). -/
def State.chopFaultFor (s : State) (k : Nat) : Bool :=
  (List.range 4).any fun n => s.bit (F.PROT_CHP_STS_fault n) && (s.f (F.PROT_CHP_CFG_mask n)).testBit k

/-- k_ov, Q1.15, for vdc and its two levels (R269). -/
def kOv (vdc ov1 top : F32) : Nat :=
  if fLe vdc ov1 then 0x7FFF
  else if fLe top vdc then 0
  else (fToQ 16 15 (fdiv (fsub top vdc) (fsub top ov1))).1

/-- ov2_asc as the governor computes it (R270). -/
def State.ov2AscNow (s : State) (k : Nat) : Bool :=
  let us := s.boundUnits k
  !us.isEmpty && !s.bit (F.PROT_CV_STS_no_asc k) && us.all s.aboveMin

/-- asc_ok as evaluated at a couch (R253). -/
def State.ascOkNow (s : State) (k : Nat) : Bool :=
  let us := s.boundUnits k
  !us.isEmpty && !s.bit (F.PROT_CV_STS_no_asc k) && us.all s.ascPermitted

/-- vdc of converter `k` at a couch: the headbox entry of its drive (R269). -/
def State.convVdc (s : State) (k : Nat) : F32 :=
  if s.running then s.hbWord (0x40 * s.fe (F.PROT_CV_DC_drive k) + 0x10) else s.idleVdc (s.fe (F.PROT_CV_DC_drive k))

/-- One decision of the governor of converter `k` with `vdc` (R269, R270): k_ov, OV1, arming, and the counts behind UV and
vdc_lost, whose demands `governFaults` makes. -/
def State.govern (s : State) (k : Nat) (vdc : F32) : State :=
  if !s.bit (F.PROT_CV_CTL_en k) then s
  else
    let x := s.conv k
    let ov1 := s.level (F.PROT_CV_LVL_ov1 k)
    let s := s.setB (F.PROT_CV_STS_ov2_asc k) (s.ov2AscNow k)
    if fIsNan vdc then
      let s := s.setF (F.PROT_CV_GOV_vdc k) 0x8000
      let s := if s.chopFaultFor k then s.setF (F.PROT_CV_GOV_kov k) 0 else s
      s.setConv k { x with vdcBad := x.vdcBad + 1, uvLow := 0, vdc := vdc }
    else
      let s := s.setF (F.PROT_CV_GOV_vdc k) (fToQ 16 13 vdc).1
      let s := s.setF (F.PROT_CV_GOV_kov k) (if s.chopFaultFor k then 0 else kOv vdc ov1 (s.level (F.PROT_CV_LVL_ov1_top k)))
      let above := fLt ov1 vdc
      let s := if above && !s.bit (F.PROT_CV_STS_ov1 k) then s.raise 5 0 (scopeConv k) scopeNone else s
      let s := s.setB (F.PROT_CV_STS_ov1 k) above
      let s := if fLe (fOfQ 16 13 (s.fe (F.PROT_CV_CTL_uv_arm k))) vdc then s.setF (F.PROT_CV_STS_uv_armed k) 1 else s
      let low := s.bit (F.PROT_CV_STS_uv_armed k) && fLt vdc (s.level (F.PROT_CV_DC_uv k))
      s.setConv k { s.conv k with vdcBad := 0, vdc := vdc, uvLow := if low then x.uvLow + 1 else 0 }

/-- EV6 of converter `k`, and uv_state in class 4: among the demands of the couch, or at once on the idle cycle (R269, R272). -/
def State.uvDemand (s : State) (later : Bool) (k : Nat) : State :=
  let st := polState (s.f (F.PROT_CV_POL_uv_state k))
  if later then (s.demandLater k 4 st 6 (scopeConv k)).raise 6 0 (scopeConv k) (s.demandScopesLater [k] 4)
  else (s.demand k 4 st 6).raise 6 0 (scopeConv k) (s.demandScope k 4)

/-- UV of converter `k`: vdc below uv at two consecutive couches while armed (R269). -/
def State.uvDue (s : State) (k : Nat) : Bool := s.bit (F.PROT_CV_CTL_en k) && 2 ≤ (s.conv k).uvLow

/-- vdc of converter `k` invalid at three consecutive couches (R269). -/
def State.lostDue (s : State) (k : Nat) : Bool := s.bit (F.PROT_CV_CTL_en k) && 3 ≤ (s.conv k).vdcBad

/-- vdc_lost, EV6 and the demand (R269). -/
def State.lostDemand (s : State) (later : Bool) (k : Nat) : State :=
  (s.setF (F.PROT_CV_STS_vdc_lost k) 1).uvDemand later k

/-- The demands that the counts of the governor of converter `k` have come to (R269). -/
def State.governFaults (later : Bool) (s : State) (k : Nat) : State :=
  let s := if s.uvDue k then (s.setConv k { s.conv k with uvLow := 0 }).unlessTaken 0 k fun s => s.uvDemand later k else s
  if s.lostDue k then (s.setConv k { s.conv k with vdcBad := 0 }).unlessTaken 1 k fun s => s.lostDemand later k else s

/-! ## Brake chopper (R271–R275, R197) -/

/-- Chopper `n`'s hidden state. -/
def State.chop (s : State) (n : Nat) : ChopSt := tblGet {} s.prot.chops n
/-- The state with chopper `n` as `x`. -/
def State.setChop (s : State) (n : Nat) (x : ChopSt) : State :=
  { s with prot := { s.prot with chops := tblSet s.prot.chops n x } }

/-- Scope word of chopper `n` (R16). -/
def scopeChop (n : Nat) : Word := scopeWord 2 (0x40 + n)

/-- PROT_CHPn_STS.on_us: the present on-interval of chopper `n` in µs (R274, R282). -/
def State.chopOnUs (s : State) (n : Nat) : Nat :=
  if s.bit (F.PROT_CHP_STS_on n) then min 0xFFFF ((s.now - (s.chop n).onAt) / 1000) else 0

/-- Chopper `n` goes off. -/
def State.chopOff (s : State) (n : Nat) : State :=
  if s.bit (F.PROT_CHP_STS_on n) then
    (s.setF (F.PROT_CHP_STS_on n) 0).setChop n { s.chop n with run := 0, vAsk := false }
  else s

/-- A chopper fault: held off at once, EV7 (R275). -/
def State.chopFault (s : State) (n : Nat) (eff : Bool) : State :=
  let was := s.bit (F.PROT_CHP_STS_on n)
  let s := ((s.chopOff n).setF (F.PROT_CHP_STS_fault n) 1).setF (if eff then F.PROT_CHP_STS_cause_eff n else F.PROT_CHP_STS_cause_cf n) 1
  s.raise 7 0 (scopeChop n) (if was then scopeChop n else scopeNone)

/-- One decision of chopper `n` (R271, R274); a debug halt keeps the level of its ball (R196, R197). -/
def State.chopDecide (s : State) (n : Nat) : State :=
  if s.eng.haltAt.isSome then s else
  let src := s.f (F.PROT_CHP_CFG_src n)
  let vdc := s.convVdc src
  let x := s.chop n
  let on := s.bit (F.PROT_CHP_STS_on n)
  if !s.bit (F.PROT_CHP_CFG_en n) || fIsNan vdc || !s.bit (F.PROT_CV_CTL_en src) || s.bit (F.PROT_CHP_STS_fault n) then
    let s := s.chopOff n
    if on then s else s.setChop n { x with run := x.run + 1 }
  else
    let lvl := fun (f : Nat → Fld) => fOfQ 16 13 (s.f (f n))
    if on then
      let x := if s.netOn then (if x.vAsk then { x with vStart := vdc, vAsk := false } else x)
        else { x with onAt := s.now, vAsk := true, checked := false }
      let fall := fOfU 10 (s.f (F.PROT_CHP_CFG_fall_min n))
      if x.onAt + 2000000 ≤ s.now && !x.checked && fGt vdc (fsub x.vStart fall) then s.chopFault n true
      else
        let x := { x with checked := x.checked || x.onAt + 2000000 ≤ s.now, run := x.run + 1 }
        let s := s.setChop n x
        if fLe vdc (lvl F.PROT_CHP_LVL_off) && s.f (F.PROT_CHP_CFG_min_on n) ≤ x.run then s.chopOff n else s
    else
      let x := { x with run := x.run + 1 }
      let s := s.setChop n x
      if fLe (lvl F.PROT_CHP_LVL_on) vdc && s.f (F.PROT_CHP_CFG_min_off n) ≤ x.run then
        (s.setF (F.PROT_CHP_STS_on n) 1).setChop n
          { x with run := 0, onAt := s.now, vStart := vdc, vAsk := false, checked := false, blankEnd := s.now + 2000 }
      else s

/-- Rank 1 takes or leaves the balls: every on-interval restarts (R274). Where it leaves them, a chopper that is commanded on
turns on at its ball, which starts the blanking of CFn (R273). -/
def State.chopRestart (s : State) : State :=
  (List.range 4).foldl (fun s n => if s.bit (F.PROT_CHP_STS_on n) then
    let x := s.chop n
    s.setChop n { x with onAt := s.now, vAsk := true, checked := false, blankEnd := if s.netOn then s.now + 2000 else x.blankEnd }
    else s) s

/-- Level `high` of CFn is its active one (R273: cf_pol 0 means active when low). -/
def State.cfIs (s : State) (n : Nat) (high : Bool) : Bool := high == s.bit (F.PROT_CHP_CFG_cf_pol n)

/-- The CF input of chopper `n` has held its active level for `held` ns, or has left it (R273): active from 40 ns on, and then a
chopper fault outside blanking, once while the level lasts. -/
def State.chopCf (s : State) (n : Nat) (active : Bool) (held : Nat) : State :=
  if !active then s.setChop n { s.chop n with cf := false }
  else if held < 40 then s
  else
    let old := (s.chop n).cf && s.bit (F.PROT_CHP_STS_cause_cf n)
    let s := s.setChop n { s.chop n with cf := true }
    if s.bit (F.PROT_CHP_CFG_cf_en n) && !old && (s.chop n).blankEnd ≤ s.now then s.chopFault n false else s

/-- A write of 1 to PROT_CHPn_STS.fault with the filtered CF input at `cf` (R275). -/
def State.chopClear (s : State) (n : Nat) (cf : Bool) : State :=
  let s := s.setChop n { s.chop n with cf := cf }
  if cf then s.setF (F.PROT_CHP_STS_clr_rej n) 1
  else ((s.setF (F.PROT_CHP_STS_fault n) 0).setF (F.PROT_CHP_STS_cause_cf n) 0).setF (F.PROT_CHP_STS_cause_eff n) 0

/-- Level of ball CHPn; `none` for high impedance (R190, R197, R271). -/
def State.chopBall (s : State) (n : Nat) : Option Bool :=
  if !s.netOn || s.pwr.mainRst then none
  else some (s.bit (F.PROT_CHP_STS_on n) != s.bit (F.PROT_CHP_CFG_pol n))

/-! ## RAMP_DOWN and FAULT_N (R254, R280) -/

/-- RAMP_DOWN of converter `k` ends in PULSE_BLOCK of the same class. -/
def State.rampEnd (s : State) (k : Nat) : State :=
  let s := s.setF (F.PROT_CV_STS_state k) 1
  ((s.boundUnits k).foldl (State.unitSafe 1 false) s).allLegs

/-- RAMP_DOWN not ended within ramp_max × 100 ms (R254). -/
def State.rampTimeout (s : State) (k : Nat) : State :=
  let m := s.f (F.PROT_CV_POL2_ramp_max k)
  if s.f (F.PROT_CV_STS_state k) = 4 && m != 0 then
    (((s.at ((s.conv k).rampAt + m * 100000000)).setF (F.PROT_CV_STS_ramp_timeout k) 1)).rampEnd k
  else s

/-- The short circuit of unit `u` in SAFE has to end (R163): below min_speed where it was entered above it; on a change of
run_req where it was entered at or below still_band, or while there is no valid speed. -/
def State.ascEnds (s : State) (u : Nat) : Bool :=
  let x := s.unit u
  let run := fun (r : Nat) => if r % 4 = 2 then 1 else r % 4
  s.f (F.FLD_STS_state u) == 6 &&
    (if x.ascAbove && x.measOk then !s.aboveMin u
     else run (tblGet (s.reg (R.FLD_REF5 u)) x.ovr 5).toNat != run x.runPrev)

/-- At a couch: RAMP_DOWN whose units all stand still with a ramp value of 0 ends (R254). -/
def State.rampCouch (s : State) (k : Nat) : State :=
  if s.f (F.PROT_CV_STS_state k) = 4 && (s.boundUnits k).all (fun u => s.still u && fEq (s.unit u).ramp fZero) then s.rampEnd k
  else s

/-- At a couch: an ASC that has to end by R163, with the run_req that this couch gives, becomes PULSE_BLOCK of the same class
(R253). -/
def State.ascCouch (s : State) (k : Nat) : State :=
  let st := s.f (F.PROT_CV_STS_state k)
  if (st = 2 || st = 3) && (s.boundUnits k).any s.ascEnds then s.rampEnd k else s

/-- FAULT_N is driven low (R280). -/
def State.faultN (s : State) : Bool :=
  s.bit F.PROT_CTL_fault_n_en && (List.range 8).any fun k =>
    s.bit (F.PROT_CV_CTL_en k) && s.f (F.PROT_CV_STS_state k) != 0 && s.f (F.PROT_CV_STS_class k) ≤ 8

/-! ## Meanings -/

/-- GF_FAULT (R260). -/
def execGfFault (n : InputLevel 18) (s : State) : Host.Outcome State Fault Refusal :=
  onMain s fun s => s.gfActive n.n (s.gfIs n.n n.high) n.held
/-- GF_BLANKING_END (R259). -/
def execGfBlankingEnd (n : Fin 18) (high : Bool) (s : State) : Host.Outcome State Fault Refusal :=
  onMain s fun s => s.gfBlankEnd n (s.gfIs n high)
/-- GF_CLEAR (R260). -/
def execGfClear (n : Fin 18) (high : Bool) (s : State) : Host.Outcome State Fault Refusal :=
  onMain s fun s => s.gfClear n (s.gfIs n high)
/-- DRDY_LOSS (R262). -/
def execDrdyLoss (b : InputLevel 6) (s : State) : Host.Outcome State Fault Refusal :=
  onMain s fun s => s.drdyLoss b.n (s.drdyIs b.n b.high) b.held
/-- DRDY_CLEAR (R262). -/
def execDrdyClear (b : Fin 6) (high : Bool) (s : State) : Host.Outcome State Fault Refusal :=
  onMain s fun s => s.drdyClear b (s.drdyIs b high)
/-- FAST_OVERCURRENT (R265): 24 ns after the latching edge (R107). -/
def execFastOvercurrent (ch : Fin 40) (high : Bool) (s : State) : Host.Outcome State Fault Refusal :=
  onMain s fun s => (s.at ((s.sd ch).nextAt + 23)).fastOc ch high
/-- OV2_DETECT (R270). -/
def execOv2Detect (k : Fin 8) (s : State) : Host.Outcome State Fault Refusal :=
  onMain s fun s =>
    if s.dcChannel k (s.fe (F.PROT_CV_DC_sd_ch k)) && (s.sd (s.fe (F.PROT_CV_DC_sd_ch k))).hi then s.ov2 k else s
/-- TRIP_INPUT (R266). -/
def execTripInput (m : InputLevel 8) (s : State) : Host.Outcome State Fault Refusal :=
  onMain s fun s => s.trip m.n (s.tripIs m.n m.high) m.held
/-- TRIP_CLEAR (R268). -/
def execTripClear (mask high : BitVec 8) (s : State) : Host.Outcome State Fault Refusal :=
  onMain s fun s => s.tripClear mask.toNat (s.tripsAt high)
/-- CHOPPER_DECISION (R271): 100 ns after headbox ready. -/
def execChopperDecision (s : State) : Host.Outcome State Fault Refusal :=
  onMain s fun s => if s.running then (List.range 4).foldl State.chopDecide (s.at (s.tm.start + 1600)) else s
/-- GOVERNOR_IDLE_DECISION (R272): 100 ns after a SAR sequence, while the tick is stopped. -/
def execGovernorIdleDecision (s : State) : Host.Outcome State Fault Refusal :=
  onMain s fun s =>
    if s.running then s
    else
      let s := s.at (s.now + 100)
      let s := (List.range 4).foldl State.chopDecide s
      let s := (List.range 8).foldl (fun s k => s.govern k (s.convVdc k)) s
      (List.range 8).foldl (State.governFaults false) s
/-- CHOPPER_CF_FAULT (R273). -/
def execChopperCfFault (n : InputLevel 4) (s : State) : Host.Outcome State Fault Refusal :=
  onMain s fun s => s.chopCf n.n (s.cfIs n.n n.high) n.held
/-- CHOPPER_FAULT_CLEAR (R275). -/
def execChopperFaultClear (n : Fin 4) (high : Bool) (s : State) : Host.Outcome State Fault Refusal :=
  onMain s fun s => s.chopClear n (s.cfIs n high)
/-- PROT_ENABLE (R252). -/
def execProtEnable (k : Fin 8) (s : State) : Host.Outcome State Fault Refusal := onMain s fun s => s.protEnable k
/-- PROT_DISABLE (R252). -/
def execProtDisable (k : Fin 8) (s : State) : Host.Outcome State Fault Refusal := onMain s fun s => s.protDisable k
/-- RELEASE (R258). -/
def execRelease (k : Fin 8) (s : State) : Host.Outcome State Fault Refusal := onMain s fun s => s.release k
/-- HOST_REQUEST (R257). -/
def execHostRequest (k : Fin 8) (req : BitVec 3) (s : State) : Host.Outcome State Fault Refusal :=
  onMain s fun s => s.hostRequest k req.toNat
/-- RAMP_TIMEOUT (R254). -/
def execRampTimeout (k : Fin 8) (s : State) : Host.Outcome State Fault Refusal := onMain s fun s => s.rampTimeout k

end Sys2Proof.Machine
end

