-- ==== Sys2Proof/Machine/Engine.lean ====
section
/-! DEFINITION. The engine between its instructions: scrubber and tile rewrites (R49–R52, R502, R504), the commit groups
at the couch with streaks and halts (R53–R57, R63, R64), the deckle (R60, R61), and the keeper services (R65, R66). -/

namespace Sys2Proof.Machine

/-! ## Tiles (R49, R51, R52, R502, R504) -/

/-- The access phase (R429): 0 START, 1 SERVICE, 2 TEST, 3 RECOVERY. -/
def State.phase (s : State) : Nat := s.f F.DEV_LOCK_STS_phase

/-- The scrubber's next check: a quarantined tile is passed over, a mismatch is a watermark failure (R49, R51). -/
def State.scrubCheck (s : State) : State :=
  if !s.eng.scrub then s
  else
    let t := s.eng.scrubTile
    let s := (s.at (s.eng.scrubAt + t * 100000000 / 3072)).setF F.TILE_SCRUB_STS_position t
    let s := if s.quarantined t || s.wmOk t then s else s.wmFail t 2
    if t = 3071 then
      { s.incWrap F.TILE_SCRUB_CNT_passes with
        eng := { s.eng with scrubTile := 0, scrubAt := s.eng.scrubAt + 100000000 } }
    else { s with eng := { s.eng with scrubTile := t + 1 } }

/-- The keeper begins to re-fetch the program tile that has been quarantined longest; none in RECOVERY (R502). -/
def State.tileRefetch (s : State) : State :=
  if s.eng.refetch.isSome || s.phase == 3 then s
  else match s.eng.quar.find? fun t => t < 2048 && !s.eng.stuck.contains t with
    | some t => { s with eng := { s.eng with refetch := some t } }
    | none => s

/-- A host write into the table window: its tile enters quarantine and takes the bytes (R52, R494). -/
def State.tableWrite (s : State) (off : Nat) (be : BitVec 4) (val : Word) : State :=
  (s.quarantine (2048 + off / 1024)).putBytes (tableBase + off / 4 * 4) val be

/-- A write into the program window: a host's only in START, TEST and RECOVERY; no watermark and no quarantine changes
(R494, R504). -/
def State.programWrite (s : State) (m : Master) (off : Nat) (be : BitVec 4) (val : Word) : State :=
  if m = .keeper || s.phase != 1 then s.putBytes (progBase + off / 4 * 4) val be else s

/-- The host commits a rewritten table tile: the keeper has its CRC to check (R52). -/
def State.wmCommit (s : State) (t : Nat) : State :=
  ({ s with eng := { s.eng with checking := s.eng.checking ++ [(t, s.reg R.TILE_WM_VALUE)] } }).setF F.TILE_WM_STS_busy 1

/-- The keeper's check of the oldest committed rewrite ends (R51, R52). -/
def State.wmCheckDone (s : State) : State :=
  match s.eng.checking with
  | [] => s
  | (t, v) :: rest =>
    let s := ({ s with eng := { s.eng with checking := rest } }).setF F.TILE_WM_STS_busy (!rest.isEmpty).toNat
    if s.tileCrc (2048 + t) = v then
      ({ s with eng := { s.eng with wm := tblSet s.eng.wm (2048 + t) v } }).unquarantine (2048 + t)
    else (s.setF F.TILE_WM_STS_mismatch 1).wmFail (2048 + t) 3

/-! ## Contexts between ticks (R53, R64, R65) -/

/-- Context `c` halts with `cause`, the event source of its demand being `src` (R64, R65). -/
def State.ctxHalt (s : State) (c cause src : Nat) : State :=
  ((s.setF (F.CTX_STS_state c) 2).setF (F.CTX_STS_halt_cause c) cause).haltDemand c src

/-- Context `c` at the end of a tick: CTX_CYC_LAST and CYC_MAX (R68). -/
def State.ctxCycles (s : State) (c : Nat) : State :=
  let n := (s.ctx c).cyc
  (s.setF (F.CTX_CYC_LAST_cyc_last c) n).maxF (F.CTX_CYC_MAX_cyc_max c) n

/-- Context `c` at the start of a tick: a served HALT_SELF and an accepted restart act, which clears halt_cause (log entry 99),
and its group opens (R53, R64, R65). -/
def State.ctxTick (s : State) (c : Nat) : State :=
  let x := s.ctx c
  let st := s.f (F.CTX_STS_state c)
  let s := if x.haltNext && st == 1 then s.ctxHalt c 0 0
    else if x.resumeNext && st == 2 then
      ((s.setF (F.CTX_STS_state c) 1).setF (F.CTX_STS_streak c) 0).setF (F.CTX_STS_halt_cause c) 0
    else s
  s.setCtx c {}

/-- Lane `n` at the end of a tick: ENG_LANE_CYC_LAST and CYC_MAX (R68). -/
def State.laneCycles (s : State) (n : Nat) : State :=
  (s.setF (F.ENG_LANE_CYC_LAST_cyc_last n) (s.core n).endCyc).maxF (F.ENG_LANE_CYC_MAX_cyc_max n) (s.core n).endCyc

/-- The contexts CX1 to CX63 that have a slice in the schedule. -/
def State.liveCtxs (s : State) : List Nat := ((List.range 64).drop 1).filter fun c => s.f (F.CTX_STS_state c) != 0

/-- The engine at the end of a tick: the cycles used in it become visible. -/
def State.engEnd (s : State) : State :=
  s.liveCtxs.foldl State.ctxCycles ((List.range 8).foldl State.laneCycles s)

/-- The engine at a tick start. -/
def State.engTick (s : State) : State :=
  s.liveCtxs.foldl State.ctxTick
    ((List.range 8).foldl (fun s n => s.setCore n { s.core n with endCyc := 0, done := [] }) s)

/-- A drive is disabled or in a safe state, RAMP_DOWN among them (R28, R64, R251). -/
def State.driveSafe (s : State) (u : Nat) : Bool :=
  let st := s.f (F.FLD_STS_state u)
  st == 0 || st == 6 || (st == 5 && s.f (F.FLD_STS_safe_state u) == 4)

/-- A write of 1 to CTX_CTL.restart of context `c` (R64); a context that is not halted takes no notice. -/
def State.ctxRestart (s : State) (c : Nat) : State :=
  if s.f (F.CTX_STS_state c) != 2 then s
  else if (bitsOf 8 (s.f (F.CTX_SAFE_DRIVES_drives c))).all s.driveSafe then s.setCtx c { s.ctx c with resumeNext := true }
  else s.setF (F.CTX_STS_restart_rejected c) 1

/-! ## The couch of the engine (R53–R57, R63) -/

/-- One felt entry takes effect: a target word and its bits (R54, R95, R170, R179, R191, R230). A motion target is
held by its register; SHARE values are held in the exchange blocks. -/
def State.commitTarget (s : State) (t w : Word) : State :=
  let i := getBits t 16 8
  let f := getBits t 0 16
  match getBits t 24 8 with
  | 1 => if f < 3 then s.commitRef i (R.MOD_DUTY i f) w else s.commitRef i (R.MOD_CMP i (f - 4)) w
  | 2 => s.setF (F.ARM_REF_level i) w.toNat
  | 3 => if f < 5 then s.setF (F.FLD_REF_value i f) w.toNat else s.setReg (R.FLD_REF5 i) w
  | 4 => s.setF (F.FLD_LIM_value i f) w.toNat
  | 5 => s.setReg (R.MOT_TGT0 i + 4 * f) w
  | 6 => s.commitGate i f w.toNat
  | 7 => s.putWord (shareAt i f) w
  | _ => s

/-- Context `c` at the couch: an unclosed group is discarded (R56); a closed one takes effect in program order and is
counted; a discard counts in the streak, and at 3 the context halts (R53, R63, R64). -/
def State.ctxCouch (s : State) (c : Nat) : State :=
  if s.f (F.CTX_STS_state c) != 1 then s
  else
    let s := if (s.ctx c).group = .opened then s.discard c 1 0 else s
    let x := s.ctx c
    if x.group = .committed then
      let s := x.felt.foldl (fun s e => s.commitTarget e.1 e.2) s
      (s.incSat (F.CTX_COMMIT_CNT_commit_cnt c)).setF (F.CTX_STS_streak c) 0
    else
      let s := s.incSat (F.CTX_ABORT_CNT_abort_cnt c)
      if x.cause = 3 then s
      else
        let k := min 3 (s.f (F.CTX_STS_streak c) + 1)
        let s := s.setF (F.CTX_STS_streak c) k
        if k = 3 then s.ctxHalt c x.cause 17 else s

/-- The commit groups of the tick (R53): slices that have not ended are stopped by their budget, which ends before the
couch (R46), and every context's group commits or is discarded. -/
def State.groupsCouch (s : State) : State :=
  (List.range 63).foldl (fun s c => s.ctxCouch (c + 1)) s

/-! ## The deckle (R60, R61, R437) -/

/-- Arms of converter `k` that hold a deckle of its drive down: (A, A_cfg) of each enabled arm (R245). -/
def State.armRatios (s : State) (k : Nat) : List (Nat × Nat) :=
  ((convArms k).filter fun a => s.bit (F.ARM_STS_enabled a)).map fun a => (s.f (F.ARM_STS_active a), s.fe (F.ARM_CFG_active a))

/-- The smallest of a list of ratios, none where the list is empty. -/
def leastRatio (rs : List (Nat × Nat)) : Option (Nat × Nat) :=
  rs.foldl (fun b r => match b with
    | none => some r
    | some m => if r.1 * m.2 < m.1 * r.2 then some r else b) none

/-- Configured value `q` of drive `u` scaled by the arm with the smallest A / A_cfg of its converter (R245). -/
def State.armCap (s : State) (u q : Nat) : Option Nat :=
  if !([0, 1, 4, 5].contains q) then none
  else match s.unitConv u with
    | none => none
    | some k => (leastRatio (s.armRatios k)).map fun r =>
      (roundEven ((s.configuredDeckle u q : Nat) * r.1 : Nat) (max 1 r.2)).toNat

/-- Configured value `q` of drive `u`, capped by arm derating (R65, R245). -/
def State.restored (s : State) (u q : Nat) : Nat :=
  match s.armCap u q with
  | some v => min v (s.configuredDeckle u q)
  | none => s.configuredDeckle u q

/-- The same, capped by driver-fault derating as well (R437). -/
def State.configuredCapped (s : State) (u q : Nat) : Nat :=
  match tblFind s.eng.cap (8 * u + q) with
  | some d => min (s.deratedRaw u q d) (s.restored u q)
  | none => s.restored u q

/-- A deckle write of the keeper: it acts at the next couch (R42, R60). -/
def State.deckleWrite (s : State) (u q v : Nat) : State :=
  { s with eng := { s.eng with deckleWr := s.eng.deckleWr ++ [⟨u, q, v, false⟩] } }

/-- The keeper's narrowing of the drives bound to converter `k` for its derated arms (R245). -/
def State.armNarrow (s : State) (k : Nat) : State :=
  (s.boundUnits k).foldl (fun s u => [0, 1, 4, 5].foldl (fun s q =>
    match s.armCap u q with | some v => s.narrow u q v | none => s) s) s

/-- The deckle after the writes `ws`; a narrowing never raises a value. -/
def State.deckApply (s : State) (ws : List DeckleWr) : State :=
  ws.foldl (fun s w =>
    let x := F.FLD_DECK_value w.drive w.qty
    if w.narrow && s.fi x ≤ signed 16 w.value then s else s.setF x w.value) s

/-- The keeper's deckle writes act (R42, R60). The second state holds the deckle as it would stand without the
narrowings of this couch. -/
def State.deckCouch (s : State) : State × State :=
  let ws := s.eng.deckleWr
  let s := { s with eng := { s.eng with deckleWr := [] } }
  (s.deckApply ws, s.deckApply (ws.filter fun w => !w.narrow))

/-! ## Keeper services (R65, R66) -/

/-- The oldest request is complete: result, status and the two words at the service result address. -/
def State.svcDone (s : State) (r : SvcReq) (status : Nat) (result : Word) : State :=
  let s := { s with eng := { s.eng with svcQ := s.eng.svcQ.tail } }
  let s := (s.setReg (R.CTX_SVC_RESULT r.ctx) result).setF (F.CTX_SVC_STS_status r.ctx) status
  match (s.eng.sched.getD {}).svcAddr.find? fun e => e.1 == r.ctx with
  | some (_, a) =>
    (s.putWord (dataBase + a) result).putWord (dataBase + a + 4)
      (BitVec.ofNat 32 (status + r.svc * 0x100 + r.tick % 0x10000 * 0x10000))
  | none => s

/-- The service refuses its arguments (R66). -/
def State.svcRefuse (s : State) (r : SvcReq) : State := s.svcDone r 3 0

/-- The service is done and the rule states no result for it: a free value (log entry 26). -/
def State.svcPlain (s : State) (r : SvcReq) : State :=
  let v := s.free 32
  v.2.svcDone r 1 v.1

/-- The keeper serves the oldest request, where it asks for service `k`. -/
def State.serve (s : State) (k : Nat) (act : State → SvcReq → State) : State :=
  match s.eng.svcQ with
  | r :: _ => if r.svc = k then act s r else s
  | [] => s

/-- Drive and quantity of a deckle request, where both exist (R97). -/
def State.svcQuantity (s : State) (r : SvcReq) : Option (Nat × Nat) :=
  let u := getBits r.a 0 8
  let q := getBits r.a 8 8
  if u < s.part.lanes && q < 8 then some (u, q) else none

/-- DECKLE_NARROW: a value above the quantity in force is refused. -/
def State.svcNarrow (s : State) (r : SvcReq) : State :=
  match s.svcQuantity r with
  | some (u, q) =>
    let v := getBits r.b 0 16
    if s.fi (F.FLD_DECK_value u q) < signed 16 v then s.svcRefuse r else (s.narrow u q v).svcPlain r
  | none => s.svcRefuse r

/-- DECKLE_RESTORE: every quantity returns to its configured value, capped by arm derating; driver-fault derating is
undone (R65, R261). -/
def State.svcRestore (s : State) (r : SvcReq) : State :=
  let u := getBits r.a 0 8
  if s.part.lanes ≤ u then s.svcRefuse r
  else
    let s := { s with eng := { s.eng with cap := tblDelRange s.eng.cap (8 * u) (8 * u + 8) } }
    ((List.range 8).foldl (fun s q => s.deckleWrite u q (s.restored u q)) s).svcPlain r

/-- SAFETY_READ: the oldest word from the safety core, or REFUSED. -/
def State.svcSafetyRead (s : State) (r : SvcReq) : State :=
  match s.eng.fromSafety with
  | w :: rest => ({ s with eng := { s.eng with fromSafety := rest } }).svcDone r 1 w
  | [] => s.svcRefuse r

/-! ## Meanings -/

/-- SCRUB_CHECK (R49). -/
def execScrubCheck (s : State) : Host.Outcome State Fault Refusal := onMain s State.scrubCheck
/-- TILE_REFETCH (R502). -/
def execTileRefetch (s : State) : Host.Outcome State Fault Refusal := onMain s State.tileRefetch
/-- TABLE_TILE_WRITE (R52): the window takes every master's write in every phase. -/
def execTableTileWrite (m : Master) (off : Fin 0x100000) (be : BitVec 4) (val : Word) (s : State) :
    Host.Outcome State Fault Refusal := onBus s m fun s => (s.lockUse m).tableWrite off be val
/-- PROGRAM_WINDOW_WRITE (R504). -/
def execProgramWindowWrite (m : Master) (off : Fin 0x200000) (be : BitVec 4) (val : Word) (s : State) :
    Host.Outcome State Fault Refusal := onBus s m fun s => (s.lockUse m).programWrite m off be val
/-- TILE_WM_COMMIT (R52). -/
def execTileWmCommit (tile : Fin 1024) (s : State) : Host.Outcome State Fault Refusal := onMain s fun s => s.wmCommit tile
/-- WM_CHECK_DONE (R52). -/
def execWmCheckDone (s : State) : Host.Outcome State Fault Refusal := onMain s State.wmCheckDone
/-- CTX_RESTART (R64). -/
def execCtxRestart (n : Fin 64) (s : State) : Host.Outcome State Fault Refusal := onMain s fun s => s.ctxRestart n
/-- VERSION (R65): the keeper firmware version. -/
def execVersion (s : State) : Host.Outcome State Fault Refusal :=
  onMain s fun s => s.serve 0 fun s r => s.svcDone r 1 Config.keeperVersion
/-- DECKLE_GET (R65): the value in force. -/
def execDeckleGet (s : State) : Host.Outcome State Fault Refusal :=
  onMain s fun s => s.serve 1 fun s r =>
    match s.svcQuantity r with
    | some (u, q) => s.svcDone r 1 (BitVec.ofNat 32 (s.f (F.FLD_DECK_value u q)))
    | none => s.svcRefuse r
/-- DECKLE_NARROW (R65). -/
def execDeckleNarrow (s : State) : Host.Outcome State Fault Refusal := onMain s fun s => s.serve 2 State.svcNarrow
/-- DECKLE_RESTORE (R65). -/
def execDeckleRestore (s : State) : Host.Outcome State Fault Refusal := onMain s fun s => s.serve 3 State.svcRestore
/-- SAFETY_SEND (R65): the word is queued to the safety core. -/
def execSafetySend (s : State) : Host.Outcome State Fault Refusal :=
  onMain s fun s => s.serve 4 fun s r =>
    ({ s with eng := { s.eng with toSafety := s.eng.toSafety ++ [r.a] } }).svcPlain r
/-- SAFETY_READ (R65). -/
def execSafetyRead (s : State) : Host.Outcome State Fault Refusal := onMain s fun s => s.serve 5 State.svcSafetyRead
/-- TILE_QUERY (R65). -/
def execTileQuery (s : State) : Host.Outcome State Fault Refusal :=
  onMain s fun s => s.serve 6 fun s r =>
    if 3071 < r.a.toNat then s.svcRefuse r else s.svcDone r 1 (if s.quarantined r.a.toNat then 1 else 0)
/-- HALT_SELF (R65): the halt takes effect at the next tick start. -/
def execHaltSelf (s : State) : Host.Outcome State Fault Refusal :=
  onMain s fun s => s.serve 7 fun s r => (s.setCtx r.ctx { s.ctx r.ctx with haltNext := true }).svcPlain r
/-- UNKNOWN_SERVICE (R66). -/
def execUnknownService (s : State) : Host.Outcome State Fault Refusal :=
  onMain s fun s => match s.eng.svcQ with
    | r :: _ => if 7 < r.svc then s.svcDone r 2 0 else s
    | [] => s

end Sys2Proof.Machine
end

