-- ==== Sys2Proof/Machine/Kynor.lean ====
section
/-! DEFINITION. Kynor lanes (07_kynor_link.md): frames and their CRCs, the lane states, the composing of the downlink and
what the device does with an uplink frame. The cells are the environment: the device knows of them what they report. -/

namespace Sys2Proof.Machine

/-! ## Characters on a fibre (R200, R202, R342) -/

/-- A frame as it goes over a fibre: K27.7, the characters `bs`, K29.7. A character is a byte with its control flag. -/
def wire (bs : List Byte) : List (Bool × Byte) := (true, 0xFB#8) :: bs.map (fun b => (false, b)) ++ [(true, 0xFD#8)]

/-- The characters of a frame between its K characters. -/
def unwire (w : List (Bool × Byte)) : List Byte := ((w.drop 1).dropLast).map (·.2)

/-- The idle sequence between frames: K28.5, then D5.6. -/
def kComma : Bool × Byte := (true, 0xBC#8)
/-- D5.6. -/
def dIdle : Bool × Byte := (false, 0xC5#8)

/-! ## Frames (R201–R205) -/

/-- The CRC-8 of R205. -/
def crc8 (bs : List Byte) : Byte := BitVec.ofNat 8 (crcUp 8 0x2F 0xFF bs ^^^ 0xFF)
/-- The CRC-16 of R205. -/
def crc16 (bs : List Byte) : BitVec 16 := BitVec.ofNat 16 (crcUp 16 0x1021 0xFFFF bs)

/-- The `n` bytes of `v`, least significant first (R201). -/
def bytesOf (v : Nat) : Nat → List Byte
  | 0 => []
  | n + 1 => BitVec.ofNat 8 v :: bytesOf (v / 256) n

/-- The number that bytes spell, least significant first. -/
def ofBytes : List Byte → Nat
  | [] => 0
  | b :: bs => b.toNat + 256 * ofBytes bs

/-- Byte `i` of a list, as a number. -/
def byteAt (bs : List Byte) (i : Nat) : Nat := (bs[i]?.getD 0).toNat

/-- A downlink slot (R203). -/
def slotBytes (p : Nat) (x : CellCmd) : List Byte :=
  let b := BitVec.ofNat 8 (p % 32) :: (bytesOf (x.o0 % 0x40000 + x.c0 % 16 * 0x40000) 3 ++ bytesOf (x.o1 % 0x40000 + x.c1 % 16 * 0x40000) 3)
  b ++ [crc8 b]

/-- A downlink frame of 18 + 8n characters (R202); `slots` in the order of transmission. -/
def downFrame (ty n base tx loop tick : Nat) (slots : List Byte) : List (Bool × Byte) :=
  let h := BitVec.ofNat 8 ty :: BitVec.ofNat 8 n :: (bytesOf base 4 ++ bytesOf tx 4 ++ bytesOf loop 2 ++ [BitVec.ofNat 8 tick])
  let b := h ++ [crc8 h] ++ slots
  wire (b ++ bytesOf (crc16 b).toNat 2)

/-- An uplink frame's header and CRC-16 are whole (R204, R215). -/
def upOk (fr : List Byte) : Bool :=
  6 ≤ fr.length && fr[3]? == some (crc8 (fr.take 3)) &&
    ofBytes (fr.drop (fr.length - 2)) == (crc16 (fr.take (fr.length - 2))).toNat

/-- The slots of an uplink frame, eight bytes each. -/
def upSlots : Nat → List Byte → List (List Byte)
  | 0, _ => []
  | n + 1, bs => if bs.length < 8 then [] else bs.take 8 :: upSlots n (bs.drop 8)

/-- The slots between the header and the CRC-16. -/
def frameSlots (fr : List Byte) : List (List Byte) := upSlots 32 ((fr.take (fr.length - 2)).drop 4)

/-- A slot's CRC-8 is correct. -/
def slotOk (sl : List Byte) : Bool := sl[7]? == some (crc8 (sl.take 7))

/-! ## Lanes -/

/-- Lane `n`'s hidden state. -/
def State.lane (s : State) (n : Nat) : KynSt := tblGet {} s.kyn n
/-- The state with lane `n` as `x`. -/
def State.setLane (s : State) (n : Nat) (x : KynSt) : State := { s with kyn := tblSet s.kyn n x }

/-- What lane `n` sends now: the character of the frame on its way, 20 ns each, and between frames the idle sequence (R200). -/
def State.laneChar (s : State) (n : Nat) : Bool × Byte :=
  let k := (s.now - (s.lane n).sof) / 20
  match (s.lane n).frame[k]? with
  | some c => c
  | none => if (k - (s.lane n).frame.length) % 2 = 0 then kComma else dIdle

/-- State of lane `n`: 0 OFF, 1 TRAIN, 2 IDENT, 3 READY, 4 RUN, 5 DOWN. -/
def State.laneState (s : State) (n : Nat) : Nat := s.f (F.KYN_LANE_STS_state n)

/-- Chain length of lane `n` in force. -/
def State.chain (s : State) (n : Nat) : Nat := s.fe (F.KYN_LANE_CTL_chain n)

/-- Longest chain a period of `p` counts of 4 ns admits (R24). -/
def chainLimit (p : Nat) : Nat := if 5000 ≤ p then 24 else if 3125 ≤ p then 12 else 6

/-- Nanoseconds as 4 ns counts, rounded up. -/
def counts4 (ns : Nat) : Nat := (ns + 3) / 4

/-- Downlink requirement D in ns for delays `δ` by position (R209). -/
def downReq (n : Nat) (delta : Nat → Nat) : Nat :=
  400 + (List.range n).foldl (fun m p => max m (delta p + (23 + 8 * (n - 1 - p)) * 20)) 0 + 150

/-- Uplink requirement U in ns (R209). -/
def upReq (n : Nat) (delta : Nat → Nat) : Nat := 400 + delta (n - 1) + (8 + 8 * n) * 20 + 40

/-- Requirement that lane `n` adds to req_lead, in 4 ns counts: none in OFF, the worst case of R210 before IDENT has
completed (R209). -/
def State.laneReq (s : State) (n : Nat) : Nat :=
  let st := s.laneState n
  if st = 0 then 0 else if st ≤ 2 then counts4 (890 + 220 * s.chain n) else s.f (F.KYN_LANE_REQ_dn_req n)

/-- TIME_REQ_LEAD after a change of the lanes (R29, R209). -/
def State.reqLead (s : State) : State :=
  s.setF F.TIME_REQ_LEAD_req_lead ((List.range 16).foldl (fun m n => max m (s.laneReq n)) 0)

/-- Lane `n` enters state `st`. -/
def State.laneEnter (s : State) (n st : Nat) : State :=
  ((s.setF (F.KYN_LANE_STS_state n) st).setLane n { s.lane n with since := s.now }).reqLead

/-- Lane `n` returns to OFF with error `e`; en reads 0 again, since a lane leaves OFF only at a write of 1 (R212). -/
def State.laneOff (s : State) (n e : Nat) : State :=
  let s := ((s.setF (F.KYN_LANE_CTL_en n) 0).setF (F.KYN_LANE_STS_locked n) 0).setF (F.KYN_LANE_STS_error n) e
  (s.setLane n {}).laneEnter n 0

/-- A write of 1 to KYN_LANE_CTL.en (R212). -/
def State.laneEnable (s : State) (n : Nat) : State :=
  if s.laneState n != 0 || s.part.kynLanes ≤ n then s
  else
    let c := s.f (F.KYN_LANE_CTL_chain n)
    let refuse := fun e => s.setF (F.KYN_LANE_STS_error n) e
    if c = 0 || 24 < c then refuse 1
    else if s.running && chainLimit s.tm.period < c then refuse 6
    else
      let s := s.takeInForce (R.KYN_LANE_CTL n) (R.KYN_LANE_CTL n + 4)
      (((s.setF (F.KYN_LANE_CTL_en n) 1).setF (F.KYN_LANE_STS_error n) 0).setLane n {}).laneEnter n 1

/-- A write of 0 to en: OFF from any state; the lane sends idle only (R212). -/
def State.laneDisable (s : State) (n : Nat) : State :=
  if s.laneState n = 0 then s else s.laneOff n (s.f (F.KYN_LANE_STS_error n))

/-- The lane sends an IDENT frame with the hop counter at 0; an IDENT that is repeated carries the loop delay stored before
(R207). -/
def State.identFrame (s : State) (n : Nat) : State :=
  let c := s.chain n
  let slots := (List.range c).flatMap fun i => slotBytes (c - 1 - i) { c0 := 7 }
  s.setLane n { s.lane n with
    frame := downFrame 2 c 0 (s.now % 2 ^ 32) (s.f (F.KYN_LANE_LOOP_loop n)) 0 slots, sof := s.now }

/-- 64 valid characters in a row: the lane locks and enters IDENT (R212). In a debug halt, which admits no frame, it stays in
TRAIN (R461, log entry 129). -/
def State.trainLock (s : State) (n : Nat) : State :=
  if s.laneState n != 1 || s.halted then s else ((s.setF (F.KYN_LANE_STS_locked n) 1).laneEnter n 2).identFrame n

/-- 100 µs in TRAIN without lock. -/
def State.trainTimeout (s : State) (n : Nat) : State :=
  if s.laneState n != 1 then s else (s.at ((s.lane n).since + 100000)).laneOff n 2

/-- No uplink IDENT frame within 100 µs. -/
def State.identTimeout (s : State) (n : Nat) : State :=
  if s.laneState n != 2 then s else ((s.at ((s.lane n).since + 100000)).setF (F.KYN_LANE_STS_found n) 0).laneOff n 3

/-- Every number of a list is smaller than the next. -/
def rising : List Int → Bool
  | x :: y :: t => x < y && rising (y :: t)
  | _ => true

/-- The uplink IDENT frame of lane `n`, whose SOF arrived `loop` ns after the IDENT frame left (R207, R209, R212). A frame
whose CRCs fail is no frame; a slot whose CRC-8 fails is no slot; no frame occurs in a debug halt (R461). -/
def State.identUp (s : State) (n loop : Nat) (fr : List Byte) : State :=
  if s.laneState n != 2 || s.halted then s
  else
  let s := s.setLane n { s.lane n with upAt := some ((s.lane n).sof + loop) }
  if !(upOk fr && byteAt fr 0 == 2) then s.incSat (F.KYN_LANE_CRCERR_frame n)
  else
    let all := frameSlots fr
    let ok := all.filter slotOk
    let s := s.incSat (F.KYN_LANE_CRCERR_slot n) (all.length - ok.length)
    let c := s.chain n
    let s := s.setF (F.KYN_LANE_STS_found n) ok.length
    let at' := fun p => ok.find? fun sl => byteAt sl 0 % 32 == p
    let found := (List.range c).filterMap at'
    if ok.length != c || found.length != c then s.laneOff n 3
    else
      let dl := found.map fun sl => ((loop : Int) - (byteAt sl 1 + 256 * byteAt sl 2 : Nat)) / 2
      if !rising dl || (dl.any fun d => d < 0) || 65535 < loop then s.laneOff n 4
      else if found.any fun sl => byteAt sl 5 != 1 then s.laneOff n 5
      else
        let delta := fun p => (dl[p]?.getD 0).toNat
        let s := (found.zipIdx).foldl (fun s (sl, p) =>
          s.setCell (24 * n + p) { s.cell (24 * n + p) with
            tr := byteAt sl 1 + 256 * byteAt sl 2, delta := delta p, model := byteAt sl 4, revision := byteAt sl 5 }) s
        let s := (s.setF (F.KYN_LANE_LOOP_loop n) loop).setF (F.KYN_LANE_REQ_dn_req n) (min 0xFFFF (counts4 (downReq c delta)))
        let s := s.setF (F.KYN_LANE_REQ_up_req n) (min 0xFFFF (counts4 (upReq c delta)))
        if s.running && s.tm.lead < counts4 (downReq c delta) then s.laneOff n 7
        else (s.setLane n { s.lane n with
          sync := true, afterRun := false, dn := downReq c delta, ahead := [], due := none, missed := 0 }).laneEnter n 3

/-- KYN_LANE_CMD op IDENT (R212); rejected in a debug halt, which admits no frame (R461, log entry 129). -/
def State.laneIdent (s : State) (n : Nat) : State :=
  if s.laneState n != 3 || s.halted then s.setF (F.KYN_LANE_FLAGS_cmd_rejected n) 1 else (s.laneEnter n 2).identFrame n

/-- DIAG is admitted for cell `c`: it is in no arm, or its converter is in PULSE_BLOCK (R214). -/
def State.diagFor (s : State) (c : Nat) : Bool :=
  match s.cellOwner c with
  | some a => s.f (F.PROT_CV_STS_state (a / 6)) == 1
  | none => true

/-- DIAG is requested for cell `c` (R213, R277). -/
def State.diagRequest (s : State) (c : Nat) : State :=
  s.setCell c { s.cell c with diagReq := true, diagSent := false, diagRes := 0 }

/-- KYN_LANE_CMD op DIAG for a position or every position (R214). -/
def State.laneDiag (s : State) (n p : Nat) (all : Bool) : State :=
  let ps := if all then List.range (s.chain n) else [p]
  if (ps.all fun q => q < s.chain n && s.diagFor (24 * n + q)) && s.laneState n != 0 then
    ps.foldl (fun s q => s.diagRequest (24 * n + q)) s
  else s.setF (F.KYN_LANE_FLAGS_cmd_rejected n) 1

/-! ## Composing the downlink (R213) -/

/-- The unit that governs the arms of converter CVv outside RUN and RAMP (R124, R231; log entry 23). -/
def State.armGovernor (s : State) (v : Nat) : Option Nat :=
  match s.boundUnits v with
  | u :: _ => some u
  | [] => (List.range 8).find? fun u => s.unitConv u == some v

/-- The override pattern of the arms of CVv (R231), `none` where ARM_REF governs. -/
def State.armOverride (s : State) (v : Nat) : Option Pattern :=
  let st := s.f (F.PROT_CV_STS_state v)
  if st = 2 then some .low
  else if st = 3 then some .high
  else match s.armGovernor v with
    | some u => let us := s.f (F.FLD_STS_state u); if us = 4 || us = 5 then none else some (s.unit u).pat
    | none => none

/-- The patterns of a test-pulse sequence that the arms of CVv take in the coming tick (R147, R148). -/
def State.armPlan (s : State) (v : Nat) : Option (List (Nat × Pattern)) :=
  if s.f (F.PROT_CV_STS_state v) != 0 then none
  else match s.armGovernor v with
    | some u => let us := s.f (F.FLD_STS_state u); if us = 2 || us = 3 then (s.unit u).plan else none
    | none => none

/-- Rank 3 of R213 for the arms of CVv: the net, PULSE_BLOCK, or the pulse-block pattern for all of the coming tick. -/
def State.armBlocked (s : State) (v : Nat) : Bool :=
  !s.gateNet || s.f (F.PROT_CV_STS_state v) == 1 ||
    match s.armPlan v with
    | some l => l == [(0, .block)]
    | none => s.armOverride v == some .block

/-- The slot of cell `c` from ranks 1 to 3, `none` where they do not apply. -/
def State.slotHigh (s : State) (c : Nat) : Option CellCmd :=
  let x := s.cell c
  let n := c / 24
  if x.order && !x.flags.testBit 4 then some { c0 := 5 }
  else if x.diagReq && x.flags.testBit 6 then some { c0 := 6 }
  else match s.cellOwner c with
    | none => some { c0 := 3 }
    | some a => if s.armBlocked (a / 6) || (s.laneState n != 4 && (s.lane n).afterRun) then some { c0 := 3 } else none

/-- A frame of lane `n` that names `base` leaves at `tx` with tick character `tick`; `slot` gives each cell's slot. -/
def State.sendDown (s : State) (n base tx tick : Nat) (slot : Nat → CellCmd) : State :=
  let c := s.chain n
  let slots := (List.range c).flatMap fun i => slotBytes (c - 1 - i) (slot (24 * n + (c - 1 - i)))
  let s := (List.range c).foldl (fun s p =>
    let k := 24 * n + p
    if (slot k).c0 = 6 then s.setCell k { s.cell k with diagSent := true } else s) s
  s.setLane n { s.lane n with
    frame := downFrame 1 c (base % 2 ^ 32) (tx % 2 ^ 32) (s.f (F.KYN_LANE_LOOP_loop n)) (tick % 256) slots
    sof := tx, ahead := (s.lane n).ahead ++ [(base, tick % 256)], sync := false }

/-- The slots for the next downlink burst are composed at the couch: rank 4 has been left in the cell by its arm's
selection unit (R213). -/
def State.laneCouch (s : State) (n : Nat) : State :=
  let s := if s.laneState n = 3 then (s.setLane n { s.lane n with run := true, afterRun := false, ahead := [] }).laneEnter n 4 else s
  if !(s.lane n).run then s
  else (List.range (s.chain n)).foldl (fun s p =>
    let c := 24 * n + p
    match s.slotHigh c with
    | some k => s.setCell c { s.cell c with cmd := k }
    | none => s) s

/-- The burst leaves 400 ns after the couch and names the next tick start (R202, R209, R212). -/
def State.downBurst (s : State) (n : Nat) : State :=
  if !(s.lane n).run || !s.running || s.tm.phase != 3 || s.halted then s
  else
    let tx := s.couchAt + 400
    let s := s.at tx
    s.sendDown n s.nextTick tx (s.f F.TIME_TICK_COUNT_count + 1) fun c => (s.cell c).cmd

/-- Scope word of cell `c` (R16). -/
def scopeCell (c : Nat) : Word := scopeWord 2 (0x1000 + c)

/-! ## Sample points and lane down (R215, R264) -/

/-- The converters with an enabled arm that has a cell on lane `n`. -/
def State.laneConvs (s : State) (n : Nat) : List Nat :=
  (List.range 2).filter fun k => (convArms k).any fun a => s.bit (F.ARM_STS_enabled a) && s.laneArm n a

/-- Lane `n` enters DOWN: EV13, and PULSE_BLOCK of class 7 for its converters at the next couch. -/
def State.laneFall (s : State) (n : Nat) : State :=
  let st := s.laneState n
  if !(st == 3 || st == 4) then s
  else
    let ks := s.laneConvs n
    let s := (s.setF (F.KYN_LANE_FLAGS_down_seen n) 1).laneEnter n 5
    let s := s.raise 13 0 (scopeCell (24 * n)) (s.demandScopesLater ks 7)
    ks.foldl (fun s k => s.demandLater k 7 1 13 (scopeCell (24 * n))) s

/-- KYN_LANE_AGE_MAP at a sample point: the positions of lane `n` not written since the last (R224). -/
def State.ageMap (s : State) (n : Nat) : State :=
  s.setF (F.KYN_LANE_AGE_MAP_map n)
    ((List.range (s.chain n)).foldl (fun m p => if (s.cell (24 * n + p)).age = 0 then m else m ||| 2 ^ p) 0)

/-- The cells in `cs` are one sample point older; the age saturates at 3 (R120). -/
def State.older (s : State) (cs : List Nat) : State :=
  cs.foldl (fun s c => s.setCell c { s.cell c with age := min 3 ((s.cell c).age + 1) }) s

/-- Lane `n` reaches the sample point that the oldest frame on its way names: two consecutive ones without an accepted uplink
frame bring it DOWN; that frame is now the one to answer (R215). With the tick stopped the bases of its READY frames are its
sample points (R202, log entry 117), at which its cells age too. -/
def State.lanePoint (s : State) (n : Nat) : State :=
  let s := if s.running then s else (s.ageMap n).older ((List.range (s.chain n)).map (24 * n + ·))
  let x := s.lane n
  let missed := if x.due.isSome && !x.got then x.missed + 1 else 0
  let next := x.ahead.head?.filter fun e => e.1 ≤ s.now
  let s := s.setLane n { x with
    missed := missed, due := next, got := false, ahead := if next.isSome then x.ahead.tail else x.ahead }
  if 2 ≤ missed then s.laneFall n else s

/-- The sample points that frames of READY name, up to instant `t`: with no couch to compose bursts they follow one another
every 20 µs, and a lane goes DOWN in READY as in RUN (R212, R215). -/
def State.readyPoints (s : State) (n t : Nat) : State :=
  ((s.lane n).ahead.filter fun e => e.1 ≤ t).foldl (fun s e => (s.at e.1).lanePoint n) s

/-! ## READY (R212) -/

/-- READY: a NORMAL frame whose base is the next whole multiple of 20 µs after that of the frame before, and whose SOF leaves
at base less the downlink requirement (R212); also in DOWN where the lane was in READY. -/
def State.readyFrame (s : State) (n : Nat) : State :=
  let x := s.lane n
  if !(s.laneState n == 3 || (s.laneState n == 5 && !x.run)) || s.halted || s.tm.holdLag.isSome then s
  else
    let d := x.dn
    let next := (s.now + d + 19999) / 20000 * 20000
    let last := match x.ahead.getLast?, x.due with
      | some e, _ => e.1
      | none, some e => e.1
      | none, none => 0
    let base := if next ≤ last then (last / 20000 + 1) * 20000 else next
    let s := (s.readyPoints n (base - d)).at (base - d)
    let sync := (s.lane n).sync
    let slot := fun c => if sync then { c0 := 8 } else (s.slotHigh c).getD {}
    s.sendDown n base (base - d) (s.f F.TIME_TICK_COUNT_count) slot

/-! ## Uplink (R215, R241) -/

/-- A failure cause of cell `c` arises, to take effect at the next couch; only ACTIVE and SPARE cells fail (R241, R242). The
first cause is recorded; a short circuit demands by R263 whatever cause came first. -/
def State.cellFails (s : State) (c cause : Nat) : State :=
  let st := s.f (F.ARM_CELL_STS_state c)
  let x := s.cell c
  if (s.cellOwner c).isSome && (st = 1 || st = 2) then
    s.setCell c { x with fail := some (x.fail.getD cause), scAt := if cause = 1 then some (x.scAt.getD s.now) else x.scAt }
  else s

/-- ARM `a` trips at the next couch because cell `c` fails too: with the cells that have failed already it leaves fewer than
min_active in service, and they alone do not (R242, R246). -/
def State.armWillTrip (s : State) (a c : Nat) : Bool :=
  let left := (List.range 384).filter fun e => s.cellArm e a && e != c && (s.cell e).fail.isNone &&
    (s.f (F.ARM_CELL_STS_state e) == 1 || s.f (F.ARM_CELL_STS_state e) == 2)
  let low := fun (n : Nat) => min n (s.f (F.ARM_STS_active a)) < s.fe (F.ARM_RED_min_active a)
  (s.f (F.ARM_CELL_STS_state c) == 1 || s.f (F.ARM_CELL_STS_state c) == 2) && low left.length && !low (left.length + 1)

/-- Another cell of converter `k` waits for the couch with a short circuit (R263). -/
def State.otherShort (s : State) (k c : Nat) : Bool :=
  (List.range 384).any fun e => e != c && (s.cell e).scAt.isSome && match s.cellOwner e with | some a => a / 6 == k | none => false

/-- The reaction scope of a cell short circuit: the converter where its policy stops it or the arm trips, else the cell (R17,
R246, R263). -/
def State.scScope (s : State) (c : Nat) : Word :=
  match s.cellOwner c with
  | some a =>
    let k := a / 6
    let stops := 2 ≤ s.f (F.PROT_CV_POL_sc_pol k)
    if (stops && s.demandWill k 2 && !s.otherShort k c) ||
        (s.armWillTrip a c && s.demandWill k 7 && !(stops && s.otherShort k c)) then scopeConv k
    else scopeCell c
  | none => scopeCell c

/-- The failure conditions of a report of cell `c` (R241). -/
def State.reportFails (s : State) (c : Nat) : State :=
  match s.cellOwner c with
  | none => s
  | some a =>
    let x := s.cell c
    let uv := s.f (F.ARM_FLT_uvlo a)
    let s := if x.flags.testBit 0 then s.cellFails c 1 else s
    let s := if uv != 0 && uv ≤ x.uvRun then s.cellFails c 2 else s
    let s := if x.flags.testBit 3 && s.bit (F.ARM_FLT_ot_en a) then s.cellFails c 3 else s
    let s := if x.flags.testBit 4 && !x.order then s.cellFails c 4 else s
    let s := if s.bit (F.ARM_FLT_ov_en a) && fGt (s.cellVolt c) (fOfQ 16 14 (s.f (F.ARM_VLIM_hi a))) then s.cellFails c 5 else s
    if 2 ≤ x.diagRes && x.diagRes ≤ 5 then s.cellFails c 7 else s

/-- The events of flags that cell `c` reports set after having reported them clear (R215). -/
def State.reportEvents (s : State) (c was : Nat) : State :=
  let x := s.cell c
  let new := fun i => x.flags.testBit i && !was.testBit i
  let n := c / 24
  let inArm := (s.cellOwner c).isSome
  let ot := match s.cellOwner c with | some a => s.bit (F.ARM_FLT_ot_en a) | none => false
  let s := if x.flags.testBit 0 then s.setF (F.KYN_LANE_FLAGS_sc_seen n) 1 else s
  let s := if new 0 then s.raise 2 0 (scopeCell c) (s.scScope c) else s
  let s := if new 3 then s.raise 9 0 (scopeCell c) (if ot then scopeCell c else scopeNone) else s
  let s := if new 4 && !x.order then s.raise 9 0 (scopeCell c) (if inArm then scopeCell c else scopeNone) else s
  let s := if new 5 then s.raise 14 0 (scopeCell c) scopeNone else s
  let s := if new 1 then s.raise 15 0 (scopeCell c) scopeNone else s
  if new 2 then s.raise 15 0 (scopeCell c) scopeNone else s

/-- One good slot of an accepted frame: the report of cell `c` (R120, R204, R206, R221). -/
def State.report (s : State) (n p : Nat) (sl : List Byte) : State :=
  let c := 24 * n + p
  let x := s.cell c
  let fl := byteAt sl 3
  let res := byteAt sl 6 / 16
  let done := x.diagReq && x.diagSent && res != 0
  let x' := { x with
    raw := byteAt sl 1 + 256 * byteAt sl 2, flags := fl, temp := byteAt sl 4
    seq := byteAt sl 5 + 256 * (byteAt sl 6 % 16), age := 0
    uvRun := if fl.testBit 1 || fl.testBit 2 then x.uvRun + 1 else 0
    diagReq := x.diagReq && !done, diagRes := if done then res else x.diagRes }
  let s := s.setCell c x'
  let late := fl.testBit 5
  let s := if late then
      ((s.setF ⟨R.KYN_LANE_LATE_MAP n, p, 1⟩ 1).setF (F.KYN_LANE_FLAGS_late_seen n) 1).incSat (F.KYN_LANE_LATE_late n)
    else s
  let s := if fl % 16 != 0 then s.setF ⟨R.KYN_LANE_FLT_MAP n, p, 1⟩ 1 else s
  let s := if fl.testBit 7 then s.incSat (F.KYN_LANE_MISS_miss n) else s
  (s.reportEvents c x.flags).reportFails c

/-- The slots of an accepted frame in their order; `seen` are the positions already delivered. -/
def State.reports (s : State) (n : Nat) (seen : List Nat) : List (List Byte) → State × List Nat
  | [] => (s, seen)
  | sl :: rest =>
    let p := byteAt sl 0 % 32
    if slotOk sl && p < s.chain n && !seen.contains p then (s.report n p sl).reports n (p :: seen) rest
    else (s.incSat (F.KYN_LANE_CRCERR_slot n)).reports n seen rest

/-- The sample point that an uplink frame completing `t` ns after it belongs to, in READY: the last one where that instant is
still to come and no frame has answered it, else the next one named. In RUN it is the tick's. -/
def State.answers (s : State) (n t : Nat) : State :=
  let x := s.lane n
  let last := match x.due with | some e => !x.got && s.now ≤ e.1 + t | none => false
  if x.run || last then s
  else match x.ahead with
    | e :: _ => (s.at e.1).lanePoint n
    | [] => s

/-- An uplink frame of lane `n` completes `t` ns after the sample point it belongs to (R120, R211, R215). A lane that the missed
sample points before have brought DOWN writes nothing any more; no frame occurs in a debug halt (R461). The lane current bit is
that of an accepted frame (DESIGN CHOICE, log entry 128). -/
def State.uplink (s : State) (n t : Nat) (fr : List Byte) : State :=
  let st := s.laneState n
  if !(st == 3 || st == 4) || s.halted then s
  else
    let s := s.answers n t
    if s.laneState n = 5 then s else
    let x := s.lane n
    let span := if x.run && s.running then s.periodNs else 20000
    let s := match x.due with | some e => s.at (e.1 + t) | none => s
    let s := s.setLane n { s.lane n with upAt := some (s.now - 20 * (fr.length + 2)) }
    let named := match x.due with | some e => byteAt fr 2 == e.2 && t < span | none => false
    if !(upOk fr && byteAt fr 0 == 1 && named) then s.incSat (F.KYN_LANE_CRCERR_frame n)
    else
      let s := (s.setLane n { s.lane n with got := true }).setF (F.KYN_LANE_UPT_upt n) (min 0xFFFF t)
      let s := (s.setF (F.KYN_LANE_LATE_MAP_map n) 0).setF (F.KYN_LANE_FLT_MAP_map n) 0
      let s := { s with sns := { s.sns with lanesDone := s.sns.lanesDone ||| 2 ^ n } }
      let s := if s.running && s.couchAt < s.now then s.setF (F.KYN_LANE_FLAGS_up_late n) 1 else s
      let r := s.reports n [] (frameSlots fr)
      r.1.incSat (F.KYN_LANE_MISS_miss n) (s.chain n - r.2.length)

/-- Loss of character alignment (R215); no lane enters DOWN during a debug halt (R461). -/
def State.alignLost (s : State) (n : Nat) : State :=
  (if s.halted then s else s.laneFall n).setF (F.KYN_LANE_STS_locked n) 0

/-- Lane `n` at the sample point of a tick. -/
def State.laneSample (s : State) (n : Nat) : State :=
  if s.laneState n < 3 then s
  else
    let s := s.ageMap n
    if (s.lane n).run then s.lanePoint n else s

/-- The Kynor lanes and cells at a sample point (R120, R215). -/
def State.kynSample (s : State) : State :=
  let s := (List.range 16).foldl State.laneSample s
  { s with cells := s.cells.map fun e => (e.1, { e.2 with age := min 3 (e.2.age + 1) })
           sns := { s.sns with lanesDone := 0 } }

/-- The lanes at the end of the last tick: RUN becomes READY (R212). -/
def State.kynStop (s : State) : State :=
  (List.range 16).foldl (fun s n =>
    let x := s.lane n
    if !x.run then s
    else
      let s := s.setLane n { x with run := false, afterRun := true, missed := 0, ahead := [], due := none }
      if s.laneState n = 4 then s.laneEnter n 3 else s) s

/-! ## Meanings -/

/-- LANE_ENABLE (R212). -/
def execLaneEnable (n : Fin 16) (s : State) : Host.Outcome State Fault Refusal := onMain s fun s => s.laneEnable n
/-- LANE_DISABLE (R212). -/
def execLaneDisable (n : Fin 16) (s : State) : Host.Outcome State Fault Refusal := onMain s fun s => s.laneDisable n
/-- LANE_TRAIN_LOCK (R212). -/
def execLaneTrainLock (n : Fin 16) (s : State) : Host.Outcome State Fault Refusal := onMain s fun s => s.trainLock n
/-- TRAIN_TIMEOUT (R212). -/
def execTrainTimeout (n : Fin 16) (s : State) : Host.Outcome State Fault Refusal := onMain s fun s => s.trainTimeout n
/-- IDENT_UPLINK_FRAME (R207). -/
def execIdentUplinkFrame (n : Fin 16) (loop : Nat) (frame : List Byte) (s : State) : Host.Outcome State Fault Refusal :=
  onMain s fun s => s.identUp n loop frame
/-- IDENT_TIMEOUT (R212). -/
def execIdentTimeout (n : Fin 16) (s : State) : Host.Outcome State Fault Refusal := onMain s fun s => s.identTimeout n
/-- LANE_DIAG_CMD (R214). -/
def execLaneDiagCmd (n : Fin 16) (position : BitVec 5) (all : Bool) (s : State) : Host.Outcome State Fault Refusal :=
  onMain s fun s => s.laneDiag n position.toNat all
/-- LANE_IDENT_CMD (R212). -/
def execLaneIdentCmd (n : Fin 16) (s : State) : Host.Outcome State Fault Refusal := onMain s fun s => s.laneIdent n
/-- READY_FRAME (R212). -/
def execReadyFrame (n : Fin 16) (s : State) : Host.Outcome State Fault Refusal := onMain s fun s => s.readyFrame n
/-- DOWNLINK_BURST (R202). -/
def execDownlinkBurst (n : Fin 16) (s : State) : Host.Outcome State Fault Refusal := onMain s fun s => s.downBurst n
/-- UPLINK_FRAME (R215). -/
def execUplinkFrame (n : Fin 16) (t : Nat) (frame : List Byte) (s : State) : Host.Outcome State Fault Refusal :=
  onMain s fun s => s.uplink n t frame
/-- LANE_DOWN (R215). -/
def execLaneDown (n : Fin 16) (s : State) : Host.Outcome State Fault Refusal := onMain s fun s => s.alignLost n

end Sys2Proof.Machine
end

