-- ==== Sys2Proof/Machine/Arms.lean ====
section
/-! DEFINITION. Arms (08_arms_and_cells.md): enable and disable, failures with spares and derating, the selection unit in
its two modes with the overrides, and the supervision of voltages and circulating currents. -/

namespace Sys2Proof.Machine

/-- Arm `a`'s hidden state. -/
def State.arm (s : State) (a : Nat) : ArmSt := tblGet {} s.arms a
/-- The state with arm `a` as `x`. -/
def State.setArm (s : State) (a : Nat) (x : ArmSt) : State := { s with arms := tblSet s.arms a x }

/-- Scope word of ARM `a` (R16). -/
def scopeArm (a : Nat) : Word := scopeWord 3 a

/-- Insert a pair into a list that is rising in its first component. -/
def insertPair (e : Nat × Nat) : List (Nat × Nat) → List (Nat × Nat)
  | [] => [e]
  | x :: t => if e.1 < x.1 then e :: x :: t else x :: insertPair e t

/-- (slot, cell) of every cell mapped to arm `a`, in slot order. -/
def State.mapOf (s : State) (a : Nat) : List (Nat × Nat) :=
  (List.range 384).foldl (fun l c => if s.cellArm c a then insertPair (s.f (F.ARM_CELL_CFG_slot c), c) l else l) []

/-- State of cell `c`: 0 NONE, 1 ACTIVE, 2 SPARE, 3 FAILED, 4 BYPASSED (R229). -/
def State.cellState (s : State) (c : Nat) : Nat := s.f (F.ARM_CELL_STS_state c)

/-- The cells of arm `a` in state `st`, in slot order. -/
def State.armIn (s : State) (a st : Nat) : List (Nat × Nat) := (s.mapOf a).filter fun e => s.cellState e.2 == st

/-- ARM_STS.active and spares, ARM_SPR0 and ARM_SPR1 from the cells' states. -/
def State.armCount (s : State) (a : Nat) : State :=
  let sp := (s.armIn a 2).foldl (fun m e => m ||| 2 ^ e.1) 0
  let s := (s.setF (F.ARM_STS_active a) (s.armIn a 1).length).setF (F.ARM_STS_spares a) (s.armIn a 2).length
  (s.setF (F.ARM_SPR_map a 0) sp).setF (F.ARM_SPR_map a 1) (sp / 2 ^ 32)

/-! ## Enable and disable (R226–R228) -/

/-- Two entries of a rising list hold one slot. -/
def hasTwins : List (Nat × Nat) → Bool
  | x :: y :: t => x.1 == y.1 || hasTwins (y :: t)
  | _ => false

/-- The check of R227 that fails first, 0 for none. -/
def State.armCheck (s : State) (a : Nat) : Nat :=
  let act := s.f (F.ARM_CFG_active a)
  let n := act + s.f (F.ARM_CFG_spares a)
  let mn := s.f (F.ARM_RED_min_active a)
  let m := s.mapOf a
  if 64 < act || 64 < n || mn = 0 || act < mn || s.f (F.ARM_CFG_spares a) < s.f (F.ARM_RED_low_water a) then 1
  else if m.length != n || hasTwins m || (m.any fun e => n ≤ e.1 || s.part.cells ≤ e.2) then 2
  else if m.any fun e => !(s.laneState (e.2 / 24) == 3 || s.laneState (e.2 / 24) == 4) || s.chain (e.2 / 24) ≤ e.2 % 24 then 3
  else if s.f (F.ARM_VNOM_vnom a) = 0 then 4
  else if 2 ≤ s.f (F.ARM_CFG_mode a) then 5
  else if !(s.boundUnits (a / 6)).isEmpty then 6
  else 0

/-- Cell `c` leaves service: an ACTIVE one is replaced by the lowest-slot SPARE (R242 steps 2–4). -/
def State.substitute (s : State) (a c st : Nat) : State :=
  let was := s.cellState c
  let s := s.setF (F.ARM_CELL_STS_state c) st
  if was != 1 then s
  else match s.armIn a 2 with
    | e :: _ => s.setF (F.ARM_CELL_STS_state e.2) 1
    | [] => s

/-- A write of 1 to ARM_CTL.en (R226, R227). -/
def State.armEnable (s : State) (a : Nat) : State :=
  if !s.part.mmc || s.bit (F.ARM_CTL_en a) || s.f (F.ARM_CFG_active a) = 0 then s
  else
    let e := s.armCheck a
    let s := s.setF (F.ARM_STS_error a) e
    if e != 0 then s
    else
      let s := s.takeInForce (R.ARM_CTL a) (R.ARM_CTL a + 0x60)
      let s := (s.setF (F.ARM_CTL_en a) 1).setF (F.ARM_STS_enabled a) 1
      let s := ((s.setF (F.ARM_STS_derated a) 0).setF (F.ARM_STS_tripped a) 0).setF (F.ARM_FAIL_CNT_failed a) 0
      let s := (s.setArm a {}).setF (F.ARM_LVL_dir a) 0
      let act := s.fe (F.ARM_CFG_active a)
      let s := (s.mapOf a).foldl (fun s e =>
        let s := (s.setF (F.ARM_CELL_STS_state e.2) (if e.1 < act then 1 else 2)).setF (F.ARM_CELL_STS_cause e.2) 0
        s.setCell e.2 { s.cell e.2 with fail := none, couches := 0, unconf := false, staleRun := 0, uvRun := 0 }) s
      let s := (s.mapOf a).foldl (fun s e =>
        if (s.cell e.2).flags.testBit 4 then s.substitute a e.2 4 else s) s
      s.armCount a

/-- A write of 0 to ARM_CTL.en (R228). -/
def State.armDisable (s : State) (a : Nat) : State :=
  if !s.bit (F.ARM_CTL_en a) then s
  else if !(s.boundUnits (a / 6)).isEmpty then s.setF ⟨R.ARM_FLAGS a, 0, 1⟩ 1
  else
    let s := (s.mapOf a).foldl (fun s e => s.setF (F.ARM_CELL_STS_state e.2) 0) s
    let s := ((s.setF (F.ARM_CTL_en a) 0).setF (F.ARM_STS_enabled a) 0).setF (F.ARM_DERATE_factor a) 0x7FFF
    let s := (s.setF (F.ARM_INS_map a 0) 0).setF (F.ARM_INS_map a 1) 0
    (s.setArm a {}).armCount a

/-- A write of 1 to ARM_CELLc_CFG.retire (R241). -/
def State.cellRetire (s : State) (c : Nat) : State :=
  if (s.cellOwner c).isSome && (s.cellState c == 1 || s.cellState c == 2) then s.cellFails c 8
  else s.setF ⟨R.ARM_FLAGS (min 11 (s.f (F.ARM_CELL_CFG_arm c))), 4, 1⟩ 1

/-! ## Failures at the couch (R241–R247) -/

/-- EV11 of arm `a` (R245, R246): a trip concerns the converter, derating the arm. -/
def State.armEvent (s : State) (a : Nat) (trip unconf : Bool) (reaction : Word) : State :=
  s.raise 11 (trip.toNat + 2 * unconf.toNat + 0x100 * s.f (F.ARM_STS_active a))
    (if trip then scopeConv (a / 6) else scopeArm a) reaction

/-- Arm `a` trips: EV11, and arm_state in class 7 for its converter among the demands of this couch (R246, R256). -/
def State.armTrip (s : State) (a : Nat) (unconf : Bool) : State :=
  let k := a / 6
  let s := (s.setF (F.ARM_STS_tripped a) 1).armEvent a true unconf (scopeConv k)
  s.demandLater k 7 (polState (s.f (F.PROT_CV_POL_arm_state k))) 11 (scopeConv k)

/-- Arm `a` derates (R245). The units bound to its converter take the limp-home cause of spent spares (R167). -/
def State.armDerate (s : State) (a : Nat) : State :=
  let act := s.f (F.ARM_STS_active a)
  let cfg := s.fe (F.ARM_CFG_active a)
  let s := (s.setF (F.ARM_STS_derated a) 1).setF (F.ARM_DERATE_factor a)
    (min 0x7FFF (roundEven ((32768 * act : Nat) : Int) (max 1 cfg)).toNat)
  let s := s.armNarrow (a / 6)
  (s.boundUnits (a / 6)).foldl (fun s u =>
    if s.bit (F.FLD_CTL_limp_en u) then s.limpEnter u 2
    else s.unitDemandLater u (s.f (F.FLD_OBS_CFG_loss_action u)) 8 11) s

/-- The failure of cell `c` takes effect (R242, R243, R263). -/
def State.cellFailure (s : State) (a c cause : Nat) : State :=
  let k := a / 6
  let sc := (s.cell c).scAt
  let s := s.setCell c { s.cell c with fail := none, scAt := none, order := true, couches := 0, unconf := false }
  let s := (s.setF (F.ARM_CELL_STS_cause c) cause).setF (F.ARM_CELL_STS_tick c) (s.f F.TIME_TICK_COUNT_count)
  let s := (s.substitute a c 3).incSat (F.ARM_FAIL_CNT_failed a)
  let s := if cause = 3 || cause = 4 then s else s.raise 9 0 (scopeCell c) (scopeCell c)
  match sc with
  | some t =>
    if 2 ≤ s.f (F.PROT_CV_POL_sc_pol k) then
      s.demandStamped t k 2 (polState (s.f (F.PROT_CV_POL_sc_state k))) 2 (scopeCell c) else s
  | none => s

/-- The conditions of a cell in service that a couch sees: OVERVOLT, UVLO, and STALE, age 3 at so many consecutive couches while
the lane is not in DOWN (R241). -/
def State.staleCheck (s : State) (a c : Nat) : State :=
  let uv := s.f (F.ARM_FLT_uvlo a)
  let s := if uv != 0 && uv ≤ (s.cell c).uvRun then s.cellFails c 2 else s
  let s := if s.bit (F.ARM_FLT_ov_en a) && fGt (s.cellVolt c) (fOfQ 16 14 (s.f (F.ARM_VLIM_hi a))) then s.cellFails c 5 else s
  let x := s.cell c
  let run := if 3 ≤ x.age && s.laneState (c / 24) != 5 then x.staleRun + 1 else 0
  let s := s.setCell c { x with staleRun := run }
  let lim := s.f (F.ARM_FLT_stale a)
  if lim != 0 && lim ≤ run then s.cellFails c 6 else s

/-- No report has shown cell `c` bypassed within 16 couches of the order, `n` of which the cell must have counted (R243). -/
def State.bypassLate (s : State) (c n : Nat) : Bool :=
  let x := s.cell c
  s.cellState c = 3 && x.order && !x.flags.testBit 4 && n ≤ x.couches && !x.unconf

/-- The failures of arm `a` at a couch, in slot order, before its selection (R242–R247). -/
def State.armFailures (s : State) (a : Nat) : State :=
  if !s.bit (F.ARM_STS_enabled a) then s
  else
    let m := s.mapOf a
    let s := m.foldl (fun s e =>
      let x := s.cell e.2
      if s.cellState e.2 = 3 then
        (if x.flags.testBit 4 then s.setF (F.ARM_CELL_STS_state e.2) 4 else s.setCell e.2 { x with couches := x.couches + 1 })
      else s) s
    let s := m.foldl (fun s e => if s.cellState e.2 = 1 || s.cellState e.2 = 2 then s.staleCheck a e.2 else s) s
    let was := s.f (F.ARM_STS_active a)
    let s := m.foldl (fun s e =>
      match (s.cell e.2).fail with
      | some cause => s.cellFailure a e.2 cause
      | none => s) s
    let s := s.armCount a
    let now := s.f (F.ARM_STS_active a)
    let min_ := s.fe (F.ARM_RED_min_active a)
    let late := m.filter fun e => s.bypassLate e.2 16
    let s := late.foldl (fun s e => (s.setCell e.2 { s.cell e.2 with unconf := true }).setF ⟨R.ARM_FLAGS a, 3, 1⟩ 1) s
    let trips := (now < min_ && (min_ ≤ was || !s.bit (F.ARM_STS_tripped a))) || !late.isEmpty
    let s := if now < was then
        let s := s.armDerate a
        if trips then s else s.armEvent a false false (scopeConv (a / 6))
      else s
    let s := if trips then s.unlessTaken 4 a fun s => s.armTrip a (!late.isEmpty) else s
    if !(s.arm a).low && s.f (F.ARM_STS_spares a) ≤ s.fe (F.ARM_RED_low_water a) then
      (s.setArm a { s.arm a with low := true }).raise 10 0 (scopeArm a) scopeNone
    else s

/-- No bypassed report within 16 couches of the order, the coming one included (R243): the flag, and the trip of R246 at that
couch. -/
def State.bypassUnconfirmed (s : State) (c : Nat) : State :=
  match s.cellOwner c with
  | none => s
  | some a => s.beforeCouch 4 a (s.bypassLate c 15) fun s =>
      ((s.setCell c { s.cell c with unconf := true }).setF ⟨R.ARM_FLAGS a, 3, 1⟩ 1).armTrip a true

/-! ## Selection (R230–R238) -/

/-- Does `x` rank better than `y` (slot, voltage) in direction `dir` (R235)? -/
def ranksBetter (dir : Nat) (x y : Nat × F32) : Bool :=
  if fIsNan x.2 != fIsNan y.2 then fIsNan y.2
  else if fIsNan x.2 then x.1 < y.1
  else if dir = 1 && !fEq x.2 y.2 then fLt x.2 y.2
  else if dir = 2 && !fEq x.2 y.2 then fLt y.2 x.2
  else x.1 < y.1

/-- The best-ranked entry. -/
def bestOf (dir : Nat) : List (Nat × F32) → Option (Nat × F32)
  | [] => none
  | x :: t => match bestOf dir t with
    | none => some x
    | some y => if ranksBetter dir x y then some x else some y

/-- The worst-ranked entry. -/
def worstOf (dir : Nat) : List (Nat × F32) → Option (Nat × F32)
  | [] => none
  | x :: t => match worstOf dir t with
    | none => some x
    | some y => if ranksBetter dir y x then some x else some y

/-- A list without the entry of slot `k`. -/
def dropSlot (k : Nat) (xs : List (Nat × F32)) : List (Nat × F32) := xs.filter fun e => e.1 != k

/-- Take worst entries out of the set until it holds `k`: (set, rest). -/
def shrinkTo (dir k : Nat) : Nat → List (Nat × F32) × List (Nat × F32) → List (Nat × F32) × List (Nat × F32)
  | 0, p => p
  | f + 1, (i, o) =>
    if k < i.length then
      match worstOf dir i with
      | some x => shrinkTo dir k f (dropSlot x.1 i, x :: o)
      | none => (i, o)
    else (i, o)

/-- Take best entries into the set until it holds `k`. -/
def growTo (dir k : Nat) : Nat → List (Nat × F32) × List (Nat × F32) → List (Nat × F32) × List (Nat × F32)
  | 0, p => p
  | f + 1, (i, o) =>
    if i.length < k then
      match bestOf dir o with
      | some x => growTo dir k f (x :: i, dropSlot x.1 o)
      | none => (i, o)
    else (i, o)

/-- At most `f` swaps of the best outside with the worst inside (R236): set, rest, number of swaps. -/
def swaps (dir : Nat) (band : F32) : Nat → Nat → List (Nat × F32) × List (Nat × F32) →
    (List (Nat × F32) × List (Nat × F32)) × Nat
  | 0, n, p => (p, n)
  | f + 1, n, (i, o) =>
    match bestOf dir o, worstOf dir i with
    | some x, some y =>
      if fGt (fAbs (fsub x.2 y.2)) band && ranksBetter dir x y then
        swaps dir band f (n + 1) (x :: dropSlot y.1 i, y :: dropSlot x.1 o)
      else ((i, o), n)
    | _, _ => ((i, o), n)

/-- The whole set of the NLM unit for `k` cells: (slots of S, best cell outside, swaps). -/
def nlmSet (dir k maxSwap : Nat) (band : F32) (w : List Nat) (cells : List (Nat × F32)) : List Nat × Option Nat × Nat :=
  let p := (cells.filter fun e => w.contains e.1, cells.filter fun e => !w.contains e.1)
  let p := growTo dir k 64 (shrinkTo dir k 64 p)
  let r := if dir = 0 then (p, 0) else swaps dir band maxSwap 0 p
  (r.1.1.map Prod.fst, (bestOf dir r.1.2).map Prod.fst, r.2)

/-- Direction of arm `a` at a couch (R234): 0 NONE, 1 CHARGE, 2 DISCHARGE. -/
def State.armDir (s : State) (a : Nat) : Nat :=
  let i := s.hbWord (0x200 + 0x40 * (a / 6) + 4 * (a % 6))
  let i := if s.bitE (F.ARM_CFG_pol a) then fNeg i else i
  let b := fOfQ 16 15 (s.f (F.ARM_BAL_i_band a))
  if fGt i b then 1 else if fLt i (fNeg b) then 2 else s.f (F.ARM_LVL_dir a)

/-- 10⁹ times the cosine of 15° × k less 120° × x. -/
def cosTurn (k x : Nat) : Int :=
  let c : List Int := [1000000000, 965925826, 866025404, 707106781, 500000000, 258819045, 0]
  let q := (k + 48 - 8 * x) % 24
  let item := fun i => c.getD i 0
  if q ≤ 6 then item q else if q ≤ 12 then -(item (12 - q)) else if q ≤ 18 then -(item (q - 12)) else item (24 - q)

/-- Whole count an override asks of arm `a` with `n` active cells (R231); the search and magnetising patterns of R153
name no arm level: a free value (log entry 27). -/
def State.overrideLevel (s : State) (a n : Nat) (p : Pattern) : Nat × State :=
  let upper := a % 2 = 0
  match p with
  | .block => (0, s)
  | .low => (if upper then n else 0, s)
  | .high => (if upper then 0 else n, s)
  | .vector k =>
    let c := 4 * cosTurn k (a % 6 / 2)
    let six := clampInt 0 6000000000 (if upper then 3000000000 - c else 3000000000 + c)
    ((roundEven ((n : Int) * six) 6000000000).toNat, s)
  | .pwm => let v := s.free 32; (v.1.toNat % (n + 1), v.2)

/-- Slots issued by the NLM unit (R237): `S` old and new, mod and its width. -/
def nlmSlot (w new : List Nat) (mod : Option Nat) (width k : Nat) : CellCmd :=
  if mod = some k then { c0 := 1, o0 := 0, c1 := 2, o1 := width }
  else if new.contains k && !w.contains k then { c0 := 1 }
  else if w.contains k && !new.contains k then { c0 := 2 }
  else {}

/-- Slot of a PSC cell of width `w` and phase offset `o` in a tick of `t` ns (R238). -/
def pscSlot (w o t : Nat) : CellCmd :=
  if w < 500 then { c0 := 2 }
  else if t < w + 500 then { c0 := 1 }
  else if o + w < t then { c0 := 1, o0 := o, c1 := 2, o1 := o + w }
  else { c0 := 2, o0 := o + w - t, c1 := 1, o1 := o }

/-- Transitions a slot issues. -/
def CellCmd.count (x : CellCmd) : Nat := (if 1 ≤ x.c0 && x.c0 ≤ 3 then 1 else 0) + (if 1 ≤ x.c1 && x.c1 ≤ 3 then 1 else 0)

/-- Leave the slots `cmd` in the cells of arm `a` and count their transitions (R237). -/
def State.issue (s : State) (a : Nat) (act : List (Nat × Nat)) (cmd : Nat → CellCmd) : State :=
  let n := act.foldl (fun n e => n + (cmd e.1).count) 0
  (act.foldl (fun s e => s.setCell e.2 { s.cell e.2 with cmd := cmd e.1 }) s).incSat (F.ARM_SW_CNT_count a) n

/-- Show the set of arm `a` in ARM_LVL and ARM_INS. -/
def State.showSet (s : State) (a frac dir : Nat) (set : List Nat) (mod : Option Nat) : State :=
  let m := set.foldl (fun m k => m ||| 2 ^ k) 0
  let s := (((s.setF (F.ARM_LVL_whole a) set.length).setF (F.ARM_LVL_frac a) frac).setF (F.ARM_LVL_dir a) dir).setF
    (F.ARM_LVL_mod_slot a) (mod.getD 0)
  let s := s.setB (F.ARM_LVL_mod_valid a) mod.isSome
  (s.setF (F.ARM_INS_map a 0) m).setF (F.ARM_INS_map a 1) (m / 2 ^ 32)

/-- Mean of the valid voltages of a list; NaN where none is valid (R238). -/
def meanVolt (cells : List (Nat × F32)) : F32 :=
  let vs := (cells.map Prod.snd).filter fun v => !fIsNan v
  fdiv (vs.foldl fadd fZero) (fOfInt vs.length)

/-- PSC width of a cell of voltage `v` (R238), in the written order of its terms (log entry 24). -/
def pscWidth (la kb mean v : F32) (dir t : Nat) : Nat :=
  let g := if dir = 1 then fOne else if dir = 2 then fNeg fOne else fZero
  let d := if fIsNan v then la else fadd la (fmul (fmul kb (fsub mean v)) g)
  (fToFixed 0 t 0 (fmul (fMax fZero (fMin fOne d)) (fOfInt t))).1.toNat

/-- A slot of up to two timed transitions (offset, command). -/
def slotOf : List (Nat × Nat) → CellCmd
  | [] => {}
  | [a] => { c0 := a.2, o0 := a.1 }
  | a :: b :: _ => { c0 := a.2, o0 := a.1, c1 := b.2, o1 := b.1 }

/-- The whole sets that arm `a` takes for the patterns `pl` of a test-pulse sequence in the coming tick, with their offsets,
each chosen from the one before it as R236 chooses (R147, R231). -/
def State.pulseSets (s : State) (a n dir : Nat) (band : F32) (cells : List (Nat × F32)) (w : List Nat) :
    List (Nat × Pattern) → List (Nat × List Nat) × State
  | [] => ([], s)
  | (o, p) :: pl =>
    let r := s.overrideLevel a n p
    let set := (nlmSet dir r.1 (s.f (F.ARM_SEL_max_swap a)) band w cells).1
    let q := r.2.pulseSets a n dir band cells set pl
    ((o, set) :: q.1, q.2)

/-- The orders of arm `a` for the patterns `pl` of a test-pulse sequence in the coming tick: BLOCK where the pulse before ends
at its start, then each pattern, a cell that stays as it is taking no transition (R147, R203). -/
def State.armPulse (s : State) (a dir : Nat) (band : F32) (act : List (Nat × Nat)) (cells : List (Nat × F32))
    (pl : List (Nat × Pattern)) : State :=
  let blk := pl.any fun e => e.2 == .block
  let w := if blk then [] else (s.arm a).w
  let r := s.pulseSets a act.length dir band cells w (pl.filter fun e => e.2 != .block)
  let sets := r.1
  let steps := fun k => (sets.foldl (fun (c : List Nat × List (Nat × Nat)) e =>
    let code := if e.2.contains k then 1 else 2
    let was := if c.1.contains k then 1 else 2
    (e.2, if c.1.isEmpty || code != was then c.2 ++ [(e.1, code)] else c.2)) (w, [])).2
  let cmd := fun k => slotOf ((if blk then [(0, 3)] else []) ++ steps k)
  let set := match sets.getLast? with | some e => e.2 | none => w
  let s := (r.2.issue a act cmd).showSet a 0 dir set none
  s.setArm a { s.arm a with w := if s.armBlocked (a / 6) then [] else set }

/-- The selection unit of arm `a` at a couch (R230–R238). -/
def State.armSelect (s : State) (a : Nat) : State :=
  if !s.bit (F.ARM_STS_enabled a) then s
  else
    let v := a / 6
    let act := s.armIn a 1
    let n := act.length
    let cells := act.map fun e => (e.1, s.cellVolt e.2)
    let t := s.periodNs
    let dir := s.armDir a
    let band := fOfQ 16 15 (s.f (F.ARM_BAL_band a))
    let lvl := s.fi (F.ARM_REF_level a)
    let q := (clampInt 0 (256 * n) lvl).toNat
    let w := (s.arm a).w
    let ov := s.armOverride v
    let s := (s.setB (F.ARM_STS_override a) ov.isSome).setB (F.ARM_STS_ref_sat a) ((q : Int) != lvl)
    let s := (s.armIn a 2).foldl (fun s e => s.setCell e.2 { s.cell e.2 with cmd := { c0 := 2 } }) s
    let s := ((s.mapOf a).filter fun e => 3 ≤ s.cellState e.2).foldl (fun s e =>
      s.setCell e.2 { s.cell e.2 with cmd := {} }) s
    let psc := s.fe (F.ARM_CFG_mode a) = 1
    let keep := fun (s : State) (set : List Nat) => s.setArm a { s.arm a with w := if s.armBlocked v then [] else set }
    match s.armPlan v with
    | some pl => s.armPulse a dir band act cells pl
    | none =>
    match ov with
    | some p =>
      let r := s.overrideLevel a n p
      let s := r.2
      let x := nlmSet dir r.1 (s.f (F.ARM_SEL_max_swap a)) band w cells
      let cmd := fun k => if psc then (if x.1.contains k then { c0 := 1 } else { c0 := 2 }) else nlmSlot w x.1 none 0 k
      let s := (s.issue a act cmd).incSat (F.ARM_SWAP_CNT_count a) x.2.2
      keep (s.showSet a 0 dir x.1 none) x.1
    | none =>
      if psc then
        let la := fOfRat q (256 * max 1 n)
        let kb := fOfQ 16 12 (s.f (F.ARM_SEL_kb a))
        let mean := meanVolt cells
        let ws := cells.map fun e => (e.1, pscWidth la kb mean e.2 dir t)
        let cmds := ws.zipIdx.map fun (e, j) => (e.1, pscSlot e.2 (j * t / max 1 n) t)
        let cmd := fun k => tblGet {} cmds k
        let set := (ws.filter fun e => t < e.2 + 500).map Prod.fst
        let s := s.issue a act cmd
        keep (s.showSet a (q % 256) dir set none) set
      else
        let w0 := (roundEven ((q % 256 * t : Nat) : Int) 256).toNat
        let up := t < w0 + 500
        let k := if up then q / 256 + 1 else q / 256
        let width := if up || w0 < 500 then 0 else w0
        let x := nlmSet dir k (s.f (F.ARM_SEL_max_swap a)) band w cells
        let mod := if width = 0 then none else x.2.1
        let s := (s.issue a act (nlmSlot w x.1 mod width)).incSat (F.ARM_SWAP_CNT_count a) x.2.2
        keep (s.showSet a (q % 256) dir x.1 mod) x.1

/-! ## Supervision (R239, R240) -/

/-- Voltages and circulating current of arm `a` at a couch: ARM_SPREAD, ARM_VSUM and the runs above the limits. -/
def State.armSupervise (s : State) (a : Nat) : State :=
  if !s.bit (F.ARM_STS_enabled a) then s
  else
    let vs := ((s.armIn a 1).map fun e => s.cellVolt e.2).filter fun v => !fIsNan v
    let s := s.setReg (R.ARM_VSUM a) (vs.foldl fadd fZero)
    let lo := vs.foldl fMin (vs.head?.getD fZero)
    let hi := vs.foldl fMax (vs.head?.getD fZero)
    let s := if vs.isEmpty then s else
      (s.setF (F.ARM_SPREAD_vmin a) (fToQ 16 14 lo).1).setF (F.ARM_SPREAD_vmax a) (fToQ 16 14 hi).1
    let x := s.arm a
    let wide := fGt (fsub hi lo) (fOfQ 16 15 (s.f (F.ARM_VLIM_spread_max a)))
    let ic := s.f (F.ARM_BALCFG_ic_max a)
    let circ := a % 2 = 0 && ic != 0 &&
      fGt (fAbs (s.hbWord (0x230 + 0x40 * (a / 6) + 4 * (a % 6 / 2)))) (fOfQ 16 15 ic)
    s.setArm a { x with spread := if wide then x.spread + 1 else 0, spreadUp := x.spreadUp && wide
                        circ := if circ then x.circ + 1 else 0, circUp := x.circUp && circ }

/-- The spread has been above its limit at `ticks` couches in a row: EV12 once (R239). -/
def State.spreadLimit (s : State) (a : Nat) : State :=
  let n := s.f (F.ARM_BALCFG_ticks a)
  let x := s.arm a
  if !s.bit (F.ARM_STS_enabled a) || n = 0 || x.spread < n || x.spreadUp then s
  else ((s.setArm a { x with spreadUp := true }).setF ⟨R.ARM_FLAGS a, 1, 1⟩ 1).raise 12 0 (scopeArm a) scopeNone

/-- The circulating current has been above ic_max at `ticks` couches in a row (R240). -/
def State.circLimit (s : State) (a : Nat) : State :=
  let n := s.f (F.ARM_BALCFG_ticks a)
  let x := s.arm a
  if !s.bit (F.ARM_STS_enabled a) || n = 0 || x.circ < n || x.circUp then s
  else ((s.setArm a { x with circUp := true }).setF ⟨R.ARM_FLAGS a, 2, 1⟩ 1).raise 12 0 (scopeArm a) scopeNone

/-- The record of CVv (R232). -/
def State.armMirror (s : State) (v : Nat) : State :=
  if !s.bit (F.ARM_MIRROR_en (6 * v)) then s
  else
    let b := dataBase + 32 * s.f (F.ARM_MIRROR_addr (6 * v))
    s.putWords b ((List.range 6).map fun x =>
      let a := 6 * v + x
      BitVec.ofNat 32 (s.f (F.ARM_STS_active a) + 0x100 * s.f (F.ARM_STS_spares a) + 0x10000 * s.f (F.ARM_LVL_whole a) +
        0x1000000 * s.f (F.ARM_STS_derated a) + 0x2000000 * s.f (F.ARM_STS_ref_sat a) + 0x4000000 * s.f (F.ARM_STS_override a)))

/-- The failures of every arm at a couch (R242, R247). -/
def State.failuresCouch (s : State) : State := if s.part.mmc then (List.range 12).foldl State.armFailures s else s

/-- The arms at a couch after their failures: supervision and selection, then the records and the downlink (R213, R233). -/
def State.armsCouch (s : State) : State :=
  if !s.part.mmc then s
  else
    let s := (List.range 12).foldl State.armSupervise s
    let s := (List.range 12).foldl State.armSelect s
    let s := (List.range 2).foldl State.armMirror s
    (List.range 16).foldl State.laneCouch s

/-! ## Meanings -/

/-- ARM_ENABLE (R227). -/
def execArmEnable (a : Fin 12) (s : State) : Host.Outcome State Fault Refusal := onMain s fun s => s.armEnable a
/-- ARM_DISABLE (R228). -/
def execArmDisable (a : Fin 12) (s : State) : Host.Outcome State Fault Refusal := onMain s fun s => s.armDisable a
/-- CELL_RETIRE (R241). -/
def execCellRetire (c : Fin 384) (s : State) : Host.Outcome State Fault Refusal := onMain s fun s => s.cellRetire c
/-- BYPASS_UNCONFIRMED (R243). -/
def execBypassUnconfirmed (c : Fin 384) (s : State) : Host.Outcome State Fault Refusal :=
  onMain s fun s => s.bypassUnconfirmed c
/-- SPREAD_LIMIT (R239). -/
def execSpreadLimit (a : Fin 12) (s : State) : Host.Outcome State Fault Refusal := onMain s fun s => s.spreadLimit a
/-- CIRC_LIMIT (R240). -/
def execCircLimit (a : Fin 12) (s : State) : Host.Outcome State Fault Refusal := onMain s fun s => s.circLimit a

end Sys2Proof.Machine
end

