-- ==== Sys2Proof/Machine/Time.lean ====
section
/-! DEFINITION. The tick's start and stop (R27–R29, R47), the second pulse and the stamps (R31, R32, R35). -/

namespace Sys2Proof.Machine

/-! ## Window check (R46, R47) -/

/-- Lane cycles of the compute window for a period and a lead in 4 ns counts (R46). -/
def windowCycles (period lead : Nat) : Int := 16 * ((period : Int) - lead - 375) / 5

/-- Every slice ends within `w` cycles (R47 code 5). -/
def Sched.fits (t : Sched) (w : Int) : Bool := t.slices.all fun x => ((x.start + x.budget : Nat) : Int) ≤ w

/-! ## Start and stop (R27–R29) -/

/-- Role of the device on its line: 0 standalone, 1 time master, 2 follower. -/
def State.role (s : State) : Nat := s.f F.TIME_LINE_STS_role

/-- Configured chain length of lane `n`: that in force while the lane is out of OFF. -/
def State.chainCfg (s : State) (n : Nat) : Nat :=
  if s.laneState n = 0 then s.f (F.KYN_LANE_CTL_chain n) else s.chain n

/-- The tick period in 4 ns counts and the lead that a start would take (R29). -/
def State.startPeriod (s : State) : Nat := s.f F.TIME_TICK_PERIOD_period_m1 + 1

/-- The check of R27 that fails first, 0 for none. -/
def State.startCheck (s : State) : Nat :=
  let p := s.startPeriod
  let l := s.f F.TIME_COUCH_LEAD_lead
  if p < 2000 || 50000 < p then 1
  else if !(s.bit F.TILE_SCHED_STS_verified && (s.eng.sched.getD {}).fits (windowCycles p l)) then 2
  else if (List.range s.part.kynLanes).any fun n => chainLimit p < s.chainCfg n then 3
  else if l < s.f F.TIME_REQ_LEAD_req_lead then 4
  else if p < l + 625 then 5
  else if s.role = 2 && !s.bit F.TIME_LINE_STS_locked then 6
  else if s.role = 2 && s.f F.TIME_SRV_PERIOD_period_m1 + 1 != p then 7
  else 0

/-- The tick epoch that governs: the master's on a follower (R26, R36). -/
def State.epochNow (s : State) : Nat :=
  if s.role = 2 then s.tm.masterEpoch
  else (s.f F.TIME_TICK_EPOCH_LO_epoch_lo + 2 ^ 32 * s.f F.TIME_TICK_EPOCH_HI_epoch_hi) / 4 * 4

/-- TILE_SCHED_STS.error after the keeper's repeated window check: 5 where it fails, 0 where it passes (R47). -/
def State.windowCheck (s : State) : State :=
  if !s.bit F.TILE_SCHED_STS_verified then s
  else s.setF F.TILE_SCHED_STS_error
    (if (s.eng.sched.getD {}).fits (windowCycles s.startPeriod (s.f F.TIME_COUCH_LEAD_lead)) then 0 else 5)

/-- A write of 1 to TIME_TICK_CTL.run (R27, R29). -/
def State.startTick (s : State) : State :=
  if s.bit F.TIME_TICK_CTL_run then s
  else
    let e := s.startCheck
    let s := if e = 1 then s else s.windowCheck
    let s := s.setF F.TIME_TICK_STS_start_error e
    if e != 0 then s.setF F.TIME_TICK_STS_start_refused 1
    else
      let p := s.startPeriod
      let ep := s.epochNow
      { s.setF F.TIME_TICK_CTL_run 1 with
        tm := { s.tm with pend := some ⟨gridAt ep (4 * p) (s.now + 4000), p, s.f F.TIME_COUCH_LEAD_lead, ep⟩ }
        sns := { s.sns with sdcRestart := true } }

/-- Every unit is disabled or safe and every converter in a safe state (R28). -/
def State.allSafe (s : State) : Bool :=
  (List.range 8).all s.driveSafe && (List.range 8).all fun k => !s.convExists k || s.f (F.PROT_CV_STS_state k) != 0

/-- A write of 0 to TIME_TICK_CTL.run (R28): a pending start is cancelled, a running tick ends with the tick in
progress. -/
def State.stopTick (s : State) : State :=
  if !s.bit F.TIME_TICK_CTL_run then s
  else if !s.allSafe then s.setF F.TIME_TICK_STS_stop_rejected 1
  else
    let s := s.setF F.TIME_TICK_CTL_run 0
    if s.tm.pend.isSome then { s with tm := { s.tm with pend := none }, sns := { s.sns with sdcRestart := false } }
    else { s with tm := { s.tm with stopping := true } }

/-! ## Second pulse, stamps, latched reads (R31, R32, R35) -/

/-- The global time reaches the next whole second: the 10 µs of the second pulse begin, which PPSO shows while ppso_en is 1
(R35). A held counter waits (R37). -/
def State.ppsoSecond (s : State) : State :=
  if s.tm.holdLag.isSome then s
  else
    let t := (s.now + 999999999) / 1000000000 * 1000000000
    let s := s.at t
    { s with tm := { s.tm with ppso := true } }

/-- 10 µs after the second the pulse ends; a held counter waits (R37). -/
def State.ppsoEnd (s : State) : State :=
  if !s.tm.ppso || s.tm.holdLag.isSome then s
  else
    let s := s.at (s.now / 1000000000 * 1000000000 + 10000)
    { s with tm := { s.tm with ppso := false } }

/-- One cycle of the 250 MHz timebase passes (R30): global time runs from the lock of the main PLL on. A follower that slews
back makes 1 ns of the cycle at least (R37, log entry 62). -/
def State.idle (s : State) : State :=
  if !s.bit F.CLK_STS_pll_lock then s
  else
    let b := min 3 s.tm.slow
    let s := { s with tm := { s.tm with slow := s.tm.slow - b } }
    s.at (s.now + 4 - b)

/-- Level of the ball PPSO (R35). -/
def State.ppsoBall (s : State) : Bool := s.tm.ppso && s.bit F.TIME_TICK_CTL_ppso_en

/-- What master `m` last read. -/
def State.returns (s : State) (m : Master) (ws : List Word) : State :=
  { s with host := { s.host with rdata := tblSet s.host.rdata (masterIdx m) ws } }

/-- Latch `k` of master `m` (R31). -/
def State.latched (s : State) (k : Nat) (m : Master) : Word := tblGet 0 s.host.latch (4 * k + masterIdx m)

/-- Master `m` reads the low word of a pair whose high word is `hi`: the high word is latched for it, and the read returns
`lo` (R31). -/
def State.readPair (s : State) (k : Nat) (m : Master) (lo hi : Word) : State :=
  ({ s with host := { s.host with latch := tblSet s.host.latch (4 * k + masterIdx m) hi } }).returns m [lo]

/-- A read of TIME_NOW_LO (R31). -/
def State.readTimeNow (s : State) (m : Master) : State :=
  s.readPair 0 m (BitVec.ofNat 32 s.now) (BitVec.ofNat 32 (s.now / 2 ^ 32))

/-! ## Meanings -/

/-- START_TICK (R27). -/
def execStartTick (s : State) : Host.Outcome State Fault Refusal := onMain s State.startTick
/-- STOP_TICK (R28). -/
def execStopTick (s : State) : Host.Outcome State Fault Refusal := onMain s State.stopTick
/-- PPSO_SECOND (R35). -/
def execPpsoSecond (s : State) : Host.Outcome State Fault Refusal := onMain s State.ppsoSecond
/-- PPSO_PULSE_END (R35). -/
def execPpsoPulseEnd (s : State) : Host.Outcome State Fault Refusal := onMain s State.ppsoEnd
/-- PPSI_EDGE (R32): the two stamp registers change together. -/
def execPpsiEdge (ph : Fin 4) (s : State) : Host.Outcome State Fault Refusal :=
  onMain s fun s =>
    let t := s.now / 4 * 4 + ph
    (s.setF F.TIME_PPSI_LO_ppsi_lo t).setF F.TIME_PPSI_HI_ppsi_hi (t / 2 ^ 32)
/-- TIME_NOW_READ (R31). -/
def execTimeNowRead (m : Master) (s : State) : Host.Outcome State Fault Refusal := onBus s m fun s => s.readTimeNow m
/-- GPIO_STAMP_READ (R31). -/
def execGpioStampRead (m : Master) (s : State) : Host.Outcome State Fault Refusal :=
  onBus s m fun s => s.readPair 1 m (s.reg R.GPIO_STAMP_LO) (s.reg R.GPIO_STAMP_HI)
/-- CAN_TIMESTAMP_READ (R375): CAN_TS_LO of controller CANn. -/
def execCanTimestampRead (n : Fin 4) (m : Master) (s : State) : Host.Outcome State Fault Refusal :=
  onBus s m fun s => s.readPair (2 + n) m (s.reg (R.CAN_TS_LO n)) (s.reg (R.CAN_TS_HI n))

end Sys2Proof.Machine
end

