-- ==== Sys2Proof/Machine/Can.lean ====
section
/-! DEFINITION. The CAN FD controllers (13_can_fd.md). Objects are numbered 0–2 for TXB0–TXB2 and 3 + m for MOm, 99 for a
reference message. -/

namespace Sys2Proof.Machine

/-! ## Objects, pending bits, interrupts (R366, R381) -/

/-- Controller `n`'s hidden state. -/
def State.can (s : State) (n : Nat) : CanSt := tblGet {} s.cans n
/-- The state with controller `n` as `x`. -/
def State.setCan (s : State) (n : Nat) (x : CanSt) : State := { s with cans := tblSet s.cans n x }

/-- Address of word `i` of object `o` (R366). -/
def objAddr (n o i : Nat) : Nat := canRam n + 0x50 * o + 4 * i
/-- Word `i` of object `o`. -/
def State.obj (s : State) (n o i : Nat) : Word := s.word (objAddr n o i)

/-- Pending bit of object `o`. -/
def pendBit (n o : Nat) : Fld := if o < 3 then ⟨R.CAN_TXB_STS n, o, 1⟩ else ⟨R.CAN_MOPEND n ((o - 3) / 32), (o - 3) % 32, 1⟩
/-- New bit of MOm. -/
def newBit (n m : Nat) : Fld := ⟨R.CAN_NEW n (m / 32), m % 32, 1⟩
/-- Lost bit of MOm. -/
def lostBit (n m : Nat) : Fld := ⟨R.CAN_LOST n (m / 32), m % 32, 1⟩

/-- Direction of MOm: 0 disabled, 1 receive, 2 transmit (R366). -/
def State.objDir (s : State) (n o : Nat) : Nat := let d := getBits (s.obj n o 2) 8 2; if d = 3 then 0 else d

/-- Set bit `b` of CAN_IRQ; an enabled bit that changes from 0 to 1 raises EV44 + n (R381). -/
def State.canIrq (s : State) (n b : Nat) : State :=
  let x : Fld := ⟨R.CAN_IRQ n, b, 1⟩
  if s.bit x then s
  else
    let s := s.setF x 1
    if (s.f (F.CAN_IE_ie n)).testBit b then s.raiseDev (44 + n) (getBits (s.reg (R.CAN_IRQ n)) 0 16) else s

/-- Length in bytes that a data length code gives (R366). -/
def dlcLen (fdf : Bool) (dlc : Nat) : Nat :=
  if dlc ≤ 8 then dlc else if !fdf then 8 else [12, 16, 20, 24, 32, 48, 64][dlc - 9]?.getD 64

/-! ## Confinement (R373) -/

/-- The error counters take values `tec` and `rec_`: warning, passive and bus-off follow (R373; limits of ISO 11898-1,
PRESUMED, log entry 30). -/
def State.canErr (s : State) (n tec rec_ : Nat) : State :=
  let was96 := (s.f (F.CAN_ERR_tec n) < 96 && 96 ≤ tec) || (s.f (F.CAN_ERR_rec n) < 96 && 96 ≤ rec_)
  let was := s.f (F.CAN_STS_conf n)
  let s := (s.setF (F.CAN_ERR_tec n) (min 511 tec)).setF (F.CAN_ERR_rec n) (min 511 rec_)
  let conf := if was = 2 || 256 ≤ tec then 2 else if 128 ≤ tec || 128 ≤ rec_ then 1 else 0
  let s := s.setF (F.CAN_STS_conf n) conf
  let s := if was96 then s.canIrq n 3 else s
  let s := if was = 0 && conf = 1 then s.canIrq n 4 else s
  if was != 2 && conf = 2 then (s.canIrq n 5).setCan n { s.can n with onBus := none, sending := none } else s

/-- A frame has been received without error: the receive counter falls (ISO 11898-1); above 127 it takes a value from 119 to
127, which is free. -/
def State.canGood (s : State) (n : Nat) : State :=
  let r := s.f (F.CAN_ERR_rec n)
  if r < 128 then s.canErr n (s.f (F.CAN_ERR_tec n)) (r - 1)
  else let v := s.free 4; v.2.canErr n (s.f (F.CAN_ERR_tec n)) (119 + v.1.toNat % 9)

/-! ## Enable and disable (R362, R364) -/

/-- The check of R364 that fails first, 0 for none. -/
def State.canCheck (s : State) (n : Nat) : Nat :=
  let fd := s.bit (F.CAN_CTL_fd_en n)
  let nt1 := s.f (F.CAN_NBT_tseg1_m1 n) + 1
  let nt2 := s.f (F.CAN_NBT_tseg2_m1 n) + 1
  let dt1 := s.f (F.CAN_DBT_tseg1_m1 n) + 1
  let dt2 := s.f (F.CAN_DBT_tseg2_m1 n) + 1
  let nk := (s.f (F.CAN_NBT_brp_m1 n) + 1) * (1 + nt1 + nt2)
  let dk := (s.f (F.CAN_DBT_brp_m1 n) + 1) * (1 + dt1 + dt2)
  if nt1 < 2 || nt2 < 2 || nt2 < s.f (F.CAN_NBT_sjw_m1 n) + 1 || (fd && dt2 < s.f (F.CAN_DBT_sjw_m1 n) + 1) then 1
  else if nk < 80 || (fd && (dk < 10 || nk < dk)) then 2
  else if s.f (F.CAN_CTL_mode n) = 3 then 3
  else if s.bit (F.CAN_TTCFG_tt_en n) && s.f (F.CAN_TTCFG_ref_period n) < 100 then 4
  else 0

/-- A controller as its enable leaves it. -/
def State.canFresh (s : State) (n : Nat) : CanSt :=
  { rbuf := (s.can n).rbuf, mode := if s.bit (F.CAN_CTL_en n) then s.f (F.CAN_CTL_mode n) else 0, start := s.now }

/-- No frame is on the bus that controller `n` takes part in, and it awaits no recessive bits. -/
def State.canIdle (s : State) (n : Nat) : Bool := (s.can n).onBus.isNone && !(s.can n).foreign && !(s.can n).wait

/-- A write of 1 to CAN_CTL.en. Where a disable still waits for the end of a frame, that disable acts first and the controller
integrates after it (DESIGN CHOICE, log entry 133). -/
def State.canEnable (s : State) (n : Nat) : State :=
  if s.bit (F.CAN_CTL_en n) then s
  else
    let e := s.canCheck n
    let s := s.setF (F.CAN_STS_error n) e
    if e != 0 then s
    else
      let s := (s.takeInForce (R.CAN_CTL n) (R.CAN_CTL n + 0x80)).setF (F.CAN_CTL_en n) 1
      if (s.can n).leaving then s
      else
        let s := ((s.setReg (R.CAN_ERR n) 0).setF (F.CAN_STS_conf n) 0).setF (F.CAN_STS_recovering n) 0
        s.setCan n (s.canFresh n)

/-- The disable acts: pending requests and error counters are cleared, the message RAM is kept. -/
def State.canOff (s : State) (n : Nat) : State :=
  let s := (s.setF (F.CAN_TXB_STS_pending n) 0).setReg (R.CAN_ERR n) 0
  let s := (List.range 3).foldl (fun s k => s.setReg (R.CAN_MOPEND n k) 0) s
  let s := (((s.setF (F.CAN_STS_enabled n) 0).setF (F.CAN_STS_sleeping n) 0).setF (F.CAN_STS_conf n) 0).setF (F.CAN_STS_recovering n) 0
  (s.setF (F.CAN_STS_bus_idle n) 0).setCan n (s.canFresh n)

/-- A write of 0 to CAN_CTL.en: at the end of the frame in progress, its own or another node's, or at once. -/
def State.canDisable (s : State) (n : Nat) : State :=
  if !s.bit (F.CAN_CTL_en n) then s
  else
    let s := s.setF (F.CAN_CTL_en n) 0
    if (s.can n).onBus.isSome || (s.can n).foreign then s.setCan n { s.can n with leaving := true } else s.canOff n

/-- A change of mode to NORMAL or RESTRICTED acts at a bus idle (R365); out of sleep the controller integrates first, as after a
wake (log entry 118). -/
def State.canMode (s : State) (n : Nat) : State :=
  let m := s.f (F.CAN_CTL_mode n)
  if s.bit (F.CAN_CTL_en n) && (m = 0 || m = 1) && s.canIdle n then
    let s := if s.bit (F.CAN_STS_sleeping n) then (s.setF (F.CAN_STS_sleeping n) 0).setF (F.CAN_STS_enabled n) 0 else s
    s.setCan n { s.can n with mode := m }
  else s

/-- The bus becomes idle: a disable that waits acts now, or a change of mode that waits (R364, R365). -/
def State.canFree (s : State) (n : Nat) : State :=
  let s := (s.setCan n { s.can n with onBus := none, sending := none, cancel := false, foreign := false, wait := false }).setF
    (F.CAN_STS_bus_idle n) 1
  if (s.can n).leaving then s.canOff n else s.canMode n

/-- 11 recessive bits: the controller takes part in bus traffic (R364, R374, R380). -/
def State.canIntegrated (s : State) (n : Nat) : State :=
  if (s.bit (F.CAN_CTL_en n) || (s.can n).leaving) && s.f (F.CAN_STS_conf n) != 2 && !s.bit (F.CAN_STS_sleeping n) then
    (s.setF (F.CAN_STS_enabled n) 1).canFree n
  else s

/-- CTXn is recessive whatever the bus does: before the controller is enabled, and while it sleeps (R364, R380). -/
def State.ctxRecessive (s : State) (n : Nat) : Bool :=
  (!s.bit (F.CAN_CTL_en n) && (s.can n).onBus.isNone) || s.bit (F.CAN_STS_sleeping n)

/-! ## Reception (R367, R368, R376) -/

/-- Receive object `m` matches a frame. -/
def State.objMatches (s : State) (n m : Nat) (fr : CanFrame) : Bool :=
  let w0 := s.obj n (3 + m) 0
  let w1 := s.obj n (3 + m) 1
  s.objDir n (3 + m) == 1 && (((fr.id.setWidth 32 : Word) ^^^ w0) &&& w1 &&& 0x1FFFFFFF) == 0 &&
    (!w1.getLsbD 29 || w0.getLsbD 29 == fr.xtd)

/-- The data field of a frame, zero-padded to 64 bytes. -/
def canBytes (fr : CanFrame) : List Byte :=
  let n := dlcLen fr.fdf fr.dlc.toNat
  fr.data.take n ++ List.replicate (64 - min n fr.data.length) 0

/-- Words of a byte list, four bytes each. -/
def wordsOf (bs : List Byte) (n : Nat) : List Word := (List.range n).map fun i => BitVec.ofNat 32 (ofBytes ((bs.drop (4 * i)).take 4))

/-- The format bits and identifier of a frame as w0 holds them. -/
def canW0 (fr : CanFrame) : Word :=
  BitVec.ofNat 32 (fr.id.toNat + fr.xtd.toNat * 2 ^ 29 + fr.fdf.toNat * 2 ^ 30 + fr.brs.toNat * 2 ^ 31)

/-- Number of continuation entries of a data field of `n` bytes (R376). -/
def contEntries (n : Nat) : Nat := if n ≤ 16 then 0 else if n ≤ 48 then 1 else 2

/-- The entries of a frame in RG13 (R376). -/
def ringEntries (n : Nat) (fr : CanFrame) (sof : Nat) : List (List Word) :=
  let c := contEntries (dlcLen fr.fdf fr.dlc.toNat)
  let bs := canBytes fr
  let w1 := fr.dlc.toNat + n * 16 + fr.esi.toNat * 0x100 + c * 0x10000
  let first := [canW0 fr, BitVec.ofNat 32 w1, BitVec.ofNat 32 sof, BitVec.ofNat 32 (sof / 2 ^ 32)] ++ wordsOf bs 4
  let rest := [wordsOf (bs.drop 16) 8, wordsOf ((bs.drop 48) ++ List.replicate 16 0) 8]
  first :: rest.take c

/-- Store a frame into MOm: the identifier and mask bits stay (R367). -/
def State.objStore (s : State) (n m : Nat) (fr : CanFrame) (sof : Nat) : State :=
  let a := fun i => objAddr n (3 + m) i
  let w0 := insertBits (s.word (a 0)) 29 3 (fr.xtd.toNat + 2 * fr.fdf.toNat + 4 * fr.brs.toNat)
  let w2 := insertBits (s.word (a 2)) 0 5 (fr.dlc.toNat + 16 * fr.esi.toNat)
  let s := ((s.putWord (a 0) w0).putWord (a 2) w2).putWord (a 3) (BitVec.ofNat 32 sof)
  (s.putWords (a 4) (wordsOf (canBytes fr) 16)).setF (newBit n m) 1

/-- The stamp of the latest valid frame (R375). -/
def State.canStamp (s : State) (n sof : Nat) : State :=
  (s.setReg (R.CAN_TS_LO n) (BitVec.ofNat 32 sof)).setReg (R.CAN_TS_HI n) (BitVec.ofNat 32 (sof / 2 ^ 32))

/-- A valid data frame goes to the lowest matching object (R367, R368), and to RG13 where the object asks for it. -/
def State.canDeliver (s : State) (n : Nat) (fr : CanFrame) (sof : Nat) : State :=
  match (List.range 96).find? fun m => s.objMatches n m fr with
  | none => (s.incSat (F.CAN_CNT_nomatch n)).canIrq n 11
  | some m =>
    let w2 := s.obj n (3 + m) 2
    let full := s.bit (newBit n m)
    let s := if full then ((s.setF (lostBit n m) 1).incSat (F.CAN_CNT_lost n)).canIrq n 6 else s
    let s := if full && !w2.getLsbD 10 then s else (s.objStore n m fr sof).canIrq n 0
    if w2.getLsbD 11 then s.ringPut 13 (ringEntries n fr sof) else s

/-- The controller takes part in bus traffic. -/
def State.canLive (s : State) (n : Nat) : Bool :=
  s.bit (F.CAN_STS_enabled n) && !s.bit (F.CAN_STS_sleeping n) && s.f (F.CAN_STS_conf n) != 2 && !(s.can n).wait

/-- A valid frame: an FD frame is one where fd_en allows FD frames (R383; log entry 118). -/
def State.canValid (s : State) (n : Nat) (fr : CanFrame) : Bool := !fr.fdf || s.bitE (F.CAN_CTL_fd_en n)

/-! ### Reference messages (R377–R379) -/

/-- Time-triggered operation is on, and this controller is the master. -/
def State.ttMaster (s : State) (n : Nat) : Bool := s.bitE (F.CAN_TTCFG_master n)

/-- Objects that were triggered and have not started are withdrawn (R379). -/
def State.ttWithdraw (s : State) (n : Nat) : State :=
  (s.can n).due.foldl (fun s o => ((s.setF (pendBit n o) 0).incSat (F.CAN_TTSTS_missed n)).canIrq n 2) s

/-- A reference message with its cycle count and SOF stamp, on the master and on a receiver alike (R378). -/
def State.refMessage (s : State) (n c sof : Nat) : State :=
  let s := s.ttWithdraw n
  let x := s.can n
  let s := s.setCan n { x with start := sof, refSeen := true, refTold := false, due := [], triggered := [], cycle := (c + 1) % 64 }
  let s := (s.setF (F.CAN_TTSTS_cycle n) c).canIrq n 9
  s.raiseAt sof false 48 (n + c * 0x100) s.scopeDev scopeNone

/-- A frame with the identifier of CAN_REFID is a reference message to a receiver; one without data byte 0 gives no cycle count
and is none (R378; log entry 133). -/
def State.isRef (s : State) (n : Nat) (fr : CanFrame) : Bool :=
  let r := s.fe (F.CAN_REFID_id n)
  s.bitE (F.CAN_TTCFG_tt_en n) && !s.ttMaster n && fr.xtd == s.bitE (F.CAN_REFID_xtd n) && fr.dlc != 0 &&
    (if fr.xtd then fr.id.toNat == r else fr.id.toNat / 2 ^ 18 == r / 2 ^ 18)

/-- CAN_FRAME_RECEIVED: another node's frame ends without error. -/
def State.canReceive (s : State) (n : Nat) (fr : CanFrame) (sof : Nat) : State :=
  if !s.canLive n || !s.canValid n fr then s
  else
    let s := ((s.canStamp n sof).canGood n).canDeliver n fr sof
    let s := if s.isRef n fr then s.refMessage n (byteAt (canBytes fr) 0 % 64) sof else s
    s.canFree n

/-! ## Transmission (R370–R372, R376, R379) -/

/-- Controller `n` sends RG12 frames through TXB2 (R376). -/
def State.ringTx (s : State) (n : Nat) : Bool := s.bitE (F.CAN_CTL_ring_tx n)

/-- A request for object `o`: an FD frame is refused while fd_en is 0 (R366). -/
def State.txAsk (s : State) (n o : Nat) : State :=
  if (s.obj n o 0).getLsbD 30 && !s.bitE (F.CAN_CTL_fd_en n) then s.canIrq n 10 else s.setF (pendBit n o) 1

/-- A write of request bits (those of TXB2 are dropped while RG12 goes through it, R376): `k` 0 is CAN_TXB_CMD, 1–3 CAN_MOREQ0–2 (R370). -/
def State.txRequest (s : State) (n k mask : Nat) : State :=
  if k = 0 then
    ((bitsOf 3 mask).filter fun b => !(b == 2 && s.ringTx n)).foldl (fun s b => s.txAsk n b) s
  else
    ((bitsOf 32 mask).map fun j => 3 + 32 * (k - 1) + j).foldl
      (fun s o => if s.objDir n o == 2 then s.txAsk n o else s) s

/-- A cancel of object `o` (R371). -/
def State.txDrop (s : State) (n o : Nat) : State :=
  if !s.bit (pendBit n o) then s
  else
    let s := if o < 3 then s.setF ⟨R.CAN_TXB_STS n, 12 + o, 1⟩ 1 else s
    let s := s.setCan n { s.can n with due := (s.can n).due.filter (· != o) }
    if (s.can n).onBus = some o then s.setCan n { s.can n with cancel := true } else s.setF (pendBit n o) 0

/-- A write of cancel bits. -/
def State.txCancel (s : State) (n mask : Nat) : State :=
  (bitsOf 3 mask).foldl (fun s b => s.txDrop n b) s

/-- Arbitration rank of object `o`: the lower wins; a base frame wins against an extended one of the same base identifier. -/
def State.arbKey (s : State) (n o : Nat) : Nat :=
  let w0 := s.obj n o 0
  getBits w0 18 11 * 2 ^ 19 + (if w0.getLsbD 29 then 2 ^ 18 + getBits w0 0 18 else 0)

/-- The pending candidates in the order of tx_prio 1. -/
def State.candidates (s : State) (n : Nat) : List Nat :=
  (List.range 99).filter fun o => s.bit (pendBit n o) &&
    (o < 3 || (s.objDir n o == 2 && (!(s.obj n o 2).getLsbD 12 || ((s.can n).refSeen && (s.can n).due.contains o))))

/-- The candidate that arbitration would choose, the first among equals. -/
def State.best (s : State) (n : Nat) : List Nat → Option Nat
  | [] => none
  | o :: os => match s.best n os with
    | some p => if s.arbKey n p < s.arbKey n o then some p else some o
    | none => some o

/-- The frame that object `o` sends (R366), or the reference message: identifier and format of CAN_REFID, classical, dlc 1, the
cycle count in byte 0 (R377). esi is sent as ISO 11898-1 has it, error passive (log entry 30). -/
def State.txFrame (s : State) (n o : Nat) : CanFrame :=
  if 99 ≤ o then ⟨BitVec.ofNat 29 (s.fe (F.CAN_REFID_id n)), s.bitE (F.CAN_REFID_xtd n), false, false, false, 1,
    [BitVec.ofNat 8 ((s.can n).cycle % 64)]⟩
  else
    let w0 := s.obj n o 0
    let fdf := w0.getLsbD 30
    let dlc := getBits (s.obj n o 2) 0 4
    ⟨w0.setWidth 29, w0.getLsbD 29, fdf, fdf && w0.getLsbD 31, fdf && s.f (F.CAN_STS_conf n) == 1, BitVec.ofNat 4 dlc,
      (List.range (dlcLen fdf dlc)).map fun i => memGet s.mem (objAddr n o 4 + i)⟩

/-- A start-of-frame opportunity (R370, R377): the controller sends what it selects; `other` says that another node's frame
begins too, or alone. -/
def State.txSelect (s : State) (n : Nat) (other : Bool) : State :=
  let x := s.can n
  if !s.canLive n || !s.canIdle n then s
  else
    let pick := if x.mode != 0 || x.leaving then none
      else if x.refReq then some 99
      else if s.bitE (F.CAN_CTL_tx_prio n) then (s.candidates n).head? else s.best n (s.candidates n)
    match pick with
    | none => if other then (s.setCan n { x with foreign := true }).setF (F.CAN_STS_bus_idle n) 0 else s
    | some o => (s.setCan n { x with onBus := some o, sending := some (s.txFrame n o), cancel := false,
                                     due := x.due.filter (· != o) }).setF (F.CAN_STS_bus_idle n) 0

/-- The frame on the bus has failed: for cause 1 arbitration lost, with the winner's frame on the bus, 2 error (R371, R372). -/
def State.txFail (s : State) (n cause : Nat) : State :=
  let x := s.can n
  match x.onBus with
  | none => s
  | some o =>
    let s := if 99 ≤ o then s
      else if o < 3 && s.bit (F.CAN_CTL_oneshot n) then
        (((s.setF (pendBit n o) 0).setF ⟨R.CAN_TXB_STS n, 8 + o, 1⟩ 1).setF ⟨R.CAN_TXB_STS n, 16 + 2 * o, 2⟩ cause).canIrq n 2
      else if x.cancel then s.setF (pendBit n o) 0
      else s
    if cause = 1 then
      (s.setCan n { s.can n with onBus := none, sending := none, cancel := false, foreign := true }).setF (F.CAN_STS_bus_idle n) 0
    else s.canFree n

/-- The loop delay that the frame of object `o` has shown (R363). -/
def State.tdcMeasure (s : State) (n o delay : Nat) : State :=
  let w0 := s.obj n o 0
  if o < 99 && w0.getLsbD 30 && w0.getLsbD 31 && s.bitE (F.CAN_TDC_tdc_en n) then
    let s := s.setF (F.CAN_TDC_STS_measured n) (min 127 delay)
    if 127 ≤ delay then (s.setF (F.CAN_TDC_STS_sat n) 1).canIrq n 8 else s
  else s

/-- The frame on the bus has been sent: `delay` is the loop delay in minimum time quanta (R363, R370). -/
def State.txDone (s : State) (n sof delay : Nat) : State :=
  let x := s.can n
  match x.onBus with
  | none => s
  | some o =>
    let s := (s.canStamp n sof).canErr n (s.f (F.CAN_ERR_tec n) - 1) (s.f (F.CAN_ERR_rec n))
    let s := s.tdcMeasure n o delay
    let s := if 99 ≤ o then (s.setCan n { x with refReq := false }).refMessage n (x.cycle % 64) sof
      else
        let s := (s.setF (pendBit n o) 0).putWord (objAddr n o 3) (BitVec.ofNat 32 sof)
        let s := if o < 3 then s.setF ⟨R.CAN_TXB_STS n, 4 + o, 1⟩ 1 else s
        s.canIrq n 1
    s.canFree n

/-- What an error adds to the transmit and the receive error counter of a controller in confinement state `conf`, as
ISO 11898-1 lays down (R373; PRESUMED, log entry 30). -/
def canBump (conf : Nat) (lec : Fin 7) (tx : Bool) (e : CanError) : Nat × Nat :=
  match e.cause with
  | .exempt => if tx && (lec == 3 && conf == 1 || lec == 1) then (0, 0) else if tx then (8, 0) else (0, 1)
  | .detected => if tx then (8, 0) else (0, 1)
  | .afterFlag => if tx then (0, 0) else (0, 8)
  | .inFlag | .dominant => if tx then (8, 0) else (0, 8)

/-- A bus error with code `lec`, in a frame the controller sends (`tx`) or receives, ends the frame: the counters rise as
ISO 11898-1 lays down (R373). In RESTRICTED mode they stay and 11 recessive bits are awaited (R374). A disable that waited
for the end of this frame leaves the counters at 0 (R364). -/
def State.canError (s : State) (n : Nat) (lec : Fin 7) (tx : Bool) (e : CanError) : State :=
  if !s.canLive n then s
  else
    let up := canBump (s.f (F.CAN_STS_conf n)) lec tx e
    let s := if lec = 0 then s else s.setF (F.CAN_STS_lec n) lec
    let s := match (s.can n).onBus, e.delay with
      | some o, some d => if tx then s.tdcMeasure n o d else s
      | _, _ => s
    if (s.can n).mode = 1 then
      if (s.can n).leaving then s.canOff n
      else (s.setCan n { s.can n with onBus := none, sending := none, cancel := false, foreign := false, wait := true }).setF
        (F.CAN_STS_bus_idle n) 0
    else
      let s := if tx && (s.can n).onBus.isSome then s.txFail n 2 else s.canFree n
      if !s.canLive n then s else s.canErr n (s.f (F.CAN_ERR_tec n) + up.1) (s.f (F.CAN_ERR_rec n) + up.2)

/-! ## The message RAM as the host sees it (R369, R371) -/

/-- A write of the bytes `be` of word `i` of object `o`: ignored with wr_ignored where its request pends (R371), and ignored
where the object is TXB2 while RG12 goes through it (R376). -/
def State.objWrite (s : State) (n o i : Nat) (be : BitVec 4) (val : Word) : State :=
  if s.bit (pendBit n o) then
    if 3 ≤ o && i = 2 && be.getLsbD 1 && getBits val 8 2 = 0 then
      (s.txDrop n o).putWord (objAddr n o 2) (insertBits (s.obj n o 2) 8 2 0)
    else s.canIrq n 12
  else if o = 2 && s.ringTx n then s
  else s.putBytes (objAddr n o i) val be

/-- A read of w0 latches the whole object. -/
def State.objLatch (s : State) (n o : Nat) : State :=
  s.setCan n { s.can n with rbuf := some (o, s.words (objAddr n o 0) 20) }

/-- What a read of word `i` of object `o` returns: the latched value where w0 of that object was read last. -/
def State.objRead (s : State) (n o i : Nat) : Word :=
  match (s.can n).rbuf with
  | some (k, ws) => if k = o && i != 0 then (ws[i]?).getD 0 else s.obj n o i
  | none => s.obj n o i

/-! ## Recovery, time-triggered operation, ring, sleep (R373, R376–R380) -/

/-- A write of recover (R373). -/
def State.canRecover (s : State) (n : Nat) : State :=
  if s.f (F.CAN_STS_conf n) = 2 then s.setF (F.CAN_STS_recovering n) 1 else s

/-- 128 × 11 recessive bits (R373). -/
def State.canRecovered (s : State) (n : Nat) : State :=
  if !s.bit (F.CAN_STS_recovering n) then s
  else (((s.setF (F.CAN_STS_recovering n) 0).setF (F.CAN_STS_conf n) 0).setReg (R.CAN_ERR n) 0).canFree n

/-- The time master requests a reference message at a whole multiple of ref_period (R377); a held counter waits (R37). -/
def State.refTimer (s : State) (n : Nat) : State :=
  if !s.bit (F.CAN_CTL_en n) || !s.bitE (F.CAN_TTCFG_tt_en n) || !s.ttMaster n || s.tm.holdLag.isSome then s
  else
    let s := s.at (nextMultipleOf (s.fe (F.CAN_TTCFG_ref_period n) * 1000) s.now)
    s.setCan n { s.can n with refReq := true }
where
  /-- The next whole multiple of `k`, the present instant included. -/
  nextMultipleOf (k t : Nat) : Nat := (t + k - 1) / k * k

/-- REFERENCE_MESSAGE: a valid frame that is a reference message of this controller, its own as the master, where it has been
sent, or one that it receives; another frame changes nothing here. -/
def State.refFrame (s : State) (n : Nat) (fr : CanFrame) (sof : Nat) : State :=
  if s.ttMaster n then (if (s.can n).onBus = some 99 then s.txDone n sof 0 else s)
  else if s.isRef n fr then s.canReceive n fr sof else s

/-- A receiver has seen no reference message for 2 × ref_period, since the last one or since its enable (R378). -/
def State.refLost (s : State) (n : Nat) : State :=
  let x := s.can n
  if !s.bit (F.CAN_CTL_en n) || !s.bitE (F.CAN_TTCFG_tt_en n) || s.ttMaster n || x.refTold then s
  else ((s.at (x.start + s.fe (F.CAN_TTCFG_ref_period n) * 2000)).setF (F.CAN_TTSTS_ref_lost n) 1).setCan n
    { x with refSeen := false, refTold := true }

/-- Transmit object MOm reaches its trigger in this cycle (R379). -/
def State.ttTrigger (s : State) (n m : Nat) : State :=
  let o := 3 + m
  let x := s.can n
  let w1 := s.obj n o 1
  if !s.bitE (F.CAN_TTCFG_tt_en n) || !x.refSeen || s.objDir n o != 2 || !(s.obj n o 2).getLsbD 12 || !s.bit (pendBit n o) ||
      x.triggered.contains o || s.f (F.CAN_TTSTS_cycle n) % 2 ^ getBits w1 22 3 != getBits w1 16 6 then s
  else (s.at (x.start + getBits w1 0 16 * 1000)).setCan n { x with due := o :: x.due, triggered := o :: x.triggered }

/-- Take `k` entries of ring `r`. -/
def State.ringTakeN (s : State) (r : Nat) : Nat → List Word × State
  | 0 => ([], s)
  | k + 1 => match s.ringTake r with
    | some (ws, s1) => let q := s1.ringTakeN r k; (ws ++ q.1, q.2)
    | none => ([], s)

/-- The next frame of RG12 goes into TXB2 (R376). -/
def State.rg12Take (s : State) (n : Nat) : State :=
  if !s.bit (F.CAN_CTL_en n) || !s.ringTx n || s.bit (pendBit n 2) then s
  else match s.ringTake 12 with
    | none => s
    | some (ws, _) =>
      let w1 := (ws[1]?).getD 0
      let c := min 2 (getBits w1 16 2)
      if getBits w1 4 3 != n || s.ringCount 12 < 1 + c then s
      else
        let q := s.ringTakeN 12 (1 + c)
        let data := (q.1.drop 4).take 16
        let s := q.2.putWords (objAddr n 2 0) [(ws[0]?).getD 0, 0, BitVec.ofNat 32 (getBits w1 0 4), 0]
        let s := s.putWords (objAddr n 2 4) (data ++ List.replicate (16 - data.length) 0)
        s.txAsk n 2

/-- Mode 2 takes the controller to sleep at a bus idle (R380). -/
def State.canSleep (s : State) (n : Nat) : State :=
  if s.bit (F.CAN_CTL_en n) && s.f (F.CAN_CTL_mode n) = 2 && s.canIdle n then
    (s.setF (F.CAN_STS_sleeping n) 1).setCan n { s.can n with mode := 2 }
  else s

/-- The controller wakes (R380): on a dominant level that has lasted `bits` nominal bit times, or, where it wakes on frames, at the
end of the valid frame `frame`. -/
def State.canWake (s : State) (n bits : Nat) (frame : Option CanFrame) (sof : Nat) : State :=
  let up := fun (s : State) =>
    let s := ((s.setF (F.CAN_STS_sleeping n) 0).setF (F.CAN_CTL_mode n) 0).setF (F.CAN_STS_enabled n) 0
    (s.setCan n { s.can n with mode := 0 }).canIrq n 7
  if !s.bit (F.CAN_STS_sleeping n) then s
  else if !s.bit (F.CAN_WAKE_frame_wake n) then (if bits < max 1 (s.f (F.CAN_WAKE_filt n)) then s else up s)
  else match frame with
    | some fr =>
      if !s.canValid n fr then s
      else if s.objMatches n (s.f (F.CAN_WAKE_wake_obj n)) fr then up ((s.canStamp n sof).canDeliver n fr sof) else s.canStamp n sof
    | none => s

/-! ## Meanings -/

/-- CAN_ENABLE (R364). -/
def execCanEnable (n : Fin 4) (s : State) : Host.Outcome State Fault Refusal := onMain s fun s => s.canEnable n
/-- CAN_INTEGRATED (R364). -/
def execCanIntegrated (n : Fin 4) (s : State) : Host.Outcome State Fault Refusal := onMain s fun s => s.canIntegrated n
/-- CAN_DISABLE (R364). -/
def execCanDisable (n : Fin 4) (s : State) : Host.Outcome State Fault Refusal := onMain s fun s => s.canDisable n
/-- CAN_MODE_CHANGE (R365). -/
def execCanModeChange (n : Fin 4) (s : State) : Host.Outcome State Fault Refusal := onMain s fun s => s.canMode n
/-- CAN_FRAME_RECEIVED (R367). -/
def execCanFrameReceived (n : Fin 4) (frame : CanFrame) (sof : Nat) (s : State) : Host.Outcome State Fault Refusal :=
  onMain s fun s => s.canReceive n frame sof
/-- REMOTE_FRAME (R361): acknowledged and ignored. As a valid frame on the bus it leaves its stamp (R375), and received without
error it lets the receive counter fall. -/
def execRemoteFrame (n : CanStart) (s : State) : Host.Outcome State Fault Refusal :=
  onMain s fun s => if s.canLive n.n then ((s.canStamp n.n n.sof).canGood n.n).canFree n.n else s
/-- CAN_BUS_ERROR (R373). -/
def execCanBusError (n : Fin 4) (lec : Fin 7) (tx : Bool) (e : CanError) (s : State) : Host.Outcome State Fault Refusal :=
  onMain s fun s => s.canError n lec tx e
/-- TX_REQUEST (R370). -/
def execTxRequest (n : Fin 4) (k : Fin 4) (mask : Word) (s : State) : Host.Outcome State Fault Refusal :=
  onMain s fun s => s.txRequest n k mask.toNat
/-- TX_CANCEL (R371). -/
def execTxCancel (n : Fin 4) (mask : BitVec 3) (s : State) : Host.Outcome State Fault Refusal :=
  onMain s fun s => s.txCancel n mask.toNat
/-- TX_SELECT (R370). -/
def execTxSelect (n : CanOpening) (s : State) : Host.Outcome State Fault Refusal :=
  onMain s fun s => s.txSelect n.n n.other
/-- TX_DONE (R370). -/
def execTxDone (n : Fin 4) (sof : Nat) (delay : Nat) (s : State) : Host.Outcome State Fault Refusal :=
  onMain s fun s => s.txDone n sof delay
/-- ARBITRATION_LOST (R372). -/
def execArbitrationLost (n : Fin 4) (s : State) : Host.Outcome State Fault Refusal := onMain s fun s => s.txFail n 1
/-- OBJECT_WRITE (R371). -/
def execObjectWrite (n : Fin 4) (obj : Fin 99) (word : Fin 20) (be : BitVec 4) (val : Word) (s : State) :
    Host.Outcome State Fault Refusal :=
  onMain s fun s => s.objWrite n obj word be val
/-- OBJECT_READ_LATCH (R369). -/
def execObjectReadLatch (n : Fin 4) (obj : Fin 99) (m : Master) (s : State) : Host.Outcome State Fault Refusal :=
  onBus s m fun s => (s.objLatch n obj).returns m [s.obj n obj 0]
/-- CAN_RECOVER (R373). -/
def execCanRecover (n : Fin 4) (s : State) : Host.Outcome State Fault Refusal := onMain s fun s => s.canRecover n
/-- BUS_OFF_RECOVERED (R373). -/
def execBusOffRecovered (n : Fin 4) (s : State) : Host.Outcome State Fault Refusal := onMain s fun s => s.canRecovered n
/-- REFERENCE_MESSAGE_TIMER (R377). -/
def execReferenceMessageTimer (n : Fin 4) (s : State) : Host.Outcome State Fault Refusal := onMain s fun s => s.refTimer n
/-- REFERENCE_MESSAGE (R378). -/
def execReferenceMessage (n : Fin 4) (frame : CanFrame) (sof : Nat) (s : State) : Host.Outcome State Fault Refusal :=
  onMain s fun s => s.refFrame n frame sof
/-- REFERENCE_LOST (R378). -/
def execReferenceLost (n : Fin 4) (s : State) : Host.Outcome State Fault Refusal := onMain s fun s => s.refLost n
/-- TT_TRIGGER (R379). -/
def execTtTrigger (n : Fin 4) (obj : Fin 96) (s : State) : Host.Outcome State Fault Refusal := onMain s fun s => s.ttTrigger n obj
/-- RG12_FRAME_TAKE (R376). -/
def execRg12FrameTake (n : Fin 4) (s : State) : Host.Outcome State Fault Refusal := onMain s fun s => s.rg12Take n
/-- SLEEP_ENTER (R380). -/
def execSleepEnter (n : Fin 4) (s : State) : Host.Outcome State Fault Refusal := onMain s fun s => s.canSleep n
/-- WAKE (R380). -/
def execWake (n : Fin 4) (frame : WakeInput) (sof : Nat) (s : State) : Host.Outcome State Fault Refusal :=
  onMain s fun s => s.canWake n frame.bits frame.frame sof

end Sys2Proof.Machine
end

