-- ==== Sys2Proof/Machine/NimCtl.lean ====
section
/-! DEFINITION. Control flow, staging, commit, tile opening, events, keeper calls and lane status (R53, R57, R84–R88,
R95–R98), and the start and the overrun of a slice (R46, R50, R62, R70). -/

namespace Sys2Proof.Machine

/-! ## Control flow (R86–R88) -/

/-- A taken branch of `l` to (slot, word): the loops whose body does not hold the target end (R87). -/
def LaneSt.branch (l : LaneSt) (slot word : Nat) : LaneSt :=
  { l with slot := slot, word := word, loops := l.loops.dropWhile fun r => !r.holds slot word }

/-- The branch effect: only a taken branch to an unstaged slot raises ADDRESS (R86). -/
def branchEffect (c : Proc) (p : BitVec 3) (slot word : Nat) : Effect := fun s l =>
  if !(l.getP (p.setWidth 5)).getLsbD 0 then (s, 0)
  else if procLane c && tblGet 0 l.slots slot == 0 then (s, 5)
  else (s.onCore (procIdx c) fun k => { (l.branch slot word) with cyc := k.cyc, free := k.free }, 0)

/-- A LOOP of `len` instructions at `l`'s position obeys R87; one whose count is zero counts as a third loop too (log entry
105). -/
def LaneSt.loopOk (l : LaneSt) (max len : Nat) : Bool :=
  max != 0 && len != 0 && l.word + len ≤ 255 && l.loops.length < 2 &&
    l.loops.all fun r => r.holds l.slot (l.word + len)

/-- LOOP: the body runs min(Sa, max) times; a count of zero skips it (R87). -/
def LaneSt.loopStart (l : LaneSt) (n max len : Nat) : LaneSt :=
  let k := min n max
  if k = 0 then { l with word := l.word + len }.advance
  else { l with word := l.word + 1,
                loops := ⟨l.slot, l.word + 1, l.word + len, 0, k⟩ :: l.loops }

/-! ## Staging (R95) -/

/-- Format of a field a target word can name. -/
inductive Fmt where
  | q (n : Nat)
  | raw
  | int
  | uint
  | seq
  deriving DecidableEq, Repr

/-- Width and format of field `f` of couchable kind `k` (R95, R170, R179, R191, R230, R311, R350); `none` where the target
word names no target. -/
def stgField (k inst f : Nat) : Option (Nat × Fmt) :=
  match k with
  | 1 => if 8 ≤ inst then none else if f < 3 then some (16, .q 15) else if 4 ≤ f && f ≤ 9 then some (20, .uint) else none
  | 2 => if 12 ≤ inst then none else if f = 0 then some (16, .q 8) else none
  | 3 => if 8 ≤ inst then none else if f < 5 then some (16, .q 15) else if f = 5 then some (2, .uint) else none
  | 4 => if 8 ≤ inst then none else if f < 8 then some (16, .q 15) else none
  | 5 => if 8 ≤ inst then none
    else if f = 0 then some (32, .int) else if f < 6 then some (32, .raw) else if f = 6 then some (16, .q 15)
    else if f = 7 then some (16, .seq) else none
  | 6 => if 18 ≤ inst then none else if f = 0 then some (1, .uint) else if f = 1 then some (2, .uint) else none
  | 7 => if 8 ≤ inst then none else if f < 8 then some (32, .raw) else none
  | _ => none

/-- An fp32 value rounded by FTOI and saturated to `lo … hi`; NaN gives 0 and SAT (R95). -/
def stageInt (lo hi : Int) (w : Nat) (a : F32) : Nat × BitVec 3 :=
  let r := fToFixed lo hi 0 a
  (unsigned w r.1, if r.2 || fIsNan a then flSat else 0)

/-- MOT_TGT7 stores bits [7:3] as zero (R95). -/
def seqMask (n : Nat) : Nat := n % 8 + n / 256 % 256 * 256

/-- The bits that STG stages for value `a` in a field of `w` bits (R95). -/
def stageBits (cv : Bool) (w : Nat) (fmt : Fmt) (a : Word) : Nat × BitVec 3 :=
  match cv, fmt with
  | false, .seq => (seqMask (a.toNat % 2 ^ w), 0)
  | false, _ => (a.toNat % 2 ^ w, 0)
  | true, .q n => let r := fToQ w n a; (r.1, if r.2 then flSat else 0)
  | true, .raw => (a.toNat, 0)
  | true, .int => stageInt (-(2 : Int) ^ (w - 1)) ((2 : Int) ^ (w - 1) - 1) w a
  | true, .uint => stageInt 0 ((2 : Int) ^ w - 1) w a
  | true, .seq => let r := stageInt 0 0xFFFF 16 a; (seqMask r.1, r.2)

/-- STG: the checks of R76 in their order, then one felt entry (R53, R57, R58). -/
def stgEffect (c : Proc) (cv : Bool) (a b : BitVec 5) : Effect := fun s l =>
  let x := s.ctx l.ctx
  let t := l.getS b
  let k := getBits t 24 8
  let inst := getBits t 16 8
  if x.closed then (s, 2)
  else match stgField k inst (getBits t 0 16) with
    | none => (s, 1)
    | some (w, fmt) =>
      if s.ownerOf k inst != some l.ctx then (s, 1)
      else if 64 ≤ x.felt.length then (s, 3)
      else
        let r := stageBits cv w fmt (l.getS a)
        let s := s.setCtx l.ctx { x with felt := x.felt ++ [(t, BitVec.ofNat 32 r.1)] }
        (s.onCore (procIdx c) fun k => k.flag r.2, 0)

/-- TCOMMIT or TABORT closes the group of the lane's context for the tick; a later one changes nothing (R57). -/
def closeEffect (abort : Bool) : Effect := fun s l =>
  let x := s.ctx l.ctx
  if x.closed then (s, 0)
  else
    let n := x.felt.length
    let s := s.setCtx l.ctx { x with closed := true, group := if x.group = .opened then .committed else x.group }
    let s := (s.setF (F.CTX_FELT_USED_used l.ctx) n).maxF (F.CTX_FELT_MAX_max l.ctx) n
    (if abort then s.discard l.ctx 3 0 else s, 0)

/-! ## Tiles, events, keeper calls, status -/

/-- TOPEN: a watermark failure stops the slice and discards the group (R51, R84). -/
def topenEffect (c : Proc) (d a : BitVec 5) : Effect := fun s l =>
  let t := (l.getS a).toNat
  let i := procIdx c
  if 1023 < t then (s, 5)
  else if !s.wmOk (2048 + t) then (((s.wmFail (2048 + t) 1).sliceEnd i).discard l.ctx 4 0, 0)
  else ((s.copy (tileAddr (2048 + t)) (tileBuf i d.toNat) 1024).onCore i fun k =>
    { k with a := tblSet k.a d.toNat (t + 1) }, 0)

/-- Request `r` takes its place in the order of service: the order of posting, and the lower context first among requests
posted in one cycle (R65). -/
def svcInsert (r : SvcReq) : List SvcReq → List SvcReq
  | [] => [r]
  | q :: t =>
    if q.tick = r.tick && (r.cyc < q.cyc || (r.cyc = q.cyc && r.ctx < q.ctx)) then r :: q :: t else q :: svcInsert r t

/-- CALLK: one request per context and tick; a second is dropped (R65, R97). -/
def callkEffect (svc : BitVec 8) (a b : BitVec 5) : Effect := fun s l =>
  let x := s.ctx l.ctx
  if x.posted then (s.setF (F.CTX_SVC_STS_dropped l.ctx) 1, 0)
  else
    let s := s.setCtx l.ctx { x with posted := true }
    let s := (s.setF (F.CTX_SVC_STS_service l.ctx) svc.toNat).setF (F.CTX_SVC_STS_status l.ctx) 0
    let r : SvcReq := { ctx := l.ctx, svc := svc.toNat, a := l.getS a, b := l.getS b
                        tick := s.f F.TIME_TICK_COUNT_count, cyc := l.start + l.cyc }
    ({ s with eng := { s.eng with svcQ := svcInsert r s.eng.svcQ } }, 0)

/-- Iteration index of the `k`-th active loop from the inside, 0 where there is none (R98). -/
def LaneSt.loopIdx (l : LaneSt) (k : Nat) : Nat := match l.loops[k]? with | some r => r.idx | none => 0

/-- MFS (R98, R99). The keeper and the safety core keep an LST as a lane does (log entry 104). A core that is no lane has no lane number, and the safety core no context: free values there. -/
def mfsEffect (c : Proc) (d sel : BitVec 5) : Effect := fun s l =>
  let put := fun (s : State) (w : Word) => (s.onCore (procIdx c) fun k => k.setS d w, 0)
  match sel.toNat with
  | 0 => put s (l.lst.setWidth 32)
  | 1 => put s (if procLane c then BitVec.ofNat 32 (l.cyc + l.free + 1) else 0)
  | 2 => put s (s.reg R.TIME_TICK_COUNT)
  | 3 => if c = .safety then put (s.free 32).2 (s.free 32).1 else put s (BitVec.ofNat 32 l.ctx)
  | 4 => if procLane c then put s (BitVec.ofNat 32 (procIdx c)) else put (s.free 32).2 (s.free 32).1
  | 5 => put s (if procLane c then BitVec.ofNat 32 s.now else 0)
  | 6 => put s (BitVec.ofNat 32 (l.loopIdx 0))
  | _ => put s (BitVec.ofNat 32 (l.loopIdx 1))

/-! ## Slices (R45, R46, R50, R62, R70) -/

/-- A program tile enters a slot of lane `n` as a resident or an overlay tile, which TILE_LANE_RESn or TILE_LANE_OVLn shows (R50,
R68); the slot's codes are written anew. -/
def State.stageTile (s : State) (overlay : Bool) (n tile slot : Nat) : State :=
  let s := s.copy (tileAddr tile) (slotBase n slot) 1024
  let s := { s with eng := { s.eng with ecc := tblDelRange s.eng.ecc (slotBase n slot / 8) (slotBase n slot / 8 + 128) } }
  let s := s.setF ⟨if overlay then R.TILE_LANE_OVL n else R.TILE_LANE_RES n, slot, 1⟩ 1
  (s.onCore n fun l => { l with slots := tblSet l.slots slot (tile + 1) }).incWrap (F.TILE_LANE_STAGED_staged n)

/-- Stage the overlay tiles of a slice; the first watermark failure ends the staging with `false` (R50, R51). -/
def State.stageAll (s : State) (n : Nat) : List (Nat × Nat) → State × Bool
  | [] => (s, true)
  | (tile, slot) :: rest => if s.wmOk tile then (s.stageTile true n tile slot).stageAll n rest else (s.wmFail tile 0, false)

/-- The lowest slot of lane `l` that holds program tile `t`; 32, an unstaged position, where none does. -/
def LaneSt.slotOf (l : LaneSt) (t : Nat) : Nat := ((List.range 32).find? fun k => tblGet 0 l.slots k == t + 1).getD 32

/-- Slice `i` of the schedule starts: its tiles are staged and its lane begins with cleared registers (R46, R70). A
staging failure discards the group, and the slice does not run (R51). -/
def State.sliceStart (s : State) (i : Nat) : State :=
  match s.eng.sched with
  | none => s
  | some t =>
    match t.slices[i]? with
    | none => s
    | some x =>
      let n := x.lane
      let l := s.core n
      if !s.running || s.tm.phase != 2 || s.halted || s.f (F.CTX_STS_state x.ctx) != 1 || l.busy || l.done.contains i then s
      else
        let s := s.at (s.laneInstant x.start)
        let (s, ok) := s.stageAll n x.stage
        if !ok then (s.onCore n fun l => { l with done := i :: l.done }).discard x.ctx 4 0
        else
          let l := s.core n
          let l := { l with busy := true, ctx := x.ctx, start := x.start, budget := x.budget, cyc := 0, free := 0,
                            slot := l.slotOf x.tile, word := x.word, s := [], v := [], p := [], a := [], lst := 0,
                            loops := [], done := i :: l.done, step := false }
          (((s.setCore n l).setF (F.ENG_LANE_STS_busy n) 1).setF (F.ENG_LANE_STS_context n) x.ctx).setF
            (F.ENG_LANE_STS_slice n) i

/-- The slice of lane `n` reaches its budget without YIELD (R62): EV16, discard with OVERRUN. -/
def State.budgetExpiry (s : State) (n : Nat) : State :=
  let l := s.core n
  if !l.busy || s.halted then s
  else
    let s := (s.at (s.laneInstant (l.start + l.budget))).setCore n { l with cyc := l.budget }
    let s := (s.incSat (F.CTX_OVERRUN_CNT_overrun_cnt l.ctx)).sliceEnd n
    (s.raiseDev 16 (l.ctx + n * 0x1000)).discard l.ctx 2 0

/-! ## Meanings -/

/-- SLICE_START (R46). -/
def execSliceStart (i : Fin 256) (s : State) : Host.Outcome State Fault Refusal := onMain s fun s => s.sliceStart i
/-- BUDGET_EXPIRY (R62). -/
def execBudgetExpiry (n : Fin 8) (s : State) : Host.Outcome State Fault Refusal := onMain s fun s => s.budgetExpiry n
/-- BR (R86). -/
def execBr (c : Proc) (p : BitVec 3) (slot : BitVec 5) (word : BitVec 8) (s : State) : Host.Outcome State Fault Refusal :=
  onMain s fun s =>
    let l := s.core (procIdx c)
    s.instr c .A .always 2 p (l.slot * 256 + l.word < slot.toNat * 256 + word.toNat) (branchEffect c p slot.toNat word.toNat)
/-- LOOP (R87). -/
def execLoop (c : Proc) (a : BitVec 5) (max : BitVec 12) (len : BitVec 6) (s : State) : Host.Outcome State Fault Refusal :=
  onMain s fun s =>
    s.instr c .A .always 2 0 ((s.core (procIdx c)).loopOk max.toNat len.toNat) fun s l =>
      (s.onCore (procIdx c) fun k => { (l.loopStart (l.getS a).toNat max.toNat len.toNat) with cyc := k.cyc, free := k.free }, 0)
/-- STG (R95). -/
def execStg (c : Proc) (p : BitVec 3) (cv : Bool) (a b : BitVec 5) (s : State) : Host.Outcome State Fault Refusal :=
  onMain s fun s => s.instr c .L .scalar 2 p true (stgEffect c cv a b)
/-- TCOMMIT (R53). -/
def execTcommit (c : Proc) (p : BitVec 3) (s : State) : Host.Outcome State Fault Refusal :=
  onMain s fun s => s.instr c .L .scalar 1 p true (closeEffect false)
/-- TABORT (R57). -/
def execTabort (c : Proc) (p : BitVec 3) (s : State) : Host.Outcome State Fault Refusal :=
  onMain s fun s => s.instr c .L .scalar 1 p true (closeEffect true)
/-- TOPEN (R84). -/
def execTopen (c : Proc) (p : BitVec 3) (d a : BitVec 5) (s : State) : Host.Outcome State Fault Refusal :=
  onMain s fun s => s.instr c .L .scalar 72 p (okP d) (topenEffect c d a)
/-- NOP (R82). -/
def execNop (c : Proc) (p : BitVec 3) (s : State) : Host.Outcome State Fault Refusal :=
  onMain s fun s => s.instr c .A .scalar 1 p true fun s _ => (s, 0)
/-- YIELD (R88). -/
def execYield (c : Proc) (p : BitVec 3) (s : State) : Host.Outcome State Fault Refusal :=
  onMain s fun s => s.instr c .L .scalar 1 p true fun s _ => (s.sliceEnd (procIdx c), 0)
/-- EVT (R96): EV62 or EV63 with Sa[15:0] as payload, whatever becomes of the group. -/
def execEvt (c : Proc) (p : BitVec 3) (a : BitVec 5) (src : Bool) (s : State) : Host.Outcome State Fault Refusal :=
  onMain s fun s => s.instr c .L .scalar 1 p true fun s l =>
    (s.raiseDev (if src then 63 else 62) ((l.getS a).toNat % 0x10000), 0)
/-- MFS (R98). -/
def execMfs (c : Proc) (p : BitVec 3) (d sel : BitVec 5) (s : State) : Host.Outcome State Fault Refusal :=
  onMain s fun s => s.instr c .A .scalar 1 p (sel.toNat < 8) (mfsEffect c d sel)
/-- MTS (R98). -/
def execMts (c : Proc) (p : BitVec 3) (a sel : BitVec 5) (s : State) : Host.Outcome State Fault Refusal :=
  onMain s fun s => s.instr c .A .scalar 1 p (sel == 0) fun s l =>
    (s.onCore (procIdx c) fun k => { k with lst := (l.getS a).setWidth 3 }, 0)
/-- CALLK (R97). -/
def execCallk (c : Proc) (p : BitVec 3) (svc : BitVec 8) (a b : BitVec 5) (s : State) : Host.Outcome State Fault Refusal :=
  onMain s fun s => s.instr c .L .scalar 2 p true (callkEffect svc a b)
/-- ILLEGAL_INSTRUCTION (R73): the word is one that spells no instruction of the core. -/
def execIllegalInstruction (c : Proc) (w : Word) (s : State) : Host.Outcome State Fault Refusal :=
  onMain s fun s => if (Sys2Proof.decodeNimson c w).isSome then s else s.instr c .A .always 1 0 false fun s _ => (s, 0)

end Sys2Proof.Machine
end

