-- ==== Sys2Proof/Machine/Motion.lean ====
section
/-! DEFINITION. Motion axes and cams (11_motion.md): moves, limits, homing, cams, standstill and winch modes. Setpoints are
signed numbers with 16 fraction bits, speeds and accelerations binary32, rounded by R78 in the written order (log entry
24). -/

namespace Sys2Proof.Machine

/-! ## Values of an axis (R304, R305) -/

/-- Bit of MOT_FLAGS. -/
def motFlag (n bit : Nat) : Fld := ⟨R.MOT_FLAGS n, bit, 1⟩
/-- State code of axis `n`. -/
def State.mot (s : State) (n : Nat) : Nat := s.f (F.MOT_STS_state n)
/-- Unit and port the axis is bound to. -/
def State.axisUnit (s : State) (n : Nat) : Nat := s.fe (F.MOT_BIND_unit n)
/-- The port. -/
def State.axisPort (s : State) (n : Nat) : Nat := s.fe (F.MOT_BIND_port n)
/-- MOT_CTL.src in force: 0 PROFILE, 1 CAM, 2 SHARE. -/
def State.axisSrc (s : State) (n : Nat) : Nat := s.fe (F.MOT_CTL_src n)
/-- Winch mode in force. -/
def State.winch (s : State) (n : Nat) : Nat := s.fe (F.MOT_WINCH_mode n)

/-- The axis position MOT_POS = pos + MOT_OFS, wrapped to 32 bits (R304). -/
def State.axisPos (s : State) (n : Nat) : Int := signed 32 (unsigned 32 (s.pos (s.axisPort n) + s.fi (F.MOT_OFS_ofs n)))
/-- The axis position at the observer update of the current tick, as a master (R307). -/
def State.axisSeen (s : State) (n : Nat) : Int :=
  signed 32 (unsigned 32 ((s.port (s.axisPort n)).obsPos + s.fi (F.MOT_OFS_ofs n)))
/-- The axis position with 16 fraction bits. -/
def State.axisFix (s : State) (n : Nat) : Int := s.axisPos n * 65536
/-- A value in counts as a number with 16 fraction bits. -/
def fixOf (x : F32) : Int := (fToFixed (-(2 : Int) ^ 150) ((2 : Int) ^ 150) 16 x).1
/-- A setpoint of position is a signed 48.16 number, which wraps (R304). -/
def wrapP (p : Int) : Int := signed 64 (unsigned 64 p)
/-- A number with 16 fraction bits as a value in counts. -/
def ofFix (i : Int) : F32 := fOfInt i (-16)
/-- The position error p − MOT_POS in counts, modulo the wrap of the axis position (R304; DEDUCED, log entry 28). -/
def State.axisErr (s : State) (n : Nat) (p : Int) : Int := signed 48 (unsigned 48 (p - s.axisFix n))

/-- 60. -/
def kSixty : F32 := 0x42700000
/-- A speed in counts/s as pu (R305). -/
def State.toPu (s : State) (n : Nat) (v : F32) : F32 :=
  fdiv (fmul (fmul v (s.few (F.MOT_GEAR_g n))) kSixty) (s.few (F.FLD_BASE_N_value (s.axisUnit n)))
/-- A bound in pu as counts (R305). -/
def State.toCnt (s : State) (n : Nat) (b : F32) : F32 :=
  fdiv (fmul b (s.few (F.FLD_BASE_N_value (s.axisUnit n)))) (fmul kSixty (s.few (F.MOT_GEAR_g n)))
/-- The measured speed v_m in counts/s (R304). -/
def State.vMeas (s : State) (n : Nat) : F32 :=
  fmul (BitVec.ofNat 32 (s.f (F.FBK_SPEED_speed (s.axisPort n)))) (fOfInt (s.cpr (s.axisPort n)))
/-- still_band of the axis's unit. -/
def State.axisBand (s : State) (n : Nat) : F32 := s.q15 (F.FLD_ASC_CFG_still_band (s.axisUnit n))

/-- MOT_TGT1–MOT_TGT5 as values. -/
def State.tgt (s : State) (n k : Nat) : F32 := s.reg (R.MOT_TGT0 n + 4 * k)
/-- A value is finite and above 0. -/
def finitePos (w : F32) : Bool := fLt fZero w && !fIsInf w
/-- V for a motion of sign `neg` (R305, R312). -/
def State.axisV (s : State) (n : Nat) (neg : Bool) : F32 :=
  fMin (s.tgt n 2) (s.toCnt n (s.speedLimit (s.axisUnit n) neg.toNat))
/-- A_eff (R305). -/
def State.axisAEff (s : State) (n : Nat) : F32 := s.toCnt n (s.lim (s.axisUnit n) 7)
/-- A. -/
def State.axisA (s : State) (n : Nat) : F32 := fMin (s.tgt n 3) (s.axisAEff n)
/-- D. -/
def State.axisD (s : State) (n : Nat) : F32 := fMin (s.tgt n 4) (s.axisAEff n)
/-- Ds (R314). -/
def State.axisDs (s : State) (n : Nat) : F32 :=
  let d : F32 := s.reg (R.MOT_STOPD n)
  if finitePos d then fMin d (s.axisAEff n) else s.axisAEff n
/-- J of a stop (R314). -/
def State.stopJ (s : State) (n : Nat) : F32 := if finitePos (s.tgt n 5) then s.tgt n 5 else fdiv (s.axisDs n) s.tSec

/-! ## Steps of a setpoint (R313, R314, R318) -/

/-- A setpoint with its speed and acceleration. -/
structure SetPt where
  p : Int
  v : F32
  a : F32
  deriving DecidableEq, Repr

/-- ue and ss of R313 for a speed `u` toward the target with acceleration `al`. -/
def stopDist (u al d j : F32) : F32 :=
  let ue := fadd u (fdiv (fmul al (fAbs al)) (fmul fTwo j))
  if fGt ue fZero then fdiv (fmul ue (fadd (fdiv ue d) (fdiv d j))) fTwo else fZero

/-- `d` cut to ±`b`. -/
def fBand (b d : F32) : F32 := fMin b (fMax (fNeg b) d)

/-- The braking condition of R313 toward a point at `l`, in the direction of motion (R318). -/
def brakeTo (x : SetPt) (l : Int) (d j t : F32) : Bool :=
  let g := fSgn x.v
  let u := fAbs x.v
  fGt u fZero && fLe (fmul g (ofFix (l - x.p))) (fadd (stopDist u (fmul g x.a) d j) (fmul u t))

/-- One couch of a POSITION move toward `pt`; `brk` asks for ad = −D (R313, R318). The second result says that the move is
complete. -/
def posStep (x : SetPt) (pt : Int) (v a d j t tol : F32) (brk : Bool) : SetPt × Bool :=
  let e := ofFix (pt - x.p)
  let g := if fEq e fZero then fSgn x.v else fSgn e
  let u := fmul g x.v
  let al := fmul g x.a
  let ue := fadd u (fdiv (fmul al (fAbs al)) (fmul fTwo j))
  let ss := stopDist u al d j
  let (ad, braking) :=
    if fGt u fZero && (brk || fLe (fmul g e) (fadd ss (fmul u t))) then (fNeg d, true)
    else if fLt u fZero then (d, false)
    else if fGt u v then (fNeg d, true)
    else if fLt ue v then (a, false)
    else (fZero, false)
  let an := fadd al (fBand (fmul j t) (fsub ad al))
  let un := fadd u (fdiv (fmul (fadd al an) t) fTwo)
  let (un, an) := if braking && fGt u fZero && fLt un fZero then (fZero, fZero) else (un, an)
  let p := x.p + fixOf (fdiv (fmul (fmul g (fadd u un)) t) fTwo)
  let y : SetPt := ⟨p, fmul g un, fmul g an⟩
  if fLe (fAbs (ofFix (pt - p))) tol && fLe (fAbs y.v) (fmul d t) then (⟨pt, fZero, fZero⟩, true) else (y, false)

/-- One couch of a SPEED move or stop toward `vt` (R314). -/
def speedStep (x : SetPt) (vt a d j t : F32) : SetPt × Bool :=
  let dv := fsub vt x.v
  let q := if fLe fZero dv then fOne else fNeg fOne
  let l := if fLe fZero (fmul x.v vt) && fGt (fAbs vt) (fAbs x.v) then a else d
  let ad := if fGt (fmul q x.a) fZero && fLe (fmul q dv) (fdiv (fmul x.a x.a) (fmul fTwo j)) then fZero else fmul q l
  let an := fadd x.a (fBand (fmul j t) (fsub ad x.a))
  let vn := fadd x.v (fdiv (fmul (fadd x.a an) t) fTwo)
  let done := fLe (fmul q (fsub vt vn)) fZero
  let (vn, an) := if done then (vt, fZero) else (vn, an)
  (⟨x.p + fixOf (fdiv (fmul (fadd x.v vn) t) fTwo), vn, an⟩, done)

/-- A SPEED move that is braked before a virtual limit: ad = −D against the motion (R318). -/
def brakeStep (x : SetPt) (d j t : F32) : SetPt :=
  let g := fSgn x.v
  let u := fAbs x.v
  let al := fmul g x.a
  let an := fadd al (fBand (fmul j t) (fsub (fNeg d) al))
  let un := fadd u (fdiv (fmul (fadd al an) t) fTwo)
  let (un, an) := if fLt un fZero then (fZero, fZero) else (un, an)
  ⟨x.p + fixOf (fdiv (fmul (fmul g (fadd u un)) t) fTwo), fmul g un, fmul g an⟩

/-! ## Virtual limits (R318, R319) -/

/-- LO and HI, where they are enabled. -/
def State.vlim (s : State) (n : Nat) : Option (Int × Int) :=
  if s.bit (F.MOT_CTL_vlim_en n) then some (s.fi (F.MOT_VLIM_LO_lo n) * 65536, s.fi (F.MOT_VLIM_HI_hi n) * 65536) else none

/-- The axis must brake for the virtual limit in its direction of motion; a limit already violated does not count. -/
def State.limitBrake (s : State) (n : Nat) (x : SetPt) : Bool :=
  match s.vlim n with
  | none => false
  | some (lo, hi) =>
    let d := s.axisD n
    let j := s.tgt n 5
    if fGt x.v fZero then x.p ≤ hi && brakeTo x hi d j s.tSec
    else if fLt x.v fZero then lo ≤ x.p && brakeTo x lo d j s.tSec
    else false

/-- A SPEED move whose setpoint, which follows MOT_POS, has passed the virtual limit in its direction of motion. -/
def State.limitPassed (s : State) (n : Nat) (x : SetPt) : Bool :=
  match s.vlim n with
  | none => false
  | some (lo, hi) => (hi < x.p && fGt x.v fZero) || (x.p < lo && fLt x.v fZero)

/-- A step from `x` to `y` cut at a virtual limit; the second result says that the setpoint has arrived at one. -/
def State.limitCut (s : State) (n : Nat) (x y : SetPt) : SetPt × Bool :=
  match s.vlim n with
  | none => (y, false)
  | some (lo, hi) =>
    if x.p ≤ hi && hi < y.p then (⟨hi, fZero, fZero⟩, x.p != hi)
    else if lo ≤ x.p && y.p < lo then (⟨lo, fZero, fZero⟩, x.p != lo)
    else (y, (y.p == hi || y.p == lo) && x.p != y.p)

/-- Raise an event of axis `n` (R339). -/
def State.raiseMx (s : State) (n src payload : Nat) : State := s.raise src payload (scopeDrive (s.axisUnit n)) scopeNone

/-- The setpoint arrives at a virtual limit. -/
def State.atLimit (s : State) (n : Nat) (arrived : Bool) : State :=
  if arrived then (s.setF (motFlag n 6) 1).raiseMx n 34 0 else s

/-! ## Moves (R311, R312, R316) -/

/-- R321 or R319 forbids a motion of sign `dir` (−1, 0, 1) from setpoint `p`. -/
def State.dirBad (s : State) (n : Nat) (p : Int) (dir : Int) : Bool :=
  let x := s.axis n
  let hl := s.bit (F.MOT_STS_hl_latched n) && ((x.latchHi && 0 < dir) || (x.latchLo && dir < 0))
  let vb := match s.vlim n with
    | some (lo, hi) => (hi < p && 0 ≤ dir) || (p < lo && dir ≤ 0)
    | none => false
  hl || vb

/-- Sign of a value. -/
def fDir (w : F32) : Int := if fLt fZero w then 1 else if fLt w fZero then -1 else 0

/-- The move that the targets in force describe, from setpoint `p`: `none` where it is refused (R312). -/
def State.takeMove (s : State) (n : Nat) : Option AxisSt :=
  let x := s.axis n
  let kind := s.f (F.MOT_TGT7_kind n)
  let bad := (List.range 4).any fun k => !fLt fZero (s.tgt n (k + 2))
  let t0 := s.fi (F.MOT_TGT0_pos n) * 65536
  let pt := if s.bit (F.MOT_TGT7_rel n) then wrapP (x.p + t0) else t0
  let ptc := match s.vlim n with | some (lo, hi) => max lo (min hi pt) | none => pt
  let dir : Int := if kind = 1 then (pt - x.p).sign else if kind = 2 then fDir (s.tgt n 1) else 0
  let moves := kind = 1 || kind = 2
  if bad || (kind = 2 && fIsNan (s.tgt n 1)) || s.winch n = 2 || s.axisSrc n != 0 || (moves && s.dirBad n x.p dir) then none
  else some { x with kind := if kind = 3 then 0 else kind, pt := ptc, vt := s.tgt n 1, clamped := ptc != pt }

/-- A move ends with outcome `o` (R316): EV38. -/
def State.moveEnd (s : State) (n o : Nat) : State := (s.setF (F.MOT_STS_outcome n) o).raiseMx n 38 o

/-- Axis fault `c` (R317): its cause is recorded and, in HOLD, MOVE or HOME, the axis stops at the couch. -/
def State.axisFault (s : State) (n c : Nat) : State :=
  let st := s.mot n
  let s := s.setF (F.MOT_STS_cause n) c
  if st = 2 || st = 3 || st = 5 then s.setAxis n { s.axis n with fault := c } else s

/-- Axis `n` takes state `st`. -/
def State.axisGo (s : State) (n st : Nat) : State := s.setF (F.MOT_STS_state n) st

/-! ## Homing (R323–R325) -/

/-- Start of homing. -/
def State.homeStart (s : State) (n : Nat) : State :=
  let m := s.f (F.MOT_HOME_method n)
  let neg := s.bit (F.MOT_HOME_dir n)
  (s.setAxis n { s.axis n with phase := if m = 2 then 4 else 1, after := 0, neg := neg, travel := 0, limits := 0, home := none,
                               wantIdx := m = 2, homeEnd := 0, kind := 0 }).axisGo n 5

/-- Homing ends without a home: EV37, home_res and the fault HOME_FAIL (R324); a chatter fault keeps its own cause. -/
def State.homeFail (s : State) (n res : Nat) : State :=
  let s := (s.setF (F.MOT_STS_home_res n) res).raiseMx n 37 0
  let s := if (s.axis n).fault = 3 then s else s.setF (F.MOT_STS_cause n) 7
  s.setAxis n { s.axis n with homeEnd := 0, wantIdx := false, home := none, phase := 0, fault := 0 }

/-- A switch of axis `n` is enabled. -/
def State.switchOn (s : State) (n : Nat) (high : Bool) : Bool := s.bit (if high then F.MOT_SW_hi_en n else F.MOT_SW_lo_en n)
/-- A switch of axis `n` is active: enabled, its debounced level the one that its polarity names (R320, R341). -/
def State.switchActive (s : State) (n : Nat) (high : Bool) : Bool :=
  s.switchOn n high && s.bit (if high then F.MOT_STS_sw_hi n else F.MOT_STS_sw_lo n) ==
    s.bit (if high then F.MOT_SW_hi_pol n else F.MOT_SW_lo_pol n)

/-- The switch that the method searches for is the positive one. -/
def State.homeHigh (s : State) (n : Nat) : Bool := !s.bit (F.MOT_HOME_dir n)

/-- The home instant: MOT_OFS is written so that the captured position becomes MOT_HOME_POS, and p moves with it (R325). -/
def State.homeWrite (s : State) (n : Nat) (at_ : Int) : State :=
  let d := s.fi (F.MOT_HOME_POS_pos n) - at_
  let s := s.setF (F.MOT_OFS_ofs n) (unsigned 32 (s.fi (F.MOT_OFS_ofs n) + d))
  let x := s.axis n
  s.setAxis n { x with p := wrapP (x.p + d * 65536), home := none, wantIdx := false, phase := 5 }

/-- The setpoint of axis `n`. -/
def AxisSt.pt3 (x : AxisSt) : SetPt := ⟨x.p, x.v, x.a⟩
/-- The axis with setpoint `y`. -/
def AxisSt.take (x : AxisSt) (y : SetPt) : AxisSt := { x with p := wrapP y.p, v := y.v, a := y.a }

/-- One stop step (R314). -/
def State.stopStep (s : State) (n : Nat) (x : SetPt) : SetPt × Bool :=
  speedStep x fZero (s.axisDs n) (s.axisDs n) (s.stopJ n) s.tSec

/-- One couch of homing. -/
def State.homeCouch (s : State) (n : Nat) : State :=
  let x := s.axis n
  let s := match x.home with | some h => if 3 ≤ x.phase then s.homeWrite n h else s | none => s
  let x := s.axis n
  let sw := s.switchActive n (s.homeHigh n)
  let x := if x.phase = 1 && sw then { x with phase := 2 } else x
  let still := x.phase = 2 || x.phase = 5 || x.phase = 6
  let sp : F32 := s.reg (if x.phase = 1 then R.MOT_HOME_V n else R.MOT_HOME_C n)
  let vt := fMin (s.axisV n x.neg) sp
  let r := if still then s.stopStep n x.pt3
    else speedStep x.pt3 (if x.neg then fNeg vt else vt) (s.axisA n) (s.axisD n) (s.tgt n 5) s.tSec
  let y := { x.take r.1 with travel := x.travel + (r.1.p - x.p).natAbs }
  let done := still && fEq r.1.v fZero
  let max_ := s.f (F.MOT_HOME_max n)
  if max_ != 0 && 4096 * max_ * 65536 < y.travel && x.phase != 5 then ((s.setAxis n y).homeFail n 3).axisGo n 4
  else if !done then s.setAxis n y
  else if x.phase = 2 then s.setAxis n { y with phase := if x.after = 4 then 4 else 3, after := 0, neg := !x.neg }
  else if x.phase = 6 then s.setAxis n { y with phase := x.after, neg := !x.neg }
  else
    let s := s.setAxis n { y with phase := 0 }
    (((s.setF (F.MOT_STS_homed n) 1).setF (F.MOT_STS_home_res n) 1).raiseMx n 36 0).axisGo n 2

/-! ## Cams (R326–R328) -/

/-- The cam store of cam `m`. -/
def camStore (m : Nat) : Nat := copyBase (16 + m)

/-- Number of points of cam `m` as written. -/
def State.camTiles (s : State) (m : Nat) : List Nat :=
  (List.range ((s.f (F.MOT_CAM_CFG_length m) + 255) / 256)).map fun i => s.f (F.MOT_CAM_TILE_tile m) + i

/-- The check of R326 that fails first, 0 for none. -/
def State.camCheck (s : State) (m : Nat) : Nat :=
  let dx : F32 := s.reg (R.MOT_CAM_DX m)
  if s.f (F.MOT_CAM_CFG_length m) = 1 then 1
  else if (s.camTiles m).any fun t => 1023 < t || !s.wmOk (2048 + t) then 2
  else if fIsNan dx || fIsInf dx || fEq dx fZero then 3
  else if 16 < s.f (F.MOT_CAM_CFG_master m) then 4
  else 0

/-- A write of 1 to MOT_CAMm_CFG.en (R326, R329). -/
def State.camEnable (s : State) (m : Nat) : State :=
  if s.bit (F.MOT_CAM_CFG_en m) then s
  else
    let e := s.camCheck m
    let s := s.setF (F.MOT_CAM_STS_error m) e
    if e != 0 then s
    else
      let n := s.f (F.MOT_CAM_CFG_length m)
      let s := s.takeInForce (R.MOT_CAM_CFG m) (R.MOT_CAM_CFG m + 0x20)
      let s := s.copy (tileAddr (2048 + s.f (F.MOT_CAM_TILE_tile m))) (camStore m) (4 * n)
      let s := (s.setF (F.MOT_CAM_CFG_en m) 1).setB (F.MOT_CAM_STS_active m) (2 ≤ n)
      let s := (s.setF (F.MOT_CAM_STS_ended m) 0).setF (F.MOT_CAM_STS_wraps m) 0
      let s := { s with cams := tblSet s.cams m {} }
      (List.range 8).foldl (fun s a =>
        if s.fe (F.MOT_BIND_cam a) == m then s.setAxis a { s.axis a with camOn := false, camHold := false } else s) s

/-- A write of 0 to MOT_CAMm_CFG.en. -/
def State.camDisable (s : State) (m : Nat) : State := (s.setF (F.MOT_CAM_CFG_en m) 0).setF (F.MOT_CAM_STS_active m) 0

/-- `f` modulo the whole number `k > 0`, and the number of turns taken off. -/
def fModNat (f : F32) (k : Nat) : F32 × Int :=
  match fUnpack f with
  | .fin neg m e =>
    let i : Int := if neg then -(m : Int) else m
    if 0 ≤ e then
      let v := i * (2 : Int) ^ e.toNat
      (fOfInt (v % k), v / k)
    else
      let c : Int := (k : Int) * (2 : Int) ^ (-e).toNat
      (fOfInt (i % c) e, i / c)
  | _ => (f, 0)

/-- Point `i` of cam `m` with `n` points; outside 0 to n − 1 the ends are held or i wraps (R328). -/
def State.camPoint (s : State) (m n : Nat) (cyclic : Bool) (i : Int) : F32 :=
  let last : Int := (n : Int) - 1
  let k : Nat := if cyclic && (i < 0 || last < i) then (i % last).toNat else (max 0 (min last i)).toNat
  s.word (camStore m + 4 * k)

/-- The output of cam `m` at coordinate `f` (R328). -/
def State.camOut (s : State) (m n : Nat) (cyclic : Bool) (f : F32) : F32 :=
  let k := fFloor f
  let t := fsub f (fOfInt k)
  let y := fun (i : Int) => s.camPoint m n cyclic i
  let y0 := y k
  let y1 := y (k + 1)
  if !s.bitE (F.MOT_CAM_CFG_interp m) then fadd y0 (fmul t (fsub y1 y0))
  else
    let ym := y (k - 1)
    let y2 := y (k + 2)
    let t2 := fmul t t
    let t3 := fmul t2 t
    let c := fun (i : Int) (w : F32) => fmul (fOfInt i) w
    let q1 := fdiv (fmul t (fsub y1 ym)) fTwo
    let q2 := fdiv (fmul t2 (fsub (fadd (fsub (c 2 ym) (c 5 y0)) (c 4 y1)) y2)) fTwo
    let q3 := fdiv (fmul t3 (fadd (fsub (fadd (fNeg ym) (c 3 y0)) (c 3 y1)) y2)) fTwo
    fadd (fadd (fadd y0 q1) q2) q3

/-- Cam `m` at a couch; `s0` is the state before the evaluation began, which gives the master (R307, R327). -/
def State.camCouch (s0 : State) (s : State) (m : Nat) : State :=
  let n := s.fe (F.MOT_CAM_CFG_length m)
  if !s.bit (F.MOT_CAM_CFG_en m) || n < 2 then s
  else
    let c := tblGet {} s.cams m
    let ms := s.fe (F.MOT_CAM_CFG_master m)
    let x := if ms < 8 then ofFix (s0.axis ms).p
      else if ms < 16 then fOfInt (s0.axisSeen (ms - 8))
      else fmul (fOfInt c.couches) s.tSec
    let f := fdiv (fsub x (s.reg (R.MOT_CAM_X0 m))) (s.reg (R.MOT_CAM_DX m))
    let top := fOfInt ((n : Int) - 1)
    let cyclic := s.bitE (F.MOT_CAM_CFG_cyclic m)
    let org := match (List.range 8).find? fun a => s.fe (F.MOT_BIND_cam a) == m && s.axisSrc a == 1 &&
        s.bit (F.MOT_CTL_en a) with | some a => scopeDrive (s.axisUnit a) | none => s.scopeDev
    let r := if cyclic then fModNat f (n - 1) else (fCut fZero top f, 0)
    let s := { s with cams := tblSet s.cams m { couches := c.couches + 1, turns := some r.2 } }
    let s := if cyclic then
        match c.turns with
        | some w => if w = r.2 then s
          else
            let s := s.incWrap (F.MOT_CAM_STS_wraps m) (r.2 - w).natAbs
            if s.bit (F.MOT_CAM_CFG_wrap_ev m) then
              (List.range (r.2 - w).natAbs).foldl (fun s _ => s.raise 39 0 org scopeNone) s
            else s
        | none => s
      else if fLe top f && !s.bit (F.MOT_CAM_STS_ended m) then (s.setF (F.MOT_CAM_STS_ended m) 1).raise 39 0 org scopeNone
      else s
    let s := s.setF (F.MOT_CAM_STS_index m) (fFloor r.1).toNat
    s.setReg (R.MOT_CAM_Y m) (s.camOut m n cyclic r.1)

/-- The setpoint that cam `m` gives (R329). -/
def State.camSet (s : State) (m : Nat) : Int :=
  wrapP (s.fi (F.MOT_CAM_OFS_ofs m) * 65536 + fixOf (fmul (s.reg (R.MOT_CAM_SCALE m)) (s.reg (R.MOT_CAM_Y m))))

/-- The axis holds its setpoint in HOLD. -/
def State.camWait (s : State) (n : Nat) (x : AxisSt) : State :=
  (s.setAxis n { x with v := fZero, a := fZero, camOn := false }).axisGo n 2

/-- An axis with src CAM in HOLD or MOVE at a couch (R329). -/
def State.camFollow (s : State) (n : Nat) : State :=
  let x := s.axis n
  let m := s.fe (F.MOT_BIND_cam n)
  if !s.bit (F.MOT_CAM_STS_active m) || s.bit (F.MOT_CAM_STS_ended m) || x.camHold then s.camWait n x
  else
    let pc := s.camSet m
    let rel := s.bitE (F.MOT_CAM_CFG_rel m)
    if !x.camOn && rel then
      let ofs := s.fi (F.MOT_CAM_OFS_ofs m) + (x.p - pc + 32768) / 65536
      ((s.setF (F.MOT_CAM_OFS_ofs m) (unsigned 32 ofs)).setAxis n { x with v := fZero, a := fZero, camOn := true }).axisGo n 3
    else if !x.camOn && s.f (F.MOT_TOL_tol n) * 65536 < (pc - x.p).natAbs then
      (s.setF (motFlag n 10) 1).camWait n { x with camHold := true }
    else
      let y : SetPt := ⟨pc, fZero, fZero⟩
      let cut := s.limitCut n x.pt3 y
      if cut.1.p != pc || cut.2 then (s.atLimit n cut.2).camWait n { x with p := cut.1.p, camHold := true }
      else (s.setAxis n { x with p := pc, v := fdiv (ofFix (pc - x.p)) s.tSec, a := fZero, camOn := true }).axisGo n 3

/-! ## Winch modes (R333–R338) -/

/-- h·w for the haul sign of axis `n`. -/
def State.haul (s : State) (n : Nat) (w : F32) : F32 := if s.bitE (F.MOT_WINCH_haul_dir n) then fNeg w else w
/-- t_set of axis `n`: MOT_TGT6, or what a load-share function puts in its place (R335, R355). -/
def State.tSet (s : State) (n : Nat) : F32 :=
  tblGet (s.q15 (F.MOT_TGT6_t_set n)) (s.unit (s.axisUnit n)).ovr 20
/-- Put value `w` in place of item `k` of unit `u`. -/
def State.setOvr (s : State) (u k : Nat) (w : F32) : State :=
  s.setUnit u { s.unit u with ovr := tblSet (s.unit u).ovr k w }
/-- Nothing stands in place of item `k` of unit `u`. -/
def State.delOvr (s : State) (u k : Nat) : State := s.setUnit u { s.unit u with ovr := tblDel (s.unit u).ovr k }

/-- Winch state of axis `n` at a couch: caps, overload render, tension, slack. -/
def State.winchCouch (s : State) (n : Nat) : State :=
  let u := s.axisUnit n
  let m := s.winch n
  if m = 0 then s
  else
    let x := s.axis n
    let ht := s.haul n (s.tauOf u)
    let hv := s.haul n (s.toPu n (s.vMeas n))
    let out := fLt hv (fNeg (s.axisBand n))
    let neg := s.bitE (F.MOT_WINCH_haul_dir n)
    let tOvl := s.q15 (F.MOT_WINCH2_t_ovl n)
    let slack := fLt ht (s.q15 (F.MOT_WINCH2_slack_thr n)) && out
    let x := { x with slackNs := if slack then x.slackNs + s.periodNs else 0, slackUp := x.slackUp && slack,
                      ovl := m = 1 && fLe tOvl ht && out }
    let s := s.setAxis n x
    if m = 1 then
      let s := (s.setOvr u 16 tOvl).setOvr u 17 tOvl
      if x.ovl then s.setF (motFlag n 8) 1 else s
    else
      let t := s.tSet n
      let band := s.q15 (F.MOT_WINCH_band n)
      let hi := fmul t (fadd fOne band)
      let lo := fmul t (fsub fOne band)
      let s := (s.setOvr u 16 (if neg then fZero else hi)).setOvr u 17 (if neg then hi else fZero)
      let was := s.bit (F.MOT_STS_recovering n)
      let rec_ := !x.syncInh && !fLe t ht && (was || (fLt ht lo && !out))
      (s.setB (F.MOT_STS_recovering n) rec_).setB (F.MOT_STS_rendering n) out

/-! ## An axis at a couch (R306, R310, R313, R330) -/

/-- A unit that the axis needs has left RUN: the axis goes to WAIT (R310). -/
def State.axisLost (s : State) (n : Nat) : State :=
  let st := s.mot n
  let s := s.setF (F.MOT_STS_cause n) 8
  let s := if st = 3 || (st = 4 && (s.axis n).fromMove) then s.moveEnd n 3 else if st = 5 then s.homeFail n 4 else s
  (s.setAxis n { s.axis n with waited := false, fault := 0, fromMove := false, kind := 0, camOn := false }).axisGo n 1

/-- Axis `n` enters STOP, from MOVE or not, for a fault or a request. -/
def State.axisStop (s : State) (n : Nat) (fault : Bool) : State :=
  let mv := s.mot n = 3
  let s := if fault then s else s.setF (F.MOT_STS_cause n) 1
  (s.setAxis n { s.axis n with fault := 0, fromMove := mv, byFault := fault, camOn := false, wantIdx := false, kind := 0 }).axisGo n 4

/-- The transition of axis `n` at this couch: the first row of R310 that applies. -/
def State.axisTransition (s : State) (n : Nat) : State :=
  let x := s.axis n
  let st := s.mot n
  let us := s.f (F.FLD_STS_state (s.axisUnit n))
  let run := us == 4
  let fresh := s.f (F.MOT_TGT7_seq n) != x.seq
  let kind := s.f (F.MOT_TGT7_kind n)
  let stop := x.stopReq || (fresh && (kind == 0 || kind == 3))
  let take := fun (s : State) (go : State → State) => if !fresh then s
    else match s.takeMove n with
      | some y => go (s.setAxis n y)
      | none => s.setF (motFlag n 1) 1
  match st with
  | 1 =>
    if !run then s
    else
      let vm := s.vMeas n
      let s := s.setAxis n { x with p := s.axisFix n, v := vm, a := fZero, kind := 0, fromMove := false, fault := 0 }
      s.axisGo n (if fGt (fAbs (s.toPu n vm)) (s.axisBand n) then 4 else 2)
  | 2 =>
    if !run then s.axisLost n
    else if x.fault != 0 then s.axisStop n true
    else
      let s1 := take s fun s => s.axisGo n 3
      if s1.mot n = 3 then s1 else if x.homeReq then s1.homeStart n else s1
  | 3 =>
    if !run then s.axisLost n
    else if x.fault != 0 then s.axisStop n true
    else if stop then s.axisStop n false
    else take s fun s => s
  | 4 => if !run then s.axisLost n else s
  | 5 =>
    if !run then s.axisLost n
    else if x.homeEnd != 0 then (s.homeFail n x.homeEnd).axisStop n true
    else if x.fault != 0 then s.axisStop n true
    else if stop then s.axisStop n false else s
  | 6 =>
    let s1 := take s fun s => (s.setAxis n { s.axis n with held := .move, relAt := none }).axisGo n 7
    if s1.mot n = 7 then s1
    else if x.homeReq then (s1.setAxis n { s1.axis n with held := .home, relAt := none }).axisGo n 7 else s1
  | 7 =>
    if us = 6 then (s.setAxis n { x with held := .none, waited := false }).axisGo n 1
    else if run && x.relAt.isNone then
      (s.setAxis n { x with relAt := some s.now, rel := true }).setF (F.MOT_STS_brake n) 0
    else s
  | _ => s

/-- The generator of axis `n` in HOLD or MOVE with src PROFILE. -/
def State.profileCouch (s : State) (n : Nat) : State :=
  let x := s.axis n
  let st := s.mot n
  let t := s.tSec
  let cur := x.pt3
  if st = 3 && x.kind = 1 then
    let pt := match s.vlim n with | some (lo, hi) => max lo (min hi x.pt) | none => x.pt
    let neg := pt < x.p || (pt = x.p && fLt x.v fZero)
    let r := posStep cur pt (s.axisV n neg) (s.axisA n) (s.axisD n) (s.tgt n 5) t (fOfInt (s.f (F.MOT_TOL_tol n))) (s.limitBrake n cur)
    let c := s.limitCut n cur r.1
    let s := (s.setAxis n (x.take c.1)).atLimit n c.2
    if r.2 then (s.moveEnd n (if x.clamped || pt != x.pt then 2 else 0)).axisGo n 2 else s
  else if x.kind = 2 then
    let base : SetPt := if st = 3 then { cur with p := s.axisFix n } else cur
    let v := s.axisV n (fLt x.vt fZero)
    let vt := fBand v x.vt
    let brk := s.limitBrake n base
    let r := if brk then (brakeStep base (s.axisD n) (s.tgt n 5) t, false)
      else if st = 3 then speedStep base vt (s.axisA n) (s.axisD n) (s.tgt n 5) t
      else (⟨base.p + fixOf (fmul base.v t), base.v, fZero⟩, false)
    let c := if st = 3 && s.limitPassed n base then
        (match s.vlim n with
          | some (lo, hi) => if hi < base.p then ⟨hi, fZero, fZero⟩ else ⟨lo, fZero, fZero⟩
          | none => base)
      else (s.limitCut n base r.1).1
    let cut := c.p != r.1.p
    let y : SetPt := if st = 3 && !cut then { c with p := s.axisFix n } else c
    let arrived := match s.vlim n with | some (lo, hi) => (y.p == hi || y.p == lo) && x.p != y.p | none => false
    let s := (s.setAxis n { x.take y with kind := if cut then 0 else 2 }).atLimit n arrived
    if st != 3 then s
    else if cut then (s.moveEnd n 2).axisGo n 2
    else if r.2 then (s.moveEnd n 0).axisGo n 2 else s
  else
    let r := s.stopStep n cur
    let c := s.limitCut n cur r.1
    let s := (s.setAxis n (x.take c.1)).atLimit n c.2
    if st = 3 && fEq c.1.v fZero then (s.moveEnd n 0).axisGo n 2 else s

/-- The setpoint of axis `n` at this couch, after its transition. -/
def State.axisMotion (s : State) (n : Nat) : State :=
  let x := s.axis n
  let st := s.mot n
  let here : SetPt := ⟨s.axisFix n, fZero, fZero⟩
  let s := match st with
  | 2 | 3 => if s.axisSrc n = 1 then s.camFollow n else if s.axisSrc n = 2 then s.setAxis n (x.take here) else s.profileCouch n
  | 4 =>
    let r := s.stopStep n x.pt3
    let c := s.limitCut n x.pt3 r.1
    let s := (s.setAxis n (x.take c.1)).atLimit n c.2
    if !fEq c.1.v fZero then s
    else
      let s := if x.fromMove then s.moveEnd n (if x.byFault then 3 else 1) else s
      (s.setAxis n { s.axis n with fromMove := false, kind := 0 }).axisGo n 2
  | 5 => s.homeCouch n
  | _ => s.setAxis n (x.take here)
  if s.winch n = 2 then s.setAxis n { s.axis n with p := here.p } else s

/-- The run request of axis `n` at this couch (R310, R331). -/
def State.axisRun (s : State) (n : Nat) : Nat :=
  let x := s.axis n
  match s.mot n with
  | 1 => if !x.waited || (s.f (F.FLD_STS_state (s.axisUnit n)) == 1 && x.runReq == 1) then 0 else 1
  | 6 => if !x.coiled then 1 else if s.bit (F.MOT_STAND_coils n) then 3 else 0
  | _ => 1

/-- What axis `n` puts in place of the references of its unit (R306, R337). -/
def State.axisRefs (s0 : State) (s : State) (n : Nat) : State :=
  let u := s.axisUnit n
  let x := s.axis n
  let st := s.mot n
  let s := if s.axisSrc n = 2 then
      let l := s.fe (F.MOT_BIND_leader n)
      let ls := s0.mot l
      let w := if ls = 0 || ls = 1 then fZero
        else fdiv (fmul (fmul (s.q14 (F.MOT_SHARE_ratio n)) (s0.axis l).tau) (s.few (F.FLD_BASE_T_value (s.axisUnit l))))
          (s.few (F.FLD_BASE_T_value u))
      s.setOvr u 0 w
    else if s.winch n = 2 then
      s.setOvr u 3 (if s.bit (F.MOT_STS_recovering n) then s.toPu n (s.haul n (fAbs (s.tgt n 1))) else fZero)
    else
      let pos := (st = 2 || st = 3 || st = 4 || st = 5) && !(st = 3 && x.kind = 2 && s.axisSrc n = 0) && !x.ovl
      let e := if pos then fmul (s.reg (R.MOT_KP n)) (ofFix (s.axisErr n x.p)) else fZero
      s.setOvr u 3 (s.toPu n (fadd x.v e))
  if s.bitE (F.MOT_CTL_own_run n) then
    let r := s.axisRun n
    (s.setOvr u 5 (BitVec.ofNat 32 r)).setAxis n { x with runReq := r, waited := st = 1 }
  else s.setAxis n { x with waited := st = 1 }

/-- Counters that the checks of R317, R330 and R338 look at. -/
def State.axisWatch (s : State) (n : Nat) : State :=
  let x := s.axis n
  let st := s.mot n
  let ferr := s.f (F.MOT_TOL_ferr n)
  let far := ferr != 0 && !x.ovl && 16 * ferr * 65536 < (s.axisErr n x.p).natAbs
  let calm := st = 2 && s.axisSrc n = 0 && s.winch n != 2 && fEq x.v fZero &&
    fLe (fAbs (s.toPu n (s.vMeas n))) (s.axisBand n)
  let l := s.fe (F.MOT_BIND_leader n)
  let rpm := fun a => fmul (fmul (s.vMeas a) (s.few (F.MOT_GEAR_g a))) kSixty
  let tol := s.f (F.MOT_SHARE_sync_tol n)
  let apart := s.axisSrc n = 2 && tol != 0 &&
    fGt (fAbs (fsub (rpm n) (rpm l))) (fmul (0x3DCCCCCD : F32) (fOfInt tol))
  let s := s.setAxis n { x with ferrRun := if far && (st = 3 || st = 5) then x.ferrRun + 1 else 0,
                                ferrHold := if far && st = 2 then x.ferrHold + 1 else 0, stand := if calm then x.stand + s.periodNs else 0,
                                syncRun := if apart then x.syncRun + 1 else 0, tau := s.tauOf (s.axisUnit n),
                                seq := s.f (F.MOT_TGT7_seq n), stopReq := false, homeReq := false }
  let beyond := match s.vlim n with | some (lo, hi) => x.p < lo || hi < x.p | none => false
  let s := s.setB (F.MOT_STS_beyond n) beyond
  (s.setReg (R.MOT_SET_POS n) (BitVec.ofInt 32 (x.p / 65536))).setReg (R.MOT_SET_VEL n) x.v

/-- Axis `n` at a couch (R306–R338). -/
def State.axisCouch (s0 : State) (s : State) (n : Nat) : State :=
  if !s.bit (F.MOT_CTL_en n) then s.setAxis n { s.axis n with seq := s.f (F.MOT_TGT7_seq n), stopReq := false, homeReq := false }
  else
    let s := s.winchCouch n
    let s := (s.axisTransition n).axisMotion n
    let x := s.axis n
    let s := if x.ovl then s.setAxis n { x with p := s.axisFix n } else s
    (State.axisRefs s0 s n).axisWatch n

/-- CAM0–CAM15 and then MX0–MX7 at a couch (R307). -/
def State.motionCouch (s : State) : State :=
  let s1 := (List.range 16).foldl (State.camCouch s) s
  (List.range 8).foldl (State.axisCouch s) s1

/-- The motion targets of an enabled axis that lie outside the deckle `dk` of drive `u`: 11 speed target, 12 and 13
accelerations (R60). -/
def State.axisOutside (s : State) (u : Nat) (dk : Nat → Int) : List Nat :=
  match (List.range 8).find? fun n => s.bit (F.MOT_CTL_en n) && s.axisUnit n == u with
  | none => []
  | some n =>
    let q := fun m => s.toCnt n (fOfInt (dk m) (-15))
    let v := s.tgt n 1
    (if fGt v (q 0) || fLt v (fNeg (q 1)) then [11] else []) ++ (if fGt (s.tgt n 3) (q 7) then [12] else []) ++
      (if fGt (s.tgt n 4) (q 7) then [13] else [])

/-! ## Enable and disable (R308, R309) -/

/-- The check of R308 that fails first, 0 for none. -/
def State.axisCheck (s : State) (n : Nat) : Nat :=
  let u := s.f (F.MOT_BIND_unit n)
  let src := s.f (F.MOT_CTL_src n)
  let w := s.f (F.MOT_WINCH_mode n)
  let g : F32 := s.reg (R.MOT_GEAR n)
  let kp : F32 := s.reg (R.MOT_KP n)
  let l := s.f (F.MOT_BIND_leader n)
  let mode := s.fe (F.FLD_CTL_ref_mode u)
  if s.part.lanes ≤ u || !s.unitOn u || !s.portOn (s.f (F.MOT_BIND_port n)) ||
      (List.range 8).any (fun m => m != n && s.bit (F.MOT_CTL_en m) && s.axisUnit m == u) then 1
  else if src = 3 || (src < 2 && (mode != 2 || s.bitE (F.FLD_CTL_curve_en u))) || (src = 2 && mode != 1) || w = 3 ||
      (w != 0 && src != 0) then 2
  else if !finitePos g || fIsNan kp || fLt kp fZero then 3
  else if src = 2 && (l = n || !s.bit (F.MOT_CTL_en l) || s.axisSrc l = 2) then 4
  else if s.f (F.MOT_STAND_stand_t n) != 0 && (!s.bit (F.MOT_CTL_own_run n) || src != 0) then 5
  else if s.bit (F.MOT_CTL_vlim_en n) && s.fi (F.MOT_VLIM_HI_hi n) ≤ s.fi (F.MOT_VLIM_LO_lo n) then 6
  else 0

/-- A write of 1 to MOT_CTL.en (R308, R310). -/
def State.axisEnable (s : State) (n : Nat) : State :=
  if s.bit (F.MOT_CTL_en n) then s
  else
    let e := s.axisCheck n
    let s := s.setF (F.MOT_STS_error n) e
    if e != 0 then s
    else
      let x := s.axis n
      let s := (s.takeInForce (R.MOT_CTL n) (R.MOT_CTL n + 0x80)).setF (F.MOT_CTL_en n) 1
      (s.setAxis n { latchHi := x.latchHi, latchLo := x.latchLo, chgHi := x.chgHi, chgLo := x.chgLo,
                     seq := s.f (F.MOT_TGT7_seq n) }).axisGo n 1

/-- Nothing of axis `n` stands in place of its unit's references. -/
def State.axisFree (s : State) (n : Nat) : State :=
  let u := s.axisUnit n
  [0, 3, 5, 16, 17, 20].foldl (fun s k => s.delOvr u k) s

/-- A write of 0 to MOT_CTL.en (R309). -/
def State.axisDisable (s : State) (n : Nat) : State :=
  let st := s.mot n
  let leads := (List.range 8).any fun m => s.bit (F.MOT_CTL_en m) && s.axisSrc m == 2 && s.fe (F.MOT_BIND_leader m) == n
  if !s.bit (F.MOT_CTL_en n) then s
  else if leads || !(st = 0 || st = 1 || st = 2 || st = 6) then s.setF (motFlag n 0) 1
  else
    let s := (s.axisFree n).setF (F.MOT_CTL_en n) 0
    ((s.setF (F.MOT_STS_rendering n) 0).setF (F.MOT_STS_recovering n) 0).axisGo n 0

/-! ## Limit switches (R320–R322) -/

/-- Changes of a switch within the last chat_w × 10 ms are more than chat_n. -/
def State.chatting (s : State) (n : Nat) (l : List Nat) : Bool :=
  let k := s.f (F.MOT_DEB_chat_n n)
  k != 0 && k < (l.filter fun t => s.now ≤ t + s.f (F.MOT_DEB_chat_w n) * 10000000).length

/-- A switch of axis `n` becomes active outside HOME (R321). -/
def State.hardLimit (s : State) (n : Nat) (high : Bool) : State :=
  let u := s.axisUnit n
  let act := s.f (F.MOT_SW_action n)
  let x := s.axis n
  let s := (s.setF (motFlag n 4) 1).setF (F.MOT_STS_hl_latched n) 1
  let s := s.setAxis n { x with latchHi := x.latchHi || high, latchLo := x.latchLo || !high }
  let s := s.axisFault n 2
  (s.unitDemandLater u act 10 35).raise 35 0 (scopeDrive u) (s.unitScopeLater u act 10)

/-- A switch of axis `n` changes during homing (R323, R324). -/
def State.homeSwitch (s : State) (n : Nat) (high active : Bool) (capture : Int) : State :=
  let x := s.axis n
  let m := s.f (F.MOT_HOME_method n)
  let ph := if x.phase = 6 then x.after else x.phase
  let mine := m != 2 && high == s.homeHigh n && (ph = 1 || ph = 2 || ph = 3)
  if active then
    if mine then s
    else if 1 ≤ x.limits then s.setAxis n { x with limits := 2, homeEnd := 2 }
    else if x.phase = 5 || x.phase = 6 then s.setAxis n { x with limits := 1 }
    else s.setAxis n { x with limits := 1, phase := 6, after := x.phase }
  else if mine && ph != 1 then
    if m = 1 then s.setAxis n { x with home := some capture }
    else if x.phase = 3 then s.setAxis n { x with phase := 4, wantIdx := true }
    else s.setAxis n { x with after := 4, wantIdx := true }
  else s

/-- The level of the ball that a switch of axis `n` reads has stood for the last `held` of the samples taken at every whole
multiple of 100,000 ns. A change of the debounced level counts at deb + 1 of them; its capture is the axis position at the
first (R320). -/
def State.switchChange (s : State) (n : Nat) (high : Bool) (held : Nat) : State :=
  let g := s.f (if high then F.MOT_SW_gpio_hi n else F.MOT_SW_gpio_lo n)
  let sw := if high then F.MOT_STS_sw_hi n else F.MOT_STS_sw_lo n
  let level := s.gpioLevel g
  if !s.switchOn n high || s.bit sw == level || held ≤ s.f (F.MOT_DEB_deb n) then s
  else
    let seen := s.posAtSample (s.axisPort n) (s.now / 100000 - (held - 1))
    let capture := signed 32 (unsigned 32 (seen + s.fi (F.MOT_OFS_ofs n)))
    let s := s.setB sw level
    let active := s.switchActive n high
    if s.mot n = 5 then s.homeSwitch n high active capture
    else if active then s.hardLimit n high else s

/-- More than chat_n changes of a switch of axis `n` within chat_w (R322). -/
def State.chatter (s : State) (n : Nat) (high : Bool) : State :=
  let x := s.axis n
  if !s.switchOn n high || !s.chatting n (if high then x.chgHi else x.chgLo) then s
  else
    let home := s.mot n = 5
    let s := (s.setF (motFlag n 5) 1).setF (F.MOT_STS_hl_latched n) 1
    let s := s.setAxis n { x with latchHi := x.latchHi || high, latchLo := x.latchLo || !high }
    let s := (s.axisFault n 3).raiseMx n 35 0
    if home then s.setAxis n { s.axis n with homeEnd := 4 } else s

/-- A write of 1 to MOT_CTL.clear (R321, R338). -/
def State.axisClear (s : State) (n : Nat) : State :=
  let x := s.axis n
  if s.switchActive n true || s.switchActive n false || s.chatting n x.chgHi || s.chatting n x.chgLo then
    s.setF (motFlag n 2) 1
  else (s.setF (F.MOT_STS_hl_latched n) 0).setAxis n { x with latchHi := false, latchLo := false, syncInh := false }

/-! ## Commands and timers (R317, R323, R330–R332, R336, R338) -/

/-- A write of 1 to MOT_CTL.stop. -/
def State.stopRequest (s : State) (n : Nat) : State :=
  let st := s.mot n
  if st = 3 || st = 5 then s.setAxis n { s.axis n with stopReq := true } else s

/-- A write of 1 to MOT_CTL.home (R323). -/
def State.homeCommand (s : State) (n : Nat) : State :=
  let st := s.mot n
  let m := s.f (F.MOT_HOME_method n)
  let p := s.axisPort n
  let ok := (st = 2 || st = 6) && m != 0 && !s.bit (F.MOT_STS_hl_latched n) &&
    (m = 1 || (s.portOn p && s.portMode p == 1 && s.bitE (F.FBK_IDX_idx_en p)))
  if ok then s.setAxis n { s.axis n with homeReq := true } else s.setF (motFlag n 2) 1

/-- A host write to MOT_OFS (R325). -/
def State.offsetWrite (s : State) (n : Nat) (val : Word) : State :=
  (s.setReg (R.MOT_OFS n) val).setF (F.MOT_STS_homed n) 0

/-- The following error has been too large at two couches in a row, in MOVE or HOME a fault, in HOLD only the flag (R317). -/
def State.followError (s : State) (n : Nat) : State :=
  let st := s.mot n
  if 2 ≤ (s.axis n).ferrRun && (st = 3 || st = 5) then (s.setF (motFlag n 3) 1).axisFault n 4
  else if 2 ≤ (s.axis n).ferrHold then s.setF (motFlag n 3) 1
  else s

/-- The standstill timer reaches stand_t (R330, R331). -/
def State.standstill (s : State) (n : Nat) : State :=
  let t := s.fe (F.MOT_STAND_stand_t n)
  let x := s.axis n
  if s.mot n != 2 || t = 0 || x.stand < t * 10000000 then s
  else
    let apply := s.bit (F.MOT_STAND_sbc_en n)
    let s := s.setAxis n { x with parkAt := s.now, coiled := false, stand := 0, rel := x.rel && !apply }
    let s := if apply then s.setF (F.MOT_STS_brake n) 1 else s
    (s.raiseMx n 40 0).axisGo n 6

/-- brake_t after PARK (R331). -/
def State.brakeTimer (s : State) (n : Nat) : State :=
  let x := s.axis n
  if s.mot n != 6 || x.coiled then s
  else (s.at (x.parkAt + s.f (F.MOT_STAND_brake_t n) * 10000000)).setAxis n { x with coiled := true }

/-- rel_t after the release request (R332): the held command starts, while the unit is in RUN and the brake released. -/
def State.releaseTimer (s : State) (n : Nat) : State :=
  let x := s.axis n
  let free := !s.bit (F.MOT_STAND_sbc_en n) || s.bit (F.SAFE_SBC_released (s.f (F.MOT_STAND_sbc n)))
  match x.relAt with
  | some t =>
    if s.mot n != 7 || s.f (F.FLD_STS_state (s.axisUnit n)) != 4 || !free then s
    else
      let s := (s.at (t + s.f (F.MOT_STAND_rel_t n) * 10000000)).setAxis n { x with relAt := none, held := .none }
      if x.held = .home then s.homeStart n else s.axisGo n 3
  | none => s

/-- Slack for slack_t (R336). -/
def State.slackOn (s : State) (n : Nat) : State :=
  let x := s.axis n
  let t := s.f (F.MOT_WINCH_slack_t n)
  if s.mot n = 0 || s.winch n = 0 || t = 0 || x.slackUp || x.slackNs < t * 10000000 then s
  else
    let s := (s.setAxis n { x with slackUp := true }).setF (motFlag n 7) 1
    if s.winch n = 1 then s.axisFault n 5 else s

/-- Follower axis `n` and its leader have differed in speed at eight couches in a row (R338). -/
def State.syncError (s : State) (n : Nat) : State :=
  if !s.bit (F.MOT_CTL_en n) || s.axisSrc n != 2 || (s.axis n).syncRun < 8 then s
  else
    let l := s.fe (F.MOT_BIND_leader n)
    let s := (s.setF (motFlag n 9) 1).setF (motFlag l 9) 1
    let s := s.axisFault l 6
    if s.winch l = 2 then (s.setAxis l { s.axis l with syncInh := true }).setF (F.MOT_STS_recovering l) 0 else s

/-! ## Meanings -/

/-- AXIS_ENABLE (R308). -/
def execAxisEnable (n : Fin 8) (s : State) : Host.Outcome State Fault Refusal := onMain s fun s => s.axisEnable n
/-- AXIS_DISABLE (R309). -/
def execAxisDisable (n : Fin 8) (s : State) : Host.Outcome State Fault Refusal := onMain s fun s => s.axisDisable n
/-- STOP_REQUEST (R317). -/
def execStopRequest (n : Fin 8) (s : State) : Host.Outcome State Fault Refusal := onMain s fun s => s.stopRequest n
/-- HOME_COMMAND (R323). -/
def execHomeCommand (n : Fin 8) (s : State) : Host.Outcome State Fault Refusal := onMain s fun s => s.homeCommand n
/-- AXIS_CLEAR (R321). -/
def execAxisClear (n : Fin 8) (s : State) : Host.Outcome State Fault Refusal := onMain s fun s => s.axisClear n
/-- OFFSET_WRITE (R325). -/
def execOffsetWrite (n : Fin 8) (val : Word) (s : State) : Host.Outcome State Fault Refusal :=
  onMain s fun s => s.offsetWrite n val
/-- LIMIT_SWITCH_CHANGE (R321). -/
def execLimitSwitchChange (n : Fin 8) (high : Bool) (held : Nat) (s : State) : Host.Outcome State Fault Refusal :=
  onMain s fun s => s.switchChange n high held
/-- CHATTER (R322). -/
def execChatter (n : Fin 8) (high : Bool) (s : State) : Host.Outcome State Fault Refusal := onMain s fun s => s.chatter n high
/-- FOLLOWING_ERROR (R317). -/
def execFollowingError (n : Fin 8) (s : State) : Host.Outcome State Fault Refusal := onMain s fun s => s.followError n
/-- STANDSTILL_TIMER (R330). -/
def execStandstillTimer (n : Fin 8) (s : State) : Host.Outcome State Fault Refusal := onMain s fun s => s.standstill n
/-- BRAKE_TIMER (R331). -/
def execBrakeTimer (n : Fin 8) (s : State) : Host.Outcome State Fault Refusal := onMain s fun s => s.brakeTimer n
/-- RELEASE_TIMER (R332). -/
def execReleaseTimer (n : Fin 8) (s : State) : Host.Outcome State Fault Refusal := onMain s fun s => s.releaseTimer n
/-- SLACK (R336). -/
def execSlack (n : Fin 8) (s : State) : Host.Outcome State Fault Refusal := onMain s fun s => s.slackOn n
/-- SYNC_ERROR (R338). -/
def execSyncError (n : Fin 8) (s : State) : Host.Outcome State Fault Refusal := onMain s fun s => s.syncError n
/-- CAM_ENABLE (R326). -/
def execCamEnable (m : Fin 16) (s : State) : Host.Outcome State Fault Refusal := onMain s fun s => s.camEnable m

end Sys2Proof.Machine
end

