-- ==== Sys2Proof/Machine/Shaft.lean ====
section
/-! DEFINITION. The shaft link (12_shaft_link.md): forming a line, line time, the per-tick exchange, ring loss, mail, load
sharing and crash stops. An operand gives the characters of a frame from 1 up to the
CRC; a frame that is sent or forwarded is held with its K characters. -/

namespace Sys2Proof.Machine

/-! ## The line (R342–R345) -/

/-- Own node, number of members, line identity and b in force. -/
def State.node (s : State) : Nat := s.fe F.SHFT_CFG_node
/-- Members. -/
def State.lineN (s : State) : Nat := s.fe F.SHFT_CFG_n
/-- Link code: 0 OFF, 1 FORMING, 2 BOTH, 3 A_ONLY, 4 B_ONLY, 5 NONE. -/
def State.link (s : State) : Nat := s.f F.SHFT_STS_link
/-- Blocks sent. -/
def State.xchB (s : State) : Nat := s.fe F.SHFT_XCH_CFG_blocks
/-- Ring `r` (0 A, 1 B) is up. -/
def State.ringUp (s : State) (r : Nat) : Bool := s.bit (if r = 0 then F.SHFT_STS_ring_a else F.SHFT_STS_ring_b)
/-- A ring is up. -/
def State.lineUp (s : State) : Bool := 2 ≤ s.link && s.link ≤ 4
/-- Bit of SHFT_FLAGS. -/
def shftFlag (bit : Nat) : Fld := ⟨R.SHFT_FLAGS, bit, 1⟩
/-- The line as `l`. -/
def State.setLine (s : State) (l : LineSt) : State := { s with line := l }

/-- Append the CRC-16 of R205 (R343). -/
def withCrc (bs : List Byte) : List Byte := bs ++ bytesOf (crc16 bs).toNat 2
/-- The CRC-16 at the end of a frame is right. -/
def crcOk (fr : List Byte) : Bool :=
  2 ≤ fr.length && ofBytes (fr.drop (fr.length - 2)) == (crc16 (fr.take (fr.length - 2))).toNat
/-- `n` bytes of a frame from byte `i`. -/
def frBytes (fr : List Byte) (i n : Nat) : Nat := ofBytes ((fr.drop i).take n)
/-- Type, origin, n and line identity of a frame. -/
def frType (fr : List Byte) : Nat := byteAt fr 0 % 16
/-- Origin node. -/
def frOrigin (fr : List Byte) : Nat := byteAt fr 1 % 8
/-- n. -/
def frN (fr : List Byte) : Nat := byteAt fr 1 / 16

/-- The first three characters of a frame of type `ty` (R348). -/
def State.frHead (s : State) (ty : Nat) : List Byte :=
  [BitVec.ofNat 8 ty, BitVec.ofNat 8 (s.node + 16 * s.lineN), BitVec.ofNat 8 (s.fe F.SHFT_CFG_line)]

/-- Another node than this device's, of those of the line. -/
def State.others (s : State) : List Nat := (List.range s.lineN).filter fun p => p != s.node

/-- Link code of the rings that are up. -/
def linkCode (a b : Bool) : Nat := if a && b then 2 else if a then 3 else if b then 4 else 5

/-- Nanoseconds from the couch by which every frame is complete (R349). -/
def State.xchX (s : State) (d : Nat) : Nat :=
  let tau := if s.fe F.SHFT_CFG_rate = 1 then 8 else 4
  300 + (s.lineN - 1) * ((77 + 32 * s.xchB) * tau + 100) + d + 40

/-- SHFT_RING_DLY and SHFT_XCH_REQ from the sums of the rings that are up (R349). -/
def State.xchShow (s : State) : State :=
  let sum := fun r => if s.ringUp r then tblGet 0 s.line.sums r else 0
  let d := max (sum 0) (sum 1)
  (s.setF F.SHFT_RING_DLY_d d).setF F.SHFT_XCH_REQ_req (counts4 (s.xchX d))

/-- The check of R344: code 1 where it fails. -/
def State.lineCheck (s : State) : Nat :=
  let n := s.f F.SHFT_CFG_n
  if n < 2 || 8 < n || n ≤ s.f F.SHFT_CFG_node || 8 < s.f F.SHFT_XCH_CFG_blocks then 1 else 0

/-- A write of 1 to SHFT_CTL.en (R344). -/
def State.lineEnable (s : State) : State :=
  if s.bit F.SHFT_CTL_en then s
  else
    let e := s.lineCheck
    let s := s.setF F.SHFT_STS_error e
    if e != 0 then s
    else
      let s := ((s.takeInForce R.SHFT_CTL (R.SHFT_CTL + 0x40)).setF F.SHFT_CTL_en 1).setF F.SHFT_STS_link 1
      (s.setLine { since := s.now, shares := s.line.shares }).xchShow

/-- A write of 0 to SHFT_CTL.en: the device leaves the line and is standalone (R360). -/
def State.lineLeave (s : State) : State :=
  if !s.bit F.SHFT_CTL_en then s
  else
    let s := (s.setF F.SHFT_CTL_en 0).setReg R.SHFT_STS 0
    let s := (s.setReg R.TIME_LINE_STS 0).setF F.TIME_LINE_STS_locked 1
    let s := s.setReg R.TIME_SRV_STS 0
    { s with line := { shares := s.line.shares }, tm := { s.tm with holdLag := none, slow := 0, reslew := false } }

/-! ## Load sharing: fallback (R357) -/

/-- The state of load-share function `d`. -/
def State.share (s : State) (d : Nat) : ShareSt := tblGet {} s.line.shares d
/-- The state with function `d` as `x`. -/
def State.setShare (s : State) (d : Nat) (x : ShareSt) : State :=
  s.setLine { s.line with shares := tblSet s.line.shares d x }

/-- Function `d` enters fallback where its source is lost (R357): EV41 once. -/
def State.shareCheck (s : State) (d : Nat) : State :=
  if s.bit (F.SHFT_LS_STS_active d) && !s.bit (F.SHFT_LS_STS_fallback d) &&
      (!s.lineUp || 3 ≤ tblGet 3 s.line.age (s.fe (F.SHFT_LS_CFG_src_node d))) then
    ((s.setF (F.SHFT_LS_STS_fallback d) 1).setF (F.SHFT_LS_STS_blending d) 0).raise 41 0 (scopeDrive d) scopeNone
  else s

/-- Every function. -/
def State.shareChecks (s : State) : State := (List.range 8).foldl State.shareCheck s

/-! ## Rings up and down (R344, R353) -/

/-- The rings' state changes: the link code follows, and a change among BOTH, A_ONLY, B_ONLY and NONE raises EV42, NONE also
EV41 (R353). -/
def State.linkShow (s : State) : State :=
  let was := s.link
  let now := linkCode (s.ringUp 0) (s.ringUp 1)
  let s := (s.setF F.SHFT_STS_link now).xchShow
  if was < 2 || was = now then s
  else
    let s := s.raiseDev 42 ((s.ringUp 0).toNat + 2 * (s.ringUp 1).toNat)
    if now = 5 then (s.raiseDev 41 0).shareChecks else s

/-- Ring `r` comes up (R344, R345). -/
def State.ringComes (s : State) (r : Nat) : State :=
  let first := s.link = 1
  let s := s.setF (if r = 0 then F.SHFT_STS_ring_a else F.SHFT_STS_ring_b) 1
  let s := s.setLine { s.line with fallen := s.line.fallen.filter (· != r), miss := tblSet s.line.miss r 0 }
  let s := s.linkShow
  if !first then s
  else
    let master := s.node = 0
    let s := ((s.setF F.SHFT_STS_error 0).setF F.TIME_LINE_STS_position s.node).setF F.TIME_LINE_STS_role (if master then 1 else 2)
    s.setB F.TIME_LINE_STS_locked master

/-- Ring `r` is up once every other node has been heard on it within 10 ms and no failure holds (R344). -/
def State.tryForm (s : State) (r : Nat) : State :=
  let heard := s.others.all fun p => match tblFind s.line.heard (8 * r + p) with
    | some t => s.now ≤ t + 10000000
    | none => false
  let ok := match tblFind s.line.failAt r with | some t => t + 10000000 < s.now | none => true
  if !s.ringUp r && !s.line.fallen.contains r && heard && ok then s.ringComes r else s

/-- The failure that a frame shows at this device (R344), 0 for none. `own` says that this device sent the frame, `direct`
that it comes from the upstream neighbour without having been forwarded. -/
def State.frFailure (s : State) (r : Nat) (own direct : Bool) (fr : List Byte) : Nat :=
  let o := frOrigin fr
  let n := s.lineN
  let up := if r = 0 then (s.node + n - 1) % n else (s.node + 1) % n
  if o = s.node then (if own then 0 else 2)
  else if direct && o != up then 3
  else if frN fr != n || n ≤ o then 4
  else if byteAt fr 2 != s.fe F.SHFT_CFG_line then 5
  else 0

/-- A frame that arrived on ring `r` shows formation failure `e` (R344, log entry 68). -/
def State.frFail (s : State) (r e : Nat) : State :=
  (s.setF F.SHFT_STS_error e).setLine { s.line with failAt := tblSet s.line.failAt r s.now }

/-- Node `o` has delivered a good frame on ring `r` in this tick or period (R353). -/
def State.deliver (s : State) (r o : Nat) : State :=
  s.setLine { s.line with got := if s.line.got.contains (8 * r + o) then s.line.got else (8 * r + o) :: s.line.got }

/-- A good HELLO or EXCH frame of another node has arrived on ring `r` (R344). -/
def State.hear (s : State) (r o : Nat) : State :=
  (s.deliver r o).setLine { (s.deliver r o).line with heard := tblSet s.line.heard (8 * r + o) s.now }

/-- Nanoseconds of a character (R342). -/
def State.charNs (s : State) : Nat := if s.fe F.SHFT_CFG_rate = 1 then 8 else 4

/-- Type of a frame with its K characters. -/
def wireType (w : List (Bool × Byte)) : Nat := frType (unwire w)

/-- A frame takes the transmitter of ring `r` from instant `t` at the earliest, after the frames before it; an EXCH frame goes
ahead of the MAIL frames that have not yet begun to leave (R354). -/
def State.putOut (s : State) (r t : Nat) (w : List (Bool × Byte)) : State :=
  let ends := fun (e : Nat × List (Bool × Byte)) => e.1 + s.charNs * e.2.length
  let place := fun (q : List (Nat × List (Bool × Byte))) (e : Nat × List (Bool × Byte)) =>
    q ++ [(q.foldl (fun m x => max m (ends x)) e.1, e.2)]
  let waits := fun (e : Nat × List (Bool × Byte)) => wireType w == 3 && wireType e.2 == 4 && decide (s.now < e.1)
  let q := (tblGet [] s.line.out r).filter fun e => decide (s.now < ends e)
  s.setLine { s.line with
    out := tblSet s.line.out r ((q.filter waits).foldl place (place (q.filter fun e => !waits e) (t, w))) }

/-- A frame leaves on both rings. -/
def State.sendBoth (s : State) (w : List (Bool × Byte)) : State := (s.putOut 0 s.now w).putOut 1 s.now w

/-- A frame goes on to the next node of ring `r` (R343), a free value of at most 100 ns after its arrival: unchanged where its CRC
fails; a SYNC frame with that residence time added to its correction (R347). A frame of this device's own is not forwarded. -/
def State.forward (s : State) (r : Nat) (fr : List Byte) : State :=
  if s.link = 0 || frOrigin fr = s.node then s
  else
    let (w, s) := s.free 7
    let stay := w.toNat % 101
    s.putOut r (s.now + stay) (wire (if !crcOk fr || frType fr != 2 then fr
      else withCrc (fr.take 11 ++ bytesOf (frBytes fr 11 4 + stay) 4 ++ (fr.take (fr.length - 2)).drop 15)))

/-- A HELLO frame arrives on ring `r` (R344). -/
def State.helloFrame (s : State) (r : Nat) (own direct : Bool) (fr : List Byte) : State :=
  if s.link = 0 then s
  else if !crcOk fr then s.incSat F.SHFT_CNT_crc
  else if frType fr != 1 then s
  else
    let e := s.frFailure r own direct fr
    if e != 0 then s.frFail r e
    else if frOrigin fr = s.node then s
    else (s.hear r (frOrigin fr)).tryForm r

/-- 10 ms of forming have passed with no ring up (R344). -/
def State.formTimeout (s : State) : State :=
  if s.link != 1 then s
  else
    let s := (s.at (s.line.since + 10000000)).setF F.SHFT_STS_error 6
    s.setLine { s.line with since := s.now }

/-- A tick, or a HELLO period while the tick is stopped, ends for the supervision of the rings (R353). -/
def State.ringPeriod (s : State) : State :=
  let all := fun r => s.others.all fun p => s.line.got.contains (8 * r + p)
  let up := fun (t : Tbl Nat) (r : Nat) (c : Bool) => tblSet t r (if c then tblGet 0 t r + 1 else 0)
  let l := s.line
  s.setLine { l with got := [], miss := up (up l.miss 0 (!all 0)) 1 (!all 1), good := up (up l.good 0 (all 0)) 1 (all 1) }

/-- The next whole multiple of `k` ns of global time, the present instant included. -/
def nextMultiple (k t : Nat) : Nat := (t + k - 1) / k * k

/-- A HELLO frame leaves on both rings (R344): while forming, and while the tick is stopped on a formed line (R353). A held
counter waits (R37). -/
def State.helloSend (s : State) : State :=
  if s.link = 0 || (s.link != 1 && s.running) || s.tm.holdLag.isSome then s
  else
    let s := s.at (nextMultiple 20000 s.now)
    let s := if s.link = 1 then s else s.ringPeriod
    let w := wire (withCrc (s.frHead 1))
    let s := s.sendBoth w
    s.setLine { s.line with sent := [w], mailGo := true }

/-- Ring `r` goes down (R353). -/
def State.ringDown (s : State) (r : Nat) (alignment : Bool) : State :=
  if s.link < 2 || !s.ringUp r || !(alignment || 3 ≤ tblGet 0 s.line.miss r) then s
  else
    let s := s.setF (if r = 0 then F.SHFT_STS_ring_a else F.SHFT_STS_ring_b) 0
    let s := s.incSat (if r = 0 then F.SHFT_LINK_A_downs else F.SHFT_LINK_B_downs)
    let s := s.setLine { s.line with fallen := r :: s.line.fallen, good := tblSet s.line.good r 0 }
    s.linkShow

/-- Ring `r` comes back up after 16 good ticks or periods (R353). -/
def State.ringBack (s : State) (r : Nat) : State :=
  if s.link < 2 || s.ringUp r || !s.line.fallen.contains r || tblGet 0 s.line.good r < 16 then s else s.ringComes r

/-! ## Line time (R37, R38, R346, R347) -/

/-- The link delay of ring `r` is measured: half the round trip; `sum` is that of the ring's link delays (R346, R349). -/
def State.linkDelay (s : State) (r rtt sum : Nat) : State :=
  if s.link < 2 || !s.ringUp r then s
  else
    let s := s.setF (if r = 0 then F.TIME_SRV_DLYA_dly else F.TIME_SRV_DLYB_dly) (rtt / 2)
    (s.setLine { s.line with sums := tblSet s.line.sums r sum }).xchShow

/-- The master sends SYNC on both rings (R347). -/
def State.syncSend (s : State) : State :=
  if s.link < 2 || s.role != 1 then s
  else
    let s := s.at (nextMultiple 50000 s.now)
    let per := if s.running then s.tm.period - 1 else s.f F.TIME_TICK_PERIOD_period_m1
    let ep := if s.running then s.tm.epoch else s.epochNow
    let w := wire (withCrc (s.frHead 2 ++ bytesOf s.now 8 ++ bytesOf 0 4 ++ bytesOf per 2 ++ bytesOf ep 8))
    let s := s.sendBoth w
    s.setLine { s.line with sent := [w] }

/-- The follower's offset to the master is `d` ns, the master's time less its own (log entry 96): step, hold or slew (R37); after
a loss with the tick running the follower re-locks by slewing even where the tick has stopped since (R38). A slew corrects at
most 5 ns a SYNC frame, that is 100 ns in 1 ms: forward at the frame, and back by making the timebase cycles that follow
shorter, so that the counter never moves back (log entry 62). -/
def State.lineAdjust (s : State) (d : Int) : State :=
  let s := s.setI F.TIME_LINE_STS_offset (clampInt (-32767) 32767 d)
  if !s.running && !s.tm.reslew && !s.bit F.TIME_LINE_STS_locked then
    if d < 0 then { s with tm := { s.tm with holdLag := some d.natAbs } }
    else { s.setF F.TIME_LINE_STS_locked 1 with tm := { s.tm with now := s.now + d.toNat, holdLag := none } }
  else if s.tm.holdLag.isSome then
    if d < 0 then { s with tm := { s.tm with holdLag := some d.natAbs } } else s
  else
    let s := { s with tm := { s.tm with now := s.now + min 5 d.toNat, slow := min 5 (-d).toNat } }
    if d.natAbs ≤ 10 then { s.setF F.TIME_LINE_STS_locked 1 with tm := { s.tm with reslew := false } } else s

/-- A SYNC frame arrives at a follower on ring `r` (R347). -/
def State.syncFrame (s : State) (r : Nat) (own direct : Bool) (fr : List Byte) : State :=
  let inUse := if s.ringUp 0 then 0 else 1
  let e := s.frFailure r own direct fr
  if s.link = 0 then s
  else if !crcOk fr then s.incSat F.SHFT_CNT_crc
  else if frType fr != 2 then s
  else if e != 0 then s.frFail r e
  else if frOrigin fr = s.node then s
  else if s.role != 2 || s.link < 2 || frOrigin fr != 0 || r != inUse || !s.ringUp r then s.deliver r (frOrigin fr)
  else
    let s := s.deliver r 0
    let dly := s.f (if r = 0 then F.TIME_SRV_DLYA_dly else F.TIME_SRV_DLYB_dly)
    let m := frBytes fr 3 8 + frBytes fr 11 4 + dly
    let s := ((s.setF F.TIME_SRV_STS_sync_seen 1).setF F.TIME_SRV_STS_ring (r + 1)).setF F.TIME_SRV_PERIOD_period_m1 (frBytes fr 15 2)
    let s := { s.setF F.TIME_LINE_STS_holdover 0 with
      tm := { s.tm with masterEpoch := frBytes fr 17 8 / 4 * 4 }
      line := { s.line with syncAt := some s.now } }
    s.lineAdjust ((m : Int) - s.now)

/-- No usable SYNC frame for 1 ms (R38, R347): with the tick running, EV43 and holdover. -/
def State.timeLoss (s : State) : State :=
  match s.line.syncAt with
  | none => s
  | some t =>
    if s.role != 2 then s
    else
      let s := s.at (t + 1000000)
      let s := (s.setF F.TIME_SRV_STS_sync_seen 0).setF F.TIME_SRV_STS_ring 0
      let s := s.setLine { s.line with syncAt := none }
      if !s.running then s
      else
        let s := ((s.setF F.TIME_LINE_STS_locked 0).setF F.TIME_LINE_STS_holdover 1).incSat F.TIME_SRV_LOSS_count
        { s with tm := { s.tm with reslew := true } }.raiseDev 43 0

/-- The master's time reaches the held value: the counter runs with the master (R37). -/
def State.holdEnd (s : State) : State :=
  if s.tm.holdLag.isNone then s
  else { s.setF F.TIME_LINE_STS_locked 1 with tm := { s.tm with holdLag := none } }

/-! ## The exchange (R348–R352) -/

/-- The axis in winch mode TENSION that is bound to drive `d`. -/
def State.tensionAxis (s : State) (d : Nat) : Option Nat :=
  (List.range 8).find? fun n => s.bit (F.MOT_CTL_en n) && s.axisUnit n == d && s.winch n == 2

/-- Drive word `d` (R351). -/
def State.driveWord (s : State) (d : Nat) : List Byte :=
  if s.part.lanes ≤ d || !s.unitOn d then bytesOf 0 8
  else
    let t := match s.tensionAxis d with | some n => (fToQ 16 15 (s.tSet n)).1 | none => 0
    let st := s.f (F.FLD_STS_state d) % 8 + 8 * s.f (F.FLD_STS_crash d) + 16 * s.f (F.SHFT_LS_STS_fallback d)
    bytesOf (fToQ 16 15 (s.tauOf d)).1 2 ++ bytesOf (s.f (F.FLD_MEAS_speed d)) 2 ++ bytesOf t 2 ++ bytesOf st 2

/-- The EXCH frame of this tick (R348): `at_` is the couch. A block that no context owns holds zero (R350). -/
def State.exchFrame (s : State) (at_ : Nat) : List Byte :=
  let blk := fun n => ((List.range 8).map fun i =>
    bytesOf (if (s.ownerOf 7 n).isSome then (s.word (shareAt n i)).toNat else 0) 4).flatten
  withCrc (s.frHead 3 ++ bytesOf at_ 4 ++ bytesOf (!s.line.flagged.isEmpty).toNat 1 ++ bytesOf s.xchB 1 ++
    ((List.range 8).map s.driveWord).flatten ++ ((List.range s.xchB).map blk).flatten)

/-- 300 ns after a couch its frame leaves on both rings, once; it counts as received in the own slot (R348, R352). -/
def State.exchSend (s : State) : State :=
  match s.line.couched with
  | none => s
  | some c =>
    if s.link = 0 || !s.line.exchGo then s
    else
      let s := s.at (c + 300)
      let fr := s.exchFrame c
      let s := s.sendBoth (wire fr)
      s.setLine { s.line with sent := [wire fr], acc := tblSet s.line.acc s.node (2, fr), exchGo := false, mailGo := true }

/-- Signed distance of two 32-bit instants. -/
def near32 (a b : Nat) : Int := signed 32 ((a + 2 ^ 32 - b % 2 ^ 32) % 2 ^ 32)

/-- An EXCH frame is complete on ring `r` (R349). -/
def State.exchRecv (s : State) (r : Nat) (own direct : Bool) (fr : List Byte) : State :=
  if s.link = 0 then s
  else if !crcOk fr then s.incSat F.SHFT_CNT_crc
  else if frType fr != 3 then s
  else
    let e := s.frFailure r own direct fr
    if e != 0 then s.frFail r e
    else if frOrigin fr = s.node then s
    else
      let o := frOrigin fr
      let s := (s.hear r o).tryForm r
      let ct := frBytes fr 3 4
      let near := fun (c : Nat) => decide ((near32 ct (c % 2 ^ 32)).natAbs ≤ 1000)
      let cur := near s.couchAt
      let old := s.line.couched.any near
      if !s.running || !(cur || old) then s
      else if !cur && s.tm.start + 1400 ≤ s.now then (s.incSat F.SHFT_CNT_late).setF (shftFlag 0) 1
      else if (tblFind s.line.acc o).isSome then s
      else s.setLine { s.line with acc := tblSet s.line.acc o (r, fr) }

/-- Byte address of the receive area (R352). -/
def State.xchArea (s : State) : Nat := dataBase + 32 * s.fe F.SHFT_XCH_CFG_addr

/-- Store a list of bytes. -/
def State.putList (s : State) (a : Nat) (bs : List Byte) : State := { s with mem := memPutList s.mem a bs }

/-- The slot and status word of member `p` (R352). -/
def State.slotWrite (s : State) (p : Nat) : State :=
  let a := s.xchArea
  let stat := fun (s : State) (cur : Bool) (age b ring : Nat) =>
    s.putWord (a + 0xA00 + 4 * p) (BitVec.ofNat 32 (cur.toNat + 2 * (s.line.seen.contains p).toNat + 4 * age + 16 * b +
      (if ring = 0 then 0x100 else if ring = 1 then 0x200 else 0)))
  match tblFind s.line.acc p with
  | some (r, fr) =>
    let b := min 8 (byteAt fr 8 % 16)
    let body := (fr.drop 9).take (64 + 32 * b)
    let s := s.putList (a + 0x140 * p) (body ++ List.replicate (320 - body.length) 0)
    let flag := byteAt fr 7 % 2 = 1
    let rise := flag && !s.line.crash.contains p
    let late := rise && 1 ≤ tblGet 0 s.line.age p && s.line.seen.contains p
    let l := s.line
    let s := s.setLine { l with age := tblSet l.age p 0, seen := if l.seen.contains p || s.link < 2 then l.seen else p :: l.seen,
                                blocks := tblSet l.blocks p (b + 16 * r), crashGo := l.crashGo || rise,
                                crash := if flag then (if l.crash.contains p then l.crash else p :: l.crash)
                                  else l.crash.filter (· != p) }
    let s := if late then s.setF (shftFlag 1) 1 else s
    (stat s true 0 b r).setF ⟨R.SHFT_STS, 8 + p, 1⟩ 1
  | none =>
    let age := min 3 (tblGet 3 s.line.age p + 1)
    let s := s.setLine { s.line with age := tblSet s.line.age p age }
    let br := tblGet 32 s.line.blocks p
    (stat s false age (br % 16) (br / 16)).setF ⟨R.SHFT_STS, 8 + p, 1⟩ 0

/-- The receive area is written at t = 1,400 ns of every tick, while forming too (R352), and the rings and sources are judged
(R353, R357). -/
def State.areaWrite (s : State) : State :=
  if s.link = 0 || !s.running then s
  else
    let s := s.at (s.tm.start + 1400)
    let s := (List.range s.lineN).foldl State.slotWrite s
    let s := s.setLine { s.line with acc := [] }
    (if s.link < 2 then s else s.ringPeriod).shareChecks

/-! ## Mail (R354) -/

/-- Send one mail entry. The two characters that give the length are the low half of word 0, so that the frame names its
destination [2:0] and a broadcast [3] (DESIGN CHOICE, log entry 61). -/
def State.mailOne (s : State) (ws : List Word) : State :=
  let w0 := (ws[0]?).getD 0
  let len := getBits w0 8 5
  if len = 0 || 24 < len then s.setF (shftFlag 3) 1
  else
    let body := ((ws.drop 2).map fun w => bytesOf w.toNat 4).flatten.take len
    let fr := withCrc (s.frHead 4 ++ bytesOf s.line.mailSeq 2 ++ bytesOf (getBits w0 16 16) 2 ++
      bytesOf (getBits w0 0 4 + 0x100 * len) 2 ++ body)
    let s := s.sendBoth (wire fr)
    s.setLine { s.line with sent := s.line.sent ++ [wire fr], mailSeq := (s.line.mailSeq + 1) % 0x10000 }

/-- Up to `k` entries of RG14 leave. -/
def State.mailTake (s : State) : Nat → State
  | 0 => s
  | k + 1 => match s.ringTake 14 with
    | some (ws, s1) => (s1.mailOne ws).mailTake k
    | none => s

/-- Once after each EXCH frame, or each HELLO frame while the tick is stopped, up to four entries leave while a ring is up. -/
def State.mailSend (s : State) : State :=
  if !s.lineUp || !s.line.mailGo then s
  else (s.setLine { s.line with mailGo := false, sent := [] }).mailTake 4

/-- A MAIL frame arrives: its first good copy enters RG15 where it names this device or is a broadcast. -/
def State.mailRecv (s : State) (r : Nat) (own direct : Bool) (fr : List Byte) : State :=
  let e := s.frFailure r own direct fr
  if s.link = 0 then s
  else if !crcOk fr then s.incSat F.SHFT_CNT_crc
  else if frType fr != 4 then s
  else if e != 0 then s.frFail r e
  else if frOrigin fr = s.node then s
  else if s.link = 1 then s.deliver r (frOrigin fr)
  else
    let o := frOrigin fr
    let s := s.deliver r o
    let q := frBytes fr 3 2
    let new := match tblFind s.line.mailLast o with
      | some l => let d := (q + 0x10000 - l) % 0x10000; 1 ≤ d && d < 0x8000
      | none => true
    let mine := byteAt fr 7 / 8 % 2 = 1 || byteAt fr 7 % 8 = s.node
    if !new || !mine then s
    else
      let len := min 24 (byteAt fr 8)
      let w0 := BitVec.ofNat 32 (o + len * 0x100 + frBytes fr 5 2 * 0x10000)
      let pay := ((fr.drop 9).take len) ++ List.replicate (24 - len) 0
      let words := (List.range 6).map fun i => BitVec.ofNat 32 (frBytes pay (4 * i) 4)
      let s := s.setLine { s.line with mailLast := tblSet s.line.mailLast o q }
      s.ringPut 15 [w0 :: BitVec.ofNat 32 s.now :: words]

/-! ## Load sharing (R355–R357) -/

/-- An enabled axis is bound to drive `d`. -/
def State.axisOf (s : State) (d : Nat) : Option Nat :=
  (List.range 8).find? fun n => s.bit (F.MOT_CTL_en n) && s.axisUnit n == d

/-- The check of R356 that fails first, 0 for none. -/
def State.shareEnableCheck (s : State) (d : Nat) : Nat :=
  let m := s.f (F.SHFT_LS_CFG_mode d)
  let ref := s.fe (F.FLD_CTL_ref_mode d)
  let src := s.f (F.SHFT_LS_CFG_src_node d)
  if s.part.lanes ≤ d || !s.unitOn d then 1
  else if m = 0 || (m = 1 && (ref != 1 || (s.axisOf d).isSome)) || (m = 2 && ref != 2) ||
      (m = 3 && (match s.tensionAxis d with | some n => s.axisSrc n != 0 | none => true)) then 2
  else if s.lineN ≤ src || (src = s.node && s.f (F.SHFT_LS_CFG_src_drive d) = d) then 3
  else 0

/-- Item of the unit that function `d` stands in for: torque_ref, the droop of the speed reference, t_set. -/
def shareItem (mode : Nat) : Nat := if mode = 1 then 0 else if mode = 2 then 21 else 20

/-- A write of 1 to SHFT_LSd_CFG.en (R356). A function that was disabled since the last couch ends its replacement first. -/
def State.shareEnable (s : State) (d : Nat) : State :=
  if s.bit (F.SHFT_LS_CFG_en d) then s
  else
    let e := s.shareEnableCheck d
    let s := s.setF (F.SHFT_LS_STS_error d) e
    if e != 0 then s
    else
      let s := if s.bit (F.SHFT_LS_STS_active d) then s.delOvr d (shareItem (s.fe (F.SHFT_LS_CFG_mode d))) else s
      let s := (s.takeInForce (R.SHFT_LS_CFG d) (R.SHFT_LS_CFG d + 0x10)).setF (F.SHFT_LS_CFG_en d) 1
      let s := ((s.setF (F.SHFT_LS_STS_active d) 1).setF (F.SHFT_LS_STS_fallback d) 0).setF (F.SHFT_LS_STS_blending d) 0
      s.setShare d { tau := s.tauOf d }

/-- A source word of function `d`: τ at offset 0, t_set at offset 4. -/
def State.shareSrc (s : State) (d off : Nat) : F32 :=
  let a := s.xchArea + 0x140 * s.fe (F.SHFT_LS_CFG_src_node d) + 8 * s.fe (F.SHFT_LS_CFG_src_drive d) + off
  fOfQ 16 15 (getBits (s.word a) 0 16)

/-- The value of function `d` from source value `src` (R355). -/
def State.shareLinked (s : State) (d : Nat) (src : F32) : F32 :=
  let r := s.q14 (F.SHFT_LS_CFG_ratio d)
  if s.fe (F.SHFT_LS_CFG_mode d) = 2 then fmul (s.q15 (F.SHFT_LS_PAR_droop d)) (fsub (s.share d).tau (fmul r src)) else fmul r src

/-- The value of function `d` in fallback (R357). -/
def State.shareHeld (s : State) (d : Nat) : F32 :=
  let x := s.share d
  match s.fe (F.SHFT_LS_CFG_mode d) with
  | 1 => fsub x.val (fmul (fOfQ 16 12 (s.f (F.SHFT_LS_PAR_kd d))) (fsub (s.unit d).meas x.w))
  | 2 => s.shareLinked d x.src
  | _ => x.val

/-- Load-share function `d` at a couch (R355, R357). -/
def State.shareCouch (s : State) (d : Nat) : State :=
  let m := s.fe (F.SHFT_LS_CFG_mode d)
  let k := shareItem m
  if !s.bit (F.SHFT_LS_STS_active d) then s
  else if !s.bit (F.SHFT_LS_CFG_en d) then
    let s := ((s.setF (F.SHFT_LS_STS_active d) 0).setF (F.SHFT_LS_STS_fallback d) 0).setF (F.SHFT_LS_STS_blending d) 0
    s.delOvr d k
  else
    let s := s.shareCheck d
    let x := s.share d
    let s := if s.bit (F.SHFT_LS_STS_fallback d) then
        let held := if m = 2 then x.src else x.val
        (s.setOvr d k (s.shareHeld d)).setF (F.SHFT_LS_STS_held d) (fToQ 16 15 held).1
      else
        let src := s.shareSrc d (if m = 3 then 4 else 0)
        let v := s.shareLinked d src
        if s.bit (F.SHFT_LS_STS_blending d) then
          let y := fadd x.frm (fdiv (fmul (fsub v x.frm) (fOfInt x.blend)) (fOfInt 64))
          let s := (s.setOvr d k y).setShare d { x with blend := x.blend + 1, src := src, val := y, w := (s.unit d).meas }
          if x.blend = 64 then s.setF (F.SHFT_LS_STS_blending d) 0 else s
        else (s.setOvr d k v).setShare d { x with src := src, val := v, w := (s.unit d).meas }
    s.setShare d { s.share d with tau := s.tauOf d }

/-- All functions at a couch, after the axes (R355). -/
def State.shareCouches (s : State) : State := (List.range 8).foldl State.shareCouch s

/-- A write of 1 to bit `d` of SHFT_CMD.resume (R357). -/
def State.shareResume (s : State) (d : Nat) : State :=
  if !s.lineUp || 0 < tblGet 3 s.line.age (s.fe (F.SHFT_LS_CFG_src_node d)) then s.setF (shftFlag 2) 1
  else if !s.bit (F.SHFT_LS_STS_fallback d) then s
  else
    let s := s.setShare d { s.share d with frm := s.shareHeld d, blend := 1 }
    (s.setF (F.SHFT_LS_STS_fallback d) 0).setF (F.SHFT_LS_STS_blending d) 1

/-! ## Crash stops across the line (R358) -/

/-- Drive `d` waits for the line before a crash stop: it is in the crash group and a ring is up. -/
def State.crashWaits (s : State) (d : Nat) : Bool := (s.f F.SHFT_CRASH_drives).testBit d && s.lineUp

/-- The crash group at a couch, before the units: requests that have just been committed set the flag, which stays for as long
as the run_req of its drive is 2, whatever the drive's state; and a flag that has risen on the line starts the crash stop of
every grouped drive in RUN. -/
def State.crashCouch (s : State) : State :=
  let l := s.line
  let flagged := (List.range 8).filter fun d => s.runAsk d == 2 &&
    (l.flagged.contains d || (s.crashWaits d && s.f (F.FLD_STS_state d) == 4 && !(s.unit d).crashDone))
  let go := l.crashGo
  let s := s.setLine { l with flagged := flagged, crashGo := false }
  if !go then s
  else (bitsOf 8 (s.f F.SHFT_CRASH_drives)).foldl (fun s d =>
    if s.f (F.FLD_STS_state d) = 4 then s.setUnit d { s.unit d with crashGo := true } else s) s

/-! ## Meanings -/

/-- No shaft-link frame leaves or arrives in a debug halt (R461, log entry 129). -/
def onLine (s : State) (f : State → State) : Host.Outcome State Fault Refusal := onMain s fun s => if s.halted then s else f s

/-- LINE_ENABLE (R344). -/
def execLineEnable (s : State) : Host.Outcome State Fault Refusal := onMain s State.lineEnable
/-- LINE_LEAVE (R360). -/
def execLineLeave (s : State) : Host.Outcome State Fault Refusal := onMain s State.lineLeave
/-- HELLO_SEND (R344). -/
def execHelloSend (s : State) : Host.Outcome State Fault Refusal := onLine s State.helloSend
/-- HELLO_FRAME (R344). -/
def execHelloFrame (ringB own direct : Bool) (frame : List Byte) (s : State) : Host.Outcome State Fault Refusal :=
  onLine s fun s => (s.forward ringB.toNat frame).helloFrame ringB.toNat own direct frame
/-- FORMATION_TIMEOUT (R344). -/
def execFormationTimeout (s : State) : Host.Outcome State Fault Refusal := onMain s State.formTimeout
/-- LINK_DELAY_MEASURE (R346). -/
def execLinkDelayMeasure (ringB : Bool) (rtt : BitVec 17) (sum : BitVec 16) (s : State) : Host.Outcome State Fault Refusal :=
  onMain s fun s => s.linkDelay ringB.toNat rtt.toNat sum.toNat
/-- SYNC_SEND (R347). -/
def execSyncSend (s : State) : Host.Outcome State Fault Refusal := onLine s State.syncSend
/-- SYNC_FRAME (R347). -/
def execSyncFrame (ringB : Bool) (frame : LineFrame) (s : State) : Host.Outcome State Fault Refusal :=
  onLine s fun s => (s.forward ringB.toNat frame.bytes).syncFrame ringB.toNat frame.own frame.direct frame.bytes
/-- TIME_LOSS (R38). -/
def execTimeLoss (s : State) : Host.Outcome State Fault Refusal := onMain s State.timeLoss
/-- COUNTER_HOLD_END (R37). -/
def execCounterHoldEnd (s : State) : Host.Outcome State Fault Refusal := onMain s State.holdEnd
/-- EXCH_SEND (R348). -/
def execExchSend (s : State) : Host.Outcome State Fault Refusal := onLine s State.exchSend
/-- EXCH_FRAME (R349): complete at global time `t`. -/
def execExchFrame (ringB : Bool) (t : Nat) (frame : LineFrame) (s : State) : Host.Outcome State Fault Refusal :=
  onLine s fun s => ((s.at t).forward ringB.toNat frame.bytes).exchRecv ringB.toNat frame.own frame.direct frame.bytes
/-- RECEIVE_AREA_WRITE (R352). -/
def execReceiveAreaWrite (s : State) : Host.Outcome State Fault Refusal := onLine s State.areaWrite
/-- RING_DOWN (R353). -/
def execRingDown (ringB alignment : Bool) (s : State) : Host.Outcome State Fault Refusal :=
  onMain s fun s => s.ringDown ringB.toNat alignment
/-- RING_UP (R353). -/
def execRingUp (ringB : Bool) (s : State) : Host.Outcome State Fault Refusal := onMain s fun s => s.ringBack ringB.toNat
/-- MAIL_SEND (R354). -/
def execMailSend (s : State) : Host.Outcome State Fault Refusal := onLine s State.mailSend
/-- MAIL_FRAME (R354). -/
def execMailFrame (ringB : Bool) (frame : LineFrame) (s : State) : Host.Outcome State Fault Refusal :=
  onLine s fun s => (s.forward ringB.toNat frame.bytes).mailRecv ringB.toNat frame.own frame.direct frame.bytes
/-- LOAD_SHARE_ENABLE (R356). -/
def execLoadShareEnable (d : Fin 8) (s : State) : Host.Outcome State Fault Refusal := onMain s fun s => s.shareEnable d
/-- LOAD_SHARE_RESUME (R357). -/
def execLoadShareResume (drives : BitVec 8) (s : State) : Host.Outcome State Fault Refusal :=
  onMain s fun s => (bitsOf 8 drives.toNat).foldl State.shareResume s

end Sys2Proof.Machine
end

