-- ==== Sys2Proof/Machine/Couch.lean ====
section
/-! DEFINITION. The couch point (R19, R53, R61, R131, R253–R258, R269, R307, R355). Its parts run in the order in which one
uses what another leaves (log entry 52). -/

namespace Sys2Proof.Machine

/-! ## Waiting demands (R255, R256) -/

/-- `x` is applied before `y` (R256, R34): the earlier stamp, then the lower class, then the lower source, then the lower origin
scope; one fault's demands in the order of the converters. -/
def Demand.before (x y : Demand) : Bool :=
  if x.stamp != y.stamp then x.stamp < y.stamp
  else if x.cls != y.cls then x.cls < y.cls
  else if x.source != y.source then x.source < y.source
  else if x.origin != y.origin then x.origin.toNat < y.origin.toNat
  else x.conv < y.conv

/-- Insert a demand after those that are not applied after it. -/
def insertDemand (x : Demand) : List Demand → List Demand
  | [] => [x]
  | y :: t => if x.before y then x :: y :: t else y :: insertDemand x t

/-- Demands in the order of R256. -/
def sortDemands (ds : List Demand) : List Demand := ds.foldl (fun acc x => insertDemand x acc) []

/-- Apply one waiting demand, and note whether it changed its converter. -/
def State.demandNoted (acc : State × List (Demand × Bool)) (d : Demand) : State × List (Demand × Bool) :=
  (acc.1.demand d.conv d.cls d.state d.source, acc.2 ++ [(d, acc.1.demandChanges d.conv d.cls)])

/-- The reaction scope of record `r` once the demands `ds` have been applied (R17, R256): the converter that its own demand
changed, the device where it changed several; where it changed none, what the fault had reached without it. EV11 keeps the
scope that R246 gives it. -/
def State.reactionNow (s : State) (ds : List (Demand × Bool)) (r : EvRec) : Word :=
  let mine := ds.filter fun d => d.1.source == r.source && d.1.stamp == r.stamp && d.1.origin == r.origin
  if mine.isEmpty || r.source == 0 || r.source == 11 then r.reaction
  else
    match ((mine.filter (·.2)).map (·.1.conv)).eraseDups with
    | [] => if r.reaction.toNat / 0x10000 ≤ 3 then r.reaction
        else if r.origin.toNat / 0x10000 ≤ 2 then r.origin else scopeNone
    | [k] => scopeConv k
    | _ => s.scopeDev

/-- The waiting demands are applied: those of earlier stamps and those of this couch (R255, R256). Records that have not been
written to the log yet take the reaction scope that comes of it (R17; log entry 113). -/
def State.demandsCouch (s : State) : State :=
  let ds := s.prot.waiting
  let s := { s with prot := { s.prot with waiting := [] } }
  let r := (sortDemands ds).foldl State.demandNoted (s, [])
  { r.1 with host := { r.1.host with queue := r.1.host.queue.map fun e => { e with reaction := r.1.reactionNow r.2 e } } }

/-! ## The committed values (R53, R59) -/

/-- Host writes to couchable registers that were held take effect (R59). -/
def State.heldCouch (s : State) : State :=
  s.held.foldl (fun s e => s.setReg e.1 e.2) { s with held := [] }

/-- Every closed group and every held host write takes effect. A slice that still runs is stopped by its budget first. -/
def State.commitCouch (s : State) : State :=
  let s := (List.range 8).foldl State.budgetExpiry s
  (({ s with elig := s.shadow } : State).heldCouch).groupsCouch

/-! ## Clamping to the deckle (R61) -/

/-- Owner context of clamped target `t` of drive `u`, numbered as by `outside` and `axisOutside`. -/
def State.clampOwner (s : State) (u t : Nat) : Option Nat :=
  if t < 8 then s.ownerOf 4 u
  else if t < 11 then s.ownerOf 3 u
  else ((List.range 8).find? fun n => s.bit (F.MOT_CTL_en n) && s.axisUnit n == u).bind fun n => s.ownerOf 5 n

/-- The targets of drive `u` outside the deckle `dk`. -/
def State.allOutside (s : State) (u : Nat) (dk : Nat → Int) : List Nat := s.outside u dk ++ s.axisOutside u dk

/-- EV20 of drive `u`, with the scopes of R500, for the targets `fresh`, which were not clamped at the couch before: payload [8] is 1 where the wider
deckle `wide`, without the narrowings of this couch, clamps none of them; otherwise class 9 demands deckle_act. -/
def State.deckleEvent (s : State) (u : Nat) (wide : Nat → Int) (fresh : List Nat) : State :=
  if fresh.isEmpty then s
  else
    let out := s.allOutside u wide
    if fresh.all fun t => !out.contains t then s.raiseDev 20 (u + 0x100)
    else
      let act := match s.unitConv u with | some k => s.f (F.PROT_CV_POL_deckle_act k) | none => 0
      (s.unitDemandLater u act 9 20).raiseDev 20 u

/-- Every bound target against the deckle in force: EV20 for the freshly clamped ones, and CTX_CLAMP_CNT once for each
owner of a clamped target. -/
def State.clampCouch (s wide : State) : State :=
  let now := (List.range s.part.lanes).map fun u => (u, s.allOutside u (s.deck u))
  let before := s.eng.clamped
  let owners := ((now.flatMap fun e => e.2.filterMap fun t => s.clampOwner e.1 t)).eraseDups
  let s := { s with eng := { s.eng with clamped := now.flatMap fun e => e.2.map fun t => 32 * e.1 + t } }
  let s := owners.foldl (fun s c => s.incSat (F.CTX_CLAMP_CNT_clamp_cnt c)) s
  now.foldl (fun s e => s.deckleEvent e.1 (wide.deck e.1) (e.2.filter fun t => !before.contains (32 * e.1 + t))) s

/-! ## Converters at the couch -/

/-- The watch of every unit and the governor of every converter, and the faults they come to (R158–R160, R269), which no
command has raised for this couch already. -/
def State.watchCouch (s : State) : State :=
  let s := (List.range 8).foldl State.unitWatch s
  let s := (List.range 8).foldl (fun s k => s.govern k (s.convVdc k)) s
  let s := (List.range 8).foldl State.unitFaults s
  let s := (List.range 8).foldl (State.governFaults true) s
  { s with prot := { s.prot with taken := [] } }

/-- The end of RAMP_DOWN, releases, and asc_ok for the demands until the next couch (R253, R254, R258). -/
def State.protCouch (s : State) : State :=
  let s := (List.range 8).foldl State.rampCouch s
  let s := (List.range 8).foldl State.releaseAtCouch s
  (List.range 8).foldl (fun s k => s.setB (F.PROT_CV_STS_asc_ok k) (s.convExists k && s.ascOkNow k)) s

/-! ## The couch -/

/-- COUCH: at `T − L` of a tick whose headbox was ready (R19). -/
def State.couch (s : State) : State :=
  if !s.running || s.tm.phase != 2 || s.halted then s
  else
    let s := (s.at s.couchAt).commitCouch
    let d := s.deckCouch
    let s := ((List.range 8).foldl State.unitPhase d.1).failuresCouch
    let s := (s.clampCouch { s with regs := d.2.regs }).watchCouch.demandsCouch
    let s := s.protCouch
    let s := s.motionCouch.shareCouches.crashCouch
    let s := (List.range 8).foldl State.ascCouch s
    let s := (List.range 8).foldl (fun s u => s.unitCouch u (!s.crashWaits u)) s
    let s := s.armsCouch
    let s := (List.range 8).foldl State.unitMirror s
    { s with tm := { s.tm with phase := 3 }, line := { s.line with couched := some s.couchAt, exchGo := true } }

/-- The state as the couch finds it when the committed values have taken effect. -/
def State.atCouch (s : State) : State := (s.at s.couchAt).commitCouch

/-- UNDERVOLTAGE (R269): the fault that this couch comes to, raised ahead of COUCH at its instant. -/
def execUndervoltage (k : Fin 8) (s : State) : Host.Outcome State Fault Refusal :=
  onMain s fun s => s.beforeCouch 0 k ((s.govern k (s.convVdc k)).uvDue k) fun s => s.uvDemand true k
/-- VDC_LOST (R269). -/
def execVdcLost (k : Fin 8) (s : State) : Host.Outcome State Fault Refusal :=
  onMain s fun s => s.beforeCouch 1 k ((s.govern k (s.convVdc k)).lostDue k) fun s => s.lostDemand true k
/-- LOCKED_ROTOR (R159). -/
def execLockedRotor (n : Fin 8) (s : State) : Host.Outcome State Fault Refusal :=
  onMain s fun s => s.beforeCouch 2 n ((s.atCouch.unitWatch n).lrDue n) fun s => s.lrDemand n
/-- OVERSPEED (R160). -/
def execOverspeed (n : Fin 8) (s : State) : Host.Outcome State Fault Refusal :=
  onMain s fun s => s.beforeCouch 3 n ((s.unitWatch n).ovsDue n) fun s => s.ovsDemand n
/-- COUCH (R53). -/
def execCouch (s : State) : Host.Outcome State Fault Refusal := onMain s State.couch

end Sys2Proof.Machine
end

