-- ==== Sys2Proof/Machine/NimDrive.lean ====
section
/-! DEFINITION. Drive instructions (R89–R94, R503). -/

namespace Sys2Proof.Machine

/-- The effect of a drive instruction: a V result with its flags, the flags set where any element is permitted. -/
def Effect.drive (c : Proc) (p : BitVec 3) (d : BitVec 5) (f : LaneSt → VWord × BitVec 3) : Effect :=
  Effect.v c p d (fun l => (f l).1) (fun l _ => (f l).2)

/-- The V word and flags of the results of elements 0 and 1, with elements 2 and 3 passed through. -/
def pairVec (x y : Fl) (e2 e3 : F32) : VWord × BitVec 3 := (vecF x.v y.v e2 e3, x.fl ||| y.fl)

/-- The V result of VPI (R92). -/
def piVec (a b : VWord) : VWord × BitVec 3 :=
  match piStep (elemF a 0) (elemF a 1) (elemF a 2) (elemF a 3) (elemF b 0) (elemF b 1) (elemF b 2) with
  | none => (vecF canonNan (fNorm (elemF b 0)) 0 0, flNan)
  | some r => (vecF r.out r.i (if r.sat then fOne else 0) 0, r.fl)

/-- VCLARKE (R90). -/
def execVclarke (c : Proc) (p : BitVec 3) (d a : BitVec 5) (s : State) : Host.Outcome State Fault Refusal :=
  onMain s fun s => s.instr c .L .f32 4 p (okV d && okV a)
    (Effect.drive c p d fun l =>
      let v := l.getV a
      let r := clarke (elemF v 0) (elemF v 1) (elemF v 2)
      (vecF r.1.v r.2.1.v r.2.2.v (elemF v 3), r.1.fl ||| r.2.1.fl ||| r.2.2.fl))
/-- VPARK (R90). -/
def execVpark (c : Proc) (p : BitVec 3) (d a b : BitVec 5) (s : State) : Host.Outcome State Fault Refusal :=
  onMain s fun s => s.instr c .L .f32 6 p (okV d && okV a)
    (Effect.drive c p d fun l =>
      let v := l.getV a
      let r := park (elemF v 0) (elemF v 1) (l.getS b)
      pairVec r.1 r.2 (elemF v 2) (elemF v 3))
/-- VIPARK (R90). -/
def execVipark (c : Proc) (p : BitVec 3) (d a b : BitVec 5) (s : State) : Host.Outcome State Fault Refusal :=
  onMain s fun s => s.instr c .L .f32 6 p (okV d && okV a)
    (Effect.drive c p d fun l =>
      let v := l.getV a
      let r := ipark (elemF v 0) (elemF v 1) (l.getS b)
      pairVec r.1 r.2 (elemF v 2) (elemF v 3))
/-- VSINCOS (R89). -/
def execVsincos (c : Proc) (p : BitVec 3) (d a : BitVec 5) (s : State) : Host.Outcome State Fault Refusal :=
  onMain s fun s => s.instr c .L .f32 6 p (okV d)
    (Effect.drive c p d fun l =>
      let r := sinCos (l.getS a)
      (vecF r.1.v r.2.1.v r.2.2.v 0, r.1.fl))
/-- VSVM (R91). -/
def execVsvm (c : Proc) (p : BitVec 3) (d a b : BitVec 5) (s : State) : Host.Outcome State Fault Refusal :=
  onMain s fun s => s.instr c .L .f32 12 p (okV d && okV a && b.toNat < 3)
    (Effect.drive c p d fun l =>
      let v := l.getV a
      let r := svm (elemF v 0) (elemF v 1) (elemF v 2) b.toNat
      (vecF r.a r.b r.c r.sector, r.fl))
/-- VPI (R92). -/
def execVpi (c : Proc) (p : BitVec 3) (d a b : BitVec 5) (s : State) : Host.Outcome State Fault Refusal :=
  onMain s fun s => s.instr c .L .f32 8 p (okV d && okV a && okV b)
    (Effect.drive c p d fun l =>
      piVec (l.getV a) (l.getV b))
/-- VLIM (R93). -/
def execVlim (c : Proc) (p : BitVec 3) (d a b : BitVec 5) (s : State) : Host.Outcome State Fault Refusal :=
  onMain s fun s => s.instr c .L .f32 12 p (okV d && okV a)
    (Effect.drive c p d fun l =>
      let v := l.getV a
      let r := vlim (elemF v 0) (elemF v 1) (l.getS b)
      pairVec r.1 r.2.1 (elemF v 2) (elemF v 3))
/-- LUT (R94). -/
def execLut (c : Proc) (p : BitVec 3) (d a b : BitVec 5) (s : State) : Host.Outcome State Fault Refusal :=
  onMain s fun s => s.instr c .L .scalar 8 p (okP b)
    (fun s l => match l.getA b with
      | none => (s, 7)
      | some _ => Effect.s c d (fun l => lut (fun k => s.word (tileBuf (procIdx c) b.toNat + 4 * k)) (l.getS a)) s l)

end Sys2Proof.Machine
end

