-- ==== Sys2Proof/Machine/NimFp.lean ====
section
/-! DEFINITION. Scalar floating-point instructions (R78, R80, R82). -/

namespace Sys2Proof.Machine

/-- FCMP_EQ (R78). -/
def execFcmpEq (c : Proc) (p : BitVec 3) (d a b : BitVec 5) (s : State) : Host.Outcome State Fault Refusal :=
  onMain s fun s => s.instr c .A .scalar 1 p (okP d)
    (Effect.p c d fun l => truth (fEq (l.getS a) (l.getS b)))
/-- FCMP_LT (R78). -/
def execFcmpLt (c : Proc) (p : BitVec 3) (d a b : BitVec 5) (s : State) : Host.Outcome State Fault Refusal :=
  onMain s fun s => s.instr c .A .scalar 1 p (okP d)
    (Effect.p c d fun l => truth (fLt (l.getS a) (l.getS b)))
/-- FCMP_LE (R78). -/
def execFcmpLe (c : Proc) (p : BitVec 3) (d a b : BitVec 5) (s : State) : Host.Outcome State Fault Refusal :=
  onMain s fun s => s.instr c .A .scalar 1 p (okP d)
    (Effect.p c d fun l => truth (fLe (l.getS a) (l.getS b)))
/-- FCMP_UN (R78). -/
def execFcmpUn (c : Proc) (p : BitVec 3) (d a b : BitVec 5) (s : State) : Host.Outcome State Fault Refusal :=
  onMain s fun s => s.instr c .A .scalar 1 p (okP d)
    (Effect.p c d fun l => truth (fIsNan (l.getS a) || fIsNan (l.getS b)))
/-- FADD (R78). -/
def execFadd (c : Proc) (p : BitVec 3) (d a b : BitVec 5) (s : State) : Host.Outcome State Fault Refusal :=
  onMain s fun s => s.instr c .A .scalar 2 p (true)
    (Effect.s c d fun l => fAdd (l.getS a) (l.getS b))
/-- FSUB (R78). -/
def execFsub (c : Proc) (p : BitVec 3) (d a b : BitVec 5) (s : State) : Host.Outcome State Fault Refusal :=
  onMain s fun s => s.instr c .A .scalar 2 p (true)
    (Effect.s c d fun l => fSub (l.getS a) (l.getS b))
/-- FMUL (R78). -/
def execFmul (c : Proc) (p : BitVec 3) (d a b : BitVec 5) (s : State) : Host.Outcome State Fault Refusal :=
  onMain s fun s => s.instr c .A .scalar 2 p (true)
    (Effect.s c d fun l => fMul (l.getS a) (l.getS b))
/-- FMA (R78). -/
def execFma (c : Proc) (p : BitVec 3) (d a b : BitVec 5) (s : State) : Host.Outcome State Fault Refusal :=
  onMain s fun s => s.instr c .A .scalar 3 p (true)
    (Effect.s c d fun l => fFma (l.getS d) (l.getS a) (l.getS b))
/-- FDIV (R78). -/
def execFdiv (c : Proc) (p : BitVec 3) (d a b : BitVec 5) (s : State) : Host.Outcome State Fault Refusal :=
  onMain s fun s => s.instr c .A .scalar 10 p (true)
    (Effect.s c d fun l => fDiv (l.getS a) (l.getS b))
/-- FSQRT (R78). -/
def execFsqrt (c : Proc) (p : BitVec 3) (d a : BitVec 5) (s : State) : Host.Outcome State Fault Refusal :=
  onMain s fun s => s.instr c .A .scalar 10 p (true)
    (Effect.s c d fun l => fSqrt (l.getS a))
/-- FMIN (R78). -/
def execFmin (c : Proc) (p : BitVec 3) (d a b : BitVec 5) (s : State) : Host.Outcome State Fault Refusal :=
  onMain s fun s => s.instr c .A .scalar 2 p (true)
    (Effect.s c d fun l => ⟨fMin (l.getS a) (l.getS b), 0⟩)
/-- FMAX (R78). -/
def execFmax (c : Proc) (p : BitVec 3) (d a b : BitVec 5) (s : State) : Host.Outcome State Fault Refusal :=
  onMain s fun s => s.instr c .A .scalar 2 p (true)
    (Effect.s c d fun l => ⟨fMax (l.getS a) (l.getS b), 0⟩)
/-- FABS (R82). -/
def execFabs (c : Proc) (p : BitVec 3) (d a : BitVec 5) (s : State) : Host.Outcome State Fault Refusal :=
  onMain s fun s => s.instr c .A .scalar 1 p (true)
    (Effect.s c d fun l => ⟨fAbs (l.getS a), 0⟩)
/-- FNEG (R82). -/
def execFneg (c : Proc) (p : BitVec 3) (d a : BitVec 5) (s : State) : Host.Outcome State Fault Refusal :=
  onMain s fun s => s.instr c .A .scalar 1 p (true)
    (Effect.s c d fun l => ⟨fNeg (l.getS a), 0⟩)
/-- FCLAMP (R82). -/
def execFclamp (c : Proc) (p : BitVec 3) (d a b : BitVec 5) (s : State) : Host.Outcome State Fault Refusal :=
  onMain s fun s => s.instr c .A .scalar 2 p (true)
    (Effect.s c d fun l => clampF (l.getS d) (l.getS a) (l.getS b))
/-- FTOI (R80). -/
def execFtoi (c : Proc) (p : BitVec 3) (d a : BitVec 5) (s : State) : Host.Outcome State Fault Refusal :=
  onMain s fun s => s.instr c .A .scalar 2 p (true)
    (Effect.s c d fun l => fToI (l.getS a))
/-- ITOF (R82). -/
def execItof (c : Proc) (p : BitVec 3) (d a : BitVec 5) (s : State) : Host.Outcome State Fault Refusal :=
  onMain s fun s => s.instr c .A .scalar 2 p (true)
    (Effect.s c d fun l => ⟨fOfInt (l.getS a).toInt, 0⟩)
/-- FTOQ (R80). -/
def execFtoq (c : Proc) (p : BitVec 3) (d a b : BitVec 5) (s : State) : Host.Outcome State Fault Refusal :=
  onMain s fun s => s.instr c .A .scalar 2 p (b.toNat < 16)
    (Effect.s c d fun l => toQWord (l.getS a) b.toNat)
/-- QTOF (R80). -/
def execQtof (c : Proc) (p : BitVec 3) (d a b : BitVec 5) (s : State) : Host.Outcome State Fault Refusal :=
  onMain s fun s => s.instr c .A .scalar 2 p (b.toNat < 16)
    (Effect.s c d fun l => ⟨ofQWord (l.getS a) b.toNat, 0⟩)
/-- FCLASS (R82). -/
def execFclass (c : Proc) (p : BitVec 3) (d a : BitVec 5) (s : State) : Host.Outcome State Fault Refusal :=
  onMain s fun s => s.instr c .A .scalar 1 p (true)
    (Effect.s c d fun l => ⟨classWord (l.getS a), 0⟩)

end Sys2Proof.Machine
end

