-- ==== Sys2Proof/Machine/NimInt.lean ====
section
/-! DEFINITION. Integer, compare and predicate instructions (R77, R82). -/

namespace Sys2Proof.Machine

/-- ADD (R82). -/
def execAdd (c : Proc) (p : BitVec 3) (d a b : BitVec 5) (s : State) : Host.Outcome State Fault Refusal :=
  onMain s fun s => s.instr c .A .scalar 1 p (true)
    (Effect.s c d fun l => ⟨l.getS a + l.getS b, 0⟩)
/-- SUB (R82). -/
def execSub (c : Proc) (p : BitVec 3) (d a b : BitVec 5) (s : State) : Host.Outcome State Fault Refusal :=
  onMain s fun s => s.instr c .A .scalar 1 p (true)
    (Effect.s c d fun l => ⟨l.getS a - l.getS b, 0⟩)
/-- AND (R82). -/
def execAnd (c : Proc) (p : BitVec 3) (d a b : BitVec 5) (s : State) : Host.Outcome State Fault Refusal :=
  onMain s fun s => s.instr c .A .scalar 1 p (true)
    (Effect.s c d fun l => ⟨l.getS a &&& l.getS b, 0⟩)
/-- OR (R82). -/
def execOr (c : Proc) (p : BitVec 3) (d a b : BitVec 5) (s : State) : Host.Outcome State Fault Refusal :=
  onMain s fun s => s.instr c .A .scalar 1 p (true)
    (Effect.s c d fun l => ⟨l.getS a ||| l.getS b, 0⟩)
/-- XOR (R82). -/
def execXor (c : Proc) (p : BitVec 3) (d a b : BitVec 5) (s : State) : Host.Outcome State Fault Refusal :=
  onMain s fun s => s.instr c .A .scalar 1 p (true)
    (Effect.s c d fun l => ⟨l.getS a ^^^ l.getS b, 0⟩)
/-- SHL (R82). -/
def execShl (c : Proc) (p : BitVec 3) (d a b : BitVec 5) (s : State) : Host.Outcome State Fault Refusal :=
  onMain s fun s => s.instr c .A .scalar 1 p (true)
    (Effect.s c d fun l => ⟨l.getS a <<< ((l.getS b).setWidth 5).toNat, 0⟩)
/-- SHR (R82). -/
def execShr (c : Proc) (p : BitVec 3) (d a b : BitVec 5) (s : State) : Host.Outcome State Fault Refusal :=
  onMain s fun s => s.instr c .A .scalar 1 p (true)
    (Effect.s c d fun l => ⟨l.getS a >>> ((l.getS b).setWidth 5).toNat, 0⟩)
/-- SAR (R82). -/
def execSar (c : Proc) (p : BitVec 3) (d a b : BitVec 5) (s : State) : Host.Outcome State Fault Refusal :=
  onMain s fun s => s.instr c .A .scalar 1 p (true)
    (Effect.s c d fun l => ⟨(l.getS a).sshiftRight ((l.getS b).setWidth 5).toNat, 0⟩)
/-- SLT (R82). -/
def execSlt (c : Proc) (p : BitVec 3) (d a b : BitVec 5) (s : State) : Host.Outcome State Fault Refusal :=
  onMain s fun s => s.instr c .A .scalar 1 p (true)
    (Effect.s c d fun l => ⟨if (l.getS a).slt (l.getS b) then 1 else 0, 0⟩)
/-- SLTU (R82). -/
def execSltu (c : Proc) (p : BitVec 3) (d a b : BitVec 5) (s : State) : Host.Outcome State Fault Refusal :=
  onMain s fun s => s.instr c .A .scalar 1 p (true)
    (Effect.s c d fun l => ⟨if (l.getS a).ult (l.getS b) then 1 else 0, 0⟩)
/-- MIN (R82). -/
def execMin (c : Proc) (p : BitVec 3) (d a b : BitVec 5) (s : State) : Host.Outcome State Fault Refusal :=
  onMain s fun s => s.instr c .A .scalar 1 p (true)
    (Effect.s c d fun l => ⟨if (l.getS b).slt (l.getS a) then l.getS b else l.getS a, 0⟩)
/-- MAX (R82). -/
def execMax (c : Proc) (p : BitVec 3) (d a b : BitVec 5) (s : State) : Host.Outcome State Fault Refusal :=
  onMain s fun s => s.instr c .A .scalar 1 p (true)
    (Effect.s c d fun l => ⟨if (l.getS a).slt (l.getS b) then l.getS b else l.getS a, 0⟩)
/-- MUL (R82). -/
def execMul (c : Proc) (p : BitVec 3) (d a b : BitVec 5) (s : State) : Host.Outcome State Fault Refusal :=
  onMain s fun s => s.instr c .A .scalar 2 p (true)
    (Effect.s c d fun l => ⟨l.getS a * l.getS b, 0⟩)
/-- MULH (R82). -/
def execMulh (c : Proc) (p : BitVec 3) (d a b : BitVec 5) (s : State) : Host.Outcome State Fault Refusal :=
  onMain s fun s => s.instr c .A .scalar 2 p (true)
    (Effect.s c d fun l => ⟨mulHigh (l.getS a) (l.getS b), 0⟩)
/-- DIV (R77). -/
def execDiv (c : Proc) (p : BitVec 3) (d a b : BitVec 5) (s : State) : Host.Outcome State Fault Refusal :=
  onMain s fun s => s.instr c .A .scalar 12 p (true)
    (Effect.s c d fun l => divWord (l.getS a) (l.getS b))
/-- REM (R77). -/
def execRem (c : Proc) (p : BitVec 3) (d a b : BitVec 5) (s : State) : Host.Outcome State Fault Refusal :=
  onMain s fun s => s.instr c .A .scalar 12 p (true)
    (Effect.s c d fun l => remWord (l.getS a) (l.getS b))
/-- ADDS (R82). -/
def execAdds (c : Proc) (p : BitVec 3) (d a b : BitVec 5) (s : State) : Host.Outcome State Fault Refusal :=
  onMain s fun s => s.instr c .A .scalar 1 p (true)
    (Effect.s c d fun l => satWord ((l.getS a).toInt + (l.getS b).toInt))
/-- SUBS (R82). -/
def execSubs (c : Proc) (p : BitVec 3) (d a b : BitVec 5) (s : State) : Host.Outcome State Fault Refusal :=
  onMain s fun s => s.instr c .A .scalar 1 p (true)
    (Effect.s c d fun l => satWord ((l.getS a).toInt - (l.getS b).toInt))
/-- ADDI (R82). -/
def execAddi (c : Proc) (p : BitVec 3) (d a : BitVec 5) (imm : BitVec 13) (s : State) : Host.Outcome State Fault Refusal :=
  onMain s fun s => s.instr c .A .scalar 1 p (true)
    (Effect.s c d fun l => ⟨l.getS a + immS imm, 0⟩)
/-- ANDI (R82). -/
def execAndi (c : Proc) (p : BitVec 3) (d a : BitVec 5) (imm : BitVec 13) (s : State) : Host.Outcome State Fault Refusal :=
  onMain s fun s => s.instr c .A .scalar 1 p (true)
    (Effect.s c d fun l => ⟨l.getS a &&& immU imm, 0⟩)
/-- ORI (R82). -/
def execOri (c : Proc) (p : BitVec 3) (d a : BitVec 5) (imm : BitVec 13) (s : State) : Host.Outcome State Fault Refusal :=
  onMain s fun s => s.instr c .A .scalar 1 p (true)
    (Effect.s c d fun l => ⟨l.getS a ||| immU imm, 0⟩)
/-- XORI (R82). -/
def execXori (c : Proc) (p : BitVec 3) (d a : BitVec 5) (imm : BitVec 13) (s : State) : Host.Outcome State Fault Refusal :=
  onMain s fun s => s.instr c .A .scalar 1 p (true)
    (Effect.s c d fun l => ⟨l.getS a ^^^ immU imm, 0⟩)
/-- SHLI (R82). -/
def execShli (c : Proc) (p : BitVec 3) (d a : BitVec 5) (amt : BitVec 5) (s : State) : Host.Outcome State Fault Refusal :=
  onMain s fun s => s.instr c .A .scalar 1 p (true)
    (Effect.s c d fun l => ⟨l.getS a <<< amt.toNat, 0⟩)
/-- SHRI (R82). -/
def execShri (c : Proc) (p : BitVec 3) (d a : BitVec 5) (amt : BitVec 5) (s : State) : Host.Outcome State Fault Refusal :=
  onMain s fun s => s.instr c .A .scalar 1 p (true)
    (Effect.s c d fun l => ⟨l.getS a >>> amt.toNat, 0⟩)
/-- SARI (R82). -/
def execSari (c : Proc) (p : BitVec 3) (d a : BitVec 5) (amt : BitVec 5) (s : State) : Host.Outcome State Fault Refusal :=
  onMain s fun s => s.instr c .A .scalar 1 p (true)
    (Effect.s c d fun l => ⟨(l.getS a).sshiftRight amt.toNat, 0⟩)
/-- LUI (R82). -/
def execLui (c : Proc) (p : BitVec 3) (d : BitVec 5) (imm : BitVec 18) (s : State) : Host.Outcome State Fault Refusal :=
  onMain s fun s => s.instr c .A .scalar 1 p (true)
    (Effect.s c d fun _ => ⟨(imm.setWidth 32) <<< 14, 0⟩)
/-- LLI (R82). -/
def execLli (c : Proc) (p : BitVec 3) (d : BitVec 5) (imm : BitVec 14) (s : State) : Host.Outcome State Fault Refusal :=
  onMain s fun s => s.instr c .A .scalar 1 p (true)
    (Effect.s c d fun l => ⟨l.getS d ||| imm.setWidth 32, 0⟩)
/-- CMP_EQ (R82). -/
def execCmpEq (c : Proc) (p : BitVec 3) (d a b : BitVec 5) (s : State) : Host.Outcome State Fault Refusal :=
  onMain s fun s => s.instr c .A .scalar 1 p (okP d)
    (Effect.p c d fun l => truth (l.getS a == l.getS b))
/-- CMP_NE (R82). -/
def execCmpNe (c : Proc) (p : BitVec 3) (d a b : BitVec 5) (s : State) : Host.Outcome State Fault Refusal :=
  onMain s fun s => s.instr c .A .scalar 1 p (okP d)
    (Effect.p c d fun l => truth (l.getS a != l.getS b))
/-- CMP_LT (R82). -/
def execCmpLt (c : Proc) (p : BitVec 3) (d a b : BitVec 5) (s : State) : Host.Outcome State Fault Refusal :=
  onMain s fun s => s.instr c .A .scalar 1 p (okP d)
    (Effect.p c d fun l => truth ((l.getS a).slt (l.getS b)))
/-- CMP_GE (R82). -/
def execCmpGe (c : Proc) (p : BitVec 3) (d a b : BitVec 5) (s : State) : Host.Outcome State Fault Refusal :=
  onMain s fun s => s.instr c .A .scalar 1 p (okP d)
    (Effect.p c d fun l => truth (!(l.getS a).slt (l.getS b)))
/-- CMP_LTU (R82). -/
def execCmpLtu (c : Proc) (p : BitVec 3) (d a b : BitVec 5) (s : State) : Host.Outcome State Fault Refusal :=
  onMain s fun s => s.instr c .A .scalar 1 p (okP d)
    (Effect.p c d fun l => truth ((l.getS a).ult (l.getS b)))
/-- CMP_GEU (R82). -/
def execCmpGeu (c : Proc) (p : BitVec 3) (d a b : BitVec 5) (s : State) : Host.Outcome State Fault Refusal :=
  onMain s fun s => s.instr c .A .scalar 1 p (okP d)
    (Effect.p c d fun l => truth (!(l.getS a).ult (l.getS b)))
/-- PAND (R82). -/
def execPand (c : Proc) (p : BitVec 3) (d a b : BitVec 5) (s : State) : Host.Outcome State Fault Refusal :=
  onMain s fun s => s.instr c .A .scalar 1 p (okP d && okP a && okP b)
    (Effect.p c d fun l => l.getP a &&& l.getP b)
/-- POR (R82). -/
def execPor (c : Proc) (p : BitVec 3) (d a b : BitVec 5) (s : State) : Host.Outcome State Fault Refusal :=
  onMain s fun s => s.instr c .A .scalar 1 p (okP d && okP a && okP b)
    (Effect.p c d fun l => l.getP a ||| l.getP b)
/-- PXOR (R82). -/
def execPxor (c : Proc) (p : BitVec 3) (d a b : BitVec 5) (s : State) : Host.Outcome State Fault Refusal :=
  onMain s fun s => s.instr c .A .scalar 1 p (okP d && okP a && okP b)
    (Effect.p c d fun l => l.getP a ^^^ l.getP b)
/-- PNOT (R82). -/
def execPnot (c : Proc) (p : BitVec 3) (d a : BitVec 5) (s : State) : Host.Outcome State Fault Refusal :=
  onMain s fun s => s.instr c .A .scalar 1 p (okP d && okP a)
    (Effect.p c d fun l => ~~~(l.getP a))
/-- PSET (R82). -/
def execPset (c : Proc) (p : BitVec 3) (d a : BitVec 5) (s : State) : Host.Outcome State Fault Refusal :=
  onMain s fun s => s.instr c .A .scalar 1 p (okP d)
    (Effect.p c d fun l => truth (l.getS a != 0))

end Sys2Proof.Machine
end

