-- ==== Sys2Proof/Machine/NimMem.lean ====
section
/-! DEFINITION. Loads and stores of the Nimson instructions (R48, R76, R83, R84). -/

namespace Sys2Proof.Machine

/-- The `n` words at address `a` of a space of `size` bytes: aligned to 4n bytes and inside it (R83). -/
def inSpace (size n a : Nat) : Bool := a % (4 * n) == 0 && a + 4 * n ≤ size

/-- Bytes of local data, data memory and the headbox (R83). -/
def localSize : Nat := 0x4000
/-- Data memory. -/
def dataSize : Nat := 0x200000
/-- The headbox. -/
def hbSize : Nat := 0x4000

/-- A word load from `base`: ADDRESS before DATA_UE (R76). -/
def loadWord (c : Proc) (base size : Nat) (d a : BitVec 5) (imm : BitVec 13) : Effect := fun s l =>
  let x := l.ea a imm
  if !inSpace size 1 x then (s, 5)
  else match s.eccAccess (procIdx c) (base + x) 1 with
    | none => (s, 6)
    | some s => (s.onCore (procIdx c) fun k => k.setS d (s.word (base + x)), 0)

/-- A word store to `base`. -/
def storeWord (c : Proc) (base size : Nat) (d a : BitVec 5) (imm : BitVec 13) : Effect := fun s l =>
  let x := l.ea a imm
  if !inSpace size 1 x then (s, 5)
  else match s.eccAccess (procIdx c) (base + x) 1 with
    | none => (s, 6)
    | some s => (s.putWord (base + x) (l.getS d), 0)

/-- The four words at `x` as a V word. -/
def State.quad (s : State) (x : Nat) : VWord := vecOfF fun i => s.word (x + 4 * i)

/-- A V register takes the permitted fp32 elements of `v`. -/
def loadV (c : Proc) (p : BitVec 3) (d : BitVec 5) (v : VWord) : Effect :=
  Effect.v c p d (fun _ => v) (fun _ _ => 0)

/-- A vector load from `base`. -/
def loadQuad (c : Proc) (p : BitVec 3) (base size : Nat) (d a : BitVec 5) (imm : BitVec 13) : Effect := fun s l =>
  let x := l.ea a imm
  if !inSpace size 4 x then (s, 5)
  else match s.eccAccess (procIdx c) (base + x) 4 with
    | none => (s, 6)
    | some s => loadV c p d (s.quad (base + x)) s l

/-- A vector store to `base`: the permitted fp32 elements (R74). -/
def storeQuad (c : Proc) (p : BitVec 3) (base size : Nat) (d a : BitVec 5) (imm : BitVec 13) : Effect := fun s l =>
  let x := l.ea a imm
  let pb := l.getP (p.setWidth 5)
  if !inSpace size 4 x then (s, 5)
  else match s.eccAccess (procIdx c) (base + x) 4 with
    | none => (s, 6)
    | some s => ((List.range 4).foldl (fun s i =>
        if permF pb i then s.putWord (base + x + 4 * i) (elemF (l.getV d) i) else s) s, 0)

/-- LWL (R83). -/
def execLwl (c : Proc) (p : BitVec 3) (d a : BitVec 5) (imm : BitVec 13) (s : State) : Host.Outcome State Fault Refusal :=
  onMain s fun s => s.instr c .A .scalar 2 p (true)
    (loadWord c (localBase (procIdx c)) localSize d a imm)
/-- SWL (R83). -/
def execSwl (c : Proc) (p : BitVec 3) (d a : BitVec 5) (imm : BitVec 13) (s : State) : Host.Outcome State Fault Refusal :=
  onMain s fun s => s.instr c .A .scalar 1 p (true)
    (storeWord c (localBase (procIdx c)) localSize d a imm)
/-- LWD (R84). -/
def execLwd (c : Proc) (p : BitVec 3) (d a : BitVec 5) (imm : BitVec 13) (s : State) : Host.Outcome State Fault Refusal :=
  onMain s fun s => s.instr c .K .scalar 6 p (true)
    (loadWord c dataBase dataSize d a imm)
/-- SWD (R84). -/
def execSwd (c : Proc) (p : BitVec 3) (d a : BitVec 5) (imm : BitVec 13) (s : State) : Host.Outcome State Fault Refusal :=
  onMain s fun s => s.instr c .K .scalar 4 p (true)
    (storeWord c dataBase dataSize d a imm)
/-- LWH (R83). -/
def execLwh (c : Proc) (p : BitVec 3) (d a : BitVec 5) (imm : BitVec 13) (s : State) : Host.Outcome State Fault Refusal :=
  onMain s fun s => s.instr c .L .scalar 4 p (true)
    (fun s l =>
      if !inSpace hbSize 1 (l.ea a imm) then (s, 5)
      else (s.onCore (procIdx c) fun k => k.setS d (s.hbWord (l.ea a imm)), 0))
/-- LWT (R82). -/
def execLwt (c : Proc) (p : BitVec 3) (d a : BitVec 5) (w : BitVec 8) (s : State) : Host.Outcome State Fault Refusal :=
  onMain s fun s => s.instr c .L .scalar 2 p (okP a)
    (fun s l => match l.getA a with
      | none => (s, 7)
      | some _ => (s.onCore (procIdx c) fun k => k.setS d (s.word (tileBuf (procIdx c) a.toNat + 4 * w.toNat)), 0))
/-- VLL (R83). -/
def execVll (c : Proc) (p : BitVec 3) (d a : BitVec 5) (imm : BitVec 13) (s : State) : Host.Outcome State Fault Refusal :=
  onMain s fun s => s.instr c .L .f32 2 p (okV d)
    (loadQuad c p (localBase (procIdx c)) localSize d a imm)
/-- VSL (R83). -/
def execVsl (c : Proc) (p : BitVec 3) (d a : BitVec 5) (imm : BitVec 13) (s : State) : Host.Outcome State Fault Refusal :=
  onMain s fun s => s.instr c .L .f32 1 p (okV d)
    (storeQuad c p (localBase (procIdx c)) localSize d a imm)
/-- VLD (R84). -/
def execVld (c : Proc) (p : BitVec 3) (d a : BitVec 5) (imm : BitVec 13) (s : State) : Host.Outcome State Fault Refusal :=
  onMain s fun s => s.instr c .L .f32 8 p (okV d)
    (loadQuad c p dataBase dataSize d a imm)
/-- VSD (R84). -/
def execVsd (c : Proc) (p : BitVec 3) (d a : BitVec 5) (imm : BitVec 13) (s : State) : Host.Outcome State Fault Refusal :=
  onMain s fun s => s.instr c .L .f32 6 p (okV d)
    (storeQuad c p dataBase dataSize d a imm)
/-- VLH (R83). -/
def execVlh (c : Proc) (p : BitVec 3) (d a : BitVec 5) (imm : BitVec 13) (s : State) : Host.Outcome State Fault Refusal :=
  onMain s fun s => s.instr c .L .f32 4 p (okV d)
    (fun s l =>
      if !inSpace hbSize 4 (l.ea a imm) then (s, 5)
      else loadV c p d (vecOfF fun i => s.hbWord (l.ea a imm + 4 * i)) s l)
/-- VLT (R82). -/
def execVlt (c : Proc) (p : BitVec 3) (d a : BitVec 5) (w : BitVec 8) (s : State) : Host.Outcome State Fault Refusal :=
  onMain s fun s => s.instr c .L .f32 2 p (okV d && okP a)
    (fun s l =>
      if 252 < w.toNat then (s, 5)
      else match l.getA a with
        | none => (s, 7)
        | some _ => loadV c p d (s.quad (tileBuf (procIdx c) a.toNat + 4 * w.toNat)) s l)

end Sys2Proof.Machine
end

