-- ==== Sys2Proof/Machine/NimVec.lean ====
section
/-! DEFINITION. Element-wise vector instructions (R74, R78, R80–R82). -/

namespace Sys2Proof.Machine

/-- VCMP: bits 2i and 2i+1 of Pd from element i, where the predicate permits element i. -/
def vecCompare (c : Proc) (p : BitVec 3) (d : BitVec 5) (f : LaneSt → Nat → Bool) : Effect := fun s l =>
  let pb := l.getP (p.setWidth 5)
  let old := l.getP d
  let bits : Nat := (List.range 4).foldl (fun a i =>
    a + (if permF pb i then (if f l i then 3 else 0) else old.toNat / 4 ^ i % 4) * 4 ^ i) 0
  (s.onCore (procIdx c) fun k => k.setP d (BitVec.ofNat 8 bits), 0)

/-- One fp32 element as Q1.15 (R8), with SAT where it saturates. -/
def toHalf (w : F32) : BitVec 16 × BitVec 3 :=
  let r := fToQ 16 15 w
  (BitVec.ofNat 16 r.1, if r.2 then flSat else 0)

/-- VADD_F (R82). -/
def execVaddF (c : Proc) (p : BitVec 3) (d a b : BitVec 5) (s : State) : Host.Outcome State Fault Refusal :=
  onMain s fun s => s.instr c .L .f32 2 p (okV d && okV a && okV b)
    (Effect.v c p d (fun l => vecOfF fun i => (fAdd (elemF (l.getV a) i) (elemF (l.getV b) i)).v) (fun l i => (fAdd (elemF (l.getV a) i) (elemF (l.getV b) i)).fl))
/-- VSUB_F (R82). -/
def execVsubF (c : Proc) (p : BitVec 3) (d a b : BitVec 5) (s : State) : Host.Outcome State Fault Refusal :=
  onMain s fun s => s.instr c .L .f32 2 p (okV d && okV a && okV b)
    (Effect.v c p d (fun l => vecOfF fun i => (fSub (elemF (l.getV a) i) (elemF (l.getV b) i)).v) (fun l i => (fSub (elemF (l.getV a) i) (elemF (l.getV b) i)).fl))
/-- VMUL_F (R82). -/
def execVmulF (c : Proc) (p : BitVec 3) (d a b : BitVec 5) (s : State) : Host.Outcome State Fault Refusal :=
  onMain s fun s => s.instr c .L .f32 2 p (okV d && okV a && okV b)
    (Effect.v c p d (fun l => vecOfF fun i => (fMul (elemF (l.getV a) i) (elemF (l.getV b) i)).v) (fun l i => (fMul (elemF (l.getV a) i) (elemF (l.getV b) i)).fl))
/-- VFMA_F (R78). -/
def execVfmaF (c : Proc) (p : BitVec 3) (d a b : BitVec 5) (s : State) : Host.Outcome State Fault Refusal :=
  onMain s fun s => s.instr c .L .f32 3 p (okV d && okV a && okV b)
    (Effect.v c p d (fun l => vecOfF fun i => (fFma (elemF (l.getV d) i) (elemF (l.getV a) i) (elemF (l.getV b) i)).v) (fun l i => (fFma (elemF (l.getV d) i) (elemF (l.getV a) i) (elemF (l.getV b) i)).fl))
/-- VMIN_F (R78). -/
def execVminF (c : Proc) (p : BitVec 3) (d a b : BitVec 5) (s : State) : Host.Outcome State Fault Refusal :=
  onMain s fun s => s.instr c .L .f32 2 p (okV d && okV a && okV b)
    (Effect.v c p d (fun l => vecOfF fun i => (fl (fMin (elemF (l.getV a) i) (elemF (l.getV b) i))).v) (fun l i => (fl (fMin (elemF (l.getV a) i) (elemF (l.getV b) i))).fl))
/-- VMAX_F (R78). -/
def execVmaxF (c : Proc) (p : BitVec 3) (d a b : BitVec 5) (s : State) : Host.Outcome State Fault Refusal :=
  onMain s fun s => s.instr c .L .f32 2 p (okV d && okV a && okV b)
    (Effect.v c p d (fun l => vecOfF fun i => (fl (fMax (elemF (l.getV a) i) (elemF (l.getV b) i))).v) (fun l i => (fl (fMax (elemF (l.getV a) i) (elemF (l.getV b) i))).fl))
/-- VDOT_F (R78). -/
def execVdotF (c : Proc) (p : BitVec 3) (d a b : BitVec 5) (s : State) : Host.Outcome State Fault Refusal :=
  onMain s fun s => s.instr c .L .scalar 4 p (okV a && okV b)
    (Effect.s c d fun l => dotF (l.getV a) (l.getV b))
/-- VCMPLT_F (R82). -/
def execVcmpltF (c : Proc) (p : BitVec 3) (d a b : BitVec 5) (s : State) : Host.Outcome State Fault Refusal :=
  onMain s fun s => s.instr c .L .f32 2 p (okP d && okV a && okV b)
    (vecCompare c p d fun l i => fLt (elemF (l.getV a) i) (elemF (l.getV b) i))
/-- VCMPEQ_F (R82). -/
def execVcmpeqF (c : Proc) (p : BitVec 3) (d a b : BitVec 5) (s : State) : Host.Outcome State Fault Refusal :=
  onMain s fun s => s.instr c .L .f32 2 p (okP d && okV a && okV b)
    (vecCompare c p d fun l i => fEq (elemF (l.getV a) i) (elemF (l.getV b) i))
/-- VADD_H (R81). -/
def execVaddH (c : Proc) (p : BitVec 3) (d a b : BitVec 5) (s : State) : Host.Outcome State Fault Refusal :=
  onMain s fun s => s.instr c .L .h16 1 p (okV d && okV a && okV b)
    (Effect.h c p d fun l j => satHalf ((elemH (l.getV a) j).toInt + (elemH (l.getV b) j).toInt))
/-- VSUB_H (R81). -/
def execVsubH (c : Proc) (p : BitVec 3) (d a b : BitVec 5) (s : State) : Host.Outcome State Fault Refusal :=
  onMain s fun s => s.instr c .L .h16 1 p (okV d && okV a && okV b)
    (Effect.h c p d fun l j => satHalf ((elemH (l.getV a) j).toInt - (elemH (l.getV b) j).toInt))
/-- VMULQ_H (R81). -/
def execVmulqH (c : Proc) (p : BitVec 3) (d a b : BitVec 5) (s : State) : Host.Outcome State Fault Refusal :=
  onMain s fun s => s.instr c .L .h16 2 p (okV d && okV a && okV b)
    (Effect.h c p d fun l j => mulqHalf (elemH (l.getV a) j) (elemH (l.getV b) j))
/-- VCVT_FH (R80). -/
def execVcvtFh (c : Proc) (p : BitVec 3) (d a : BitVec 5) (s : State) : Host.Outcome State Fault Refusal :=
  onMain s fun s => s.instr c .L .h16 2 p (okV d && okV a)
    (Effect.h c p d fun l j => if j < 4 then toHalf (elemF (l.getV a) j) else (0, 0))
/-- VCVT_HF (R80). -/
def execVcvtHf (c : Proc) (p : BitVec 3) (d a : BitVec 5) (s : State) : Host.Outcome State Fault Refusal :=
  onMain s fun s => s.instr c .L .f32 2 p (okV d && okV a)
    (Effect.v c p d (fun l => vecOfF fun i => fOfInt (elemH (l.getV a) i).toInt (-15)) (fun _ _ => 0))
/-- VSPLAT (R82). -/
def execVsplat (c : Proc) (p : BitVec 3) (d a : BitVec 5) (s : State) : Host.Outcome State Fault Refusal :=
  onMain s fun s => s.instr c .L .f32 1 p (okV d)
    (Effect.v c p d (fun l => vecOfF fun _ => l.getS a) (fun _ _ => 0))
/-- VINS (R82). -/
def execVins (c : Proc) (p : BitVec 3) (d a b : BitVec 5) (s : State) : Host.Outcome State Fault Refusal :=
  onMain s fun s => s.instr c .L .f32 1 p (okV d && b.toNat < 4)
    (Effect.v c p d (fun l => vecOfF fun i => if i = b.toNat then l.getS a else elemF (l.getV d) i) (fun _ _ => 0))
/-- VEXT (R82). -/
def execVext (c : Proc) (p : BitVec 3) (d a b : BitVec 5) (s : State) : Host.Outcome State Fault Refusal :=
  onMain s fun s => s.instr c .L .scalar 1 p (okV a && b.toNat < 4)
    (Effect.s c d fun l => ⟨elemF (l.getV a) b.toNat, 0⟩)
/-- VSHUF (R82). -/
def execVshuf (c : Proc) (p : BitVec 3) (d a : BitVec 5) (sel : BitVec 8) (s : State) : Host.Outcome State Fault Refusal :=
  onMain s fun s => s.instr c .L .f32 1 p (okV d && okV a)
    (Effect.v c p d (fun l => vecOfF fun i => elemF (l.getV a) (sel.extractLsb' (2 * i) 2).toNat) (fun _ _ => 0))

end Sys2Proof.Machine
end

