-- ==== Sys2Proof/Machine/NimStep.lean ====
section
/-! DEFINITION. The Nimson instruction at a core's position: the word of the slot, its decoding and its meaning, as a
single step of a halted lane executes it (R101). -/

namespace Sys2Proof.Machine

/-- The meaning of a Nimson instruction; every other command leaves the state as it is. -/
def runNimson (i : Instr) (s : State) : Host.Outcome State Fault Refusal :=
  match i with
  | .add c p d a b => execAdd c p d a b s
  | .sub c p d a b => execSub c p d a b s
  | .and c p d a b => execAnd c p d a b s
  | .or c p d a b => execOr c p d a b s
  | .xor c p d a b => execXor c p d a b s
  | .shl c p d a b => execShl c p d a b s
  | .shr c p d a b => execShr c p d a b s
  | .sar c p d a b => execSar c p d a b s
  | .slt c p d a b => execSlt c p d a b s
  | .sltu c p d a b => execSltu c p d a b s
  | .min c p d a b => execMin c p d a b s
  | .max c p d a b => execMax c p d a b s
  | .mul c p d a b => execMul c p d a b s
  | .mulh c p d a b => execMulh c p d a b s
  | .div c p d a b => execDiv c p d a b s
  | .rem c p d a b => execRem c p d a b s
  | .adds c p d a b => execAdds c p d a b s
  | .subs c p d a b => execSubs c p d a b s
  | .addi c p d a imm => execAddi c p d a imm s
  | .andi c p d a imm => execAndi c p d a imm s
  | .ori c p d a imm => execOri c p d a imm s
  | .xori c p d a imm => execXori c p d a imm s
  | .shli c p d a amt => execShli c p d a amt s
  | .shri c p d a amt => execShri c p d a amt s
  | .sari c p d a amt => execSari c p d a amt s
  | .lui c p d imm => execLui c p d imm s
  | .lli c p d imm => execLli c p d imm s
  | .cmpEq c p d a b => execCmpEq c p d a b s
  | .cmpNe c p d a b => execCmpNe c p d a b s
  | .cmpLt c p d a b => execCmpLt c p d a b s
  | .cmpGe c p d a b => execCmpGe c p d a b s
  | .cmpLtu c p d a b => execCmpLtu c p d a b s
  | .cmpGeu c p d a b => execCmpGeu c p d a b s
  | .fcmpEq c p d a b => execFcmpEq c p d a b s
  | .fcmpLt c p d a b => execFcmpLt c p d a b s
  | .fcmpLe c p d a b => execFcmpLe c p d a b s
  | .fcmpUn c p d a b => execFcmpUn c p d a b s
  | .pand c p d a b => execPand c p d a b s
  | .por c p d a b => execPor c p d a b s
  | .pxor c p d a b => execPxor c p d a b s
  | .pnot c p d a => execPnot c p d a s
  | .pset c p d a => execPset c p d a s
  | .fadd c p d a b => execFadd c p d a b s
  | .fsub c p d a b => execFsub c p d a b s
  | .fmul c p d a b => execFmul c p d a b s
  | .fma c p d a b => execFma c p d a b s
  | .fdiv c p d a b => execFdiv c p d a b s
  | .fsqrt c p d a => execFsqrt c p d a s
  | .fmin c p d a b => execFmin c p d a b s
  | .fmax c p d a b => execFmax c p d a b s
  | .fabs c p d a => execFabs c p d a s
  | .fneg c p d a => execFneg c p d a s
  | .fclamp c p d a b => execFclamp c p d a b s
  | .ftoi c p d a => execFtoi c p d a s
  | .itof c p d a => execItof c p d a s
  | .ftoq c p d a b => execFtoq c p d a b s
  | .qtof c p d a b => execQtof c p d a b s
  | .fclass c p d a => execFclass c p d a s
  | .lwl c p d a imm => execLwl c p d a imm s
  | .swl c p d a imm => execSwl c p d a imm s
  | .lwd c p d a imm => execLwd c p d a imm s
  | .swd c p d a imm => execSwd c p d a imm s
  | .lwh c p d a imm => execLwh c p d a imm s
  | .lwt c p d a w => execLwt c p d a w s
  | .vll c p d a imm => execVll c p d a imm s
  | .vsl c p d a imm => execVsl c p d a imm s
  | .vld c p d a imm => execVld c p d a imm s
  | .vsd c p d a imm => execVsd c p d a imm s
  | .vlh c p d a imm => execVlh c p d a imm s
  | .vlt c p d a w => execVlt c p d a w s
  | .vaddF c p d a b => execVaddF c p d a b s
  | .vsubF c p d a b => execVsubF c p d a b s
  | .vmulF c p d a b => execVmulF c p d a b s
  | .vfmaF c p d a b => execVfmaF c p d a b s
  | .vminF c p d a b => execVminF c p d a b s
  | .vmaxF c p d a b => execVmaxF c p d a b s
  | .vdotF c p d a b => execVdotF c p d a b s
  | .vcmpltF c p d a b => execVcmpltF c p d a b s
  | .vcmpeqF c p d a b => execVcmpeqF c p d a b s
  | .vaddH c p d a b => execVaddH c p d a b s
  | .vsubH c p d a b => execVsubH c p d a b s
  | .vmulqH c p d a b => execVmulqH c p d a b s
  | .vcvtFh c p d a => execVcvtFh c p d a s
  | .vcvtHf c p d a => execVcvtHf c p d a s
  | .vsplat c p d a => execVsplat c p d a s
  | .vins c p d a b => execVins c p d a b s
  | .vext c p d a b => execVext c p d a b s
  | .vshuf c p d a sel => execVshuf c p d a sel s
  | .vclarke c p d a => execVclarke c p d a s
  | .vpark c p d a b => execVpark c p d a b s
  | .vipark c p d a b => execVipark c p d a b s
  | .vsincos c p d a => execVsincos c p d a s
  | .vsvm c p d a b => execVsvm c p d a b s
  | .vpi c p d a b => execVpi c p d a b s
  | .vlim c p d a b => execVlim c p d a b s
  | .lut c p d a b => execLut c p d a b s
  | .br c p slot word => execBr c p slot word s
  | .loop c a max len => execLoop c a max len s
  | .stg c p cv a b => execStg c p cv a b s
  | .tcommit c p => execTcommit c p s
  | .tabort c p => execTabort c p s
  | .topen c p d a => execTopen c p d a s
  | .nop c p => execNop c p s
  | .yield c p => execYield c p s
  | .evt c p a src => execEvt c p a src s
  | .mfs c p d sel => execMfs c p d sel s
  | .mts c p a sel => execMts c p a sel s
  | .callk c p svc a b => execCallk c p svc a b s
  | _ => .next s

/-- The state an outcome leads to; the state before where it stops. -/
def nextOr (s : State) : Host.Outcome State Fault Refusal → State
  | .next t => t
  | _ => s

/-- Core `c` executes the instruction at its position: a word that spells none raises ILLEGAL (R58, R73, R85). -/
def State.execAt (s : State) (c : Proc) : State :=
  let l := s.core (procIdx c)
  let w := s.word (slotBase (procIdx c) l.slot + 4 * l.word)
  match Sys2Proof.decodeNimson c w with
  | some i => nextOr s (runNimson i s)
  | none => s.instr c .A .always 1 0 false fun s _ => (s, 0)

end Sys2Proof.Machine
end

