-- ==== Sys2Proof/Machine/Debug.lean ====
section
/-! DEFINITION. The debug view and the debug halt (R100, R101, R196, R460–R462). -/

namespace Sys2Proof.Machine

/-- A halt can take effect: lifecycle FIELD_OPEN, and the device on no line (R460). -/
def State.haltAllowed (s : State) : Bool := s.sec.lifecycle == 4 && !s.bit F.SHFT_CTL_en

/-- Every lane halts now; `why n` is the reason lane `n` shows and `reason` the one of EV58 (R101, R196, R460, R461). -/
def State.haltNow (s : State) (reason : Nat) (why : Nat → Nat) : State :=
  let s := (List.range 8).foldl (fun s n =>
    (s.setF (F.ENG_DBG_STS_halted n) 1).setF (F.ENG_DBG_STS_reason n) (why n)) s
  let s := { s.setF F.DBG_STS_halted 1 with eng := { s.eng with haltAt := some s.now, haltReason := reason } }
  let s := (List.range 8).foldl (fun s d =>
    if s.mdOn d then s.setMd d { s.md d with held := some ((s.now : Int) - (s.md d).zero) } else s) s
  s.raiseDev 58 (1 + 2 * reason)

/-- A halt is asked for: refused outside FIELD_OPEN or on a line (R460). -/
def State.haltAsk (s : State) (reason : Nat) (why : Nat → Nat) : State :=
  if s.halted then s
  else if !s.haltAllowed then s.setF F.DBG_STS_halt_refused 1
  else s.haltNow reason why

/-- A breakpoint of lane `n` names the instruction at its position, which it has not executed (R101). -/
def State.atBreakpoint (s : State) (n : Nat) : Bool :=
  let l := s.core n
  l.busy && l.slot < 32 && tblGet 0 l.slots l.slot != 0 && (List.range 4).any fun m =>
    (s.f (F.ENG_DBG_CTL_bp_en n)).testBit m && s.f (F.ENG_DBG_BP_addr n m) == l.pcAddr

/-- Lane `n` reaches a breakpoint: it halts every lane (R101, R460). -/
def State.breakpoint (s : State) (n : Nat) : State :=
  if s.atBreakpoint n then s.haltAsk 2 fun k => if k = n then 2 else 4 else s

/-- Lane `n` executes one instruction while halted (R101). -/
def State.debugStep (s : State) (n : Fin 8) : State :=
  if !s.halted || !(s.core n).busy then s
  else
    let s := s.onCore n fun l => { l with step := true }
    let s := s.execAt (.lane n)
    let s := s.onCore n fun l => { l with step := false }
    { s.setF (F.ENG_DBG_STS_reason n) 3 with eng := { s.eng with haltReason := 3 } }

/-- Kynor lane `n` after a halt of `d` ns: in RUN the sample points its frames name shift with the tick (R462); in READY the bases
that lay in the halt are no sample points (R461). -/
def State.laneResume (s : State) (n d : Nat) : State :=
  let x := s.lane n
  if x.run then s.setLane n { x with ahead := x.ahead.map fun e => (e.1 + d, e.2), due := x.due.map fun e => (e.1 + d, e.2) }
  else if x.ahead.isEmpty && x.due.isNone then s
  else s.setLane n { x with ahead := x.ahead.filter fun e => s.now < e.1, due := none, got := false, missed := 0 }

/-- Every lane resumes: the tick phase and the carriers go on from where they stopped, and the grid shifts by the duration
of the halt, a whole number of 4 ns counts (R196, R462). -/
def State.resume (s : State) : State :=
  match s.eng.haltAt with
  | none => s
  | some t0 =>
    let d := (s.now - t0) / 4 * 4
    let reason := s.eng.haltReason
    let s := (List.range 8).foldl (fun s n =>
      (s.setF (F.ENG_DBG_STS_halted n) 0).setF (F.ENG_DBG_STS_reason n) 0) s
    let ep := s.f F.TIME_TICK_EPOCH_LO_epoch_lo + 2 ^ 32 * s.f F.TIME_TICK_EPOCH_HI_epoch_hi + d
    let s := { s.setF F.DBG_STS_halted 0 with
      eng := { s.eng with haltAt := none, haltReason := 0 }
      tm := { s.tm with
        epoch := s.tm.epoch + d, start := s.tm.start + d
        pend := s.tm.pend.map fun (r : StartReq) => { r with first := r.first + d, epoch := r.epoch + d } } }
    let s := (s.setF F.TIME_TICK_EPOCH_LO_epoch_lo (ep % 2 ^ 32)).setF F.TIME_TICK_EPOCH_HI_epoch_hi (ep / 2 ^ 32)
    let s := (List.range 16).foldl (fun s n => s.laneResume n d) s
    let s := (List.range 8).foldl (fun s d =>
      match (s.md d).held with
      | some x => s.setMd d { s.md d with zero := (s.now : Int) - x, held := none }
      | none => s) s
    s.allLegs.raiseDev 58 (2 * reason)

/-- Bits [32k+31:32k] of a V register replaced. -/
def vPut (v : VWord) (k : Nat) (w : Word) : VWord :=
  (v &&& ~~~((0xFFFFFFFF#128) <<< (32 * k))) ||| ((w.setWidth 128) <<< (32 * k))

/-- A write of `w` to ENG_DBG_DATAk of lane `n` (R101): it acts only while halted. An A register written with open 0 keeps no
tile, and reads 0 (DESIGN CHOICE, log entry 127). -/
def State.debugData (s : State) (n k : Nat) (w : Word) : State :=
  if !s.halted then s
  else
    let i := s.f (F.ENG_DBG_SEL_index n)
    s.onCore n fun l =>
      match s.f (F.ENG_DBG_SEL_file n) with
      | 0 => if k = 0 then l.setS (BitVec.ofNat 5 i) w else l
      | 1 => l.setV (BitVec.ofNat 5 i) (vPut (l.getV (BitVec.ofNat 5 i)) k w)
      | 2 => if k = 0 && i < 8 then l.setP (BitVec.ofNat 5 i) (w.setWidth 8) else l
      | _ => if k = 0 && i < 8 then { l with a := tblSet l.a i (if w.getLsbD 31 then getBits w 0 10 + 1 else 0) } else l

/-! ## Meanings -/

/-- DEBUG_HALT (R460): from ENG_DBG_CTL.halt, or from JTAG. -/
def execDebugHalt (_jtag : Bool) (s : State) : Host.Outcome State Fault Refusal :=
  onMain s fun s => s.haltAsk 1 fun _ => 1
/-- BREAKPOINT_HIT (R101). -/
def execBreakpointHit (n : Fin 8) (s : State) : Host.Outcome State Fault Refusal := onMain s fun s => s.breakpoint n
/-- DEBUG_STEP (R101). -/
def execDebugStep (n : Fin 8) (s : State) : Host.Outcome State Fault Refusal := onMain s fun s => s.debugStep n
/-- DEBUG_RESUME (R462). -/
def execDebugResume (s : State) : Host.Outcome State Fault Refusal := onMain s State.resume
/-- DEBUG_DATA_WRITE (R101). -/
def execDebugDataWrite (n : Fin 8) (k : Fin 4) (val : Word) (s : State) : Host.Outcome State Fault Refusal :=
  onMain s fun s => s.debugData n k val

end Sys2Proof.Machine
end

