-- ==== Sys2Proof/Machine/Diag.lean ====
section
/-! DEFINITION. Pre-start diagnosis (R276–R279): DIAG of every cell for an MMC converter, the phase-bias test for a direct
bridge. -/

namespace Sys2Proof.Machine

/-- Cells of converter `k`: those mapped to an enabled arm of it. -/
def State.convCells (s : State) (k : Nat) : List Nat :=
  (List.range 384).filter fun c => match s.cellOwner c with | some a => a / 6 == k | none => false

/-- The positions that a cell diagnosis of converter `k` takes in: every one of every lane that carries a cell of it (R277). -/
def State.diagCells (s : State) (k : Nat) : List Nat :=
  (((s.convCells k).map (· / 24)).eraseDups).flatMap fun n => (List.range (s.chain n)).map fun p => 24 * n + p

/-- The drive of converter `k` in force. -/
def State.convDrive (s : State) (k : Nat) : Nat := s.fe (F.PROT_CV_DC_drive k)

/-- Last SAR conversion of a voltage of drive `u` by role (1 vdc, 2–4 va, vb, vc), as a value; NaN where no input has the
role or the result is invalid. -/
def State.lastVolt (s : State) (u role : Nat) : F32 :=
  match s.ainRole role u with
  | some i => if s.bit (F.SNS_AIN_RES_valid i) then s.ainScaled i (s.f (F.SNS_AIN_RES_code i)) else canonNan
  | none => canonNan

/-- The check of R276 that fails first, 0 for none. -/
def State.diagCheck (s : State) (k : Nat) : Nat :=
  let u := s.convDrive k
  let bridge := (List.range 4).any (fun r => fIsNan (s.lastVolt u (r + 1))) || fLt (s.lastVolt u 1) (s.level (F.PROT_CV_DC_uv k)) ||
    (s.convLegs k).isEmpty || (s.convLegs k).any fun n => !s.bit (F.GATE_STS_enabled n) || !(match s.legDomain n with | some d => s.mdOn d | none => false)
  let mmc := (s.convCells k).any fun c => !(s.laneState (c / 24) == 3 || s.laneState (c / 24) == 4)
  if !s.bit (F.PROT_CV_CTL_en k) || s.f (F.PROT_CV_STS_state k) != 1 || s.bit F.PROT_DIAG_STS_busy then 1
  else if (if k < 2 then mmc else bridge) then 2
  else if s.f F.PROT_DIAG_CFG_settle = 0 then 4
  else 0

/-- The diagnosis ends with `error`: done, EV60, and the network and the legs are released (R276). -/
def State.diagEnd (s : State) (error : Nat) : State :=
  let s := ((s.setF F.PROT_DIAG_STS_busy 0).setF F.PROT_DIAG_STS_error error).setF F.PROT_DIAG_STS_done 1
  (s.gpioSync.legsApply (s.convLegs s.prot.diag.conv)).raiseDev 60 0

/-- A write of 1 to PROT_DIAG_CTL.start for converter `k` (R276–R278). -/
def State.diagStart (s : State) (k : Nat) : State :=
  let e := s.diagCheck k
  if e != 0 then s.setF F.PROT_DIAG_STS_error e
  else
    let s := ((s.setF F.PROT_DIAG_STS_error 0).setF F.PROT_DIAG_STS_busy 1).setF F.PROT_DIAG_STS_step 0
    let s := (s.setF F.PROT_DIAG_STS_failed 0).setReg R.PROT_DIAG_RES 0
    let s := { s with prot := { s.prot with diag := { conv := k, startAt := s.now } } }
    if k < 2 then
      (s.diagCells k).foldl State.diagRequest s
    else s.gpioSync.legsApply (s.convLegs k)

/-- A write of 1 to PROT_DIAG_CTL.abort. -/
def State.diagAbort (s : State) : State := if s.bit F.PROT_DIAG_STS_busy then s.diagEnd 3 else s

/-- Reading of phase `p` (0–2), or vdc (3), in step `k`. -/
def State.diagRead (s : State) (k p : Nat) : F32 := tblGet canonNan s.prot.diag.reads (4 * k + p)

/-- Class that step 0 gives phase `p`, 0 for none (R279 rows 1 and 2). -/
def State.diagShort (s : State) (p : Nat) : Nat :=
  let x := s.diagRead 0 p
  if fLe (fsub (s.diagRead 0 3) (s.level F.PROT_DIAG_LVL_dcp_margin)) x then 3
  else if fLe x (s.level F.PROT_DIAG_LVL_lo_lvl) then 4 else 0

/-- M[p][q] of R279. -/
def State.diagM (s : State) (p q : Nat) : Bool := fLe (s.diagRead (p + 1) q) (s.level F.PROT_DIAG_LVL_lo_lvl)

/-- Class of phase `x` after the four steps (R279). -/
def State.diagClass (s : State) (x : Nat) : Nat :=
  let others := (List.range 3).filter (· != x)
  if s.diagShort x != 0 then s.diagShort x
  else if s.f F.PROT_DIAG_CFG_mode = 0 then
    (if others.all fun q => !s.diagM x q && !s.diagM q x then 2 else 1)
  else if others.any fun q => s.diagM x q || s.diagM q x then 5 else 1

/-- The end of a step of the phase-bias test (R278, R279). -/
def State.diagStepEnd (s : State) : State :=
  let d := s.prot.diag
  if !s.bit F.PROT_DIAG_STS_busy || d.conv < 2 then s
  else
    let s := s.at (d.startAt + (d.step + 1) * s.f F.PROT_DIAG_CFG_settle * 1000000)
    let u := s.convDrive d.conv
    let rd := ([2, 3, 4, 1].map (s.lastVolt u)).zipIdx.foldl (fun t (v, j) => tblSet t (4 * d.step + j) v) d.reads
    let s := { s with prot := { s.prot with diag := { d with reads := rd } } }
    let codes := fun (f : Nat → Nat) => f 0 + 16 * f 1 + 256 * f 2
    if d.step = 0 && (List.range 3).any (fun p => s.diagShort p != 0) then
      (s.setF F.PROT_DIAG_RES_phase (codes s.diagShort)).diagEnd 0
    else if d.step = 3 then (s.setF F.PROT_DIAG_RES_phase (codes s.diagClass)).diagEnd 0
    else
      let s := { s with prot := { s.prot with diag := { s.prot.diag with step := d.step + 1 } } }
      (s.setF F.PROT_DIAG_STS_step (d.step + 1)).legsApply (s.convLegs d.conv)

/-- The cell diagnosis ends when every cell has reported, or 2 ms after its start (R277). -/
def State.mmcDiagEnd (s : State) : State :=
  let d := s.prot.diag
  if !s.bit F.PROT_DIAG_STS_busy || 2 ≤ d.conv then s
  else
    let cs := s.diagCells d.conv
    let count := fun (f : Nat → Bool) => (cs.filter fun c => f (s.cell c).diagRes).length
    let s := if cs.any fun c => (s.cell c).diagRes = 0 then s.at (d.startAt + 2000000) else s
    let s := (s.setF F.PROT_DIAG_RES_passed (count (· == 1))).setF F.PROT_DIAG_RES_silent (count (· == 0))
    let s := s.setF F.PROT_DIAG_STS_failed (count fun r => 2 ≤ r && r ≤ 5)
    (cs.foldl (fun s c => s.setCell c { s.cell c with diagReq := false }) s).diagEnd 0

/-! ## Meanings -/

/-- DIAG_START (R276). -/
def execDiagStart (k : Fin 8) (s : State) : Host.Outcome State Fault Refusal := onMain s fun s => s.diagStart k
/-- DIAG_ABORT (R276). -/
def execDiagAbort (s : State) : Host.Outcome State Fault Refusal := onMain s State.diagAbort
/-- DIAG_STEP_END (R278). -/
def execDiagStepEnd (s : State) : Host.Outcome State Fault Refusal := onMain s State.diagStepEnd
/-- MMC_DIAG_END (R277). -/
def execMmcDiagEnd (s : State) : Host.Outcome State Fault Refusal := onMain s State.mmcDiagEnd

end Sys2Proof.Machine
end

