-- ==== Sys2Proof/Machine/Boot.lean ====
section
/-! DEFINITION. The boot image: its manifest, its records and the image that a host has written (R450, R452). -/

namespace Sys2Proof.Machine

/-- A number read from bytes, least significant first. -/
def leNat (bs : List Byte) : Nat := bs.foldr (fun b a => b.toNat + 256 * a) 0
/-- A number read from bytes, most significant first. -/
def beNat (bs : List Byte) : Nat := bs.foldl (fun a b => a * 256 + b.toNat) 0
/-- The `n` bytes from byte `o`. -/
def sliceOf (bs : List Byte) (o n : Nat) : List Byte := (bs.drop o).take n

/-! ## The manifest (R450) -/

def Image.magic (i : Image) : Word := BitVec.ofNat 32 (leNat (sliceOf i.man 0 4))
def Image.length (i : Image) : Nat := leNat (sliceOf i.man 4 4)
def Image.svn (i : Image) : Nat := leNat (sliceOf i.man 8 4)
def Image.provision (i : Image) : Bool := (leNat (sliceOf i.man 12 4)).testBit 0
def Image.keeperHash (i : Image) : BitVec 384 := BitVec.ofNat 384 (beNat (sliceOf i.man 16 48))
def Image.appHash (i : Image) : BitVec 384 := BitVec.ofNat 384 (beNat (sliceOf i.man 64 48))
def Image.customerKey (i : Image) : BitVec 768 := BitVec.ofNat 768 (beNat (sliceOf i.man 112 96))
def Image.vendorSig (i : Image) : BitVec 768 := BitVec.ofNat 768 (beNat (sliceOf i.man 208 96))
def Image.customerSig (i : Image) : BitVec 768 := BitVec.ofNat 768 (beNat (sliceOf i.man 304 96))
/-- Bytes 0–303 of the manifest, which the customer signature covers; the vendor signature covers the first 64. -/
def Image.manifest (i : Image) : List Byte := i.man.take 304
/-- The image is one of the vendor's test images (R448). -/
def Image.vendorTest (i : Image) : Bool := Config.vendorTest i.man

/-! ## The records of the application section (R450) -/

/-- The records that the bytes spell, as kind and content; `n` bounds their number. A header or a content cut short counts as a
record of kind 0, which no image has (log entry 134). -/
def records : Nat → List Byte → List (Nat × List Byte)
  | 0, _ => []
  | n + 1, bs =>
    if bs.isEmpty then []
    else
      let size := leNat (sliceOf bs 1 3)
      let rest := bs.drop 4
      if bs.length < 4 || rest.length < size then [(0, bs)]
      else (leNat (bs.take 1), rest.take size) :: records n (rest.drop size)

def Image.records (i : Image) : List (Nat × List Byte) := Machine.records i.app.length i.app

/-- Four bytes a word, least significant first. -/
def leWords : Nat → List Byte → List Word
  | 0, _ => []
  | n + 1, bs => BitVec.ofNat 32 (leNat (bs.take 4)) :: leWords n (bs.drop 4)

/-- The tile record that a content spells. -/
def tileOf (r : Nat × List Byte) : TileRec :=
  { kind := r.1, tile := leNat (r.2.take 2), encrypted := (leNat (sliceOf r.2 2 1)).testBit 0
    tag := BitVec.ofNat 128 (beNat (sliceOf r.2 4 16)), words := leWords 256 (r.2.drop 20) }

/-- The length that R450 gives the content of a record of this kind; `none` for the schedule table, whose length varies. -/
def recordLen (kind : Nat) : Option Nat :=
  match kind with
  | 1 | 2 => some 1044
  | 4 => some 4
  | 5 => some 44
  | _ => none

/-- The record is one of the five kinds and as long as its kind says. -/
def recordGood (r : Nat × List Byte) : Bool :=
  r.1 == 3 || (recordLen r.1).any fun n => r.2.length == n

/-- The contents of the records of kind `k`. -/
def Image.ofKind (i : Image) (k : Nat) : List (List Byte) :=
  (i.records.filter fun r => r.1 == k && recordGood r).map (·.2)

def Image.tiles (i : Image) : List TileRec :=
  (i.records.filter fun r => (r.1 == 1 || r.1 == 2) && recordGood r).map tileOf
def Image.scheds (i : Image) : List SchedRec := (i.ofKind 3).map Config.schedRecord
def Image.safetyCrc (i : Image) : List Word := (i.ofKind 4).map fun b => BitVec.ofNat 32 (leNat b)
/-- Kind-5 records: the format byte and the wrapped key. -/
def Image.imageKey (i : Image) : List (Byte × BitVec 320) :=
  (i.ofKind 5).map fun b => (b.headD 0, BitVec.ofNat 320 (beNat (b.drop 4)))
/-- Number of records of a kind other than 1–5, with those whose length is not that of their kind (log entry 134). -/
def Image.otherKinds (i : Image) : Nat := (i.records.filter fun r => !recordGood r).length

/-! ## The image that a host has written (R452) -/

/-- The application section with the contents of its tile records read from the windows that the host wrote them into. -/
def fillTiles (mem : List Host.Cell) : Nat → List Byte → List Byte
  | 0, bs => bs
  | n + 1, bs =>
    let kind := leNat (bs.take 1)
    let size := leNat (sliceOf bs 1 3)
    let body := sliceOf bs 4 size
    if bs.length < 4 then bs
    else if (kind == 1 || kind == 2) && body.length == 1044 then
      let a := (if kind = 1 then progBase else tableBase) + 0x400 * leNat (body.take 2)
      let there := leNat (body.take 2) < if kind = 1 then 2048 else 1024
      bs.take 24 ++ (if there then memBytes mem a 1024 else body.drop 20) ++ fillTiles mem n (bs.drop 1048)
    else bs.take (4 + size) ++ fillTiles mem n (bs.drop (4 + size))

/-- The image that a host has written: the manifest at DEV_BOOT_MAN, the tiles from the program and table windows, everything
else from data memory (R452). -/
def State.hostImage (s : State) : Image :=
  let a := dataBase + s.f F.DEV_BOOT_MAN_addr
  let x := Config.hostSections (s.mem.filter fun c => dataBase ≤ c.1) (s.f F.DEV_BOOT_MAN_addr)
  { man := memBytes s.mem a 512, keeper := x.1, app := fillTiles s.mem x.2.length x.2 }

end Sys2Proof.Machine
end

