-- ==== Sys2Proof/Machine/SafeSet.lean ====
section
/-! DEFINITION. The safety parameter set (R409–R412): where it is held, its records, and the checks of a load. -/

namespace Sys2Proof.Machine

/-- The set the channels hold; all zero while they hold none. -/
def setHeld : Nat := 0x600000000
/-- The set that is being checked. -/
def setNew : Nat := 0x600001000
/-- The safety store of the boot flash (R412). -/
def setStore : Nat := 0x600002000
/-- Length of a set in bytes (R409). -/
def setLen : Nat := 1024

/-- Byte `o` of the set at `b`. -/
def State.setByte (s : State) (b o : Nat) : Nat := (memGet s.mem (b + o)).toNat
/-- The two-byte field at `o`, least significant byte first. -/
def State.setHalf (s : State) (b o : Nat) : Nat := s.setByte b o + 0x100 * s.setByte b (o + 1)
/-- The four-byte field at `o`. -/
def State.setWord (s : State) (b o : Nat) : Nat := s.setHalf b o + 0x10000 * s.setHalf b (o + 2)

/-! ## Records of the set in force -/

/-- Byte `i` of the pair record of SPn. -/
def State.pairByte (s : State) (n i : Nat) : Nat := s.setByte setHeld (16 + 16 * n + i)
/-- Function of pair `n` (R395): 0 unused, 1 ESTOP, 2 GUARD, 3 GUARD_LOCK, 4 TWO_HAND, 5 OSSD. -/
def State.pairFunc (s : State) (n : Nat) : Nat := s.pairByte n 0
/-- The pair that carries the mask, category and restart of pair `n`'s function (R395). -/
def State.pairLead (s : State) (n : Nat) : Nat := if s.pairFunc n = 3 || s.pairFunc n = 4 then n - n % 2 else n
/-- Pair `n` carries its function. -/
def State.pairCarries (s : State) (n : Nat) : Bool := s.pairFunc n != 0 && s.pairLead n == n
/-- restart AUTO. -/
def State.pairAuto (s : State) (n : Nat) : Bool := s.pairFunc n != 4 && (s.pairByte (s.pairLead n) 1).testBit 1
/-- Category 1. -/
def State.pairCat1 (s : State) (n : Nat) : Bool := (s.pairByte n 1).testBit 2
/-- Filter of an input in samples; an input of no used pair has a filter of one sample. -/
def State.inFilt (s : State) (i : Nat) : Nat := max 1 (s.pairByte (i / 2) 2)
/-- Test-pulse source of input `i`: 0 none, m + 1 for TPOm. -/
def State.inSrc (s : State) (i : Nat) : Nat := s.pairByte (i / 2) 3 / (if i % 2 = 1 then 16 else 1) % 16
/-- Level of input `i` in its run state (R391): channel A high, channel B low with antivalence; a light curtain runs high. -/
def State.inRunLevel (s : State) (i : Nat) : Bool :=
  !(i % 2 == 1 && (s.pairByte (i / 2) 1).testBit 0 && s.pairFunc (i / 2) != 5)
/-- Discrepancy time in ticks (R394). -/
def State.pairDisc (s : State) (n : Nat) : Nat := s.setHalf setHeld (16 + 16 * n + 4)
/-- Output mask. -/
def State.pairMask (s : State) (n : Nat) : Nat := s.pairByte n 6
/-- Lock output: 0 none, 1 SBC0, 2 SBC1. -/
def State.pairLock (s : State) (n : Nat) : Nat := s.pairByte n 7 % 4
/-- lock_t in ms. -/
def State.pairLockT (s : State) (n : Nat) : Nat := s.setHalf setHeld (16 + 16 * n + 8)

/-- STO output `n` is used. -/
def State.stoUsed (s : State) (n : Nat) : Bool := (s.setByte setHeld (208 + 8 * n)).testBit 0
/-- gen of STO output `n` (R401). -/
def State.stoGen (s : State) (n : Nat) : Bool := (s.setByte setHeld (208 + 8 * n)).testBit 1
/-- Converters of STO output `n`. -/
def State.stoConvs (s : State) (n : Nat) : List Nat := bitsOf 8 (s.setByte setHeld (208 + 8 * n + 1))
/-- ss1_t in 10 ms. -/
def State.stoSs1 (s : State) (n : Nat) : Nat := s.setHalf setHeld (208 + 8 * n + 2)
/-- out_tp of ball `b` (0–7 STOA, 8–15 STOB, 16–17 SBCA, 18–19 SBCB), in 100 µs (R405). -/
def State.ballTp (s : State) (b : Nat) : Nat :=
  if b < 16 then s.setByte setHeld (208 + 8 * (b % 8) + 4) else s.setByte setHeld (272 + 8 * (b % 2) + 4)

/-- Role of SBC pair `m`: 0 unused, 1 BRAKE, 2 LOCK. -/
def State.sbcRole (s : State) (m : Nat) : Nat := s.setByte setHeld (272 + 8 * m)
/-- Linked STO output of a BRAKE. -/
def State.sbcLink (s : State) (m : Nat) : Nat := s.setByte setHeld (272 + 8 * m + 1)
/-- sbc_dly in ms. -/
def State.sbcDly (s : State) (m : Nat) : Nat := s.setHalf setHeld (272 + 8 * m + 2)

/-- TPOm is enabled. -/
def State.tpoEn (s : State) (m : Nat) : Bool := (s.setByte setHeld 288).testBit m
/-- Width of a test pulse in samples (tp_w is in 100 µs). -/
def State.tpoW (s : State) : Nat := 2 * s.setByte setHeld 289
/-- tp_rec in samples. -/
def State.tpoRec (s : State) : Nat := s.setByte setHeld 290
/-- tp_per in ms. -/
def State.tpoPer (s : State) : Nat := s.setHalf setHeld 292

/-- Byte `i` of connection record `c`. -/
def State.connByte (s : State) (c i : Nat) : Nat := s.setByte setHeld (304 + 32 * c + i)
/-- Role of connection `c`: 0 unused, 1 CONSUMER, 2 PRODUCER. -/
def State.connRole (s : State) (c : Nat) : Nat := s.connByte c 0 % 4
/-- Transport: ring (else CAN). -/
def State.connRing (s : State) (c : Nat) : Bool := (s.connByte c 0).testBit 2
/-- ev. -/
def State.connEv (s : State) (c : Nat) : Bool := (s.connByte c 0).testBit 3
/-- n, safe data bytes. -/
def State.connN (s : State) (c : Nat) : Nat := s.connByte c 1
/-- Identity. -/
def State.connId (s : State) (c : Nat) : Nat := s.setWord setHeld (304 + 32 * c + 8)
/-- wd in ms. -/
def State.connWd (s : State) (c : Nat) : Nat := s.setHalf setHeld (304 + 32 * c + 12)
/-- Producer period in ms. -/
def State.connPeriod (s : State) (c : Nat) : Nat := s.setHalf setHeld (304 + 32 * c + 14)

/-! ## The checks of a load (R410, R411) -/

/-- CRC of the set at `b` over bytes 0–1,019 (R411). -/
def State.setCrc (s : State) (b : Nat) : Word := crcReflected 0xEDB88320 (memBytes s.mem b 1020)

/-- The `n` bytes at `o` of the set at `b` are zero. -/
def State.setZero (s : State) (b o n : Nat) : Bool := (List.range n).all fun i => s.setByte b (o + i) == 0

/-- Bits of each byte of a record that the layout defines. -/
def pairBits : List Nat := [0xFF, 0x07, 0xFF, 0xFF, 0xFF, 0xFF, 0xFF, 0x03, 0xFF, 0xFF, 0, 0, 0, 0, 0, 0]
/-- The same for a STO record. -/
def stoBits : List Nat := [0x03, 0xFF, 0xFF, 0xFF, 0xFF, 0, 0, 0]
/-- The same for an SBC record. -/
def sbcBits : List Nat := [0xFF, 0xFF, 0xFF, 0xFF, 0xFF, 0, 0, 0]
/-- The same for the test-pulse record. -/
def tpBits : List Nat := [0xFF, 0xFF, 0xFF, 0, 0xFF, 0xFF, 0, 0, 0, 0, 0, 0, 0, 0, 0, 0]
/-- The same for a connection record. -/
def connBits : List Nat :=
  [0x0F, 0xFF, 0xFF, 0xFF, 0xFF, 0xFF, 0x01, 0, 0xFF, 0xFF, 0xFF, 0xFF, 0xFF, 0xFF, 0xFF, 0xFF,
   0, 0, 0, 0, 0, 0, 0, 0, 0, 0, 0, 0, 0, 0, 0, 0]

/-- A record holds nothing outside its defined bits, and nothing at all where it is unused (R409). -/
def State.recordClean (s : State) (b o : Nat) (bits : List Nat) (used : Bool) : Bool :=
  (List.range bits.length).all fun i => let v := s.setByte b (o + i)
    if used then v &&& (bits[i]?.getD 0) == v else v == 0

/-- FORMAT: format, length, a reserved byte or an unused record that is not zero. -/
def State.setFormatOk (s : State) (b : Nat) : Bool :=
  s.setHalf b 0 == 1 && s.setHalf b 2 == setLen && s.setZero b 8 8 && s.setZero b 560 460 &&
  ((List.range 12).all fun n => s.recordClean b (16 + 16 * n) pairBits (s.setByte b (16 + 16 * n) != 0)) &&
  ((List.range 8).all fun n => s.recordClean b (208 + 8 * n) stoBits ((s.setByte b (208 + 8 * n)).testBit 0)) &&
  ((List.range 2).all fun m => s.recordClean b (272 + 8 * m) sbcBits (s.setByte b (272 + 8 * m) != 0)) &&
  s.recordClean b 288 tpBits (s.setByte b 288 != 0) &&
  (List.range 8).all fun c => s.recordClean b (304 + 32 * c) connBits (s.setByte b (304 + 32 * c) % 4 != 0)

/-- `lo ≤ v ≤ hi`. -/
def inRange (lo hi v : Nat) : Bool := lo ≤ v && v ≤ hi

/-- RANGE of a used pair record at `o`. -/
def State.pairRange (s : State) (b o : Nat) : Bool :=
  s.setByte b o ≤ 5 && inRange 1 20 (s.setByte b (o + 2)) && s.setByte b (o + 3) % 16 ≤ 8 && s.setByte b (o + 3) / 16 ≤ 8 &&
  inRange 10 5000 (s.setHalf b (o + 4)) && s.setByte b (o + 7) ≤ 2

/-- RANGE of a used connection record at `o`. -/
def State.connRange (s : State) (b o : Nat) : Bool :=
  s.setByte b o % 4 ≤ 2 && inRange 1 32 (s.setByte b (o + 1)) && s.setWord b (o + 8) != 0 && s.setWord b (o + 8) != 0xFFFFFFFF &&
  s.setByte b (o + 2) ≤ 3 && s.setByte b (o + 3) ≤ 95 && s.setByte b (o + 4) ≤ 95 &&
  1 ≤ s.setHalf b (o + 12) && (s.setByte b o % 4 != 2 || 1 ≤ s.setHalf b (o + 14))

/-- RANGE: every field of a used record lies inside its range. -/
def State.setRangeOk (s : State) (b : Nat) : Bool :=
  ((List.range 12).all fun n => s.setByte b (16 + 16 * n) == 0 || s.pairRange b (16 + 16 * n)) &&
  ((List.range 8).all fun n => !(s.setByte b (208 + 8 * n)).testBit 0 ||
    (inRange 1 6000 (s.setHalf b (208 + 8 * n + 2)) && s.setByte b (208 + 8 * n + 4) ≤ 5)) &&
  ((List.range 2).all fun m => s.setByte b (272 + 8 * m) == 0 ||
    (s.setByte b (272 + 8 * m) ≤ 2 && s.setByte b (272 + 8 * m + 1) ≤ 7 && s.setHalf b (272 + 8 * m + 2) ≤ 1000 &&
      s.setByte b (272 + 8 * m + 4) ≤ 5)) &&
  (s.setByte b 288 == 0 || (inRange 1 10 (s.setByte b 289) && inRange 1 20 (s.setByte b 290) && inRange 10 1000 (s.setHalf b 292))) &&
  (List.range 8).all fun c => s.setByte b (304 + 32 * c) % 4 == 0 || s.connRange b (304 + 32 * c)

/-- Mask `m` names only used STO outputs. -/
def State.setMaskOk (s : State) (b m : Nat) : Bool :=
  (List.range 8).all fun n => !m.testBit n || (s.setByte b (208 + 8 * n)).testBit 0

/-- Pair `n`'s record is consistent with the others (CONFLICT of R410). -/
def State.pairAgrees (s : State) (b n : Nat) : Bool :=
  let o := 16 + 16 * n
  let f := s.setByte b o
  let lock := s.setByte b (o + 7)
  let lead := !(f == 3 || f == 4) || n % 2 == 0
  (!(f == 3 || f == 4) || s.setByte b (16 + 16 * (if n % 2 = 0 then n + 1 else n - 1)) == f) &&
  !(lead && (f == 1 || f == 4) && (s.setByte b (o + 1)).testBit 1) &&
  s.setMaskOk b (s.setByte b (o + 6)) &&
  (lock == 0 || s.setByte b (272 + 8 * (lock - 1)) == 2)

/-- SBC record `m` is consistent with the others. -/
def State.sbcAgrees (s : State) (b m : Nat) : Bool :=
  let role := s.setByte b (272 + 8 * m)
  (role != 2 || (List.range 12).any fun n => s.setByte b (16 + 16 * n) == 3 && s.setByte b (16 + 16 * n + 7) == m + 1) &&
  (role != 1 || (s.setByte b (208 + 8 * s.setByte b (272 + 8 * m + 1))).testBit 0)

/-- Connection record `c` is consistent with the others; every part has four CAN controllers (R2). -/
def State.connAgrees (s : State) (b c : Nat) : Bool :=
  let o := 304 + 32 * c
  s.setByte b o % 4 == 0 ||
    ((s.setByte b o % 4 != 1 || s.setMaskOk b (s.setByte b (o + 5))) &&
      (List.range c).all fun d => s.setByte b (304 + 32 * d) % 4 == 0 || s.setWord b (304 + 32 * d + 8) != s.setWord b (o + 8))

/-- CONFLICT. -/
def State.setAgrees (s : State) (b : Nat) : Bool :=
  ((List.range 12).all fun n => s.setByte b (16 + 16 * n) == 0 || s.pairAgrees b n) &&
  ((List.range 2).all fun m => s.sbcAgrees b m) && (List.range 8).all fun c => s.connAgrees b c

/-- TPO: the sources named are enabled, and a pulse with its recovery ends before the next output's pulse. -/
def State.setTpoOk (s : State) (b : Nat) : Bool :=
  let en := fun src => src == 0 || (s.setByte b 288).testBit (src - 1)
  ((List.range 12).all fun n => s.setByte b (16 + 16 * n) == 0 ||
    (en (s.setByte b (16 + 16 * n + 3) % 16) && en (s.setByte b (16 + 16 * n + 3) / 16))) &&
  (s.setByte b 288 == 0 || s.setByte b 289 * 100 + s.setByte b 290 * 50 < s.setHalf b 292 * 125)

/-- perr of the set at `b`, the first failing check of R410; 0 where it passes. -/
def State.setError (s : State) (b : Nat) : Nat :=
  if !s.setFormatOk b then 1
  else if s.setWord b 1020 != (s.setCrc b).toNat then 2
  else if !s.setRangeOk b then 3
  else if !s.setAgrees b then 4
  else if !s.setTpoOk b then 5
  else 0

/-- Memory with zeros in the `n` bytes from `a` upward. -/
def State.clearBytes (s : State) (a n : Nat) : State := { s with mem := s.mem.filter fun e => !(a ≤ e.1 && e.1 < a + n) }

end Sys2Proof.Machine
end

