-- ==== Sys2Proof/Machine/SafeDie.lean ====
section
/-! DEFINITION. The two safety channels (14_safety.md): inputs, pairs, outputs, nip check, lockout and reset. Each channel is
evaluated by the same functions over its own `ChanSt`; a command acts on both. Time is counted in samples of 50 µs. -/

namespace Sys2Proof.Machine

/-! ## Parts of the state -/

/-- The state with the safety part `x`. -/
def State.setSaf (s : State) (x : SafeSt) : State := { s with saf := x }
/-- Pair `n` of a channel. -/
def pairOf (c : ChanSt) (n : Nat) : PairSt := tblGet {} c.pairs n
/-- A channel with pair `n` as `x`. -/
def putPair (c : ChanSt) (n : Nat) (x : PairSt) : ChanSt := { c with pairs := tblSet c.pairs n x }
/-- Device state: 0 INIT, 1 NO_PARAM, 2 UNCONFIRMED, 3 RUN, 4 LOCKOUT (R389). -/
def State.safeState (s : State) : Nat := s.f F.SAFE_STS_state
/-- Set bit `b` of SAFE_FLAGS. -/
def State.safeFlag (s : State) (b : Nat) : State := s.setF ⟨R.SAFE_FLAGS, b, 1⟩ 1

/-- Channels A and B of pair `n` are in their run state (R391). -/
def State.aRun (s : State) (c : ChanSt) (n : Nat) : Bool := c.img.getLsbD (2 * n) == s.inRunLevel (2 * n)
/-- Channel B. -/
def State.bRun (s : State) (c : ChanSt) (n : Nat) : Bool := c.img.getLsbD (2 * n + 1) == s.inRunLevel (2 * n + 1)
/-- The pair is in its run state. -/
def State.inRun (s : State) (c : ChanSt) (n : Nat) : Bool := s.aRun c n && s.bRun c n
/-- The pair is in its stop state. -/
def State.inStop (s : State) (c : ChanSt) (n : Nat) : Bool := !s.aRun c n && !s.bRun c n
/-- Its channels disagree. -/
def State.disagrees (s : State) (c : ChanSt) (n : Nat) : Bool := s.aRun c n != s.bRun c n
/-- An input of pair `n` has a test-pulse fault. -/
def inputFault (c : ChanSt) (n : Nat) : Bool := c.inflt.getLsbD (2 * n) || c.inflt.getLsbD (2 * n + 1)
/-- The enabled pairs. -/
def State.enabledPairs (s : State) : List Nat := (List.range 12).filter fun n => s.pairFunc n != 0

/-! ## Inputs and test pulses (R390–R393) -/

/-- Sample `k` lies in the hold window of source `src` (R392). -/
def State.inHold (s : State) (src k : Nat) : Bool :=
  src != 0 && match tblFind s.saf.tpoAt (src - 1) with
    | some b => b ≤ k && k < b + s.tpoW + s.tpoRec
    | none => false

/-- Sample `k` is the last one before the pulse of TPOm ends. -/
def State.lastOf (s : State) (m k : Nat) : Bool :=
  match tblFind s.saf.tpoAt m with
  | some b => k + 1 == b + s.tpoW
  | none => false

/-- Level of TPOm at sample `k`: high except during its pulses; low where it is not enabled (R392, R469). -/
def State.tpoLevel (s : State) (m k : Nat) : Bool :=
  s.tpoEn m && match tblFind s.saf.tpoAt m with
    | some b => !(b ≤ k && k < b + s.tpoW)
    | none => true

/-- What the test pulses say of input `i` at sample `k` when it reads `rd` (R393): `some true` a fault, `some false` a pulse
of its own source passed. Only a channel that runs high can show the short between channels (DEDUCED, log entry 40). -/
def State.tpCheck (s : State) (c : ChanSt) (k i : Nat) (rd : Bool) : Option Bool :=
  let src := s.inSrc i
  let run := c.img.getLsbD i == s.inRunLevel i
  if s.pairFunc (i / 2) = 0 || src = 0 || !run then none
  else if s.lastOf (src - 1) k then some rd
  else if s.inRunLevel i && !rd && (List.range 8).any (fun m => m + 1 != src && s.lastOf m k) then some true
  else none

/-- One input of a channel at sample `k`: the test-pulse checks, then the filter, which a hold window freezes. -/
def State.inputStep (s : State) (k : Nat) (raw : BitVec 25) (acc : ChanSt × List Nat) (i : Nat) : ChanSt × List Nat :=
  let c := acc.1
  let rd := raw.getLsbD i
  let m : BitVec 24 := 1#24 <<< i
  let chk := s.tpCheck c k i rd
  let c := match chk with
    | some true => { c with inflt := c.inflt ||| m }
    | some false => { c with inflt := c.inflt &&& ~~~m }
    | none => c
  let bad := if chk = some true then acc.2 ++ [i / 2] else acc.2
  if s.inHold (s.inSrc i) k then (c, bad)
  else if rd == c.img.getLsbD i then ({ c with cnt := tblDel c.cnt i }, bad)
  else
    let n := tblGet 0 c.cnt i + 1
    if s.inFilt i ≤ n then ({ c with img := c.img ^^^ m, cnt := tblDel c.cnt i }, bad)
    else ({ c with cnt := tblSet c.cnt i n }, bad)

/-- SRESET with its filter of 20 samples (R398): the width of a pulse that ends at sample `k`, in ticks. -/
def resetStep (k : Nat) (rd : Bool) (c : ChanSt) : ChanSt × Option Nat :=
  if rd == c.sres then ({ c with scnt := 0 }, none)
  else if c.scnt + 1 < 20 then ({ c with scnt := c.scnt + 1 }, none)
  else if rd then ({ c with sres := true, scnt := 0, rise := k }, none)
  else
    let w := (k - c.rise) / 20
    ({ c with sres := false, scnt := 0, pulse := inRange 250 3000 w }, some w)

/-! ## Pairs (R395, R397) -/

/-- The stop, lockout-seen and AUTO rows of R395 for pair `n` of a channel. -/
def State.safePair (s : State) (c : ChanSt) (n : Nat) : ChanSt :=
  let x := pairOf c n
  if s.pairFunc n = 0 then putPair c n {}
  else if x.st = 3 then (if s.inStop c n then putPair c n { x with passed := true } else c)
  else if s.pairFunc n = 4 then c
  else if x.st = 1 then (if s.inRun c n then c else putPair c n { x with st := 2 })
  else if s.pairAuto n && s.inRun c n && !inputFault c n then putPair c n { x with st := 1 }
  else c

/-- The TWO_HAND function of the even pair `n` at tick `t` (R397): both hands released, the first actuated, the second not
more than 500 ticks later. -/
def State.handStep (s : State) (t : Nat) (c : ChanSt) (n : Nat) : ChanSt :=
  if s.pairFunc n != 4 || n % 2 = 1 then c
  else
    let x := pairOf c n
    let a1 := s.inRun c n
    let a2 := s.inRun c (n + 1)
    let free := s.inStop c n && s.inStop c (n + 1)
    let x := if free then { x with freed := true, firstAt := none } else x
    let x := if x.freed && x.firstAt.isNone && (a1 || a2) then { x with firstAt := some t } else x
    let ok := x.st != 3 && (pairOf c (n + 1)).st != 3
    let inTime := match x.firstAt with | some f => t ≤ f + 500 | none => false
    let x := if x.permit then { x with permit := a1 && a2 && ok }
      else if x.freed && a1 && a2 && inTime && ok then { x with permit := true, freed := false, firstAt := none }
      else x
    putPair c n (if x.st = 3 then { x with permit := false } else { x with st := if x.permit then 1 else 2 })

/-- The function that pair `n` carries is in RUN: both pairs of a GUARD_LOCK are (R395). -/
def State.funcRun (s : State) (c : ChanSt) (n : Nat) : Bool :=
  (pairOf c n).st == 1 && (s.pairFunc n != 3 || (pairOf c (n + 1)).st == 1)

/-! ## Outputs (R387, R396, R400–R404) -/

/-- The latest permit word is fresh. -/
def fresh (c : ChanSt) : Bool := c.permitAge < 2
/-- The other channel's latest permit word permits the output of bit `b`: 0–7 STO, 8–9 SBC, 10 the net (R387). -/
def permits (c : ChanSt) (b : Nat) : Bool := fresh c && c.permit.getLsbD b
/-- The channel's ball of STO output `n` is commanded on. -/
def stoBall (c : ChanSt) (n : Nat) : Bool := c.sto.getLsbD n && permits c n
/-- The channel's ball of SBC pair `m` is commanded high. -/
def sbcBall (c : ChanSt) (m : Nat) : Bool := c.sbc.getLsbD m && permits c (8 + m)
/-- The STO balls of a channel. -/
def stoBalls (c : ChanSt) : BitVec 8 :=
  BitVec.ofNat 8 ((List.range 8).foldl (fun a n => a + (stoBall c n).toNat * 2 ^ n) 0)

/-- Demands on output `n` in a channel, with category, cause and source (R400, R402, R407). -/
def State.outDemands (s : State) (c : ChanSt) (n : Nat) : List (Bool × Nat × Nat) :=
  (if s.safeState != 3 || !s.stoUsed n || s.bit (F.SAFE_STO_readback n) then [(false, 4, 0)] else []) ++
  ((List.range 12).filterMap fun p =>
    if s.pairCarries p && (s.pairMask p).testBit n && !s.funcRun c p then some (s.pairCat1 p, 1, p) else none) ++
  ((List.range 8).filterMap fun k =>
    if s.connRole k = 1 && (s.connByte k 5).testBit n &&
        (s.f (F.SAFE_CONN_state k) != 2 || !s.bit (F.SAFE_CONN_run k) || (tblGet {} s.saf.conns k).latched) then
      some ((s.connByte k 6).testBit 0, 2, k) else none)

/-- Output `n` in a channel at sample `k` (R402): off at once for category 0; for category 1 the SS1 timer starts once; on
again when no demand remains. -/
def State.outStep (s : State) (k : Nat) (c : ChanSt) (n : Nat) : ChanSt :=
  let ds := s.outDemands c n
  let m : BitVec 8 := 1#8 <<< n
  if c.sto.getLsbD n then
    if ds.any (fun d => !d.1) then { c with sto := c.sto &&& ~~~m, ss1 := tblDel c.ss1 n }
    else if ds.isEmpty then { c with ss1 := tblDel c.ss1 n }
    else if (tblFind c.ss1 n).isSome then c
    else { c with ss1 := tblSet c.ss1 n (k + 200 * s.stoSs1 n) }
  else if ds.isEmpty then { c with sto := c.sto ||| m }
  else c

/-- Every output that the functions naming SBC `m` mask has been off in this channel for their lock_t (R396). Either record of a
GUARD_LOCK function may name its lock output, and lock_t stands beside the name (log entry 134). -/
def State.lockFree (s : State) (k : Nat) (c : ChanSt) (m : Nat) : Bool :=
  (List.range 12).all fun p => !(s.pairFunc p == 3 && s.pairLock p == m + 1) ||
    (bitsOf 8 (s.pairMask (s.pairLead p))).all fun n => !c.ball.getLsbD n && tblGet 0 c.offAt n + 20 * s.pairLockT p ≤ k

/-- SBC pair `m` in a channel (R396, R403); `base` is 0 for the die, 2 for the core. A brake whose linked output alone has
turned off is held for sbc_dly. -/
def State.sbcStep (s : State) (k base : Nat) (acc : ChanSt × Tbl Nat) (m : Nat) : ChanSt × Tbl Nat :=
  let c := acc.1
  let due := acc.2
  let b : BitVec 2 := 1#2 <<< m
  let set := fun (v : Bool) => { c with sbc := if v then c.sbc ||| b else c.sbc &&& ~~~b }
  let run := s.safeState == 3 && !s.bit (F.SAFE_SBC_readback m)
  if s.sbcRole m = 2 then
    (set (run && (s.f F.SAFE_REQ_unlock_host).testBit m && s.lockFree k c m), tblDel due (base + m))
  else if s.sbcRole m = 1 then
    let asked := run && (s.f F.SAFE_REQ_rel_force).testBit m
    if asked && c.ball.getLsbD (s.sbcLink m) then (set true, tblDel due (base + m))
    else if !asked || !c.sbc.getLsbD m || s.sbcDly m = 0 then (set false, tblDel due (base + m))
    else if (tblFind due (base + m)).isSome then (c, due)
    else (c, tblSet due (base + m) (k + 20 * s.sbcDly m))
  else (set false, tblDel due (base + m))

/-- The device is in RUN and every STO output with gen is in `sto` (R401). -/
def State.genWant (s : State) (sto : BitVec 8) : Bool :=
  s.safeState == 3 && (List.range 8).all fun n => !(s.stoUsed n && s.stoGen n) || sto.getLsbD n

/-- The safety die drives the net active (R387, R401): both channels want it, and the outputs with gen are on. -/
def State.netWant (s : State) : Bool :=
  s.saf.die.gen && permits s.saf.die 10 && s.genWant (stoBalls s.saf.die)

/-- The outputs of one channel: STO, the instants its balls turned off, SBC, net. -/
def State.chanOut (s : State) (base : Nat) (c : ChanSt) (due : Tbl Nat) : ChanSt × Tbl Nat :=
  let k := s.saf.sample
  let c := (List.range 8).foldl (s.outStep k) c
  let now := stoBalls c
  let c := (bitsOf 8 (c.ball &&& ~~~now).toNat).foldl (fun c n => { c with offAt := tblSet c.offAt n k }) c
  let r := (List.range 2).foldl (s.sbcStep k base) ({ c with ball := now }, due)
  ({ r.1 with gen := s.genWant c.sto }, r.2)

/-! ## What the main die does (R255 class 1, R386, R407) -/

/-- STO of converter `k`: PULSE_BLOCK of class 1, which also follows a RAMP_DOWN of class 1 (R255). -/
def State.safeBlock (s : State) (k : Nat) : State :=
  if s.f (F.PROT_CV_STS_state k) = 4 && s.f (F.PROT_CV_STS_class k) = 1 then (s.histLog k 1 1 0 true).rampEnd k
  else s.demand k 1 1 0

/-- Would STO change converter `k`? -/
def State.safeBlocks (s : State) (k : Nat) : Bool :=
  s.demandChanges k 1 || (s.convExists k && s.f (F.PROT_CV_STS_state k) == 4 && s.f (F.PROT_CV_STS_class k) == 1)

/-- Scope of the converters that change. -/
def State.changedScope (s : State) : List Nat → Word
  | [] => scopeNone
  | [k] => scopeConv k
  | _ => s.scopeDev

/-- One EV0 decision (R407): outputs `offs` turn off and outputs `ramps` start an SS1. Nothing reaches a main die in reset; the
converters of one out of reset react at once, and the record carries the stamp of R33 (log entry 98). -/
def State.safeDecision (s : State) (cause src : Nat) (offs ramps : List Nat) : State :=
  let outs := (offs ++ ramps).foldl (fun a n => a ||| 2 ^ n) 0
  let payload := outs + 0x100 * cause + 0x1000 * src
  let s := s.setReg R.SAFE_LAST (BitVec.ofNat 32 (payload + 0x10000 * (s.f F.SAFE_LAST_count + 1)))
  if s.pwr.mainRst then s
  else
    let blk := (offs.flatMap s.stoConvs).eraseDups
    let ramp := ((ramps.flatMap s.stoConvs).eraseDups).filter fun k => !blk.contains k
    let scope := s.changedScope (blk.filter s.safeBlocks ++ ramp.filter fun k => s.demandChanges k 1)
    let s := blk.foldl State.safeBlock s
    let s := ramp.foldl (fun s k => s.demand k 1 4 0) s
    s.raiseSafety 0 payload scope

/-- The gate-enable net becomes inactive: every buffer high impedance, every converter in class 1 (R386, R255). -/
def State.netLoss (s : State) : State :=
  if !s.gateNet then s
  else
    let s := { s with gateNet := false }
    if s.pwr.mainRst then s else ((List.range 8).foldl State.safeBlock s).chopRestart.allLegs

/-- The net follows the safety die (R386, R401). -/
def State.netFollow (s : State) (on : Bool) : State :=
  if on then (if s.gateNet then s else if s.pwr.mainRst then { s with gateNet := true } else { s with gateNet := true }.chopRestart.allLegs)
  else s.netLoss

/-- Cause and source of what a channel's output `n` does: the first demand, those of category 0 first. -/
def State.outCause (s : State) (c : ChanSt) (n : Nat) : Nat × Nat :=
  let ds := s.outDemands c n
  match ds.find? (fun d => !d.1), ds with
  | some d, _ => (d.2.1, d.2.2)
  | none, d :: _ => (d.2.1, d.2.2)
  | none, [] => (4, 0)

/-- Release requests of the axes (R404). -/
def State.axisRequest (s : State) : Nat :=
  (List.range 8).foldl (fun a n =>
    if s.bit (F.MOT_CTL_en n) && s.bit (F.MOT_STAND_sbc_en n) && (s.axis n).rel then a ||| 2 ^ s.f (F.MOT_STAND_sbc n) else a) 0

/-! ## What the registers show (R419) -/

/-- A pair or the device holds SFAULT_N low (R407). -/
def State.sfault (s : State) : Bool := s.safeState != 3 || (List.range 12).any fun n => (pairOf s.saf.die n).st == 3

/-- SAFE_PAIRn, but for disc_cnt. -/
def State.mirrorPair (s : State) (n : Nat) : State :=
  let c := s.saf.die
  let x := pairOf c n
  let on := s.pairFunc n != 0
  let w := x.st + 8 * (on && s.aRun c n).toNat + 16 * (on && s.bRun c n).toNat + 32 * (on && s.disagrees c n).toNat +
    64 * x.passed.toNat + 128 * (on && inputFault c n).toNat + 256 * (min x.timer 8191) + 2 ^ 21 * (x.cause % 8)
  s.setReg (R.SAFE_PAIR n) (BitVec.ofNat 32 (w + 2 ^ 24 * s.f (F.SAFE_PAIR_disc_cnt n)))

/-- A ball's level as its channel drives it: off during an output test (R405). -/
def State.ballLevel (s : State) (b : Nat) : Bool :=
  let c := if b < 8 || (16 ≤ b && b < 18) then s.saf.die else s.saf.core
  (if b < 16 then stoBall c (b % 8) else sbcBall c (b % 2)) && tblGet 0 s.saf.testEnd b ≤ s.saf.sample

/-- A ball's command. -/
def State.ballCmd (s : State) (b : Nat) : Bool :=
  let c := if b < 8 || (16 ≤ b && b < 18) then s.saf.die else s.saf.core
  if b < 16 then stoBall c (b % 8) else sbcBall c (b % 2)

/-- SAFE_STOn, but for readback and ss1_left. -/
def State.mirrorSto (s : State) (n : Nat) : State :=
  let a := stoBall s.saf.die n
  let b := stoBall s.saf.core n
  let s := (((s.setB (F.SAFE_STO_on n) (a && b)).setB (F.SAFE_STO_a n) a).setB (F.SAFE_STO_b n) b)
  s.setB (F.SAFE_STO_ss1 n) (tblFind s.saf.die.ss1 n).isSome

/-- SAFE_SBCm, but for readback. -/
def State.mirrorSbc (s : State) (m : Nat) : State :=
  let s := s.setB (F.SAFE_SBC_released m) (s.ballLevel (16 + m) && s.ballLevel (18 + m))
  let s := (s.setB (F.SAFE_SBC_a m) (sbcBall s.saf.die m)).setB (F.SAFE_SBC_b m) (sbcBall s.saf.core m)
  let asked := if s.sbcRole m = 2 then (s.f F.SAFE_REQ_unlock_host).testBit m else (s.f F.SAFE_REQ_rel_force).testBit m
  s.setB (F.SAFE_SBC_requested m) asked

/-- SAFE_OUT. -/
def State.mirrorOut (s : State) : State :=
  let lv := (List.range 20).foldl (fun a b => a + (s.ballLevel b).toNat * 2 ^ b) 0
  let tp := (List.range 8).foldl (fun a m => a + (s.tpoLevel m s.saf.sample).toNat * 2 ^ m) 0
  s.setReg R.SAFE_OUT (BitVec.ofNat 32 (lv + s.gateNet.toNat * 2 ^ 20 + tp * 2 ^ 24))

/-- The status registers of the SAFE block show the safety die's view. -/
def State.safeMirror (s : State) : State :=
  let d := s.saf.die
  let s := (s.setF F.SAFE_IN_image d.img.toNat).setF F.SAFE_INFLT_tp_fault d.inflt.toNat
  let s := (List.range 12).foldl State.mirrorPair s
  let s := (List.range 2).foldl State.mirrorSbc ((List.range 8).foldl State.mirrorSto s.mirrorOut)
  let s := (s.setB F.SAFE_STS_gen s.netWant).setB F.SAFE_STS_sfault s.sfault
  (s.setB F.SAFE_STS_core_ok (fresh d)).setB F.SAFE_STS_die_ok (fresh s.saf.core)

/-! ## Deciding the outputs -/

/-- SS1 requests as the main die sees them (R402, R258). -/
def State.ss1Requests (s : State) : State :=
  let on := (List.range 8).filter fun n => (tblFind s.saf.die.ss1 n).isSome || (tblFind s.saf.core.ss1 n).isSome
  let ks := on.flatMap s.stoConvs
  (List.range 8).foldl (fun s k => s.setConv k { s.conv k with ss1 := ks.contains k }) s

/-- Both channels decide their outputs; EV0 goes out once for each cause and source, and the main die, the net and the
registers follow. `groups` lists the decisions already known with their cause (an SS1 expiry). -/
def State.safeOutputs (s : State) : State :=
  let d0 := s.saf.die
  let c0 := s.saf.core
  let rd := s.chanOut 0 d0 s.saf.brakeAt
  let rc := if s.pwr.mainRst then (c0, rd.2) else s.chanOut 2 c0 rd.2
  let d := rd.1
  let c := rc.1
  let offs := bitsOf 8 ((d0.sto &&& c0.sto) &&& ~~~(d.sto &&& c.sto)).toNat
  let timed := fun (x y : ChanSt) n => (tblFind x.ss1 n).isSome || (tblFind y.ss1 n).isSome
  let ramps := (List.range 8).filter fun n => timed d c n && !timed d0 c0 n
  let why := fun n => if d0.sto.getLsbD n && !d.sto.getLsbD n || (tblFind d.ss1 n).isSome then s.outCause d n else s.outCause c n
  let keys := ((offs ++ ramps).map why).eraseDups
  let s := s.setSaf { s.saf with die := d, core := c, brakeAt := rc.2 }
  let s := keys.foldl (fun s k =>
    s.safeDecision k.1 k.2 (offs.filter fun n => why n == k) (ramps.filter fun n => why n == k)) s
  (s.ss1Requests.netFollow s.netWant).safeMirror

/-! ## Lockout (R389, R395, R407) -/

/-- EV1 with lockout cause `cause` for pair `who`, 0xFF for the device. -/
def State.ev1 (s : State) (cause who : Nat) : State :=
  if s.pwr.mainRst then s else s.raiseSafety 1 (cause + 0x100 * who) scopeNone

/-- Pair `n` of a channel enters LOCKOUT; passed_stop is cleared. A pair already in LOCKOUT keeps its cause. -/
def lockPair (cause : Nat) (c : ChanSt) (n : Nat) : ChanSt :=
  let x := pairOf c n
  putPair c n { x with st := 3, passed := false, cause := if x.st = 3 then x.cause else cause, permit := false }

/-- Pair `n` enters LOCKOUT in the channels that decide so, and EV1 goes out once (R407). -/
def State.pairLockout (cause : Nat) (inDie inCore : Bool) (s : State) (n : Nat) : State :=
  let was := (pairOf s.saf.die n).st == 3 || (pairOf s.saf.core n).st == 3
  let s := s.setSaf { s.saf with
    die := if inDie then lockPair cause s.saf.die n else s.saf.die
    core := if inCore then lockPair cause s.saf.core n else s.saf.core }
  if was then s else s.ev1 cause n

/-- A device-level fault: LOCKOUT of the device and of every enabled pair (R389, R395). In INIT and in LOCKOUT it changes
nothing. -/
def State.deviceLockout (s : State) (cause : Nat) : State :=
  if s.safeState = 0 || s.safeState = 4 then s
  else
    let s := ((s.setF F.SAFE_STS_state 4).setF F.SAFE_STS_lock_cause cause).ev1 cause 0xFF
    (s.enabledPairs.foldl (State.pairLockout cause true true) s).safeOutputs

/-! ## Read-back (R405) -/

/-- A ball has a read-back fault: its pair turns off and the device locks out. -/
def State.readbackFault (s : State) (b : Nat) : State :=
  let s := s.setF (if b < 16 then F.SAFE_STO_readback (b % 8) else F.SAFE_SBC_readback (b % 2)) 1
  ((s.safeFlag 6).deviceLockout 6).safeOutputs

/-- The levels read back before a sample's decision: three samples in a row with another level than the command, or a high
level during a test. A ball whose driving die is in reset is not judged. -/
def State.readBack (s : State) (back : BitVec 20) : State × List Nat :=
  let s := s.setSaf { s.saf with back := back }
  (List.range 20).foldl (fun a b =>
    let s := a.1
    let core := (8 ≤ b && b < 16) || 18 ≤ b
    if core && s.pwr.mainRst then a
    else if s.saf.sample < tblGet 0 s.saf.testEnd b then (if back.getLsbD b then (s, a.2 ++ [b]) else a)
    else
      let n := if back.getLsbD b != s.ballCmd b then tblGet 0 s.saf.rbRun b + 1 else 0
      let s := s.setSaf { s.saf with rbRun := if n = 0 then tblDel s.saf.rbRun b else tblSet s.saf.rbRun b n }
      if n = 3 then (s, a.2 ++ [b]) else (s, a.2)) (s, [])

/-! ## Sample (R390) -/

/-- One channel's inputs and pair states at sample `k`, and the pairs with a test-pulse fault. -/
def State.chanSample (s : State) (k : Nat) (c : ChanSt) (raw : BitVec 25) : ChanSt × List Nat × Option Nat :=
  let r := (List.range 24).foldl (s.inputStep k raw) (c, [])
  let q := resetStep k (raw.getLsbD 24) r.1
  let c := (List.range 12).foldl s.safePair q.1
  ((List.range 12).foldl (s.handStep (k / 20)) c, r.2, q.2)

/-- SRESET as the safety die saw it at this sample (R398). -/
def State.resetShown (s : State) (w : Option Nat) : State :=
  let s := s.setB F.SAFE_RESET_level s.saf.die.sres
  match w with
  | none => s
  | some n =>
    let s := s.setF F.SAFE_RESET_width (min n 4095)
    if inRange 250 3000 n then s.incWrap F.SAFE_RESET_accepted else s.safeFlag 0

/-- SAFETY_SAMPLE: `die` and `core` are what each channel's sampler reads (bits 0–23 SIN, bit 24 SRESET), `back` the levels of
the STO and SBC balls. -/
def State.safeSample (s : State) (die core : BitVec 25) (back : BitVec 20) : State :=
  let k := s.saf.sample
  let req := s.f F.SAFE_REQ_rel_host ||| s.axisRequest
  let s := (s.setF F.SAFE_REQ_rel_axis s.axisRequest).setF F.SAFE_REQ_rel_force req
  let rb := s.readBack back
  let s := rb.1
  let d := s.chanSample k s.saf.die die
  let c := if s.pwr.mainRst then (s.saf.core, [], none) else s.chanSample k s.saf.core core
  let s := s.setSaf { s.saf with die := d.1, core := c.1, sample := k + 1 }
  let tp := (d.2.1 ++ c.2.1).eraseDups
  let s := if tp.isEmpty then s else s.safeFlag 5
  let s := tp.foldl (fun s n => State.pairLockout 2 (d.2.1.contains n) (c.2.1.contains n) s n) s
  let s := s.resetShown d.2.2
  (rb.2.foldl State.readbackFault s).safeOutputs

/-! ## Tick (R387, R388, R394, R406) -/

/-- The permit word of a channel (R387): its STO and SBC outputs and the net. -/
def permitWord (c : ChanSt) : BitVec 11 := (if c.gen then 1#1 else 0#1) ++ c.sbc ++ c.sto

/-- A channel receives the other's permit word `w`, or none. -/
def permitIn (c : ChanSt) (w : Option (BitVec 11)) : ChanSt :=
  match w with
  | some p => { c with permit := p, permitAge := 0 }
  | none => { c with permitAge := min 2 (c.permitAge + 1) }

/-- What the nip check compares (R406): the images, pairs, outputs, SS1 timers in whole ticks, the result of an accepted reset
and the parameter CRC. -/
def State.nipView (s : State) (c : ChanSt) :
    BitVec 24 × List (Nat × Bool) × BitVec 8 × BitVec 2 × Bool × Tbl Nat × Option (List Nat) × Word :=
  (c.img, (List.range 12).map (fun n => ((pairOf c n).st, (pairOf c n).passed)), c.sto, c.sbc, c.gen,
    c.ss1.map fun e => (e.1, (e.2 - s.saf.sample) / 20), c.rst, c.crc)

/-- The discrepancy timer of pair `n` in a channel (R394); the flag says that a disagreement has ended in time. -/
def State.discStep (s : State) (c : ChanSt) (n : Nat) : ChanSt × Bool :=
  let x := pairOf c n
  if s.pairFunc n = 0 then (c, false)
  else if s.disagrees c n then (putPair c n { x with timer := x.timer + 1 }, false)
  else if x.timer = 0 then (c, false)
  else (putPair c n { x with timer := 0 }, true)

/-- The discrepancy timers of both channels at a tick; SAFE_PAIRn counts those of the safety die. -/
def State.discTick (s : State) (n : Nat) : State :=
  let d := s.discStep s.saf.die n
  let c := if s.pwr.mainRst then (s.saf.core, false) else s.discStep s.saf.core n
  let s := s.setSaf { s.saf with die := d.1, core := c.1 }
  if d.2 then s.incSat (F.SAFE_PAIR_disc_cnt n) else s

/-- The nip check of a tick (R406). Where the permit words have failed with the exchange, the lockout's cause is CHANNEL (R387;
log entry 134). -/
def State.nipCheck (s : State) (exchange : Bool) : State :=
  let ok := exchange && s.nipView s.saf.die == s.nipView s.saf.core
  let s := (s.incWrap F.SAFE_NIP_checks).setB F.SAFE_NIP_last !ok
  if ok then s.setSaf { s.saf with nipRow := 0 }
  else
    let s := ((s.incSat F.SAFE_NIP_mismatches).safeFlag 4).setSaf { s.saf with nipRow := s.saf.nipRow + 1 }
    if 2 ≤ s.saf.nipRow then s.deviceLockout (if fresh s.saf.die && fresh s.saf.core then 4 else 5) else s

/-- The clock counts of a tick (R388): the die's clock counted over 1 ms (nominal 16,000) and the core's (nominal 100,000). -/
def State.clockCheck (s : State) (sosc core : Nat) : State :=
  let s := s.setF F.SAFE_CLK_sosc_khz sosc
  let row := fun (good : Bool) n => if good then 0 else n + 1
  let s := s.setSaf { s.saf with
    clkRow := row (inRange 14720 17280 sosc) s.saf.clkRow
    clkRowCore := row (inRange 92000 108000 core) s.saf.clkRowCore }
  if 2 ≤ s.saf.clkRow || 2 ≤ s.saf.clkRowCore then
    let s := if s.bit F.SAFE_CLK_fault then s
      else ((s.setF F.SAFE_CLK_fault 1).safeFlag 7).raiseSafety 57 2 scopeNone
    s.deviceLockout 7
  else s.setF F.SAFE_CLK_fault 0

/-- SAFETY_TICK: `exchange` the nip exchange completed; `toDie` and `toCore` a valid permit word arrived there; `sosc` and
`core` the clock counts. While the main die is in reset only the safety die ticks, and no exchange completes. -/
def State.safeTick (s : State) (exchange toDie toCore : Bool) (sosc core : Nat) : State :=
  let live := !s.pwr.mainRst && s.saf.selfDone
  let d := permitIn s.saf.die (if toDie && live then some (permitWord s.saf.core) else none)
  let c := permitIn s.saf.core (if toCore && live then some (permitWord s.saf.die) else none)
  let s := s.setSaf { s.saf with die := d, core := c }
  let s := (List.range 12).foldl State.discTick s
  let s := if s.saf.selfDone then s.nipCheck (exchange && live) else s
  let s := if live then s.clockCheck sosc core else s
  let told := fun (c : ChanSt) => { c with rst := none }
  (s.setSaf { s.saf with die := told s.saf.die, core := told s.saf.core }).safeOutputs

/-- A pair whose discrepancy timer has reached disc locks out with cause DISC (R394). -/
def State.discLockout (s : State) (n : Nat) : State :=
  let late := fun (c : ChanSt) => s.pairDisc n ≤ (pairOf c n).timer
  if s.pairFunc n != 0 && (late s.saf.die || late s.saf.core) then
    (State.pairLockout 1 (late s.saf.die) (late s.saf.core) s n).safeOutputs
  else s

/-- No valid permit word for 2 ms (R387). -/
def State.permitLoss (s : State) (core : Bool) : State :=
  if fresh (if core then s.saf.core else s.saf.die) then s else s.deviceLockout 5

/-! ## Test pulses and output tests (R392, R405) -/

/-- The first sample at or after the start of TPOm's pulse in each test period, and its period, in samples. -/
def State.tpoPhase (s : State) (m : Nat) : Nat := (5 * m * s.tpoPer + 1) / 2

/-- TPO_PULSE: the pulse of TPOm begins with the next sample. -/
def State.tpoPulse (s : State) (m : Nat) : State :=
  if s.tpoEn m && s.tpoPer != 0 && s.saf.sample % (20 * s.tpoPer) = s.tpoPhase m % (20 * s.tpoPer) then
    (s.setSaf { s.saf with tpoAt := tblSet s.saf.tpoAt m s.saf.sample }).safeMirror
  else s

/-- OUTPUT_TEST of ball `b`: A balls at tick 0 of each 1,000, B balls at tick 500, output `n` in sample `n` (R405). -/
def State.outputTest (s : State) (b : Nat) (high : Bool) : State :=
  let a := b < 8 || (16 ≤ b && b < 18)
  let tick := s.saf.sample / 20 % 1000
  let slot := b ≥ 16 || s.saf.sample % 20 = b % 8
  if (tick == if a then 0 else 500) && slot && s.ballCmd b && s.ballTp b != 0 then
    let s := s.setSaf { s.saf with testEnd := tblSet s.saf.testEnd b (s.saf.sample + 2 * s.ballTp b) }
    if high then s.readbackFault b else s.safeMirror
  else s

/-! ## Timers (R402, R403) -/

/-- The SS1 timer of output `n` expires in the channels where it is due: the output turns off (R402, R400). -/
def State.ss1Expiry (s : State) (n : Nat) : State :=
  let due := fun (c : ChanSt) => match tblFind c.ss1 n with | some t => t ≤ s.saf.sample | none => false
  let off := fun (c : ChanSt) =>
    if due c then { c with sto := c.sto &&& ~~~(1#8 <<< n), ss1 := tblDel c.ss1 n } else c
  if due s.saf.die || due s.saf.core then
    let was := s.saf.die.sto.getLsbD n && s.saf.core.sto.getLsbD n
    let s := s.setSaf { s.saf with die := off s.saf.die, core := off s.saf.core }
    let s := if was then s.safeDecision 3 0 [n] [] else s
    s.safeOutputs
  else s

/-- The delay of brake `m` has passed in the channels where it is due (R403). -/
def State.brakeExpiry (s : State) (m : Nat) : State :=
  let due := fun base => match tblFind s.saf.brakeAt (base + m) with | some t => decide (t ≤ s.saf.sample) | none => false
  let off := fun (c : ChanSt) => { c with sbc := c.sbc &&& ~~~(1#2 <<< m) }
  let s1 := if due 0 then s.setSaf { s.saf with die := off s.saf.die, brakeAt := tblDel s.saf.brakeAt m } else s
  let s2 := if due 2 then s1.setSaf { s1.saf with core := off s1.saf.core, brakeAt := tblDel s1.saf.brakeAt (2 + m) } else s1
  s2.safeMirror

/-! ## Reset (R399) -/

/-- No input of the device has a test-pulse fault or a disagreement running, as the channel sees it. -/
def State.resetClear (s : State) (c : ChanSt) : Bool :=
  c.inflt == 0 && s.enabledPairs.all fun n => !s.disagrees c n && (pairOf c n).timer == 0

/-- Pair `n` meets the conditions that a pair in LOCKOUT needs (R399). -/
def State.lockoutMet (s : State) (c : ChanSt) (n : Nat) : Bool :=
  let f := s.pairFunc n
  let mate := if n % 2 = 0 then n + 1 else n - 1
  s.resetClear c && (pairOf c n).passed && (!(f == 3 || f == 4) || (pairOf c mate).passed) && (f == 4 || s.inRun c n)

/-- A valid pulse resets pair `n` of the channel (R399). -/
def State.resets (s : State) (c : ChanSt) (n : Nat) : Bool :=
  let x := pairOf c n
  if x.st = 2 then s.pairFunc n != 4 && !s.pairAuto n && s.inRun c n && s.resetClear c
  else x.st == 3 && s.lockoutMet c n

/-- Pair `n` of a channel at the falling edge of a valid pulse. A two-hand pair leaves LOCKOUT for STOP, and the function that
its even pair holds needs both hands released again, whichever hand was locked out (R397). -/
def State.pairReset (s : State) (c0 c : ChanSt) (n : Nat) : ChanSt :=
  if !s.resets c0 n then c
  else if s.pairFunc n = 4 then
    let e := n - n % 2
    let c := putPair c n { pairOf c n with st := 2, cause := 0 }
    putPair c e { pairOf c e with freed := false, firstAt := none, permit := false }
  else putPair c n { pairOf c n with st := 1, cause := 0 }

/-- The cause of the device lockout is still present (R399). -/
def State.causePresent (s : State) : Bool :=
  match s.f F.SAFE_STS_lock_cause with
  | 4 => s.saf.nipRow != 0
  | 5 => !fresh s.saf.die || !fresh s.saf.core
  | 6 => (List.range 20).any fun b => s.saf.back.getLsbD b != s.ballLevel b
  | 7 => s.bit F.SAFE_CLK_fault
  | _ => false

/-- Every pair of a channel in state `st` with lockout cause `cause`: STOP on entry into RUN (R389); an unused pair is
OFF. -/
def State.pairsStop (s : State) (st cause : Nat) (c : ChanSt) : ChanSt :=
  { c with pairs := (List.range 12).filterMap fun n =>
      if s.pairFunc n = 0 then none else some (n, { st := st, cause := cause }) }

/-- A set that matches the confirmed value is held: RUN; another set: UNCONFIRMED; none: NO_PARAM (R389). -/
def State.safeJudge (s : State) (held : Bool) : Nat :=
  if !held then 1 else if s.reg R.SAFE_CONFIRM = s.reg R.SAFE_PCRC then 3 else 2

/-- A set is held. -/
def State.setIsHeld (s : State) : Bool := s.setByte setHeld 0 != 0

/-- The latched stop of consumer connection `c` is reset like a pair in STOP (R415, R399). -/
def State.connReset (s : State) (c : Nat) : State :=
  let x := tblGet {} s.saf.conns c
  if x.latched && s.f (F.SAFE_CONN_state c) = 2 && s.bit (F.SAFE_CONN_run c) && s.resetClear s.saf.die && s.resetClear s.saf.core then
    s.setSaf { s.saf with conns := tblSet s.saf.conns c { x with latched := false } }
  else s

/-- SAFETY_RESET_PULSE: the falling edge of a valid pulse, in each channel that saw it. The device and the connections, which
both channels hold, are reset only where both accept it. -/
def State.resetPulse (s : State) : State :=
  if !s.saf.die.pulse && !s.saf.core.pulse then s
  else
    let act := fun (c : ChanSt) =>
      if c.pulse then { (List.range 12).foldl (s.pairReset c) c with pulse := false, rst := some ((List.range 12).filter (s.resets c)) }
      else c
    let both := s.saf.die.pulse && s.saf.core.pulse
    let leave := both && s.safeState == 4 && !s.causePresent &&
      s.enabledPairs.all fun n => s.lockoutMet s.saf.die n && s.lockoutMet s.saf.core n
    let d := act s.saf.die
    let c := act s.saf.core
    let missed := s.enabledPairs.any fun n => 2 ≤ (pairOf s.saf.die n).st && !s.resets s.saf.die n
    let s := if both then (List.range 8).foldl State.connReset s else s
    let s := s.setSaf { s.saf with die := d, core := c }
    let s := if missed then s.safeFlag 1 else s
    let s := if leave then
        let s := (s.setF F.SAFE_STS_lock_cause 0).setF F.SAFE_STS_state (s.safeJudge s.setIsHeld)
        let s := (List.range 8).foldl (fun s n => s.setF (F.SAFE_STO_readback n) 0) s
        (List.range 2).foldl (fun s m => s.setF (F.SAFE_SBC_readback m) 0) s
      else s
    s.safeOutputs

/-! ## Set handling (R389, R410–R412) -/

/-- The keeper runs, in every access phase (R412, R429). -/
def State.keeperUp (s : State) : Bool := !s.pwr.mainRst

/-- A set is handed to both channels. -/
def State.setCheck (s : State) (src : Nat) (fromStore : Bool) : State :=
  ((s.copy src setNew setLen).setSaf { s.saf with checking := true, fromStore := fromStore }).setF F.SAFE_PLOAD_busy 1

/-- An output is on or a pair is released or unlocked: a load is refused (R410). -/
def State.outputOn (s : State) : Bool := (List.range 20).any s.ballCmd

/-- A write of SAFE_PLOAD. -/
def State.paramLoad (s : State) (val : Word) : State :=
  let s := s.setF F.SAFE_PLOAD_addr (getBits val 5 16)
  if !val.getLsbD 0 || s.saf.checking then s
  else if s.outputOn then s.safeFlag 2
  else s.setCheck (dataBase + 32 * s.f F.SAFE_PLOAD_addr) false

/-- Device state `st` is entered; INIT, NO_PARAM, UNCONFIRMED and RUN start every pair in STOP (R389). -/
def State.safeEnter (s : State) (st : Nat) : State :=
  let s := s.setF F.SAFE_STS_state st
  s.setSaf { s.saf with die := s.pairsStop 2 0 s.saf.die, core := s.pairsStop 2 0 s.saf.core }

/-- The set that was checked is accepted (R410). -/
def State.setAccept (s : State) : State :=
  let s := ((s.copy setNew setHeld setLen).setF F.SAFE_STS_perr 0).setReg R.SAFE_PCRC (s.setCrc setNew)
  let s := if s.saf.fromStore || s.sec.noFlash then s else (s.copy setNew setStore setLen).setSaf { s.saf with stored := true }
  let lock := s.safeState = 4
  let fresh := fun (c : ChanSt) => { s.pairsStop (if lock then 3 else 2) (s.f F.SAFE_STS_lock_cause) c with
    inflt := 0, ss1 := [], crc := s.reg R.SAFE_PCRC }
  let conns := (List.range 8).filterMap fun c =>
    if s.connRole c = 1 then some (c, { latched := true : ConnSt })
    else if s.connRole c = 2 then some (c, { sendAt := some (s.now + 1000000 * s.connPeriod c) }) else none
  let s := s.setSaf { s.saf with die := fresh s.saf.die, core := fresh s.saf.core, conns := conns, tpoAt := [], testEnd := [] }
  let s := (List.range 8).foldl (fun s c => s.setReg (R.SAFE_CONN c) (if s.connRole c = 0 then 0 else 1)) s
  let s := if lock || (s.safeState = 0 && !s.saf.selfDone) then s else s.setF F.SAFE_STS_state (s.safeJudge true)
  s.safeOutputs

/-- The set that was checked is rejected with code `e`: no valid set is held (R389, R410). -/
def State.setReject (s : State) (e : Nat) : State :=
  let s := ((s.clearBytes setHeld setLen).setF F.SAFE_STS_perr e).setReg R.SAFE_PCRC 0
  let clear := fun (c : ChanSt) => { c with pairs := [], inflt := 0, ss1 := [], crc := 0 }
  let s := s.setSaf { s.saf with die := clear s.saf.die, core := clear s.saf.core, conns := [], tpoAt := [], testEnd := [] }
  let s := (List.range 8).foldl (fun s c => s.setReg (R.SAFE_CONN c) 0) s
  let s := if s.safeState = 4 || (s.safeState = 0 && !s.saf.selfDone) then s else s.setF F.SAFE_STS_state 1
  s.safeOutputs

/-- PARAMETER_CHECK_DONE: `agree` says that both channels came to the same result. -/
def State.setDone (s : State) (agree : Bool) : State :=
  if !s.saf.checking then s
  else
    let e := if agree then s.setError setNew else 6
    let s := (s.setSaf { s.saf with checking := false }).setF F.SAFE_PLOAD_busy 0
    if e = 0 then s.setAccept else s.setReject e

/-- SELF_TEST_DONE (R389, R412): with no keeper running the device leaves INIT for NO_PARAM. -/
def State.selfTestDone (s : State) : State :=
  if s.saf.selfDone then s
  else
    let s := s.setSaf { s.saf with selfDone := true }
    if s.safeState = 0 && !s.keeperUp then (s.setF F.SAFE_STS_state (s.safeJudge s.setIsHeld)).safeMirror else s

/-- The confirmed value the keeper hands over: none where a kind-4 record of the image differs from it (R412, R450). -/
def State.handedConfirm (s : State) : Word :=
  let bound := match s.sec.image with | some i => i.safetyCrc.head? | none => none
  match s.saf.storedConf, bound with
  | some c, some b => if c = b then c else 0
  | some c, none => c
  | none, _ => 0

/-- SAFETY_STORE_HANDOVER (R412). With no boot flash fitted there is no safety store. -/
def State.storeHandover (s : State) : State :=
  if !s.saf.selfDone || !s.keeperUp || s.saf.checking then s
  else if s.saf.stored && !s.sec.noFlash then (s.setReg R.SAFE_CONFIRM s.handedConfirm).setCheck setStore true
  else if s.safeState = 0 then (s.setF F.SAFE_STS_state (s.safeJudge s.setIsHeld)).safeMirror
  else s

/-- A write of SAFE_COMM_KEY (R411). -/
def State.commKey (s : State) (val : Word) : State := s.setSaf { s.saf with armed := getBits val 0 16 == 0xC3A5 }

/-- A write of SAFE_CONFIRM (R411): accepted only while armed, and one write uses the key up. -/
def State.confirmSet (s : State) (val : Word) : State :=
  if !s.saf.armed then s
  else
    let s := s.setSaf { s.saf with armed := false }
    if val = s.reg R.SAFE_PCRC then
      let s := (s.setReg R.SAFE_CONFIRM val).setSaf { s.saf with storedConf := if s.sec.noFlash then s.saf.storedConf else some val }
      if s.safeState = 2 then (s.safeEnter 3).safeMirror else s
    else s.safeFlag 3

/-- A write of SAFE_REQ, rel_host or unlock_host (R404): the channels act on it at the next sample. -/
def State.relRequest (s : State) (mask : BitVec 2) : State := s.setF F.SAFE_REQ_rel_host mask.toNat
/-- unlock_host. -/
def State.unlockReq (s : State) (mask : BitVec 2) : State := s.setF F.SAFE_REQ_unlock_host mask.toNat

/-! ## Meanings -/

/-- SAFETY_SAMPLE (R390). -/
def execSafetySample (die core : BitVec 25) (back : BitVec 20) (s : State) : Host.Outcome State Fault Refusal :=
  onSafety s fun s => s.safeSample die core back
/-- SAFETY_TICK (R390). -/
def execSafetyTick (exchange toDie toCore : Bool) (sosc core : Nat) (s : State) : Host.Outcome State Fault Refusal :=
  onSafety s fun s => s.safeTick exchange toDie toCore sosc core
/-- DISCREPANCY (R394). -/
def execDiscrepancy (n : Fin 12) (s : State) : Host.Outcome State Fault Refusal := onSafety s fun s => s.discLockout n
/-- PERMIT_LOSS (R387). -/
def execPermitLoss (core : Bool) (s : State) : Host.Outcome State Fault Refusal := onSafety s fun s => s.permitLoss core
/-- TPO_PULSE (R392). -/
def execTpoPulse (m : Fin 8) (s : State) : Host.Outcome State Fault Refusal := onSafety s fun s => s.tpoPulse m
/-- SS1_EXPIRY (R402). -/
def execSs1Expiry (n : Fin 8) (s : State) : Host.Outcome State Fault Refusal := onSafety s fun s => s.ss1Expiry n
/-- SBC_DELAY_EXPIRY (R403). -/
def execSbcDelayExpiry (m : Fin 2) (s : State) : Host.Outcome State Fault Refusal := onSafety s fun s => s.brakeExpiry m
/-- OUTPUT_TEST (R405). -/
def execOutputTest (ball : Fin 20) (high : Bool) (s : State) : Host.Outcome State Fault Refusal :=
  onSafety s fun s => s.outputTest ball high
/-- SAFETY_RESET_PULSE (R399). -/
def execSafetyResetPulse (s : State) : Host.Outcome State Fault Refusal := onSafety s fun s => s.resetPulse
/-- GATE_ENABLE_LOSS (R386). -/
def execGateEnableLoss (s : State) : Host.Outcome State Fault Refusal := .next s.netLoss.safeMirror
/-- SELF_TEST_DONE (R389). -/
def execSelfTestDone (s : State) : Host.Outcome State Fault Refusal := onSafety s fun s => s.selfTestDone
/-- SAFETY_STORE_HANDOVER (R412). -/
def execSafetyStoreHandover (s : State) : Host.Outcome State Fault Refusal := onSafety s fun s => s.storeHandover
/-- PARAMETER_LOAD (R410). -/
def execParameterLoad (val : Word) (s : State) : Host.Outcome State Fault Refusal := onMain s fun s => s.paramLoad val
/-- PARAMETER_CHECK_DONE (R410). -/
def execParameterCheckDone (agree : Bool) (s : State) : Host.Outcome State Fault Refusal :=
  onSafety s fun s => s.setDone agree
/-- COMMISSIONING_KEY (R411). -/
def execCommissioningKey (val : Word) (s : State) : Host.Outcome State Fault Refusal := onMain s fun s => s.commKey val
/-- CONFIRM (R411). -/
def execConfirm (val : Word) (s : State) : Host.Outcome State Fault Refusal := onMain s fun s => s.confirmSet val
/-- RELEASE_REQUEST (R404). -/
def execReleaseRequest (mask : BitVec 2) (s : State) : Host.Outcome State Fault Refusal := onMain s fun s => s.relRequest mask
/-- UNLOCK_REQUEST (R404). -/
def execUnlockRequest (mask : BitVec 2) (s : State) : Host.Outcome State Fault Refusal := onMain s fun s => s.unlockReq mask

end Sys2Proof.Machine
end

