-- ==== Sys2Proof/Machine/SafeFrame.lean ====
section
/-! DEFINITION. Safety frames (R413–R417): their layout and check value, the frame mover, consumers and producers. -/

namespace Sys2Proof.Machine

/-! ## Layout (R413, R414) -/

/-- The check value of a frame body for a connection identity (R414). -/
def frameCrc (id : Nat) (body : List Byte) : Nat := crcUp 32 0x741B8CD7 id body

/-- The `n` low bytes of a number, least significant first. -/
def leBytes : Nat → Nat → List Byte
  | 0, _ => []
  | n + 1, v => BitVec.ofNat 8 v :: leBytes n (v / 256)

/-- A frame: its body and the check value, least significant byte first. -/
def sealFrame (id : Nat) (body : List Byte) : List Byte := body ++ leBytes 4 (frameCrc id body)

/-- A DATA frame (R413). -/
def dataFrame (id seq : Nat) (data : List Byte) : List Byte :=
  sealFrame id (BitVec.ofNat 8 (0x40 + data.length % 64) :: (leBytes 2 seq ++ data))

/-- An ECHO frame. -/
def echoFrameOf (id seq : Nat) : List Byte := sealFrame id (0x80#8 :: leBytes 2 seq)

/-- Byte `i` of a frame, zero beyond its end. -/
def frameByte (fr : List Byte) (i : Nat) : Nat := (fr[i]?.getD 0).toNat
/-- Kind of a frame: 1 DATA, 2 ECHO. -/
def frameKind (fr : List Byte) : Nat := frameByte fr 0 / 64
/-- n of a frame. -/
def frameN (fr : List Byte) : Nat := frameByte fr 0 % 64
/-- Sequence number. -/
def frameSeq (fr : List Byte) : Nat := frameByte fr 1 + 256 * frameByte fr 2
/-- The check value behind a body of `len` bytes is right. -/
def frameCheck (id len : Nat) (fr : List Byte) : Bool :=
  len + 4 ≤ fr.length && (fr.drop len).take 4 == leBytes 4 (frameCrc id (fr.take len))

/-! ## The frame mover (R417) -/

/-- The smallest data length code that holds `n` bytes. -/
def smallestDlc (n : Nat) : Nat := if n ≤ 8 then n else ((List.range 16).find? fun d => 9 ≤ d && n ≤ dlcLen true d).getD 15

/-- A frame leaves by CAN through message object `m` of controller `n`. -/
def State.moveCan (s : State) (n m : Nat) (fr : List Byte) : State :=
  let o := 3 + m
  let w2 := insertBits (s.obj n o 2) 0 4 (smallestDlc fr.length)
  let s := (s.putWord (objAddr n o 2) w2).putWords (objAddr n o 4)
    (wordsOf (fr ++ List.replicate (64 - fr.length) 0) 16)
  if s.objDir n o = 2 then s.txAsk n o else s

/-- Bytes as the entries of R417: word 0 names the connection and the length, a second entry holds what exceeds 28 bytes. -/
def frameEntries (c : Nat) (bs : List Byte) : List (List Word) :=
  let more := decide (28 < bs.length)
  let w0 := c + 0x100 * (bs.length % 64) + 0x10000 * more.toNat
  let pad := bs ++ List.replicate (60 - bs.length) 0
  (BitVec.ofNat 32 w0 :: wordsOf pad 7) :: (if more then [wordsOf (pad.drop 28) 8] else [])

/-- A frame of connection `c` leaves: as a DATA frame (`echo` false) or an ECHO frame. -/
def State.moveOut (s : State) (c : Nat) (echo : Bool) (fr : List Byte) : State :=
  if s.connRing c then s.ringPut 11 (frameEntries c fr)
  else s.moveCan (s.connByte c 2 % 4) (s.connByte c (if echo then 4 else 3)) fr

/-- The bytes of ring words, least significant first. -/
def bytesOfWords (ws : List Word) : List Byte := ws.flatMap fun w => leBytes 4 w.toNat

/-- A frame that waits in message object `m` of controller `n`: its bytes, with the object's new bit cleared (log entry 119). -/
def State.takeCan (s : State) (n m : Nat) : Option (List Byte × State) :=
  let w0 := s.obj n (3 + m) 0
  let w2 := s.obj n (3 + m) 2
  if s.bit (newBit n m) then
    some ((bytesOfWords (s.words (objAddr n (3 + m) 4) 16)).take (dlcLen (w0.getLsbD 30) (getBits w2 0 4)), s.setF (newBit n m) 0)
  else none

/-- A frame for connection `c` arrives: for a CAN connection from its message object, which an ECHO (`echo`) has of its own; for
a ring connection the entries at the head of RG10, where they name the connection. -/
def State.moveIn (s : State) (c : Nat) (echo : Bool) : Option (List Byte × State) :=
  if !s.connRing c then s.takeCan (s.connByte c 2 % 4) (s.connByte c (if echo then 4 else 3))
  else match s.ringTake 10 with
    | none => none
    | some (e, s1) =>
      let w0 := (e[0]?.getD 0).toNat
      let len := w0 / 0x100 % 64
      if w0 % 8 != c then none
      else if w0 / 0x10000 % 2 = 0 then some ((bytesOfWords (e.drop 1)).take len, s1)
      else match s1.ringTake 10 with
        | none => none
        | some (e2, s2) => some ((bytesOfWords (e.drop 1 ++ e2)).take len, s2)

/-! ## Consumers (R415) -/

/-- Connection `c`'s hidden state. -/
def State.conn (s : State) (c : Nat) : ConnSt := tblGet {} s.saf.conns c
/-- The state with connection `c` as `x`. -/
def State.setConn (s : State) (c : Nat) (x : ConnSt) : State := s.setSaf { s.saf with conns := tblSet s.saf.conns c x }

/-- A consumer of connection `c` accepts the frame (R415): check value, DATA of the configured n, sequence number 1 to 8 ahead
of the last accepted one where a reference is held. -/
def State.consumerAccepts (s : State) (c : Nat) (fr : List Byte) : Bool :=
  let n := s.connN c
  let ahead := (frameSeq fr + 65536 - s.f (F.SAFE_CONN_seq c)) % 65536
  frameKind fr == 1 && frameN fr == n && inRange 1 32 n && frameCheck (s.connId c) (3 + n) fr &&
    ((s.conn c).good == 0 || inRange 1 8 ahead)

/-- The safe data of an accepted frame take force: the run bit, and bytes 1 to n − 1 for the application. -/
def State.takeData (s : State) (c : Nat) (fr : List Byte) : State :=
  let d := (fr.drop 3).take (s.connN c)
  let run := (d[0]?.getD 0).getLsbD 0
  let x := s.conn c
  let s := (s.setConn c { x with data := d, latched := x.latched || !run }).setB (F.SAFE_CONN_run c) run
  if 1 < d.length then s.ringPut 11 (frameEntries c (d.drop 1)) else s

/-- A frame that consumer `c` accepts. -/
def State.frameAccept (s : State) (c : Nat) (fr : List Byte) : State :=
  let seq := frameSeq fr
  let x := s.conn c
  let next := x.good != 0 && seq == (s.f (F.SAFE_CONN_seq c) + 1) % 65536
  let valid := s.f (F.SAFE_CONN_state c) == 2 || next
  let s := s.setConn c { x with good := 1, due := some (s.now + 1000000 * s.connWd c) }
  let s := (s.setF (F.SAFE_CONN_seq c) seq).setF (F.SAFE_CONN_state c) (if valid then 2 else 1)
  let s := if valid then s.takeData c fr else s
  let s := s.moveOut c true (echoFrameOf (s.connId c) seq)
  let s := if s.connEv c then s.raiseDev 49 0 else s
  s.safeOutputs

/-- A frame that consumer `c` rejects: FAILSAFE, and the stop is latched. -/
def State.frameReject (s : State) (c : Nat) : State :=
  let s := (s.incSat (F.SAFE_CONN_rejected c)).setF (F.SAFE_CONN_state c) 1
  (s.setConn c { s.conn c with good := 0, latched := true }).safeOutputs

/-- SAFETY_FRAME_RECEIVED: `copy` says that the safety die's copy of the frame is the frame the core checks, so that both accept
it (R417). -/
def State.consumerFrame (s : State) (c : Nat) (copy : Bool) : State :=
  if s.connRole c != 1 then s
  else match s.moveIn c false with
    | none => s
    | some (f, s) => if s.consumerAccepts c f && copy then s.frameAccept c f else s.frameReject c

/-- CONSUMER_WATCHDOG. -/
def State.consumerTimeout (s : State) (c : Nat) : State :=
  match (s.conn c).due with
  | none => s
  | some t =>
    if s.connRole c != 1 then s
    else
      let s := s.at t
      let x := s.conn c
      let s := s.setConn c { x with good := 0, latched := true, due := none, data := List.replicate (s.connN c) 0 }
      (((s.setF (F.SAFE_CONN_state c) 1).setF (F.SAFE_CONN_run c) 0).raiseDev 50 0).safeOutputs

/-! ## Producers (R416) -/

/-- The safe data of a producer. -/
def State.producerData (s : State) (n : Nat) : List Byte :=
  let on := (List.range 8).foldl (fun a i => a + s.f (F.SAFE_STO_on i) * 2 ^ i) 0
  let run := (List.range 12).foldl (fun a i => a + ((pairOf s.saf.die i).st == 1).toNat * 2 ^ i) 0
  let dev := (s.safeState == 3).toNat + 2 * (s.safeState == 4).toNat
  ([BitVec.ofNat 8 on, BitVec.ofNat 8 run, BitVec.ofNat 8 (run / 256), BitVec.ofNat 8 dev] ++ List.replicate 28 0).take n

/-- PRODUCER_SEND: every period, from the acceptance of the set on. -/
def State.producerSend (s : State) (c : Nat) : State :=
  if s.connRole c != 2 then s
  else
    match (s.conn c).sendAt with
    | none => s
    | some t =>
      let s := (s.at t).incWrap (F.SAFE_CONN_seq c)
      let seq := s.f (F.SAFE_CONN_seq c)
      let x := s.conn c
      let s := s.setConn c { x with
        out := x.out ++ [(seq, s.now + 1000000 * s.connWd c)], sendAt := some (t + 1000000 * s.connPeriod c) }
      s.moveOut c false (dataFrame (s.connId c) seq (s.producerData (s.connN c)))

/-- An echo of producer `c` is missing or wrong. -/
def State.echoFail (s : State) (c : Nat) : State :=
  ((s.setConn c { s.conn c with good := 0 }).setF (F.SAFE_CONN_state c) 1).raiseDev 50 0

/-- ECHO_FRAME: the echo of a frame sent and not yet echoed; two right echoes in a row end FAILSAFE. -/
def State.echoIn (s : State) (c : Nat) (copy : Bool) : State :=
  if s.connRole c != 2 then s
  else match s.moveIn c true with
    | none => s
    | some (f, s) =>
      let x := s.conn c
      if copy && frameKind f == 2 && frameN f == 0 && frameCheck (s.connId c) 3 f && x.out.any (fun e => e.1 == frameSeq f) then
        let n := min 2 (x.good + 1)
        let s := s.setConn c { x with good := n, out := x.out.filter fun e => e.1 != frameSeq f }
        if n = 2 then s.setF (F.SAFE_CONN_state c) 2 else s
      else s.echoFail c

/-- ECHO_TIMEOUT: the oldest frame without an echo. -/
def State.echoLate (s : State) (c : Nat) : State :=
  match (s.conn c).out with
  | [] => s
  | e :: es =>
    if s.connRole c != 2 then s
    else
      let s := s.at e.2
      (s.setConn c { s.conn c with out := es }).echoFail c

/-! ## Meanings -/

/-- Frames cross only while both dies work. -/
def onBoth (s : State) (act : State → State) : Host.Outcome State Fault Refusal :=
  .next (if s.pwr.mainRst || s.pwr.safRst then s else act s)

/-- SAFETY_FRAME_RECEIVED (R415). -/
def execSafetyFrameReceived (c : Fin 8) (copy : Bool) (s : State) : Host.Outcome State Fault Refusal :=
  onBoth s fun s => s.consumerFrame c copy
/-- CONSUMER_WATCHDOG (R415). -/
def execConsumerWatchdog (c : Fin 8) (s : State) : Host.Outcome State Fault Refusal := onBoth s fun s => s.consumerTimeout c
/-- PRODUCER_SEND (R416). -/
def execProducerSend (c : Fin 8) (s : State) : Host.Outcome State Fault Refusal := onBoth s fun s => s.producerSend c
/-- ECHO_FRAME (R416). -/
def execEchoFrame (c : Fin 8) (copy : Bool) (s : State) : Host.Outcome State Fault Refusal :=
  onBoth s fun s => s.echoIn c copy
/-- ECHO_TIMEOUT (R416). -/
def execEchoTimeout (c : Fin 8) (s : State) : Host.Outcome State Fault Refusal := onBoth s fun s => s.echoLate c

end Sys2Proof.Machine
end

