-- ==== Sys2Proof/Machine/Lifecycle.lean ====
section
/-! DEFINITION. Lifecycle, boot, tokens, test multiplexer, keeper watchdog and re-fetch (16_lifecycle_security.md, R47, R502). -/

namespace Sys2Proof.Machine

/-! ## Alerts and what DEV and SEC show -/

/-- EV59 with its cause: 1 BOOT, 2 TOKEN, 3 KEEPER, 4 JTAG, 5 OTP (R464). -/
def State.secAlert (s : State) (cause : Nat) : State :=
  ((s.incSat F.SEC_STS_alerts).setF F.SEC_ALERT_cause cause).raiseDev 59 cause

/-- The recorded target (R458): 2 SCRAPPED, 1 FIELD_OPEN, 0 none. -/
def SecSt.target (x : SecSt) : Nat := if x.scrapMark then 2 else if x.openMark then 1 else 0
/-- Lifecycle state of a target. -/
def targetState (t : Nat) : Nat := if t = 2 then 5 else 4
/-- A recorded target is not yet reached (R458). -/
def SecSt.opening (x : SecSt) : Bool :=
  x.target != 0 && x.lifecycle != targetState x.target && x.lifecycle != 5

/-- DEV_LC, DEV_SVN and SEC_UID show OTP. -/
def State.otpShow (s : State) : State :=
  let x := s.sec
  let s := ((s.setF F.DEV_LC_state x.lifecycle).setB F.DEV_LC_opening x.opening).setF F.DEV_LC_target x.target
  let s := (s.setB F.DEV_LC_jtag x.jtag).setF F.DEV_SVN_svn x.svnMin
  (List.range 4).foldl (fun s k => s.setF (F.SEC_UID_uid k) (x.uid.toNat / 2 ^ (32 * k))) s

/-- The lifecycle state permits test multiplexer code `c` (R459). -/
def tmxAllowed (lc c : Nat) : Bool :=
  let safe := c ≤ 3 || inRange 0x10 0x17 c || inRange 0x20 0x3F c || inRange 0x40 0x67 c
  if c = 0 then true
  else if lc = 2 || lc = 3 then safe
  else if lc = 1 || lc = 4 then safe || 0x80 ≤ c
  else false

/-- A selected test multiplexer code that the lifecycle state no longer permits sets DBG_STS.tmx_denied (R459). -/
def State.tmxJudge (s : State) : State :=
  if (List.range 8).any fun k => !tmxAllowed s.sec.lifecycle (s.f (F.DBG_TMX_SEL_code k)) then s.setF F.DBG_STS_tmx_denied 1 else s

/-- The state with the security part `x`, shown in the registers; a move of the lifecycle state judges the selected codes. -/
def State.setSec (s : State) (x : SecSt) : State :=
  let t := { s with sec := x }.otpShow
  if x.lifecycle = s.sec.lifecycle then t else t.tmxJudge

/-- A new nonce (R456): a free value. -/
def State.newNonce (s : State) : State :=
  (List.range 4).foldl (fun s k => let v := s.free 32; v.2.setF (F.SEC_NONCE_nonce k) v.1.toNat) s

/-! ## Schedule table (R45–R47) -/

/-- The slice that an entry's four words name (R45). -/
def SliceEntry.slice (e : SliceEntry) : Slice :=
  { ctx := getBits e.w0 0 6, lane := getBits e.w0 8 3, k := getBits e.w0 16 4, start := getBits e.w1 0 20,
    budget := getBits e.w2 0 20, tile := getBits e.w3 0 11, word := getBits e.w3 11 8, stage := e.stage }

/-- The reserved bits of an entry are zero (R45). -/
def SliceEntry.reservedZero (e : SliceEntry) : Bool :=
  (e.w0 &&& 0xFFF0F8C0) == 0 && (e.w1 &&& 0xFFF00000) == 0 && (e.w2 &&& 0xFFF00000) == 0 && (e.w3 &&& 0xFFF80000) == 0

/-- The table that a record brings (R45). -/
def SchedRec.table (r : SchedRec) : Sched :=
  { formatOk := r.formatOk && r.entries.all SliceEntry.reservedZero, slices := r.entries.map SliceEntry.slice,
    resident := r.resident, owners := r.owners, drives := r.drives, svcAddr := r.svcAddr }

/-- Two slices of one lane keep the distance of R46, `x` first. -/
def Slice.before (x y : Slice) : Bool := x.start + x.budget + 8 + 128 * y.k ≤ y.start

/-- Instances of a couchable kind that the part has (R54, R2). -/
def Part.instances (p : Part) : Nat → Nat
  | 1 => 8
  | 2 => if p.mmc then 12 else 0
  | 3 => p.lanes
  | 4 => p.lanes
  | 5 => 8
  | 6 => 18
  | 7 => 8
  | _ => 0

/-- FORMAT. A slice entry against the ranges of R45 and a service result address that is not aligned to 8 bytes in data memory
fail with this code (log entry 101). -/
def Sched.formatGood (t : Sched) : Bool :=
  t.formatOk && t.slices.length ≤ 256 && (t.svcAddr.all fun e => e.2 % 8 == 0 && e.2 + 8 ≤ 0x200000) &&
    t.slices.all fun x => x.k ≤ 8 && x.k == x.stage.length && 1 ≤ x.budget && x.tile < 2048 && x.word < 256 && x.ctx < 64

/-- VARIANT. -/
def Sched.variantGood (p : Part) (t : Sched) : Bool :=
  (t.slices.all fun x => x.lane < p.lanes) && (t.resident.all fun r => r.1 < p.lanes) &&
  (t.owners.all fun o => o.last < p.instances o.kind) && t.drives.all fun d => d.2 < 2 ^ p.lanes

/-- CONTEXT. -/
def Sched.contextGood (t : Sched) : Bool :=
  (t.slices.all fun x => x.ctx != 0) && t.drives.all fun d => d.2 == 0 || t.owners.any fun o => o.ctx == d.1

/-- OVERLAP: every slice after its own staging, and every two slices of one lane apart. -/
def Sched.overlapGood (t : Sched) : Bool :=
  (t.slices.all fun x => 128 * x.k ≤ x.start) &&
  (List.range t.slices.length).all fun i => (List.range i).all fun j =>
    match t.slices[i]?, t.slices[j]? with
    | some x, some y => x.lane != y.lane || x.before y || y.before x
    | _, _ => true

/-- OWNER: no target has two owners, and an owner context has a slice. -/
def Sched.ownerGood (t : Sched) : Bool :=
  ((List.range t.owners.length).all fun i => (List.range i).all fun j =>
    match t.owners[i]?, t.owners[j]? with
    | some a, some b => a.ctx == b.ctx || a.kind != b.kind || a.last < b.first || b.last < a.first
    | _, _ => true) &&
  t.owners.all fun o => t.slices.any fun x => x.ctx == o.ctx

/-- SLOTS. -/
def Sched.slotsGood (t : Sched) : Bool :=
  t.slices.all fun x =>
    (x.stage.all fun e => e.2 < 32 && !t.resident.any fun r => r.1 == x.lane && r.2.1 == e.2) &&
    ((x.stage.any fun e => e.1 == x.tile) || t.resident.any fun r => r.1 == x.lane && r.2.2 == x.tile)

/-- TILE: no program tile named is quarantined. -/
def State.schedTiles (s : State) (t : Sched) : Bool :=
  (t.slices.all fun x => !s.quarantined x.tile && x.stage.all fun e => !s.quarantined e.1) &&
  t.resident.all fun r => !s.quarantined r.2.2

/-- The check of R47 that fails first, 0 for none. -/
def State.schedCheck (s : State) (t : Sched) : Nat :=
  if !t.formatGood then 1
  else if !t.variantGood s.part then 2
  else if !t.contextGood then 3
  else if !t.overlapGood then 4
  else if !t.fits (windowCycles s.startPeriod (s.f F.TIME_COUCH_LEAD_lead)) then 5
  else if !t.ownerGood then 6
  else if !t.slotsGood then 7
  else if !s.schedTiles t then 8
  else 0

/-- The registers of context `c` load from an accepted table (R68): its first 16 ownership ranges show (log entry 103). -/
def State.ctxLoad (t : Sched) (s : State) (c : Nat) : State :=
  let xs := t.slices.filter fun x => x.ctx == c
  let s := s.setF (F.CTX_STS_state c) (if c = 0 then 3 else if xs.isEmpty then 0 else 1)
  let s := s.setF (F.CTX_BUDGET_budget c) (xs.foldl (fun a x => a + x.budget) 0)
  let s := s.setF (F.CTX_SAFE_DRIVES_drives c) ((t.drives.find? fun d => d.1 == c).getD (0, 0)).2
  let os := (t.owners.filter fun o => o.ctx == c).take 16
  ((List.range os.length).foldl (fun s m => match os[m]? with
    | some o => ((s.setF (F.CTX_OWN_kind c m) o.kind).setF (F.CTX_OWN_first c m) o.first).setF (F.CTX_OWN_last c m) o.last
    | none => s) s)

/-- The keeper loads and verifies a schedule table; an accepted one stages the resident tiles (R47, R50). -/
def State.schedLoad (s : State) (t : Sched) : State :=
  let e := s.schedCheck t
  let top := (t.slices.map Slice.ctx ++ t.owners.map Own.ctx ++ t.drives.map (·.1)).foldl max 0
  let s := (s.setF F.TILE_SCHED_STS_loaded 1).setF F.TILE_SCHED_STS_error e
  let s := (s.setF F.TILE_SCHED_INFO_slices t.slices.length).setF F.TILE_SCHED_INFO_top_context top
  if e != 0 then { s with eng := { s.eng with sched := none } }.setF F.TILE_SCHED_STS_verified 0
  else
    let s := { s with eng := { s.eng with sched := some t } }.setF F.TILE_SCHED_STS_verified 1
    let s := (List.range 64).foldl (State.ctxLoad t) s
    t.resident.foldl (fun s r => s.stageTile false r.1 r.2.2 r.2.1) s

/-- No schedule table is loaded. -/
def State.schedDrop (s : State) : State :=
  let s := (s.setReg R.TILE_SCHED_STS 0).setReg R.TILE_SCHED_INFO 0
  { s with eng := { s.eng with sched := none } }

/-! ## Boot (R449–R454) -/

/-- The lifecycle state admits an image of this kind (R448, R450, R453). -/
def SecSt.admits (x : SecSt) (i : Image) : Bool :=
  (match x.lifecycle with
    | 1 => i.vendorTest
    | 2 => i.provision && !i.vendorTest
    | 3 => !i.provision && !i.vendorTest
    | 4 => !i.provision && !i.vendorTest
    | _ => false) &&
  i.otherKinds == 0 && i.scheds.length ≤ 1 && i.safetyCrc.length ≤ 1 && i.imageKey.length ≤ 1 &&
  (i.imageKey.isEmpty || i.provision) && i.imageKey.all fun k => k.1 == 1

/-- The key that verifies the customer signature (R451). -/
def SecSt.verifyKey (x : SecSt) (i : Image) : BitVec 768 := if x.lifecycle = 2 then i.customerKey else x.customerKey

/-- The image key that opens the tiles of `i` (R452, R453). -/
def SecSt.tileKey (x : SecSt) (i : Image) : Option (BitVec 256) :=
  if i.provision then i.imageKey.head?.bind fun k => Config.keyUnwrap Config.transportKey k.2 else x.imageKey

/-- The 96-bit IV of a tile record (R452). -/
def tileIv (i : Image) (t : TileRec) : BitVec 96 :=
  let bs := leBytes 4 i.svn ++ leBytes 1 t.kind ++ [0] ++ leBytes 2 t.tile ++ [0, 0, 0, 0]
  BitVec.ofNat 96 (beNat bs)

/-- The plaintext of a tile record; `none` where it cannot be had (R451 code 7). -/
def SecSt.plain (x : SecSt) (i : Image) (t : TileRec) : Option (List Word) :=
  if !t.encrypted then some t.words
  else if x.lifecycle = 4 then none
  else (x.tileKey i).bind fun k => Config.gcmDecrypt k (tileIv i t) t.tag t.words

/-- The boot check that fails first, 0 for none (R451). The customer signature does not apply to vendor test images. -/
def SecSt.bootError (x : SecSt) (i : Image) : Nat :=
  if i.magic != 0x38564C4F || 0x400000 < i.length then 1
  else if !x.admits i then 2
  else if !Config.ecdsaVerify Config.vendorKey (i.manifest.take 64) i.vendorSig then 3
  else if x.lifecycle != 1 && !Config.ecdsaVerify (x.verifyKey i) i.manifest i.customerSig then 4
  else if i.svn < x.svnMin then 5
  else if Config.sha384 i.keeper != i.keeperHash || Config.sha384 i.app != i.appHash then 6
  else if (i.tiles.any fun t => (x.plain i t).isNone) ||
      (i.imageKey.any fun k => (Config.keyUnwrap Config.transportKey k.2).isNone) then 7
  else 0

/-- What an accepted image changes for good: the security version, and in PROVISIONED the keys and the state (R451, R453). -/
def SecSt.accept (x : SecSt) (i : Image) : SecSt :=
  let x' := { x with svnMin := max x.svnMin i.svn }
  if x.lifecycle = 2 then { x' with customerKey := i.customerKey, imageKey := x.tileKey i, lifecycle := 3 } else x'

/-- The keeper enters RECOVERY (R454). -/
def State.enterRecovery (s : State) : State :=
  ((s.setF F.DEV_LOCK_STS_phase 3).setF (F.CTX_STS_state 0) 3).schedDrop

/-- A boot fails with `code`. A BLANK device stays held in START (R448). -/
def State.bootFail (s : State) (code : Nat) : State :=
  let s := ((s.setF F.DEV_BOOT_status 2).setF F.DEV_BOOT_error code).secAlert 1
  if s.sec.lifecycle = 0 then s else s.enterRecovery

/-- Number of a tile among all. -/
def tileNo (kind tile : Nat) : Nat := if kind = 1 then tile else 2048 + tile
/-- The record names a tile of program or table memory. -/
def TileRec.inRange (t : TileRec) : Bool := (t.kind == 1 && t.tile < 2048) || (t.kind == 2 && t.tile < 1024)

/-- The keeper writes one tile and computes its watermark (R451, R504). -/
def State.tileLoad (x : SecSt) (i : Image) (s : State) (t : TileRec) : State :=
  if !t.inRange then s
  else
    let ws := ((x.plain i t).getD []).take 256
    let s := s.putWords (tileAddr (tileNo t.kind t.tile)) ws
    { s with eng := { s.eng with wm := tblSet s.eng.wm (tileNo t.kind t.tile) (s.tileCrc (tileNo t.kind t.tile)) } }

/-- An image is admitted: the tiles, their watermarks and the schedule table, then the phase (R451, R504). -/
def State.takeImage (s : State) (i : Image) (fromFlash : Bool) : State :=
  let x := s.sec
  let s := (s.clearBytes progBase 0x200000).clearBytes tableBase 0x100000
  let s := { s with eng := { s.eng with quar := [], stuck := [], wm := [], scrub := true, scrubAt := s.now, scrubTile := 0 } }
  let s := (i.tiles.foldl (State.tileLoad x i) s).quarSync
  let s := s.setSec { x.accept i with image := some i, fromFlash := fromFlash }
  let s := (s.setF (F.CTX_STS_state 0) 3).setF F.DEV_LOCK_STS_phase (if x.lifecycle = 1 then 2 else 1)
  match i.scheds.head? with
  | some t => s.schedLoad t.table
  | none => s

/-- Steps 2 and 3 of R457: the key store is zeroised, then every tile. -/
def State.eraseMem (s : State) (steps : Nat) : State :=
  let s := if 2 ≤ steps then { s with sec := { s.sec with imageKey := none } } else s
  if steps < 3 then s
  else
    let s := (s.clearBytes progBase 0x200000).clearBytes tableBase 0x100000
    { s with eng := { s.eng with
      quar := s.eng.quar ++ (List.range 3072).filter fun t => !s.eng.quar.contains t } }.quarSync

/-- The keeper steps of R457 from step 2: erase, evidence, the recorded target. `nonce` is the nonce of the token or of this
start; `erased` says that every byte read back as zero. `steps` is the last step that ends; where it is not 6, the next one is
in progress when the reset comes (log entry 91). -/
def State.eraseRun (s : State) (nonce : List Byte) (erased : Bool) (steps : Nat) : State :=
  let s := s.eraseMem steps
  if steps < 4 then s.setF F.SEC_TOKEN_STS_step (max 2 (steps + 1))
  else if erased then
    let s := s.setF F.SEC_ERASE_confirm (crc32c (nonce ++ List.replicate 3149824 0)).toNat
    let t := targetState s.sec.target
    if steps = 4 then s.setF F.SEC_TOKEN_STS_step 5
    else if steps = 5 then (s.setSec { s.sec with lifecycle := t, jtag := false }).setF F.SEC_TOKEN_STS_step 6
    else ((s.setSec { s.sec with lifecycle := t, jtag := t == 4 }).enterRecovery).setF F.SEC_TOKEN_STS_result 7
  else
    let v := s.free 32
    let s := v.2.setF F.SEC_ERASE_confirm v.1.toNat
    ((s.setSec { s.sec with lifecycle := 5, jtag := false }).enterRecovery).setF F.SEC_TOKEN_STS_result 6

/-- The nonce in force, as bytes. -/
def State.nonceBytes (s : State) : List Byte := (List.range 4).flatMap fun k => leBytes 4 (s.f (F.SEC_NONCE_nonce k))

/-- The loader boots from the boot flash. -/
def State.flashBoot (s : State) : State :=
  match s.sec.flash with
  | none => s.bootFail 1
  | some i =>
    let e := s.sec.bootError i
    if e != 0 then s.bootFail e else ((s.setF F.DEV_BOOT_status 1).setF F.DEV_BOOT_error 0).takeImage i true

/-- What the loader does at a start (R448, R449, R458). -/
def State.bootStart (s : State) (erased : Bool) (steps : Nat) : State :=
  if s.sec.opening then s.eraseRun s.nonceBytes erased steps
  else
    let mode := s.f F.DEV_BOOT_mode
    match s.sec.lifecycle with
    | 0 => s
    | 5 => s.enterRecovery
    | _ => if mode = 0 then s.flashBoot else if mode = 1 || mode = 2 then s else s.enterRecovery

/-- CLK_RST_CAUSE at the end of a reset (R490): a power-up of VCORE has cleared what stood there and every cause before it. -/
def State.causesShow (s : State) : State :=
  let c := s.pwr.causes
  let s := s.setReg R.CLK_RST_CAUSE (if c.getLsbD 0 then c else s.reg R.CLK_RST_CAUSE ||| c)
  if c.getLsbD 2 then s.setF F.CLK_RST_CAUSE_rail s.pwr.rail else s

/-- A cause that the device has measured still holds the main die in reset: a rail of 0–4 outside its reset window, or the
junction not below 120 °C since a thermal reset (R468, R474). -/
def State.heldInReset (s : State) : Bool :=
  s.pwr.mainRst && (s.pwr.hotRst || (List.range 5).any fun r => tblGet 0 s.pwr.railOut r != 0)

/-- PORST_RELEASE: the last reset cause of the main die ends; it cannot while a measured one holds. -/
def State.porstRelease (s : State) (straps : BitVec 3) (erased : Bool) (steps : Nat) : State :=
  if (!s.pwr.mainRst && !s.pwr.bootPend) || s.heldInReset then s
  else
    let s := s.causesShow
    let failed := s.pwr.clockFail
    let s := { s with pwr := { s.pwr with mainRst := false, bootPend := false, causes := 0, clockFail := false } }
    let s := s.setSaf { s.saf with selfDone := false }
    let s := (s.setF F.CLK_STS_island_ok 1).setF F.DEV_BOOT_mode straps.toNat
    let jtag := s.sec.lifecycle == 0 || s.sec.lifecycle == 1 || s.sec.lifecycle == 4
    let s := (s.setSec { s.sec with jtag := jtag && !s.sec.opening }).newNonce
    let s := if failed then s.raiseDev 57 1 else s
    s.bootStart erased steps

/-- BOOT_GO: a write of 1 to DEV_BOOT.go (R452, R454). In RECOVERY an image is verified and can be flashed; the phase stays.
While a recorded target is not reached the loader admits no image: the write has no effect (R458; log entry 134). -/
def State.bootGo (s : State) (program : Bool) : State :=
  if (s.phase != 0 && s.phase != 3) || s.sec.opening then s
  else
    let i := s.hostImage
    let e := s.sec.bootError i
    if e != 0 then s.bootFail e
    else
      let keeps := program && !s.sec.noFlash
      let s := (s.setF F.DEV_BOOT_status (if keeps then 3 else 1)).setF F.DEV_BOOT_error 0
      let s := if keeps then { s with sec := { s.sec with flash := some i } } else s
      if s.phase = 3 then s.setSec (s.sec.accept i) else s.takeImage i false

/-! ## Tokens (R456–R458) -/

/-- The 136 token bytes at SEC_TOKEN.addr. -/
def State.tokenBytes (s : State) : List Byte := memBytes s.mem (dataBase + 32 * s.f F.SEC_TOKEN_addr) 136

/-- The token check that fails first, 0 for none (R457). -/
def State.tokenError (s : State) (t : List Byte) : Nat :=
  let target := (t[4]?.getD 0).toNat
  let lc := s.sec.lifecycle
  let enabled := (List.range 8).any fun k => s.bit (F.PROT_CV_CTL_en k)
  let key := if target = 2 && lc = 2 then Config.vendorKey else s.sec.customerKey
  if (target = 1 && lc != 3) || (target = 2 && (lc = 0 || lc = 1 || lc = 5)) || s.running || enabled then 1
  else if leNat (t.take 4) != 0x4E4B5455 || !(target = 1 || target = 2) || leNat ((t.drop 5).take 3) != 0 then 2
  else if leNat ((t.drop 8).take 16) != s.sec.uid.toNat then 3
  else if (t.drop 24).take 16 != s.nonceBytes then 4
  else if !Config.ecdsaVerify key (t.take 40) (BitVec.ofNat 768 (beNat (t.drop 40))) then 5
  else 0

/-- TOKEN: a write of 1 to SEC_TOKEN.go with the key. -/
def State.token (s : State) (erased : Bool) (steps : Nat) : State :=
  let t := s.tokenBytes
  let e := s.tokenError t
  let s := s.newNonce
  if e != 0 then (s.setF F.SEC_TOKEN_STS_result e).secAlert 2
  else if steps = 0 then s.setF F.SEC_TOKEN_STS_step 1
  else
    let x := s.sec
    let s := s.setSec { x with openMark := x.openMark || t[4]?.getD 0 == 1, scrapMark := x.scrapMark || t[4]?.getD 0 == 2 }
    s.eraseRun ((t.drop 24).take 16) erased steps

/-! ## JTAG, test multiplexer, watchdog, re-fetch -/

/-- JTAG_INSTRUCTION (R448): in a closed state an instruction other than IDCODE and BYPASS selects BYPASS. -/
def State.jtag (s : State) (ir : JtagInstr) : State :=
  let lc := s.sec.lifecycle
  let closed := lc = 2 || lc = 3 || lc = 5
  if closed && ir = .other then { s with sec := { s.sec with jtagIr := .bypass } }.secAlert 4
  else { s with sec := { s.sec with jtagIr := ir } }

/-- The code whose signal drives TMXk; 0 is low (R459, R464). -/
def State.tmxCode (s : State) (k : Nat) : Nat :=
  let c := s.f (F.DBG_TMX_SEL_code k)
  if s.bit F.DBG_CTL_tmx_en && tmxAllowed s.sec.lifecycle c then c else 0

/-- Level of TMXk at instant `t` (R459): a strobe is high for 40 ns from its instant, the tick from its start for T / 2. `none`
for the internal signals of codes 0x80 upward, which the spec does not list. -/
def State.tmxLevel (s : State) (k t : Nat) : Option Bool :=
  let strobe := fun (a : Option Nat) => some (a.any fun a => a ≤ t && t < a + 40)
  let sent := fun (b : Bool) (a : Nat) => if b then some a else none
  let c := s.tmxCode k
  if c = 0 then some false
  else if c = 1 then
    let t := s.eng.haltAt.getD t
    some (s.running && s.tm.start ≤ t && 2 * (t - s.tm.start) < s.periodNs)
  else if c = 2 then strobe (sent s.running s.sns.sampleAt)
  else if c = 3 then strobe (sent (s.running && s.tm.phase == 3) s.couchAt)
  else if c < 0x20 then strobe (s.md (c - 0x10)).reloadAt
  else if c < 0x30 then let x := s.lane (c - 0x20); strobe (sent (!x.frame.isEmpty) x.sof)
  else if c < 0x40 then strobe (s.lane (c - 0x30)).upAt
  else if c < 0x80 then some (s.bit (F.SNS_SD_STS_fast_act (c - 0x40)))
  else none

/-- A write of DBG_TMX_SELk. -/
def State.tmxSelect (s : State) (k : Nat) (code : BitVec 8) : State :=
  let s := s.setF (F.DBG_TMX_SEL_code k) code.toNat
  if tmxAllowed s.sec.lifecycle code.toNat then s else s.setF F.DBG_STS_tmx_denied 1

/-- KEEPER_WATCHDOG (R455): the keeper has not served its watchdog for 10 ms. -/
def State.keeperDead (s : State) : State :=
  if !s.keeperUp || s.f F.DEV_LOCK_STS_phase = 0 || s.sec.wdFired then s
  else
    let s := ({ s with sec := { s.sec with wdFired := true } }.incSat F.SEC_STS_alerts).setF F.SEC_ALERT_cause 3
    let scope := s.demandScopes (List.range 8) 10
    let s := (List.range 8).foldl (fun s k => s.demand k 10 1 59) s
    s.raise 59 3 s.scopeDev scope

/-- The record of program tile `t` in the admitted image. -/
def State.tileRecord (s : State) (t : Nat) : Option (Image × TileRec) :=
  s.sec.image.bind fun i => (i.tiles.find? fun r => r.kind == 1 && r.tile == t).map fun r => (i, r)

/-- TILE_REFETCH_DONE (R502). A tile whose re-fetch fails stays quarantined until the next PORST_N. -/
def State.refetchDone (s : State) : State :=
  match s.eng.refetch with
  | none => s
  | some t =>
    let s := { s with eng := { s.eng with refetch := none } }
    let stay := { s with eng := { s.eng with stuck := s.eng.stuck ++ [t] } }
    let words := match s.tileRecord t with
      | none => some (List.replicate 256 0)
      | some (i, r) => if s.sec.fromFlash && s.sec.flash == some i then (s.sec.plain i r).map (·.take 256) else none
    if s.phase = 3 then s
    else match words with
      | none => stay
      | some ws =>
        let s' := s.putWords (progBase + 0x400 * t) ws
        if s'.tileCrc t = s'.wm t then s'.unquarantine t
        else { s' with eng := { s'.eng with stuck := s'.eng.stuck ++ [t] } }

/-! ## Meanings -/

/-- PORST_RELEASE (R449). -/
def execPorstRelease (straps : BitVec 3) (erased : EraseRun) (s : State) : Host.Outcome State Fault Refusal :=
  .next (s.porstRelease straps erased.erased erased.steps)
/-- BOOT_GO (R452). -/
def execBootGo (program : Bool) (s : State) : Host.Outcome State Fault Refusal := onMain s fun s => s.bootGo program
/-- TOKEN (R457). -/
def execToken (erased : EraseRun) (s : State) : Host.Outcome State Fault Refusal :=
  onMain s fun s => s.token erased.erased erased.steps
/-- JTAG_INSTRUCTION (R448). -/
def execJtagInstruction (ir : JtagInstr) (s : State) : Host.Outcome State Fault Refusal := onMain s fun s => s.jtag ir
/-- TMX_SELECT (R459). -/
def execTmxSelect (k : Fin 8) (code : BitVec 8) (s : State) : Host.Outcome State Fault Refusal :=
  onMain s fun s => s.tmxSelect k code
/-- KEEPER_WATCHDOG (R455). -/
def execKeeperWatchdog (s : State) : Host.Outcome State Fault Refusal := onMain s State.keeperDead
/-- TILE_REFETCH_DONE (R502). -/
def execTileRefetchDone (s : State) : Host.Outcome State Fault Refusal := onMain s State.refetchDone

end Sys2Proof.Machine
end

