-- ==== Sys2Proof/Machine/Power.lean ====
section
/-! DEFINITION. Resets, clocks, supply and temperature monitors (17_power_pins_ratings.md). -/

namespace Sys2Proof.Machine

/-! ## Resets (R468–R471, R490) -/

/-- Bit of a reset cause in CLK_RST_CAUSE. -/
def causeBit : ResetCause → Nat
  | .powerUp => 0
  | .pin => 1
  | .supply _ => 2
  | .thermal => 4
  | .island => 5

/-- Registers of the SAFE block that show the safety die, and the reset causes: a main-die reset leaves them (R387, R419,
R470, R490). -/
def keptOverReset (a : Nat) : Bool :=
  (0x130000 ≤ a && a < 0x130100 && a != R.SAFE_REQ && a != R.SAFE_PLOAD && a != R.SAFE_COMM_KEY) || a == R.CLK_RST_CAUSE

/-- What the safety die keeps when the safety core falls into reset with the main die (R387, R468). -/
def SafeSt.coreLost (x : SafeSt) : SafeSt :=
  { x with core := {}, conns := x.conns.map (fun e => (e.1, { e.2 with good := 0, latched := true, due := none, out := [] })),
           selfDone := false, checking := false, armed := false, nipRow := 0, clkRow := 0, clkRowCore := 0 }

/-- A connection in use falls to FAILSAFE. -/
def State.connDown (s : State) (c : Nat) : State :=
  if s.f (F.SAFE_CONN_state c) = 0 then s else (s.setF (F.SAFE_CONN_state c) 1).setF (F.SAFE_CONN_run c) 0

/-- The main die enters reset for the cause of bit `bit`, a power-up of VCORE dropping every other cause (R490): every register, memory and mode of the main die goes; OTP, key
store, boot flash, the safety die, the balls' levels and the waiting commands stay (R468, R469). -/
def State.mainReset (s : State) (bit rail : Nat) : State :=
  let causes := if bit = 0 then 1 else s.pwr.causes ||| BitVec.ofNat 32 (2 ^ bit)
  let pwr := { s.pwr with causes := causes, rail := if bit = 2 then rail else s.pwr.rail }
  if s.pwr.mainRst then { s with pwr := pwr }
  else
    let t : State :=
      { pending := s.pending, freeCtr := s.freeCtr, part := s.part, regs := s.regs.filter fun e => keptOverReset e.1,
        mem := s.mem.filter (fun e => setHeld ≤ e.1),
        host := { perstN := s.host.perstN },
        sec := { s.sec with image := none, fromFlash := false, wdFired := false, jtag := false, jtagIr := .idcode },
        pwr := { mainRst := true, bootPend := true, safRst := s.pwr.safRst, safPend := s.pwr.safPend, causes := causes,
                 rail := pwr.rail, clockFail := s.pwr.clockFail, gpio := s.pwr.gpio, railOut := s.pwr.railOut,
                 hotRst := s.pwr.hotRst },
        saf := s.saf.coreLost, gateNet := s.gateNet }
    ((List.range 8).foldl State.connDown t).safeMirror

/-- SAFETY_DIE_RESET (R470): its outputs go low, the gate-enable net becomes inactive, the channels start anew. -/
def State.safetyReset (s : State) : State :=
  if s.pwr.safRst then s
  else
    let s := s.netLoss
    let s := { s with regs := tblDelRange s.regs 0x130000 0x130100,
                      saf := { stored := s.saf.stored, storedConf := s.saf.storedConf },
                      pwr := { s.pwr with safRst := true } }
    let s := (s.clearBytes setHeld setLen).clearBytes setNew setLen
    s.ss1Requests

/-- SAFETY_DIE_RELEASE: INIT (R389, R470), unless the last measurement of SVDD lies outside its reset window; `xtal` says that
the crystal oscillates within 5 ms (R478). -/
def State.safetyRelease (s : State) (xtal : Bool) : State :=
  if (!s.pwr.safRst && !s.pwr.safPend) || tblGet 0 s.pwr.railOut 5 != 0 then s
  else
    let s := { s with pwr := { s.pwr with safRst := false, safPend := false },
                      saf := { stored := s.saf.stored, storedConf := s.saf.storedConf } }
    s.setB F.SAFE_CLK_xtal xtal

/-! ## Clocks (R30, R471, R476, R477) -/

/-- PLL_LOCK: global time starts at 0, the clock monitor is armed. -/
def State.pllLock (s : State) : State :=
  if s.pwr.locked then s
  else
    let s := { s with pwr := { s.pwr with locked := true }, tm := { s.tm with now := 0 } }
    (s.setF F.CLK_STS_pll_lock 1).setF F.CLK_STS_ref_ok 1

/-- RSTOUT_RELEASE: 1 ms after the lock. -/
def State.rstoutRelease (s : State) : State :=
  if !s.pwr.locked || s.pwr.rstoutN then s
  else let s := s.at 1000000; { s with pwr := { s.pwr with rstoutN := true } }

/-- CLOCK_FAILURE: the armed clock monitor resets the main die; EV57 follows after the reset (R477). -/
def State.clockFailure (s : State) : State :=
  if !s.pwr.locked then s
  else { s with pwr := { s.pwr with clockFail := true } }.mainReset 3 0

/-! ## Monitors (R472–R474) -/

/-- Warning window of a rail in mV. -/
def warnWindow : Nat → Nat × Nat
  | 0 => (770, 830)
  | 1 => (865, 935)
  | 2 => (1690, 1910)
  | 3 => (3100, 3500)
  | 4 => (1730, 1870)
  | _ => (3100, 3500)

/-- Reset window of a rail in mV. -/
def resetWindow : Nat → Nat × Nat
  | 0 => (740, 880)
  | 1 => (830, 970)
  | 2 => (1620, 1980)
  | 3 => (2950, 3650)
  | 4 => (1620, 1980)
  | _ => (2950, 3650)

/-- A rail reads `mv`: the warning window of R473. -/
def State.supplyWarn (s : State) (rail mv : Nat) : State :=
  let w := warnWindow rail
  let inside := inRange w.1 w.2 mv
  let seen := tblGet 2 s.pwr.railIn rail
  let s := (s.setF (F.CLK_SUP_mv rail) mv).setB ⟨R.CLK_SUP_STS, rail, 1⟩ inside
  if inside then { s with pwr := { s.pwr with railIn := tblSet s.pwr.railIn rail (min 2 (seen + 1)) } }
  else
    let s := { s with pwr := { s.pwr with railIn := tblSet s.pwr.railIn rail 0 } }
    let s := if seen = 0 then s else s.setF ⟨R.CLK_SUP_STS, 8 + rail, 1⟩ 1
    if seen = 2 then s.raiseAt (if rail = 5 then s.now + 2000 else s.now) (rail == 5) 55 (rail + 0x100 * (decide (w.2 < mv)).toNat) s.scopeDev scopeNone else s

/-- SUPPLY_MEASUREMENT: rails 0–4 outside their reset window reset the main die, rail 5, which the main die reports first, the
safety die (R468, R470, R473). VCORE below its reset window and its return are a power-up (R490). -/
def State.supplyMeasured (s : State) (rail mv : Nat) : State :=
  let r := resetWindow rail
  let was := tblGet 0 s.pwr.railOut rail
  let out := if mv < r.1 then 1 else if r.2 < mv then 2 else 0
  let s := { s with pwr := { s.pwr with railOut := tblSet s.pwr.railOut rail out } }
  if rail = 5 then
    let s := if s.pwr.mainRst || s.pwr.safRst then s else s.supplyWarn rail mv
    if out = 0 then s else s.safetyReset
  else if out != 0 then
    if rail = 0 && out = 1 then s.mainReset 0 0 else s.mainReset 2 rail
  else if s.pwr.mainRst then (if rail = 0 && was = 1 then { s with pwr := { s.pwr with causes := 1 } } else s)
  else s.supplyWarn rail mv

/-- TEMPERATURE_READING (R474): 140 °C and more resets the main die, until a reading below 120 °C; a reset at another
temperature of 135 °C to 145 °C is MAIN_DIE_RESET (log entry 122). -/
def State.temperature (s : State) (code : Nat) : State :=
  if (140 + 64) * 4 ≤ code then { s with pwr := { s.pwr with hotRst := true } }.mainReset 4 0
  else if s.pwr.mainRst then
    (if code < (120 + 64) * 4 then { s with pwr := { s.pwr with hotRst := false } } else s)
  else
    let s := s.setF F.CLK_TEMP_temp code
    let warn := s.f F.CLK_TEMP_CFG_warn
    if s.bit F.CLK_TEMP_hot then
      (if code + s.f F.CLK_TEMP_CFG_hyst < warn then s.setF F.CLK_TEMP_hot 0 else s)
    else if warn < code then ((s.setF F.CLK_TEMP_hot 1).setF F.CLK_TEMP_hot_seen 1).raiseDev 56 code
    else s

/-! ## Meanings -/

/-- MAIN_DIE_RESET (R468). -/
def execMainDieReset (cause : ResetCause) (s : State) : Host.Outcome State Fault Refusal :=
  .next (s.mainReset (causeBit cause) (match cause with | .supply r => r.val | _ => 0))
/-- SAFETY_DIE_RESET (R470). -/
def execSafetyDieReset (s : State) : Host.Outcome State Fault Refusal := .next s.safetyReset
/-- SAFETY_DIE_RELEASE (R470). -/
def execSafetyDieRelease (xtal : Bool) (s : State) : Host.Outcome State Fault Refusal := .next (s.safetyRelease xtal)
/-- PLL_LOCK (R476). -/
def execPllLock (s : State) : Host.Outcome State Fault Refusal := onMain s State.pllLock
/-- RSTOUT_RELEASE (R471). -/
def execRstoutRelease (s : State) : Host.Outcome State Fault Refusal := onMain s State.rstoutRelease
/-- CLOCK_FAILURE (R477). -/
def execClockFailure (_cause : ClockFault) (s : State) : Host.Outcome State Fault Refusal := onMain s State.clockFailure
/-- SUPPLY_MEASUREMENT (R473). -/
def execSupplyMeasurement (rail : Fin 6) (mv : BitVec 12) (s : State) : Host.Outcome State Fault Refusal :=
  .next (s.supplyMeasured rail mv.toNat)
/-- TEMPERATURE_READING (R474). -/
def execTemperatureReading (code : BitVec 11) (s : State) : Host.Outcome State Fault Refusal :=
  .next (s.temperature code.toNat)

end Sys2Proof.Machine
end

