-- ==== Sys2Proof/Machine/View.lean ====
section
/-! DEFINITION. What a master reads: the value of each register with the fields that other state determines laid over
it, secure-gated fields, read-clear fields, latched pairs, and the memory windows (R9, R10, R31, R84, R100, R369, R422,
R424, R429–R431, R445, R494–R497). -/

namespace Sys2Proof.Machine

/-- The bits of field `x` of word `w` replaced by `v`. -/
def putFld (x : Fld) (v : Nat) (w : Word) : Word := insertBits w x.lsb x.width v

/-! ## Registers whose fields other state determines -/

/-- Part number of DEV_ID (R497). -/
def Part.number : Part → Nat
  | .olv8840 => 0x8840
  | .olv8830 => 0x8830
  | .olv8810 => 0x8810

/-- DEV_VARIANT (R497). -/
def Part.variant : Part → Word
  | .olv8840 => 0xFFFFFFFF
  | .olv8830 => 0xFFFF00FF
  | .olv8810 => 0x0F0F0000

/-- DEV_IDCODE (R497): version 1, the part number, manufacturer 0x2B9, bit 0 at 1. -/
def Part.idcode (p : Part) : Word := BitVec.ofNat 32 (0x10000000 + p.number * 0x1000 + 0x2B9 * 2 + 1)

/-- Block DEV (R428, R496, R497). -/
def State.viewDev (s : State) (a : Nat) : Word :=
  match a with
  | 0x0 => putFld F.DEV_ID_part s.part.number (s.reg a)
  | 0x4 => s.part.variant
  | 0x8 => s.part.idcode
  | 0xC => putFld F.DEV_PCI_ID_device s.part.number (s.reg a)
  | 0x14 => putFld F.DEV_LOCK_STS_guard s.guard.toNat (s.reg a)
  | _ => s.reg a

/-- The register that ENG_DBG_DATAk of lane `l` shows, by file and index (R101). -/
def LaneSt.dbgData (l : LaneSt) (file i k : Nat) : Word :=
  match file with
  | 0 => if k = 0 then l.getS (BitVec.ofNat 5 i) else 0
  | 1 => ((l.getV (BitVec.ofNat 5 i)) >>> (32 * k)).setWidth 32
  | 2 => if k = 0 && i < 8 then (l.getP (BitVec.ofNat 5 i)).setWidth 32 else 0
  | _ =>
    let t := tblGet 0 l.a i
    if k = 0 && i < 8 && t != 0 then BitVec.ofNat 32 (0x80000000 + (t - 1)) else 0

/-- The predicate registers `k` … `k` + 3 of lane `l`, eight bits each (R101). -/
def LaneSt.dbgPred (l : LaneSt) (k : Nat) : Word :=
  BitVec.ofNat 32 ((List.range 4).foldl (fun a j => a + (l.getP (BitVec.ofNat 5 (k + j))).toNat <<< (8 * j)) 0)

/-- Block ENG: the debug view reads zero outside FIELD_OPEN (R100, R101). The address that ENG_DBG_PC shows for a position without
program memory is the model's choice (log entry 127). -/
def State.viewEng (s : State) (a : Nat) : Word :=
  let n := a % 0x10000 / 0x80
  let o := a % 0x80
  if o < 0x1C then s.reg a
  else if s.sec.lifecycle != 4 then 0
  else
    let l := s.core n
    if 0x3C ≤ o && o < 0x4C then l.dbgData (s.f (F.ENG_DBG_SEL_file n)) (s.f (F.ENG_DBG_SEL_index n)) ((o - 0x3C) / 4)
    else match o with
    | 0x24 => putFld (F.ENG_DBG_PC_slot n) l.slot (BitVec.ofNat 32 (l.pcAddr % 0x200000))
    | 0x4C => l.lst.setWidth 32
    | 0x50 => putFld (F.ENG_DBG_LOOP_depth n) l.loops.length
        (putFld (F.ENG_DBG_LOOP_outer n) (l.loopIdx 1) (BitVec.ofNat 32 (l.loopIdx 0)))
    | 0x54 => BitVec.ofNat 32 (l.cyc + l.free)
    | 0x58 => l.dbgPred 0
    | 0x5C => l.dbgPred 4
    | _ => s.reg a

/-- Block MOD: MOD_STS.mismatch and MOD_CNT (R173, R199). -/
def State.viewMod (s : State) (a : Nat) : Word :=
  let d := a % 0x10000 / 0x100
  match a % 0x100 with
  | 0x04 => putFld (F.MOD_STS_mismatch d) (s.mismatch d).toNat (s.reg a)
  | 0x1C => let c := s.mdCount d; putFld (F.MOD_CNT_down d) c.2.toNat (putFld (F.MOD_CNT_count d) c.1 0)
  | _ => s.reg a

/-- Block KYN: the IDENT data of the selected position (R224). -/
def State.viewKyn (s : State) (a : Nat) : Word :=
  let n := a % 0x10000 / 0x40
  let p := s.f (F.KYN_LANE_IDSEL_position n)
  let c := if p < 24 then s.cell (24 * n + p) else {}
  match a % 0x40 with
  | 0x34 => putFld (F.KYN_LANE_IDDAT_revision n) c.revision
      (putFld (F.KYN_LANE_IDDAT_model n) c.model (putFld (F.KYN_LANE_IDDAT_t_r n) c.tr 0))
  | 0x38 => putFld (F.KYN_LANE_DLY_delta n) c.delta 0
  | _ => s.reg a

/-- The bits `p i`, `i < n`, as a number. -/
def maskOf (n : Nat) (p : Nat → Bool) : Nat := (List.range n).foldl (fun a i => if p i then a + 2 ^ i else a) 0

/-- Block PROT: PROT_STS, PROT_SD_OC and PROT_CVk_STS.persist (R258, R282). -/
def State.viewProt (s : State) (a : Nat) : Word :=
  if a = R.PROT_STS then
    putFld F.PROT_STS_diag_busy (s.f F.PROT_DIAG_STS_busy)
      (putFld F.PROT_STS_enabled (maskOf 8 fun k => s.bit (F.PROT_CV_CTL_en k))
        (BitVec.ofNat 32 (maskOf 8 fun k => s.f (F.PROT_CV_STS_state k) != 0)))
  else if a = R.PROT_SD_OC0 then BitVec.ofNat 32 (maskOf 32 s.fastAct)
  else if a = R.PROT_SD_OC1 then BitVec.ofNat 32 (maskOf 8 fun n => s.fastAct (32 + n))
  else if 0xC0200 ≤ a && a < 0xC0400 && a % 0x40 = 4 then
    let k := (a - 0xC0200) / 0x40
    putFld (F.PROT_CV_STS_persist k) (s.persist k) (s.reg a)
  else if 0xC0050 ≤ a && a < 0xC0060 then
    putFld (F.PROT_CHP_STS_on_us ((a - 0xC0050) / 4)) (s.chopOnUs ((a - 0xC0050) / 4)) (s.reg a)
  else s.reg a

/-- Block MOT: MOT_POS (R304). -/
def State.viewMot (s : State) (a : Nat) : Word :=
  if a < 0xE0400 && a % 0x80 = 0x7C then BitVec.ofNat 32 (unsigned 32 (s.axisPos (a % 0x10000 / 0x80))) else s.reg a

/-- Block RING: RING_STSn and RING_LVLn (R447). -/
def State.viewRing (s : State) (a : Nat) : Word :=
  let n := a % 0x10000 / 0x20
  match a % 0x20 with
  | 0x04 =>
    putFld (F.RING_STS_full n) (s.ringOn n && s.ringCount n == s.ringCap n).toNat
      (putFld (F.RING_STS_device_prod n) (deviceRing n).toNat (s.reg a))
  | 0x1C => BitVec.ofNat 32 (s.ringCount n)
  | _ => s.reg a

/-- Block SAFE: SAFE_STOn.ss1_left (R419), time in 10 ms as the safety die counts it. -/
def State.viewSafe (s : State) (a : Nat) : Word :=
  if 0x130060 ≤ a && a < 0x130080 then
    let n := (a - 0x130060) / 4
    match tblFind s.saf.die.ss1 n with
    | some t => putFld (F.SAFE_STO_ss1_left n) ((t - s.saf.sample + 199) / 200) (s.reg a)
    | none => putFld (F.SAFE_STO_ss1_left n) 0 (s.reg a)
  else s.reg a

/-- The native register of EVT_FRm (R445). -/
def frNative (m : Nat) : Nat :=
  ([R.TIME_NOW_LO, R.TIME_NOW_HI, R.TIME_TICK_STS, R.TIME_TICK_COUNT, R.EVT_PEND 0, R.EVT_PEND 1, R.PROT_STS,
    R.PROT_TRIP_STS, R.PROT_DRDY_STS, R.SAFE_STS, R.SAFE_OUT, R.FLD_STS 0, R.FLD_STS 1, R.FLD_STS 2, R.FLD_STS 3,
    R.FLD_MEAS 0, R.FLD_MEAS 1, R.FLD_MEAS 2, R.FLD_MEAS 3, R.FBK_POS 0, R.FBK_POS 1, R.CAN_STS 0, R.CAN_ERR 0,
    R.SHFT_STS][m]?).getD 0

/-- Is `a` an alias word EVT_FRm? -/
def isFr (a : Nat) : Bool := 0x120180 ≤ a && a < 0x1201E0

/-- The register at `a` with what other state determines laid over it; registers of a resource that the part lacks read
zero (R3), and so do fields that the instance lacks. -/
def State.view (s : State) (a : Nat) : Word :=
  if s.part.lacks a then 0
  else liveBits a &&& match a / 0x10000 with
  | 0 => s.viewDev a
  | 2 => if a = R.TIME_NOW_LO then BitVec.ofNat 32 s.now else s.reg a
  | 3 => s.viewEng a
  | 8 => s.viewMod a
  | 10 => s.viewKyn a
  | 12 => s.viewProt a
  | 14 => s.viewMot a
  | 17 => s.viewRing a
  | 18 => if 0x120040 ≤ a && a < 0x120080 then putFld (F.EVT_VEC_level 0) (s.vecLevel ((a - 0x120040) / 4)).toNat (s.reg a)
      else s.reg a
  | 19 => s.viewSafe a
  | _ => s.reg a

/-! ## A read of a register -/

/-- The high word of the latched pair whose low word is at `a`, and the number of its latch (R31, R375, R498). -/
def State.pairLow (s : State) (a : Nat) : Option (Nat × Word) :=
  if a = R.TIME_NOW_LO then some (0, BitVec.ofNat 32 (s.now / 2 ^ 32))
  else if a = R.GPIO_STAMP_LO then some (1, s.reg R.GPIO_STAMP_HI)
  else ((List.range 4).find? fun n => a == R.CAN_TS_LO n).map fun n => (2 + n, s.reg (R.CAN_TS_HI n))

/-- The number of the latch whose high word is at `a`. -/
def pairHigh (a : Nat) : Option Nat :=
  if a = R.TIME_NOW_HI then some 0
  else if a = R.GPIO_STAMP_HI then some 1
  else ((List.range 4).find? fun n => a == R.CAN_TS_HI n).map (2 + ·)

/-- The bits of register kind `r` that master `m` reads: secure-gated fields read zero outside SERVICE (R429). -/
def State.readMask (s : State) (m : Master) (r : RegSpec) : Word :=
  if m = .keeper || s.phase = 1 then 0xFFFFFFFF else ~~~(BitVec.ofNat 32 r.sg)

/-- Master `m` reads native register `a`: the value, and the state after its side effects. -/
def State.readNative (s : State) (m : Master) (a : Nat) : Word × State :=
  match regSpec a with
  | none => (0, s)
  | some r =>
    match pairHigh a with
    | some k => (s.latched k m, s)
    | none =>
      let v := s.view a &&& s.readMask m r &&& ~~~(BitVec.ofNat 32 r.wo)
      match s.pairLow a with
      | some (k, hi) => (v, { s with host := { s.host with latch := tblSet s.host.latch (4 * k + masterIdx m) hi } })
      | none => if r.rc = 0 || s.part.lacks a then (v, s) else (v, s.setReg a (s.reg a &&& ~~~(BitVec.ofNat 32 r.rc)))

/-- Master `m` reads register `a`; a forerunner alias reads its native register (R445). -/
def State.readReg (s : State) (m : Master) (a : Nat) : Word × State :=
  if isFr a then s.readNative m (frNative ((a - 0x120180) / 4)) else s.readNative m a

/-! ## A read of BAR0 and BAR2 -/

/-- Controller, object and word of a message-RAM address (R366). -/
def canObject (a : Nat) : Option (Nat × Nat × Nat) :=
  if a / 0x10000 != 16 then none
  else
    let o := a % 0x4000
    if o < 0x2000 || 0x2000 + 0x50 * 99 ≤ o then none
    else some (a % 0x10000 / 0x4000, (o - 0x2000) / 0x50, (o - 0x2000) % 0x50 / 4)

/-- Entry and word of the MSI-X table at offset `o`: the mask bit of the vector control word, or a stored word. -/
def State.msixRead (s : State) (o : Nat) : Word :=
  if o % 16 = 12 then (if s.host.masked.contains (o / 16) then 1 else 0) else s.word (msixBase + o)

/-- A host reaches offset `o` of the ring memory for a read: below 2^s × 32 of an enabled ring (R431). -/
def State.ringReads (s : State) (o : Nat) : Bool :=
  let n := o / 0x20000
  n < 16 && s.ringOn n && o % 0x20000 < s.ringCap n * 32

/-- Master `m` reads the aligned word at BAR0 address `a`, or at `a` in the ring memory (R422, R494). -/
def State.busRead (s : State) (m : Master) (a0 : Nat) : Word × State :=
  let a := a0 / 4 * 4
  if ringBase ≤ a then
    if a < ringBase + 0x200000 && (m = .keeper || s.ringReads (a - ringBase)) then (s.word a, s) else (0, s)
  else if progBase ≤ a && a < tableBase then
    if m = .keeper || s.phase != 1 || s.sec.lifecycle = 4 then (s.word a, s) else (0, s)
  else if tableBase ≤ a && a < dataBase + 0x200000 then (s.word a, s)
  else if msixBase ≤ a && a < msixBase + 0x100 then (s.msixRead (a - msixBase), s)
  else if a = 0xFF1000 then (BitVec.ofNat 32 (maskOf 16 fun v => s.host.pba.contains v), s)
  else match canObject a with
    | some (n, o, i) => (s.objRead n o i, if i = 0 then s.objLatch n o else s)
    | none => s.readReg m a

/-- Master `m` reads `n` words from `a` upward, in ascending order (R423, R424). -/
def State.busReads (s : State) (m : Master) (a : Nat) : Nat → List Word × State
  | 0 => ([], s)
  | n + 1 =>
    let (w, s) := s.busRead m a
    let (ws, s) := s.busReads m (a + 4) n
    (w :: ws, s)

end Sys2Proof.Machine
end

