-- ==== Sys2Proof/Machine/Access.lean ====
section
/-! DEFINITION. What a write by a master does: the lock of each host master and the key guard, the secure gate, byte
enables, masked-write aliases, held and shadowed values, write-one-to-clear bits, the fields whose write is an action,
and the memory windows (R9–R11, R59, R424–R431, R447, R493, R494). -/

namespace Sys2Proof.Machine

/-! ## Vectors (R443) -/

/-- What a change of the event unit's registers sends: every vector whose level rises. -/
def State.vecRises (was s : State) : State := (List.range 16).foldl (fun s v => was.msgOnRise s v) s

/-- A write of 1 to EVT_VECv.ack. -/
def State.vecAck (s : State) (v : Nat) : State := if s.vecLevel v then s.sendMsg v else s

/-- The mask of vector `v` is cleared: a message that it held leaves. -/
def State.vecUnmask (s : State) (v : Nat) : State :=
  let s := { s with host := { s.host with masked := s.host.masked.filter (· != v) } }
  if s.host.pba.contains v && !s.host.fnMask then s.sendMsg v else s

/-- The function mask is set or cleared; once clear, the messages held in the PBA leave, but for those of masked vectors
(R443; log entry 41). -/
def State.fnMaskWrite (s : State) (set : Bool) : State :=
  let s := { s with host := { s.host with fnMask := set } }
  if set then s else (List.range 16).foldl (fun s v => if s.host.pba.contains v then s.sendMsg v else s) s

/-- A write into the MSI-X table: the mask bit of a vector control word, or address and data (R494). -/
def State.msixWrite (s : State) (o : Nat) (be : BitVec 4) (val : Word) : State :=
  let v := o / 16
  if o % 16 != 12 then s.putBytes (msixBase + o) val be
  else if !be.getLsbD 0 then s
  else if val.getLsbD 0 then
    { s with host := { s.host with masked := if s.host.masked.contains v then s.host.masked else v :: s.host.masked } }
  else s.vecUnmask v

/-! ## Rings as their host side writes them (R431, R432) -/

/-- A write of RING_CFGn. -/
def State.ringCfg (s : State) (n v : Nat) : State :=
  let size := v % 16
  let ok := 4 ≤ size && size ≤ 12
  let s := (s.setF (F.RING_CFG_size n) size).setB (F.RING_STS_enabled n) ok
  let s := (s.setF (F.RING_HEAD_head n) 0).setF (F.RING_TAIL_tail n) 0
  let s := { s with host := { s.host with dropping := s.host.dropping.filter (· != n) } }
  if ok || size = 0 then s else s.setF (F.RING_STS_cfg_error n) 1

/-- An ignored write of an index. -/
def State.idxBad (s : State) (n : Nat) : State := s.setF (F.RING_STS_idx_bad n) 1

/-- A host write of RING_TAILn: the doorbell. -/
def State.doorbell (s : State) (n v : Nat) : State :=
  let c := (v % 0x10000 + 0x10000 - s.f (F.RING_HEAD_head n)) % 0x10000
  if !s.ringOn n || deviceRing n || s.ringCap n < c || c < s.ringCount n then s.idxBad n
  else ((s.setF (F.RING_TAIL_tail n) v).incWrap (F.RING_CNT_entries n) (c - s.ringCount n)).raiseDev 51 n

/-- A host write of RING_HEADn: it frees entries. -/
def State.headWrite (s : State) (n v : Nat) : State :=
  let c := (s.f (F.RING_TAIL_tail n) + 0x10000 - v % 0x10000) % 0x10000
  if !s.ringOn n || !deviceRing n || s.ringCount n < c then s.idxBad n
  else s.setF (F.RING_HEAD_head n) v

/-! ## Registers whose enable bit is an action (R11, R27, R28 and the enable rule of each block) -/

/-- Bit `enableBit a` of register `a` is an enable whose change is an action. -/
def isEnable (a : Nat) : Bool :=
  let o := a % 0x10000
  match a / 0x10000 with
  | 2 => o == 0x10
  | 6 => if o < 0x800 then o % 0x20 == 0 || o % 0x20 == 4 else o == 0x800 || (0x828 ≤ o && o < 0x838)
  | 7 => o % 0x100 == 0
  | 8 => o % 0x100 == 0 || o % 0x100 == 0x14
  | 10 => o % 0x40 == 0
  | 11 => o < 0x1000 && o % 0x80 == 0
  | 12 => (0x30 ≤ o && o < 0x40) || (0x200 ≤ o && o < 0x400 && o % 0x40 == 0)
  | 13 => o % 0x80 == 0 || o % 0x80 == 0x60
  | 14 => if o < 0x400 then o % 0x80 == 0 else o % 0x20 == 0
  | 15 => o == 0 || (0x40 ≤ o && o < 0xC0 && o % 0x10 == 0)
  | 16 => o % 0x4000 == 0
  | _ => false

/-- The place of the enable in register `a`: bit 3 in SHFT_LSd_CFG (R360), bit 0 elsewhere. -/
def enableBit (a : Nat) : Nat := if a / 0x10000 = 15 && a % 0x10000 != 0 then 3 else 0

/-- The enable of register `a` is written from 0 to 1. -/
def State.enableAt (s : State) (a : Nat) : State :=
  let o := a % 0x10000
  match a / 0x10000 with
  | 2 => s.startTick
  | 6 =>
    if o < 0x800 then (if o % 0x20 = 0 then s.sdEnable (o / 0x20) else s.fastEnable (o / 0x20))
    else if o = 0x800 then s.sarEnable else s.sdcEnable ((o - 0x828) / 4)
  | 7 => s.fldEnable (o / 0x100)
  | 8 => if o % 0x100 = 0 then s.modEnable (o / 0x100) else s.setF (F.MOD_HOST_CTL_hold (o / 0x100)) 1
  | 10 => s.laneEnable (o / 0x40)
  | 11 => s.armEnable (o / 0x80)
  | 12 => if o < 0x200 then s.setF (F.PROT_CHP_CFG_en ((o - 0x30) / 4)) 1 else s.protEnable ((o - 0x200) / 0x40)
  | 13 => if o % 0x80 = 0 then s.portEnable (o / 0x80) else s.emuEnable (o / 0x80)
  | 14 => if o < 0x400 then s.axisEnable (o / 0x80) else s.camEnable ((o - 0x400) / 0x20)
  | 15 => if o = 0 then s.lineEnable else s.shareEnable ((o - 0x40) / 0x10)
  | 16 => s.canEnable (o / 0x4000)
  | _ => s

/-- The enable of register `a` is written from 1 to 0. -/
def State.disableAt (s : State) (a : Nat) : State :=
  let o := a % 0x10000
  match a / 0x10000 with
  | 2 => s.stopTick
  | 6 =>
    if o < 0x800 then (if o % 0x20 = 0 then s.sdDisable (o / 0x20) else s.fastDisable (o / 0x20))
    else if o = 0x800 then s.sarDisable else s.sdcDisable ((o - 0x828) / 4)
  | 7 => s.fldDisable (o / 0x100)
  | 8 => if o % 0x100 = 0 then s.modDisable (o / 0x100) else s.holdRelease (o / 0x100)
  | 10 => s.laneDisable (o / 0x40)
  | 11 => s.armDisable (o / 0x80)
  | 12 => if o < 0x200 then (s.setF (F.PROT_CHP_CFG_en ((o - 0x30) / 4)) 0).chopOff ((o - 0x30) / 4)
      else s.protDisable ((o - 0x200) / 0x40)
  | 13 => if o % 0x80 = 0 then s.portDisable (o / 0x80) else s.setF (F.FBK_EE_CFG_en (o / 0x80)) 0
  | 14 => if o < 0x400 then s.axisDisable (o / 0x80) else s.camDisable ((o - 0x400) / 0x20)
  | 15 => if o = 0 then s.lineLeave else s.setF (F.SHFT_LS_CFG_en ((o - 0x40) / 0x10)) 0
  | 16 => s.canDisable (o / 0x4000)
  | _ => s

/-! ## One register write after its guards -/

/-- A write that has passed the gates: the register's kind, the word that its RW fields are to hold, the W1C bits and WO
bits written, the bits that the write reaches, and the bits that hardware sets in the same cycle (R10). -/
structure RegWr where
  r : RegSpec
  new : Word
  one : Word
  wo : Word
  reach : Word
  hw : Word
  deriving DecidableEq, Repr

/-- Kind and instance of the couchable target that register `a` belongs to, where a host write to it is held to the couch
(R54, R59). -/
def couched (a : Nat) : Option (Nat × Nat) :=
  let o := a % 0x10000
  match a / 0x10000 with
  | 7 => if 0xC0 ≤ o % 0x100 && o % 0x100 < 0xE0 then some (4, o / 0x100)
      else if 0xE0 ≤ o % 0x100 && o % 0x100 < 0xF8 then some (3, o / 0x100) else none
  | 11 => if o < 0x1000 && o % 0x80 = 0x24 then some (2, o / 0x80) else none
  | 14 => if o < 0x400 && 0x18 ≤ o % 0x80 && o % 0x80 < 0x38 then some (5, o / 0x80) else none
  | _ => none

/-- Register `a` is MOD_DUTYp or MOD_CMPj. -/
def isModRef (a : Nat) : Bool :=
  a / 0x10000 == 8 && ((0x20 ≤ a % 0x100 && a % 0x100 < 0x2C) || (0x30 ≤ a % 0x100 && a % 0x100 < 0x48))

/-- Register `a` is GATE_CMDn. -/
def isGateCmd (a : Nat) : Bool := a / 0x10000 == 9 && a % 0x20 == 0x10

/-- The value that a write of register `a` would replace (R426): the shadow, the held value, or the register. -/
def State.base (s : State) (a : Nat) : Word :=
  if isModRef a || isGateCmd a then s.shd a else (tblFind s.held a).getD (s.reg a)

/-- Bits of a W1C register whose clearing is decided by a rule of its own (R260, R262, R275). -/
def judgedBits (a : Nat) : Word :=
  let o := a % 0x10000
  if a / 0x10000 != 12 then 0
  else if 0x50 ≤ o && o < 0x60 then 2
  else if o = 0x64 then 0x3F00
  else if 0x80 ≤ o && o < 0xC8 then 4
  else 0

/-- The plain part of a write: RW fields take the new value, W1C bits written 1 clear, bits that hardware sets stay set. -/
def State.regPlain (s : State) (a : Nat) (x : RegWr) (keep : Word) : State :=
  let rw := BitVec.ofNat 32 x.r.rw &&& ~~~keep
  let w := (s.reg a &&& ~~~rw) ||| (x.new &&& rw)
  let w := (w &&& ~~~(x.one &&& ~~~(judgedBits a))) ||| (x.hw &&& BitVec.ofNat 32 x.r.w1c)
  s.setReg a w

/-- The actions of W1C and WO bits written 1 in the protection block (R257, R258, R260, R262, R268, R275, R276); a bit that
hardware sets in the same cycle is left set (R10). -/
def State.protAct (s : State) (o : Nat) (x : RegWr) : State :=
  let one := x.one &&& ~~~x.hw
  if 0x50 ≤ o && o < 0x60 then
    let n := (o - 0x50) / 4
    if one.getLsbD 1 then s.chopClear n (s.chop n).cf else s
  else if o = 0x64 then
    (bitsOf 6 (getBits one 8 6)).foldl (fun s b => s.drdyClear b (s.bit ⟨R.PROT_DRDY_STS, b, 1⟩)) s
  else if 0x80 ≤ o && o < 0xC8 then
    let n := (o - 0x80) / 4
    if one.getLsbD 2 then s.gfClear n (s.bit (F.PROT_GF_act n)) else s
  else if o = 0x0C then s.tripClear (getBits x.wo 0 8) (s.f F.PROT_TRIP_STS_active)
  else if o = 0x68 then
    let s := if x.wo.getLsbD 0 then s.diagStart (s.f F.PROT_DIAG_CTL_conv) else s
    if x.wo.getLsbD 1 then s.diagAbort else s
  else if 0x200 ≤ o && o < 0x400 && o % 0x40 = 0x1C then
    let k := (o - 0x200) / 0x40
    let s := if x.wo.getLsbD 0 then s.release k else s
    s.hostRequest k (getBits x.wo 1 3)
  else s

/-- The actions of bits written 1 to a motion axis (R317, R321, R323, R338). -/
def State.motAct (s : State) (n : Nat) (wo : Word) : State :=
  let s := if wo.getLsbD 10 then s.axisClear n else s
  let s := if wo.getLsbD 8 then s.stopRequest n else s
  if wo.getLsbD 9 then s.homeCommand n else s

/-- The actions of bits written 1 to a CAN controller (R365, R370, R371, R373). -/
def State.canAct (s : State) (n o : Nat) (x : RegWr) : State :=
  if o = 0 then
    let s := if x.wo.getLsbD 6 then s.canRecover n else s
    s.canMode n
  else if o = 0x28 then (s.txRequest n 0 (getBits x.wo 0 3)).txCancel n (getBits x.wo 8 3)
  else if 0x30 ≤ o && o < 0x3C then s.txRequest n ((o - 0x30) / 4 + 1) x.wo.toNat
  else s

/-- A go of SEC_TOKEN: whether the erase succeeds is free (R457). -/
def State.tokenGo (s : State) : State :=
  let v := s.free 1
  v.2.token (v.1 == 1#1) 6

/-- What a write does beside the plain part and the enable bit. -/
def State.regAct (was : State) (s : State) (a : Nat) (x : RegWr) : State :=
  let o := a % 0x10000
  match a / 0x10000 with
  | 0 => if o = 0x24 && x.wo.getLsbD 8 then s.bootGo (x.wo.getLsbD 9) else s
  | 3 =>
    if o % 0x80 = 0x1C then
      let s := if x.wo.getLsbD 0 then s.haltAsk 1 fun _ => 1 else s
      let s := if x.wo.getLsbD 1 then s.debugStep (Fin.ofNat 8 (o / 0x80)) else s
      if x.wo.getLsbD 2 then s.resume else s
    else s
  | 4 => if o % 0x80 = 4 && x.wo.getLsbD 0 then s.ctxRestart (o / 0x80) else s
  | 5 => if o = 0x18 then s.wmCommit (getBits x.wo 0 10) else s
  | 7 => if o % 0x100 = 0x9C && x.wo.getLsbD 0 then s.limpClear (o / 0x100) else s
  | 10 =>
    if o % 0x40 = 0x2C then
      let n := o / 0x40
      if getBits x.wo 0 2 = 1 then s.laneDiag n (getBits x.wo 8 5) (x.wo.getLsbD 15)
      else if getBits x.wo 0 2 = 2 then s.laneIdent n else s
    else s
  | 11 => if 0x1000 ≤ o && o % 8 = 0 && x.wo.getLsbD 16 then s.cellRetire ((o - 0x1000) / 8) else s
  | 12 => let s := s.protAct o x; if o = 0x6C then s.gpioSync else s
  | 13 =>
    if o % 0x80 = 0x6C then
      let s := if x.wo.getLsbD 0 then s.portClear (o / 0x80) else s
      if x.wo.getLsbD 1 then s.setF (F.FBK_STS_referenced (o / 0x80)) 0 else s
    else if o % 0x80 = 4 || o % 0x80 = 0x30 || o % 0x80 = 0x34 then s.limitWritten (o / 0x80)
    else s
  | 14 =>
    if o < 0x400 && o % 0x80 = 0 then s.motAct (o / 0x80) x.wo else if o < 0x400 && o % 0x80 = 0x4C then s.gpioSync else s
  | 15 => if o = 0x24 then (bitsOf 8 (getBits x.wo 0 8)).foldl State.shareResume s else s
  | 16 => s.canAct (o / 0x4000) (o % 0x4000) x
  | 18 =>
    let s := was.vecRises s
    if 0x40 ≤ o && o < 0x80 && x.wo.getLsbD 1 then s.vecAck ((o - 0x40) / 4) else s
  | 20 =>
    if o = 0x30 && x.wo.getLsbD 0 then s.tokenGo
    else if o = 0x104 || o = 0x108 then s.gpioSync
    else s
  | _ => s

/-- The registers whose whole write is one operation: that operation, and whether it drops the write; `none` elsewhere. -/
def State.regWhole (s : State) (a : Nat) (x : RegWr) : Option (State × Bool) :=
  let o := a % 0x10000
  match a / 0x10000 with
  | 3 =>
    let d := o % 0x80
    if d < 0x1C then none
    else if s.sec.lifecycle != 4 then
      some (if d = 0x1C && x.wo.getLsbD 0 then s.haltAsk 1 fun _ => 1 else s, false)
    else if 0x3C ≤ d && d < 0x4C then some (s.debugData (o / 0x80) ((d - 0x3C) / 4) x.new, false)
    else none
  | 7 => if 0xA0 ≤ o % 0x100 && o % 0x100 < 0xC0 then some (s, true) else none
  | 8 => if isModRef a then
      let d := o / 0x100
      some (s.refHostWrite d a x.new, s.refWriter d != .host)
    else none
  | 9 =>
    if o % 0x20 = 0 then some (s.gateCfg (o / 0x20) x.new, false)
    else if o % 0x20 = 0x10 then some (s.gateHostWrite (o / 0x20) x.new, (s.ownerOf 6 (o / 0x20)).isSome)
    else none
  | 13 => if o % 0x80 = 0x54 then some (s.compareArm (o / 0x80) x.new, false) else none
  | 14 => if o < 0x400 && o % 0x80 = 0x3C then some (s.offsetWrite (o / 0x80) x.new, false) else none
  | 17 =>
    match o % 0x20 with
    | 0x00 => some (s.ringCfg (o / 0x20) x.new.toNat, false)
    | 0x08 => some (s.headWrite (o / 0x20) x.new.toNat, false)
    | 0x0C => some (s.doorbell (o / 0x20) x.new.toNat, false)
    | _ => none
  | 19 =>
    match o with
    | 0x18 => some (s.confirmSet x.new, false)
    | 0x1C => some (s.commKey x.wo, false)
    | 0x20 => some (s.paramLoad ((x.new &&& ~~~1#32) ||| x.wo), false)
    | _ => none
  | 20 => if 0x48 ≤ o && o < 0x68 then some (s.tmxSelect ((o - 0x48) / 4) (x.new.setWidth 8), false) else none
  | _ => none

/-- A host write to a couchable register (R59): dropped where a context owns it, held to the couch while the tick runs. One that
is held when the last tick has ended acts at the first couch of the next run (log entry 100). -/
def State.couchWrite (s : State) (kind i a : Nat) (w : Word) : State × Bool :=
  match s.ownerOf kind i with
  | some c => (s.hostDrop c, true)
  | none => if s.running then ({ s with held := tblSet s.held a w }, false) else (s.setReg a w, false)

/-- ARM_CELLc_CFG word `w` names an enabled arm; a cell that is not mapped names none (R225; log entry 114). -/
def State.namesArm (s : State) (w : Word) : Bool :=
  w.getLsbD 15 && getBits w 0 4 < 12 && s.bit (F.ARM_STS_enabled (getBits w 0 4))

/-- The bits that a write of `new` to register `a` leaves as they are: the place of a cell while the arm that the register
names, before or after the write, is enabled (R225, R249), and a CAN mode where mode 2 is written to a controller that is not enabled
(R380). -/
def State.keptBits (s : State) (a : Nat) (new : Word) : Word :=
  if a / 0x10000 = 11 && 0x1000 ≤ a % 0x10000 && a % 8 = 0 && (s.namesArm (s.reg a) || s.namesArm new) then 0xBF0F#32
  else if a / 0x10000 = 16 && a % 0x4000 = 0 && getBits new 1 2 = 2 && !(s.reg a).getLsbD 0 then 6#32
  else 0

/-- The write of register `a` after its guards: the state, and whether an owner's rule dropped it. -/
def State.regPut (s : State) (a : Nat) (x : RegWr) : State × Bool :=
  let touched := x.reach &&& BitVec.ofNat 32 (x.r.rw ||| x.r.w1c ||| x.r.wo)
  if touched == 0 && a / 0x10000 != 7 then (s, false)
  else match s.regWhole a x with
  | some r => r
  | none =>
    if touched == 0 then (s, false)
    else match couched a with
    | some (kind, i) => s.couchWrite kind i a x.new
    | none =>
      if isEnable a then
        let b := enableBit a
        let was := (s.reg a).getLsbD b
        let t := s.regPlain a x (1#32 <<< b ||| s.keptBits a x.new)
        let t := if x.new.getLsbD b && !was then t.enableAt a else if !x.new.getLsbD b && was then t.disableAt a else t
        (s.regAct t a x, false)
      else (s.regAct (s.regPlain a x (s.keptBits a x.new)) a x, false)

/-- The registers that only the keeper writes: a deckle quantity, which acts at the next couch (R60, R170), and a dead-time
floor, never below 20 ns (R182, R199; log entry 112). -/
def State.keeperPut (s : State) (a : Nat) (val : Word) : Option State :=
  let o := a % 0x10000
  if a / 0x10000 = 7 && 0xA0 ≤ o % 0x100 && o % 0x100 < 0xC0 then
    some { s with eng := { s.eng with deckleWr :=
      s.eng.deckleWr ++ [⟨o / 0x100, (o % 0x100 - 0xA0) / 4, val.toNat % 0x10000, false⟩] } }
  else if a / 0x10000 = 9 && o < 0x240 && o % 0x20 = 0x1C then
    some (s.setF (F.GATE_FLOOR_floor (o / 0x20)) (max 20 (val.toNat % 0x2000)))
  else none

/-! ## Guards (R424, R426–R429) -/

/-- A write of `val` by master `m` to the bits `sel` of register `a`; `masked` for one through an alias. Also: was it
dropped, or dropped in part? A pending bit of EVT clears by a host's write alone (R440). -/
def State.regWrite (s : State) (m : Master) (a : Nat) (sel val hw : Word) (masked : Bool) : State × Bool :=
  match regSpec a with
  | none => (s.lockUse m, false)
  | some r =>
    if s.part.lacks a then (s.lockUse m, false)
    else if a = R.DEV_LOCK_KEY && !masked then (s.lockKey m val, false)
    else if let some t := (if m = .keeper then s.keeperPut a val else none) then (t, false)
    else
      let kgHit := sel &&& BitVec.ofNat 32 r.kg != 0
      let kgDrop := kgHit && !s.keyed m
      let sgDrop := (sel &&& BitVec.ofNat 32 r.sg != 0) && m != .keeper && s.phase != 1
      let s := if masked && !kgHit then s else s.lockUse m
      let s := if kgDrop then s.setF F.DEV_LOCK_STS_kg_drop 1 else s
      let s := if sgDrop then s.setF F.DEV_LOCK_STS_sg_drop 1 else s
      let reach := sel &&& liveBits a &&& (if masked then BitVec.ofNat 32 r.mw else 0xFFFFFFFF) &&&
        ~~~((if kgDrop then BitVec.ofNat 32 r.kg else 0) ||| (if sgDrop then BitVec.ofNat 32 r.sg else 0))
      let rw := BitVec.ofNat 32 r.rw &&& reach
      let x : RegWr :=
        { r := r, new := ((s.base a &&& BitVec.ofNat 32 r.rw) &&& ~~~rw) ||| (val &&& rw)
          one := if m = .keeper && (a = R.EVT_PEND 0 || a = R.EVT_PEND 1) then 0 else val &&& BitVec.ofNat 32 r.w1c &&& reach
          wo := val &&& BitVec.ofNat 32 r.wo &&& reach
          reach := reach, hw := hw }
      let (s, d) := s.regPut a x
      (s, d || kgDrop || sgDrop)

/-- The register that a masked-write alias names, and whether it is the high alias (R426, R493). -/
def aliasOf (a : Nat) : Option (Nat × Bool) :=
  if 0x150000 ≤ a then none
  else if a / 0x10000 = 16 then
    let o := a % 0x4000
    if 0x1000 ≤ o && o < 0x1800 then some (a - 0x1000, false)
    else if 0x1800 ≤ o && o < 0x2000 then some (a - 0x1800, true) else none
  else
    let o := a % 0x10000
    if 0x8000 ≤ o && o < 0xC000 then some (a - 0x8000, false)
    else if 0xC000 ≤ o then some (a - 0xC000, true) else none

/-- A masked write of `val` through the low or the high alias of register `a` (R426): W[31:16] selects, W[15:0] is the data.
An alias of a register without an MW field there is reserved. -/
def State.maskedReg (s : State) (m : Master) (a : Nat) (high : Bool) (val : Word) : State × Bool :=
  match regSpec a with
  | none => (s.lockUse m, false)
  | some r =>
    if r.mw = 0 || (high && r.mw < 0x10000) then (s.lockUse m, false)
    else
      let up := if high then 16 else 0
      s.regWrite m a ((val >>> 16) <<< up) ((val &&& 0xFFFF#32) <<< up) 0 true

/-! ## A write to BAR0 and BAR2 -/

/-- A host reaches offset `o` of the ring memory for a write: below 2^s × 32 of an enabled ring that the host produces. -/
def State.ringWrites (s : State) (o : Nat) : Bool := s.ringReads o && !deviceRing (o / 0x20000)

/-- The write of registers and aliases: byte enables other than 0xF drop it (R424). -/
def State.regSpace (s : State) (m : Master) (a : Nat) (be : BitVec 4) (val hw : Word) : State × Bool :=
  let masks := fun (p : Nat × Bool) =>
    match regSpec p.1 with
    | some r => r.mw != 0 && (!p.2 || 0x10000 ≤ r.mw)
    | none => false
  let known := (regSpec a).isSome || (aliasOf a).any masks
  if be != 0xF#4 && known then ((s.lockUse m).setF F.DEV_LOCK_STS_part_drop 1, true)
  else match aliasOf a with
    | some (n, high) => s.maskedReg m n high val
    | none => s.regWrite m a 0xFFFFFFFF val hw false

/-- Master `m` writes the bytes `be` of the aligned word at BAR0 address `a`, or at `a` in the ring memory; hardware sets the
bits `hw` of a register in the same cycle. Also: was the write dropped, or dropped in part? -/
def State.busWrite (s : State) (m : Master) (a0 : Nat) (be : BitVec 4) (val hw : Word) : State × Bool :=
  let a := a0 / 4 * 4
  if ringBase ≤ a then
    let ok := a < ringBase + 0x200000 && (m = .keeper || s.ringWrites (a - ringBase))
    let s := s.lockUse m
    (if ok then s.putBytes a val be else s, false)
  else if progBase ≤ a && a < tableBase then
    ((s.lockUse m).programWrite m (a - progBase) be val, !(m = .keeper || s.phase != 1))
  else if tableBase ≤ a && a < dataBase then ((s.lockUse m).tableWrite (a - tableBase) be val, false)
  else if dataBase ≤ a && a < dataBase + 0x200000 then ((s.lockUse m).putBytes a val be, false)
  else if msixBase ≤ a && a < msixBase + 0x100 then ((s.lockUse m).msixWrite (a - msixBase) be val, false)
  else match canObject a with
    | some (n, o, i) => ((s.lockUse m).objWrite n o i be val, false)
    | none => s.regSpace m a be val hw

end Sys2Proof.Machine
end

