-- ==== Sys2Proof/Machine/Host.lean ====
section
/-! DEFINITION. The host side (15_host_interface.md): the PCIe endpoint and the SPI slave, register reads and writes as
commands, the rings and the commands that the keeper serves, the event log, vectors and the forerunner alias. -/

namespace Sys2Proof.Machine

/-! ## Reads and writes (R10, R421–R424) -/

/-- Master `m` reads the word at `a`; hardware increments the read-clear fields by `inc` in the same cycle (R10). -/
def State.readInc (s : State) (m : Master) (a : Nat) (inc : Word) : State :=
  let (w, s) := s.busRead m a
  let s := match regSpec (a / 4 * 4) with
    | some r => if inc &&& BitVec.ofNat 32 r.rc = 0 then s
        else s.setReg (a / 4 * 4) (s.reg (a / 4 * 4) ||| (inc &&& BitVec.ofNat 32 r.rc))
    | none => s
  s.returns m [w]

/-! ## The PCIe configuration space (R420, R443, R497) -/

/-- What the endpoint answers to configuration reads, as far as the manual states it. A BAR is its size in bytes, 64-bit and
prefetchable; `none` for one that is not implemented and reads zero. The places of these fields are those of the PCI Express
Base Specification; no row of the command table is a configuration request (log entry 135). -/
structure PciConfig where
  vendorDevice : Word
  subVendor : BitVec 16
  subsystem : BitVec 16
  revision : Nat
  classCode : BitVec 24
  bar0 : Option (Nat × Bool × Bool)
  bar1 : Option (Nat × Bool × Bool)
  bar2 : Option (Nat × Bool × Bool)
  bar4 : Option (Nat × Bool × Bool)
  bar5 : Option (Nat × Bool × Bool)
  rom : Option (Nat × Bool × Bool)
  interruptPin : Nat
  /-- Greatest payload size in bytes. -/
  maxPayload : Nat
  noSoftReset : Bool
  d3hot : Bool
  vectors : Nat
  /-- BAR0 offsets of the MSI-X table and of the PBA. -/
  msixTable : Nat
  msixPba : Nat
  fnMask : Bool
  deriving DecidableEq, Repr

/-- The configuration space of the function. -/
def State.pciConfig (s : State) : PciConfig :=
  { vendorDevice := s.view R.DEV_PCI_ID, subVendor := 0x1F4C, subsystem := 0x0001, revision := s.f F.DEV_ID_stepping
    classCode := 0x118000
    bar0 := some (0x1000000, false, false), bar1 := none, bar2 := some (0x200000, true, true)
    bar4 := none, bar5 := none, rom := none, interruptPin := 0
    maxPayload := 256, noSoftReset := true, d3hot := s.host.d3hot
    vectors := 16, msixTable := 0xFF0000, msixPba := 0xFF1000, fnMask := s.host.fnMask }

/-- EV54: the host link (R421, R423). -/
def State.linkEvent (s : State) : State := s.raiseDev 54 0

/-- PERST_N changes: the endpoint alone is affected (R421); a fundamental reset masks every vector and clears the pending
bits of MSI-X (PRESUMED, log entry 41). -/
def State.perst (s : State) (level : Bool) : State :=
  if s.host.perstN == level then s
  else
    let h := { s.host with perstN := level }
    let h := if level then h else { h with masked := List.range 16, fnMask := false, pba := [] }
    { s with host := h }.linkEvent

/-- The PCIe link comes up or goes down (R421). -/
def State.linkChange (s : State) (up : Bool) : State :=
  if s.host.linkUp == up then s else { s with host := { s.host with linkUp := up } }.linkEvent

/-- The function enters or leaves D3hot; every register is kept (R421). -/
def State.powerState (s : State) (d3 : Bool) : State :=
  if s.host.d3hot == d3 then s else { s with host := { s.host with d3hot := d3 } }.linkEvent

/-- The bus address of an SPI address: bit 31 selects BAR2 (R423). -/
def spiAddr (a : Word) : Nat :=
  let o := a.toNat % 2 ^ 31
  if a.getLsbD 31 then ringBase + o else o

/-- The words of a WRITE frame from `a` upward; STATUS bit 0 shows whether the last was dropped (R423). -/
def State.spiWords (s : State) (a : Nat) : List Word → State
  | [] => s
  | w :: ws =>
    let (s, d) := s.busWrite .spi a 0xF w 0
    { s with host := { s.host with spiDropped := d } }.spiWords (a + 4) ws

/-- A STATUS frame (R423). -/
def State.spiStatus (s : State) : State :=
  let b := s.host.spiDropped.toNat + 2 * s.host.spiError.toNat + 4 * s.phase
  { s with host := { s.host with spiError := false } }.returns .spi [BitVec.ofNat 32 b]

/-! ## Commands of RG0–RG3 (R435–R437) -/

/-- Ring `p` of RG0–RG3 is eligible: it holds an entry, and its response ring is enabled and has space. -/
def State.eligibleRing (s : State) (p : Nat) : Bool :=
  s.ringOn p && s.ringCount p != 0 && s.ringOn (4 + p) && s.ringCount (4 + p) < s.ringCap (4 + p)

/-- The keeper takes the next command, in SERVICE only. -/
def State.commandTake (s : State) : State :=
  if s.phase != 1 || s.host.cmd.isSome then s
  else match (List.range 4).find? s.eligibleRing with
    | none => s
    | some p =>
      let i := s.f (F.RING_HEAD_head p)
      match s.ringTake p with
      | none => s
      | some (ws, s) => { s with host := { s.host with cmd := some ⟨p, i, ws⟩ } }

/-- Word `k` of a command. -/
def CmdRec.w (c : CmdRec) (k : Nat) : Word := (c.words[k]?).getD 0
/-- Opcode of a command. -/
def CmdRec.opcode (c : CmdRec) : Nat := getBits (c.w 0) 0 8

/-- A list cut or filled with zeros to `n` words. -/
def padWords (n : Nat) (ws : List Word) : List Word := (ws ++ List.replicate n 0).take n

/-- The response to command `c`: status 0 DONE, 1 UNKNOWN, 2 REFUSED, 3 DROPPED, and the results from word 2 (R436). -/
def State.respond (s : State) (c : CmdRec) (status : Nat) (ws : List Word) : State :=
  let w0 := BitVec.ofNat 32 (c.opcode + status * 0x100 + getBits (c.w 0) 16 16 * 0x10000)
  let w1 := BitVec.ofNat 32 (c.ring + c.index % 0x10000 * 0x10000)
  { s with host := { s.host with cmd := none } }.ringPut (4 + c.ring) [w0 :: w1 :: padWords 6 ws]

/-- The keeper executes the command taken, where its opcode is `op`. -/
def State.onCmd (s : State) (op : Nat) (act : State → CmdRec → State) : State :=
  match s.host.cmd with
  | some c => if c.opcode = op then act s c else s
  | none => s

/-- A refusal (R436). -/
def State.refuse (s : State) (c : CmdRec) : State := s.respond c 2 []

/-- Reads of the BAR0 addresses of a REG_READ, in order with their side effects. -/
def State.cmdReads (s : State) : List Word → List Word × State
  | [] => ([], s)
  | a :: as =>
    let (w, s) := if a.toNat < 0x1000000 then s.busRead .cmd a.toNat else (0, s)
    let (ws, s) := s.cmdReads as
    (w :: ws, s)

/-- REG_READ. -/
def State.cmdRead (s : State) (c : CmdRec) : State :=
  let k := getBits (c.w 1) 0 3
  if k = 0 || 6 < k then s.refuse c
  else
    let (ws, s) := s.cmdReads ((c.words.drop 2).take k)
    s.respond c 0 ws

/-- The writes of a REG_WRITE: `j` is the number of the next pair, `mask` the pairs dropped so far. -/
def State.cmdWrites (s : State) (c : CmdRec) (mask : Nat) (j : Nat) : Nat → State × Nat
  | 0 => (s, mask)
  | n + 1 =>
    let a := (c.w (2 + 2 * j)).toNat
    let (s, d) := if a < 0x1000000 then s.busWrite .cmd a 0xF (c.w (3 + 2 * j)) 0 else (s.lockUse .cmd, false)
    s.cmdWrites c (if d then mask + 2 ^ j else mask) (j + 1) n

/-- REG_WRITE. -/
def State.cmdWrite (s : State) (c : CmdRec) : State :=
  let k := getBits (c.w 1) 0 2
  if k = 0 then s.refuse c
  else
    let (s, mask) := s.cmdWrites c 0 0 k
    s.respond c (if mask = 0 then 0 else 3) [BitVec.ofNat 32 mask]

/-- DECKLE_CONFIG (R437). -/
def State.cmdDeckle (s : State) (c : CmdRec) : State :=
  let u := getBits (c.w 1) 0 8
  let q := getBits (c.w 1) 8 8
  let v := getBits (c.w 2) 0 16
  if s.part.lanes ≤ u || 7 < q || 0x8000 ≤ v then s.refuse c
  else if !s.keyed .cmd then (((s.lockUse .cmd).setF F.DEV_LOCK_STS_kg_drop 1)).refuse c
  else
    let s := s.lockUse .cmd
    let s := { s with eng := { s.eng with configured := tblSet s.eng.configured (8 * u + q) v } }
    (s.deckleWrite u q (s.configuredCapped u q)).respond c 0 [BitVec.ofNat 32 v]

/-- DECKLE_READ. -/
def State.cmdDeckleRead (s : State) (c : CmdRec) : State :=
  let u := getBits (c.w 1) 0 8
  if s.part.lanes ≤ u then s.refuse c
  else s.respond c 0 ((List.range 4).map fun j =>
    BitVec.ofNat 32 (s.configuredDeckle u (2 * j) + s.configuredDeckle u (2 * j + 1) * 0x10000))

/-! ## The event log (R441, R442) -/

/-- Record `x` is written before record `y` (R34). -/
def EvRec.before (x y : EvRec) : Bool :=
  if x.stamp != y.stamp then x.stamp < y.stamp
  else if x.source != y.source then x.source < y.source
  else x.origin.toNat < y.origin.toNat

/-- The record of a queue that is written first, with its position. -/
def firstRec : List EvRec → Nat → Option (Nat × EvRec) → Option (Nat × EvRec)
  | [], _, b => b
  | r :: rs, i, none => firstRec rs (i + 1) (some (i, r))
  | r :: rs, i, some (j, x) => firstRec rs (i + 1) (if r.before x then some (i, r) else some (j, x))

/-- The RG8 entry of a record (R442). -/
def EvRec.words (r : EvRec) (dropped : Bool) (no : Nat) : List Word :=
  [BitVec.ofNat 32 (r.source % 64 + r.safety.toNat * 0x100 + dropped.toNat * 0x200 + r.payload % 0x10000 * 0x10000),
   BitVec.ofNat 32 r.stamp, BitVec.ofNat 32 (r.stamp / 2 ^ 32), r.origin, r.reaction, BitVec.ofNat 32 r.tick, 0,
   BitVec.ofNat 32 no]

/-- The next record goes to RG8, no earlier than 1 µs after its stamp; a record that RG8 does not take counts as dropped. -/
def State.logWrite (s : State) : State :=
  match firstRec s.host.queue 0 none with
  | none => s
  | some (i, r) =>
    let s := s.at (r.stamp + 1000)
    let q := s.host.queue.eraseIdx i
    let was := s.host.dropped
    let no := s.host.logNo
    let room := s.ringOn 8 && s.ringCount 8 < s.ringCap 8
    let s := { s.setF F.EVT_STS_queue q.length with
      host := { s.host with queue := q, logNo := no + 1, dropped := !room } }
    s.ringPut 8 [r.words was no]

/-! ## Meanings -/

/-- READ_CLEAR (R10). -/
def execReadClear (m : Master) (a : Nat) (inc : Word) (s : State) : Host.Outcome State Fault Refusal :=
  onBus s m fun s => s.readInc m a inc
/-- PERST (R421). -/
def execPerst (level : Bool) (s : State) : Host.Outcome State Fault Refusal := onMain s fun s => s.perst level
/-- LINK_CHANGE (R421). -/
def execLinkChange (up : Bool) (s : State) : Host.Outcome State Fault Refusal := onMain s fun s => s.linkChange up
/-- POWER_STATE_CHANGE (R421). -/
def execPowerStateChange (d3 : Bool) (s : State) : Host.Outcome State Fault Refusal := onMain s fun s => s.powerState d3
/-- SPI_WRITE (R423). -/
def execSpiWrite (addr : Word) (data : List Word) (s : State) : Host.Outcome State Fault Refusal :=
  onMain s fun s => s.spiWords (spiAddr addr) data
/-- SPI_READ (R423). -/
def execSpiRead (addr : Word) (count : Nat) (s : State) : Host.Outcome State Fault Refusal :=
  onMain s fun s => let r := s.busReads .spi (spiAddr addr) count; r.2.returns .spi r.1
/-- SPI_STATUS (R423). -/
def execSpiStatus (s : State) : Host.Outcome State Fault Refusal := onMain s State.spiStatus
/-- SPI_FRAME_ERROR (R423). -/
def execSpiFrameError (s : State) : Host.Outcome State Fault Refusal :=
  onMain s fun s => { s with host := { s.host with spiError := true } }.linkEvent
/-- REGISTER_WRITE (R424). -/
def execRegisterWrite (m : Master) (a : Nat) (be : BitVec 4) (val hw : Word) (s : State) :
    Host.Outcome State Fault Refusal :=
  onBus s m fun s => (s.busWrite m a be val hw).1
/-- MASKED_WRITE (R426): `a` is the address of the alias. -/
def execMaskedWrite (m : Master) (a : Nat) (val : Word) (s : State) : Host.Outcome State Fault Refusal :=
  onBus s m fun s => (s.busWrite m a 0xF val 0).1
/-- LOCK_KEY (R428). -/
def execLockKey (m : Master) (val : Word) (s : State) : Host.Outcome State Fault Refusal :=
  onBus s m fun s => s.lockKey m val
/-- LOCK_LAPSE (R428). -/
def execLockLapse (m : Master) (s : State) : Host.Outcome State Fault Refusal := onMain s fun s => s.lockLapse m
/-- RING_CONFIG (R431). -/
def execRingConfig (n : Fin 16) (val : Word) (s : State) : Host.Outcome State Fault Refusal :=
  onMain s fun s => s.ringCfg n val.toNat
/-- DOORBELL (R432). -/
def execDoorbell (n : Fin 16) (val : Word) (s : State) : Host.Outcome State Fault Refusal :=
  onMain s fun s => s.doorbell n val.toNat
/-- HEAD_WRITE (R432). -/
def execHeadWrite (n : Fin 16) (val : Word) (s : State) : Host.Outcome State Fault Refusal :=
  onMain s fun s => s.headWrite n val.toNat
/-- COMMAND_TAKE (R435). -/
def execCommandTake (s : State) : Host.Outcome State Fault Refusal := onMain s State.commandTake
/-- CMD_NOP (R436). -/
def execCmdNop (s : State) : Host.Outcome State Fault Refusal := onMain s fun s => s.onCmd 0 fun s c => s.respond c 0 []
/-- CMD_VERSION (R436). -/
def execCmdVersion (s : State) : Host.Outcome State Fault Refusal :=
  onMain s fun s => s.onCmd 1 fun s c => s.respond c 0 [Config.keeperVersion]
/-- TIME_READ (R436). -/
def execTimeRead (s : State) : Host.Outcome State Fault Refusal :=
  onMain s fun s => s.onCmd 2 fun s c => s.respond c 0 [BitVec.ofNat 32 s.now, BitVec.ofNat 32 (s.now / 2 ^ 32)]
/-- REG_READ (R436). -/
def execRegRead (s : State) : Host.Outcome State Fault Refusal := onMain s fun s => s.onCmd 3 State.cmdRead
/-- REG_WRITE (R436). -/
def execRegWrite (s : State) : Host.Outcome State Fault Refusal := onMain s fun s => s.onCmd 4 State.cmdWrite
/-- DECKLE_CONFIG (R437). -/
def execDeckleConfig (s : State) : Host.Outcome State Fault Refusal := onMain s fun s => s.onCmd 5 State.cmdDeckle
/-- DECKLE_READ (R436). -/
def execDeckleRead (s : State) : Host.Outcome State Fault Refusal := onMain s fun s => s.onCmd 6 State.cmdDeckleRead
/-- UNKNOWN_OPCODE (R436). -/
def execUnknownOpcode (s : State) : Host.Outcome State Fault Refusal :=
  onMain s fun s => match s.host.cmd with
    | some c => if 6 < c.opcode then s.respond c 1 [] else s
    | none => s
/-- EVENT_LOG_WRITE (R441). -/
def execEventLogWrite (s : State) : Host.Outcome State Fault Refusal := onMain s State.logWrite
/-- VECTOR_ACK (R443). -/
def execVectorAck (v : Fin 16) (s : State) : Host.Outcome State Fault Refusal := onMain s fun s => s.vecAck v
/-- MSIX_UNMASK (R443). -/
def execMsixUnmask (mask : MsixMask) (s : State) : Host.Outcome State Fault Refusal :=
  onMain s fun s => match mask with
    | .vector v => s.vecUnmask v
    | .function set => s.fnMaskWrite set
/-- FORERUNNER_READ (R445). -/
def execForerunnerRead (m : Master) (k : Fin 24) (s : State) : Host.Outcome State Fault Refusal :=
  onBus s m fun s => let r := s.readReg m (R.EVT_FR k); r.2.returns m [r.1]

end Sys2Proof.Machine
end

