-- ==== Sys2Proof/Machine/Tick.lean ====
section
/-! DEFINITION. The phases of a tick around the couch (R19, R23, R26–R29): the sample point, headbox ready and the end of
the last tick. An event whose instant has not come in the order of R19 changes nothing. -/

namespace Sys2Proof.Machine

/-! ## Sample point -/

/-- The instant of the next tick start and the tick generator after it: the next tick of a run, or the first one of an
accepted start that is pending (R27–R29), which waits while a follower holds its counter (R37); `none` where no tick starts
next. -/
def State.tickDue (s : State) : Option (Nat × State) :=
  if s.running then
    if s.tm.stopping || s.tm.phase != 3 then none
    else some (s.tm.start + s.periodNs, s.incWrap F.TIME_TICK_COUNT_count)
  else if s.tm.holdLag.isSome then none
  else match s.tm.pend with
    | none => none
    | some r => some (r.first, { (s.setF F.TIME_TICK_STS_running 1).setF F.TIME_TICK_COUNT_count 0 with
        tm := { s.tm with pend := none, period := r.period, lead := r.lead, epoch := r.epoch, stopping := false },
        line := { s.line with acc := [], couched := none, exchGo := false } })

/-- What latches and starts at tick start `t` (R19, R23, R102, R176, R191): the measurements take what the outputs gave
before the edge. -/
def State.latchAll (s : State) (t : Nat) : State :=
  let s := (List.range 40).foldl State.sdOutput s
  let s := { s with sns := { s.sns with sampleAt := t, ainPrior := s.sns.ainBg, ainNow := [], ainBg := [] } }
  let s := ((s.sdcRestart t).kynSample).engTick
  let s := (List.range 8).foldl State.obsPredict s
  let s := (List.range 8).foldl State.ssiTick s
  let s := (List.range 8).foldl State.pulseSample s
  let s := (List.range 8).foldl (State.boundStart t) s
  s.freeLegs

/-- SAMPLE_POINT: a tick starts on the grid. -/
def State.samplePoint (s : State) : State :=
  if s.halted then s
  else
    let s := if s.running && s.tm.phase == 3 && !s.tm.stopping then s.engEnd else s
    match s.tickDue with
    | none => s
    | some (t, s) =>
      let s := s.at t
      ({ s with tm := { s.tm with start := t, phase := 1 } }).latchAll t

/-! ## Headbox ready -/

/-- The headbox words of drive `u`: currents, voltages and θ (R117), its validity word (R118), the low word of the sample
point's instant, which an absent drive shows too (DESIGN CHOICE, log entry 128), and the entries of its feedback port (R297). -/
def State.headboxDrive (s : State) (u : Nat) : List (Nat × Word) :=
  let th := s.thetaEntry u
  s.driveWords u ++ [(0x40 * u + 0xC, th), (0x40 * u + 0x30, s.driveValid u (!fIsNan th)),
    (0x40 * u + 0x34, BitVec.ofNat 32 s.sns.sampleAt)] ++ s.feedbackEntries u

/-- All front-end words of the tick (R117). -/
def State.headboxWords (s : State) : List (Nat × Word) :=
  ((List.range 8).flatMap s.headboxDrive) ++ s.cvWords 0 ++ s.cvWords 1 ++ s.generalWords

/-- The trace entry of this tick (R438). -/
def State.traceEntry (s : State) : List Word :=
  BitVec.ofNat 32 (s.f F.TIME_TICK_COUNT_count) :: (List.range 7).map fun k =>
    if s.bit (F.EVT_TRC_SEL_sel_en k) then s.hbWord (4 * s.f (F.EVT_TRC_SEL_addr k)) else 0

/-- Every (div_m1 + 1)-th tick leaves an entry in RG9 (R438). -/
def State.trace (s : State) : State :=
  if s.bit F.EVT_TRC_CTL_en && s.f F.TIME_TICK_COUNT_count % (s.f F.EVT_TRC_CTL_div_m1 + 1) == 0 then
    s.ringPut 9 [s.traceEntry]
  else s

/-- HEADBOX_READY: at 1.5 µs the front-end words of the tick become visible, all at once. -/
def State.headboxReady (s : State) : State :=
  if !s.running || s.tm.phase != 1 || s.halted then s
  else
    let s := (List.range 8).foldl State.unitMeasure (s.at (s.tm.start + 1500))
    let s := ((s.hbPut s.headboxWords).hbStatus).trace
    { s with tm := { s.tm with phase := 2 } }

/-! ## End of the last tick -/

/-- The first tick of a start that was accepted during the last tick of the run before lies at the first grid instant of the
new run that is not before that tick's end (log entry 31). -/
def State.pendAfter (s : State) : State :=
  { s with tm := { s.tm with pend := s.tm.pend.map fun r => { r with first := gridAt r.epoch (4 * r.period) (max r.first s.now) } } }

/-- LAST_TICK_END: a tick after whose accepted stop no other starts comes to its end (R28, R176, R212). -/
def State.lastTickEnd (s : State) : State :=
  if !s.running || s.tm.phase != 3 || !s.tm.stopping || s.halted then s
  else
    let s := ((s.at (s.tm.start + s.periodNs)).engEnd).setF F.TIME_TICK_STS_running 0
    let s := ({ s with tm := { s.tm with phase := 0, stopping := false } } : State).pendAfter
    let s := ((List.range 8).foldl State.boundStop s).kynStop
    (List.range 8).foldl (fun s p => s.setPort p { s.port p with idleAt := s.now, ssiFail := false }) s

/-! ## Meanings -/

/-- SAMPLE_POINT (R19). -/
def execSamplePoint (s : State) : Host.Outcome State Fault Refusal := onMain s State.samplePoint
/-- HEADBOX_READY (R19). -/
def execHeadboxReady (s : State) : Host.Outcome State Fault Refusal := onMain s State.headboxReady
/-- LAST_TICK_END (R28). -/
def execLastTickEnd (s : State) : Host.Outcome State Fault Refusal := onMain s State.lastTickEnd

end Sys2Proof.Machine
end

