-- ==== Sys2Proof/Machine/Dispatch.lean ====
section
/-! DEFINITION. The dispatch: one arm per constructor of `Instr`, each one direct call of the command's meaning. -/

namespace Sys2Proof.Machine

/-- The effect of a command on everything but the queue. -/
def exec (i : Instr) (s : State) : Host.Outcome State Fault Refusal :=
  match i with
  | .samplePoint => Sys2Proof.Machine.execSamplePoint s
  | .headboxReady => Sys2Proof.Machine.execHeadboxReady s
  | .couch => Sys2Proof.Machine.execCouch s
  | .lastTickEnd => Sys2Proof.Machine.execLastTickEnd s
  | .startTick => Sys2Proof.Machine.execStartTick s
  | .stopTick => Sys2Proof.Machine.execStopTick s
  | .ppsoSecond => Sys2Proof.Machine.execPpsoSecond s
  | .ppsoPulseEnd => Sys2Proof.Machine.execPpsoPulseEnd s
  | .ppsiEdge ph => Sys2Proof.Machine.execPpsiEdge ph s
  | .timeNowRead m => Sys2Proof.Machine.execTimeNowRead m s
  | .gpioStampRead m => Sys2Proof.Machine.execGpioStampRead m s
  | .canTimestampRead n m => Sys2Proof.Machine.execCanTimestampRead n m s
  | .readClear m addr inc => Sys2Proof.Machine.execReadClear m addr inc s
  | .sliceStart idx => Sys2Proof.Machine.execSliceStart idx s
  | .budgetExpiry n => Sys2Proof.Machine.execBudgetExpiry n s
  | .scrubCheck => Sys2Proof.Machine.execScrubCheck s
  | .tileRefetch => Sys2Proof.Machine.execTileRefetch s
  | .tileRefetchDone => Sys2Proof.Machine.execTileRefetchDone s
  | .tableTileWrite m off be val => Sys2Proof.Machine.execTableTileWrite m off be val s
  | .programWindowWrite m off be val => Sys2Proof.Machine.execProgramWindowWrite m off be val s
  | .tileWmCommit tile => Sys2Proof.Machine.execTileWmCommit tile s
  | .wmCheckDone => Sys2Proof.Machine.execWmCheckDone s
  | .ctxRestart n => Sys2Proof.Machine.execCtxRestart n s
  | .keeperWatchdog => Sys2Proof.Machine.execKeeperWatchdog s
  | .version => Sys2Proof.Machine.execVersion s
  | .deckleGet => Sys2Proof.Machine.execDeckleGet s
  | .deckleNarrow => Sys2Proof.Machine.execDeckleNarrow s
  | .deckleRestore => Sys2Proof.Machine.execDeckleRestore s
  | .safetySend => Sys2Proof.Machine.execSafetySend s
  | .safetyRead => Sys2Proof.Machine.execSafetyRead s
  | .tileQuery => Sys2Proof.Machine.execTileQuery s
  | .haltSelf => Sys2Proof.Machine.execHaltSelf s
  | .unknownService => Sys2Proof.Machine.execUnknownService s
  | .add c p d a b => Sys2Proof.Machine.execAdd c p d a b s
  | .sub c p d a b => Sys2Proof.Machine.execSub c p d a b s
  | .and c p d a b => Sys2Proof.Machine.execAnd c p d a b s
  | .or c p d a b => Sys2Proof.Machine.execOr c p d a b s
  | .xor c p d a b => Sys2Proof.Machine.execXor c p d a b s
  | .shl c p d a b => Sys2Proof.Machine.execShl c p d a b s
  | .shr c p d a b => Sys2Proof.Machine.execShr c p d a b s
  | .sar c p d a b => Sys2Proof.Machine.execSar c p d a b s
  | .slt c p d a b => Sys2Proof.Machine.execSlt c p d a b s
  | .sltu c p d a b => Sys2Proof.Machine.execSltu c p d a b s
  | .min c p d a b => Sys2Proof.Machine.execMin c p d a b s
  | .max c p d a b => Sys2Proof.Machine.execMax c p d a b s
  | .mul c p d a b => Sys2Proof.Machine.execMul c p d a b s
  | .mulh c p d a b => Sys2Proof.Machine.execMulh c p d a b s
  | .div c p d a b => Sys2Proof.Machine.execDiv c p d a b s
  | .rem c p d a b => Sys2Proof.Machine.execRem c p d a b s
  | .adds c p d a b => Sys2Proof.Machine.execAdds c p d a b s
  | .subs c p d a b => Sys2Proof.Machine.execSubs c p d a b s
  | .addi c p d a imm => Sys2Proof.Machine.execAddi c p d a imm s
  | .andi c p d a imm => Sys2Proof.Machine.execAndi c p d a imm s
  | .ori c p d a imm => Sys2Proof.Machine.execOri c p d a imm s
  | .xori c p d a imm => Sys2Proof.Machine.execXori c p d a imm s
  | .shli c p d a amt => Sys2Proof.Machine.execShli c p d a amt s
  | .shri c p d a amt => Sys2Proof.Machine.execShri c p d a amt s
  | .sari c p d a amt => Sys2Proof.Machine.execSari c p d a amt s
  | .lui c p d imm => Sys2Proof.Machine.execLui c p d imm s
  | .lli c p d imm => Sys2Proof.Machine.execLli c p d imm s
  | .cmpEq c p d a b => Sys2Proof.Machine.execCmpEq c p d a b s
  | .cmpNe c p d a b => Sys2Proof.Machine.execCmpNe c p d a b s
  | .cmpLt c p d a b => Sys2Proof.Machine.execCmpLt c p d a b s
  | .cmpGe c p d a b => Sys2Proof.Machine.execCmpGe c p d a b s
  | .cmpLtu c p d a b => Sys2Proof.Machine.execCmpLtu c p d a b s
  | .cmpGeu c p d a b => Sys2Proof.Machine.execCmpGeu c p d a b s
  | .fcmpEq c p d a b => Sys2Proof.Machine.execFcmpEq c p d a b s
  | .fcmpLt c p d a b => Sys2Proof.Machine.execFcmpLt c p d a b s
  | .fcmpLe c p d a b => Sys2Proof.Machine.execFcmpLe c p d a b s
  | .fcmpUn c p d a b => Sys2Proof.Machine.execFcmpUn c p d a b s
  | .pand c p d a b => Sys2Proof.Machine.execPand c p d a b s
  | .por c p d a b => Sys2Proof.Machine.execPor c p d a b s
  | .pxor c p d a b => Sys2Proof.Machine.execPxor c p d a b s
  | .pnot c p d a => Sys2Proof.Machine.execPnot c p d a s
  | .pset c p d a => Sys2Proof.Machine.execPset c p d a s
  | .fadd c p d a b => Sys2Proof.Machine.execFadd c p d a b s
  | .fsub c p d a b => Sys2Proof.Machine.execFsub c p d a b s
  | .fmul c p d a b => Sys2Proof.Machine.execFmul c p d a b s
  | .fma c p d a b => Sys2Proof.Machine.execFma c p d a b s
  | .fdiv c p d a b => Sys2Proof.Machine.execFdiv c p d a b s
  | .fsqrt c p d a => Sys2Proof.Machine.execFsqrt c p d a s
  | .fmin c p d a b => Sys2Proof.Machine.execFmin c p d a b s
  | .fmax c p d a b => Sys2Proof.Machine.execFmax c p d a b s
  | .fabs c p d a => Sys2Proof.Machine.execFabs c p d a s
  | .fneg c p d a => Sys2Proof.Machine.execFneg c p d a s
  | .fclamp c p d a b => Sys2Proof.Machine.execFclamp c p d a b s
  | .ftoi c p d a => Sys2Proof.Machine.execFtoi c p d a s
  | .itof c p d a => Sys2Proof.Machine.execItof c p d a s
  | .ftoq c p d a b => Sys2Proof.Machine.execFtoq c p d a b s
  | .qtof c p d a b => Sys2Proof.Machine.execQtof c p d a b s
  | .fclass c p d a => Sys2Proof.Machine.execFclass c p d a s
  | .lwl c p d a imm => Sys2Proof.Machine.execLwl c p d a imm s
  | .swl c p d a imm => Sys2Proof.Machine.execSwl c p d a imm s
  | .lwd c p d a imm => Sys2Proof.Machine.execLwd c p d a imm s
  | .swd c p d a imm => Sys2Proof.Machine.execSwd c p d a imm s
  | .lwh c p d a imm => Sys2Proof.Machine.execLwh c p d a imm s
  | .lwt c p d a w => Sys2Proof.Machine.execLwt c p d a w s
  | .vll c p d a imm => Sys2Proof.Machine.execVll c p d a imm s
  | .vsl c p d a imm => Sys2Proof.Machine.execVsl c p d a imm s
  | .vld c p d a imm => Sys2Proof.Machine.execVld c p d a imm s
  | .vsd c p d a imm => Sys2Proof.Machine.execVsd c p d a imm s
  | .vlh c p d a imm => Sys2Proof.Machine.execVlh c p d a imm s
  | .vlt c p d a w => Sys2Proof.Machine.execVlt c p d a w s
  | .vaddF c p d a b => Sys2Proof.Machine.execVaddF c p d a b s
  | .vsubF c p d a b => Sys2Proof.Machine.execVsubF c p d a b s
  | .vmulF c p d a b => Sys2Proof.Machine.execVmulF c p d a b s
  | .vfmaF c p d a b => Sys2Proof.Machine.execVfmaF c p d a b s
  | .vminF c p d a b => Sys2Proof.Machine.execVminF c p d a b s
  | .vmaxF c p d a b => Sys2Proof.Machine.execVmaxF c p d a b s
  | .vdotF c p d a b => Sys2Proof.Machine.execVdotF c p d a b s
  | .vcmpltF c p d a b => Sys2Proof.Machine.execVcmpltF c p d a b s
  | .vcmpeqF c p d a b => Sys2Proof.Machine.execVcmpeqF c p d a b s
  | .vaddH c p d a b => Sys2Proof.Machine.execVaddH c p d a b s
  | .vsubH c p d a b => Sys2Proof.Machine.execVsubH c p d a b s
  | .vmulqH c p d a b => Sys2Proof.Machine.execVmulqH c p d a b s
  | .vcvtFh c p d a => Sys2Proof.Machine.execVcvtFh c p d a s
  | .vcvtHf c p d a => Sys2Proof.Machine.execVcvtHf c p d a s
  | .vsplat c p d a => Sys2Proof.Machine.execVsplat c p d a s
  | .vins c p d a b => Sys2Proof.Machine.execVins c p d a b s
  | .vext c p d a b => Sys2Proof.Machine.execVext c p d a b s
  | .vshuf c p d a sel => Sys2Proof.Machine.execVshuf c p d a sel s
  | .vclarke c p d a => Sys2Proof.Machine.execVclarke c p d a s
  | .vpark c p d a b => Sys2Proof.Machine.execVpark c p d a b s
  | .vipark c p d a b => Sys2Proof.Machine.execVipark c p d a b s
  | .vsincos c p d a => Sys2Proof.Machine.execVsincos c p d a s
  | .vsvm c p d a b => Sys2Proof.Machine.execVsvm c p d a b s
  | .vpi c p d a b => Sys2Proof.Machine.execVpi c p d a b s
  | .vlim c p d a b => Sys2Proof.Machine.execVlim c p d a b s
  | .lut c p d a b => Sys2Proof.Machine.execLut c p d a b s
  | .br c p slot word => Sys2Proof.Machine.execBr c p slot word s
  | .loop c a max len => Sys2Proof.Machine.execLoop c a max len s
  | .stg c p cv a b => Sys2Proof.Machine.execStg c p cv a b s
  | .tcommit c p => Sys2Proof.Machine.execTcommit c p s
  | .tabort c p => Sys2Proof.Machine.execTabort c p s
  | .topen c p d a => Sys2Proof.Machine.execTopen c p d a s
  | .nop c p => Sys2Proof.Machine.execNop c p s
  | .yield c p => Sys2Proof.Machine.execYield c p s
  | .evt c p a src => Sys2Proof.Machine.execEvt c p a src s
  | .mfs c p d sel => Sys2Proof.Machine.execMfs c p d sel s
  | .mts c p a sel => Sys2Proof.Machine.execMts c p a sel s
  | .callk c p svc a b => Sys2Proof.Machine.execCallk c p svc a b s
  | .illegalInstruction c w => Sys2Proof.Machine.execIllegalInstruction c w s
  | .debugHalt jtag => Sys2Proof.Machine.execDebugHalt jtag s
  | .breakpointHit n => Sys2Proof.Machine.execBreakpointHit n s
  | .debugStep n => Sys2Proof.Machine.execDebugStep n s
  | .debugResume => Sys2Proof.Machine.execDebugResume s
  | .debugDataWrite n k val => Sys2Proof.Machine.execDebugDataWrite n k val s
  | .sdcEnable m => Sys2Proof.Machine.execSdcEnable m s
  | .sdEnable n => Sys2Proof.Machine.execSdEnable n s
  | .fastEnable n => Sys2Proof.Machine.execFastEnable n s
  | .sdIdleOutput n => Sys2Proof.Machine.execSdIdleOutput n s
  | .sarEnable => Sys2Proof.Machine.execSarEnable s
  | .sarSlotDone slot c0 c1 => Sys2Proof.Machine.execSarSlotDone slot c0 c1 s
  | .sarIdleSequence codes => Sys2Proof.Machine.execSarIdleSequence codes s
  | .observerUpdate n => Sys2Proof.Machine.execObserverUpdate n s
  | .observerValid n => Sys2Proof.Machine.execObserverValid n s
  | .observerLoss n => Sys2Proof.Machine.execObserverLoss n s
  | .fldEnable n => Sys2Proof.Machine.execFldEnable n s
  | .fldDisable n => Sys2Proof.Machine.execFldDisable n s
  | .testPulse n => Sys2Proof.Machine.execTestPulse n s
  | .magnetiseDone n => Sys2Proof.Machine.execMagnetiseDone n s
  | .lockedRotor n => Sys2Proof.Machine.execLockedRotor n s
  | .overspeed n => Sys2Proof.Machine.execOverspeed n s
  | .rideThroughEnter n => Sys2Proof.Machine.execRideThroughEnter n s
  | .rideThroughEnd n => Sys2Proof.Machine.execRideThroughEnd n s
  | .limpClear n => Sys2Proof.Machine.execLimpClear n s
  | .modEnable d => Sys2Proof.Machine.execModEnable d s
  | .modDisable d => Sys2Proof.Machine.execModDisable d s
  | .reloadEvent d => Sys2Proof.Machine.execReloadEvent d s
  | .carrierZeroEvent d => Sys2Proof.Machine.execCarrierZeroEvent d s
  | .carrierPeakEvent d => Sys2Proof.Machine.execCarrierPeakEvent d s
  | .pwmCommandEdge d j => Sys2Proof.Machine.execPwmCommandEdge d j s
  | .deadTimeEnd n => Sys2Proof.Machine.execDeadTimeEnd n s
  | .dutyHostWrite d k val => Sys2Proof.Machine.execDutyHostWrite d k val s
  | .holdRelease d => Sys2Proof.Machine.execHoldRelease d s
  | .gateCfgWrite n val => Sys2Proof.Machine.execGateCfgWrite n val s
  | .legEnable n => Sys2Proof.Machine.execLegEnable n s
  | .bootstrapRefresh n => Sys2Proof.Machine.execBootstrapRefresh n s
  | .refreshEnd n => Sys2Proof.Machine.execRefreshEnd n s
  | .psynciEdge => Sys2Proof.Machine.execPsynciEdge s
  | .laneEnable n => Sys2Proof.Machine.execLaneEnable n s
  | .laneDisable n => Sys2Proof.Machine.execLaneDisable n s
  | .laneTrainLock n => Sys2Proof.Machine.execLaneTrainLock n s
  | .trainTimeout n => Sys2Proof.Machine.execTrainTimeout n s
  | .identUplinkFrame n loop frame => Sys2Proof.Machine.execIdentUplinkFrame n loop frame s
  | .identTimeout n => Sys2Proof.Machine.execIdentTimeout n s
  | .laneDiagCmd n position all => Sys2Proof.Machine.execLaneDiagCmd n position all s
  | .laneIdentCmd n => Sys2Proof.Machine.execLaneIdentCmd n s
  | .readyFrame n => Sys2Proof.Machine.execReadyFrame n s
  | .downlinkBurst n => Sys2Proof.Machine.execDownlinkBurst n s
  | .uplinkFrame n t frame => Sys2Proof.Machine.execUplinkFrame n t frame s
  | .laneDown n => Sys2Proof.Machine.execLaneDown n s
  | .armEnable a => Sys2Proof.Machine.execArmEnable a s
  | .armDisable a => Sys2Proof.Machine.execArmDisable a s
  | .cellRetire c => Sys2Proof.Machine.execCellRetire c s
  | .bypassUnconfirmed c => Sys2Proof.Machine.execBypassUnconfirmed c s
  | .spreadLimit a => Sys2Proof.Machine.execSpreadLimit a s
  | .circLimit a => Sys2Proof.Machine.execCircLimit a s
  | .gfFault n => Sys2Proof.Machine.execGfFault n s
  | .gfBlankingEnd n high => Sys2Proof.Machine.execGfBlankingEnd n high s
  | .gfClear n high => Sys2Proof.Machine.execGfClear n high s
  | .drdyLoss b => Sys2Proof.Machine.execDrdyLoss b s
  | .drdyClear b high => Sys2Proof.Machine.execDrdyClear b high s
  | .fastOvercurrent ch high => Sys2Proof.Machine.execFastOvercurrent ch high s
  | .ov2Detect k => Sys2Proof.Machine.execOv2Detect k s
  | .tripInput m => Sys2Proof.Machine.execTripInput m s
  | .tripClear mask high => Sys2Proof.Machine.execTripClear mask high s
  | .undervoltage k => Sys2Proof.Machine.execUndervoltage k s
  | .vdcLost k => Sys2Proof.Machine.execVdcLost k s
  | .chopperDecision => Sys2Proof.Machine.execChopperDecision s
  | .governorIdleDecision => Sys2Proof.Machine.execGovernorIdleDecision s
  | .chopperCfFault n => Sys2Proof.Machine.execChopperCfFault n s
  | .chopperFaultClear n high => Sys2Proof.Machine.execChopperFaultClear n high s
  | .protEnable k => Sys2Proof.Machine.execProtEnable k s
  | .protDisable k => Sys2Proof.Machine.execProtDisable k s
  | .release k => Sys2Proof.Machine.execRelease k s
  | .hostRequest k req => Sys2Proof.Machine.execHostRequest k req s
  | .rampTimeout k => Sys2Proof.Machine.execRampTimeout k s
  | .diagStart k => Sys2Proof.Machine.execDiagStart k s
  | .diagAbort => Sys2Proof.Machine.execDiagAbort s
  | .diagStepEnd => Sys2Proof.Machine.execDiagStepEnd s
  | .mmcDiagEnd => Sys2Proof.Machine.execMmcDiagEnd s
  | .portEnable n => Sys2Proof.Machine.execPortEnable n s
  | .portDisable n => Sys2Proof.Machine.execPortDisable n s
  | .illegalTransition n => Sys2Proof.Machine.execIllegalTransition n s
  | .index n => Sys2Proof.Machine.execIndex n s
  | .amplitudeFault n => Sys2Proof.Machine.execAmplitudeFault n s
  | .ssiFrameStart n data => Sys2Proof.Machine.execSsiFrameStart n data s
  | .ssiFrameEnd n bits => Sys2Proof.Machine.execSsiFrameEnd n bits s
  | .feedbackObserverUpdate n => Sys2Proof.Machine.execFeedbackObserverUpdate n s
  | .feedbackIdleCycle n => Sys2Proof.Machine.execFeedbackIdleCycle n s
  | .portSettled n => Sys2Proof.Machine.execPortSettled n s
  | .portClear n => Sys2Proof.Machine.execPortClear n s
  | .refClear n => Sys2Proof.Machine.execRefClear n s
  | .compareArm n val => Sys2Proof.Machine.execCompareArm n val s
  | .compareHit n => Sys2Proof.Machine.execCompareHit n s
  | .comparePulseEnd n => Sys2Proof.Machine.execComparePulseEnd n s
  | .emulationEnable m => Sys2Proof.Machine.execEmulationEnable m s
  | .emulatorStep m => Sys2Proof.Machine.execEmulatorStep m s
  | .axisEnable n => Sys2Proof.Machine.execAxisEnable n s
  | .axisDisable n => Sys2Proof.Machine.execAxisDisable n s
  | .stopRequest n => Sys2Proof.Machine.execStopRequest n s
  | .homeCommand n => Sys2Proof.Machine.execHomeCommand n s
  | .axisClear n => Sys2Proof.Machine.execAxisClear n s
  | .offsetWrite n val => Sys2Proof.Machine.execOffsetWrite n val s
  | .limitSwitchChange n high held => Sys2Proof.Machine.execLimitSwitchChange n high held s
  | .chatter n high => Sys2Proof.Machine.execChatter n high s
  | .followingError n => Sys2Proof.Machine.execFollowingError n s
  | .standstillTimer n => Sys2Proof.Machine.execStandstillTimer n s
  | .brakeTimer n => Sys2Proof.Machine.execBrakeTimer n s
  | .releaseTimer n => Sys2Proof.Machine.execReleaseTimer n s
  | .slack n => Sys2Proof.Machine.execSlack n s
  | .syncError n => Sys2Proof.Machine.execSyncError n s
  | .camEnable m => Sys2Proof.Machine.execCamEnable m s
  | .lineEnable => Sys2Proof.Machine.execLineEnable s
  | .lineLeave => Sys2Proof.Machine.execLineLeave s
  | .helloSend => Sys2Proof.Machine.execHelloSend s
  | .helloFrame ringB own direct frame => Sys2Proof.Machine.execHelloFrame ringB own direct frame s
  | .formationTimeout => Sys2Proof.Machine.execFormationTimeout s
  | .linkDelayMeasure ringB rtt sum => Sys2Proof.Machine.execLinkDelayMeasure ringB rtt sum s
  | .syncSend => Sys2Proof.Machine.execSyncSend s
  | .syncFrame ringB frame => Sys2Proof.Machine.execSyncFrame ringB frame s
  | .timeLoss => Sys2Proof.Machine.execTimeLoss s
  | .exchSend => Sys2Proof.Machine.execExchSend s
  | .exchFrame ringB t frame => Sys2Proof.Machine.execExchFrame ringB t frame s
  | .receiveAreaWrite => Sys2Proof.Machine.execReceiveAreaWrite s
  | .ringDown ringB alignment => Sys2Proof.Machine.execRingDown ringB alignment s
  | .ringUp ringB => Sys2Proof.Machine.execRingUp ringB s
  | .mailSend => Sys2Proof.Machine.execMailSend s
  | .mailFrame ringB frame => Sys2Proof.Machine.execMailFrame ringB frame s
  | .loadShareEnable d => Sys2Proof.Machine.execLoadShareEnable d s
  | .loadShareResume drives => Sys2Proof.Machine.execLoadShareResume drives s
  | .canEnable n => Sys2Proof.Machine.execCanEnable n s
  | .canIntegrated n => Sys2Proof.Machine.execCanIntegrated n s
  | .canDisable n => Sys2Proof.Machine.execCanDisable n s
  | .canModeChange n => Sys2Proof.Machine.execCanModeChange n s
  | .canFrameReceived n frame sof => Sys2Proof.Machine.execCanFrameReceived n frame sof s
  | .remoteFrame n => Sys2Proof.Machine.execRemoteFrame n s
  | .canBusError n lec tx e => Sys2Proof.Machine.execCanBusError n lec tx e s
  | .txRequest n k mask => Sys2Proof.Machine.execTxRequest n k mask s
  | .txCancel n mask => Sys2Proof.Machine.execTxCancel n mask s
  | .txSelect n => Sys2Proof.Machine.execTxSelect n s
  | .txDone n sof delay => Sys2Proof.Machine.execTxDone n sof delay s
  | .arbitrationLost n => Sys2Proof.Machine.execArbitrationLost n s
  | .objectWrite n obj word be val => Sys2Proof.Machine.execObjectWrite n obj word be val s
  | .objectReadLatch n obj m => Sys2Proof.Machine.execObjectReadLatch n obj m s
  | .canRecover n => Sys2Proof.Machine.execCanRecover n s
  | .busOffRecovered n => Sys2Proof.Machine.execBusOffRecovered n s
  | .referenceMessageTimer n => Sys2Proof.Machine.execReferenceMessageTimer n s
  | .referenceMessage n frame sof => Sys2Proof.Machine.execReferenceMessage n frame sof s
  | .referenceLost n => Sys2Proof.Machine.execReferenceLost n s
  | .ttTrigger n obj => Sys2Proof.Machine.execTtTrigger n obj s
  | .rg12FrameTake n => Sys2Proof.Machine.execRg12FrameTake n s
  | .sleepEnter n => Sys2Proof.Machine.execSleepEnter n s
  | .wake n frame sof => Sys2Proof.Machine.execWake n frame sof s
  | .safetySample die core back => Sys2Proof.Machine.execSafetySample die core back s
  | .safetyTick exchange toDie toCore sosc core => Sys2Proof.Machine.execSafetyTick exchange toDie toCore sosc core s
  | .discrepancy n => Sys2Proof.Machine.execDiscrepancy n s
  | .permitLoss core => Sys2Proof.Machine.execPermitLoss core s
  | .tpoPulse m => Sys2Proof.Machine.execTpoPulse m s
  | .ss1Expiry n => Sys2Proof.Machine.execSs1Expiry n s
  | .sbcDelayExpiry m => Sys2Proof.Machine.execSbcDelayExpiry m s
  | .outputTest ball high => Sys2Proof.Machine.execOutputTest ball high s
  | .safetyResetPulse => Sys2Proof.Machine.execSafetyResetPulse s
  | .gateEnableLoss => Sys2Proof.Machine.execGateEnableLoss s
  | .selfTestDone => Sys2Proof.Machine.execSelfTestDone s
  | .safetyStoreHandover => Sys2Proof.Machine.execSafetyStoreHandover s
  | .parameterLoad val => Sys2Proof.Machine.execParameterLoad val s
  | .parameterCheckDone agree => Sys2Proof.Machine.execParameterCheckDone agree s
  | .commissioningKey val => Sys2Proof.Machine.execCommissioningKey val s
  | .confirm val => Sys2Proof.Machine.execConfirm val s
  | .releaseRequest mask => Sys2Proof.Machine.execReleaseRequest mask s
  | .unlockRequest mask => Sys2Proof.Machine.execUnlockRequest mask s
  | .safetyFrameReceived c copy => Sys2Proof.Machine.execSafetyFrameReceived c copy s
  | .consumerWatchdog c => Sys2Proof.Machine.execConsumerWatchdog c s
  | .producerSend c => Sys2Proof.Machine.execProducerSend c s
  | .echoFrame c copy => Sys2Proof.Machine.execEchoFrame c copy s
  | .echoTimeout c => Sys2Proof.Machine.execEchoTimeout c s
  | .perst level => Sys2Proof.Machine.execPerst level s
  | .linkChange up => Sys2Proof.Machine.execLinkChange up s
  | .powerStateChange d3 => Sys2Proof.Machine.execPowerStateChange d3 s
  | .spiWrite addr data => Sys2Proof.Machine.execSpiWrite addr data s
  | .spiRead addr count => Sys2Proof.Machine.execSpiRead addr count s
  | .spiStatus => Sys2Proof.Machine.execSpiStatus s
  | .spiFrameError => Sys2Proof.Machine.execSpiFrameError s
  | .registerWrite m addr be val hw => Sys2Proof.Machine.execRegisterWrite m addr be val hw s
  | .maskedWrite m addr val => Sys2Proof.Machine.execMaskedWrite m addr val s
  | .lockKey m val => Sys2Proof.Machine.execLockKey m val s
  | .lockLapse m => Sys2Proof.Machine.execLockLapse m s
  | .ringConfig n val => Sys2Proof.Machine.execRingConfig n val s
  | .doorbell n val => Sys2Proof.Machine.execDoorbell n val s
  | .headWrite n val => Sys2Proof.Machine.execHeadWrite n val s
  | .commandTake => Sys2Proof.Machine.execCommandTake s
  | .cmdNop => Sys2Proof.Machine.execCmdNop s
  | .cmdVersion => Sys2Proof.Machine.execCmdVersion s
  | .timeRead => Sys2Proof.Machine.execTimeRead s
  | .regRead => Sys2Proof.Machine.execRegRead s
  | .regWrite => Sys2Proof.Machine.execRegWrite s
  | .deckleConfig => Sys2Proof.Machine.execDeckleConfig s
  | .deckleRead => Sys2Proof.Machine.execDeckleRead s
  | .unknownOpcode => Sys2Proof.Machine.execUnknownOpcode s
  | .eventLogWrite => Sys2Proof.Machine.execEventLogWrite s
  | .vectorAck v => Sys2Proof.Machine.execVectorAck v s
  | .msixUnmask mask => Sys2Proof.Machine.execMsixUnmask mask s
  | .forerunnerRead m k => Sys2Proof.Machine.execForerunnerRead m k s
  | .porstRelease straps erased => Sys2Proof.Machine.execPorstRelease straps erased s
  | .bootGo program => Sys2Proof.Machine.execBootGo program s
  | .token erased => Sys2Proof.Machine.execToken erased s
  | .jtagInstruction ir => Sys2Proof.Machine.execJtagInstruction ir s
  | .tmxSelect k code => Sys2Proof.Machine.execTmxSelect k code s
  | .mainDieReset cause => Sys2Proof.Machine.execMainDieReset cause s
  | .safetyDieReset => Sys2Proof.Machine.execSafetyDieReset s
  | .safetyDieRelease xtal => Sys2Proof.Machine.execSafetyDieRelease xtal s
  | .pllLock => Sys2Proof.Machine.execPllLock s
  | .rstoutRelease => Sys2Proof.Machine.execRstoutRelease s
  | .clockFailure cause => Sys2Proof.Machine.execClockFailure cause s
  | .supplyMeasurement rail mv => Sys2Proof.Machine.execSupplyMeasurement rail mv s
  | .temperatureReading code => Sys2Proof.Machine.execTemperatureReading code s
  | .gpioEdge n level ph => Sys2Proof.Machine.execGpioEdge n level ph s
  | .sdLatchingEdge n bit => Sys2Proof.Machine.execSdLatchingEdge n bit s
  | .quadratureCount n trackB => Sys2Proof.Machine.execQuadratureCount n trackB s
  | .counterHoldEnd => Sys2Proof.Machine.execCounterHoldEnd s

end Sys2Proof.Machine
end

