-- ==== Sys2Proof/Machine/Balls.lean ====
section
/-! DEFINITION. What the device drives on its output balls (R469), from the functions and fields of the blocks that own
them. -/

namespace Sys2Proof.Machine

/-- The output balls of R469. -/
inductive OutBall where
  | gate (n : Nat) (upper : Bool)
  | chp (n : Nat)
  | sto (n : Nat) (b : Bool)
  | sbc (m : Nat) (b : Bool)
  | sfaultN
  | faultN
  | alertN
  | rstoutN
  | tpo (m : Nat)
  | sdc (m : Nat)
  | emu (m i : Nat)
  | psynco
  | ppso
  | tmx (k : Nat)
  | ctx (n : Nat)
  | fz (p : Nat)
  | gpio (g : Nat)
  | qck
  | qcsN
  | ssdo
  | tdo
  | ktx (n : Nat)
  | stx (ringB : Bool)
  | pet
  deriving DecidableEq, Repr

/-- What a ball carries: nothing (high impedance, not driven), a serial transmitter's quiet state or idle characters, a level, or
the bits that its unit sends, which the model holds as frames. -/
inductive Drive where
  | highZ
  | quiet
  | idle
  | level (high : Bool)
  | data
  deriving DecidableEq, Repr

/-- A level, or high impedance. -/
def Drive.ofLevel : Option Bool → Drive
  | some v => .level v
  | none => .highZ

/-- Level of clock output SDCm (R102): high for the first floor(div / 2) timebase cycles of each period. -/
def State.sdcLevel (s : State) (m : Nat) : Bool :=
  match tblFind s.sns.sdcAt m with
  | some t0 =>
    let div := s.fe (F.SNS_SDC_CLK_div m)
    s.bit (F.SNS_SDC_CLK_en m) && t0 ≤ s.now && (s.now - t0) / 4 % div < div / 2
  | none => false

/-- A ball of the main die while that die is in reset (R469). -/
def OutBall.inReset : OutBall → Drive
  | .gate _ _ | .chp _ | .fz _ | .gpio _ | .alertN | .ssdo | .tdo => .highZ
  | .ctx _ | .qcsN => .level true
  | .ktx _ | .stx _ | .pet => .quiet
  | _ => .level false

/-- The safety die drives this ball, from SVDD: STOA, SBCA, SFAULT_N and TPO (R384, R392). -/
def OutBall.ofDie : OutBall → Bool
  | .sto _ b => !b
  | .sbc _ b => !b
  | .sfaultN | .tpo _ => true
  | _ => false

/-- The rail that supplies a ball (R384, R469, R484). -/
def OutBall.rail (b : OutBall) : Nat :=
  if b.ofDie then 5 else match b with
    | .ktx _ | .stx _ | .pet => 1
    | _ => 3

/-- What the unit that owns a ball drives outside reset; the open-drain outputs drive low or nothing. -/
def State.driven (s : State) : OutBall → Drive
  | .gate n upper => .ofLevel (s.ball n upper)
  | .chp n => .ofLevel (s.chopBall n)
  | .sto n b => .level (s.ballLevel (n + if b then 8 else 0))
  | .sbc m b => .level (s.ballLevel (16 + m + if b then 2 else 0))
  | .sfaultN => if s.sfault then .level false else .highZ
  | .faultN => if s.faultN then .level false else .highZ
  | .alertN => if s.alert then .level false else .highZ
  | .rstoutN => if s.pwr.rstoutN then .highZ else .level false
  | .tpo m => .level (s.tpoLevel m s.saf.sample)
  | .sdc m => .level (s.sdcLevel m)
  | .emu m i => .level ((tblFind s.emus m).isSome && (let b := s.emuBalls m; if i = 0 then b.1 else if i = 1 then b.2.1 else b.2.2))
  | .psynco => .level s.psynco
  | .ppso => .level s.ppsoBall
  | .tmx k => match s.tmxLevel k s.now with | some v => .level v | none => .data
  | .ctx n => if s.ctxRecessive n then .level true else .data
  | .fz p => .ofLevel (s.fzDriven p)
  | .gpio g => .ofLevel (s.gpioDriven g)
  | .qck => .level false
  | .qcsN => .level true
  | .ssdo | .tdo => .highZ
  | .ktx n => if s.f (F.KYN_LANE_STS_state n) = 0 then .idle else .data
  | .stx _ => if s.bit F.SHFT_CTL_en then .data else .quiet
  | .pet => .data

/-- What the device drives on a ball (R467, R469): nothing while the last measurement of its own supply lies below the reset
threshold. Transfers of the boot flash, the SPI slave and the JTAG port lie inside one command, so that QCK, QCS_N, SSDO and TDO
show their state between transfers (log entry 123). -/
def State.out (s : State) (b : OutBall) : Drive :=
  if tblGet 0 s.pwr.railOut b.rail = 1 then .highZ
  else if b.ofDie then (if s.pwr.safRst then .level false else s.driven b)
  else if s.pwr.mainRst then b.inReset else s.driven b

end Sys2Proof.Machine
end

