-- ==== Sys2Proof/Safety.lean ====
section
/-! DEFINITION. What the statements speak of: a command that is done, a core that can execute an instruction, the core
past it, and the parts of the state that a command leaves alone. -/

namespace Sys2Proof

open Sys2Proof.Machine

/-- Command `c` answers a next state, and `P` holds of it. -/
def Does (c : Instr) (s : State) (P : State → Prop) : Prop := ∃ t, Machine.exec c s = .next t ∧ P t

/-- Both dies are out of reset. -/
def Alive (s : State) : Prop := s.pwr.mainRst = false ∧ s.pwr.safRst = false

/-- A lane that can execute now: its slice runs, no debug halt holds it, its position lies in a staged slot and the
instruction word is whole (R48, R85, R101). -/
def laneFetches (s : State) (i : Nat) : Bool :=
  let l := s.core i
  s.laneReady l && decide (l.slot < 32) && tblGet 0 l.slots l.slot != 0 && s.eccOf (slotBase i l.slot + 4 * l.word) != 2

/-- Core `c` executes an instruction of `n` cycles to its end: the main die is out of reset, and a lane has the
instruction at its position and the last cycle within its budget, unless it is stepped in a debug halt (R62, R75, R101). -/
def CanRun (s : State) (c : Proc) (n : Nat) : Prop :=
  s.pwr.mainRst = false ∧
    (procLane c = true → laneFetches s (procIdx c) = true ∧ (s.core (procIdx c)).cyc < (s.core (procIdx c)).budget ∧
      (s.halted = true ∨ (s.core (procIdx c)).cyc + n ≤ (s.core (procIdx c)).budget))

/-- Core `c` before the instruction, with a pending single step used up (R101). -/
def coreOf (s : State) (c : Proc) : LaneSt := (s.core (procIdx c)).stepUsed

/-- Predicate bits that register `p` gives core `c`. -/
def predOf (s : State) (c : Proc) (p : BitVec 3) : BitVec 8 := (s.core (procIdx c)).getP (p.setWidth 5)

/-- The state once core `c` has fetched its instruction: a single-bit error of a lane's instruction word is corrected and
counted (R48). -/
def fetched (s : State) (c : Proc) : State :=
  let l := coreOf s c
  let t := s.setCore (procIdx c) l
  if procLane c then (t.eccAccess (procIdx c) (slotBase (procIdx c) l.slot + 4 * l.word) 1).getD t else t

/-- The state after the instruction's fetch and cycles, with the core past it and nothing else done (R75, R85); on a lane
global time has gone on to the end of its last cycle, but for one stepped in a debug halt (R101). -/
def ran (s : State) (c : Proc) (n : Nat) : State :=
  let i := procIdx c
  let l := coreOf s c
  let t := fetched s c
  let t := if procLane c then t.ran l n else t
  t.setCore i (t.spendOf l n).advance

/-- As `ran`, with the core changed by `f` besides. -/
def ranWith (s : State) (c : Proc) (n : Nat) (f : LaneSt → LaneSt) : State := (ran s c n).onCore (procIdx c) f

/-- Executing `i` to its end takes `n` cycles and changes one thing besides the position and time: S register `d` of core
`c` takes `v`, and the flags `f` are raised. -/
def WritesS (i : Instr) (s : State) (c : Proc) (n : Nat) (d : BitVec 5) (v : Word) (f : Flags) : Prop :=
  Machine.exec i s = .next (ranWith s c n fun k => (k.setS d v).flag f)

/-- As `WritesS`, for P register `d`; no flag is raised. -/
def WritesP (i : Instr) (s : State) (c : Proc) (n : Nat) (d : BitVec 5) (v : BitVec 8) : Prop :=
  Machine.exec i s = .next (ranWith s c n fun k => k.setP d v)

/-- As `WritesS`, for V register `d`: each fp32 element that predicate register `p` permits takes `v`, every other keeps
its value, and the flags of the permitted elements are raised (R74). -/
def WritesV (i : Instr) (s : State) (c : Proc) (n : Nat) (p : BitVec 3) (d : BitVec 5) (v : Nat → F32)
    (f : Nat → Flags) : Prop :=
  ∃ x : VWord, Machine.exec i s = .next (ranWith s c n fun k => (k.setV d x).flag (flagsF (predOf s c p) f)) ∧
    ∀ j < 4, elemF x j = if permF (predOf s c p) j then v j else elemF ((coreOf s c).getV d) j

/-- As `WritesV`, for int16 elements. -/
def WritesH (i : Instr) (s : State) (c : Proc) (n : Nat) (p : BitVec 3) (d : BitVec 5) (v : Nat → BitVec 16)
    (f : Nat → Flags) : Prop :=
  ∃ x : VWord, Machine.exec i s = .next (ranWith s c n fun k => (k.setV d x).flag (flagsH (predOf s c p) f)) ∧
    ∀ j < 8, elemH x j = if permH (predOf s c p) j then v j else elemH ((coreOf s c).getV d) j

/-- An integer cut to the range of a `w`-bit two's-complement number, and whether it was cut. -/
def cutTo (w : Nat) (i : Int) : Int × Bool :=
  if i < -(2 : Int) ^ (w - 1) then (-(2 : Int) ^ (w - 1), true)
  else if (2 : Int) ^ (w - 1) - 1 < i then ((2 : Int) ^ (w - 1) - 1, true) else (i, false)

/-- SAT where the flag says so. -/
def satIf (b : Bool) : Flags := if b then flSat else 0

/-- Cycle count of a Nimson instruction in the instruction table (R82); 0 for every other command. -/
def instrCycles : Instr → Nat
  | .add _ _ _ _ _ => 1
  | .sub _ _ _ _ _ => 1
  | .and _ _ _ _ _ => 1
  | .or _ _ _ _ _ => 1
  | .xor _ _ _ _ _ => 1
  | .shl _ _ _ _ _ => 1
  | .shr _ _ _ _ _ => 1
  | .sar _ _ _ _ _ => 1
  | .slt _ _ _ _ _ => 1
  | .sltu _ _ _ _ _ => 1
  | .min _ _ _ _ _ => 1
  | .max _ _ _ _ _ => 1
  | .mul _ _ _ _ _ => 2
  | .mulh _ _ _ _ _ => 2
  | .div _ _ _ _ _ => 12
  | .rem _ _ _ _ _ => 12
  | .adds _ _ _ _ _ => 1
  | .subs _ _ _ _ _ => 1
  | .addi _ _ _ _ _ => 1
  | .andi _ _ _ _ _ => 1
  | .ori _ _ _ _ _ => 1
  | .xori _ _ _ _ _ => 1
  | .shli _ _ _ _ _ => 1
  | .shri _ _ _ _ _ => 1
  | .sari _ _ _ _ _ => 1
  | .lui _ _ _ _ => 1
  | .lli _ _ _ _ => 1
  | .cmpEq _ _ _ _ _ => 1
  | .cmpNe _ _ _ _ _ => 1
  | .cmpLt _ _ _ _ _ => 1
  | .cmpGe _ _ _ _ _ => 1
  | .cmpLtu _ _ _ _ _ => 1
  | .cmpGeu _ _ _ _ _ => 1
  | .fcmpEq _ _ _ _ _ => 1
  | .fcmpLt _ _ _ _ _ => 1
  | .fcmpLe _ _ _ _ _ => 1
  | .fcmpUn _ _ _ _ _ => 1
  | .pand _ _ _ _ _ => 1
  | .por _ _ _ _ _ => 1
  | .pxor _ _ _ _ _ => 1
  | .pnot _ _ _ _ => 1
  | .pset _ _ _ _ => 1
  | .fadd _ _ _ _ _ => 2
  | .fsub _ _ _ _ _ => 2
  | .fmul _ _ _ _ _ => 2
  | .fma _ _ _ _ _ => 3
  | .fdiv _ _ _ _ _ => 10
  | .fsqrt _ _ _ _ => 10
  | .fmin _ _ _ _ _ => 2
  | .fmax _ _ _ _ _ => 2
  | .fabs _ _ _ _ => 1
  | .fneg _ _ _ _ => 1
  | .fclamp _ _ _ _ _ => 2
  | .ftoi _ _ _ _ => 2
  | .itof _ _ _ _ => 2
  | .ftoq _ _ _ _ _ => 2
  | .qtof _ _ _ _ _ => 2
  | .fclass _ _ _ _ => 1
  | .lwl _ _ _ _ _ => 2
  | .swl _ _ _ _ _ => 1
  | .lwd _ _ _ _ _ => 6
  | .swd _ _ _ _ _ => 4
  | .lwh _ _ _ _ _ => 4
  | .lwt _ _ _ _ _ => 2
  | .vll _ _ _ _ _ => 2
  | .vsl _ _ _ _ _ => 1
  | .vld _ _ _ _ _ => 8
  | .vsd _ _ _ _ _ => 6
  | .vlh _ _ _ _ _ => 4
  | .vlt _ _ _ _ _ => 2
  | .vaddF _ _ _ _ _ => 2
  | .vsubF _ _ _ _ _ => 2
  | .vmulF _ _ _ _ _ => 2
  | .vfmaF _ _ _ _ _ => 3
  | .vminF _ _ _ _ _ => 2
  | .vmaxF _ _ _ _ _ => 2
  | .vdotF _ _ _ _ _ => 4
  | .vcmpltF _ _ _ _ _ => 2
  | .vcmpeqF _ _ _ _ _ => 2
  | .vaddH _ _ _ _ _ => 1
  | .vsubH _ _ _ _ _ => 1
  | .vmulqH _ _ _ _ _ => 2
  | .vcvtFh _ _ _ _ => 2
  | .vcvtHf _ _ _ _ => 2
  | .vsplat _ _ _ _ => 1
  | .vins _ _ _ _ _ => 1
  | .vext _ _ _ _ _ => 1
  | .vshuf _ _ _ _ _ => 1
  | .vclarke _ _ _ _ => 4
  | .vpark _ _ _ _ _ => 6
  | .vipark _ _ _ _ _ => 6
  | .vsincos _ _ _ _ => 6
  | .vsvm _ _ _ _ _ => 12
  | .vpi _ _ _ _ _ => 8
  | .vlim _ _ _ _ _ => 12
  | .lut _ _ _ _ _ => 8
  | .br _ _ _ _ => 2
  | .loop _ _ _ _ => 2
  | .stg _ _ _ _ _ => 2
  | .tcommit _ _ => 1
  | .tabort _ _ => 1
  | .topen _ _ _ _ => 72
  | .nop _ _ => 1
  | .yield _ _ => 1
  | .evt _ _ _ _ => 1
  | .mfs _ _ _ _ => 1
  | .mts _ _ _ _ => 1
  | .callk _ _ _ _ _ => 2
  | _ => 0

/-- What permits a Nimson instruction, and its predicate selector (R74): bit 0 of the predicate, its fp32 or its int16
elements; BR takes the predicate as its condition, LOOP has none. -/
def instrPred : Instr → Option (Pred × BitVec 3)
  | .add _ p _ _ _ => some (.scalar, p)
  | .sub _ p _ _ _ => some (.scalar, p)
  | .and _ p _ _ _ => some (.scalar, p)
  | .or _ p _ _ _ => some (.scalar, p)
  | .xor _ p _ _ _ => some (.scalar, p)
  | .shl _ p _ _ _ => some (.scalar, p)
  | .shr _ p _ _ _ => some (.scalar, p)
  | .sar _ p _ _ _ => some (.scalar, p)
  | .slt _ p _ _ _ => some (.scalar, p)
  | .sltu _ p _ _ _ => some (.scalar, p)
  | .min _ p _ _ _ => some (.scalar, p)
  | .max _ p _ _ _ => some (.scalar, p)
  | .mul _ p _ _ _ => some (.scalar, p)
  | .mulh _ p _ _ _ => some (.scalar, p)
  | .div _ p _ _ _ => some (.scalar, p)
  | .rem _ p _ _ _ => some (.scalar, p)
  | .adds _ p _ _ _ => some (.scalar, p)
  | .subs _ p _ _ _ => some (.scalar, p)
  | .addi _ p _ _ _ => some (.scalar, p)
  | .andi _ p _ _ _ => some (.scalar, p)
  | .ori _ p _ _ _ => some (.scalar, p)
  | .xori _ p _ _ _ => some (.scalar, p)
  | .shli _ p _ _ _ => some (.scalar, p)
  | .shri _ p _ _ _ => some (.scalar, p)
  | .sari _ p _ _ _ => some (.scalar, p)
  | .lui _ p _ _ => some (.scalar, p)
  | .lli _ p _ _ => some (.scalar, p)
  | .cmpEq _ p _ _ _ => some (.scalar, p)
  | .cmpNe _ p _ _ _ => some (.scalar, p)
  | .cmpLt _ p _ _ _ => some (.scalar, p)
  | .cmpGe _ p _ _ _ => some (.scalar, p)
  | .cmpLtu _ p _ _ _ => some (.scalar, p)
  | .cmpGeu _ p _ _ _ => some (.scalar, p)
  | .fcmpEq _ p _ _ _ => some (.scalar, p)
  | .fcmpLt _ p _ _ _ => some (.scalar, p)
  | .fcmpLe _ p _ _ _ => some (.scalar, p)
  | .fcmpUn _ p _ _ _ => some (.scalar, p)
  | .pand _ p _ _ _ => some (.scalar, p)
  | .por _ p _ _ _ => some (.scalar, p)
  | .pxor _ p _ _ _ => some (.scalar, p)
  | .pnot _ p _ _ => some (.scalar, p)
  | .pset _ p _ _ => some (.scalar, p)
  | .fadd _ p _ _ _ => some (.scalar, p)
  | .fsub _ p _ _ _ => some (.scalar, p)
  | .fmul _ p _ _ _ => some (.scalar, p)
  | .fma _ p _ _ _ => some (.scalar, p)
  | .fdiv _ p _ _ _ => some (.scalar, p)
  | .fsqrt _ p _ _ => some (.scalar, p)
  | .fmin _ p _ _ _ => some (.scalar, p)
  | .fmax _ p _ _ _ => some (.scalar, p)
  | .fabs _ p _ _ => some (.scalar, p)
  | .fneg _ p _ _ => some (.scalar, p)
  | .fclamp _ p _ _ _ => some (.scalar, p)
  | .ftoi _ p _ _ => some (.scalar, p)
  | .itof _ p _ _ => some (.scalar, p)
  | .ftoq _ p _ _ _ => some (.scalar, p)
  | .qtof _ p _ _ _ => some (.scalar, p)
  | .fclass _ p _ _ => some (.scalar, p)
  | .lwl _ p _ _ _ => some (.scalar, p)
  | .swl _ p _ _ _ => some (.scalar, p)
  | .lwd _ p _ _ _ => some (.scalar, p)
  | .swd _ p _ _ _ => some (.scalar, p)
  | .lwh _ p _ _ _ => some (.scalar, p)
  | .lwt _ p _ _ _ => some (.scalar, p)
  | .vll _ p _ _ _ => some (.f32, p)
  | .vsl _ p _ _ _ => some (.f32, p)
  | .vld _ p _ _ _ => some (.f32, p)
  | .vsd _ p _ _ _ => some (.f32, p)
  | .vlh _ p _ _ _ => some (.f32, p)
  | .vlt _ p _ _ _ => some (.f32, p)
  | .vaddF _ p _ _ _ => some (.f32, p)
  | .vsubF _ p _ _ _ => some (.f32, p)
  | .vmulF _ p _ _ _ => some (.f32, p)
  | .vfmaF _ p _ _ _ => some (.f32, p)
  | .vminF _ p _ _ _ => some (.f32, p)
  | .vmaxF _ p _ _ _ => some (.f32, p)
  | .vdotF _ p _ _ _ => some (.scalar, p)
  | .vcmpltF _ p _ _ _ => some (.f32, p)
  | .vcmpeqF _ p _ _ _ => some (.f32, p)
  | .vaddH _ p _ _ _ => some (.h16, p)
  | .vsubH _ p _ _ _ => some (.h16, p)
  | .vmulqH _ p _ _ _ => some (.h16, p)
  | .vcvtFh _ p _ _ => some (.h16, p)
  | .vcvtHf _ p _ _ => some (.f32, p)
  | .vsplat _ p _ _ => some (.f32, p)
  | .vins _ p _ _ _ => some (.f32, p)
  | .vext _ p _ _ _ => some (.scalar, p)
  | .vshuf _ p _ _ _ => some (.f32, p)
  | .vclarke _ p _ _ => some (.f32, p)
  | .vpark _ p _ _ _ => some (.f32, p)
  | .vipark _ p _ _ _ => some (.f32, p)
  | .vsincos _ p _ _ => some (.f32, p)
  | .vsvm _ p _ _ _ => some (.f32, p)
  | .vpi _ p _ _ _ => some (.f32, p)
  | .vlim _ p _ _ _ => some (.f32, p)
  | .lut _ p _ _ _ => some (.scalar, p)
  | .br _ _ _ _ => some (.always, 0)
  | .loop _ _ _ _ => some (.always, 0)
  | .stg _ p _ _ _ => some (.scalar, p)
  | .tcommit _ p => some (.scalar, p)
  | .tabort _ p => some (.scalar, p)
  | .topen _ p _ _ => some (.scalar, p)
  | .nop _ p => some (.scalar, p)
  | .yield _ p => some (.scalar, p)
  | .evt _ p _ _ => some (.scalar, p)
  | .mfs _ p _ _ => some (.scalar, p)
  | .mts _ p _ _ => some (.scalar, p)
  | .callk _ p _ _ _ => some (.scalar, p)
  | _ => none

/-- What a register instruction writes. -/
inductive Dest where
  | s (d : BitVec 5)
  | p (d : BitVec 5)
  | v (d : BitVec 5)
  deriving DecidableEq, Repr

/-- The destination of an instruction that computes from registers to one register; `none` for every other command. -/
def instrDest : Instr → Option Dest
  | .add _ _ d _ _ => some (.s d)
  | .sub _ _ d _ _ => some (.s d)
  | .and _ _ d _ _ => some (.s d)
  | .or _ _ d _ _ => some (.s d)
  | .xor _ _ d _ _ => some (.s d)
  | .shl _ _ d _ _ => some (.s d)
  | .shr _ _ d _ _ => some (.s d)
  | .sar _ _ d _ _ => some (.s d)
  | .slt _ _ d _ _ => some (.s d)
  | .sltu _ _ d _ _ => some (.s d)
  | .min _ _ d _ _ => some (.s d)
  | .max _ _ d _ _ => some (.s d)
  | .mul _ _ d _ _ => some (.s d)
  | .mulh _ _ d _ _ => some (.s d)
  | .div _ _ d _ _ => some (.s d)
  | .rem _ _ d _ _ => some (.s d)
  | .adds _ _ d _ _ => some (.s d)
  | .subs _ _ d _ _ => some (.s d)
  | .addi _ _ d _ _ => some (.s d)
  | .andi _ _ d _ _ => some (.s d)
  | .ori _ _ d _ _ => some (.s d)
  | .xori _ _ d _ _ => some (.s d)
  | .shli _ _ d _ _ => some (.s d)
  | .shri _ _ d _ _ => some (.s d)
  | .sari _ _ d _ _ => some (.s d)
  | .lui _ _ d _ => some (.s d)
  | .lli _ _ d _ => some (.s d)
  | .cmpEq _ _ d _ _ => some (.p d)
  | .cmpNe _ _ d _ _ => some (.p d)
  | .cmpLt _ _ d _ _ => some (.p d)
  | .cmpGe _ _ d _ _ => some (.p d)
  | .cmpLtu _ _ d _ _ => some (.p d)
  | .cmpGeu _ _ d _ _ => some (.p d)
  | .fcmpEq _ _ d _ _ => some (.p d)
  | .fcmpLt _ _ d _ _ => some (.p d)
  | .fcmpLe _ _ d _ _ => some (.p d)
  | .fcmpUn _ _ d _ _ => some (.p d)
  | .pand _ _ d _ _ => some (.p d)
  | .por _ _ d _ _ => some (.p d)
  | .pxor _ _ d _ _ => some (.p d)
  | .pnot _ _ d _ => some (.p d)
  | .pset _ _ d _ => some (.p d)
  | .fadd _ _ d _ _ => some (.s d)
  | .fsub _ _ d _ _ => some (.s d)
  | .fmul _ _ d _ _ => some (.s d)
  | .fma _ _ d _ _ => some (.s d)
  | .fdiv _ _ d _ _ => some (.s d)
  | .fsqrt _ _ d _ => some (.s d)
  | .fmin _ _ d _ _ => some (.s d)
  | .fmax _ _ d _ _ => some (.s d)
  | .fabs _ _ d _ => some (.s d)
  | .fneg _ _ d _ => some (.s d)
  | .fclamp _ _ d _ _ => some (.s d)
  | .ftoi _ _ d _ => some (.s d)
  | .itof _ _ d _ => some (.s d)
  | .ftoq _ _ d _ _ => some (.s d)
  | .qtof _ _ d _ _ => some (.s d)
  | .fclass _ _ d _ => some (.s d)
  | .vaddF _ _ d _ _ => some (.v d)
  | .vsubF _ _ d _ _ => some (.v d)
  | .vmulF _ _ d _ _ => some (.v d)
  | .vfmaF _ _ d _ _ => some (.v d)
  | .vminF _ _ d _ _ => some (.v d)
  | .vmaxF _ _ d _ _ => some (.v d)
  | .vdotF _ _ d _ _ => some (.s d)
  | .vcmpltF _ _ d _ _ => some (.p d)
  | .vcmpeqF _ _ d _ _ => some (.p d)
  | .vaddH _ _ d _ _ => some (.v d)
  | .vsubH _ _ d _ _ => some (.v d)
  | .vmulqH _ _ d _ _ => some (.v d)
  | .vcvtFh _ _ d _ => some (.v d)
  | .vcvtHf _ _ d _ => some (.v d)
  | .vsplat _ _ d _ => some (.v d)
  | .vins _ _ d _ _ => some (.v d)
  | .vext _ _ d _ _ => some (.s d)
  | .vshuf _ _ d _ _ => some (.v d)
  | .vclarke _ _ d _ => some (.v d)
  | .vpark _ _ d _ _ => some (.v d)
  | .vipark _ _ d _ _ => some (.v d)
  | .vsincos _ _ d _ => some (.v d)
  | .vsvm _ _ d _ _ => some (.v d)
  | .vpi _ _ d _ _ => some (.v d)
  | .vlim _ _ d _ _ => some (.v d)
  | _ => none

/-- Executing `i` is a lane exception of cause `code` on lane `n` (R56–R58): the cause, context and EV19 are recorded, the
slice is over, the group of the context is discarded, and neither memory nor a register file has changed. -/
def Traps (i : Instr) (s : State) (n : Fin 8) (code : Nat) : Prop :=
  Does i s fun t =>
    t.f (F.ENG_LANE_EXC_cause n) = code ∧ t.f (F.ENG_LANE_EXC_exc_context n) = (s.core n).ctx % 64 ∧
    t.bit (F.ENG_LANE_STS_exc_seen n) = true ∧ t.bit (F.ENG_LANE_STS_busy n) = false ∧ (t.core n).busy = false ∧
    t.bit (pendFld 19) = true ∧ (t.ctx (s.core n).ctx).group = .discarded ∧ t.mem = s.mem ∧
    (t.core n).s = (s.core n).s ∧ (t.core n).v = (s.core n).v ∧ (t.core n).p = (s.core n).p

/-- The byte address of a load or store: the register plus the sign-extended immediate (R83). -/
def byteAddr (s : State) (c : Proc) (a : BitVec 5) (imm : BitVec 13) : Nat :=
  ((coreOf s c).getS a + BitVec.ofInt 32 imm.toInt).toNat

/-- Every register outside the blocks `bs`, 64 KiB each, all of memory and the queue are as before. -/
def Keeps (s t : State) (bs : List Nat) : Prop :=
  (∀ a, a / 0x10000 ∉ bs → t.reg a = s.reg a) ∧ t.mem = s.mem ∧ t.pending = s.pending

/-- Every byte outside `lo ≤ a < hi` reads as before, and registers are as before. -/
def KeepsBut (s t : State) (lo hi : Nat) : Prop :=
  (∀ a, a < lo ∨ hi ≤ a → memGet t.mem a = memGet s.mem a) ∧ t.regs = s.regs

/-- The unit of drive `u` is disabled, or its drive is in a safe state: SAFE, or RAMP under a RAMP_DOWN (R28, R64, R251). -/
abbrev driveAtRest (s : State) (u : Nat) : Prop :=
  s.f (F.FLD_STS_state u) = 0 ∨ s.f (F.FLD_STS_state u) = 6 ∨
    (s.f (F.FLD_STS_state u) = 5 ∧ s.f (F.FLD_STS_safe_state u) = 4)

end Sys2Proof
end

