-- ==== Sys2Proof/Certificates/Slice0/Obligations.lean ====
section
/-! DEFINITION. The statements for the provers. -/

open Sys2Proof Sys2Proof.Machine

/-! ## The queue, reset, instruction words -/

/-- A step takes the command at the front of the queue and runs it on the state with the queue's rest. -/
def stepFront : Prop :=
  ∀ (c : Instr) (s : State), Machine.step { s with pending := c :: s.pending } = Machine.exec c s

/-- On an empty queue one timebase cycle of 4 ns passes, if the main PLL has locked; a follower that slews back makes it 1 ns
to 3 ns (log entry 62). Nothing else changes (log entry 1). -/
def emptyQueue : Prop :=
  ∀ s : State, s.pending = [] →
    (s.bit F.CLK_STS_pll_lock = false → Machine.step s = .next s) ∧
    (s.bit F.CLK_STS_pll_lock = true → s.tm.holdLag = none →
      let back := min 3 s.tm.slow
      Machine.step s = .next { s with tm := { s.tm with now := s.tm.now + 4 - back, slow := s.tm.slow - back } })

/-- A step is the meaning of the command at the front of the queue; on an empty queue one timebase cycle passes (the latter is
the model's choice, log entry 1). -/
def Obligations.StepRunsTheFrontCommand : Prop :=
  stepFront ∧ emptyQueue

/-- Every command is done in every state: none faults and none is refused. -/
def Obligations.EveryCommandAnswers : Prop :=
  ∀ (c : Instr) (s : State), ∃ t, Machine.exec c s = .next t

/-- A command that is not the main die's: what the safety die does, and what supplies, resets and monitors do. -/
def beyondMainDie (c : Instr) : Prop :=
  (∃ a b d, c = .safetySample a b d) ∨ (∃ a b d e x, c = .safetyTick a b d e x) ∨ (∃ a, c = .discrepancy a) ∨
  (∃ a, c = .permitLoss a) ∨ (∃ a, c = .tpoPulse a) ∨ (∃ a, c = .ss1Expiry a) ∨ (∃ a, c = .sbcDelayExpiry a) ∨
  (∃ a b, c = .outputTest a b) ∨ c = .safetyResetPulse ∨ c = .gateEnableLoss ∨ c = .selfTestDone ∨
  c = .safetyStoreHandover ∨ (∃ a, c = .parameterCheckDone a) ∨ (∃ a b, c = .porstRelease a b) ∨
  (∃ a, c = .mainDieReset a) ∨ c = .safetyDieReset ∨ (∃ a, c = .safetyDieRelease a) ∨
  (∃ a b, c = .supplyMeasurement a b) ∨ ∃ a, c = .temperatureReading a

/-- R468, R469: while the reset of the main die is asserted, no command of the main die changes anything, whether of the engine,
of a master, of a link or of the field. The commands left out are those of the safety die, the resets and the monitors. -/
def Obligations.MainDieInResetHolds : Prop :=
  ∀ (s : State) (c : Instr), s.pwr.mainRst = true → ¬ beyondMainDie c → Machine.exec c s = .next s

/-- R27, R40, R199, R68, R447: values that the spec gives for reset, and an empty queue. -/
def Obligations.ResetValues : Prop :=
  let s := State.reset
  s.pending = [] ∧ s.f F.TIME_TICK_PERIOD_period_m1 = 0x1387 ∧ s.f F.TIME_COUCH_LEAD_lead = 0x05DC ∧
  s.bit F.TIME_TICK_CTL_run = false ∧ s.bit F.TIME_TICK_STS_running = false ∧
  s.bit F.TIME_LINE_STS_locked = true ∧ s.f F.TILE_SCHED_STS_error = 0 ∧ s.eng.sched = none ∧
  (∀ d < 8, s.f (F.MOD_PERIOD_half d) = 0x9C4 ∧ s.f (F.MOD_RELOAD_evt d) = 1 ∧ s.f (F.MOD_DUTY_duty d 0) = 0x4000) ∧
  (∀ n < 18, s.f (F.GATE_STS_src n) = 3 ∧ s.f (F.GATE_STS_td_eff n) = 0x3E8 ∧ s.f (F.GATE_FLOOR_floor n) = 0x14 ∧
    s.bit (F.GATE_CMD_en n) = false) ∧
  (∀ k < 64, s.bit (pendFld k) = false ∧ s.bit (F.EVT_SRC_log_en k) = false) ∧
  (∀ u < 8, s.f (F.FLD_STS_state u) = 0) ∧
  (∀ n < 18, ∀ b, s.ball n b = none)

/-- R72, R82: every instruction that obeys R73 is read back from its word, on its core, with every operand. -/
def Obligations.DecodeOfEncode : Prop :=
  ∀ (i : Instr) (c : Proc) (w : Word), instrCore i = some c → instrWf i = true → encodeNimson i = some w →
    Sys2Proof.decodeNimson c w = some i

/-- R73: a word that spells an instruction is the one word of it, and the instruction obeys R73 on that core. -/
def Obligations.EncodeOfDecode : Prop :=
  ∀ (i : Instr) (c : Proc) (w : Word), Sys2Proof.decodeNimson c w = some i →
    instrCore i = some c ∧ instrWf i = true ∧ encodeNimson i = some w

/-- R72, R82: words written out from the instruction table, field by field. -/
def Obligations.WordsOfTheTable : Prop :=
  let c : Proc := .lane 0
  Sys2Proof.decodeNimson c 0b011100_000_01000_00110_00111_00000101 = some (.vpi c 0 8 6 7) ∧
  Sys2Proof.decodeNimson c 0b000000_001_00010_00011_00100_00000000 = some (.add c 1 2 3 4) ∧
  Sys2Proof.decodeNimson c 0b000001_000_01010_01000_1111111111111 = some (.addi c 0 10 8 0x1FFF) ∧
  Sys2Proof.decodeNimson c 0b000110_000_01000_000000010000001000 = some (.lui c 0 8 0x408) ∧
  Sys2Proof.decodeNimson c 0b001100_000_00111_00001_0000001000000 = some (.lwl c 0 7 1 0x40) ∧
  Sys2Proof.decodeNimson c 0b100000_010_00001_00000011_0000000000 = some (.br c 2 1 3) ∧
  Sys2Proof.decodeNimson c 0b100001_000_00101_000000001010_000011 = some (.loop c 5 10 3) ∧
  Sys2Proof.decodeNimson c 0b101000_000_00001_01001_01010_00000000 = some (.stg c 0 true 9 10) ∧
  Sys2Proof.decodeNimson c 0b101001_000_00000_00000_00000_00000000 = some (.tcommit c 0) ∧
  Sys2Proof.decodeNimson c 0b101011_000_00000_00000_00000_00000001 = some (.yield c 0) ∧
  Sys2Proof.decodeNimson c 0b111111_000_00000_00000_00000_00000000 = none ∧
  Sys2Proof.decodeNimson .keeper 0b011100_000_01000_00110_00111_00000101 = none


/-- R71, R430 and the model's form of memory (log entry 3): every step keeps memory in its one canonical form, addresses
strictly rising and no byte listed that an unlisted address would read as. -/
def Obligations.StepKeepsMemoryForm : Prop :=
  ∀ s t : State, Memory.wf s.mem = true → Machine.step s = .next t → Memory.wf t.mem = true

/-- Memory has its canonical form at reset: nothing is listed (log entry 3). -/
def Obligations.ResetMemoryForm : Prop :=
  Memory.wf State.reset.mem = true ∧ ∀ a, memGet State.reset.mem a = 0
/-! ## Nimson instructions -/

/-- R77, R82: the integer register instructions. -/
def Obligations.IntegerResults : Prop :=
  ∀ (s : State) (c : Proc) (p : BitVec 3) (d a b : BitVec 5), (predOf s c p).getLsbD 0 = true →
    let x := (coreOf s c).getS a
    let y := (coreOf s c).getS b
    (CanRun s c 1 →
      WritesS (.add c p d a b) s c 1 d (x + y) 0 ∧
      WritesS (.sub c p d a b) s c 1 d (x - y) 0 ∧
      WritesS (.and c p d a b) s c 1 d (x &&& y) 0 ∧
      WritesS (.or c p d a b) s c 1 d (x ||| y) 0 ∧
      WritesS (.xor c p d a b) s c 1 d (x ^^^ y) 0 ∧
      WritesS (.shl c p d a b) s c 1 d (x <<< (y.toNat % 32)) 0 ∧
      WritesS (.shr c p d a b) s c 1 d (x >>> (y.toNat % 32)) 0 ∧
      WritesS (.sar c p d a b) s c 1 d (BitVec.ofInt 32 (x.toInt / 2 ^ (y.toNat % 32))) 0 ∧
      WritesS (.slt c p d a b) s c 1 d (if x.toInt < y.toInt then 1 else 0) 0 ∧
      WritesS (.sltu c p d a b) s c 1 d (if x.toNat < y.toNat then 1 else 0) 0 ∧
      WritesS (.min c p d a b) s c 1 d (BitVec.ofInt 32 (min x.toInt y.toInt)) 0 ∧
      WritesS (.max c p d a b) s c 1 d (BitVec.ofInt 32 (max x.toInt y.toInt)) 0 ∧
      WritesS (.adds c p d a b) s c 1 d (BitVec.ofInt 32 (cutTo 32 (x.toInt + y.toInt)).1)
        (satIf (cutTo 32 (x.toInt + y.toInt)).2) ∧
      WritesS (.subs c p d a b) s c 1 d (BitVec.ofInt 32 (cutTo 32 (x.toInt - y.toInt)).1)
        (satIf (cutTo 32 (x.toInt - y.toInt)).2)) ∧
    (CanRun s c 2 →
      WritesS (.mul c p d a b) s c 2 d (BitVec.ofInt 32 (x.toInt * y.toInt)) 0 ∧
      WritesS (.mulh c p d a b) s c 2 d (BitVec.ofInt 32 (x.toInt * y.toInt / 2 ^ 32)) 0) ∧
    (CanRun s c 12 →
      (y = 0 → WritesS (.div c p d a b) s c 12 d 0 flDz ∧ WritesS (.rem c p d a b) s c 12 d x flDz) ∧
      (y ≠ 0 →
        WritesS (.div c p d a b) s c 12 d
          (if x = 0x80000000 ∧ y = 0xFFFFFFFF then 0x7FFFFFFF else BitVec.ofInt 32 (x.toInt.tdiv y.toInt))
          (satIf (decide (x = 0x80000000 ∧ y = 0xFFFFFFFF))) ∧
        WritesS (.rem c p d a b) s c 12 d (BitVec.ofInt 32 (x.toInt.tmod y.toInt)) 0))

/-- R82: the integer instructions with an immediate. -/
def immediateResults : Prop :=
  ∀ (s : State) (c : Proc) (p : BitVec 3) (d a : BitVec 5) (imm : BitVec 13) (amt : BitVec 5) (hi : BitVec 18)
    (lo : BitVec 14), (predOf s c p).getLsbD 0 = true → CanRun s c 1 →
    let x := (coreOf s c).getS a
    WritesS (.addi c p d a imm) s c 1 d (x + BitVec.ofInt 32 imm.toInt) 0 ∧
    WritesS (.andi c p d a imm) s c 1 d (x &&& BitVec.ofNat 32 imm.toNat) 0 ∧
    WritesS (.ori c p d a imm) s c 1 d (x ||| BitVec.ofNat 32 imm.toNat) 0 ∧
    WritesS (.xori c p d a imm) s c 1 d (x ^^^ BitVec.ofNat 32 imm.toNat) 0 ∧
    WritesS (.shli c p d a amt) s c 1 d (BitVec.ofNat 32 (x.toNat * 2 ^ amt.toNat)) 0 ∧
    WritesS (.shri c p d a amt) s c 1 d (BitVec.ofNat 32 (x.toNat / 2 ^ amt.toNat)) 0 ∧
    WritesS (.sari c p d a amt) s c 1 d (BitVec.ofInt 32 (x.toInt / 2 ^ amt.toNat)) 0 ∧
    WritesS (.lui c p d hi) s c 1 d (BitVec.ofNat 32 (hi.toNat * 2 ^ 14)) 0 ∧
    WritesS (.lli c p d lo) s c 1 d ((coreOf s c).getS d ||| BitVec.ofNat 32 lo.toNat) 0

/-- R82, R78: compares and predicate instructions, the register numbers obeying R73. -/
def compareResults : Prop :=
  ∀ (s : State) (c : Proc) (p : BitVec 3) (d a b : BitVec 5), (predOf s c p).getLsbD 0 = true → CanRun s c 1 →
    okP d = true →
    let x := (coreOf s c).getS a
    let y := (coreOf s c).getS b
    let nan := fIsNan x || fIsNan y
    WritesP (.cmpEq c p d a b) s c 1 d (if x = y then 0xFF else 0) ∧
    WritesP (.cmpNe c p d a b) s c 1 d (if x = y then 0 else 0xFF) ∧
    WritesP (.cmpLt c p d a b) s c 1 d (if x.toInt < y.toInt then 0xFF else 0) ∧
    WritesP (.cmpGe c p d a b) s c 1 d (if y.toInt ≤ x.toInt then 0xFF else 0) ∧
    WritesP (.cmpLtu c p d a b) s c 1 d (if x.toNat < y.toNat then 0xFF else 0) ∧
    WritesP (.cmpGeu c p d a b) s c 1 d (if y.toNat ≤ x.toNat then 0xFF else 0) ∧
    WritesP (.fcmpEq c p d a b) s c 1 d (if !nan && fKey x == fKey y then 0xFF else 0) ∧
    WritesP (.fcmpLt c p d a b) s c 1 d (if !nan && fKey x < fKey y then 0xFF else 0) ∧
    WritesP (.fcmpLe c p d a b) s c 1 d (if !nan && fKey x ≤ fKey y then 0xFF else 0) ∧
    WritesP (.fcmpUn c p d a b) s c 1 d (if nan then 0xFF else 0) ∧
    WritesP (.pset c p d a) s c 1 d (if x = 0 then 0 else 0xFF) ∧
    (okP a = true → WritesP (.pnot c p d a) s c 1 d (~~~ (coreOf s c).getP a)) ∧
    (okP a = true → okP b = true →
      WritesP (.pand c p d a b) s c 1 d ((coreOf s c).getP a &&& (coreOf s c).getP b) ∧
      WritesP (.por c p d a b) s c 1 d ((coreOf s c).getP a ||| (coreOf s c).getP b) ∧
      WritesP (.pxor c p d a b) s c 1 d ((coreOf s c).getP a ^^^ (coreOf s c).getP b))

/-- R78, R80, R82: the scalar floating-point instructions, each with its cycle count. -/
def Obligations.ScalarFloatResults : Prop :=
  ∀ (s : State) (c : Proc) (p : BitVec 3) (d a b : BitVec 5), (predOf s c p).getLsbD 0 = true →
    let x := (coreOf s c).getS a
    let y := (coreOf s c).getS b
    let z := (coreOf s c).getS d
    (CanRun s c 1 →
      WritesS (.fabs c p d a) s c 1 d (BitVec.ofNat 32 (x.toNat % 2 ^ 31)) 0 ∧
      WritesS (.fneg c p d a) s c 1 d (BitVec.ofNat 32 (x.toNat + 2 ^ 31)) 0 ∧
      WritesS (.fclass c p d a) s c 1 d (classWord x) 0) ∧
    (CanRun s c 2 →
      WritesS (.fadd c p d a b) s c 2 d (fAdd x y).v (fAdd x y).fl ∧
      WritesS (.fsub c p d a b) s c 2 d (fAdd x (fNeg y)).v (fAdd x (fNeg y)).fl ∧
      WritesS (.fmul c p d a b) s c 2 d (fMul x y).v (fMul x y).fl ∧
      WritesS (.fmin c p d a b) s c 2 d (fMin x y) 0 ∧
      WritesS (.fmax c p d a b) s c 2 d (fMax x y) 0 ∧
      WritesS (.fclamp c p d a b) s c 2 d (if fIsNan z then canonNan else fMin (fMax z x) y)
        (satIf (!fIsNan z && fMin (fMax z x) y != fNorm z)) ∧
      WritesS (.ftoi c p d a) s c 2 d (fToI x).v (fToI x).fl ∧
      WritesS (.itof c p d a) s c 2 d (fRound (decide (x.toInt < 0)) x.toInt.natAbs 0) 0 ∧
      (b.toNat < 16 →
        WritesS (.ftoq c p d a b) s c 2 d (BitVec.ofInt 32 (fToFixed (-2 ^ 15) (2 ^ 15 - 1) b.toNat x).1)
          (satIf (fToFixed (-2 ^ 15) (2 ^ 15 - 1) b.toNat x).2) ∧
        WritesS (.qtof c p d a b) s c 2 d (fOfInt (elemH (x.setWidth 128) 0).toInt (-(b.toNat : Int))) 0)) ∧
    (CanRun s c 3 → WritesS (.fma c p d a b) s c 3 d (fFma z x y).v (fFma z x y).fl) ∧
    (CanRun s c 10 →
      WritesS (.fdiv c p d a b) s c 10 d (fDiv x y).v (fDiv x y).fl ∧
      WritesS (.fsqrt c p d a) s c 10 d (fSqrt x).v (fSqrt x).fl)

/-- R78: what the arithmetic gives. Every NaN result is the canonical one and no result is subnormal; a NaN operand gives
a NaN, and NAN is raised exactly where operands that are no NaN give one; a non-zero finite value divided by zero gives
an infinity and DZ. -/
def Obligations.FloatSpecialCases : Prop :=
  (∀ a b d : F32, ∀ r ∈ [fAdd a b, fSub a b, fMul a b, fDiv a b, fFma d a b, fSqrt a], fNorm r.v = r.v) ∧
  (∀ a b : F32, ∀ r ∈ [fAdd a b, fSub a b, fMul a b, fDiv a b],
    (fIsNan a || fIsNan b → r = ⟨canonNan, 0⟩) ∧
    (!fIsNan a && !fIsNan b → (r.fl.getLsbD 1 = true ↔ r.v = canonNan))) ∧
  (∀ a b : F32, fKey a ≠ 0 → fIsNan a = false → fIsInf a = false → fKey b = 0 → fIsNan b = false →
    fDiv a b = ⟨fInfS (decide (2 ^ 31 ≤ a.toNat) != decide (2 ^ 31 ≤ b.toNat)), flDz⟩)

/-- R78, R81, R82: element-wise vector arithmetic of the lanes, compares and int16 arithmetic included. -/
def Obligations.VectorResults : Prop :=
  ∀ (s : State) (n : Fin 8) (p : BitVec 3) (d a b : BitVec 5), okV a = true → okV b = true →
    let c : Proc := .lane n
    let u := (coreOf s c).getV a
    let v := (coreOf s c).getV b
    let w := (coreOf s c).getV d
    let pb := predOf s c p
    (pb.getLsbD 0 = true → CanRun s c 4 →
      WritesS (.vdotF c p d a b) s c 4 d (dotF u v).v (dotF u v).fl) ∧
    (Pred.any .f32 pb = true → okV d = true → CanRun s c 2 →
      WritesV (.vaddF c p d a b) s c 2 p d (fun j => (fAdd (elemF u j) (elemF v j)).v)
        (fun j => (fAdd (elemF u j) (elemF v j)).fl) ∧
      WritesV (.vsubF c p d a b) s c 2 p d (fun j => (fSub (elemF u j) (elemF v j)).v)
        (fun j => (fSub (elemF u j) (elemF v j)).fl) ∧
      WritesV (.vmulF c p d a b) s c 2 p d (fun j => (fMul (elemF u j) (elemF v j)).v)
        (fun j => (fMul (elemF u j) (elemF v j)).fl) ∧
      WritesV (.vminF c p d a b) s c 2 p d (fun j => fMin (elemF u j) (elemF v j)) (fun _ => 0) ∧
      WritesV (.vmaxF c p d a b) s c 2 p d (fun j => fMax (elemF u j) (elemF v j)) (fun _ => 0)) ∧
    (Pred.any .f32 pb = true → okV d = true → CanRun s c 3 →
      WritesV (.vfmaF c p d a b) s c 3 p d (fun j => (fFma (elemF w j) (elemF u j) (elemF v j)).v)
        (fun j => (fFma (elemF w j) (elemF u j) (elemF v j)).fl)) ∧
    (Pred.any .f32 pb = true → okP d = true → CanRun s c 2 →
      (∃ x : BitVec 8, WritesP (.vcmpltF c p d a b) s c 2 d x ∧ ∀ j < 4, ∀ k < 2, x.getLsbD (2 * j + k) =
        if permF pb j then fLt (elemF u j) (elemF v j) else ((coreOf s c).getP d).getLsbD (2 * j + k)) ∧
      (∃ x : BitVec 8, WritesP (.vcmpeqF c p d a b) s c 2 d x ∧ ∀ j < 4, ∀ k < 2, x.getLsbD (2 * j + k) =
        if permF pb j then fEq (elemF u j) (elemF v j) else ((coreOf s c).getP d).getLsbD (2 * j + k))) ∧
    (Pred.any .h16 pb = true → okV d = true →
      (CanRun s c 1 →
        WritesH (.vaddH c p d a b) s c 1 p d
          (fun j => BitVec.ofInt 16 (cutTo 16 ((elemH u j).toInt + (elemH v j).toInt)).1)
          (fun j => satIf (cutTo 16 ((elemH u j).toInt + (elemH v j).toInt)).2) ∧
        WritesH (.vsubH c p d a b) s c 1 p d
          (fun j => BitVec.ofInt 16 (cutTo 16 ((elemH u j).toInt - (elemH v j).toInt)).1)
          (fun j => satIf (cutTo 16 ((elemH u j).toInt - (elemH v j).toInt)).2)) ∧
      (CanRun s c 2 →
        WritesH (.vmulqH c p d a b) s c 2 p d
          (fun j => BitVec.ofInt 16 (cutTo 16 (((elemH u j).toInt * (elemH v j).toInt + 0x4000) / 2 ^ 15)).1)
          (fun j => satIf (cutTo 16 (((elemH u j).toInt * (elemH v j).toInt + 0x4000) / 2 ^ 15)).2)))

/-- R74, R80, R82: conversions and moves between the S and V files. -/
def Obligations.VectorMoveResults : Prop :=
  ∀ (s : State) (n : Fin 8) (p : BitVec 3) (d a b : BitVec 5) (sel : BitVec 8),
    let c : Proc := .lane n
    let u := (coreOf s c).getV a
    let pb := predOf s c p
    (pb.getLsbD 0 = true → okV a = true → b.toNat < 4 → CanRun s c 1 →
      WritesS (.vext c p d a b) s c 1 d (elemF u b.toNat) 0) ∧
    (Pred.any .f32 pb = true → okV d = true → CanRun s c 1 →
      WritesV (.vsplat c p d a) s c 1 p d (fun _ => (coreOf s c).getS a) (fun _ => 0) ∧
      (b.toNat < 4 → WritesV (.vins c p d a b) s c 1 p d
        (fun j => if j = b.toNat then (coreOf s c).getS a else elemF ((coreOf s c).getV d) j) (fun _ => 0)) ∧
      (okV a = true → WritesV (.vshuf c p d a sel) s c 1 p d
        (fun j => elemF u (sel.toNat / 4 ^ j % 4)) (fun _ => 0))) ∧
    (okV a = true → okV d = true → CanRun s c 2 →
      (Pred.any .f32 pb = true → WritesV (.vcvtHf c p d a) s c 2 p d
        (fun j => fOfInt (elemH u j).toInt (-15)) (fun _ => 0)) ∧
      (Pred.any .h16 pb = true → WritesH (.vcvtFh c p d a) s c 2 p d
        (fun j => if j < 4 then BitVec.ofInt 16 (fToFixed (-2 ^ 15) (2 ^ 15 - 1) 15 (elemF u j)).1 else 0)
        (fun j => if j < 4 then satIf (fToFixed (-2 ^ 15) (2 ^ 15 - 1) 15 (elemF u j)).2 else 0)))

/-- R89–R94, R503: the drive instructions. The operations are written out in the order of R503. An infinite angle sets NAN, a NaN
angle does not. That VPI and VLIM flush the subnormal values they pass through (`fNorm`), and that VSVM keeps the canonical NaN in
a duty, is the model's choice (log entry 80); sine and cosine are free within R89's bound (log entry 19). -/
def Obligations.DriveResults : Prop :=
  ∀ (s : State) (n : Fin 8) (p : BitVec 3) (d a b : BitVec 5),
    let c : Proc := .lane n
    let u := (coreOf s c).getV a
    let pb := predOf s c p
    let th := (coreOf s c).getS b
    let e := fun j => (⟨elemF u j, 0⟩ : Fl)
    okV d = true →
    (Pred.any .f32 pb = true →
      (okV a = true → CanRun s c 4 →
        let x := ((fFma (fNeg (e 1).v) fTwo (e 0).v).sub (e 2)).div (fl fThree)
        let y := ((e 1).sub (e 2)).mul (fl 0x3F13CD3A)
        let z := (((e 0).add (e 1)).add (e 2)).div (fl fThree)
        WritesV (.vclarke c p d a) s c 4 p d
          (fun j => if j = 0 then x.v else if j = 1 then y.v else if j = 2 then z.v else (e 3).v)
          (fun _ => x.fl ||| y.fl ||| z.fl)) ∧
      (okV a = true → fIsNan th = false → fIsInf th = false → CanRun s c 6 →
        let x := ((e 0).mul (fl (fCos th))).add ((e 1).mul (fl (fSin th)))
        let y := (((e 0).neg).mul (fl (fSin th))).add ((e 1).mul (fl (fCos th)))
        let x' := ((e 0).mul (fl (fCos th))).sub ((e 1).mul (fl (fSin th)))
        let y' := ((e 0).mul (fl (fSin th))).add ((e 1).mul (fl (fCos th)))
        WritesV (.vpark c p d a b) s c 6 p d
          (fun j => if j = 0 then x.v else if j = 1 then y.v else (e j).v) (fun _ => x.fl ||| y.fl) ∧
        WritesV (.vipark c p d a b) s c 6 p d
          (fun j => if j = 0 then x'.v else if j = 1 then y'.v else (e j).v) (fun _ => x'.fl ||| y'.fl)) ∧
      (okV a = true → fIsInf th = true → CanRun s c 6 →
        WritesV (.vpark c p d a b) s c 6 p d (fun j => if j < 2 then canonNan else (e j).v) (fun _ => flNan) ∧
        WritesV (.vipark c p d a b) s c 6 p d (fun j => if j < 2 then canonNan else (e j).v) (fun _ => flNan) ∧
        WritesV (.vsincos c p d b) s c 6 p d (fun j => if j < 3 then canonNan else 0) (fun _ => flNan)) ∧
      (okV a = true → fIsNan th = true → CanRun s c 6 →
        WritesV (.vpark c p d a b) s c 6 p d (fun j => if j < 2 then canonNan else (e j).v) (fun _ => 0) ∧
        WritesV (.vipark c p d a b) s c 6 p d (fun j => if j < 2 then canonNan else (e j).v) (fun _ => 0)) ∧
      (fIsNan th = true → CanRun s c 6 →
        WritesV (.vsincos c p d b) s c 6 p d (fun j => if j < 3 then canonNan else 0) (fun _ => 0)) ∧
      (fIsNan th = false → fIsInf th = false → CanRun s c 6 →
        WritesV (.vsincos c p d b) s c 6 p d
          (fun j => if j = 0 then fSin th else if j = 1 then fCos th else if j = 2 then fFrac th else 0) (fun _ => 0)) ∧
      (okV a = true → okV b = true → CanRun s c 8 →
        let v := (coreOf s c).getV b
        let i := elemF v 0
        let lo := elemF v 1
        let hi := elemF v 2
        let k := (e 2).mul (e 0)
        let q := ((((e 1).mul (e 0)).add (fl i)).add k).add (e 3)
        let out := fMax lo (fMin q.v hi)
        let hold := (fLt hi q.v && fLt fZero (elemF u 0)) || (fLt q.v lo && fLt (elemF u 0) fZero)
        let i2 := if hold then fl i else (fl i).add k
        ((∃ x ∈ [elemF u 0, elemF u 1, elemF u 2, elemF u 3, i], fIsNan x = true) →
          WritesV (.vpi c p d a b) s c 8 p d (fun j => if j = 0 then canonNan else if j = 1 then fNorm i else 0)
            (fun _ => flNan)) ∧
        ((∀ x ∈ [elemF u 0, elemF u 1, elemF u 2, elemF u 3, i], fIsNan x = false) →
          WritesV (.vpi c p d a b) s c 8 p d
            (fun j => if j = 0 then out else if j = 1 then fMax lo (fMin i2.v hi)
              else if j = 2 then (if fEq out q.v then 0 else fOne) else 0)
            (fun _ => q.fl ||| i2.fl ||| satIf (!fEq out q.v)))) ∧
      (okV a = true → CanRun s c 12 →
        (b.toNat < 3 →
          let r := svm (elemF u 0) (elemF u 1) (elemF u 2) b.toNat
          WritesV (.vsvm c p d a b) s c 12 p d
            (fun j => if j = 0 then r.a else if j = 1 then r.b else if j = 2 then r.c else r.sector) (fun _ => r.fl)) ∧
        (let r := if fLt th fZero then fZero else th
         let m := (((e 0).mul (e 0)).add ((e 1).mul (e 1))).sqrt
         fIsNan (elemF u 0) = false → fIsNan (elemF u 1) = false → fIsNan th = false →
          (fLt r m.v = true →
            let x := (e 0).mul ((fl r).div m)
            let y := (e 1).mul ((fl r).div m)
            WritesV (.vlim c p d a b) s c 12 p d
              (fun j => if j = 0 then x.v else if j = 1 then y.v else (e j).v) (fun _ => x.fl ||| y.fl ||| flSat)) ∧
          (fLt r m.v = false → WritesV (.vlim c p d a b) s c 12 p d
            (fun j => if j < 2 then fNorm (e j).v else (e j).v) (fun _ => m.fl))))) ∧
    (pb.getLsbD 0 = true → okP b = true → (coreOf s c).getA b ≠ none → CanRun s c 8 →
      let r := lut (fun k => s.word (tileBuf n.val b.toNat + 4 * k)) ((coreOf s c).getS a)
      WritesS (.lut c p d a b) s c 8 d r.v r.fl)

/-- R78, R82: the instructions with an immediate, the compares and the predicate instructions. -/
def Obligations.ImmediateAndCompareResults : Prop :=
  immediateResults ∧ compareResults
/-- R83, R84, R48: loads. Where the words are whole, the address is aligned and in range, the destination takes what
stands there, a single-bit error being corrected and counted; headbox loads take the entries that the tick shows, and
reads through an open tile take its copy. -/
def Obligations.LoadResults : Prop :=
  (∀ (s : State) (c : Proc) (p : BitVec 3) (d a : BitVec 5) (imm : BitVec 13), (predOf s c p).getLsbD 0 = true →
    let x := byteAddr s c a imm
    (CanRun s c 2 → x % 4 = 0 → x < 0x4000 → s.eccOf (localBase (procIdx c) + x) = 0 →
      WritesS (.lwl c p d a imm) s c 2 d (s.word (localBase (procIdx c) + x)) 0) ∧
    (CanRun s c 6 → c ≠ .safety → x % 4 = 0 → x < 0x200000 → s.eccOf (dataBase + x) = 0 →
      WritesS (.lwd c p d a imm) s c 6 d (s.word (dataBase + x)) 0) ∧
    (CanRun s c 6 → procLane c = true → d ≠ 0 → x % 4 = 0 → x < 0x200000 → s.eccOf (dataBase + x) = 1 →
      Does (.lwd c p d a imm) s fun t =>
        (t.core (procIdx c)).getS d = s.word (dataBase + x) ∧ t.eccOf (dataBase + x) = 0 ∧
        t.f (F.ENG_LANE_ECC_CNT_ecc_corr (procIdx c)) =
          min 0xFFFF ((fetched s c).f (F.ENG_LANE_ECC_CNT_ecc_corr (procIdx c)) + 1) ∧ t.mem = s.mem)) ∧
  (∀ (s : State) (n : Fin 8) (p : BitVec 3) (d a : BitVec 5) (imm : BitVec 13) (w : BitVec 8),
    let c : Proc := .lane n
    let x := byteAddr s c a imm
    ((predOf s c p).getLsbD 0 = true →
      (CanRun s c 4 → x % 4 = 0 → x < 0x4000 → WritesS (.lwh c p d a imm) s c 4 d (s.hbWord x) 0) ∧
      (CanRun s c 2 → okP a = true → (coreOf s c).getA a ≠ none →
        WritesS (.lwt c p d a w) s c 2 d (s.word (tileBuf n a.toNat + 4 * w.toNat)) 0)) ∧
    (Pred.any .f32 (predOf s c p) = true → okV d = true →
      (CanRun s c 2 → x % 16 = 0 → x < 0x4000 → (∀ k < 4, s.eccOf (localBase n + x + 4 * k) = 0) →
        WritesV (.vll c p d a imm) s c 2 p d (fun j => s.word (localBase n + x + 4 * j)) (fun _ => 0)) ∧
      (CanRun s c 8 → x % 16 = 0 → x < 0x200000 → (∀ k < 4, s.eccOf (dataBase + x + 4 * k) = 0) →
        WritesV (.vld c p d a imm) s c 8 p d (fun j => s.word (dataBase + x + 4 * j)) (fun _ => 0)) ∧
      (CanRun s c 4 → x % 16 = 0 → x < 0x4000 →
        WritesV (.vlh c p d a imm) s c 4 p d (fun j => s.hbWord (x + 4 * j)) (fun _ => 0)) ∧
      (CanRun s c 2 → okP a = true → (coreOf s c).getA a ≠ none → w.toNat ≤ 252 →
        WritesV (.vlt c p d a w) s c 2 p d (fun j => s.word (tileBuf n a.toNat + 4 * (w.toNat + j))) (fun _ => 0))))

/-- R83, R84, R74: stores. The word, or each permitted element, is stored at the byte address; every other byte of memory
and every register of the block is as after the instruction's fetch, and the core has only moved on. -/
def Obligations.StoreResults : Prop :=
  (∀ (s : State) (c : Proc) (p : BitVec 3) (d a : BitVec 5) (imm : BitVec 13), Memory.wf s.mem = true →
    (predOf s c p).getLsbD 0 = true →
    let x := byteAddr s c a imm
    let stores := fun (i : Instr) (n b : Nat) => Does i s fun t =>
      t.word (b + x) = (coreOf s c).getS d ∧ KeepsBut (fetched s c) t (b + x) (b + x + 4) ∧ t.eng = (ran s c n).eng
    (CanRun s c 1 → x % 4 = 0 → x < 0x4000 → s.eccOf (localBase (procIdx c) + x) = 0 →
      stores (.swl c p d a imm) 1 (localBase (procIdx c))) ∧
    (CanRun s c 4 → c ≠ .safety → x % 4 = 0 → x < 0x200000 → s.eccOf (dataBase + x) = 0 →
      stores (.swd c p d a imm) 4 dataBase)) ∧
  (∀ (s : State) (n : Fin 8) (p : BitVec 3) (d a : BitVec 5) (imm : BitVec 13), Memory.wf s.mem = true →
    okV d = true →
    let c : Proc := .lane n
    let x := byteAddr s c a imm
    let pb := predOf s c p
    let stores := fun (i : Instr) (n b : Nat) => Does i s fun t =>
      (∀ j < 4, t.word (b + x + 4 * j) = if permF pb j then elemF ((coreOf s c).getV d) j else s.word (b + x + 4 * j)) ∧
      KeepsBut (fetched s c) t (b + x) (b + x + 16) ∧ t.eng = (ran s c n).eng
    Pred.any .f32 pb = true →
    (CanRun s c 1 → x % 16 = 0 → x < 0x4000 → (∀ k < 4, s.eccOf (localBase n + x + 4 * k) = 0) →
      stores (.vsl c p d a imm) 1 (localBase n)) ∧
    (CanRun s c 6 → x % 16 = 0 → x < 0x200000 → (∀ k < 4, s.eccOf (dataBase + x + 4 * k) = 0) →
      stores (.vsd c p d a imm) 6 dataBase))

/-- R85–R88: NOP, BR, LOOP and YIELD. A branch that is not permitted falls through; a taken one goes to its target and ends
the loops that do not hold it. LOOP enters its body min(Sa, max) times or skips it; the last word of a body goes back to
the first while iterations are left. YIELD ends the slice and leaves the commit group as it is. -/
def Obligations.ControlFlow : Prop :=
  (∀ (s : State) (c : Proc) (p : BitVec 3) (slot : BitVec 5) (word : BitVec 8), CanRun s c 2 →
    (coreOf s c).slot * 256 + (coreOf s c).word < slot.toNat * 256 + word.toNat →
    ((predOf s c p).getLsbD 0 = false → Machine.exec (.br c p slot word) s = .next (ran s c 2)) ∧
    ((predOf s c p).getLsbD 0 = true → (procLane c = true → tblGet 0 (coreOf s c).slots slot.toNat ≠ 0) →
      Machine.exec (.br c p slot word) s = .next (ranWith s c 2 fun k =>
        { k with slot := slot.toNat, word := word.toNat,
                 loops := (coreOf s c).loops.dropWhile fun r => !r.holds slot.toNat word.toNat }))) ∧
  (∀ (s : State) (c : Proc) (a : BitVec 5) (max : BitVec 12) (len : BitVec 6), CanRun s c 2 →
    let l := coreOf s c
    let n := min (l.getS a).toNat max.toNat
    let last := l.word + len.toNat
    max ≠ 0 → len ≠ 0 → last ≤ 255 → l.loops.length < 2 →
    (∀ r ∈ l.loops, l.slot = r.slot ∧ r.first ≤ last ∧ last ≤ r.last) →
    (n = 0 → last < 255 → (∀ r ∈ l.loops, last ≠ r.last) → Machine.exec (.loop c a max len) s =
      .next (ranWith s c 2 fun k => { k with word := last + 1, loops := l.loops })) ∧
    (n = 0 → last = 255 → l.loops = [] → Machine.exec (.loop c a max len) s =
      .next (ranWith s c 2 fun k => { k with slot := l.slot + 1, word := 0 })) ∧
    (n ≠ 0 → Machine.exec (.loop c a max len) s =
      .next (ranWith s c 2 fun k =>
        { k with slot := l.slot, word := l.word + 1, loops := ⟨l.slot, l.word + 1, last, 0, n⟩ :: l.loops }))) ∧
  (∀ (s : State) (c : Proc) (p : BitVec 3), CanRun s c 1 →
    Machine.exec (.nop c p) s = .next (ran s c 1) ∧
    (∀ r rest, (coreOf s c).loops = r :: rest → (coreOf s c).slot = r.slot → (coreOf s c).word = r.last →
      r.idx + 1 < r.count → Does (.nop c p) s fun t =>
        (t.core (procIdx c)).word = r.first ∧ (t.core (procIdx c)).loops = { r with idx := r.idx + 1 } :: rest) ∧
    ((coreOf s c).loops = [] → (coreOf s c).word = 255 → Does (.nop c p) s fun t =>
        (t.core (procIdx c)).word = 0 ∧ (t.core (procIdx c)).slot = (coreOf s c).slot + 1)) ∧
  (∀ (s : State) (n : Fin 8) (p : BitVec 3), CanRun s (.lane n) 1 → (predOf s (.lane n) p).getLsbD 0 = true →
    Does (.yield (.lane n) p) s fun t =>
      (t.core n).busy = false ∧ t.bit (F.ENG_LANE_STS_busy n) = false ∧
      (t.ctx (s.core n).ctx).group = (s.ctx (s.core n).ctx).group ∧
      (t.ctx (s.core n).ctx).felt = (s.ctx (s.core n).ctx).felt ∧
      (t.ctx (s.core n).ctx).cyc = (s.ctx (s.core n).ctx).cyc + (s.core n).cyc + (if s.halted = true then 0 else 1) ∧ t.mem = s.mem ∧
      (∀ j, j ≠ n.val → t.core j = s.core j) ∧ (∀ j, j ≠ (s.core n).ctx → t.ctx j = s.ctx j) ∧
      (∀ a, a ≠ R.ENG_LANE_STS n → t.reg a = (fetched s (.lane n)).reg a))

/-- R53, R57, R95: staging. A permitted STG to an owned target of an open group adds one felt entry, with the value in the
format of the field, and changes nothing else but flags and position; TCOMMIT closes the group as committed with
CTX_FELT_USED telling its writes, TABORT discards it with cause TABORT and EV17; once closed, a further TCOMMIT or TABORT
has no effect. -/
def Obligations.StagingAndClosing : Prop :=
  ∀ (s : State) (n : Fin 8) (p : BitVec 3) (a b : BitVec 5), (predOf s (.lane n) p).getLsbD 0 = true →
    let c : Proc := .lane n
    let k := (s.core n).ctx
    let x := s.ctx k
    let tgt := (coreOf s c).getS b
    let v := (coreOf s c).getS a
    k < 64 → x.felt.length ≤ 64 →
    (∀ w fmt, stgField (getBits tgt 24 8) (getBits tgt 16 8) (getBits tgt 0 16) = some (w, fmt) →
      CanRun s c 2 → x.closed = false → x.felt.length < 64 →
      s.ownerOf (getBits tgt 24 8) (getBits tgt 16 8) = some k →
      let stages := fun (cv : Bool) (bits : Nat) (sat : Bool) => Machine.exec (.stg c p cv a b) s =
        .next ((ranWith s c 2 fun l => l.flag (satIf sat)).setCtx k
          { x with felt := x.felt ++ [(tgt, BitVec.ofNat 32 bits)] })
      let lowSeq := fun (m : Nat) => m % 8 + m / 256 % 256 * 256
      (fmt ≠ .seq → stages false (v.toNat % 2 ^ w) false) ∧
      (fmt = .seq → stages false (lowSeq v.toNat) false) ∧
      (∀ q, fmt = .q q → stages true (fToQ w q v).1 (fToQ w q v).2) ∧
      (fmt = .raw → stages true v.toNat false) ∧
      (fmt = .int → let r := fToFixed (-(2 : Int) ^ (w - 1)) ((2 : Int) ^ (w - 1) - 1) 0 v
        stages true (r.1 % (2 : Int) ^ w).toNat (r.2 || fIsNan v)) ∧
      (fmt = .uint → let r := fToFixed 0 ((2 : Int) ^ w - 1) 0 v
        stages true r.1.toNat (r.2 || fIsNan v)) ∧
      (fmt = .seq → let r := fToFixed 0 0xFFFF 0 v
        stages true (lowSeq r.1.toNat) (r.2 || fIsNan v))) ∧
    (CanRun s c 1 → x.closed = false →
      let closes := fun (t : State) =>
        (t.ctx k).closed = true ∧ (t.ctx k).felt = x.felt ∧ (∀ j, j ≠ k → t.ctx j = s.ctx j) ∧
        t.eng.lanes = (ran s c 1).eng.lanes ∧ t.f (F.CTX_FELT_USED_used k) = x.felt.length ∧
        t.f (F.CTX_FELT_MAX_max k) = max (s.f (F.CTX_FELT_MAX_max k)) x.felt.length ∧ t.mem = s.mem
      (x.group ≠ .discarded → Does (.tcommit c p) s fun t => closes t ∧ (t.ctx k).group = .committed ∧
        (∀ r, r ≠ R.CTX_FELT_USED k → r ≠ R.CTX_FELT_MAX k → t.reg r = (fetched s c).reg r)) ∧
      (x.group ≠ .discarded → Does (.tabort c p) s fun t => closes t ∧
        (t.ctx k).group = .discarded ∧ (t.ctx k).cause = 3 ∧ t.f (F.CTX_LAST_ABORT_cause k) = 3 ∧
        t.bit (pendFld 17) = true ∧ Keeps (fetched s c) t [4, 0x12]) ∧
      (x.group = .discarded → Does (.tcommit c p) s fun t => closes t ∧ (t.ctx k).group = .discarded) ∧
      (x.group = .discarded → Does (.tabort c p) s fun t => closes t ∧ (t.ctx k).group = .discarded)) ∧
    (CanRun s c 1 → x.closed = true →
      Machine.exec (.tcommit c p) s = .next (ran s c 1) ∧ Machine.exec (.tabort c p) s = .next (ran s c 1))

/-- R49, R51, R84, R96–R98: tile opening, events, keeper calls and the status selectors. That the keeper and the safety core
keep an LST, which MFS 0 and MTS 0 reach, is the model's reading (log entry 104); MFS 3 on the safety core and MFS 4 on a core
that is no lane write a free value (log entry 76). -/
def Obligations.TilesEventsStatus : Prop :=
  (∀ (s : State) (n : Fin 8) (p : BitVec 3) (d a : BitVec 5), (predOf s (.lane n) p).getLsbD 0 = true →
    let c : Proc := .lane n
    let k := (s.core n).ctx
    let t := ((coreOf s c).getS a).toNat
    CanRun s c 72 → okP d = true → t < 1024 → Memory.wf s.mem = true → k < 64 →
    (s.wmOk (2048 + t) = true → Does (.topen c p d a) s fun u =>
      (u.core n).getA d = some t ∧ (∀ r, r ≠ d → (u.core n).getA r = (s.core n).getA r) ∧
      u.eng = { (ran s c 72).eng with lanes := u.eng.lanes } ∧
      (∀ w < 256, u.word (tileBuf n d.toNat + 4 * w) = s.word (tableBase + 1024 * t + 4 * w)) ∧
      KeepsBut (fetched s c) u (tileBuf n d.toNat) (tileBuf n d.toNat + 1024)) ∧
    (s.wmOk (2048 + t) = false → (s.ctx k).group = .opened → Does (.topen c p d a) s fun u =>
      (u.core n).busy = false ∧ u.quarantined (2048 + t) = true ∧ (u.ctx k).group = .discarded ∧
      u.f (F.CTX_LAST_ABORT_cause k) = 4 ∧ u.f F.TILE_WM_FAIL_tile = 2048 + t ∧ u.f F.TILE_WM_FAIL_where = 1 ∧
      u.bit (pendFld 18) = true ∧ u.bit (pendFld 17) = true ∧ u.mem = s.mem)) ∧
  (∀ (s : State) (n : Fin 8) (p : BitVec 3) (a b : BitVec 5) (svc : BitVec 8),
    (predOf s (.lane n) p).getLsbD 0 = true →
    let c : Proc := .lane n
    let k := (s.core n).ctx
    (CanRun s c 1 →
      (Does (.evt c p a false) s fun t => t.bit (pendFld 62) = true ∧ t.eng = (ran s c 1).eng ∧ t.mem = s.mem) ∧
      (Does (.evt c p a true) s fun t => t.bit (pendFld 63) = true ∧ t.eng = (ran s c 1).eng ∧ t.mem = s.mem)) ∧
    (CanRun s c 2 → k < 64 →
      let frame := fun (t : State) => t.mem = s.mem ∧ (∀ j, j ≠ k → t.ctx j = s.ctx j) ∧
        t.eng = { (ran s c 2).eng with ctxs := t.eng.ctxs, svcQ := t.eng.svcQ } ∧
        (∀ r, r ≠ R.CTX_SVC_STS k → t.reg r = (fetched s c).reg r)
      ((s.ctx k).posted = false → Does (.callk c p svc a b) s fun t =>
        t.eng.svcQ = svcInsert ⟨k, svc.toNat, (coreOf s c).getS a, (coreOf s c).getS b, s.f F.TIME_TICK_COUNT_count,
          (s.core n).start + (s.core n).cyc⟩ s.eng.svcQ ∧
        t.f (F.CTX_SVC_STS_service k) = svc.toNat ∧ t.f (F.CTX_SVC_STS_status k) = 0 ∧
        t.ctx k = { s.ctx k with posted := true } ∧ frame t) ∧
      ((s.ctx k).posted = true → Does (.callk c p svc a b) s fun t =>
        t.eng.svcQ = s.eng.svcQ ∧ t.ctx k = s.ctx k ∧ t.bit (F.CTX_SVC_STS_dropped k) = true ∧ frame t))) ∧
  (∀ (s : State) (c : Proc) (p : BitVec 3) (d a : BitVec 5), (predOf s c p).getLsbD 0 = true → CanRun s c 1 →
    let l := coreOf s c
    let loop := fun j => ((l.loops[j]?).map LoopRec.idx).getD 0
    let mfs := fun sel (v : Word) => WritesS (.mfs c p d sel) s c 1 d v 0
    mfs 0 (l.lst.setWidth 32) ∧
    mfs 1 (if procLane c then BitVec.ofNat 32 (l.cyc + l.free + 1) else 0) ∧
    mfs 2 (s.reg R.TIME_TICK_COUNT) ∧
    (c ≠ .safety → mfs 3 (BitVec.ofNat 32 l.ctx)) ∧
    (procLane c = true → mfs 4 (BitVec.ofNat 32 (procIdx c))) ∧
    (∀ sel : BitVec 5, (sel = 3 ∧ c = .safety) ∨ (sel = 4 ∧ procLane c = false) → ∃ v,
      Machine.exec (.mfs c p d sel) s = .next (ranWith { s with freeCtr := s.freeCtr + 1 } c 1 fun k => k.setS d v)) ∧
    mfs 5 (if procLane c then BitVec.ofNat 32 (ran s c 1).now else 0) ∧
    mfs 6 (BitVec.ofNat 32 (loop 0)) ∧
    mfs 7 (BitVec.ofNat 32 (loop 1)) ∧
    Machine.exec (.mts c p a 0) s = .next (ranWith s c 1 fun k => { k with lst := (l.getS a).setWidth 3 }))

/-- R58, R73, R76, R82, R83: what raises a lane exception. An instruction whose fields break R73 or that the lane lacks, and a
word that spells none, are ILLEGAL; each other cause has its condition. A LOOP met inside two loops is ILLEGAL whatever its
count: the model's choice (log entry 105). -/
def Obligations.LaneExceptions : Prop :=
  ∀ (s : State) (n : Fin 8),
    let c : Proc := .lane n
    (s.core n).ctx < 64 → s.pwr.mainRst = false → laneFetches s n = true →
    ((s.core n).cyc + 1 ≤ (s.core n).budget →
      (∀ i, instrCore i = some c → fieldsOk i = false → Traps i s n 4) ∧
      (∀ w, Sys2Proof.decodeNimson c w = none → Traps (.illegalInstruction c w) s n 4) ∧
      (∀ p slot word, slot.toNat * 256 + word.toNat ≤ (s.core n).slot * 256 + (s.core n).word →
        Traps (.br c p slot word) s n 4) ∧
      (∀ a max len, let l := s.core n
        (max = 0 ∨ len = 0 ∨ 255 < l.word + len.toNat ∨ 2 ≤ l.loops.length ∨
          ∃ r ∈ l.loops, l.slot ≠ r.slot ∨ l.word + len.toNat < r.first ∨ r.last < l.word + len.toNat) →
        Traps (.loop c a max len) s n 4)) ∧
    (∀ p d a b imm w, (predOf s c p).getLsbD 0 = true →
      let x := byteAddr s c a imm
      let tgt := (coreOf s c).getS b
      (CanRun s c 2 → (x % 4 ≠ 0 ∨ 0x4000 ≤ x) → Traps (.lwl c p d a imm) s n 5) ∧
      (CanRun s c 1 → (x % 4 ≠ 0 ∨ 0x4000 ≤ x) → Traps (.swl c p d a imm) s n 5) ∧
      (CanRun s c 6 → (x % 4 ≠ 0 ∨ 0x200000 ≤ x) → Traps (.lwd c p d a imm) s n 5) ∧
      (CanRun s c 4 → (x % 4 ≠ 0 ∨ 0x200000 ≤ x) → Traps (.swd c p d a imm) s n 5) ∧
      (CanRun s c 4 → (x % 4 ≠ 0 ∨ 0x4000 ≤ x) → Traps (.lwh c p d a imm) s n 5) ∧
      (CanRun s c 2 → x % 4 = 0 → x < 0x4000 → s.eccOf (localBase n + x) = 2 → Traps (.lwl c p d a imm) s n 6) ∧
      (CanRun s c 1 → x % 4 = 0 → x < 0x4000 → s.eccOf (localBase n + x) = 2 → Traps (.swl c p d a imm) s n 6) ∧
      (CanRun s c 6 → x % 4 = 0 → x < 0x200000 → s.eccOf (dataBase + x) = 2 → Traps (.lwd c p d a imm) s n 6) ∧
      (CanRun s c 4 → x % 4 = 0 → x < 0x200000 → s.eccOf (dataBase + x) = 2 → Traps (.swd c p d a imm) s n 6) ∧
      (CanRun s c 8 → okP b = true → (coreOf s c).getA b = none → Traps (.lut c p d a b) s n 7) ∧
      (CanRun s c 2 → okP a = true → (coreOf s c).getA a = none → Traps (.lwt c p d a w) s n 7) ∧
      (CanRun s c 72 → okP d = true → 1024 ≤ ((coreOf s c).getS a).toNat → Traps (.topen c p d a) s n 5) ∧
      (∀ cv, CanRun s c 2 → (s.ctx (s.core n).ctx).closed = true → Traps (.stg c p cv a b) s n 2) ∧
      (∀ cv, CanRun s c 2 → (s.ctx (s.core n).ctx).closed = false →
        s.ownerOf (getBits tgt 24 8) (getBits tgt 16 8) ≠ some (s.core n).ctx → Traps (.stg c p cv a b) s n 1) ∧
      (∀ cv w fmt, stgField (getBits tgt 24 8) (getBits tgt 16 8) (getBits tgt 0 16) = some (w, fmt) →
        CanRun s c 2 → (s.ctx (s.core n).ctx).closed = false →
        s.ownerOf (getBits tgt 24 8) (getBits tgt 16 8) = some (s.core n).ctx →
        64 ≤ (s.ctx (s.core n).ctx).felt.length → Traps (.stg c p cv a b) s n 3)) ∧
    (∀ p d a imm w, Pred.any .f32 (predOf s c p) = true → okV d = true →
      let x := byteAddr s c a imm
      let ue := fun b => ∃ k < 4, s.eccOf (b + x + 4 * k) = 2
      (x % 16 ≠ 0 ∨ 0x4000 ≤ x →
        (CanRun s c 2 → Traps (.vll c p d a imm) s n 5) ∧ (CanRun s c 1 → Traps (.vsl c p d a imm) s n 5) ∧
        (CanRun s c 4 → Traps (.vlh c p d a imm) s n 5)) ∧
      (x % 16 ≠ 0 ∨ 0x200000 ≤ x →
        (CanRun s c 8 → Traps (.vld c p d a imm) s n 5) ∧ (CanRun s c 6 → Traps (.vsd c p d a imm) s n 5)) ∧
      (x % 16 = 0 → x < 0x4000 → ue (localBase n) →
        (CanRun s c 2 → Traps (.vll c p d a imm) s n 6) ∧ (CanRun s c 1 → Traps (.vsl c p d a imm) s n 6)) ∧
      (x % 16 = 0 → x < 0x200000 → ue dataBase →
        (CanRun s c 8 → Traps (.vld c p d a imm) s n 6) ∧ (CanRun s c 6 → Traps (.vsd c p d a imm) s n 6)) ∧
      (CanRun s c 2 → okP a = true →
        (252 < w.toNat → Traps (.vlt c p d a w) s n 5) ∧
        (w.toNat ≤ 252 → (coreOf s c).getA a = none → Traps (.vlt c p d a w) s n 7)))

/-- R62, R74, R75: whatever the instruction, where its predicate does not permit it the lane spends its cycle count and
moves on, and nothing else changes; where its last cycle lies beyond the budget it has no effect beyond its fetch, and the
slice whose budget is used up fetches no more. -/
def Obligations.NotPermittedAndAbandoned : Prop :=
  ∀ (s : State) (c : Proc) (i : Instr) (m : Pred) (p : BitVec 3), instrCore i = some c → fieldsOk i = true →
    instrPred i = some (m, p) →
    (m.any (predOf s c p) = false → CanRun s c (instrCycles i) →
      Machine.exec i s = .next (ran s c (instrCycles i))) ∧
    (procLane c = true → m ≠ .always → s.pwr.mainRst = false → laneFetches s (procIdx c) = true →
      ((s.core (procIdx c)).budget ≤ (s.core (procIdx c)).cyc ∨
        s.halted = false ∧ (s.core (procIdx c)).budget < (s.core (procIdx c)).cyc + instrCycles i) →
      Machine.exec i s = .next (if (s.core (procIdx c)).budget ≤ (s.core (procIdx c)).cyc
        then s.setCore (procIdx c) (coreOf s c) else fetched s c))

/-- R48, R69, R82: the frame of an instruction that computes from registers to one register. Whatever its operands, it changes
the position of its core, that register and the sticky flags, and on a lane global time; every other register, every other
core, memory, the registers of the block, contexts and tiles are as before, but for a single-bit error of the lane's
instruction word, which the fetch corrects and counts (R48). -/
def Obligations.RegisterInstructionFrame : Prop :=
  ∀ (s : State) (c : Proc) (i : Instr) (x : Dest), instrCore i = some c → fieldsOk i = true → instrDest i = some x →
    CanRun s c (instrCycles i) →
    Does i s fun t =>
      (let a := slotBase (procIdx c) (coreOf s c).slot + 4 * (coreOf s c).word;
        (procLane c = false ∨ s.eccOf a = 0 → fetched s c = s.setCore (procIdx c) (coreOf s c)) ∧
        (procLane c = true → s.eccOf a = 1 → (fetched s c).eccOf a = 0 ∧
          (fetched s c).f (F.ENG_LANE_ECC_CNT_ecc_corr (procIdx c)) =
            min 0xFFFF (s.f (F.ENG_LANE_ECC_CNT_ecc_corr (procIdx c)) + 1) ∧
          (∀ r, r ≠ R.ENG_LANE_ECC_CNT (procIdx c) → (fetched s c).reg r = s.reg r)) ∧
        (fetched s c).mem = s.mem ∧ (fetched s c).tm = s.tm) ∧
      t = { fetched s c with eng := { (fetched s c).eng with lanes := t.eng.lanes }, tm := { s.tm with now := t.tm.now } } ∧
      (procLane c = false → t.tm = s.tm) ∧
      (∀ j, j ≠ procIdx c → t.core j = s.core j) ∧
      (∀ r, x ≠ .s r → (t.core (procIdx c)).getS r = (s.core (procIdx c)).getS r) ∧
      (∀ r, x ≠ .p r → (t.core (procIdx c)).getP r = (s.core (procIdx c)).getP r) ∧
      (∀ r, x ≠ .v r → (t.core (procIdx c)).getV r = (s.core (procIdx c)).getV r) ∧
      (t.core (procIdx c)).getS 0 = 0 ∧ (t.core (procIdx c)).getP 0 = 0xFF ∧
      (t.core (procIdx c)).a = (s.core (procIdx c)).a ∧
      (t.core (procIdx c)).lst ||| (s.core (procIdx c)).lst = (t.core (procIdx c)).lst

/-- R46, R50, R51, R62, R70: a slice starts with cleared register files at its entry word, its overlay tile staged; where
the tile's watermark fails, the tile is quarantined, the group is discarded and the slice does not run; a slice that
reaches its budget is stopped, its group is discarded with cause OVERRUN, and EV16 goes out. -/
def Obligations.SliceStartAndOverrun : Prop :=
  (∀ (s : State) (i : Fin 256) (t : Sched) (x : Slice), s.pwr.mainRst = false → s.eng.sched = some t →
    t.slices[i.val]? = some x → x.stage = [] → x.lane < 8 → s.running = true → s.tm.phase = 2 → s.halted = false →
    s.f (F.CTX_STS_state x.ctx) = 1 → (s.core x.lane).busy = false → i.val ∉ (s.core x.lane).done →
    Does (.sliceStart i) s fun u =>
      let l := u.core x.lane
      l.busy = true ∧ l.ctx = x.ctx ∧ l.budget = x.budget ∧ l.cyc = 0 ∧ l.word = x.word ∧
      l.slot = (s.core x.lane).slotOf x.tile ∧ l.lst = 0 ∧ l.loops = [] ∧
      (∀ r, l.getS r = 0) ∧ (∀ r, l.getV r = 0) ∧ (∀ r, l.getA r = none) ∧ (∀ r, r ≠ 0 → l.getP r = 0) ∧
      (∀ j, j ≠ x.lane → u.core j = s.core j) ∧ u.eng.ctxs = s.eng.ctxs ∧
      (∀ a, a ≠ R.ENG_LANE_STS x.lane → u.reg a = s.reg a) ∧
      u.bit (F.ENG_LANE_STS_busy x.lane) = true ∧ u.f (F.ENG_LANE_STS_context x.lane) = x.ctx % 64 ∧
      u.f (F.ENG_LANE_STS_slice x.lane) = i ∧
      (s.tm.holdLag = none → s.laneInstant x.start ≤ u.now) ∧ u.mem = s.mem) ∧
  (∀ (s : State) (i : Fin 256) (t : Sched) (x : Slice) (tile slot : Nat), s.pwr.mainRst = false → s.eng.sched = some t →
    t.slices[i.val]? = some x → x.stage = [(tile, slot)] → tile < 2048 → slot < 32 → x.lane < 8 → x.ctx < 64 →
    s.running = true → s.tm.phase = 2 → s.halted = false → Memory.wf s.mem = true →
    s.f (F.CTX_STS_state x.ctx) = 1 → (s.core x.lane).busy = false → i.val ∉ (s.core x.lane).done →
    (s.wmOk tile = true → Does (.sliceStart i) s fun u =>
      let l := u.core x.lane
      l.busy = true ∧ l.ctx = x.ctx ∧ l.cyc = 0 ∧ l.word = x.word ∧ tblGet 0 l.slots slot = tile + 1 ∧
      (∀ w < 256, u.word (slotBase x.lane slot + 4 * w) = s.word (progBase + 1024 * tile + 4 * w)) ∧
      (∀ a, a < slotBase x.lane slot ∨ slotBase x.lane slot + 1024 ≤ a → memGet u.mem a = memGet s.mem a) ∧
      (u.f (F.TILE_LANE_OVL_slots x.lane)).testBit slot = true ∧
      u.f (F.TILE_LANE_STAGED_staged x.lane) = (s.f (F.TILE_LANE_STAGED_staged x.lane) + 1) % 2 ^ 32) ∧
    (s.wmOk tile = false → (s.ctx x.ctx).group ≠ .discarded → Does (.sliceStart i) s fun u =>
      (u.core x.lane).busy = false ∧ i.val ∈ (u.core x.lane).done ∧ u.quarantined tile = true ∧
      (u.ctx x.ctx).group = .discarded ∧ u.f (F.CTX_LAST_ABORT_cause x.ctx) = 4 ∧
      u.f F.TILE_WM_FAIL_tile = tile ∧ u.f F.TILE_WM_FAIL_where = 0 ∧ u.bit (pendFld 18) = true ∧
      u.bit (pendFld 17) = true ∧ u.mem = s.mem)) ∧
  (∀ (s : State) (n : Fin 8), s.pwr.mainRst = false → (s.core n).busy = true → s.halted = false →
    (s.core n).ctx < 64 → (s.ctx (s.core n).ctx).group ≠ .discarded →
    Does (.budgetExpiry n) s fun t =>
      (t.core n).busy = false ∧ (t.ctx (s.core n).ctx).group = .discarded ∧
      t.f (F.CTX_LAST_ABORT_cause (s.core n).ctx) = 2 ∧
      t.f (F.CTX_OVERRUN_CNT_overrun_cnt (s.core n).ctx) =
        min 0xFFFFFFFF (s.f (F.CTX_OVERRUN_CNT_overrun_cnt (s.core n).ctx) + 1) ∧
      t.bit (pendFld 16) = true ∧ t.bit (pendFld 17) = true ∧ t.mem = s.mem)

/-! ## Time and the tick -/

/-- The conditions of the checks of R27 that a start passes, in their order, on the values that R29 takes. -/
def startConds (s : State) : List Prop :=
  let p := s.f F.TIME_TICK_PERIOD_period_m1 + 1
  let l := s.f F.TIME_COUCH_LEAD_lead
  let follower := s.f F.TIME_LINE_STS_role = 2
  [2000 ≤ p ∧ p ≤ 50000,
   s.bit F.TILE_SCHED_STS_verified = true ∧
     ∀ x ∈ (s.eng.sched.getD {}).slices, 5 * ((x.start + x.budget : Nat) : Int) ≤ 16 * ((p : Int) - l - 375),
   ∀ n < s.part.kynLanes, s.chainCfg n ≤ (if 5000 ≤ p then 24 else if 3125 ≤ p then 12 else 6),
   s.f F.TIME_REQ_LEAD_req_lead ≤ l,
   l + 625 ≤ p,
   follower → s.bit F.TIME_LINE_STS_locked = true,
   follower → s.f F.TIME_SRV_PERIOD_period_m1 + 1 = p]

/-- R27, R29, R47: a write of 1 to TIME_TICK_CTL.run. The first check that fails refuses the start with its code; where all
pass, the first tick is to start at the first grid instant at least 4 µs later. While run reads 1 it has no effect. -/
def Obligations.StartOfTheTick : Prop :=
  ∀ s : State, s.pwr.mainRst = false →
    (s.bit F.TIME_TICK_CTL_run = true → Machine.exec .startTick s = .next s) ∧
    (s.bit F.TIME_TICK_CTL_run = false →
      (∀ k < 7, (∀ j < k, (startConds s).getD j False) → ¬ (startConds s).getD k False →
        Does .startTick s fun t =>
          t.bit F.TIME_TICK_CTL_run = false ∧ t.f F.TIME_TICK_STS_start_error = k + 1 ∧
          t.bit F.TIME_TICK_STS_start_refused = true ∧ t.tm = s.tm ∧
          (k = 1 → s.bit F.TILE_SCHED_STS_verified = true → t.f F.TILE_SCHED_STS_error = 5)) ∧
      ((∀ k < 7, (startConds s).getD k False) →
        Does .startTick s fun t =>
          t.bit F.TIME_TICK_CTL_run = true ∧ t.f F.TIME_TICK_STS_start_error = 0 ∧ t.running = s.running ∧
          t.f F.TILE_SCHED_STS_error = 0 ∧
          ∃ r, t.tm = { s.tm with pend := some r } ∧ r.period = s.f F.TIME_TICK_PERIOD_period_m1 + 1 ∧
            r.lead = s.f F.TIME_COUCH_LEAD_lead ∧ r.epoch = s.epochNow ∧ s.now + 4000 ≤ r.first ∧
            r.epoch ≤ r.first ∧ (r.first - r.epoch) % (4 * r.period) = 0 ∧
            (r.first = r.epoch ∨ r.first < s.now + 4000 + 4 * r.period)))

/-- R28: a write of 0 to TIME_TICK_CTL.run. -/
def Obligations.StopOfTheTick : Prop :=
  ∀ s : State, s.pwr.mainRst = false →
    let safe := (∀ u < 8, driveAtRest s u) ∧
      ∀ k < 8, s.convExists k = true → s.f (F.PROT_CV_STS_state k) ≠ 0
    (s.bit F.TIME_TICK_CTL_run = false → Machine.exec .stopTick s = .next s) ∧
    (s.bit F.TIME_TICK_CTL_run = true → ¬ safe →
      Machine.exec .stopTick s = .next (s.setF F.TIME_TICK_STS_stop_rejected 1)) ∧
    (s.bit F.TIME_TICK_CTL_run = true → safe → s.tm.pend ≠ none →
      Does .stopTick s fun t => t.bit F.TIME_TICK_CTL_run = false ∧ t.tm = { s.tm with pend := none } ∧
        t.running = s.running) ∧
    (s.bit F.TIME_TICK_CTL_run = true → safe → s.tm.pend = none →
      Does .stopTick s fun t => t.bit F.TIME_TICK_CTL_run = false ∧ t.tm = { s.tm with stopping := true } ∧
        t.running = s.running)

/-- R19, R26–R28: the phases of a tick follow each other. A pending start, and every tick of a run that no stop ends, starts
at its grid instant; headbox ready follows 1.5 µs later, the couch at T − L; after an accepted stop the tick in progress
is the last. -/
def Obligations.TickPhases : Prop :=
  ∀ s : State, s.pwr.mainRst = false → s.halted = false → s.tm.holdLag = none →
    (∀ r, s.tm.pend = some r → s.running = false → Does .samplePoint s fun t =>
      t.tm.start = r.first ∧ t.tm.period = r.period ∧ t.tm.lead = r.lead ∧ t.tm.epoch = r.epoch ∧ t.tm.phase = 1 ∧
      t.tm.pend = none ∧ r.first ≤ t.now ∧ t.running = true ∧ t.f F.TIME_TICK_COUNT_count = 0) ∧
    (s.running = true → s.tm.phase = 3 → s.tm.stopping = false → Does .samplePoint s fun t =>
      t.tm.start = s.tm.start + 4 * s.tm.period ∧ t.tm.phase = 1 ∧ s.tm.start + 4 * s.tm.period ≤ t.now ∧
      t.running = true ∧ t.f F.TIME_TICK_COUNT_count = (s.f F.TIME_TICK_COUNT_count + 1) % 2 ^ 32) ∧
    (s.running = true → s.tm.phase = 1 → Does .headboxReady s fun t =>
      t.tm.phase = 2 ∧ t.tm.start = s.tm.start ∧ s.tm.start + 1500 ≤ t.now) ∧
    (s.running = true → s.tm.phase = 2 → Does .couch s fun t =>
      t.tm.phase = 3 ∧ t.tm.start = s.tm.start ∧ s.tm.start + 4 * s.tm.period - 4 * s.tm.lead ≤ t.now ∧ t.held = []) ∧
    (s.running = true → s.tm.phase = 3 → s.tm.stopping = true → Does .lastTickEnd s fun t =>
      t.tm.phase = 0 ∧ t.tm.stopping = false ∧ s.tm.start + 4 * s.tm.period ≤ t.now)

/-- R31, R32, R35, R375: the second pulse, the PPSI stamp, and the 64-bit pairs with a latch for each master. -/
def Obligations.StampsAndPairs : Prop :=
  ∀ s : State, s.pwr.mainRst = false →
    (s.tm.holdLag = none → Does .ppsoSecond s fun t =>
      t.now % 1000000000 = 0 ∧ s.now ≤ t.now ∧ t.now < s.now + 1000000000 ∧
      t.tm.ppso = true ∧ t.ppsoBall = s.bit F.TIME_TICK_CTL_ppso_en ∧ t.regs = s.regs ∧ t.mem = s.mem) ∧
    (s.tm.ppso = true → s.tm.holdLag = none → Does .ppsoPulseEnd s fun t =>
      t.ppsoBall = false ∧ t.tm.ppso = false ∧ t.now = max s.now (s.now / 1000000000 * 1000000000 + 10000) ∧ t.regs = s.regs ∧ t.mem = s.mem) ∧
    (∀ ph : Fin 4, Does (.ppsiEdge ph) s fun t =>
      t.f F.TIME_PPSI_LO_ppsi_lo = (s.now / 4 * 4 + ph) % 2 ^ 32 ∧
      t.f F.TIME_PPSI_HI_ppsi_hi = (s.now / 4 * 4 + ph) / 2 ^ 32 % 2 ^ 32 ∧ t.tm = s.tm ∧ t.mem = s.mem) ∧
    (∀ m : Master, (m = .pcie → s.host.d3hot = false) →
      let pair := fun (i : Instr) (k : Nat) (lo hi : Word) => Does i s fun t =>
        t.host.rdata = tblSet s.host.rdata (masterIdx m) [lo] ∧ t.latched k m = hi ∧
        (∀ k' m', (k', m') ≠ (k, m) → t.latched k' m' = s.latched k' m') ∧ t.regs = s.regs ∧ t.mem = s.mem ∧
        t.tm = s.tm
      pair (.timeNowRead m) 0 (BitVec.ofNat 32 s.now) (BitVec.ofNat 32 (s.now / 2 ^ 32)) ∧
      pair (.gpioStampRead m) 1 (s.reg R.GPIO_STAMP_LO) (s.reg R.GPIO_STAMP_HI) ∧
      ∀ n : Fin 4, pair (.canTimestampRead n m) (2 + n) (s.reg (R.CAN_TS_LO n)) (s.reg (R.CAN_TS_HI n)))

/-! ## Tiles, contexts and keeper services -/

/-- R49–R52, R494, R502, R504: scrubber, tile writes from a master, rewrites and re-fetches. A write at an address that is no
multiple of 4 is aligned down: the model's choice (log entry 42). -/
def Obligations.TileUpkeep : Prop :=
  ∀ s : State, s.pwr.mainRst = false →
    (s.eng.scrub = true → s.eng.scrubTile ≤ 3071 →
      let t := s.eng.scrubTile
      (s.quarantined t = true ∨ s.wmOk t = true → Does .scrubCheck s fun u =>
        u.eng.quar = s.eng.quar ∧ u.f F.TILE_SCRUB_STS_position = t ∧
        u.eng.scrubTile = (if t = 3071 then 0 else t + 1) ∧ u.mem = s.mem ∧
        u.f F.TILE_SCRUB_CNT_passes = (s.f F.TILE_SCRUB_CNT_passes + if t = 3071 then 1 else 0) % 2 ^ 32) ∧
      (s.quarantined t = false → s.wmOk t = false → Does .scrubCheck s fun u =>
        u.quarantined t = true ∧ u.f F.TILE_WM_FAIL_tile = t ∧ u.f F.TILE_WM_FAIL_where = 2 ∧
        u.bit (pendFld 18) = true ∧ u.mem = s.mem)) ∧
    (∀ t, s.eng.refetch = none → s.phase ≠ 3 →
      (s.eng.quar.find? fun x => x < 2048 && !s.eng.stuck.contains x) = some t →
      Machine.exec .tileRefetch s = .next { s with eng := { s.eng with refetch := some t } }) ∧
    (∀ (m : Master) (off : Fin 0x100000) (be : BitVec 4) (val : Word), (m = .pcie → s.host.d3hot = false) →
      Does (.tableTileWrite m off be val) s fun u =>
        u.quarantined (2048 + off / 1024) = true ∧
        (∀ t, u.quarantined t = true → t = 2048 + off / 1024 ∨ s.quarantined t = true) ∧
        u.mem = memPutBytes s.mem (tableBase + off / 4 * 4) val be ∧ u.eng.wm = s.eng.wm) ∧
    (∀ (m : Master) (off : Fin 0x200000) (be : BitVec 4) (val : Word), (m = .pcie → s.host.d3hot = false) →
      Does (.programWindowWrite m off be val) s fun u =>
        u.eng = s.eng ∧
        u.mem = if m = .keeper ∨ s.phase ≠ 1 then memPutBytes s.mem (progBase + off / 4 * 4) val be else s.mem) ∧
    (∀ t : Fin 1024, Does (.tileWmCommit t) s fun u =>
      u.eng = { s.eng with checking := s.eng.checking ++ [(t.val, s.reg R.TILE_WM_VALUE)] } ∧
      u.bit F.TILE_WM_STS_busy = true ∧ u.mem = s.mem) ∧
    (∀ t v rest, s.eng.checking = (t, v) :: rest → t < 1024 →
      (s.tileCrc (2048 + t) = v → Does .wmCheckDone s fun u =>
        u.eng.checking = rest ∧ u.wm (2048 + t) = v ∧ u.quarantined (2048 + t) = false ∧ u.mem = s.mem ∧
        u.bit F.TILE_WM_STS_busy = !rest.isEmpty) ∧
      (s.tileCrc (2048 + t) ≠ v → Does .wmCheckDone s fun u =>
        u.eng.checking = rest ∧ u.quarantined (2048 + t) = true ∧ u.eng.wm = s.eng.wm ∧
        u.bit F.TILE_WM_STS_mismatch = true ∧ u.f F.TILE_WM_FAIL_where = 3 ∧ u.bit (pendFld 18) = true ∧ u.mem = s.mem))

/-- R53, R63, R64: a context's group at the couch. A commit is counted and clears the streak; a discard is counted, raises
the streak but for TABORT, and the third halts the context with its cause. A restart is accepted only while every
drive of the context is disabled or safe. -/
def groupsAndHalts : Prop :=
  ∀ (s : State) (c : Nat), 1 ≤ c → c < 64 → s.f (F.CTX_STS_state c) = 1 →
    let x := s.ctx c
    let n := s.f (F.CTX_STS_streak c)
    (x.group = .committed → x.felt = [] →
      (s.ctxCouch c).f (F.CTX_STS_streak c) = 0 ∧
      (s.ctxCouch c).f (F.CTX_COMMIT_CNT_commit_cnt c) =
        min 0xFFFFFFFF (s.f (F.CTX_COMMIT_CNT_commit_cnt c) + 1) ∧
      (s.ctxCouch c).f (F.CTX_STS_state c) = 1) ∧
    (x.group = .discarded →
      (s.ctxCouch c).f (F.CTX_ABORT_CNT_abort_cnt c) = min 0xFFFFFFFF (s.f (F.CTX_ABORT_CNT_abort_cnt c) + 1) ∧
      (x.cause = 3 → (s.ctxCouch c).f (F.CTX_STS_streak c) = n ∧ (s.ctxCouch c).f (F.CTX_STS_state c) = 1) ∧
      (x.cause ≠ 3 → x.cause < 16 →
        (s.ctxCouch c).f (F.CTX_STS_streak c) = min 3 (n + 1) ∧
        (s.ctxCouch c).f (F.CTX_STS_state c) = (if 2 ≤ n then 2 else 1) ∧
        (2 ≤ n → (s.ctxCouch c).f (F.CTX_STS_halt_cause c) = x.cause))) ∧
    (x.group = .opened →
      ((s.ctxCouch c).ctx c).group = .discarded ∧ (s.ctxCouch c).f (F.CTX_LAST_ABORT_cause c) = 1 ∧
      (s.ctxCouch c).bit (pendFld 17) = true)

/-- R64: a write of 1 to CTX_CTL.restart. -/
def contextRestart : Prop :=
  ∀ (s : State) (c : Fin 64), s.pwr.mainRst = false → s.f (F.CTX_STS_state c) = 2 →
    let safe := ∀ u < 8, (s.f (F.CTX_SAFE_DRIVES_drives c)).testBit u = true → driveAtRest s u
    (safe → Machine.exec (.ctxRestart c) s = .next (s.setCtx c { s.ctx c with resumeNext := true })) ∧
    (¬ safe → Machine.exec (.ctxRestart c) s = .next (s.setF (F.CTX_STS_restart_rejected c) 1)) ∧
    (∀ t : State, (t.ctx c).resumeNext = true → (t.ctx c).haltNext = false → t.f (F.CTX_STS_state c) = 2 →
      (t.ctxTick c).f (F.CTX_STS_state c) = 1 ∧ (t.ctxTick c).f (F.CTX_STS_streak c) = 0 ∧
      ((t.ctxTick c).ctx c).group = .opened ∧ ((t.ctxTick c).ctx c).felt = [])

/-- The state in which the keeper has answered its oldest request `r` (R65, R66): the request is off the queue, the result and
status registers of its context and its result words hold the answer. Nothing else has changed since `s`. -/
def answered (s : State) (r : SvcReq) (status : Nat) (v : Word) : State :=
  let t := ({ s with eng := { s.eng with svcQ := s.eng.svcQ.tail } }.setReg (R.CTX_SVC_RESULT r.ctx) v).setF
    (F.CTX_SVC_STS_status r.ctx) status
  match (s.eng.sched.getD {}).svcAddr.find? fun e => e.1 == r.ctx with
  | some e => (t.putWord (dataBase + e.2) v).putWord (dataBase + e.2 + 4)
      (BitVec.ofNat 32 (status + 0x100 * r.svc + 0x10000 * (r.tick % 0x10000)))
  | none => t

/-- R65, R66, R97: the keeper serves the oldest request: the result and status registers, the result words, the queue, and what
the service does. A refused or an unknown service writes a result of zero and changes nothing else. Where R65 states no result
for a service that is done, the result is a free value (the model's choice, log entry 26). -/
def Obligations.KeeperServices : Prop :=
  ∀ (s : State) (r : SvcReq) (rest : List SvcReq), s.pwr.mainRst = false → s.eng.svcQ = r :: rest → r.ctx < 64 →
    let plain := fun (i : Instr) (u : State) => ∃ v, Machine.exec i s = .next (answered { u with freeCtr := s.freeCtr + 1 } r 1 v)
    let gives := fun (i : Instr) (v : Word) => Machine.exec i s = .next (answered s r 1 v)
    let refuses := fun (i : Instr) => Machine.exec i s = .next (answered s r 3 0)
    let u := getBits r.a 0 8
    let q := getBits r.a 8 8
    let val := getBits r.b 0 16
    let writes := fun (cap : Tbl Nat) (ws : List DeckleWr) =>
      { s with eng := { s.eng with cap := cap, deckleWr := s.eng.deckleWr ++ ws } }
    (r.svc = 0 → gives .version Config.keeperVersion) ∧
    (r.svc = 1 →
      (u < s.part.lanes → q < 8 → gives .deckleGet (BitVec.ofNat 32 (s.f (F.FLD_DECK_value u q)))) ∧
      (s.part.lanes ≤ u ∨ 8 ≤ q → refuses .deckleGet)) ∧
    (r.svc = 2 →
      (u < s.part.lanes → q < 8 → signed 16 val ≤ s.fi (F.FLD_DECK_value u q) →
        plain .deckleNarrow (writes s.eng.cap [⟨u, q, val, true⟩])) ∧
      (s.part.lanes ≤ u ∨ 8 ≤ q ∨ s.fi (F.FLD_DECK_value u q) < signed 16 val → refuses .deckleNarrow)) ∧
    (r.svc = 3 →
      (u < s.part.lanes →
        let free := writes (tblDelRange s.eng.cap (8 * u) (8 * u + 8)) []
        plain .deckleRestore (writes free.eng.cap ((List.range 8).map fun k => ⟨u, k, free.restored u k, false⟩))) ∧
      (s.part.lanes ≤ u → refuses .deckleRestore)) ∧
    (r.svc = 4 → plain .safetySend { s with eng := { s.eng with toSafety := s.eng.toSafety ++ [r.a] } }) ∧
    (r.svc = 5 →
      (∀ w ws, s.eng.fromSafety = w :: ws →
        Machine.exec .safetyRead s = .next (answered { s with eng := { s.eng with fromSafety := ws } } r 1 w)) ∧
      (s.eng.fromSafety = [] → refuses .safetyRead)) ∧
    (r.svc = 6 →
      (r.a.toNat ≤ 3071 → gives .tileQuery (if s.quarantined r.a.toNat then 1 else 0)) ∧
      (3071 < r.a.toNat → refuses .tileQuery)) ∧
    (r.svc = 7 → plain .haltSelf (s.setCtx r.ctx { s.ctx r.ctx with haltNext := true })) ∧
    (7 < r.svc → Machine.exec .unknownService s = .next (answered s r 2 0))

/-- R53, R54, R56: at the couch a closed group reaches its target through COUCH itself. Context `c` alone runs, no lane is still
busy, no unit is enabled, and one entry is felt for the target (kind, instance, field): the field holds the bits in the next state,
or its shadow does where it acts at a reload; an unclosed or a discarded group leaves it as it was. -/
def couchCommits : Prop :=
  ∀ (s : State) (c kind i f : Nat) (w : Word), s.pwr.mainRst = false → s.running = true → s.tm.phase = 2 → s.halted = false →
    1 ≤ c → c < 64 → s.f (F.CTX_STS_state c) = 1 → (∀ j < 64, j ≠ c → s.f (F.CTX_STS_state j) ≠ 1) →
    (∀ n < 8, (s.core n).busy = false ∧ s.f (F.FLD_STS_state n) = 0) → s.held = [] → i < 256 → f < 65536 →
    (s.ctx c).felt = [(BitVec.ofNat 32 (0x1000000 * kind + 0x10000 * i + f), w)] →
    let lo := w.toNat % 0x10000
    let closed := (s.ctx c).group = .committed
    let put := fun (t : State) (x : Fld) => t.f x = if closed then lo else s.f x
    let shadows := fun (t : State) (a : Nat) => t.shd a = if closed then w else s.shd a
    Does .couch s fun t => t.tm.phase = 3 ∧
      (closed → t.f (F.CTX_STS_streak c) = 0) ∧
      (kind = 1 → i < 8 → f < 3 → s.refIgnored i (R.MOD_DUTY i f) = false → shadows t (R.MOD_DUTY i f)) ∧
      (kind = 1 → i < 8 → 4 ≤ f → f < 10 → s.refIgnored i (R.MOD_CMP i (f - 4)) = false → shadows t (R.MOD_CMP i (f - 4))) ∧
      (kind = 2 → i < 12 → put t (F.ARM_REF_level i)) ∧
      (kind = 3 → i < 8 → f < 5 → put t (F.FLD_REF_value i f)) ∧
      (kind = 4 → i < 8 → f < 8 → put t (F.FLD_LIM_value i f)) ∧
      (kind = 5 → i < 8 → f < 8 → t.reg (R.MOT_TGT0 i + 4 * f) = if closed then w else s.reg (R.MOT_TGT0 i + 4 * f)) ∧
      (kind = 6 → i < 18 → closed → f = 0 → (t.shd (R.GATE_CMD i)).getLsbD 0 = w.getLsbD 0) ∧
      (kind = 7 → i < 8 → f < 8 → t.word (shareAt i f) = if closed then w else s.word (shareAt i f))

/-- R53, R54, R56, R63, R64: a context at the couch, what its group reaches there, and its restart. -/
def Obligations.GroupsHaltsRestarts : Prop :=
  groupsAndHalts ∧ couchCommits ∧ contextRestart
/-! ## Measurement -/

/-- The target that channel `n` holds while it is enabled, with the drive or arm in force (R110); `none` for GENERAL. -/
def channelTarget (s : State) (n : Nat) : Option (Nat × Nat) :=
  if s.bit (F.SNS_SD_CFG_en n) then
    match s.fe (F.SNS_SD_MAP_role n) with
    | 0 => none
    | 4 => some (4, s.fe (F.SNS_SD_MAP_arm n))
    | r => some (r, s.fe (F.SNS_SD_MAP_drive n))
  else none

/-- R102, R107, R110: the enables of the sigma-delta clocks, channels and fast paths: what refuses them, and what they
leave. -/
def sdEnables : Prop :=
  ∀ s : State, s.pwr.mainRst = false →
    (∀ m : Fin 4, s.bit (F.SNS_SDC_CLK_en m) = false →
      let d := s.f (F.SNS_SDC_CLK_div m)
      (10 ≤ d ∧ d ≤ 50 → Does (.sdcEnable m) s fun t =>
        t.bit (F.SNS_SDC_CLK_en m) = true ∧ t.fe (F.SNS_SDC_CLK_div m) = d ∧
        tblGet 0 t.sns.sdcAt m = s.now / 4 * 4 + 4 ∧ Keeps s t [6] ∧ t.tm = s.tm) ∧
      (d < 10 ∨ 50 < d → Machine.exec (.sdcEnable m) s = .next (s.setF (F.SNS_SDC_CLK_error m) 1))) ∧
    (∀ n : Fin 40, s.bit (F.SNS_SD_CFG_en n) = false →
      let role := s.f (F.SNS_SD_MAP_role n)
      let arm := s.f (F.SNS_SD_MAP_arm n)
      let drive := s.f (F.SNS_SD_MAP_drive n)
      let legal := 15 ≤ s.f (F.SNS_SD_CFG_osr_m1 n) ∧ role < 5 ∧ (role = 4 → arm ≤ 11) ∧
        (role ≠ 0 → ∀ k < 40, channelTarget s k ≠ some (role, if role = 4 then arm else drive))
      (legal → Does (.sdEnable n) s fun t =>
        t.bit (F.SNS_SD_CFG_en n) = true ∧ t.bit (F.SNS_SD_STS_settling n) = true ∧
        t.bit (F.SNS_SD_STS_valid n) = false ∧ (t.sd n).count = 0 ∧ (t.sd n).enAt = s.now ∧
        t.fe (F.SNS_SD_CFG_osr_m1 n) = s.f (F.SNS_SD_CFG_osr_m1 n) ∧ t.fe (F.SNS_SD_MAP_role n) = role ∧
        Keeps s t [6] ∧ t.tm = s.tm) ∧
      (¬ legal → Machine.exec (.sdEnable n) s = .next (s.setF (F.SNS_SD_STS_cfg_error n) 1))) ∧
    (∀ n : Fin 40, s.bit (F.SNS_SD_FAST_fast_en n) = false →
      let nf := s.f (F.SNS_SD_FAST_fosr_m1 n) + 1
      let lat := nf * (4 * s.sdcDiv (s.sdClk n)) + 24
      (8 ≤ nf → lat ≤ 1000 → Does (.fastEnable n) s fun t =>
        t.bit (F.SNS_SD_FAST_fast_en n) = true ∧ t.f (F.SNS_SD_STS_fast_lat n) = (lat + 15) / 16 ∧
        t.fe (F.SNS_SD_FAST_fosr_m1 n) + 1 = nf ∧ Keeps s t [6] ∧ t.tm = s.tm) ∧
      (nf < 8 ∨ 1000 < lat → Machine.exec (.fastEnable n) s = .next (s.setF (F.SNS_SD_STS_fast_refused n) 1)))

/-- The ones among the `3 (n − 1) + 1` newest bits, each counted as often as three nested sums over `n` bits count it. -/
def tripleSum (bits : BitVec 768) (n : Nat) : Nat :=
  ((List.range n).map fun i => ((List.range n).map fun j => ((List.range n).map fun k =>
    if bits.getLsbD (i + j + k) then 1 else 0).sum).sum).sum

/-- As `tripleSum`, with two nested sums over the `2 (n − 1) + 1` newest bits. -/
def doubleSum (bits : BitVec 768) (n : Nat) : Nat :=
  ((List.range n).map fun i => ((List.range n).map fun j =>
    if bits.getLsbD (i + j) then 1 else 0).sum).sum

/-- R104, R107, R108: the filters are sinc3 and sinc2 filters: three, or two, cascaded sums over N bits, normalised so that all
ones give +1.0 and all zeros −1.0, rounded to Q1.15 and saturated. A value between two Q1.15 codes goes to the nearest, ties to
even: the model's choice (log entry 128). -/
def Obligations.SincFilters : Prop :=
  ∀ bits : BitVec 768,
    (∀ n, 16 ≤ n → n ≤ 256 → sinc3 bits n = filterOut (tripleSum bits n) (n * n * n)) ∧
    (∀ n, 8 ≤ n → n ≤ 32 → sinc2 bits n = filterOut (doubleSum bits n) (n * n)) ∧
    (∀ n, 16 ≤ n → n ≤ 256 → sinc3 (BitVec.allOnes 768) n = 32767 ∧ sinc3 0 n = -32768) ∧
    (∀ n, 8 ≤ n → n ≤ 32 → sinc2 (BitVec.allOnes 768) n = 32767 ∧ sinc2 0 n = -32768)

/-- R103, R105–R108, R114: a latched bit enters the channel's history and, on the fast path, its comparators; a control
output while the tick is stopped. -/
def sdOutputs : Prop :=
  ∀ (s : State) (n : Fin 40), s.pwr.mainRst = false → s.bit (F.SNS_SD_CFG_en n) = true →
    let x := s.sd n
    let len := s.fe (F.SNS_SD_CFG_osr_m1 n) + 1
    let nf := s.fe (F.SNS_SD_FAST_fosr_m1 n) + 1
    let clocked := s.sdcOn (s.fe (F.SNS_SD_CFG_clk_sel n))
    (clocked = false → ∀ b, Machine.exec (.sdLatchingEdge n b) s = .next s) ∧
    (clocked = true → ∀ b, Does (.sdLatchingEdge n b) s fun t =>
      let bits := (x.bits <<< 1) ||| (if b then 1 else 0)
      let count := min 768 (x.count + 1)
      (t.sd n).bits = bits ∧ (t.sd n).count = count ∧ s.now ≤ t.now ∧ Keeps s t [6] ∧
      t.bit (F.SNS_SD_STS_settling n) = decide (count < 3 * len) ∧
      (s.bit (F.SNS_SD_FAST_fast_en n) = false → t.bit (F.SNS_SD_STS_fast_act n) = s.bit (F.SNS_SD_STS_fast_act n)) ∧
      (s.bit (F.SNS_SD_FAST_fast_en n) = true → 2 * nf - 1 ≤ count →
        t.bit (F.SNS_SD_STS_fast_act n) =
          decide (s.fi (F.SNS_SD_THR_hi n) < sinc2 bits nf ∨ sinc2 bits nf < s.fi (F.SNS_SD_THR_lo n)) ∧
        t.bit (F.SNS_SD_STS_fast_hi n) =
          (s.bit (F.SNS_SD_STS_fast_hi n) || decide (s.fi (F.SNS_SD_THR_hi n) < sinc2 bits nf)) ∧
        t.bit (F.SNS_SD_STS_fast_lo n) =
          (s.bit (F.SNS_SD_STS_fast_lo n) || decide (sinc2 bits nf < s.fi (F.SNS_SD_THR_lo n))))) ∧
    (s.running = true → Machine.exec (.sdIdleOutput n) s = .next s) ∧
    (s.running = false → 3 * len ≤ x.count → Does (.sdIdleOutput n) s fun t =>
      let raw := sinc3 x.bits len
      let stuck := 64 ≤ x.count ∧ (x.bits.extractLsb' 0 64 = 0 ∨ x.bits.extractLsb' 0 64 = BitVec.allOnes 64)
      t.fi (F.SNS_SD_STS_raw n) = raw ∧ t.bit (F.SNS_SD_STS_settling n) = false ∧
      t.bit (F.SNS_SD_STS_valid n) = decide (clocked = true ∧ ¬ stuck ∧ raw.natAbs ≤ 0x7800) ∧
      t.bit (F.SNS_SD_STS_stuck n) = (s.bit (F.SNS_SD_STS_stuck n) || decide stuck) ∧
      t.bit (F.SNS_SD_STS_range n) = (s.bit (F.SNS_SD_STS_range n) || decide (0x7800 < raw.natAbs)) ∧
      (s.tm.holdLag = none → (t.now : Int) % 10000 = (t.sd n).enAt % 10000 ∧ max s.now x.outNext ≤ t.now ∧
        (x.enAt < max s.now x.outNext → t.now < max s.now x.outNext + 10000) ∧ (t.sd n).outNext = t.now + 1) ∧
      Keeps s t [6] ∧ t.sns.ainNow = s.sns.ainNow ∧ t.held = s.held)

/-- R113–R116: the checks of the SAR sequence in their order, and what the conversions of a slot leave. A refused enable leaves
en at 0 (log entry 22), SAR_IDLE_SEQUENCE without its condition changes nothing (log entry 13), and a code of 0x0000 or 0xFFFF
clears valid and no more (log entry 128): the model's choices. -/
def Obligations.SarSequence : Prop :=
  ∀ s : State, s.pwr.mainRst = false →
    (s.bit F.SNS_SAR_CTL_en = false →
      let slots := List.range (s.f F.SNS_SAR_CTL_len_m1 + 1)
      let inputs := slots.flatMap fun k => (s.sarEntry 0 k).toList ++ (s.sarEntry 1 k).toList
      let role := fun i => s.f (F.SNS_AIN_CFG_role i)
      let dup := ¬ inputs.Nodup
      let badRole := (∃ i ∈ inputs, 6 ≤ role i) ∨
        ∃ i ∈ inputs, ∃ j ∈ inputs, i ≠ j ∧ 1 ≤ role i ∧ role i ≤ 4 ∧ role i = role j ∧
          s.f (F.SNS_AIN_CFG_drive i) = s.f (F.SNS_AIN_CFG_drive j)
      let badPair := ∃ p < 8, s.bit (F.FBK_CTL_en p) = true ∧ s.fe (F.FBK_CFG_mode p) = 2 ∧
        ∀ k ∈ slots, ¬ (s.sarEntry 0 k = some (2 * p) ∧ s.sarEntry 1 k = some (2 * p + 1))
      let refused := fun code => Machine.exec .sarEnable s = .next (s.setF F.SNS_SAR_STS_error code)
      (dup → refused 1) ∧ (¬ dup → badRole → refused 2) ∧ (¬ dup → ¬ badRole → badPair → refused 3) ∧
      (¬ dup → ¬ badRole → ¬ badPair → Does .sarEnable s fun t =>
        t.bit F.SNS_SAR_CTL_en = true ∧ t.bit F.SNS_SAR_STS_running = true ∧ t.f F.SNS_SAR_STS_error = 0 ∧
        t.sarNamed = inputs ∧ Keeps s t [6] ∧ t.tm = s.tm)) ∧
    (∀ (k : Fin 16) (c0 c1 : BitVec 16), s.running = true → s.sarSlot k = true → s.slotPort k = none →
      Does (.sarSlotDone k c0 c1) s fun t =>
        (∀ i, s.sarEntryE 1 k = some i →
          t.f (F.SNS_AIN_RES_code i) = c1.toNat ∧ t.f (F.SNS_AIN_RES_slot i) = k ∧ t.f (F.SNS_AIN_RES_conv i) = 1 ∧
          t.bit (F.SNS_AIN_RES_valid i) = (c1 != 0 && c1 != 0xFFFF)) ∧
        (∀ i, s.sarEntryE 0 k = some i → s.sarEntryE 1 k ≠ some i →
          t.f (F.SNS_AIN_RES_code i) = c0.toNat ∧ t.f (F.SNS_AIN_RES_slot i) = k ∧ t.f (F.SNS_AIN_RES_conv i) = 0 ∧
          t.bit (F.SNS_AIN_RES_valid i) = (c0 != 0 && c0 != 0xFFFF) ∧
          tblFind (if k.val < 2 then t.sns.ainNow else t.sns.ainBg) i = some c0.toNat) ∧
        Keeps s t [6] ∧ s.now ≤ t.now) ∧
    (∀ codes : BitVec 512, s.running = true ∨ s.bit F.SNS_SAR_CTL_en = false →
      Machine.exec (.sarIdleSequence codes) s = .next s) ∧
    (∀ codes : BitVec 512, s.running = false → s.bit F.SNS_SAR_CTL_en = true → (∀ k < 16, s.slotPort k = none) →
      s.sarNamed.Nodup → Does (.sarIdleSequence codes) s fun t =>
        (∀ k < 16, s.sarSlot k = true → ∀ i, s.sarEntryE 0 k = some i →
          t.f (F.SNS_AIN_RES_code i) = (codes.extractLsb' (32 * k) 16).toNat ∧ t.f (F.SNS_AIN_RES_slot i) = k) ∧
        t.sns.ainNow = s.sns.ainNow ∧ t.sns.ainBg = s.sns.ainBg ∧ Keeps s t [6] ∧ s.now ≤ t.now)

/-- R102–R108, R110, R114: the enables, the bits and the outputs of the sigma-delta channels. The model's choices: a refused
enable leaves en at 0 (log entry 22), a bit on a stopped clock and an idle output in a run change nothing (log entry 13), a
channel counts as stuck from 64 latched bits on (log entry 78); the outputs before a window is full are free values (log entry
76). -/
def Obligations.SigmaDeltaChannels : Prop :=
  sdEnables ∧ sdOutputs
/-! ## Field control -/

/-- The failing conditions of the checks of R125 on unit `u`, in their order. -/
def fldFails (s : State) (u : Nat) : List Prop :=
  let conv := s.f (F.FLD_BIND_conv u)
  let md := s.f (F.FLD_BIND_md u)
  let fp := fun (x : Fld) => (BitVec.ofNat 32 (s.f x) : F32)
  let pos := fun (x : Fld) => fLt fZero (fp x) = true
  let mode := s.f (F.FLD_CTL_ref_mode u)
  let im := s.bit (F.FLD_CTL_machine u) = true
  let fu := s.f (F.FLD_CTL_cc_src u) = 0
  let curve := s.bit (F.FLD_CTL_curve_en u) = true
  let period := s.f F.TIME_TICK_PERIOD_period_m1 + 1
  let wa := s.f (F.FLD_ALIGN_CFG_width u)
  let wc := s.f (F.FLD_CATCH_CFG_width u)
  let np := s.f (F.FLD_CATCH_CFG_pulses_m1 u)
  [conv = 3 ∨ (conv = 2 ∧ s.part.mmc = false),
   ∃ v < 8, v ≠ u ∧ s.f (F.FLD_STS_state v) ≠ 0 ∧
     if conv = 2 then s.fe (F.FLD_BIND_conv v) = 2 ∧ s.fe (F.FLD_BIND_cv v) = s.f (F.FLD_BIND_cv u)
     else s.fe (F.FLD_BIND_conv v) ≠ 2 ∧ (s.fe (F.FLD_BIND_md v) = md ∨
       ∃ b, s.bridge md = some b ∧ s.bridge (s.fe (F.FLD_BIND_md v)) = some b),
   fu ∧ (conv = 2 ∨ s.ownerOf 1 md ≠ none),
   mode = 3 ∨ s.f (F.FLD_CC_CFG_svm u) = 3 ∨ s.f (F.FLD_ANGLE_src u) = 3 ∨ 8 < s.f (F.FLD_OBS_CFG_bw u) ∨
     (im ∧ (s.f (F.FLD_IM_CFG_i_search u) = 0 ∨ s.f (F.FLD_IM_CFG_sweep u) = 0 ∨ s.f (F.FLD_IM_CFG_mag u) = 0)) ∨
     (curve ∧ (mode ≠ 2 ∨ s.fi (F.FLD_CRV_FWD_on u) ≤ s.fi (F.FLD_CRV_FWD_off u) ∨
       s.fi (F.FLD_CRV_AST_on u) ≤ s.fi (F.FLD_CRV_AST_off u))),
   ¬ (pos (F.FLD_BASE_I_value u) ∧ pos (F.FLD_BASE_V_value u) ∧ pos (F.FLD_BASE_N_value u) ∧
     pos (F.FLD_BASE_T_value u) ∧ s.f (F.FLD_ANGLE_pole_pairs u) ≠ 0 ∧ pos (F.FLD_MACH_LD_value u) ∧
     pos (F.FLD_MACH_LQ_value u) ∧ pos (F.FLD_MACH_KT_value u) ∧ fLe fZero (fp (F.FLD_MACH_RS_value u)) = true ∧
     (¬ im → pos (F.FLD_MACH_PSI_value u)) ∧ (im → pos (F.FLD_MACH_LM_value u) ∧ pos (F.FLD_MACH_TR_value u))),
   (s.usesFw u = true ∧ s.tableBad (s.f (F.FLD_TBL_FW_tile u)) (s.f (F.FLD_TBL_FW_word u)) 64 = true) ∨
     (curve ∧ s.tableBad (s.f (F.FLD_TBL_CRV_tile u)) (s.f (F.FLD_TBL_CRV_word u)) 33 = true),
   wa < 500 ∨ 5000 < wa ∨ wc < 500 ∨ 5000 < wc ∨ np < 2 ∨ 7 < np ∨
     (s.f (F.FLD_ALIGN_CFG_spacing_m1 u) + 1) * period < 2 * wa ∨
     (s.f (F.FLD_CATCH_CFG_spacing_m1 u) + 1) * period < 2 * wc]

/-- R125, R126, R150: writes of 1 and of 0 to FLD_CTL.en. The first check that fails refuses the enable with its code. The model's
choices: a refused enable leaves en at 0 (log entry 22), a write of 1 while the unit is enabled changes nothing (log entry 12), and
which settings make a unit use its field-weakening table, `usesFw` (log entry 25). -/
def Obligations.FieldUnitEnable : Prop :=
  ∀ (s : State) (u : Fin 8), s.pwr.mainRst = false → u.val < s.part.lanes →
    let st := s.f (F.FLD_STS_state u)
    let fails := fldFails s u
    (st = 0 → ∀ k < 7, (∀ j < k, ¬ fails.getD j False) → fails.getD k False →
      Machine.exec (.fldEnable u) s = .next (s.setF (F.FLD_STS_cfg_error u) (k + 1))) ∧
    (st = 0 → (∀ k < 7, ¬ fails.getD k False) → Does (.fldEnable u) s fun t =>
      t.bit (F.FLD_CTL_en u) = true ∧ t.f (F.FLD_STS_state u) = 1 ∧ t.f (F.FLD_STS_cfg_error u) = 0 ∧
      t.f (F.FLD_STS_aligned u) = s.f (F.FLD_ANGLE_abs u) ∧ t.f (F.FLD_STS_safe_state u) = 0 ∧
      t.fe (F.FLD_BIND_conv u) = s.f (F.FLD_BIND_conv u) ∧ t.fe (F.FLD_CTL_cc_src u) = s.f (F.FLD_CTL_cc_src u) ∧
      (∀ a, a / 0x10000 ∉ [7, 9, 0xC] → t.reg a = s.reg a) ∧ t.tm = s.tm ∧ t.pending = s.pending) ∧
    (st ≠ 0 → Machine.exec (.fldEnable u) s = .next s) ∧
    (st = 1 ∨ st = 6 → Does (.fldDisable u) s fun t =>
      t.bit (F.FLD_CTL_en u) = false ∧ t.f (F.FLD_STS_state u) = 0 ∧ t.bit (F.FLD_STS_obs_valid u) = false ∧
      Keeps s t [7, 9, 0xC] ∧ t.tm = s.tm) ∧
    (st ≠ 0 → st ≠ 1 → st ≠ 6 → Machine.exec (.fldDisable u) s = .next (s.setF (flagBit u 0) 1))

/-- R128–R130: the transitions at a couch that depend on run_req and on the safe state of the converter alone. -/
def fieldCouch : Prop :=
  ∀ (s : State) (u : Nat), u < 8 →
    let st := s.f (F.FLD_STS_state u)
    let conv := match s.unitConv u with | some k => s.f (F.PROT_CV_STS_state k) | none => 0
    let next := (s.unitTransition u).f (F.FLD_STS_state u)
    let safe := s.f (F.FLD_STS_safe_state u)
    let r := s.runReq u
    (st = 0 → s.unitTransition u = s) ∧
    (st = 5 → safe = 4 → conv = 0 → next = 1) ∧
    (st = 5 → safe = 4 → conv = 4 → s.unitTransition u = s) ∧
    (1 ≤ st → 1 ≤ conv → conv ≤ 3 → next = 6 ∧
      (st ≠ 6 → (s.unitTransition u).f (F.FLD_STS_safe_state u) = conv)) ∧
    (conv = 0 →
      (st = 1 → (s.unit u).runPrev ≠ 0 ∨ r = 0 → s.unitTransition u = s) ∧
      (st = 1 → (s.unit u).runPrev = 0 → r ≠ 0 → next = 3 ∨ next = 1 ∧
        (s.unitTransition u).f (F.FLD_CATCH_STS_outcome u) = 4) ∧
      (st = 4 → r = 0 → next = 5) ∧
      (st = 4 → r = 1 ∨ r = 2 → s.unitTransition u = s) ∧
      (st = 4 → r = 3 → next = if s.ascPermitted u then 7 else 1) ∧
      (st = 5 → safe ≠ 4 → r = 1 → next = 4) ∧
      (st = 5 → safe ≠ 4 → r ≠ 1 → next = if s.still u && fEq (s.unit u).ramp fZero then 1 else 5) ∧
      (st = 6 → next = 1))

/-- R156, R157: one step of the speed-command curve. -/
def speedCurve : Prop :=
  ∀ (s : State) (u : Nat), u < 8 →
    let raw := if s.bitE (F.FLD_CTL_crv_src u) then s.hbWord (0x500 + 4 * s.fe (F.FLD_CTL_crv_ain u))
      else tblGet (s.q15 (F.FLD_REF_value u 4)) (s.unit u).ovr 4
    let x := fCut 0xBF800000 fOne raw
    let q := fun (f : Fld) => fOfQ 16 15 (s.fe f)
    let y := s.lutAt (crvCopy u) x
    let dir := s.f (F.FLD_STS_dir u)
    let step := fun (ref : F32) (d : Nat) => (s.curve u).1 = ref ∧ (s.curve u).2.f (F.FLD_STS_dir u) = d
    (fIsNan raw = true → step fZero 0 ∧ (s.curve u).2.bit (flagBit u 8) = true) ∧
    (fIsNan raw = false →
    (dir = 0 → fLe (q (F.FLD_CRV_FWD_on u)) x = true → step (fMax fZero y) 1) ∧
    (dir = 0 → fLe (q (F.FLD_CRV_FWD_on u)) x = false → fLe x (fNeg (q (F.FLD_CRV_AST_on u))) = true →
      step (fMin fZero y) 2) ∧
    (dir = 0 → fLe (q (F.FLD_CRV_FWD_on u)) x = false → fLe x (fNeg (q (F.FLD_CRV_AST_on u))) = false → step fZero 0) ∧
    (dir = 1 → step (if fLt x (q (F.FLD_CRV_FWD_off u)) then fZero else fMax fZero y)
      (if fLt x (q (F.FLD_CRV_FWD_off u)) then 0 else 1)) ∧
    (dir = 2 → step (if fGt x (fNeg (q (F.FLD_CRV_AST_off u))) then fZero else fMin fZero y)
      (if fGt x (fNeg (q (F.FLD_CRV_AST_off u))) then 0 else 2)))

/-- R144, R145, R147, R150, R152, R153, R159, R160, R165, R166, R168: what the events of a unit do. LOCKED_ROTOR and OVERSPEED come at
the instant of the coming couch, ahead of COUCH (the model's choice, log entry 126), and change nothing where that couch does not come
to the fault; the same holds of every event here whose condition does not hold (log entry 13). A test pulse that the newest one has
shown to be too large does not begin. -/
def Obligations.FieldUnitEvents : Prop :=
  ∀ (s : State) (u : Fin 8), s.pwr.mainRst = false →
    let x := s.unit u
    let on := s.f (F.FLD_STS_state u) ≠ 0
    (on → s.running = true → Does (.observerUpdate u) s fun t =>
      s.now ≤ t.now ∧ Keeps s t [7] ∧
      (fLt (fAbs (t.unit u).obsSpd) (fmul 0x3F4CCCCD (s.q15 (F.FLD_OBS_CFG_valid_min u))) = true →
        t.bit (F.FLD_STS_obs_valid u) = false) ∧
      t.f (F.FLD_OBS_STS_speed u) = (fToQ 16 14 (t.unit u).obsSpd).1) ∧
    (on → 64 ≤ x.obsGood → Does (.observerValid u) s fun t =>
      t.bit (F.FLD_STS_obs_valid u) = true ∧ t.bit (F.FLD_OBS_STS_valid u) = true ∧ Keeps s t [7] ∧ t.tm = s.tm) ∧
    (on → x.obsLost = false → 2 ^ s.f (F.FLD_OBS_CFG_loss_k u) ≤ x.obsBad → Does (.observerLoss u) s fun t =>
      t.bit (F.FLD_STS_obs_valid u) = false ∧ t.bit (flagBit u 2) = true ∧ t.bit (pendFld 23) = true ∧
      (t.unit u).obsLost = true ∧ Keeps s t [7, 0x12] ∧
      t.prot.waiting = s.prot.waiting ++ match s.actionState u (s.f (F.FLD_OBS_CFG_loss_action u)), s.unitConv u with
        | some st, some k => [⟨k, 8, st, 23, s.now, scopeDrive u⟩]
        | _, _ => []) ∧
    (let comes := s.running = true ∧ s.tm.phase = 2 ∧ s.halted = false
     let held := fun (t : State) (flag src act : Nat) => t.bit (flagBit u flag) = true ∧ t.bit (pendFld src) = true ∧
       t.mem = s.mem ∧ (s.tm.holdLag = none → t.now = max s.now s.couchAt) ∧ t.tm.phase = 2 ∧
       t.prot.waiting = s.prot.waiting ++ match s.actionState u act, s.unitConv u with
         | some st, some k => [⟨k, 8, st, src, t.now, scopeDrive u⟩]
         | _, _ => []
     let w := (s.atCouch.unitWatch u).unit u
     let rotor := on ∧ s.atCouch.f (F.FLD_LR_CFG_window u) ≠ 0 ∧ w.lrHeld = false ∧
       s.atCouch.f (F.FLD_LR_CFG_window u) * 10000000 ≤ w.lrTime
     let fast := on ∧ ((s.unitWatch u).unit u).ovs = 2
     (¬ comes ∨ (2, u.val) ∈ s.prot.taken ∨ ¬ rotor → Machine.exec (.lockedRotor u) s = .next s) ∧
     (comes → (2, u.val) ∉ s.prot.taken → rotor → Does (.lockedRotor u) s fun t =>
       held t 1 21 (s.f (F.FLD_LR_CFG_action u)) ∧ (2, u.val) ∈ t.prot.taken) ∧
     (¬ comes ∨ (3, u.val) ∈ s.prot.taken ∨ ¬ fast → Machine.exec (.overspeed u) s = .next s) ∧
     (comes → (3, u.val) ∉ s.prot.taken → fast → Does (.overspeed u) s fun t =>
       held t 3 22 (s.f (F.FLD_OVS_CFG_action u)) ∧ (3, u.val) ∈ t.prot.taken)) ∧
    (s.f (F.FLD_STS_state u) = 4 → s.bit (F.FLD_STS_rt u) = false → 2 ≤ x.rtLow → Does (.rideThroughEnter u) s fun t =>
      t.bit (F.FLD_STS_rt u) = true ∧ Keeps s t [7] ∧ t.tm = s.tm) ∧
    (s.bit (F.FLD_STS_rt u) = true → 16 ≤ x.rtZero →
      ¬ (x.measOk = true ∧ fLt (fAbs x.meas) (s.q15 (F.FLD_RT_CFG_floor u)) = true) → Does (.rideThroughEnd u) s fun t =>
      t.bit (F.FLD_STS_rt u) = false ∧ (t.unit u).xs = x.torque ∧ (t.unit u).ramp = x.meas ∧ Keeps s t [7] ∧
      t.tm = s.tm) ∧
    (s.bit (F.FLD_STS_rt u) = true → x.measOk = true → fLt (fAbs x.meas) (s.q15 (F.FLD_RT_CFG_floor u)) = true →
      Does (.rideThroughEnd u) s fun t => t.f (F.FLD_STS_state u) = 1 ∧ t.bit (flagBit u 7) = true ∧
        t.bit (F.FLD_STS_rt u) = false ∧ (t.unit u).pat = .block) ∧
    (s.limpPersists u = true → Machine.exec (.limpClear u) s = .next (s.setF (flagBit u 5) 1)) ∧
    (s.limpPersists u = false → Does (.limpClear u) s fun t =>
      t.bit (F.FLD_STS_limp u) = false ∧ (t.unit u).limp = 0 ∧ Keeps s t [7] ∧ t.tm = s.tm) ∧
    (x.seq = .magnetise → x.magAt + s.fe (F.FLD_IM_CFG_mag u) * 10000000 ≤ s.now →
      Machine.exec (.magnetiseDone u) s = .next (s.setUnit u { x with magDone := true })) ∧
    (x.seq = .magnetise → s.now < x.magAt + s.fe (F.FLD_IM_CFG_mag u) * 10000000 →
      Machine.exec (.magnetiseDone u) s = .next s) ∧
    (let stop := s.tm.start + (x.d0 + x.pulse * s.spacing u - x.ticks) * s.periodNs
     let iMax := if x.seq = .align then s.q15 (F.FLD_ALIGN_CFG_i_max u) else s.q15 (F.FLD_CATCH_LIM_i_max u)
     let ends := (match x.caps.getLast? with
       | some e => fGt (fMag e.1 e.2.1) iMax && (x.seq == .align || decide (e.2.2 ≤ 500))
       | none => false) = true
     (x.seq = .align ∨ x.seq = .pulses → x.pulseOn = false → ends → Machine.exec (.testPulse u) s = .next s) ∧
     (x.seq = .pulses → x.pulseOn = false → ¬ ends → stop - 4 * x.width < s.tm.start + s.periodNs → Does (.testPulse u) s fun t =>
      (t.unit u).pulseOn = true ∧ (t.unit u).pat = .low ∧ (s.tm.holdLag = none → stop - 4 * x.width ≤ t.now)) ∧
     (x.seq = .align → x.pulseOn = false → ¬ ends → stop - 4 * x.width < s.tm.start + s.periodNs → Does (.testPulse u) s fun t =>
      (t.unit u).pulseOn = true ∧ (t.unit u).half = false ∧ (s.tm.holdLag = none → stop - 4 * x.width ≤ t.now) ∧
      (x.pulse < 12 → (t.unit u).pat = activeVec (x.pulse / 2))) ∧
     (x.seq = .align ∨ x.seq = .pulses → x.pulseOn = false → s.tm.start + s.periodNs ≤ stop - 4 * x.width →
      Machine.exec (.testPulse u) s = .next s))

/-- R128–R130, R156, R157: the transitions of a field unit at a couch, and its speed-command curve. -/
def Obligations.FieldTransitions : Prop :=
  fieldCouch ∧ speedCurve
/-! ## Modulation -/

/-- The failing conditions of the checks of R173 on domain `d`, in their order; `period` in 4 ns counts. -/
def modFails (s : State) (d period : Nat) : List Prop :=
  let topo := s.f (F.MOD_CTL_topo d)
  let p := s.f (F.MOD_PERIOD_half d)
  let evt := s.f (F.MOD_RELOAD_evt d)
  let n := s.f (F.MOD_RELOAD_n_m1 d) + 1
  let bound := s.bit (F.MOD_CTL_bind d) = true
  let leg := fun k => k < 18 ∧ s.bit (F.GATE_CFG_assigned k) = true ∧ s.f (F.GATE_CFG_md k) = d
  let held := fun j => ∃ k, leg k ∧ s.f (F.GATE_CFG_slot k) = j
  let used := if topo = 0 then 3 else 6
  [topo = 3 ∨ 5 < s.f (F.MOD_CTL_bridge d),
   (topo = 2 ∧ ¬ ∃ k, leg k) ∨ (topo ≠ 2 ∧ ∃ j < used, ¬ held j) ∨
     (∃ k m, leg k ∧ leg m ∧ k ≠ m ∧ s.f (F.GATE_CFG_slot k) = s.f (F.GATE_CFG_slot m)) ∨
     (∃ k, leg k ∧ used ≤ s.f (F.GATE_CFG_slot k)),
   p < 1250 ∨ 250000 < p ∨ 2 * p ≤ s.f (F.MOD_PHASE_offset d) ∨ (d = 0 ∧ 2 * p ≤ s.f (F.MOD_SYNC_offset d)),
   evt = 0,
   bound ∧ period % (if evt = 3 then n * p else n * (2 * p)) ≠ 0,
   ∃ k, leg k ∧ s.bit (F.GATE_STS_enabled k) = true ∧
     4 * p < max (s.fe (F.GATE_DT_dt k)) (s.fe (F.GATE_FLOOR_floor k)) + s.fe (F.GATE_MINP_t_min k),
   d = 0 ∧ s.bit (F.MOD_SYNC_in_en d) = true ∧ bound]

/-- R173, R176: writes of 1 and of 0 to MOD_CTL.en. An unbound carrier starts in the timebase cycle after the write, to which
time has gone; a bound one waits for the tick, and with the tick running starts at its next start, unless it waited and its reload
period no longer divides the tick. The model's choices: a write of 1 to a domain that is enabled already changes nothing
(log entry 12), and a refused enable leaves en at 0 (log entry 22). -/
def Obligations.DomainEnable : Prop :=
  ∀ (s : State) (d : Fin 8), s.pwr.mainRst = false →
    let period := if s.running then s.tm.period else s.f F.TIME_TICK_PERIOD_period_m1 + 1
    let fails := modFails s d period
    (s.bit (F.MOD_CTL_en d) = true → Machine.exec (.modEnable d) s = .next s) ∧
    (s.bit (F.MOD_CTL_en d) = false →
      (∀ k < 7, (∀ j < k, ¬ fails.getD j False) → fails.getD k False →
        Machine.exec (.modEnable d) s = .next (s.setF (F.MOD_STS_error d) (k + 1))) ∧
      ((∀ k < 7, ¬ fails.getD k False) → Does (.modEnable d) s fun t =>
        t.bit (F.MOD_CTL_en d) = true ∧ t.f (F.MOD_STS_error d) = 0 ∧ t.topo d = some (s.f (F.MOD_CTL_topo d)) ∧
        t.bridge d = some (s.f (F.MOD_CTL_bridge d)) ∧ t.mdP d = s.f (F.MOD_PERIOD_half d) ∧
        (s.bit (F.MOD_CTL_bind d) = false → t.mdOn d = true ∧
          (s.f (F.MOD_PHASE_offset d) = 0 → (t.md d).up = false ∧
            (t.md d).zero + 2 * t.mdH d = ((s.now / 4 * 4 + 4 : Nat) : Int))) ∧
        (s.bit (F.MOD_CTL_bind d) = true → t.tm = s.tm ∧ t.mdOn d = s.mdOn d ∧
          (s.running = false → t.bit (F.MOD_STS_waiting d) = true) ∧
          (s.running = true → t.bit (F.MOD_STS_waiting d) = s.bit (F.MOD_STS_waiting d))) ∧
        (s.bit (F.MOD_CTL_bind d) = false → s.tm.holdLag = none → t.tm = { s.tm with now := s.now / 4 * 4 + 4 }) ∧
        Keeps s t [8, 9, 0xC])) ∧
    (s.running = true → s.tm.phase = 3 → s.tm.stopping = false → s.halted = false → s.bit (F.MOD_CTL_en d) = true →
      s.bitE (F.MOD_CTL_bind d) = true → s.mdOn d = false →
      let evt := s.fe (F.MOD_RELOAD_evt d)
      let n := s.fe (F.MOD_RELOAD_n_m1 d) + 1
      let fits := s.tm.period % (if evt = 3 then n * s.mdP d else n * (2 * s.mdP d)) = 0
      (s.bit (F.MOD_STS_waiting d) = false ∨ fits → Does .samplePoint s fun t => t.tm.start = s.tm.start + s.periodNs ∧
        t.mdOn d = true ∧ t.bit (F.MOD_STS_waiting d) = false ∧
        (s.fe (F.MOD_PHASE_offset d) = 0 → (t.md d).up = false ∧ (t.md d).zero + 2 * s.mdH d = (t.tm.start : Int))) ∧
      (s.bit (F.MOD_STS_waiting d) = true → ¬ fits → Does .samplePoint s fun t => t.mdOn d = false ∧
        t.bit (F.MOD_CTL_en d) = false ∧ t.bit (F.MOD_STS_waiting d) = false ∧ t.f (F.MOD_STS_error d) = 5)) ∧
    (Does (.modDisable d) s fun t => t.bit (F.MOD_CTL_en d) = false ∧ t.mdOn d = false ∧
      t.bit (F.MOD_STS_waiting d) = false ∧ Keeps s t [8, 9, 0xC] ∧ t.tm = s.tm)

/-- R178: the compare of a duty, and the two duties of an NPC phase. -/
def Obligations.DutyToCompare : Prop :=
  ∀ (r : BitVec 16) (p : Nat), 1250 ≤ p → p ≤ 250000 →
    let h := 4 * p
    let x := r.toInt
    (x ≤ 0 → dutyCmp x h = 0) ∧ (r = 0x7FFF → dutyCmp x h = h) ∧
    (0 < x → x ≠ 0x7FFF →
      dutyCmp x h ≤ h ∧ 2 * ((dutyCmp x h : Int) * 32768 - x * h).natAbs ≤ 32768 ∧
      (2 * ((dutyCmp x h : Int) * 32768 - x * h).natAbs = 32768 → dutyCmp x h % 2 = 0)) ∧
    npcOuter x = (if r = 0x7FFF then 0x7FFF else max 0 (2 * x - 32768)) ∧
    npcInner x = (if x ≤ 0 then 0 else min 32767 (2 * x)) ∧ 0 ≤ npcOuter x ∧ npcOuter x ≤ npcInner x ∧
    (0 < npcOuter x → npcInner x = 32767)

/-- R174, R175, R194, R195: the events of a running carrier, its reload, and an edge of PSYNCI, which acts 8 ns after it arrives:
what lies before that instant still occurs. An event that is not the next one changes nothing (the model's choice, log entry 13). -/
def carrierEvents : Prop :=
  ∀ (s : State) (d : Fin 8), s.pwr.mainRst = false → s.halted = false → s.mdOn d = true →
    let m := s.md d
    let evt := s.fe (F.MOD_RELOAD_evt d)
    let counted := fun (t : State) => (t.md d).evLeft = if m.evLeft = 0 then s.fe (F.MOD_RELOAD_n_m1 d) else m.evLeft - 1
    (m.up = false → Does (.carrierZeroEvent d) s fun t =>
      (t.md d).up = true ∧ (t.md d).zero = m.zero + 2 * s.mdH d ∧ s.now ≤ t.now ∧
      (s.tm.holdLag = none → t.now = max s.now (m.zero + 2 * s.mdH d).toNat) ∧
      (t.md d).due = (m.due || evt % 2 == 1 && m.evLeft == 0) ∧ (evt % 2 = 1 → counted t) ∧
      (d = 0 → s.bit (F.MOD_SYNC_out_en 0) = true → (t.md 0).syncUntil = (t.md 0).zero.toNat + 40) ∧ t.regs = s.regs ∧
      t.mem = s.mem) ∧
    (m.up = true → Machine.exec (.carrierZeroEvent d) s = .next s) ∧
    (m.up = true → Does (.carrierPeakEvent d) s fun t =>
      (t.md d).up = false ∧ (t.md d).zero = m.zero ∧ s.now ≤ t.now ∧
      (s.tm.holdLag = none → t.now = max s.now (m.zero + s.mdH d).toNat) ∧
      (t.md d).due = (m.due || evt / 2 % 2 == 1 && m.evLeft == 0) ∧ (evt / 2 % 2 = 1 → counted t) ∧
      t.regs = s.regs ∧ t.mem = s.mem) ∧
    (m.up = false → Machine.exec (.carrierPeakEvent d) s = .next s) ∧
    (m.due = false → Machine.exec (.reloadEvent d) s = .next s) ∧
    (m.due = true → Does (.reloadEvent d) s fun t =>
      (t.md d).due = false ∧ (t.md d).reloadAt = some s.now ∧ t.tm = s.tm ∧ Keeps s t [8, 9, 0xC] ∧
      (∀ p < 3, t.reg (R.MOD_DUTY d p) = match s.refWriter d with
        | .host => if s.bit (F.MOD_HOST_CTL_hold d) then s.reg (R.MOD_DUTY d p) else s.shd (R.MOD_DUTY d p)
        | _ => if s.now < m.notBefore then s.eligible (R.MOD_DUTY d p) else s.shd (R.MOD_DUTY d p)) ∧
      ∀ j < 6, t.reg (R.MOD_CMP d j) = match s.refWriter d with
        | .host => if s.bit (F.MOD_HOST_CTL_hold d) then s.reg (R.MOD_CMP d j) else s.shd (R.MOD_CMP d j)
        | _ => if s.now < m.notBefore then s.eligible (R.MOD_CMP d j) else s.shd (R.MOD_CMP d j)) ∧
    (d = 0 → s.bitE (F.MOD_SYNC_in_en 0) = true → s.bitE (F.MOD_CTL_bind 0) = false → Does .psynciEdge s fun t =>
      t.bit (F.MOD_SYNC_in_seen 0) = true ∧ Keeps s t [8, 9, 0xC] ∧ (s.tm.holdLag = none → t.now = s.now + 8) ∧
      let o := s.fe (F.MOD_SYNC_offset 0)
      (o = 0 → (t.md 0).up = false ∧ (t.md 0).zero = (t.now : Int) - 2 * s.mdH 0) ∧
      (0 < o → o ≤ s.mdP 0 → (t.md 0).up = true ∧ (t.md 0).zero = (t.now : Int) - 4 * o) ∧
      (s.mdP 0 < o → (t.md 0).up = false ∧ (t.md 0).zero = (t.now : Int) - 4 * o))

/-- R179–R181: host writes to the references of a domain, and the release of its hold. A write that meets a reload event in its
timebase cycle counts as late and acts after it. -/
def referenceWrites : Prop :=
  ∀ (s : State) (d : Fin 8), s.pwr.mainRst = false →
    let m := s.md d
    let meets := m.due = true ∨ m.reloadAt.any (fun r => r / 4 == s.now / 4) = true
    let lateCount := fun (t : State) => if meets then
        t.bit (F.MOD_STS_late_seen d) = true ∧ t.f (F.MOD_LATE_late d) = min 0xFFFF (s.f (F.MOD_LATE_late d) + 1)
      else t.bit (F.MOD_STS_late_seen d) = s.bit (F.MOD_STS_late_seen d) ∧ t.f (F.MOD_LATE_late d) = s.f (F.MOD_LATE_late d)
    let ref := fun (i : Fin 9) => if i.val < 3 then R.MOD_DUTY d i else R.MOD_CMP d (i - 3)
    let put := fun (i : Fin 9) (v : BitVec 20) => if i.val < 3 then ((v.setWidth 16).setWidth 32 : Word) else v.setWidth 32
    let used := fun (i : Fin 9) => s.topo d = none ∨ (i.val < 3 ↔ s.topo d ≠ some 2)
    (∀ (i : Fin 9) (v : BitVec 20), s.refWriter d = .host → used i → s.mdOn d = true →
      Does (.dutyHostWrite d i v) s fun t => t.shd (ref i) = put i v ∧ (t.md d).due = false ∧ lateCount t ∧ t.tm = s.tm ∧
        Keeps s t [8, 9, 0xC] ∧ (m.due = false → t.reg (ref i) = s.reg (ref i) ∧ t.md d = m ∧ Keeps s t [8])) ∧
    (∀ (i : Fin 9) (v : BitVec 20), s.refWriter d = .host → used i → s.mdOn d = false →
      Does (.dutyHostWrite d i v) s fun t => t.shd (ref i) = put i v ∧ t.reg (ref i) = put i v ∧ t.md d = m ∧ t.tm = s.tm ∧
        Keeps s t [8]) ∧
    (∀ (i : Fin 9) (v : BitVec 20), s.refWriter d = .unit ∨ s.refWriter d = .host ∧ ¬ used i →
      Machine.exec (.dutyHostWrite d i v) s = .next s) ∧
    (∀ (i : Fin 9) (v : BitVec 20) (c : Nat), s.refWriter d = .ctx c →
      Machine.exec (.dutyHostWrite d i v) s = .next (s.incSat (F.CTX_HOST_DROP_host_drop c))) ∧
    (s.bit (F.MOD_HOST_CTL_hold d) = false → Machine.exec (.holdRelease d) s = .next s) ∧
    (s.bit (F.MOD_HOST_CTL_hold d) = true → s.mdOn d = false →
      Machine.exec (.holdRelease d) s = .next (s.setF (F.MOD_HOST_CTL_hold d) 0)) ∧
    (s.bit (F.MOD_HOST_CTL_hold d) = true → s.mdOn d = true → Does (.holdRelease d) s fun t =>
      t.bit (F.MOD_HOST_CTL_hold d) = false ∧ lateCount t ∧ (t.md d).due = false ∧ t.tm = s.tm ∧ Keeps s t [8, 9, 0xC] ∧
      (m.due = false → Keeps s t [8]))

/-- R174, R175, R179–R181, R194, R195: carrier events, reloads and host writes of a domain. -/
def Obligations.CarrierAndReload : Prop := carrierEvents ∧ referenceWrites

/-- The failing conditions of the checks of R191 on leg `n`, in their order. -/
def legFails (s : State) (n : Nat) : List Prop :=
  let inDomain := s.bit (F.GATE_CFG_assigned n) = true
  let d := s.f (F.GATE_CFG_md n)
  let dt := s.f (F.GATE_DT_dt n)
  let tm := s.f (F.GATE_MINP_t_min n)
  let w := s.f (F.GATE_BOOT_width n)
  let half := 4 * if s.bit (F.MOD_CTL_en d) then s.fe (F.MOD_PERIOD_half d) else s.f (F.MOD_PERIOD_half d)
  [inDomain ∧ ∃ m < 18, m ≠ n ∧ s.bit (F.GATE_CFG_assigned m) = true ∧ s.f (F.GATE_CFG_md m) = d ∧
     s.bit (F.GATE_STS_enabled m) = true ∧ s.f (F.GATE_CFG_slot m) = s.f (F.GATE_CFG_slot n),
   8000 < dt, 2000 < tm,
   s.bit (F.GATE_CFG_supply n) = true ∧ (w < 100 ∨ 2000 < w ∨ w < tm),
   inDomain ∧ half < max dt (s.f (F.GATE_FLOOR_floor n)) + tm]

/-- R182, R184, R186, R189, R191, R192: the commands of a leg. The width of a refresh runs while GL is on. The model's choices: an
enable of an enabled leg changes nothing (log entry 12), a refused one leaves en at 0 (log entry 22), an event whose condition does
not hold changes nothing (log entry 13). -/
def legOrders : Prop :=
  ∀ (s : State) (n : Fin 18), s.pwr.mainRst = false →
    let x := s.leg n
    let fails := legFails s n
    let legs := fun (t : State) => Keeps s t [9, 0xC]
    (s.bit (F.GATE_CMD_en n) = true → Machine.exec (.legEnable n) s = .next s) ∧
    (s.bit (F.GATE_CMD_en n) = false →
      (∀ k < 5, (∀ j < k, ¬ fails.getD j False) → fails.getD k False → Does (.legEnable n) s fun t =>
        t.bit (F.GATE_CMD_en n) = false ∧ t.bit (F.GATE_STS_enabled n) = false ∧
        t.f (F.GATE_STS_cfg_error n) = k + 1 ∧ legs t ∧ t.tm = s.tm) ∧
      ((∀ k < 5, ¬ fails.getD k False) → Does (.legEnable n) s fun t =>
        t.bit (F.GATE_CMD_en n) = true ∧ t.bit (F.GATE_STS_enabled n) = true ∧ t.f (F.GATE_STS_cfg_error n) = 0 ∧
        t.f (F.GATE_CMD_force n) = s.f (F.GATE_CMD_force n) ∧ legs t ∧ t.tm = s.tm ∧
        t.f (F.GATE_STS_td_eff n) = max (s.f (F.GATE_DT_dt n)) (s.f (F.GATE_FLOOR_floor n)))) ∧
    (∀ w : Word,
      (s.bit (F.GATE_STS_enabled n) = true →
        Machine.exec (.gateCfgWrite n w) s = .next (s.setF (F.GATE_STS_wr_ignored n) 1)) ∧
      (s.bit (F.GATE_STS_enabled n) = false → Does (.gateCfgWrite n w) s fun t =>
        t.reg (R.GATE_CFG n) = w &&& 0x177F ∧ legs t ∧ t.tm = s.tm)) ∧
    (x.late = none → x.pend = none → Machine.exec (.deadTimeEnd n) s = .next s) ∧
    (∀ i, x.pend = some (true, i) → x.late = none → s.npcPartner n = none → s.halted = false → s.legAsk n = (true, false) →
      x.gl = false → x.gh = false → x.refUntil = none → 4 ≤ s.legRank n →
      Does (.deadTimeEnd n) s fun t =>
        (t.leg n).gh = true ∧ (t.leg n).gl = false ∧ (t.leg n).oh = true ∧ (t.leg n).ol = false ∧
        (t.leg n).pend = none ∧ s.now ≤ t.now ∧ legs t) ∧
    (x.refUntil = none ∨ x.ol = false ∨ s.halted = true → Machine.exec (.refreshEnd n) s = .next s) ∧
    (∀ t0, x.refUntil = some t0 → x.ol = true → s.halted = false → Does (.refreshEnd n) s fun t =>
      (t.leg n).refUntil = none ∧ (s.tm.holdLag = none → t.now = max s.now t0) ∧ legs t) ∧
    (s.bit (F.GATE_CFG_supply n) = true → s.fe (F.GATE_BOOT_k_m1 n) + 1 ≤ x.refCnt → x.refUntil = none →
      6 ≤ s.legRank n → x.period = some s.now → s.halted = false → Does (.bootstrapRefresh n) s fun t =>
        (t.leg n).refUntil = some (s.now + s.tdEff n + s.fe (F.GATE_BOOT_width n)) ∧ (t.leg n).refCnt = 0 ∧
        t.bit (F.GATE_STS_refresh n) = true ∧ t.f (F.GATE_CNT_refresh n) = min 0xFFFF (s.f (F.GATE_CNT_refresh n) + 1) ∧
        legs t ∧ t.tm = s.tm)

/-- R177, R183: a command edge of a leg that PWM governs, in an up half before the edge: a pulse that would end before the
dead time and the minimum width are over is dropped, every other one changes the command at t_pk − C. C is the compare that
the slot follows: MOD_ACT, or that of the unit's own duties while it searches or magnetises (log entry 107). -/
def pwmEdges : Prop :=
  ∀ (s : State) (d : Fin 8) (j : Fin 6), ∀ n, s.slotLeg d j = some n → s.pwr.mainRst = false → s.mdOn d = true →
    s.halted = false → s.tm.holdLag = none → s.legRank n = 7 →
    let h := s.mdH d
    let c := s.actCmp d j
    let x := s.leg n
    let edge := (s.md d).zero + h - c
    let u := s.at edge.toNat
    (s.md d).up = true → 0 < c → c < h → (s.now : Int) < edge → x.h = false → x.drop = none →
      (u.pulseEnd d j true - u.now < ((s.tdEff n + s.fe (F.GATE_MINP_t_min n) : Nat) : Int) →
        Does (.pwmCommandEdge d j) s fun t =>
          (t.leg n).h = false ∧ (t.leg n).drop = some false ∧ t.bit (F.GATE_STS_suppressed n) = true ∧
          t.now = edge.toNat ∧ Keeps s t [9]) ∧
      (((s.tdEff n + s.fe (F.GATE_MINP_t_min n) : Nat) : Int) ≤ u.pulseEnd d j true - u.now →
        Does (.pwmCommandEdge d j) s fun t =>
          (t.leg n).h = true ∧ (t.leg n).drop = none ∧ t.now = edge.toNat ∧ Keeps s t [9, 0xC])

/-- R177, R182–R184, R186, R189, R191, R192: the commands of a leg and its edges under PWM. -/
def Obligations.LegCommands : Prop :=
  legOrders ∧ pwmEdges
/-! ## Kynor cell link -/

/-- R212, R214, R215: the states of a lane. That a debug halt holds TRAIN, rejects IDENT and takes no lane to DOWN is the
model's reading of R461 (log entry 129). -/
def laneStates : Prop :=
  ∀ (s : State) (n : Fin 16), s.pwr.mainRst = false → n.val < s.part.kynLanes →
    let st := s.laneState n
    let c := s.f (F.KYN_LANE_CTL_chain n)
    let enters := fun (i : Instr) (st' : Nat) (P : State → Prop) => Does i s fun t =>
      t.laneState n = st' ∧ (∀ m < 16, m ≠ n.val → t.laneState m = s.laneState m) ∧ P t
    let off := fun (i : Instr) (e : Nat) => enters i 0 fun t =>
      t.bit (F.KYN_LANE_CTL_en n) = false ∧ t.f (F.KYN_LANE_STS_error n) = e ∧ Keeps s t [2, 0xA]
    (st = 0 →
      (c = 0 ∨ 24 < c → Machine.exec (.laneEnable n) s = .next (s.setF (F.KYN_LANE_STS_error n) 1)) ∧
      (1 ≤ c → c ≤ 24 → s.running = true → chainLimit s.tm.period < c →
        Machine.exec (.laneEnable n) s = .next (s.setF (F.KYN_LANE_STS_error n) 6)) ∧
      (1 ≤ c → c ≤ 24 → (s.running = true → c ≤ chainLimit s.tm.period) → enters (.laneEnable n) 1 fun t =>
        t.bit (F.KYN_LANE_CTL_en n) = true ∧ t.f (F.KYN_LANE_STS_error n) = 0 ∧ t.chain n = c ∧
        t.laneReq n = counts4 (890 + 220 * c) ∧ t.laneReq n ≤ t.f F.TIME_REQ_LEAD_req_lead ∧ Keeps s t [2, 0xA] ∧
        t.tm = s.tm)) ∧
    (st ≠ 0 → off (.laneDisable n) (s.f (F.KYN_LANE_STS_error n))) ∧
    (st = 1 → s.halted = false → enters (.laneTrainLock n) 2 fun t => t.bit (F.KYN_LANE_STS_locked n) = true ∧
      Keeps s t [2, 0xA] ∧ t.tm = s.tm) ∧
    (st = 1 → s.halted = true → Machine.exec (.laneTrainLock n) s = .next s) ∧
    (st = 1 → off (.trainTimeout n) 2) ∧ (st = 2 → off (.identTimeout n) 3) ∧
    (st = 3 → s.halted = false → enters (.laneIdentCmd n) 2 fun t => Keeps s t [2, 0xA]) ∧
    (st ≠ 3 ∨ s.halted = true → Machine.exec (.laneIdentCmd n) s = .next (s.setF (F.KYN_LANE_FLAGS_cmd_rejected n) 1)) ∧
    (st = 3 ∨ st = 4 → s.halted = true → Machine.exec (.laneDown n) s = .next (s.setF (F.KYN_LANE_STS_locked n) 0)) ∧
    (st = 3 ∨ st = 4 → s.halted = false → enters (.laneDown n) 5 fun t =>
      t.bit (F.KYN_LANE_FLAGS_down_seen n) = true ∧ t.bit (pendFld 13) = true ∧ t.bit (F.KYN_LANE_STS_locked n) = false ∧
      Keeps s t [2, 0xA, 0x12] ∧ ∃ ds, t.prot.waiting = s.prot.waiting ++ ds ∧
        ∀ k < 2, (k ∈ s.laneConvs n ↔ ⟨k, 7, 1, 13, s.now, scopeCell (24 * n)⟩ ∈ ds)) ∧
    (∀ (p : BitVec 5) (all : Bool),
      let named := fun q => if all then q < s.chain n else q = p.toNat
      let may := st ≠ 0 ∧ ∀ q, named q → q < s.chain n ∧
        ∀ a, s.cellOwner (24 * n + q) = some a → s.f (F.PROT_CV_STS_state (a / 6)) = 1
      (may → Does (.laneDiagCmd n p all) s fun t =>
        (∀ q, named q → (t.cell (24 * n + q)).diagReq = true) ∧ t.regs = s.regs ∧ t.mem = s.mem) ∧
      (¬ may → Machine.exec (.laneDiagCmd n p all) s = .next (s.setF (F.KYN_LANE_FLAGS_cmd_rejected n) 1)))

/-- An uplink frame as cells send it, from its type character to its CRC-16 (R204, R205): the type, the position of the cell
that starts it, the tick character and the slots. -/
def upFrame (ty start tick : Byte) (slots : List (List Byte)) : List Byte :=
  let b := [ty, start, tick, crc8 [ty, start, tick]] ++ slots.flatten
  b ++ [(crc16 b).setWidth 8, (crc16 b >>> 8).setWidth 8]

/-- Seven bytes closed with their CRC-8. -/
def closed (bs : List Byte) : List Byte := bs ++ [crc8 bs]

/-- R201, R204, R205, R215: a frame laid out as the rule says is accepted as whole and gives back its type, its tick
character and its slots; one whose header CRC-8 or CRC-16 is another is refused, and so is a slot whose CRC-8 is another. -/
def Obligations.UplinkFrameLayout : Prop :=
  ∀ (ty start tick : Byte) (slots : List (List Byte)), (∀ sl ∈ slots, sl.length = 8) → 1 ≤ slots.length →
    slots.length ≤ 24 →
    let fr := upFrame ty start tick slots
    upOk fr = true ∧ byteAt fr 0 = ty.toNat ∧ byteAt fr 2 = tick.toNat ∧ frameSlots fr = slots ∧
    (∀ h lo hi : Byte, let b := [ty, start, tick, h] ++ slots.flatten
      upOk (b ++ [lo, hi]) = true ↔ h = crc8 [ty, start, tick] ∧ lo = (crc16 b).setWidth 8 ∧ hi = (crc16 b >>> 8).setWidth 8) ∧
    (∀ bs : List Byte, bs.length = 7 → ∀ h : Byte, slotOk (bs ++ [h]) = true ↔ h = crc8 bs) ∧
    ∀ bs : List Byte, bs.length < 6 → upOk bs = false

/-- R202, R207, R209, R212, R213, R215, R120: frames of a lane. An IDENT answer with every position, rising delays and
revision 1 brings READY with the requirements; READY frames name multiples of 20 µs, the bursts of RUN the next tick
start; an accepted report for the sample point named last is written. -/
def laneFrames : Prop :=
  ∀ (s : State) (n : Fin 16), s.pwr.mainRst = false → s.halted = false → s.tm.holdLag = none →
    let c := s.chain n
    (∀ (loop : Nat) (tr : Nat → BitVec 16) (model rev : Nat → Byte) (tick : Byte), s.laneState n = 2 → 1 ≤ c → c ≤ 24 →
      let delta := fun p => (loop - (tr p).toNat) / 2
      let slot := fun p => closed [BitVec.ofNat 8 (p + 32), (tr p).setWidth 8, (tr p >>> 8).setWidth 8, 0, model p, rev p, 0]
      let fr := upFrame 2 (BitVec.ofNat 8 (c - 1)) tick ((List.range c).map fun i => slot (c - 1 - i))
      let d := counts4 (downReq c delta)
      let rises := ∀ p, p + 1 < c → delta p < delta (p + 1)
      let ends := fun (e : Nat) (P : State → Prop) => Does (.identUplinkFrame n loop fr) s fun t =>
        t.laneState n = 0 ∧ t.bit (F.KYN_LANE_CTL_en n) = false ∧ t.f (F.KYN_LANE_STS_error n) = e ∧
        t.f (F.KYN_LANE_STS_found n) = c ∧ Keeps s t [2, 0xA] ∧ P t
      (∀ p < c, (tr p).toNat ≤ loop) →
      (65535 < loop ∨ ¬ rises → ends 4 fun _ => True) ∧
      (loop ≤ 65535 → rises → ¬ (∀ p < c, rev p = 1) → ends 5 fun _ => True) ∧
      (loop ≤ 65535 → rises → (∀ p < c, rev p = 1) → s.running = true → s.tm.lead < d → ends 7 fun t =>
        t.f (F.KYN_LANE_REQ_dn_req n) = d ∧ t.f (F.KYN_LANE_REQ_up_req n) = counts4 (upReq c delta)) ∧
      (loop ≤ 65535 → rises → (∀ p < c, rev p = 1) → (s.running = true → d ≤ s.tm.lead) →
        Does (.identUplinkFrame n loop fr) s fun t =>
        t.laneState n = 3 ∧ t.f (F.KYN_LANE_STS_found n) = c ∧ t.f (F.KYN_LANE_LOOP_loop n) = loop ∧
        t.f (F.KYN_LANE_REQ_dn_req n) = d ∧ t.f (F.KYN_LANE_REQ_up_req n) = counts4 (upReq c delta) ∧
        ∀ p < c, (t.cell (24 * n + p)).delta = delta p ∧ (t.cell (24 * n + p)).model = (model p).toNat)) ∧
    (∀ (loop : Nat) (ps : List (Fin 24)) (body : List Byte) (start tick : Byte), s.laneState n = 2 → body.length = 6 →
      ps ≠ [] → ps.length ≤ 24 → ps.length ≠ c →
      Does (.identUplinkFrame n loop (upFrame 2 start tick (ps.map fun p => closed (BitVec.ofNat 8 (p.val + 32) :: body)))) s
        fun t => t.laneState n = 0 ∧ t.bit (F.KYN_LANE_CTL_en n) = false ∧ t.f (F.KYN_LANE_STS_error n) = 3 ∧
          t.f (F.KYN_LANE_STS_found n) = ps.length ∧ Keeps s t [2, 0xA]) ∧
    (∀ (loop : Nat) (fr : List Byte), s.laneState n = 2 → upOk fr = false → Does (.identUplinkFrame n loop fr) s fun t =>
      t.laneState n = 2 ∧ t.cells = s.cells ∧ Keeps s t [0xA] ∧
      t.f (F.KYN_LANE_CRCERR_frame n) = min 0xFFFF (s.f (F.KYN_LANE_CRCERR_frame n) + 1)) ∧
    (s.laneState n = 3 → (∀ e ∈ (s.lane n).ahead, e.1 ≤ s.now + (s.lane n).dn) →
      (∀ e, (s.lane n).due = some e → e.1 ≤ s.now + (s.lane n).dn) → Does (.readyFrame n) s fun t =>
      let b := (t.lane n).sof + (s.lane n).dn
      (t.lane n).ahead.getLast? = some (b, s.f F.TIME_TICK_COUNT_count % 256) ∧ b % 20000 = 0 ∧
        (∀ e ∈ (s.lane n).ahead, e.1 < b) ∧ t.now = (t.lane n).sof ∧ s.now ≤ t.now ∧
        b ≤ s.now + (s.lane n).dn + 20000 ∧ (t.lane n).frame.length = 18 + 8 * c ∧ t.mem = s.mem) ∧
    (s.laneState n = 4 → (s.lane n).run = true → s.running = true → s.tm.phase = 3 → Does (.downlinkBurst n) s fun t =>
      (t.lane n).ahead = (s.lane n).ahead ++ [(s.tm.start + 4 * s.tm.period, (s.f F.TIME_TICK_COUNT_count + 1) % 256)] ∧
      s.couchAt + 400 ≤ t.now ∧ (t.lane n).sof = s.couchAt + 400 ∧ (t.lane n).frame.length = 18 + 8 * c ∧
      (t.lane n).frame.head? = some (true, 0xFB#8) ∧ (t.lane n).frame.getLast? = some (true, 0xFD#8) ∧
      t.regs = s.regs ∧ t.mem = s.mem) ∧
    (∀ (tm : Nat) (ps : List (Fin 24)) (body : Nat → List Byte) (bad : List (List Byte)) (start tick : Byte) (b0 : Nat),
      s.laneState n = 3 ∨ s.laneState n = 4 → ps.Nodup → ps.length + bad.length ≤ 24 → c ≤ 24 →
      (∀ p ∈ ps, p.val < c) → (∀ p < 24, (body p).length = 6) → (∀ sl ∈ bad, sl.length = 8 ∧ slotOk sl = false) →
      (s.lane n).due = some (b0, tick.toNat) →
      (s.lane n).run = true ∨ ((s.lane n).got = false ∧ s.now ≤ b0 + tm) →
      tm < (if (s.lane n).run = true ∧ s.running = true then 4 * s.tm.period else 20000) →
      let b := fun p i => ((body p).getD i 0).toNat
      let fr := upFrame 1 start tick ((ps.map fun p => closed (BitVec.ofNat 8 p.val :: body p.val)) ++ bad)
      Does (.uplinkFrame n tm fr) s fun t =>
        (t.lane n).got = true ∧ b0 + tm ≤ t.now ∧ t.sns.lanesDone.testBit n = true ∧
        t.f (F.KYN_LANE_UPT_upt n) = min 0xFFFF tm ∧
        t.f (F.KYN_LANE_CRCERR_slot n) = min 0xFFFF (s.f (F.KYN_LANE_CRCERR_slot n) + bad.length) ∧
        (∀ p ∈ ps, let x := t.cell (24 * n + p)
          x.raw = b p 0 + 256 * b p 1 ∧ x.flags = b p 2 ∧ x.temp = b p 3 ∧ x.seq = b p 4 + 256 * (b p 5 % 16) ∧ x.age = 0) ∧
        ∀ q < c, (∀ p ∈ ps, p.val ≠ q) → (t.cell (24 * n + q)).raw = (s.cell (24 * n + q)).raw) ∧
    (∀ (tm : Nat) (fr : List Byte), s.laneState n = 3 ∨ s.laneState n = 4 → (s.lane n).run = true → upOk fr = false →
      Does (.uplinkFrame n tm fr) s fun t =>
        t.cells = s.cells ∧ (t.lane n).got = (s.lane n).got ∧ Keeps s t [0xA] ∧
        t.f (F.KYN_LANE_CRCERR_frame n) = min 0xFFFF (s.f (F.KYN_LANE_CRCERR_frame n) + 1))

/-- R120, R202, R207, R209, R212–R215: the states of a lane and its frames. The model's choices: a lane that goes to OFF clears
en, a delay that does not rise is DELAY, an IDENT answer with a wrong CRC counts as a frame error, the first READY frame names
the next multiple of 20 µs (log entry 70), and the bases of READY frames are sample points (log entry 117). -/
def Obligations.LaneStatesAndFrames : Prop :=
  laneStates ∧ laneFrames
/-! ## Arms and cells -/

/-- The failing conditions of the checks of R227 on arm `a`, in their order. -/
def armFails (s : State) (a : Nat) : List Prop :=
  let act := s.f (F.ARM_CFG_active a)
  let spares := s.f (F.ARM_CFG_spares a)
  let mapped := (List.range 384).filter fun c => s.cellArm c a
  let slot := fun c => s.f (F.ARM_CELL_CFG_slot c)
  [64 < act ∨ 64 < act + spares ∨ s.f (F.ARM_RED_min_active a) = 0 ∨ act < s.f (F.ARM_RED_min_active a) ∨
     spares < s.f (F.ARM_RED_low_water a),
   mapped.length ≠ act + spares ∨ (∃ c ∈ mapped, ∃ d ∈ mapped, c ≠ d ∧ slot c = slot d) ∨
     (∃ c ∈ mapped, act + spares ≤ slot c ∨ s.part.cells ≤ c),
   ∃ c ∈ mapped, ¬ (s.laneState (c / 24) = 3 ∨ s.laneState (c / 24) = 4) ∨ s.chain (c / 24) ≤ c % 24,
   s.f (F.ARM_VNOM_vnom a) = 0, 2 ≤ s.f (F.ARM_CFG_mode a), s.boundUnits (a / 6) ≠ []]

/-- R226–R229, R239–R243: the commands of arms and cells. The sixteenth couch of an unconfirmed bypass is the coming one; a
command that names it acts at that couch's instant, and once (the model's choice, log entries 13 and 126). A refused enable
leaves en at 0 (log entry 22); a disable, and a cell that no chain maps, follow log entry 71: the model's choices. -/
def Obligations.ArmCommands : Prop :=
  ∀ (s : State) (a : Fin 12), s.pwr.mainRst = false → s.part.mmc = true →
    let fails := armFails s a
    (s.bit (F.ARM_CTL_en a) = false → s.f (F.ARM_CFG_active a) = 0 → Machine.exec (.armEnable a) s = .next s) ∧
    (s.bit (F.ARM_CTL_en a) = false → s.f (F.ARM_CFG_active a) ≠ 0 →
      (∀ k < 6, (∀ j < k, ¬ fails.getD j False) → fails.getD k False →
        Machine.exec (.armEnable a) s = .next (s.setF (F.ARM_STS_error a) (k + 1))) ∧
      ((∀ k < 6, ¬ fails.getD k False) → Does (.armEnable a) s fun t =>
        t.bit (F.ARM_CTL_en a) = true ∧ t.bit (F.ARM_STS_enabled a) = true ∧ t.f (F.ARM_STS_error a) = 0 ∧
        t.bit (F.ARM_STS_tripped a) = false ∧ t.bit (F.ARM_STS_derated a) = false ∧ t.f (F.ARM_LVL_dir a) = 0 ∧
        (t.arm a).w = [] ∧ Keeps s t [0xB] ∧ t.tm = s.tm ∧
        ((∀ c < 384, s.cellArm c a = true → (s.cell c).flags.testBit 4 = false) →
          ∀ c < 384, s.cellArm c a = true → t.f (F.ARM_CELL_STS_state c) =
            if s.f (F.ARM_CELL_CFG_slot c) < s.f (F.ARM_CFG_active a) then 1 else 2))) ∧
    (s.bit (F.ARM_CTL_en a) = true → s.boundUnits (a / 6) ≠ [] →
      Machine.exec (.armDisable a) s = .next (s.setF ⟨R.ARM_FLAGS a, 0, 1⟩ 1)) ∧
    (s.bit (F.ARM_CTL_en a) = true → s.boundUnits (a / 6) = [] → Does (.armDisable a) s fun t =>
      t.bit (F.ARM_CTL_en a) = false ∧ t.bit (F.ARM_STS_enabled a) = false ∧ t.f (F.ARM_DERATE_factor a) = 0x7FFF ∧
      (∀ c < 384, s.cellArm c a = true → t.f (F.ARM_CELL_STS_state c) = 0) ∧ Keeps s t [0xB] ∧ t.tm = s.tm) ∧
    (∀ c : Fin 384,
      let inUse := s.cellOwner c ≠ none ∧ (s.cellState c = 1 ∨ s.cellState c = 2)
      (inUse → (s.cell c).fail = none → Machine.exec (.cellRetire c) s =
        .next (s.setCell c { s.cell c with fail := some 8 })) ∧
      (¬ inUse → s.f (F.ARM_CELL_CFG_arm c) = a → Machine.exec (.cellRetire c) s =
        .next (s.setF ⟨R.ARM_FLAGS a, 4, 1⟩ 1)) ∧
      (let late := s.cellOwner c = some a.val ∧ s.cellState c = 3 ∧ (s.cell c).order = true ∧
         (s.cell c).flags.testBit 4 = false ∧ 15 ≤ (s.cell c).couches ∧ (s.cell c).unconf = false
       let atCouch := s.running = true ∧ s.tm.phase = 2 ∧ s.halted = false ∧ (4, a.val) ∉ s.prot.taken
       (¬ (late ∧ atCouch) → s.cellOwner c = some a.val → Machine.exec (.bypassUnconfirmed c) s = .next s) ∧
       (late → atCouch → Does (.bypassUnconfirmed c) s fun t => t.now = max s.now s.couchAt ∧
          t.bit ⟨R.ARM_FLAGS a, 3, 1⟩ = true ∧ t.bit (F.ARM_STS_tripped a) = true ∧ (t.cell c).unconf = true ∧
          (s.bit (F.ARM_STS_tripped a) = false → t.bit (pendFld 11) = true) ∧ t.mem = s.mem))) ∧
    (s.bit (F.ARM_STS_enabled a) = true → s.f (F.ARM_BALCFG_ticks a) ≠ 0 →
      (s.f (F.ARM_BALCFG_ticks a) ≤ (s.arm a).spread → (s.arm a).spreadUp = false → Does (.spreadLimit a) s fun t =>
        t.bit (pendFld 12) = true ∧ t.bit ⟨R.ARM_FLAGS a, 1, 1⟩ = true ∧ (t.arm a).spreadUp = true ∧
        Keeps s t [0xB, 0x12] ∧ t.tm = s.tm) ∧
      (s.f (F.ARM_BALCFG_ticks a) ≤ (s.arm a).circ → (s.arm a).circUp = false → Does (.circLimit a) s fun t =>
        t.bit (pendFld 12) = true ∧ t.bit ⟨R.ARM_FLAGS a, 2, 1⟩ = true ∧ (t.arm a).circUp = true ∧
        Keeps s t [0xB, 0x12] ∧ t.tm = s.tm))

/-- R235: `x` ranks better than `y` (slot, voltage) in direction `dir`: 1 CHARGE, 2 DISCHARGE, else NONE. -/
def Better (dir : Nat) (x y : Nat × F32) : Prop :=
  (fIsNan x.2 = false ∧ fIsNan y.2 = true) ∨
  (fIsNan x.2 = true ∧ fIsNan y.2 = true ∧ x.1 < y.1) ∨
  (fIsNan x.2 = false ∧ fIsNan y.2 = false ∧
    ((dir = 1 ∧ fLt x.2 y.2 = true) ∨ (dir = 2 ∧ fLt y.2 x.2 = true) ∨
     ((fEq x.2 y.2 = true ∨ dir ≠ 1 ∧ dir ≠ 2) ∧ x.1 < y.1)))

/-- R235, R236: the cells that a set has and lacks are as the ranking orders them, where no swap is allowed and the set of the
tick before holds no cell, or every one; where fewer swaps than allowed were made, no further one is due; the cell outside that
the modulated one is taken from ranks best there. -/
def rankedSets : Prop :=
  ∀ (dir k m : Nat) (band : F32) (w : List Nat) (cells : List (Nat × F32)), (cells.map Prod.fst).Nodup →
    cells.length ≤ 64 → k ≤ cells.length →
    let r := nlmSet dir k m band w cells
    let inside := fun (e : Nat × F32) => e ∈ cells ∧ e.1 ∈ r.1
    let outside := fun (e : Nat × F32) => e ∈ cells ∧ e.1 ∉ r.1
    ((m = 0 ∨ dir = 0) → (∀ e ∈ cells, e.1 ∉ w) ∨ (∀ e ∈ cells, e.1 ∈ w) → ∀ x y, inside x → outside y → Better dir x y) ∧
    (∀ x, outside x → (r.2.1 = some x.1 ↔ ∀ y, outside y → y = x ∨ Better dir x y)) ∧
    (dir ≠ 0 → r.2.2 < m → ∀ x y, outside x → inside y → (∀ z, outside z → z = x ∨ Better dir x z) →
      (∀ z, inside z → z = y ∨ Better dir z y) →
      ¬ (fGt (fAbs (fsub x.2 y.2)) band = true ∧ Better dir x y))

/-- R238: in a PSC arm the ACTIVE cell of rank j among A by slot takes the slot of its width at offset j × T / A. The terms of
its width are taken in their written order, each rounded (the model's choice, log entry 24). -/
def pscArm : Prop :=
  ∀ (s : State) (a : Fin 12), s.bit (F.ARM_STS_enabled a) = true → s.fe (F.ARM_CFG_mode a) = 1 →
    s.armPlan (a / 6) = none → s.armOverride (a / 6) = none →
    let act := s.armIn a 1
    let t := s.periodNs
    let volt := fun c => s.cellVolt c
    let q := (clampInt 0 (256 * act.length) (s.fi (F.ARM_REF_level a))).toNat
    let mean := meanVolt (act.map fun e => (e.1, volt e.2))
    (∀ k c, (k, c) ∈ act ↔ c < 384 ∧ s.cellArm c a = true ∧ s.cellState c = 1 ∧ k = s.f (F.ARM_CELL_CFG_slot c)) ∧
    (act.map Prod.fst).Pairwise (· ≤ ·) ∧
    ((act.map Prod.fst).Nodup → ∀ j e, act[j]? = some e →
      ((s.armSelect a).cell e.2).cmd = pscSlot
        (pscWidth (fOfRat q (256 * act.length)) (fOfQ 16 12 (s.f (F.ARM_SEL_kb a))) mean (volt e.2) (s.armDir a) t)
        (j * t / act.length) t)

/-- R235, R236, R238, R213: the set of an NLM unit has the number of cells asked for, all of them ACTIVE, ranked by R235, takes
at most max_swap swaps and none without a direction; with no swap allowed and no change of the count it stays; the slot of a PSC
cell gives it its width in the tick at its own phase, no two of its transitions less than 500 ns apart and none at or beyond the
tick's end. The set of an arm before its first tick and after a blocked one is empty: the model's choice (log entry 71). -/
def Obligations.CellSelection : Prop :=
  rankedSets ∧ pscArm ∧
  (∀ (dir k m : Nat) (band : F32) (w : List Nat) (cells : List (Nat × F32)), (cells.map Prod.fst).Nodup →
    cells.length ≤ 64 → k ≤ cells.length →
    let r := nlmSet dir k m band w cells
    r.1.length = k ∧ r.1.Nodup ∧ (∀ x ∈ r.1, x ∈ cells.map Prod.fst) ∧ r.2.2 ≤ m ∧ (dir = 0 → r.2.2 = 0) ∧
    (∀ x, r.2.1 = some x → x ∈ cells.map Prod.fst ∧ x ∉ r.1) ∧ (r.2.1 = none ↔ k = cells.length) ∧
    (m = 0 → (cells.filter fun e => w.contains e.1).length = k →
      ∀ x, x ∈ r.1 ↔ x ∈ w ∧ x ∈ cells.map Prod.fst)) ∧
  (∀ w o t : Nat, 8000 ≤ t → w ≤ t → o < t →
    let x := pscSlot w o t
    (500 ≤ w → w + 500 ≤ t → x.o0 < t ∧ x.o1 < t ∧ x.o0 + 500 ≤ x.o1 ∧
      (x.c0 = 1 ∧ x.c1 = 2 ∧ x.o1 - x.o0 = w ∨ x.c0 = 2 ∧ x.c1 = 1 ∧ x.o0 + (t - x.o1) = w)) ∧
    (w < 500 → x = { c0 := 2 }) ∧ (t < w + 500 → x = { c0 := 1 }))

/-! ## Protection -/

/-- What a demand of class `cls` for state `st` leaves of converter `k` (R251, R253, R254, R256). -/
def Reacts (s t : State) (k cls st : Nat) : Prop :=
  if s.demandChanges k cls then
    t.f (F.PROT_CV_STS_state k) = s.realState k st ∧ t.f (F.PROT_CV_STS_class k) = cls
  else t.f (F.PROT_CV_STS_state k) = s.f (F.PROT_CV_STS_state k) ∧
    t.f (F.PROT_CV_STS_class k) = s.f (F.PROT_CV_STS_class k)

/-- R259–R262, R265, R266, R268–R270: the fault inputs, their clears and their demands. `high` gives the level of a pin that is
its active one (GF, TRIP) or means ready (DRDY) by the input's pol. A level held for as long as the filter asks, which has been
a fault once, is none again while it lasts (the model's choice, log entry 56). UV and the loss of vdc may be raised by a command
at the couch's instant, where the condition of that couch holds, and then wait among its demands (the model's choice, log entry
126). An event whose condition does not hold changes nothing (log entry 13), and the scope of a waiting demand is predicted when
it is raised (log entry 113): the model's choices. -/
def Obligations.FaultInputs : Prop :=
  ∀ s : State, s.pwr.mainRst = false →
    (∀ n : Fin 18,
      let high := fun (active : Bool) => active == s.bit (F.PROT_GF_pol n)
      let caught := fun (t : State) =>
        t.bit (F.PROT_GF_lat n) = true ∧ (t.leg n).held = true ∧ t.bit (pendFld 2) = true ∧ t.mem = s.mem ∧
        (s.npcPartner n = none → (t.leg n).oh = false ∧ (t.leg n).ol = false) ∧
        t.f (F.PROT_GF_CNT_faults n) = min 0xFFFF (s.f (F.PROT_GF_CNT_faults n) + 1)
      (∀ held, 4 * s.f (F.PROT_GF_filt n) ≤ held →
        (s.bit (F.PROT_GF_en n) = true → s.bit (F.PROT_GF_in_blank n) = false →
          ¬ (s.bit (F.PROT_GF_act n) = true ∧ s.bit (F.PROT_GF_lat n) = true) → Does (.gfFault ⟨n, high true, held⟩) s caught) ∧
        (s.bit (F.PROT_GF_en n) = false ∨ s.bit (F.PROT_GF_in_blank n) = true →
          Machine.exec (.gfFault ⟨n, high true, held⟩) s = .next (s.setF (F.PROT_GF_act n) 1))) ∧
      (∀ held, held < 4 * s.f (F.PROT_GF_filt n) → Machine.exec (.gfFault ⟨n, high true, held⟩) s = .next s) ∧
      (∀ held, Machine.exec (.gfFault ⟨n, high false, held⟩) s = .next (s.setF (F.PROT_GF_act n) 0)) ∧
      (s.bit (F.PROT_GF_in_blank n) = true → s.bit (F.PROT_GF_en n) = true → Does (.gfBlankingEnd n (high true)) s caught) ∧
      (s.bit (F.PROT_GF_in_blank n) = true → Does (.gfBlankingEnd n (high false)) s fun t =>
        t.bit (F.PROT_GF_in_blank n) = false ∧ t.bit (F.PROT_GF_lat n) = s.bit (F.PROT_GF_lat n) ∧ Keeps s t [0xC]) ∧
      (Does (.gfClear n (high true)) s fun t => t.bit (F.PROT_GF_clr_rej n) = true ∧
        t.bit (F.PROT_GF_lat n) = s.bit (F.PROT_GF_lat n) ∧ t.leg n = s.leg n ∧ Keeps s t [0xC]) ∧
      (Does (.gfClear n (high false)) s fun t => t.bit (F.PROT_GF_lat n) = false ∧ Keeps s t [9, 0xC] ∧
        (∀ b, s.legBridge n = some b →
          (t.leg n).held = if s.f (F.PROT_CV_STS_state (b + 2)) = 0 then false else (s.leg n).held) ∧
        (s.legBridge n = none → (t.leg n).held = false))) ∧
    (∀ b : Fin 6,
      let high := fun (ready : Bool) => ready != (s.f F.PROT_DRDY_CFG_pol).testBit b
      (∀ held, 4 * s.f F.PROT_DRDY_CFG_filt < held → (s.f F.PROT_DRDY_CFG_en).testBit b = true →
        (s.f F.PROT_DRDY_STS_ready).testBit b = true ∨ (s.f F.PROT_DRDY_STS_lat).testBit b = false →
        Does (.drdyLoss ⟨b, high false, held⟩) s fun t =>
        (t.f F.PROT_DRDY_STS_lat).testBit b = true ∧ (t.f F.PROT_DRDY_STS_ready).testBit b = false ∧
        t.bit (pendFld 15) = true ∧ Reacts s t (b + 2) 2 1 ∧ t.mem = s.mem) ∧
      (∀ held, held ≤ 4 * s.f F.PROT_DRDY_CFG_filt → Machine.exec (.drdyLoss ⟨b, high false, held⟩) s = .next s) ∧
      (∀ held, Does (.drdyLoss ⟨b, high true, held⟩) s fun t => (t.f F.PROT_DRDY_STS_ready).testBit b = true ∧ Keeps s t [0xC]) ∧
      (Does (.drdyClear b (high true)) s fun t => (t.f F.PROT_DRDY_STS_lat).testBit b = false ∧ Keeps s t [9, 0xC]) ∧
      (Does (.drdyClear b (high false)) s fun t => (t.f F.PROT_DRDY_STS_clr_rej).testBit b = true ∧
        t.f F.PROT_DRDY_STS_lat = s.f F.PROT_DRDY_STS_lat ∧ t.legs = s.legs ∧ Keeps s t [0xC])) ∧
    (∀ (ch : Fin 40) (high : Bool), (if high then (s.sd ch).hi else (s.sd ch).lo) = true →
      (∀ k, s.ocConv ch = some k → k < 8 → Does (.fastOvercurrent ch high) s fun t =>
        t.bit (pendFld 3) = true ∧ Reacts s t k 3 (polState (s.f (F.PROT_CV_POL_oc_state k))) ∧ t.mem = s.mem) ∧
      (s.ocConv ch = none → (∀ k < 8, s.dcChannel k ch = false) → Does (.fastOvercurrent ch high) s fun t =>
        t.bit (pendFld 3) = true ∧ Keeps s t [0x12])) ∧
    (∀ k : Fin 8,
      (s.dcChannel k (s.fe (F.PROT_CV_DC_sd_ch k)) = true → (s.sd (s.fe (F.PROT_CV_DC_sd_ch k))).hi = true →
        Does (.ov2Detect k) s fun t => t.bit (pendFld 4) = true ∧
          Reacts s t k 4 (if s.bit (F.PROT_CV_STS_ov2_asc k) then 2 else 1) ∧ t.mem = s.mem) ∧
      let vdc := s.convVdc k
      let open_ := fun (kind : Nat) => s.running = true ∧ s.tm.phase = 2 ∧ s.halted = false ∧
        s.bit (F.PROT_CV_CTL_en k) = true ∧ (kind, k.val) ∉ s.prot.taken
      let low := fIsNan vdc = false ∧ fLt vdc (s.level (F.PROT_CV_DC_uv k)) = true ∧ 1 ≤ (s.conv k).uvLow ∧
        (s.bit (F.PROT_CV_STS_uv_armed k) = true ∨ fLe (fOfQ 16 13 (s.fe (F.PROT_CV_CTL_uv_arm k))) vdc = true)
      let lost := fIsNan vdc = true ∧ 2 ≤ (s.conv k).vdcBad
      let waits := fun (t : State) => t.bit (pendFld 6) = true ∧ t.now = max s.now s.couchAt ∧ t.conv k = s.conv k ∧
        t.f (F.PROT_CV_STS_state k) = s.f (F.PROT_CV_STS_state k) ∧ t.mem = s.mem ∧
        t.prot.waiting = s.prot.waiting ++ [⟨k, 4, polState (s.f (F.PROT_CV_POL_uv_state k)), 6, t.now, scopeConv k⟩]
      (open_ 0 → low → Does (.undervoltage k) s waits) ∧
      (¬ (open_ 0 ∧ low) → Machine.exec (.undervoltage k) s = .next s) ∧
      (open_ 1 → lost → Does (.vdcLost k) s fun t => waits t ∧ t.bit (F.PROT_CV_STS_vdc_lost k) = true) ∧
      (¬ (open_ 1 ∧ lost) → Machine.exec (.vdcLost k) s = .next s)) ∧
    (∀ (m : Fin 8) (held : Nat),
      let high := fun (active : Bool) => active == s.bit (F.PROT_TRIP_CFG_pol m)
      let filter := max 50 (min 10000 (s.f (F.PROT_TRIP_CFG_filter m)))
      (held < filter → Machine.exec (.tripInput ⟨m, high true, held⟩) s = .next s) ∧
      (Does (.tripInput ⟨m, high false, held⟩) s fun t => (t.f F.PROT_TRIP_STS_active).testBit m = false ∧ Keeps s t [0xC]) ∧
      (filter ≤ held → s.bit (F.PROT_TRIP_CFG_en m) = true →
        ¬ ((s.f F.PROT_TRIP_STS_active).testBit m = true ∧ (s.f F.PROT_TRIP_STS_latched).testBit m = true) →
        Does (.tripInput ⟨m, high true, held⟩) s fun t =>
      (t.f F.PROT_TRIP_STS_latched).testBit m = true ∧ (t.f F.PROT_TRIP_STS_active).testBit m = true ∧
      t.bit (pendFld 8) = true ∧ t.mem = s.mem ∧
      ∀ k < 8, if s.f (F.PROT_TRIP_CFG_action m) ≠ 0 ∧ (s.f (F.PROT_TRIP_CFG_mask m)).testBit k = true then
          Reacts s t k 5 (polState4 (s.f (F.PROT_TRIP_CFG_action m)))
        else t.f (F.PROT_CV_STS_state k) = s.f (F.PROT_CV_STS_state k))) ∧
    (∀ mask high : BitVec 8, Does (.tripClear mask high) s fun t =>
      let active := fun m => high.getLsbD m == s.bit (F.PROT_TRIP_CFG_pol m)
      (∀ m < 8, (t.f F.PROT_TRIP_STS_active).testBit m = active m) ∧
      (∀ m < 8, (t.f F.PROT_TRIP_STS_latched).testBit m =
        ((s.f F.PROT_TRIP_STS_latched).testBit m && !(mask.getLsbD m && !active m))) ∧
      (∀ m < 8, (t.f F.PROT_TRIP_STS_clear_rejected).testBit m =
        ((s.f F.PROT_TRIP_STS_clear_rejected).testBit m || (mask.getLsbD m && active m))) ∧
      Keeps s t [0xC] ∧ t.tm = s.tm)

/-- The causes of R258 that keep converter `k` from being released, in the order of its table. -/
def holdCauses (s : State) (k : Nat) : List Prop :=
  let latch := fun (x : Fld) (i : Nat) => (s.f x).testBit i = true
  let bound := fun u => u ∈ s.boundUnits k
  [s.gateNet = false ∨ (s.conv k).ss1 = true,
   2 ≤ k ∧ (latch F.PROT_DRDY_STS_lat (k - 2) ∨ ∃ n ∈ s.bridgeLegs (k - 2), s.bit (F.PROT_GF_lat n) = true),
   ∃ n < 40, s.bit (F.SNS_SD_STS_fast_act n) = true ∧ s.ocConv n = some k,
   (∃ n < 40, s.dcChannel k n = true ∧ s.bit (F.SNS_SD_STS_fast_act n) = true) ∨
     (s.bit (F.PROT_CV_STS_uv_armed k) = true ∧
       (fIsNan (s.conv k).vdc = true ∨ fLt (s.conv k).vdc (s.level (F.PROT_CV_DC_uv k)) = true)),
   ∃ m < 8, latch F.PROT_TRIP_STS_latched m ∧ latch (F.PROT_TRIP_CFG_mask m) k,
   k < 2 ∧ ∃ x < 6, s.bit (F.ARM_STS_tripped (6 * k + x)) = true ∨
     ∃ l < 16, s.laneState l = 5 ∧ s.laneArm l (6 * k + x) = true,
   s.bit (F.PROT_CV_CTL_en k) = false ∨
     (∃ c < 64, s.f (F.CTX_STS_state c) = 2 ∧ ∃ u, bound u ∧ latch (F.CTX_SAFE_DRIVES_drives c) u) ∨
     (∃ m < 8, s.bit (F.MOT_STS_hl_latched m) = true ∧ s.f (F.MOT_SW_action m) ≠ 0 ∧
       bound (s.fe (F.MOT_BIND_unit m))) ∨ s.sec.wdFired = true,
   s.bit F.PROT_DIAG_STS_busy = true ∧ s.prot.diag.conv = k]

/-- R251–R258: the safe-state decision. A demand of a lower class number than the one in force, or any in NONE, takes effect;
every other one is logged. Of two demands the class of the lower number is in force afterwards, whatever their order. Enable,
disable, release, requests and the end of RAMP_DOWN. A refused enable leaves en at 0 (log entry 22), and the scope that a
waiting request carries is predicted when it is made (log entry 113): the model's choices. -/
def Obligations.SafeStateDecision : Prop :=
  (∀ (s : State) (k cls st src : Nat), s.convExists k = true → 1 ≤ cls → cls ≤ 10 → 1 ≤ st → st ≤ 4 →
    Reacts s (s.demand k cls st src) k cls st ∧
    (∀ j < 8, j ≠ k → (s.demand k cls st src).f (F.PROT_CV_STS_state j) = s.f (F.PROT_CV_STS_state j)) ∧
    (s.demand k cls st src).f F.PROT_HIST_IDX_total = (s.f F.PROT_HIST_IDX_total + 1) % 0x10000 ∧
    (s.demandChanges k cls = false → (s.demand k cls st src).f (F.PROT_CV_CNT_logged k) =
      min 0xFFFF (s.f (F.PROT_CV_CNT_logged k) + 1)) ∧
    ∀ cls' st' src', 1 ≤ cls' → cls' ≤ 10 → 1 ≤ st' → st' ≤ 4 → s.bit (F.PROT_CV_CTL_en k) = true →
      s.f (F.PROT_CV_STS_state k) = 0 →
      ((s.demand k cls st src).demand k cls' st' src').f (F.PROT_CV_STS_class k) = min cls cls') ∧
  ∀ (s : State) (k : Fin 8), s.pwr.mainRst = false →
    let q := fun (x : Fld) => s.fi x
    let uv := q (F.PROT_CV_DC_uv k)
    let arm := q (F.PROT_CV_CTL_uv_arm k)
    let ch := s.f (F.PROT_CV_DC_sd_ch k)
    let fails : List Prop :=
      [s.convExists k = false, s.part.lanes ≤ s.f (F.PROT_CV_DC_drive k),
       ¬ (uv < arm ∧ arm ≤ q (F.PROT_CV_LVL_ov1 k) ∧ q (F.PROT_CV_LVL_ov1 k) < q (F.PROT_CV_LVL_ov1_top k)),
       s.bit (F.PROT_CV_DC_ov2_en k) = true ∧ (39 < ch ∨ s.sdOn ch = false ∨ s.fe (F.SNS_SD_MAP_role ch) ≠ 0 ∨
         s.bit (F.SNS_SD_FAST_fast_en ch) = false)]
    let held := ∃ p ∈ holdCauses s k, p
    let may := s.bit (F.PROT_CV_CTL_en k) = true ∧ s.f (F.PROT_CV_STS_state k) ≠ 0 ∧ ¬ held
    (s.bit (F.PROT_CV_CTL_en k) = false →
      (∀ i < 4, (∀ j < i, ¬ fails.getD j False) → fails.getD i False →
        Machine.exec (.protEnable k) s = .next (s.setF (F.PROT_CV_STS_error k) (i + 1))) ∧
      ((∀ i < 4, ¬ fails.getD i False) → Does (.protEnable k) s fun t =>
        t.bit (F.PROT_CV_CTL_en k) = true ∧ t.bit (F.PROT_CV_STS_enabled k) = true ∧
        t.f (F.PROT_CV_STS_error k) = 0 ∧ t.bit (F.PROT_CV_STS_uv_armed k) = false ∧
        (s.gateNet = true → t.f (F.PROT_CV_STS_state k) = s.f (F.PROT_CV_STS_state k) ∧ Keeps s t [0xC]) ∧
        (s.gateNet = false → s.f (F.PROT_CV_STS_state k) = 0 ∨ 1 < s.f (F.PROT_CV_STS_class k) →
          t.f (F.PROT_CV_STS_state k) = 1 ∧ t.f (F.PROT_CV_STS_class k) = 1) ∧ Keeps s t [7, 9, 0xC, 0x12] ∧ t.tm = s.tm)) ∧
    (s.bit (F.PROT_CV_CTL_en k) = true → Does (.protDisable k) s fun t =>
      t.f (F.PROT_CV_STS_state k) = 1 ∧ t.f (F.PROT_CV_STS_class k) = 10 ∧ t.bit (F.PROT_CV_CTL_en k) = false ∧
      (t.conv k).release = false ∧
      t.bit (F.PROT_CV_STS_enabled k) = false ∧ t.mem = s.mem) ∧
    (may → Machine.exec (.release k) s = .next (s.setConv k { s.conv k with release := true })) ∧
    (¬ may → Machine.exec (.release k) s = .next (s.setF (F.PROT_CV_STS_release_rejected k) 1)) ∧
    ((s.conv k).release = true → (s.releaseAtCouch k).f (F.PROT_CV_STS_state k) = 0 ∧
      (s.releaseAtCouch k).f (F.PROT_CV_STS_class k) = 0 ∧ ((s.releaseAtCouch k).conv k).release = false ∧
      (s.releaseAtCouch k).bit (F.PROT_CV_STS_no_asc k) = false) ∧
    (∀ req : BitVec 3, Does (.hostRequest k req) s fun t =>
      t.regs = s.regs ∧ t.mem = s.mem ∧ t.prot.waiting = s.prot.waiting ++
        if 1 ≤ req.toNat ∧ req.toNat ≤ 4 then [⟨k, 10, req.toNat, 0, s.now, s.scopeDev⟩] else []) ∧
    (s.f (F.PROT_CV_STS_state k) = 4 → s.f (F.PROT_CV_POL2_ramp_max k) ≠ 0 → Does (.rampTimeout k) s fun t =>
      t.f (F.PROT_CV_STS_state k) = 1 ∧ t.f (F.PROT_CV_STS_class k) = s.f (F.PROT_CV_STS_class k) ∧
      t.bit (F.PROT_CV_STS_ramp_timeout k) = true ∧ t.mem = s.mem)

/-- R271, R273–R275: one decision of chopper `n` at instant `now`, from `s` to `t`. -/
def Chops (s t : State) (n now : Nat) : Prop :=
  let src := s.f (F.PROT_CHP_CFG_src n)
  let vdc := s.convVdc src
  let x := s.chop n
  let on := s.bit (F.PROT_CHP_STS_on n)
  let lvl := fun (f : Fld) => fOfQ 16 13 (s.f f)
  let may := s.bit (F.PROT_CHP_CFG_en n) = true ∧ fIsNan vdc = false ∧ s.bit (F.PROT_CV_CTL_en src) = true ∧
    s.bit (F.PROT_CHP_STS_fault n) = false
  let check := s.netOn = true ∧ x.onAt + 2000000 ≤ now ∧ x.checked = false
  let first := if x.vAsk then vdc else x.vStart
  let weak := check ∧ fGt vdc (fsub first (fOfU 10 (s.f (F.PROT_CHP_CFG_fall_min n)))) = true
  (¬ may → t.bit (F.PROT_CHP_STS_on n) = false) ∧
  (may → on = false → t.bit (F.PROT_CHP_STS_on n) =
    decide (fLe (lvl (F.PROT_CHP_LVL_on n)) vdc = true ∧ s.f (F.PROT_CHP_CFG_min_off n) ≤ x.run + 1)) ∧
  (may → on = true → weak → t.bit (F.PROT_CHP_STS_fault n) = true ∧ t.bit (F.PROT_CHP_STS_cause_eff n) = true ∧
    t.bit (F.PROT_CHP_STS_on n) = false ∧ t.bit (pendFld 7) = true) ∧
  (may → on = true → ¬ weak → t.bit (F.PROT_CHP_STS_on n) =
    decide (¬ (fLe vdc (lvl (F.PROT_CHP_LVL_off n)) = true ∧ s.f (F.PROT_CHP_CFG_min_on n) ≤ x.run + 1)))

/-- R269, R271–R275: the choppers and the governor at the decisions of their own, in a tick and on the idle cycle. That a debug
halt keeps the level of a chopper's ball is R196; that a lasting CF level is one fault is the model's choice (log entry 56). -/
def choppers : Prop :=
  ∀ s : State, s.pwr.mainRst = false →
    (s.running = true → s.eng.haltAt ≠ none → Does .chopperDecision s fun t =>
      t.regs = s.regs ∧ t.prot = s.prot ∧ t.mem = s.mem) ∧
    (s.running = true → s.eng.haltAt = none → ∀ n < 4, Does .chopperDecision s fun t =>
      Chops s t n (max s.now (s.tm.start + 1600)) ∧ Keeps s t [0xC, 0x12]) ∧
    (s.running = false → s.eng.haltAt = none → ∀ n < 4, Does .governorIdleDecision s fun t => Chops s t n (s.now + 100)) ∧
    (s.running = false → s.eng.haltAt ≠ none → ∀ n < 4, Does .governorIdleDecision s fun t =>
      t.bit (F.PROT_CHP_STS_on n) = s.bit (F.PROT_CHP_STS_on n) ∧ t.chop n = s.chop n) ∧
    (s.running = true → Machine.exec .governorIdleDecision s = .next s) ∧
    (s.running = false → ∀ k < 8, s.bit (F.PROT_CV_CTL_en k) = true → Does .governorIdleDecision s fun t =>
      let vdc := s.idleVdc (s.fe (F.PROT_CV_DC_drive k))
      t.mem = s.mem ∧ s.now ≤ t.now ∧
      (fIsNan vdc = true → t.f (F.PROT_CV_GOV_vdc k) = 0x8000) ∧
      (fIsNan vdc = false → t.f (F.PROT_CV_GOV_vdc k) = (fToQ 16 13 vdc).1 ∧
        t.f (F.PROT_CV_GOV_kov k) = if t.chopFaultFor k then 0 else
          kOv vdc (s.level (F.PROT_CV_LVL_ov1 k)) (s.level (F.PROT_CV_LVL_ov1_top k)))) ∧
    (∀ n : Fin 4,
      let high := fun (active : Bool) => active == s.bit (F.PROT_CHP_CFG_cf_pol n)
      (∀ held, 40 ≤ held → s.bit (F.PROT_CHP_CFG_cf_en n) = true → (s.chop n).blankEnd ≤ s.now →
        ¬ ((s.chop n).cf = true ∧ s.bit (F.PROT_CHP_STS_cause_cf n) = true) →
        Does (.chopperCfFault ⟨n, high true, held⟩) s fun t => t.bit (F.PROT_CHP_STS_fault n) = true ∧
          t.bit (F.PROT_CHP_STS_cause_cf n) = true ∧ t.bit (F.PROT_CHP_STS_on n) = false ∧ t.bit (pendFld 7) = true ∧
          Keeps s t [0xC, 0x12] ∧ t.tm = s.tm) ∧
      (∀ held, held < 40 → Machine.exec (.chopperCfFault ⟨n, high true, held⟩) s = .next s) ∧
      (∀ held, Machine.exec (.chopperCfFault ⟨n, high false, held⟩) s = .next (s.setChop n { s.chop n with cf := false })) ∧
      (Does (.chopperFaultClear n (high true)) s fun t => t.bit (F.PROT_CHP_STS_clr_rej n) = true ∧
        t.bit (F.PROT_CHP_STS_fault n) = s.bit (F.PROT_CHP_STS_fault n) ∧ Keeps s t [0xC] ∧ t.tm = s.tm) ∧
      (Does (.chopperFaultClear n (high false)) s fun t => t.bit (F.PROT_CHP_STS_fault n) = false ∧
        Keeps s t [0xC] ∧ t.tm = s.tm))

/-- R276–R279: the pre-start diagnosis of a bridge and of an MMC converter. -/
def diagnosis : Prop :=
  ∀ s : State, s.pwr.mainRst = false →
    (∀ k : Fin 8,
      (s.diagCheck k ≠ 0 → Machine.exec (.diagStart k) s = .next (s.setF F.PROT_DIAG_STS_error (s.diagCheck k))) ∧
      (s.bit (F.PROT_CV_CTL_en k) = false ∨ s.f (F.PROT_CV_STS_state k) ≠ 1 ∨ s.bit F.PROT_DIAG_STS_busy = true →
        s.diagCheck k = 1) ∧
      (let one := s.bit (F.PROT_CV_CTL_en k) = false ∨ s.f (F.PROT_CV_STS_state k) ≠ 1 ∨ s.bit F.PROT_DIAG_STS_busy = true
       let u := s.fe (F.PROT_CV_DC_drive k)
       let legs := s.bridgeLegs (k - 2)
       let setup := if k.val < 2 then ∃ c ∈ s.convCells k, s.laneState (c / 24) ≠ 3 ∧ s.laneState (c / 24) ≠ 4
         else (∃ r < 5, 1 ≤ r ∧ fIsNan (s.lastVolt u r) = true) ∨ fLt (s.lastVolt u 1) (s.level (F.PROT_CV_DC_uv k)) = true ∨
           legs = [] ∨ ∃ n ∈ legs, s.bit (F.GATE_STS_enabled n) = false ∨ ∀ d < 8, s.legDomain n = some d → s.mdOn d = false
       (¬ one → setup → s.diagCheck k = 2) ∧
       (¬ one → ¬ setup → s.diagCheck k = if s.f F.PROT_DIAG_CFG_settle = 0 then 4 else 0)) ∧
      (s.diagCheck k = 0 → Does (.diagStart k) s fun t =>
        t.bit F.PROT_DIAG_STS_busy = true ∧ t.f F.PROT_DIAG_STS_error = 0 ∧ t.f F.PROT_DIAG_STS_step = 0 ∧
        t.prot.diag.conv = k ∧ t.prot.diag.startAt = s.now ∧ t.mem = s.mem ∧ t.tm = s.tm)) ∧
    (s.bit F.PROT_DIAG_STS_busy = false → Machine.exec .diagAbort s = .next s) ∧
    (s.bit F.PROT_DIAG_STS_busy = true →
      (Does .diagAbort s fun t => t.bit F.PROT_DIAG_STS_busy = false ∧ t.f F.PROT_DIAG_STS_error = 3 ∧
        t.bit F.PROT_DIAG_STS_done = true ∧ t.bit (pendFld 60) = true ∧ t.mem = s.mem ∧ t.tm = s.tm) ∧
      (2 ≤ s.prot.diag.conv → s.prot.diag.step = 0 →
        let volt := s.lastVolt (s.fe (F.PROT_CV_DC_drive s.prot.diag.conv))
        let code := fun p => if fLe (fsub (volt 1) (s.level F.PROT_DIAG_LVL_dcp_margin)) (volt (p + 2)) then 3
          else if fLe (volt (p + 2)) (s.level F.PROT_DIAG_LVL_lo_lvl) then 4 else 0
        Does .diagStepEnd s fun t => t.mem = s.mem ∧
          ((∃ p < 3, code p ≠ 0) →
            t.f F.PROT_DIAG_RES_phase = code 0 + 16 * code 1 + 256 * code 2 ∧ t.bit F.PROT_DIAG_STS_busy = false ∧
            t.f F.PROT_DIAG_STS_error = 0 ∧ t.bit F.PROT_DIAG_STS_done = true ∧ t.bit (pendFld 60) = true) ∧
          ((∀ p < 3, code p = 0) → t.bit F.PROT_DIAG_STS_busy = true ∧ t.f F.PROT_DIAG_STS_step = 1 ∧ t.prot.diag.step = 1 ∧
            (∀ p < 3, t.diagRead 0 p = volt (p + 2)) ∧ t.diagRead 0 3 = volt 1)) ∧
      (2 ≤ s.prot.diag.conv → s.prot.diag.step = 1 ∨ s.prot.diag.step = 2 → Does .diagStepEnd s fun t =>
        t.bit F.PROT_DIAG_STS_busy = true ∧ t.f F.PROT_DIAG_STS_step = s.prot.diag.step + 1 ∧
        t.prot.diag.step = s.prot.diag.step + 1 ∧ t.mem = s.mem) ∧
      (2 ≤ s.prot.diag.conv → s.prot.diag.step = 3 → Does .diagStepEnd s fun t =>
        t.bit F.PROT_DIAG_STS_busy = false ∧ t.f F.PROT_DIAG_STS_error = 0 ∧ t.bit F.PROT_DIAG_STS_done = true ∧
        t.bit (pendFld 60) = true ∧ t.mem = s.mem) ∧
      (s.prot.diag.conv < 2 → Does .mmcDiagEnd s fun t =>
        let results := (s.diagCells s.prot.diag.conv).map fun c => (s.cell c).diagRes
        t.bit F.PROT_DIAG_STS_busy = false ∧ t.bit F.PROT_DIAG_STS_done = true ∧ t.bit (pendFld 60) = true ∧
        t.f F.PROT_DIAG_RES_passed = results.count 1 ∧ t.f F.PROT_DIAG_RES_silent = results.count 0 ∧ t.mem = s.mem)) ∧
    (∀ x < 3, s.f F.PROT_DIAG_CFG_mode = 0 ∨ s.f F.PROT_DIAG_CFG_mode = 1 →
      let dcp := fLe (fsub (s.diagRead 0 3) (s.level F.PROT_DIAG_LVL_dcp_margin)) (s.diagRead 0 x) = true
      let dcn := fLe (s.diagRead 0 x) (s.level F.PROT_DIAG_LVL_lo_lvl) = true
      let m := fun p q => fLe (s.diagRead (p + 1) q) (s.level F.PROT_DIAG_LVL_lo_lvl) = true
      let apart := ∀ q < 3, q ≠ x → ¬ m x q ∧ ¬ m q x
      (dcp → s.diagClass x = 3) ∧ (¬ dcp → dcn → s.diagClass x = 4) ∧
      (¬ dcp → ¬ dcn → (s.f F.PROT_DIAG_CFG_mode = 0 → apart → s.diagClass x = 2) ∧
        (s.f F.PROT_DIAG_CFG_mode = 0 → ¬ apart → s.diagClass x = 1) ∧
        (s.f F.PROT_DIAG_CFG_mode = 1 → apart → s.diagClass x = 1) ∧
        (s.f F.PROT_DIAG_CFG_mode = 1 → ¬ apart → s.diagClass x = 5)))

/-- R269, R271–R279: choppers, governor and pre-start diagnosis. GOVERNOR_IDLE_DECISION in a run and DIAG_ABORT without a test
change nothing: the model's choice (log entry 13). -/
def Obligations.ChoppersAndDiagnosis : Prop := choppers ∧ diagnosis

/-! ## Position and speed feedback -/

/-- The failing conditions of the checks of R284 on port `p`, in their order. -/
def portFails (s : State) (p : Nat) : List Prop :=
  let mode := s.f (F.FBK_CFG_mode p)
  let ib := s.f (F.FBK_CFG_ib p)
  let lines := s.f (F.FBK_RES_lines p)
  let len := s.f (F.FBK_SSI_FMT_len p)
  let st := s.f (F.FBK_SSI_FMT_st p)
  let mt := s.f (F.FBK_SSI_FMT_mt p)
  let div := s.f (F.FBK_SSI_div p)
  let lead := 4 * s.f (F.FBK_SSI_LEAD_lead p)
  let frame := (len + 1) * (4 * div)
  let tick := 4 * (s.f F.TIME_TICK_PERIOD_period_m1 + 1)
  [mode = 0 ∨ mode = 2 ∧ 4 ≤ p,
   (mode = 1 ∨ mode = 2) ∧ lines = 0 ∨ ib < 2 ∨ 12 < ib ∨
     2 ^ 31 < (if mode = 1 then 4 * lines else if mode = 2 then lines * 2 ^ ib else 2 ^ st) ∨ 9 < s.f (F.FBK_CFG_bw p),
   mode = 2 ∧ ¬ (s.bit F.SNS_SAR_STS_running = true ∧ s.fe (F.SNS_AIN_CFG_role (2 * p)) = 5 ∧
     s.fe (F.SNS_AIN_CFG_role (2 * p + 1)) = 5 ∧
     ∃ k < 2, s.sarSlot k = true ∧ s.sarEntryE 0 k = some (2 * p) ∧ s.sarEntryE 1 k = some (2 * p + 1)),
   div < 25 ∨ 2500 < div ∨ len < 1 ∨ 40 < len ∨ st = 0 ∨ 32 < st + mt ∨ len < st + mt ∨
     s.bit (F.FBK_SSI_FMT_err_en p) = true ∧ len ≤ s.f (F.FBK_SSI_FMT_err_bit p),
   mode = 3 ∧ ¬ (frame + 4 * s.f (F.FBK_SSI_dly p) ≤ 1000 + lead ∧ lead < tick ∧
     frame + 1000 * s.f (F.FBK_SSI_rec p) ≤ (s.f (F.FBK_SSI_every_m1 p) + 1) * tick),
   s.bit (F.FBK_CFG_lim_en p) = true ∧ s.fi (F.FBK_LIM_HI_hi p) ≤ s.fi (F.FBK_LIM_LO_lo p)]

/-- pos after it has been set to `v`: clamped while lim_en is 1, a 32-bit count otherwise (R291). -/
def limited (s : State) (p : Nat) (v : Int) : Int :=
  if s.bit (F.FBK_CFG_lim_en p) then max (s.fi (F.FBK_LIM_LO_lo p)) (min (s.fi (F.FBK_LIM_HI_hi p)) v)
  else (BitVec.ofInt 32 v).toInt

/-- R284, R295: enable, disable, validity and the clears of a port. -/
def portSwitch : Prop :=
  ∀ (s : State) (n : Fin 8), s.pwr.mainRst = false →
    let fails := portFails s n
    let mode := s.f (F.FBK_CFG_mode n)
    let x := s.port n
    let gone := (s.f (F.FBK_STS_fault_src n) = 1 → x.ampOk = true) ∧ (s.f (F.FBK_STS_fault_src n) = 4 → x.ssiGood = true) ∧
      (s.f (F.FBK_STS_fault_src n) = 2 → ∀ t ∈ x.illegal.head?, t + 4096 < s.now)
    (s.portOn n = false →
      (∀ k < 6, (∀ j < k, ¬ fails.getD j False) → fails.getD k False →
        Machine.exec (.portEnable n) s = .next (s.setF (F.FBK_STS_error n) (k + 1))) ∧
      ((∀ k < 6, ¬ fails.getD k False) → Does (.portEnable n) s fun t =>
        t.portOn n = true ∧ t.bit (F.FBK_STS_enabled n) = true ∧ t.f (F.FBK_STS_error n) = 0 ∧
        t.bit (F.FBK_STS_referenced n) = false ∧ t.bit (F.FBK_STS_fault n) = false ∧
        t.bit (F.FBK_STS_valid n) = false ∧ t.fi (F.FBK_POS_pos n) = 0 ∧
        t.f (F.FBK_CPR_cpr n) = (if mode = 1 then 4 * s.f (F.FBK_RES_lines n) else if mode = 2 then
          s.f (F.FBK_RES_lines n) * 2 ^ s.f (F.FBK_CFG_ib n) else 2 ^ s.f (F.FBK_SSI_FMT_st n)) ∧
        t.fe (F.FBK_CFG_mode n) = mode ∧ t.fe (F.FBK_CFG_bw n) = s.f (F.FBK_CFG_bw n) ∧
        Keeps s t [0xD, 0x12] ∧ t.tm = s.tm)) ∧
    (Does (.portDisable n) s fun t => t.portOn n = false ∧ t.bit (F.FBK_STS_enabled n) = false ∧
      t.bit (F.FBK_STS_valid n) = false ∧ t.bit (F.FBK_CMP_STS_armed n) = false ∧ Keeps s t [0xD, 0x12] ∧ t.tm = s.tm) ∧
    (Machine.exec (.refClear n) s = .next (s.setF (F.FBK_STS_referenced n) 0)) ∧
    (¬ gone → Machine.exec (.portClear n) s = .next (s.setF ⟨R.FBK_FLAGS n, 5, 1⟩ 1)) ∧
    (gone → Does (.portClear n) s fun t => t.bit (F.FBK_STS_fault n) = false ∧ t.f (F.FBK_STS_fault_src n) = 0 ∧
      t.bit (F.FBK_STS_valid n) = false ∧ (t.port n).seen = 0 ∧ (t.port n).ticks = 0 ∧
      t.bit (F.FBK_STS_referenced n) = (s.bit (F.FBK_STS_referenced n) && s.f (F.FBK_STS_fault_src n) != 3) ∧
      t.fi (F.FBK_POS_pos n) = s.fi (F.FBK_POS_pos n) ∧ Keeps s t [0xD, 0x12] ∧ t.tm = s.tm) ∧
    (s.portOn n = true → 8 ≤ x.ticks → 2 * 10 ^ 9 ≤ x.ticks * (10 * 2 ^ s.fe (F.FBK_CFG_bw n) * s.obsT) → 0 < s.obsT →
      Does (.portSettled n) s fun t => t.bit (F.FBK_STS_valid n) =
        (!s.bit (F.FBK_STS_fault n) && (s.portMode n != 3 || x.ssiGood)) ∧ Keeps s t [0xD, 0x12] ∧ t.tm = s.tm) ∧
    (s.portOn n = false ∨ x.ticks < 8 → Machine.exec (.portSettled n) s = .next s)

/-- R285, R287, R291, R293: tracks, index and amplitude. -/
def portTracks : Prop :=
  ∀ (s : State) (n : Fin 8), s.pwr.mainRst = false →
    let x := s.port n
    let pos := s.fi (F.FBK_POS_pos n)
    let cpr := s.f (F.FBK_CPR_cpr n)
    let faulted := fun (t : State) (cause ev : Nat) => t.bit (F.FBK_STS_fault n) = true ∧
      t.f (F.FBK_STS_fault_src n) = cause ∧ t.bit (F.FBK_STS_valid n) = false ∧ t.bit (pendFld ev) = true
    (∀ (b : Bool) (held : Nat), held ≤ s.fe (F.FBK_CFG_filt n) →
      Machine.exec (.quadratureCount ⟨n, held⟩ b) s = .next s ∧ Machine.exec (.illegalTransition ⟨n, held⟩) s = .next s ∧
      Machine.exec (.index ⟨n, b, held⟩) s = .next s) ∧
    (∀ (b : Bool) (held : Nat), s.fe (F.FBK_CFG_filt n) < held →
      let up := b == (x.a != x.b)
      let d : Int := if up != s.bitE (F.FBK_CFG_dir n) then 1 else -1
      Does (.quadratureCount ⟨n, held⟩ b) s fun t =>
        (t.port n).a = (x.a != !b) ∧ (t.port n).b = (x.b != b) ∧ t.tm = s.tm ∧
        (s.portOn n = true → s.portMode n = 1 → (t.port n).u = x.u + d ∧
          (0 < cpr → ((t.port n).ang : Int) = (x.ang + d) % cpr) ∧ t.fi (F.FBK_POS_pos n) = limited s n (pos + d) ∧
          Keeps s t [0xD, 0x12]) ∧
        (s.portOn n = true → s.portMode n = 1 → (t.port n).q = x.q + d) ∧
        (s.portOn n = true → s.portMode n = 2 → (t.port n).q = x.q - d) ∧
        (¬ (s.portOn n = true ∧ s.portMode n = 1) → t.regs = s.regs ∧ t.mem = s.mem)) ∧
    (∀ held, s.fe (F.FBK_CFG_filt n) < held → Does (.illegalTransition ⟨n, held⟩) s fun t =>
      (t.port n).a = !x.a ∧ (t.port n).b = !x.b ∧ t.fi (F.FBK_POS_pos n) = pos ∧ (t.port n).ang = x.ang ∧
      (s.portOn n = true → s.portMode n = 1 ∨ s.portMode n = 2 →
        t.f (F.FBK_CNT_illegal n) = min 0xFFFF (s.f (F.FBK_CNT_illegal n) + 1) ∧
        (∀ i j k, x.illegal = [i, j, k] → s.now ≤ k + 1024 * 4 → faulted t 2 29) ∧
        (x.illegal.length < 3 → t.bit (F.FBK_STS_fault n) = s.bit (F.FBK_STS_fault n))) ∧
      (s.portOn n = false → t.regs = s.regs)) ∧
    (let counts := s.portOn n = true ∧ s.portMode n = 1 ∧ s.bitE (F.FBK_IDX_idx_en n) = true ∧
       (s.bitE (F.FBK_CFG_z_gate n) = true → x.a = true ∧ x.b = true)
     let ref := s.f (F.FBK_IDX_REF_ref n)
     let edge := fun (level : Bool) (held : Nat) => s.fe (F.FBK_CFG_filt n) < held ∧ s.portMode n ≠ 3 ∧ x.z ≠ level ∧
       level ≠ s.bitE (F.FBK_CFG_z_pol n)
     (∀ level held, s.portMode n = 3 ∨ x.z = level → Machine.exec (.index ⟨n, level, held⟩) s = .next s) ∧
     (∀ level held, s.fe (F.FBK_CFG_filt n) < held → s.portMode n ≠ 3 → x.z ≠ level →
       level = s.bitE (F.FBK_CFG_z_pol n) ∨ ¬ counts →
       Machine.exec (.index ⟨n, level, held⟩) s = .next (s.setPort n { x with z := level })) ∧
     (∀ level held, edge level held → counts → s.bit (F.FBK_STS_referenced n) = false → Does (.index ⟨n, level, held⟩) s fun t =>
       (t.port n).z = level ∧
       t.f (F.FBK_IDX_STS_count n) = (s.f (F.FBK_IDX_STS_count n) + 1) % 2 ^ 16 ∧
       t.f (F.FBK_IDX_REF_ref n) = x.ang % 2 ^ 32 ∧
       (s.bit (F.FBK_IDX_set_pos n) = false → t.bit (F.FBK_STS_referenced n) = true ∧ t.fi (F.FBK_POS_pos n) = pos) ∧
       (s.bit (F.FBK_IDX_set_pos n) = true → t.fi (F.FBK_POS_pos n) = limited s n (s.fi (F.FBK_IDX_POS_value n))) ∧
       Keeps s t [0xD, 0x12]) ∧
     (∀ level held, edge level held → counts → s.bit (F.FBK_STS_referenced n) = true → 0 < cpr →
       ∀ d : Int, (x.ang - ref - d) % cpr = 0 →
       -(cpr : Int) < 2 * d → 2 * d ≤ cpr → Does (.index ⟨n, level, held⟩) s fun t =>
         t.f (F.FBK_IDX_STS_count n) = (s.f (F.FBK_IDX_STS_count n) + 1) % 2 ^ 16 ∧
         t.fi (F.FBK_IDX_STS_dev n) = max (-2 ^ 15) (min (2 ^ 15 - 1) d) ∧
         (d.natAbs ≤ s.f (F.FBK_IDX_tol n) → (t.port n) = { x with z := level } ∧ t.fi (F.FBK_POS_pos n) = pos ∧ Keeps s t [0xD]) ∧
         (s.f (F.FBK_IDX_tol n) < d.natAbs → t.bit (pendFld 30) = true ∧
           t.bit ⟨R.FBK_FLAGS n, 1, 1⟩ = true ∧
           (s.f (F.FBK_IDX_idx_mode n) = 0 → (t.port n).ang = x.ang ∧ t.fi (F.FBK_POS_pos n) = pos) ∧
           (s.f (F.FBK_IDX_idx_mode n) = 1 → (t.port n).ang = ref ∧ t.fi (F.FBK_POS_pos n) = limited s n (pos - d)) ∧
           (2 ≤ s.f (F.FBK_IDX_idx_mode n) → (t.port n).ang = x.ang ∧ t.fi (F.FBK_POS_pos n) = pos ∧ faulted t 3 30)))) ∧
    (let out := s.portOn n = true ∧ s.portMode n = 2 ∧ max 1 (s.f (F.FBK_SC_AMP_amp_n n)) < x.ampOut ∧
       x.ampTold = false
     (out → Does (.amplitudeFault n) s fun t => faulted t 1 28 ∧ t.bit ⟨R.FBK_FLAGS n, 2, 1⟩ = true ∧
       (t.port n).ampTold = true ∧
       t.fi (F.FBK_POS_pos n) = pos) ∧
     (¬ out → Machine.exec (.amplitudeFault n) s = .next s))

/-- R288–R291, R294: SSI frames and the observer. `raw` is the position as received, `v` its binary value. -/
def portFrames : Prop :=
  ∀ (s : State) (n : Fin 8), s.pwr.mainRst = false →
    let x := s.port n
    let ssi := s.portOn n = true ∧ s.portMode n = 3
    let st := s.fe (F.FBK_SSI_FMT_st n)
    let mt := s.fe (F.FBK_SSI_FMT_mt n)
    let lead := 4 * s.fe (F.FBK_SSI_LEAD_lead n)
    let m := s.fe (F.FBK_SSI_every_m1 n) + 1
    let count := s.f F.TIME_TICK_COUNT_count
    let step := fun (b t lo point k : Nat) => lo ≤ k ∧ point = b + t * k ∧ s.now + lead ≤ point ∧ (k = lo ∨ point < s.now + lead + t)
    let next := fun (point cnt : Nat) =>
      (s.running = true ∧
        ((∃ k, step s.tm.start s.periodNs 0 point k ∧ cnt = count + k ∧ (s.tm.stopping = true → k = 0)) ∨
         (s.tm.stopping = true ∧ s.tm.start < s.now + lead ∧ cnt = 0 ∧ ∃ k, step (s.tm.start + s.periodNs) 100000 1 point k))) ∨
      (s.running = false ∧ s.tm.pend = none ∧ cnt = 0 ∧ ∃ k, step x.idleAt 100000 1 point k) ∨
      ∃ r, s.tm.pend = some r ∧ s.running = false ∧ ∃ i, (∃ k, step x.idleAt 100000 1 i k) ∧
        (i < r.first → cnt = 0 ∧ point = i) ∧ (r.first ≤ i → ∃ k, step r.first (4 * r.period) 0 point k ∧ cnt = k)
    (∀ point cnt, next point cnt →
      let opens := ssi ∧ x.ssiBusy = false ∧ x.ssiPoint ≠ some point ∧ cnt % 2 ^ 32 % m = 0
      (∀ data, opens → Does (.ssiFrameStart n data) s fun t =>
        (s.tm.holdLag = none → t.now + lead = point) ∧ (t.port n).ssiPoint = some point ∧
        (t.port n).ssiBusy = true ∧ (t.port n).ssiAt = t.now ∧ (t.port n).ssiLow = !data ∧ Keeps s t [0xD, 0x12]) ∧
      (∀ data, ¬ opens → Machine.exec (.ssiFrameStart n data) s = .next s)) ∧
    (∀ bits, ¬ (ssi ∧ x.ssiBusy = true) → Machine.exec (.ssiFrameEnd n bits) s = .next s) ∧
    (∀ bits : BitVec 40, ssi → x.ssiBusy = true →
      let err := s.bitE (F.FBK_SSI_FMT_err_en n) = true ∧
        bits.getLsbD (s.fe (F.FBK_SSI_FMT_err_bit n)) = s.bitE (F.FBK_SSI_FMT_err_pol n)
      let bad := x.ssiLow = true ∨ x.ssiFail = true ∨ err
      (bad → Does (.ssiFrameEnd n bits) s fun t =>
        t.f (F.FBK_CNT_ssi_bad n) = min 0xFFFF (s.f (F.FBK_CNT_ssi_bad n) + 1) ∧
        t.bit ⟨R.FBK_FLAGS n, 3, 1⟩ = true ∧ t.bit (F.FBK_STS_valid n) = false ∧ (t.port n).ssiGood = false ∧
        (t.port n).ssiBadRow = x.ssiBadRow + 1 ∧ t.fi (F.FBK_POS_pos n) = s.fi (F.FBK_POS_pos n) ∧
        (x.ssiBadRow = 1 → t.bit (pendFld 31) = true ∧ t.bit (F.FBK_STS_fault n) = true ∧
          t.f (F.FBK_STS_fault_src n) = 4)) ∧
      (¬ bad → x.ssiFirst = true → x.lastSt = none → x.turns = 0 → st + mt ≤ 32 → ∀ raw v : Nat, raw < 2 ^ (st + mt) →
        v < 2 ^ (st + mt) → (∀ i < st + mt, raw.testBit (st + mt - 1 - i) = bits.getLsbD i) →
        (if s.bitE (F.FBK_SSI_FMT_gray n) then v ^^^ (v / 2) else v) = raw →
        Does (.ssiFrameEnd n bits) s fun t =>
          t.f (F.FBK_SSI_RAW_raw n) = raw ∧ (t.port n).ang = v % 2 ^ st ∧ (t.port n).ssiGood = true ∧
          (t.port n).ssiBadRow = 0 ∧ t.f (F.FBK_CNT_ssi_bad n) = s.f (F.FBK_CNT_ssi_bad n) ∧
          (mt = 0 → t.fi (F.FBK_POS_pos n) = limited s n v) ∧
          (0 < mt → t.fi (F.FBK_POS_pos n) = limited s n (BitVec.ofNat (st + mt) v).toInt))) ∧
    (let seen := fun (y : PortSt) (t : State) (tmNs : Nat) => ∀ m tm, y.meas = some (m, tm) → 0 < tmNs →
       let g : Int := (obsGain (s.fe (F.FBK_CFG_bw n)) tmNs : Nat)
       let o : Int := 2 ^ 60
       let e := m * 2 ^ 32 - (y.th + y.w * tm / 10 ^ 9 + y.acc * tm * tm / (2 * 10 ^ 18))
       (y.seen = 0 → (t.port n).th = m * 2 ^ 32 ∧ (t.port n).w = 0 ∧ (t.port n).acc = 0) ∧
       (y.seen = 1 → (t.port n).w = (m - y.first) * 2 ^ 32 * 10 ^ 9 / tmNs) ∧
       (2 ≤ y.seen → (t.port n).th = y.th + (o ^ 3 - g ^ 3) * e / o ^ 3 ∧
         (t.port n).w = y.w + 3 * (o - g) ^ 2 * (o + g) * e * 10 ^ 9 / (2 * o ^ 3 * tmNs) ∧
         (t.port n).acc = y.acc + (o - g) ^ 3 * e * 10 ^ 18 / (o ^ 3 * tmNs * tmNs))
     (s.running = true → s.portOn n = true → Does (.feedbackObserverUpdate n) s fun t => seen x t (s.obsTm n) ∧
       (t.port n).meas = none ∧ t.fi (F.FBK_POS_pos n) = s.fi (F.FBK_POS_pos n) ∧
       (x.meas = none → (t.port n).th = x.th ∧ (t.port n).w = x.w ∧ (t.port n).acc = x.acc) ∧
       (s.tm.holdLag = none → t.now = max s.now (s.tm.start + 1000)) ∧ Keeps s t [0xD, 0x12]) ∧
     (s.running = false → Machine.exec (.feedbackObserverUpdate n) s = .next s) ∧
     (s.running = false → s.portOn n = true → Does (.feedbackIdleCycle n) s fun t =>
       (t.port n).ticks = x.ticks + 1 ∧ (t.port n).idleAt = x.idleAt + 100000 ∧
       (s.tm.holdLag = none → t.now = max s.now (x.idleAt + 100000 + if s.portMode n = 3 then 1000 else 0)) ∧
       (s.portMode n = 1 → x.seen = 0 → (t.port n).th = x.u * 2 ^ 32) ∧ Keeps s t [0xD, 0x12]) ∧
     (s.running = true ∨ s.portOn n = false → Machine.exec (.feedbackIdleCycle n) s = .next s))

/-- R298–R301: the position compare and the encoder emulation. -/
def portCompare : Prop :=
  ∀ s : State, s.pwr.mainRst = false →
    (∀ (n : Fin 8) (val : BitVec 32), Does (.compareArm n val) s fun t =>
      t.reg (R.FBK_CMP_CFG n) = val &&& 0xFF0FFFFF ∧ t.tm = s.tm ∧ Keeps s t [0xD, 0x14] ∧
      if val.toNat % 2 ^ 16 = 0 ∨ s.f (F.FBK_CMP_PITCH_pitch n) = 0 then t.bit (F.FBK_CMP_STS_armed n) = false
      else t.bit (F.FBK_CMP_STS_armed n) = true ∧ t.f (F.FBK_CMP_STS_remaining n) = val.toNat % 2 ^ 16 ∧
        t.f (F.FBK_CMP_CUR_value n) = s.f (F.FBK_CMP_START_start n)) ∧
    (∀ n : Fin 8,
      let x := s.port n
      let p := s.fi (F.FBK_CMP_PITCH_pitch n)
      let v := s.fi (F.FBK_CMP_CUR_value n)
      let w := s.f (F.FBK_CMP_CFG_width n)
      let rem := s.f (F.FBK_CMP_STS_remaining n)
      (∀ b, x.best = some b → s.bit (F.FBK_CMP_STS_armed n) = true → s.portOn n = true → 0 < rem → p ≠ 0 →
        ((0 < p ∧ v ≤ b ∨ p < 0 ∧ b ≤ v) → Does (.compareHit n) s fun t =>
          t.bit (pendFld 32) = true ∧ t.f (F.FBK_CMP_CUR_value n) = (BitVec.ofInt 32 (v + p)).toNat ∧
          t.f (F.FBK_CMP_STS_remaining n) = rem - 1 ∧ t.bit (F.FBK_CMP_STS_armed n) = decide (1 < rem) ∧
          (rem = 1 → t.bit ⟨R.FBK_FLAGS n, 6, 1⟩ = true) ∧
          (t.port n).pulse = (if w = 0 then x.pulse else some (x.bestSeen + 40 * w)) ∧
          t.f (F.FBK_CMP_STS_merged n) = min 0xFF (s.f (F.FBK_CMP_STS_merged n) +
            if w ≠ 0 ∧ x.pulse ≠ none then 1 else 0) ∧
          Keeps s t [0xD, 0x12] ∧ t.tm = s.tm) ∧
        (0 < p ∧ b < v ∨ p < 0 ∧ v < b → Machine.exec (.compareHit n) s = .next s)) ∧
      (x.best = none ∨ s.bit (F.FBK_CMP_STS_armed n) = false → Machine.exec (.compareHit n) s = .next s) ∧
      (∀ e, x.pulse = some e → Does (.comparePulseEnd n) s fun t => (t.port n).pulse = none ∧ t.regs = s.regs ∧
        t.mem = s.mem ∧ (s.tm.holdLag = none → t.now = max s.now e)) ∧
      (x.pulse = none → Machine.exec (.comparePulseEnd n) s = .next s)) ∧
    (∀ m : Fin 2,
      let e := (s.emu m).e
      let goes := s.bit (F.FBK_EE_CFG_en m) = true ∧ s.bit (F.FBK_EE_STS_hold m) = false ∧ (s.emu m).t ≠ e
      (s.bit (F.FBK_EE_CFG_en m) = true → Machine.exec (.emulationEnable m) s = .next s) ∧
      (s.bit (F.FBK_EE_CFG_en m) = false → Does (.emulationEnable m) s fun t =>
        t.bit (F.FBK_EE_CFG_en m) = true ∧ (t.emu m).e = 0 ∧ (t.emu m).t = 0 ∧
        t.bit (F.FBK_EE_STS_hold m) = !(s.bit (F.FBK_STS_valid (s.f (F.FBK_EE_CFG_src m)))) ∧ t.f (F.FBK_EE_STS_backlog m) = 0 ∧
        t.fe (F.FBK_EE_CFG_src m) = s.f (F.FBK_EE_CFG_src m) ∧ Keeps s t [0xD] ∧ t.tm = s.tm) ∧
      (goes → Does (.emulatorStep m) s fun t =>
        (t.emu m).e = (if e < (s.emu m).t then e + 1 else e - 1) ∧ (t.emu m).stepAt = t.now ∧
        (s.tm.holdLag = none → t.now = max s.now ((s.emu m).stepAt + 4 * s.fe (F.FBK_EE_GAP_gap m))) ∧
        Keeps s t [0xD, 0x12]) ∧
      (¬ goes → Machine.exec (.emulatorStep m) s = .next s))

/-- R283–R301: the feedback ports. Clauses on the correction of an index rest on log entry 60, on the observer's gain, in units
of 2^-60, on log entry 75, on a multiturn reading and the levels of FZ on log entry 115. The model's choices besides: a refused
enable leaves en at 0 (log entry 22), an enable of an enabled emulation changes nothing (log entry 12), nor does an event
without its condition (log entry 13). -/
def Obligations.FeedbackPorts : Prop := portSwitch ∧ portTracks ∧ portFrames ∧ portCompare
/-! ## Motion -/

/-- The failing conditions of the checks of R308 on axis `n`, in their order. -/
def axisFails (s : State) (n : Nat) : List Prop :=
  let u := s.f (F.MOT_BIND_unit n)
  let src := s.f (F.MOT_CTL_src n)
  let w := s.f (F.MOT_WINCH_mode n)
  let g : F32 := s.reg (R.MOT_GEAR n)
  let kp : F32 := s.reg (R.MOT_KP n)
  let l := s.f (F.MOT_BIND_leader n)
  let mode := s.fe (F.FLD_CTL_ref_mode u)
  [s.part.lanes ≤ u ∨ s.unitOn u = false ∨ s.portOn (s.f (F.MOT_BIND_port n)) = false ∨
     (∃ m < 8, m ≠ n ∧ s.bit (F.MOT_CTL_en m) = true ∧ s.axisUnit m = u),
   src = 3 ∨ src < 2 ∧ (mode ≠ 2 ∨ s.bitE (F.FLD_CTL_curve_en u) = true) ∨ src = 2 ∧ mode ≠ 1 ∨ w = 3 ∨ w ≠ 0 ∧ src ≠ 0,
   fIsNan g = true ∨ fIsInf g = true ∨ fLe g fZero = true ∨ fIsNan kp = true ∨ fLt kp fZero = true,
   src = 2 ∧ (l = n ∨ s.bit (F.MOT_CTL_en l) = false ∨ s.axisSrc l = 2),
   s.f (F.MOT_STAND_stand_t n) ≠ 0 ∧ (s.bit (F.MOT_CTL_own_run n) = false ∨ src ≠ 0),
   s.bit (F.MOT_CTL_vlim_en n) = true ∧ s.fi (F.MOT_VLIM_HI_hi n) ≤ s.fi (F.MOT_VLIM_LO_lo n)]

/-- Axis fault `c` (R317): the cause is recorded, and in HOLD, MOVE or HOME the axis stops at the couch. -/
def Faulted (s t : State) (n c : Nat) : Prop :=
  t.f (F.MOT_STS_cause n) = c ∧
    (t.axis n).fault = if s.mot n = 2 ∨ s.mot n = 3 ∨ s.mot n = 5 then c else (s.axis n).fault

/-- R308–R310, R317, R321, R323, R325: enable, disable and the commands of an axis. An enable of an enabled axis and a disable
of a disabled one change nothing (log entry 12), and a refused enable leaves en at 0 (log entry 22): the model's choices. -/
def axisCommands : Prop :=
  ∀ (s : State) (n : Fin 8), s.pwr.mainRst = false →
    let fails := axisFails s n
    let st := s.mot n
    let x := s.axis n
    let flag := fun b => Host.Outcome.next (s.setF ⟨R.MOT_FLAGS n, b, 1⟩ 1)
    let leads := ∃ m < 8, s.bit (F.MOT_CTL_en m) = true ∧ s.axisSrc m = 2 ∧ s.fe (F.MOT_BIND_leader m) = n
    let m := s.f (F.MOT_HOME_method n)
    let p := s.axisPort n
    let mayHome := (st = 2 ∨ st = 6) ∧ m ≠ 0 ∧ s.bit (F.MOT_STS_hl_latched n) = false ∧
      (m ≠ 1 → s.portOn p = true ∧ s.portMode p = 1 ∧ s.bitE (F.FBK_IDX_idx_en p) = true)
    let holds := (s.bit (F.MOT_SW_hi_en n) = true ∧ s.bit (F.MOT_STS_sw_hi n) = s.bit (F.MOT_SW_hi_pol n)) ∨
      (s.bit (F.MOT_SW_lo_en n) = true ∧ s.bit (F.MOT_STS_sw_lo n) = s.bit (F.MOT_SW_lo_pol n)) ∨ s.chatting n x.chgHi = true ∨
      s.chatting n x.chgLo = true
    (s.bit (F.MOT_CTL_en n) = false →
      (∀ k < 6, (∀ j < k, ¬ fails.getD j False) → fails.getD k False →
        Machine.exec (.axisEnable n) s = .next (s.setF (F.MOT_STS_error n) (k + 1))) ∧
      ((∀ k < 6, ¬ fails.getD k False) → Does (.axisEnable n) s fun t =>
        t.bit (F.MOT_CTL_en n) = true ∧ t.mot n = 1 ∧ t.f (F.MOT_STS_error n) = 0 ∧
        t.axisUnit n = s.f (F.MOT_BIND_unit n) ∧ t.axisPort n = s.f (F.MOT_BIND_port n) ∧
        t.axisSrc n = s.f (F.MOT_CTL_src n) ∧ Keeps s t [0xE] ∧ t.tm = s.tm) ∧
      Machine.exec (.axisDisable n) s = .next s) ∧
    (s.bit (F.MOT_CTL_en n) = true →
      Machine.exec (.axisEnable n) s = .next s ∧
      (leads ∨ ¬ (st = 0 ∨ st = 1 ∨ st = 2 ∨ st = 6) → Machine.exec (.axisDisable n) s = flag 0) ∧
      (¬ leads → st = 0 ∨ st = 1 ∨ st = 2 ∨ st = 6 → Does (.axisDisable n) s fun t =>
        t.bit (F.MOT_CTL_en n) = false ∧ t.mot n = 0 ∧ Keeps s t [0xE] ∧ t.tm = s.tm ∧
        ∀ k ∈ [0, 3, 5], tblFind (t.unit (s.axisUnit n)).ovr k = none)) ∧
    (st = 3 ∨ st = 5 → Machine.exec (.stopRequest n) s = .next (s.setAxis n { x with stopReq := true })) ∧
    (¬ (st = 3 ∨ st = 5) → Machine.exec (.stopRequest n) s = .next s) ∧
    (mayHome → Machine.exec (.homeCommand n) s = .next (s.setAxis n { x with homeReq := true })) ∧
    (¬ mayHome → Machine.exec (.homeCommand n) s = flag 2) ∧
    (holds → Machine.exec (.axisClear n) s = flag 2) ∧
    (¬ holds → Does (.axisClear n) s fun t => t.bit (F.MOT_STS_hl_latched n) = false ∧ (t.axis n).latchHi = false ∧
      (t.axis n).latchLo = false ∧ t.mot n = st ∧ Keeps s t [0xE] ∧ t.tm = s.tm) ∧
    (∀ val, Does (.offsetWrite n val) s fun t => t.reg (R.MOT_OFS n) = val ∧ t.bit (F.MOT_STS_homed n) = false ∧
      t.mot n = st ∧ Keeps s t [0xE] ∧ t.tm = s.tm)

/-- R313, R318: one couch of a POSITION move from `x` toward `pt`, to `r`; `brk` asks for ad = −D. -/
def PosStep (x : SetPt) (pt : Int) (v a d j t tol : F32) (brk : Bool) (r : SetPt × Bool) : Prop :=
  let e := ofFix (pt - x.p)
  let g := if fEq e fZero = true then fSgn x.v else fSgn e
  let u := fmul g x.v
  let al := fmul g x.a
  let ue := fadd u (fdiv (fmul al (fAbs al)) (fmul fTwo j))
  let ss := if fGt ue fZero = true then fdiv (fmul ue (fadd (fdiv ue d) (fdiv d j))) fTwo else fZero
  let near := fGt u fZero = true ∧ (brk = true ∨ fLe (fmul g e) (fadd ss (fmul u t)) = true)
  let fits := fun (ad : F32) (stops : Bool) =>
    let an := fadd al (fBand (fmul j t) (fsub ad al))
    let un := fadd u (fdiv (fmul (fadd al an) t) fTwo)
    let halts := stops = true ∧ fGt u fZero = true ∧ fLt un fZero = true
    let uw := if halts then fZero else un
    let q : SetPt := ⟨x.p + fixOf (fdiv (fmul (fmul g (fadd u uw)) t) fTwo), fmul g uw, fmul g (if halts then fZero else an)⟩
    let done := fLe (fAbs (ofFix (pt - q.p))) tol = true ∧ fLe (fAbs q.v) (fmul d t) = true
    (done → r = (⟨pt, fZero, fZero⟩, true)) ∧ (¬ done → r = (q, false))
  (near → fits (fNeg d) true) ∧
  (¬ near → fLt u fZero = true → fits d false) ∧
  (¬ near → fLt u fZero = false → fGt u v = true → fits (fNeg d) true) ∧
  (¬ near → fLt u fZero = false → fGt u v = false → fLt ue v = true → fits a false) ∧
  (¬ near → fLt u fZero = false → fGt u v = false → fLt ue v = false → fits fZero false)

/-- R314: one couch of a SPEED move or a stop from `x` toward speed `vt`, to `r`. -/
def SpeedStep (x : SetPt) (vt a d j t : F32) (r : SetPt × Bool) : Prop :=
  let dv := fsub vt x.v
  let q := if fLe fZero dv = true then fOne else fNeg fOne
  let l := if fLe fZero (fmul x.v vt) = true ∧ fGt (fAbs vt) (fAbs x.v) = true then a else d
  let ends := fGt (fmul q x.a) fZero = true ∧ fLe (fmul q dv) (fdiv (fmul x.a x.a) (fmul fTwo j)) = true
  let an := fadd x.a (fBand (fmul j t) (fsub (if ends then fZero else fmul q l) x.a))
  let vn := fadd x.v (fdiv (fmul (fadd x.a an) t) fTwo)
  let p := fun w => x.p + fixOf (fdiv (fmul (fadd x.v w) t) fTwo)
  (fLe (fmul q (fsub vt vn)) fZero = true → r = (⟨p vt, vt, fZero⟩, true)) ∧
  (fLe (fmul q (fsub vt vn)) fZero = false → r = (⟨p vn, vn, an⟩, false))

/-- R311–R316, R319, R321: what starts, refuses, carries on and ends a move at a couch. That an axis whose setpoint stands beyond a
limit, or whose switch is latched, refuses a move of no direction there is the model's choice (log entry 22). -/
def axisMoves : Prop :=
  (∀ x pt v a d j t tol brk, PosStep x pt v a d j t tol brk (posStep x pt v a d j t tol brk)) ∧
  (∀ x vt a d j t, SpeedStep x vt a d j t (speedStep x vt a d j t)) ∧
  ∀ (s : State) (n : Fin 8),
    let x := s.axis n
    let st := s.mot n
    let u := s.axisUnit n
    let run := s.f (F.FLD_STS_state u) = 4
    let fresh := s.f (F.MOT_TGT7_seq n) ≠ x.seq
    let kind := s.f (F.MOT_TGT7_kind n)
    let t0 := s.fi (F.MOT_TGT0_pos n) * 65536
    let pt := if s.bit (F.MOT_TGT7_rel n) = true then wrapP (x.p + t0) else t0
    let ptc := match s.vlim n with | some (lo, hi) => max lo (min hi pt) | none => pt
    let up := (kind = 1 ∧ x.p < pt) ∨ (kind = 2 ∧ fLt fZero (s.tgt n 1) = true)
    let down := (kind = 1 ∧ pt < x.p) ∨ (kind = 2 ∧ fLt (s.tgt n 1) fZero = true)
    let bars := (s.bit (F.MOT_STS_hl_latched n) = true ∧ (x.latchHi = true ∧ up ∨ x.latchLo = true ∧ down)) ∨
      (∃ l ∈ s.vlim n, l.2 < x.p ∧ ¬ down ∨ x.p < l.1 ∧ ¬ up)
    let refused := (∃ k < 4, fLt fZero (s.tgt n (k + 2)) = false) ∨ (kind = 2 ∧ fIsNan (s.tgt n 1) = true) ∨ s.winch n = 2 ∨
      s.axisSrc n ≠ 0 ∨ bars
    let t := s.axisTransition n
    (st = 2 ∨ st = 3 → run → x.fault = 0 → x.stopReq = false → x.homeReq = false →
      (¬ fresh → t = s) ∧
      (fresh → kind = 1 ∨ kind = 2 → refused → t = s.setF ⟨R.MOT_FLAGS n, 1, 1⟩ 1) ∧
      (fresh → kind = 1 ∨ kind = 2 → ¬ refused → t.mot n = 3 ∧ (t.axis n).kind = kind ∧ (t.axis n).pt = ptc ∧
        (t.axis n).vt = s.tgt n 1 ∧ (t.axis n).clamped = decide (ptc ≠ pt) ∧ (t.axis n).pt3 = x.pt3)) ∧
    (st = 3 → run → x.fault = 0 → x.stopReq = true ∨ (fresh ∧ (kind = 0 ∨ kind = 3)) → t.mot n = 4 ∧
      t.f (F.MOT_STS_cause n) = 1 ∧ (t.axis n).fromMove = true ∧ (t.axis n).byFault = false ∧ (t.axis n).pt3 = x.pt3) ∧
    (st = 2 ∨ st = 3 ∨ st = 5 → run → x.fault ≠ 0 → x.homeEnd = 0 → t.mot n = 4 ∧ (t.axis n).byFault = true ∧
      (t.axis n).fromMove = decide (st = 3) ∧ (t.axis n).pt3 = x.pt3) ∧
    (2 ≤ st → st ≤ 5 → ¬ run → t.mot n = 1 ∧
      t.f (F.MOT_STS_cause n) = (if st = 5 ∧ x.fault ≠ 3 then 7 else 8) ∧
      (st = 3 → t.f (F.MOT_STS_outcome n) = 3 ∧ t.bit (pendFld 38) = true) ∧
      (st = 5 → t.f (F.MOT_STS_home_res n) = 4 ∧ t.bit (pendFld 37) = true)) ∧
    (let m := s.axisMotion n
     let y := m.axis n
     let ts := s.tSec
     let stop := speedStep x.pt3 fZero (s.axisDs n) (s.axisDs n) (s.stopJ n) ts
     s.winch n ≠ 2 → s.vlim n = none →
      (st = 3 → s.axisSrc n = 0 → x.kind = 1 →
        let neg := x.pt < x.p ∨ x.pt = x.p ∧ fLt x.v fZero = true
        let r := posStep x.pt3 x.pt (s.axisV n neg) (s.axisA n) (s.axisD n) (s.tgt n 5) ts
          (fOfInt (s.f (F.MOT_TOL_tol n))) false
        y.pt3 = ⟨wrapP r.1.p, r.1.v, r.1.a⟩ ∧ (r.2 = false → m.mot n = 3 ∧ m.regs = s.regs) ∧
        (r.2 = true → m.mot n = 2 ∧ m.f (F.MOT_STS_outcome n) = (if x.clamped = true then 2 else 0) ∧
          m.bit (pendFld 38) = true)) ∧
      (st = 3 → s.axisSrc n = 0 → x.kind = 2 →
        let v := s.axisV n (fLt x.vt fZero)
        let r := speedStep ⟨s.axisFix n, x.v, x.a⟩ (fBand v x.vt) (s.axisA n) (s.axisD n) (s.tgt n 5) ts
        y.v = r.1.v ∧ y.a = r.1.a ∧ (r.2 = false → m.mot n = 3) ∧
        (r.2 = true → m.mot n = 2 ∧ m.f (F.MOT_STS_outcome n) = 0 ∧ m.bit (pendFld 38) = true)) ∧
      (st = 4 → y.pt3 = ⟨wrapP stop.1.p, stop.1.v, stop.1.a⟩ ∧
        (fEq stop.1.v fZero = false → m.mot n = 4 ∧ m.regs = s.regs) ∧
        (fEq stop.1.v fZero = true → m.mot n = 2 ∧ (x.fromMove = false → m.bit (pendFld 38) = s.bit (pendFld 38)) ∧
          (x.fromMove = true → m.bit (pendFld 38) = true ∧
            m.f (F.MOT_STS_outcome n) = if x.byFault = true then 3 else 1))))

/-- R323–R325: the course of homing. That a second limit may be counted while the axis stops, and that the phase after an
unexpected limit goes on when v has reached 0, are the model's choices (log entry 66). -/
def axisHoming : Prop :=
  ∀ (s : State) (n : Fin 8), s.pwr.mainRst = false →
    let x := s.axis n
    let run := s.f (F.FLD_STS_state (s.axisUnit n)) = 4
    let m := s.f (F.MOT_HOME_method n)
    (s.mot n = 2 → run → x.fault = 0 → x.homeReq = true → s.f (F.MOT_TGT7_seq n) = x.seq →
      let t := s.axisTransition n
      t.mot n = 5 ∧ (t.axis n).phase = (if m = 2 then 4 else 1) ∧ (t.axis n).wantIdx = decide (m = 2) ∧
      (t.axis n).neg = s.bit (F.MOT_HOME_dir n) ∧ (t.axis n).travel = 0 ∧ (t.axis n).limits = 0 ∧ (t.axis n).home = none) ∧
    (s.mot n = 5 → run → x.fault ≠ 3 → 2 ≤ x.homeEnd → x.homeEnd ≤ 3 →
      let t := s.axisTransition n
      t.mot n = 4 ∧ t.f (F.MOT_STS_home_res n) = x.homeEnd ∧ t.f (F.MOT_STS_cause n) = 7 ∧ t.bit (pendFld 37) = true ∧
      t.bit (F.MOT_STS_homed n) = s.bit (F.MOT_STS_homed n) ∧ t.f (F.MOT_OFS_ofs n) = s.f (F.MOT_OFS_ofs n)) ∧
    (∀ (high : Bool) (held : Nat),
      let pol := s.bit (if high then F.MOT_SW_hi_pol n else F.MOT_SW_lo_pol n)
      let sw := if high then F.MOT_STS_sw_hi n else F.MOT_STS_sw_lo n
      let g := s.f (if high then F.MOT_SW_gpio_hi n else F.MOT_SW_gpio_lo n)
      let ph := if x.phase = 6 then x.after else x.phase
      let searched := m ≠ 2 ∧ (high = !s.bit (F.MOT_HOME_dir n)) ∧ 1 ≤ ph ∧ ph ≤ 3
      let counts := s.bit (if high then F.MOT_SW_hi_en n else F.MOT_SW_lo_en n) = true ∧ s.f (F.MOT_DEB_deb n) < held ∧
        s.bit sw ≠ s.gpioLevel g
      let ends := fun (P : AxisSt → Prop) => Does (.limitSwitchChange n high held) s fun t => t.bit sw = s.gpioLevel g ∧
        t.mot n = 5 ∧ Keeps s t [0xE] ∧ P (t.axis n)
      s.mot n = 5 → counts →
        (s.gpioLevel g = pol → ¬ searched → x.limits = 0 → x.phase ≠ 5 → x.phase ≠ 6 →
          ends fun y => y = { x with limits := 1, phase := 6, after := x.phase }) ∧
        (s.gpioLevel g = pol → ¬ searched → 1 ≤ x.limits → ends fun y => y = { x with limits := 2, homeEnd := 2 }) ∧
        (s.gpioLevel g = pol → searched → ends fun y => y = x) ∧
        (s.gpioLevel g ≠ pol → searched → 2 ≤ ph →
          (m = 1 → ends fun y => y = { x with home := some (signed 32 (unsigned 32
            (s.posAtSample (s.axisPort n) (s.now / 100000 - (held - 1)) + s.fi (F.MOT_OFS_ofs n)))) }) ∧
          (m ≠ 1 → x.phase = 3 → ends fun y => y = { x with phase := 4, wantIdx := true })) ∧
        (s.gpioLevel g ≠ pol → ¬ searched → ends fun y => y = x)) ∧
    (let t := s.homeCouch n
     let y := t.axis n
     let high := !s.bit (F.MOT_HOME_dir n)
     let found := s.switchActive n high
     let stops := x.phase = 2 ∨ x.phase = 5 ∨ x.phase = 6 ∨ x.phase = 1 ∧ found = true
     let vt := fMin (s.axisV n x.neg) (s.reg (if x.phase = 1 then R.MOT_HOME_V n else R.MOT_HOME_C n))
     let r := if stops then speedStep x.pt3 fZero (s.axisDs n) (s.axisDs n) (s.stopJ n) s.tSec
       else speedStep x.pt3 (if x.neg then fNeg vt else vt) (s.axisA n) (s.axisD n) (s.tgt n 5) s.tSec
     let far := s.f (F.MOT_HOME_max n) ≠ 0 ∧ 4096 * s.f (F.MOT_HOME_max n) * 65536 < x.travel + (r.1.p - x.p).natAbs
     let still := stops ∧ fEq r.1.v fZero = true
     s.mot n = 5 →
      (∀ h, x.home = some h → 3 ≤ x.phase → s.f (F.MOT_HOME_max n) = 0 →
        let d := s.fi (F.MOT_HOME_POS_pos n) - h
        t.f (F.MOT_OFS_ofs n) = unsigned 32 (s.fi (F.MOT_OFS_ofs n) + d) ∧ y.home = none ∧
        (let r := speedStep ⟨wrapP (x.p + d * 65536), x.v, x.a⟩ fZero (s.axisDs n) (s.axisDs n) (s.stopJ n) s.tSec
         y.pt3 = ⟨wrapP r.1.p, r.1.v, r.1.a⟩ ∧ (fEq r.1.v fZero = false → t.mot n = 5 ∧ y.phase = 5) ∧
         (fEq r.1.v fZero = true → t.mot n = 2 ∧ t.bit (F.MOT_STS_homed n) = true ∧ t.f (F.MOT_STS_home_res n) = 1 ∧
           t.bit (pendFld 36) = true))) ∧
      (x.home = none → y.pt3 = ⟨wrapP r.1.p, r.1.v, r.1.a⟩ ∧ t.f (F.MOT_OFS_ofs n) = s.f (F.MOT_OFS_ofs n) ∧
        (far → x.phase ≠ 5 → x.fault ≠ 3 → t.mot n = 4 ∧ t.f (F.MOT_STS_home_res n) = 3 ∧ t.f (F.MOT_STS_cause n) = 7 ∧
          t.bit (pendFld 37) = true ∧ t.bit (F.MOT_STS_homed n) = s.bit (F.MOT_STS_homed n)) ∧
        (¬ far → ¬ still → t.mot n = 5 ∧ y.phase = (if x.phase = 1 ∧ found = true then 2 else x.phase)) ∧
        (¬ far → still → x.phase = 1 ∨ x.phase = 2 → x.after ≠ 4 → y.phase = 3 ∧ y.neg = !x.neg ∧ t.mot n = 5) ∧
        (¬ far → still → x.phase = 6 → y.phase = x.after ∧ y.neg = !x.neg ∧ t.mot n = 5) ∧
        (still → x.phase = 5 → t.mot n = 2 ∧ t.bit (F.MOT_STS_homed n) = true ∧ t.f (F.MOT_STS_home_res n) = 1 ∧
          t.bit (pendFld 36) = true)))

/-- R317, R318, R321, R322, R336, R338: limits and the axis faults. An event without its condition changes nothing (log entry
13); the count of couches in HOLD, and that a switch that is not enabled does not act, follow log entry 116: the model's
choices. -/
def axisFaults : Prop :=
  (∀ (s : State) (n : Nat) (x y : SetPt), s.vlim n = none → s.limitCut n x y = (y, false)) ∧
  (∀ (s : State) (n : Nat) (x y : SetPt) (lo hi : Int), s.vlim n = some (lo, hi) →
    (x.p ≤ hi → hi < y.p → s.limitCut n x y = (⟨hi, fZero, fZero⟩, decide (x.p ≠ hi))) ∧
    (¬ (x.p ≤ hi ∧ hi < y.p) → lo ≤ x.p → y.p < lo → s.limitCut n x y = (⟨lo, fZero, fZero⟩, decide (x.p ≠ lo))) ∧
    (lo ≤ y.p → y.p ≤ hi → s.limitCut n x y = (y, decide ((y.p = hi ∨ y.p = lo) ∧ x.p ≠ y.p))) ∧
    (hi < x.p → lo ≤ x.p → hi < y.p → lo ≤ y.p → (s.limitCut n x y).1 = y)) ∧
  ∀ (s : State) (n : Fin 8), s.pwr.mainRst = false →
    let u := s.axisUnit n
    let x := s.axis n
    let flagged := fun (t : State) b => t.bit ⟨R.MOT_FLAGS n, b, 1⟩ = true
    (∀ (high : Bool) (held : Nat),
      let g := s.f (if high then F.MOT_SW_gpio_hi n else F.MOT_SW_gpio_lo n)
      let pol := s.bit (if high then F.MOT_SW_hi_pol n else F.MOT_SW_lo_pol n)
      let sw := if high then F.MOT_STS_sw_hi n else F.MOT_STS_sw_lo n
      let en := s.bit (if high then F.MOT_SW_hi_en n else F.MOT_SW_lo_en n)
      let settled := s.f (F.MOT_DEB_deb n) < held
      (en = true → settled → s.bit sw ≠ pol → s.gpioLevel g = pol → s.mot n ≠ 5 → Does (.limitSwitchChange n high held) s fun t =>
        t.bit sw = pol ∧ flagged t 4 ∧ t.bit (F.MOT_STS_hl_latched n) = true ∧ t.bit (pendFld 35) = true ∧
        Faulted s t n 2 ∧ (if high then (t.axis n).latchHi else (t.axis n).latchLo) = true ∧ t.mot n = s.mot n ∧
        (∀ k st, s.unitConv u = some k → s.actionState u (s.f (F.MOT_SW_action n)) = some st →
          t.prot.waiting = s.prot.waiting ++ [⟨k, 10, st, 35, s.now, scopeDrive u⟩]) ∧
        (s.actionState u (s.f (F.MOT_SW_action n)) = none → t.prot = s.prot) ∧ Keeps s t [0xE, 0x12]) ∧
      (en = true → settled → s.bit sw = pol → s.gpioLevel g ≠ pol → s.mot n ≠ 5 →
        Machine.exec (.limitSwitchChange n high held) s = .next (s.setB sw (!pol))) ∧
      (en = false ∨ ¬ settled ∨ s.bit sw = s.gpioLevel g → Machine.exec (.limitSwitchChange n high held) s = .next s) ∧
      (let chatters := en = true ∧ s.chatting n (if high then x.chgHi else x.chgLo) = true
       (chatters → Does (.chatter n high) s fun t => flagged t 5 ∧ t.bit (F.MOT_STS_hl_latched n) = true ∧
         t.bit (pendFld 35) = true ∧ Faulted s t n 3 ∧ t.prot = s.prot ∧ t.mot n = s.mot n ∧ Keeps s t [0xE, 0x12]) ∧
       (¬ chatters → Machine.exec (.chatter n high) s = .next s))) ∧
    (let moving := 2 ≤ x.ferrRun ∧ (s.mot n = 3 ∨ s.mot n = 5)
     (x.ferrHold < 2 → ¬ moving → Machine.exec (.followingError n) s = .next s) ∧
     (moving → Does (.followingError n) s fun t => flagged t 3 ∧ t.mot n = s.mot n ∧ Keeps s t [0xE] ∧ Faulted s t n 4) ∧
     (2 ≤ x.ferrHold → ¬ moving → Machine.exec (.followingError n) s = .next (s.setF ⟨R.MOT_FLAGS n, 3, 1⟩ 1))) ∧
    (let t10 := s.f (F.MOT_WINCH_slack_t n)
     let slack := s.mot n ≠ 0 ∧ s.winch n ≠ 0 ∧ t10 ≠ 0 ∧ x.slackUp = false ∧ t10 * 10000000 ≤ x.slackNs
     (slack → Does (.slack n) s fun t => flagged t 7 ∧ (t.axis n).slackUp = true ∧ Keeps s t [0xE] ∧
       (s.winch n = 1 → Faulted s t n 5) ∧ (s.winch n ≠ 1 → (t.axis n).fault = x.fault)) ∧
     (¬ slack → Machine.exec (.slack n) s = .next s)) ∧
    (let l := s.fe (F.MOT_BIND_leader n)
     let apart := s.bit (F.MOT_CTL_en n) = true ∧ s.axisSrc n = 2 ∧ 8 ≤ x.syncRun
     (apart → Does (.syncError n) s fun t => flagged t 9 ∧ t.bit ⟨R.MOT_FLAGS l, 9, 1⟩ = true ∧ Faulted s t l 6 ∧
       (s.winch l = 2 → (t.axis l).syncInh = true ∧ t.bit (F.MOT_STS_recovering l) = false) ∧ Keeps s t [0xE]) ∧
     (¬ apart → Machine.exec (.syncError n) s = .next s))

/-- R326, R330–R332: standstill, brake, release, and the enable of a cam. An event without its condition changes nothing: the
model's choice (log entry 13). -/
def axisTimers : Prop :=
  ∀ s : State, s.pwr.mainRst = false →
    (∀ n : Fin 8,
      let x := s.axis n
      let t10 := s.fe (F.MOT_STAND_stand_t n)
      let still := s.mot n = 2 ∧ t10 ≠ 0 ∧ t10 * 10000000 ≤ x.stand
      (still → Does (.standstillTimer n) s fun t => t.mot n = 6 ∧ t.bit (pendFld 40) = true ∧ (t.axis n).parkAt = s.now ∧
        (t.axis n).coiled = false ∧ (s.bit (F.MOT_STAND_sbc_en n) = true → t.bit (F.MOT_STS_brake n) = true) ∧
        Keeps s t [0xE, 0x12] ∧ t.tm = s.tm) ∧
      (¬ still → Machine.exec (.standstillTimer n) s = .next s) ∧
      (s.mot n = 6 → x.coiled = false → Does (.brakeTimer n) s fun t => (t.axis n).coiled = true ∧ t.regs = s.regs ∧
        t.mem = s.mem ∧ t.axisRun n = (if s.bit (F.MOT_STAND_coils n) then 3 else 0) ∧
        (s.tm.holdLag = none → t.now = max s.now (x.parkAt + s.f (F.MOT_STAND_brake_t n) * 10000000))) ∧
      (s.mot n ≠ 6 ∨ x.coiled = true → Machine.exec (.brakeTimer n) s = .next s) ∧
      (let goes := s.mot n = 7 ∧ s.f (F.FLD_STS_state (s.axisUnit n)) = 4 ∧
         (s.bit (F.MOT_STAND_sbc_en n) = true → s.bit (F.SAFE_SBC_released (s.f (F.MOT_STAND_sbc n))) = true)
       (∀ r, x.relAt = some r → goes → Does (.releaseTimer n) s fun t =>
         t.mot n = (if x.held = .home then 5 else 3) ∧ (t.axis n).held = .none ∧ Keeps s t [0xE] ∧
         (s.tm.holdLag = none → t.now = max s.now (r + s.f (F.MOT_STAND_rel_t n) * 10000000))) ∧
       (x.relAt = none ∨ ¬ goes → Machine.exec (.releaseTimer n) s = .next s))) ∧
    (∀ m : Fin 16,
      let len := s.f (F.MOT_CAM_CFG_length m)
      let dx : F32 := s.reg (R.MOT_CAM_DX m)
      let tile := s.f (F.MOT_CAM_TILE_tile m)
      let fails : List Prop := [len = 1, ∃ i < (len + 255) / 256, 1023 < tile + i ∨ s.wmOk (2048 + tile + i) = false,
        fIsNan dx = true ∨ fIsInf dx = true ∨ fEq dx fZero = true, 16 < s.f (F.MOT_CAM_CFG_master m)]
      s.bit (F.MOT_CAM_CFG_en m) = false →
        (∀ k < 4, (∀ j < k, ¬ fails.getD j False) → fails.getD k False →
          Machine.exec (.camEnable m) s = .next (s.setF (F.MOT_CAM_STS_error m) (k + 1))) ∧
        ((∀ k < 4, ¬ fails.getD k False) → len ≤ 1024 → Does (.camEnable m) s fun t =>
          t.bit (F.MOT_CAM_CFG_en m) = true ∧ t.bit (F.MOT_CAM_STS_active m) = decide (2 ≤ len) ∧
          t.f (F.MOT_CAM_STS_error m) = 0 ∧ t.bit (F.MOT_CAM_STS_ended m) = false ∧
          (∀ i < len, t.word (camStore m + 4 * i) = s.word (tableBase + 1024 * tile + 4 * i)) ∧
          (∀ a, a / 0x10000 ≠ 0xE → t.reg a = s.reg a) ∧ t.tm = s.tm))

/-- R304–R338: the motion axes and cams. -/
def Obligations.MotionAxes : Prop := axisCommands ∧ axisMoves ∧ axisHoming ∧ axisFaults ∧ axisTimers
/-! ## Shaft link -/

/-- The command for a frame of type `ty`, complete at this instant, completes with `P` (R343, R344, R348). -/
def FrameDoes (s : State) (ty : Nat) (b own direct : Bool) (fr : List Byte) (P : State → Prop) : Prop :=
  (ty = 1 → Does (.helloFrame b own direct fr) s P) ∧ (ty = 2 → Does (.syncFrame b ⟨own, direct, fr⟩) s P) ∧
  (ty = 3 → Does (.exchFrame b s.now ⟨own, direct, fr⟩) s P) ∧ (ty = 4 → Does (.mailFrame b ⟨own, direct, fr⟩) s P)

/-- The frame of characters `fr` leaves on a ring, at once or within the 100 ns and the frames before it (R343). -/
def Leaves (s t : State) (b : Bool) (fr : List Byte) : Prop :=
  ∃ x, s.now ≤ x ∧ (x, wire fr) ∈ tblGet [] t.line.out b.toNat

/-- The upstream neighbour on a ring. -/
def upstream (s : State) (b : Bool) : Nat :=
  if b then (s.node + 1) % s.lineN else (s.node + s.lineN - 1) % s.lineN

/-- The formation failure that a good frame shows (R344), 0 for none. -/
def frameShows (s : State) (b own direct : Bool) (fr : List Byte) : Nat :=
  if frOrigin fr = s.node then (if own then 0 else 2)
  else if direct = true ∧ frOrigin fr ≠ upstream s b then 3
  else if frN fr ≠ s.lineN ∨ s.lineN ≤ frOrigin fr then 4
  else if byteAt fr 2 ≠ s.fe F.SHFT_CFG_line then 5 else 0

/-- R343–R346: enable, leaving, HELLO frames and the forming of a line. The model's choices: an enable of an enabled member and
a leave of one that is not enabled change nothing (log entry 12); every good frame shows a failure of the forming, and HELLO
frames go out while a line is stopped (log entry 68). -/
def lineForming : Prop :=
  ∀ s : State, s.pwr.mainRst = false →
    let n := s.lineN
    let line := BitVec.ofNat 8 (s.fe F.SHFT_CFG_line)
    let wrong := s.f F.SHFT_CFG_n < 2 ∨ 8 < s.f F.SHFT_CFG_n ∨ s.f F.SHFT_CFG_n ≤ s.f F.SHFT_CFG_node ∨
      8 < s.f F.SHFT_XCH_CFG_blocks
    (s.bit F.SHFT_CTL_en = true → Machine.exec .lineEnable s = .next s) ∧
    (s.bit F.SHFT_CTL_en = false →
      (wrong → Machine.exec .lineEnable s = .next (s.setF F.SHFT_STS_error 1)) ∧
      (¬ wrong → Does .lineEnable s fun t => t.bit F.SHFT_CTL_en = true ∧ t.link = 1 ∧ t.f F.SHFT_STS_error = 0 ∧
        t.node = s.f F.SHFT_CFG_node ∧ t.lineN = s.f F.SHFT_CFG_n ∧ t.xchB = s.f F.SHFT_XCH_CFG_blocks ∧
        t.line.since = s.now ∧ Keeps s t [0xF] ∧ t.tm = s.tm) ∧
      Machine.exec .lineLeave s = .next s) ∧
    (s.bit F.SHFT_CTL_en = true → Does .lineLeave s fun t => t.bit F.SHFT_CTL_en = false ∧ t.reg R.SHFT_STS = 0 ∧
      t.f F.TIME_LINE_STS_role = 0 ∧ t.bit F.TIME_LINE_STS_locked = true ∧ t.bit F.TIME_LINE_STS_holdover = false ∧
      t.tm.holdLag = none ∧ t.tm.slow = 0 ∧ t.now = s.now ∧ Keeps s t [2, 0xF]) ∧
    (let sends := s.link ≠ 0 ∧ (s.link = 1 ∨ s.running = false) ∧ s.tm.holdLag = none ∧ s.halted = false
     (sends → Does .helloSend s fun t => t.line.sent = [wire (withCrc [1, BitVec.ofNat 8 (s.node + 16 * n), line])] ∧
       (∀ b, Leaves t t b (withCrc [1, BitVec.ofNat 8 (s.node + 16 * n), line])) ∧
       t.now % 20000 = 0 ∧ s.now ≤ t.now ∧ t.now < s.now + 20000 ∧ t.regs = s.regs ∧ t.mem = s.mem) ∧
     (¬ sends → Machine.exec .helloSend s = .next s)) ∧
    (∀ (ty : Nat) (b own direct : Bool) (fr : List Byte), 1 ≤ ty → ty ≤ 4 → s.link ≠ 0 → s.halted = false →
      (crcOk fr = false → FrameDoes s ty b own direct fr fun t =>
        t.f F.SHFT_CNT_crc = min 0xFFFF (s.f F.SHFT_CNT_crc + 1) ∧
        t.link = s.link ∧ t.f F.SHFT_STS_error = s.f F.SHFT_STS_error ∧ t.line.acc = s.line.acc ∧
        (frOrigin fr ≠ s.node → Leaves s t b fr) ∧ Keeps s t [0xF]) ∧
      (crcOk fr = true → frType fr = ty → frameShows s b own direct fr ≠ 0 → FrameDoes s ty b own direct fr fun t =>
        t.f F.SHFT_STS_error = frameShows s b own direct fr ∧ t.link = s.link ∧ t.line.heard = s.line.heard ∧
        t.line.acc = s.line.acc ∧ tblFind t.line.failAt b.toNat = some s.now ∧ Keeps s t [0xF]) ∧
      (crcOk fr = true → frType fr = ty → frOrigin fr = s.node → own = true →
        FrameDoes s ty b own direct fr fun t => t = s)) ∧
    (∀ (ty : Nat) (b own direct : Bool) (fr : List Byte), 1 ≤ ty → ty ≤ 4 → s.link = 0 ∨ s.halted = true →
      FrameDoes s ty b own direct fr fun t => t = s) ∧
    (∀ (b direct : Bool) (o : Fin 8), s.link ≠ 0 → s.halted = false → 2 ≤ n → n ≤ 8 → s.node < n →
      let fr := withCrc [1, BitVec.ofNat 8 (o + 16 * n), line]
      let ends := fun (e : Nat) => Does (.helloFrame b false direct fr) s fun t => t.f F.SHFT_STS_error = e ∧
        t.link = s.link ∧ t.line.heard = s.line.heard ∧ Keeps s t [0xF]
      (o.val = s.node → ends 2) ∧
      (o.val ≠ s.node → direct = true → o.val ≠ upstream s b → ends 3) ∧
      (o.val ≠ s.node → direct = false → n ≤ o → ends 4) ∧
      (o.val ≠ s.node → (direct = true → o.val = upstream s b) → o < n → Does (.helloFrame b false direct fr) s fun t =>
        Leaves s t b fr ∧
        (s.link = 1 → s.ringUp 0 = false → s.ringUp 1 = false → s.line.fallen = [] → s.line.failAt = [] →
          (∀ p < n, p ≠ o → p ≠ s.node → ∃ h ∈ tblFind s.line.heard (8 * b.toNat + p), s.now ≤ h + 10000000) →
          t.ringUp b.toNat = true ∧ t.link = (if b then 4 else 3) ∧ t.f F.SHFT_STS_error = 0 ∧
          t.f F.TIME_LINE_STS_position = s.node ∧ t.f F.TIME_LINE_STS_role = (if s.node = 0 then 1 else 2) ∧
          t.bit F.TIME_LINE_STS_locked = decide (s.node = 0)) ∧ Keeps s t [2, 0xF, 0x12])) ∧
    (s.link = 1 → Does .formationTimeout s fun t => t.f F.SHFT_STS_error = 6 ∧ t.link = 1 ∧
      (s.tm.holdLag = none → t.now = max s.now (s.line.since + 10000000)) ∧ Keeps s t [0xF]) ∧
    (s.link ≠ 1 → Machine.exec .formationTimeout s = .next s) ∧
    (∀ (b : Bool) (rtt : BitVec 17) (sum : BitVec 16), 2 ≤ s.link → s.ringUp b.toNat = true →
      Does (.linkDelayMeasure b rtt sum) s fun t =>
        t.f (if b then F.TIME_SRV_DLYB_dly else F.TIME_SRV_DLYA_dly) = rtt.toNat / 2 ∧ t.link = s.link ∧
        Keeps s t [2, 0xF] ∧ t.tm = s.tm)

/-- R36–R38, R347: SYNC frames, the follower's counter, and its loss. Holdover ends at a usable SYNC frame: the model's choice
(log entry 68). -/
def lineTime : Prop :=
  ∀ s : State, s.pwr.mainRst = false →
    (¬ (2 ≤ s.link ∧ s.role = 1 ∧ s.halted = false) → Machine.exec .syncSend s = .next s) ∧
    (2 ≤ s.link → s.role = 1 → s.halted = false → s.tm.holdLag = none → Does .syncSend s fun t =>
      let fr := unwire (t.line.sent.getD 0 [])
      t.line.sent = [wire fr] ∧ (∀ b, Leaves t t b fr) ∧ crcOk fr = true ∧ fr.length = 27 ∧ frType fr = 2 ∧ frBytes fr 3 8 = t.now % 2 ^ 64 ∧ frBytes fr 11 4 = 0 ∧
      t.now % 50000 = 0 ∧ s.now ≤ t.now ∧ t.now < s.now + 50000 ∧
      frBytes fr 15 2 = (if s.running then s.tm.period - 1 else s.f F.TIME_TICK_PERIOD_period_m1) % 2 ^ 16 ∧
      frBytes fr 17 8 = (if s.running then s.tm.epoch else s.epochNow) % 2 ^ 64 ∧ t.regs = s.regs) ∧
    (∀ (b own direct : Bool) (fr : List Byte), s.halted = false → 2 ≤ s.link → s.role = 2 → crcOk fr = true → frType fr = 2 → frOrigin fr = 0 →
      s.node ≠ 0 → (direct = true → upstream s b = 0) → frN fr = s.lineN → 0 < s.lineN → byteAt fr 2 = s.fe F.SHFT_CFG_line → s.ringUp b.toNat = true →
      (b = true → s.ringUp 0 = false) →
      let m : Int := (frBytes fr 3 8 + frBytes fr 11 4 + s.f (if b then F.TIME_SRV_DLYB_dly else F.TIME_SRV_DLYA_dly) : Nat)
      Does (.syncFrame b ⟨own, direct, fr⟩) s fun t =>
        t.bit F.TIME_SRV_STS_sync_seen = true ∧ t.f F.TIME_SRV_STS_ring = b.toNat + 1 ∧
        t.f F.TIME_SRV_PERIOD_period_m1 = frBytes fr 15 2 ∧ t.bit F.TIME_LINE_STS_holdover = false ∧
        t.line.syncAt = some s.now ∧ s.now ≤ t.now ∧ Keeps s t [2] ∧
        (s.running = false → s.tm.reslew = false → s.bit F.TIME_LINE_STS_locked = false →
          (m < s.now → t.now = s.now ∧ t.tm.holdLag = some (s.now - m).toNat ∧ t.bit F.TIME_LINE_STS_locked = false) ∧
          (s.now ≤ m → (t.now : Int) = m ∧ t.tm.holdLag = none ∧ t.bit F.TIME_LINE_STS_locked = true)) ∧
        (s.running = true ∨ s.tm.reslew = true ∨ s.bit F.TIME_LINE_STS_locked = true → t.now ≤ s.now + 5 ∧ (t.now : Int) ≤ max (s.now : Int) m ∧
          (s.tm.holdLag = none → t.now = s.now + min 5 (m - s.now).toNat ∧ t.tm.slow = min 5 (s.now - m).toNat))) ∧
    (∀ a, s.line.syncAt = some a → s.role = 2 → Does .timeLoss s fun t =>
      t.bit F.TIME_SRV_STS_sync_seen = false ∧ t.line.syncAt = none ∧
      (s.tm.holdLag = none → t.now = max s.now (a + 1000000)) ∧ Keeps s t [2, 0x12] ∧
      (s.running = true → t.bit F.TIME_LINE_STS_locked = false ∧ t.bit F.TIME_LINE_STS_holdover = true ∧ t.tm.reslew = true ∧
        t.bit (pendFld 43) = true ∧ t.f F.TIME_SRV_LOSS_count = min 0xFFFF (s.f F.TIME_SRV_LOSS_count + 1))) ∧
    (s.line.syncAt = none ∨ s.role ≠ 2 → Machine.exec .timeLoss s = .next s) ∧
    (s.tm.holdLag = none → Machine.exec .counterHoldEnd s = .next s) ∧
    (s.tm.holdLag ≠ none → Does .counterHoldEnd s fun t => t.tm.holdLag = none ∧ t.bit F.TIME_LINE_STS_locked = true ∧
      t.now = s.now ∧ Keeps s t [2])

/-- R348, R349, R351–R353: the exchange at a couch, the receive area, and rings that fail and return. A command without its
condition changes nothing (log entry 13), and the age of a member starts at 3 (log entries 10 and 68): the model's choices. -/
def lineExchange : Prop :=
  ∀ s : State, s.pwr.mainRst = false →
    let A := dataBase + 32 * s.fe F.SHFT_XCH_CFG_addr
    let due := s.link ≠ 0 ∧ s.line.exchGo = true ∧ s.halted = false
    (∀ c, s.line.couched = some c → due → s.xchB ≤ 8 → Does .exchSend s fun t =>
      let fr := unwire (t.line.sent.getD 0 [])
      t.line.sent = [wire fr] ∧ (∀ b, Leaves t t b fr) ∧ t.line.exchGo = false ∧
      tblFind t.line.acc s.node = some (2, fr) ∧
      crcOk fr = true ∧ fr.length = 75 + 32 * s.xchB ∧ frType fr = 3 ∧ frBytes fr 3 4 = c % 2 ^ 32 ∧
      (byteAt fr 7 = 1 ↔ s.line.flagged ≠ []) ∧ byteAt fr 8 = s.xchB ∧
      (∀ d < 8, (s.part.lanes ≤ d ∨ s.unitOn d = false) → ∀ i < 8, byteAt fr (9 + 8 * d + i) = 0) ∧
      (∀ d < 8, d < s.part.lanes → s.unitOn d = true → frBytes fr (9 + 8 * d + 2) 2 = s.f (F.FLD_MEAS_speed d) ∧
        frBytes fr (9 + 8 * d) 2 = (fToQ 16 15 (s.tauOf d)).1 ∧
        byteAt fr (9 + 8 * d + 6) % 8 = s.f (F.FLD_STS_state d) % 8 ∧
        (byteAt fr (9 + 8 * d + 6)).testBit 4 = s.bit (F.SHFT_LS_STS_fallback d) ∧ byteAt fr (9 + 8 * d + 7) = 0) ∧
      (∀ n < s.xchB, ∀ i < 8, frBytes fr (73 + 32 * n + 4 * i) 4 =
        if (s.ownerOf 7 n).isSome then (s.word (shareAt n i)).toNat else 0) ∧
      (s.tm.holdLag = none → t.now = max s.now (c + 300)) ∧ t.regs = s.regs ∧ t.mem = s.mem) ∧
    (¬ due ∨ s.line.couched = none → Machine.exec .exchSend s = .next s) ∧
    (∀ (b own direct : Bool) (at_ : Nat) (fr : List Byte), s.link ≠ 0 → s.halted = false → crcOk fr = false →
      Does (.exchFrame b at_ ⟨own, direct, fr⟩) s fun t => (s.tm.holdLag = none → t.now = max s.now at_) ∧
      t.f F.SHFT_CNT_crc = min 0xFFFF (s.f F.SHFT_CNT_crc + 1) ∧ t.line.acc = s.line.acc ∧ Keeps s t [0xF]) ∧
    (∀ (b own direct : Bool) (fr : List Byte), s.halted = false →
      2 ≤ s.link → s.link ≠ 5 → s.ringUp b.toNat = true → s.running = true →
      (direct = true → upstream s b = frOrigin fr) →
      crcOk fr = true → frType fr = 3 → frOrigin fr ≠ s.node → frOrigin fr < s.lineN → frN fr = s.lineN →
      byteAt fr 2 = s.fe F.SHFT_CFG_line →
      let o := frOrigin fr
      let dist := fun (c : Nat) => ((BitVec.ofNat 32 (frBytes fr 3 4)) - BitVec.ofNat 32 c).toInt.natAbs
      (dist s.couchAt ≤ 1000 → tblFind s.line.acc o = none → Does (.exchFrame b s.now ⟨own, direct, fr⟩) s fun t =>
        tblFind t.line.acc o = some (b.toNat, fr) ∧ tblFind t.line.heard (8 * b.toNat + o) = some s.now ∧
        Leaves s t b fr ∧ t.regs = s.regs ∧ t.mem = s.mem) ∧
      (∀ e, dist s.couchAt ≤ 1000 → tblFind s.line.acc o = some e →
        Does (.exchFrame b s.now ⟨own, direct, fr⟩) s fun t => t.line.acc = s.line.acc ∧ t.regs = s.regs) ∧
      (∀ c, s.line.couched = some c → 1000 < dist s.couchAt → dist c ≤ 1000 → s.now < s.tm.start + 1400 →
        tblFind s.line.acc o = none → Does (.exchFrame b s.now ⟨own, direct, fr⟩) s fun t =>
          tblFind t.line.acc o = some (b.toNat, fr) ∧ t.regs = s.regs ∧ t.mem = s.mem) ∧
      (∀ c, s.line.couched = some c → 1000 < dist s.couchAt → dist c ≤ 1000 → s.tm.start + 1400 ≤ s.now →
        Does (.exchFrame b s.now ⟨own, direct, fr⟩) s fun t => t.f F.SHFT_CNT_late = min 0xFFFF (s.f F.SHFT_CNT_late + 1) ∧
          t.bit ⟨R.SHFT_FLAGS, 0, 1⟩ = true ∧ t.line.acc = s.line.acc ∧ Keeps s t [0xF])) ∧
    (s.link ≠ 0 → s.halted = false → s.running = true → s.lineN ≤ 8 → Memory.wf s.mem = true → Does .receiveAreaWrite s fun t =>
      (s.tm.holdLag = none → t.now = max s.now (s.tm.start + 1400)) ∧ t.line.acc = [] ∧
      (∀ a, a < A ∨ A + 0xA00 + 4 * s.lineN ≤ a → memGet t.mem a = memGet s.mem a) ∧
      (∀ p < s.lineN, ∀ e, tblFind s.line.acc p = some e →
        (∀ i < 64, (memGet t.mem (A + 0x140 * p + i)).toNat = byteAt e.2 (9 + i)) ∧
        (∀ i, 64 ≤ i → i < 320 → (memGet t.mem (A + 0x140 * p + i)).toNat =
          if i < 64 + 32 * min 8 (byteAt e.2 8 % 16) then byteAt e.2 (9 + i) else 0) ∧
        t.bit ⟨R.SHFT_STS, 8 + p, 1⟩ = true ∧ tblFind t.line.age p = some 0 ∧
        (t.word (A + 0xA00 + 4 * p)).getLsbD 0 = true ∧
        (2 ≤ s.link → (t.word (A + 0xA00 + 4 * p)).getLsbD 1 = true)) ∧
      (∀ p < s.lineN, tblFind s.line.acc p = none →
        (∀ i < 320, memGet t.mem (A + 0x140 * p + i) = memGet s.mem (A + 0x140 * p + i)) ∧
        t.bit ⟨R.SHFT_STS, 8 + p, 1⟩ = false ∧ tblFind t.line.age p = some (min 3 (tblGet 3 s.line.age p + 1)) ∧
        (t.word (A + 0xA00 + 4 * p)).getLsbD 0 = false) ∧
      ∀ a, a / 0x10000 ≠ 0xF → a / 0x10000 ≠ 0x12 → t.reg a = s.reg a) ∧
    (s.link = 0 ∨ s.running = false ∨ s.halted = true → Machine.exec .receiveAreaWrite s = .next s) ∧
    (∀ (b : Bool),
      let other := s.ringUp (1 - b.toNat)
      let down := fun (al : Bool) => 2 ≤ s.link ∧ s.ringUp b.toNat = true ∧ (al = true ∨ 3 ≤ tblGet 0 s.line.miss b.toNat)
      let back := 2 ≤ s.link ∧ s.ringUp b.toNat = false ∧ b.toNat ∈ s.line.fallen ∧ 16 ≤ tblGet 0 s.line.good b.toNat
      (∀ al, down al → s.link = (if other then 2 else if b then 4 else 3) → Does (.ringDown b al) s fun t =>
        t.ringUp b.toNat = false ∧ t.ringUp (1 - b.toNat) = other ∧
        t.link = (if other then (if b then 3 else 4) else 5) ∧ t.bit (pendFld 42) = true ∧
        (other = false → t.bit (pendFld 41) = true) ∧
        t.f (if b then F.SHFT_LINK_B_downs else F.SHFT_LINK_A_downs) =
          min 0xFFFF (s.f (if b then F.SHFT_LINK_B_downs else F.SHFT_LINK_A_downs) + 1) ∧ Keeps s t [0xF, 0x12] ∧ t.tm = s.tm) ∧
      (∀ al, ¬ down al → Machine.exec (.ringDown b al) s = .next s) ∧
      (back → s.link = (if other then (if b then 3 else 4) else 5) → Does (.ringUp b) s fun t =>
        t.ringUp b.toNat = true ∧ t.link = (if other then 2 else if b then 4 else 3) ∧ t.bit (pendFld 42) = true ∧
        b.toNat ∉ t.line.fallen ∧ Keeps s t [0xF, 0x12] ∧ t.tm = s.tm) ∧
      (¬ back → Machine.exec (.ringUp b) s = .next s))

/-- R354–R357: mail and load sharing. The destination stands in the low half of word 0 of a mail entry (log entry 61), and a
refused share leaves en at 0 (log entry 22): the model's choices. -/
def lineMailAndShares : Prop :=
  ∀ s : State, s.pwr.mainRst = false →
    let may := s.lineUp = true ∧ s.line.mailGo = true ∧ s.halted = false
    (¬ may → Machine.exec .mailSend s = .next s) ∧
    (may → s.ringTake 14 = none → Machine.exec .mailSend s = .next (s.setLine { s.line with mailGo := false, sent := [] })) ∧
    (∀ ws s1, s.ringTake 14 = some (ws, s1) → may → s1.ringTake 14 = none →
      let w0 := ws.getD 0 0
      let len := getBits w0 8 5
      Does .mailSend s fun t =>
        t.line.mailGo = false ∧
        (len = 0 ∨ 24 < len → t.bit ⟨R.SHFT_FLAGS, 3, 1⟩ = true ∧ t.line.sent = [] ∧ t.line.out = s.line.out ∧
          t.line.mailSeq = s.line.mailSeq) ∧
        (1 ≤ len → len ≤ 24 →
          let fr := unwire (t.line.sent.getD 0 [])
          t.line.sent = [wire fr] ∧ (∀ b, Leaves t t b fr) ∧ crcOk fr = true ∧ frType fr = 4 ∧
          frBytes fr 3 2 = s.line.mailSeq % 2 ^ 16 ∧
          frBytes fr 5 2 = getBits w0 16 16 ∧ byteAt fr 8 = len ∧ byteAt fr 7 = getBits w0 0 4 ∧
          (∀ i < len, byteAt fr (9 + i) = ((ws.getD (2 + i / 4) 0).toNat >>> (8 * (i % 4))) % 256) ∧ t.line.mailSeq = (s.line.mailSeq + 1) % 0x10000)) ∧
    (∀ (b own direct : Bool) (fr : List Byte), s.halted = false → 2 ≤ s.link → crcOk fr = true → frType fr = 4 → frOrigin fr ≠ s.node →
      (direct = true → upstream s b = frOrigin fr) →
      frOrigin fr < s.lineN → frN fr = s.lineN → byteAt fr 2 = s.fe F.SHFT_CFG_line →
      let o := frOrigin fr
      let mine := (byteAt fr 7).testBit 3 = true ∨ byteAt fr 7 % 8 = s.node
      let len := min 24 (byteAt fr 8)
      let pay := ((fr.drop 9).take len ++ List.replicate 24 0).take 24
      let tail := s.f (F.RING_TAIL_tail 15)
      (mine → tblFind s.line.mailLast o = none → Does (.mailFrame b ⟨own, direct, fr⟩) s fun t =>
        tblFind t.line.mailLast o = some (frBytes fr 3 2) ∧ Leaves s t b fr ∧ t.tm = s.tm ∧
        (s.ringOn 15 = true → s.ringCount 15 < s.ringCap 15 → Memory.wf s.mem = true →
          t.words (s.ringEntry 15 tail) 8 = BitVec.ofNat 32 (o + len * 0x100 + frBytes fr 5 2 * 0x10000) ::
            BitVec.ofNat 32 s.now :: (List.range 6).map fun i => BitVec.ofNat 32 (frBytes pay (4 * i) 4)) ∧
        (s.ringOn 15 = true → s.ringCount 15 < s.ringCap 15 →
          t.f (F.RING_TAIL_tail 15) = (tail + 1) % 0x10000)) ∧
      (¬ mine ∨ tblFind s.line.mailLast o = some (frBytes fr 3 2) → Does (.mailFrame b ⟨own, direct, fr⟩) s fun t =>
        Leaves s t b fr ∧ t.regs = s.regs ∧ t.mem = s.mem)) ∧
    (∀ d : Fin 8,
      let m := s.f (F.SHFT_LS_CFG_mode d)
      let ref := s.fe (F.FLD_CTL_ref_mode d)
      let src := s.f (F.SHFT_LS_CFG_src_node d)
      let fails : List Prop :=
        [s.part.lanes ≤ d ∨ s.unitOn d = false,
         m = 0 ∨ m = 1 ∧ (ref ≠ 1 ∨ ∃ n < 8, s.bit (F.MOT_CTL_en n) = true ∧ s.axisUnit n = d) ∨ m = 2 ∧ ref ≠ 2 ∨
           m = 3 ∧ ¬ ∃ n ∈ s.tensionAxis d, s.axisSrc n = 0,
         s.lineN ≤ src ∨ src = s.node ∧ s.f (F.SHFT_LS_CFG_src_drive d) = d]
      let far := s.lineUp = false ∨ 0 < tblGet 3 s.line.age (s.fe (F.SHFT_LS_CFG_src_node d))
      let bit : BitVec 8 := BitVec.ofNat 8 (2 ^ d.val)
      (s.bit (F.SHFT_LS_CFG_en d) = true → Machine.exec (.loadShareEnable d) s = .next s) ∧
      (s.bit (F.SHFT_LS_CFG_en d) = false →
        (∀ k < 3, (∀ j < k, ¬ fails.getD j False) → fails.getD k False →
          Machine.exec (.loadShareEnable d) s = .next (s.setF (F.SHFT_LS_STS_error d) (k + 1))) ∧
        ((∀ k < 3, ¬ fails.getD k False) → Does (.loadShareEnable d) s fun t =>
          t.bit (F.SHFT_LS_CFG_en d) = true ∧ t.bit (F.SHFT_LS_STS_active d) = true ∧
          t.f (F.SHFT_LS_STS_error d) = 0 ∧ t.bit (F.SHFT_LS_STS_fallback d) = false ∧
          t.bit (F.SHFT_LS_STS_blending d) = false ∧ Keeps s t [0xF] ∧ t.tm = s.tm)) ∧
      (far → Machine.exec (.loadShareResume bit) s = .next (s.setF ⟨R.SHFT_FLAGS, 2, 1⟩ 1)) ∧
      (¬ far → s.bit (F.SHFT_LS_STS_fallback d) = false → Machine.exec (.loadShareResume bit) s = .next s) ∧
      (¬ far → s.bit (F.SHFT_LS_STS_fallback d) = true → Does (.loadShareResume bit) s fun t =>
        t.bit (F.SHFT_LS_STS_fallback d) = false ∧ t.bit (F.SHFT_LS_STS_blending d) = true ∧
        (t.share d).blend = 1 ∧ (t.share d).frm = s.shareHeld d ∧ Keeps s t [0xF] ∧ t.tm = s.tm))

/-- R342–R358: lines of devices. The MAIL frame's length byte is log entry 61's, the slew of 5 ns a SYNC frame log entry 62's. -/
def Obligations.ShaftLink : Prop := lineForming ∧ lineTime ∧ lineExchange ∧ lineMailAndShares
/-! ## CAN FD -/

/-- Receive object `m` matches a frame (R367). -/
def canHits (s : State) (n m : Nat) (fr : CanFrame) : Prop :=
  getBits (s.obj n (3 + m) 2) 8 2 = 1 ∧
    (∀ i < 29, (s.obj n (3 + m) 1).getLsbD i = true → fr.id.getLsbD i = (s.obj n (3 + m) 0).getLsbD i) ∧
    ((s.obj n (3 + m) 1).getLsbD 29 = false ∨ fr.xtd = (s.obj n (3 + m) 0).getLsbD 29)

/-- A frame that begins at `sof` and matches object `m` first has been stored, or is lost where the object is full and keeps
what it holds (R367, R368). -/
def canStores (s : State) (n : Fin 4) (m : Nat) (fr : CanFrame) (sof : Nat) (t : State) : Prop :=
  let d := fr.dlc.toNat
  let len := if d ≤ 8 then d else if fr.fdf then [12, 16, 20, 24, 32, 48, 64].getD (d - 9) 64 else 8
  let irq := fun (t : State) (b : Nat) => t.bit ⟨R.CAN_IRQ n, b, 1⟩
  let w2 := s.obj n (3 + m) 2
  let full := s.bit ⟨R.CAN_NEW n (m / 32), m % 32, 1⟩
  let a := canRam n + 0xF0 + 0x50 * m
  t.bit ⟨R.CAN_NEW n (m / 32), m % 32, 1⟩ = true ∧ t.f (F.CAN_CNT_nomatch n) = s.f (F.CAN_CNT_nomatch n) ∧
  t.reg (R.CAN_TS_LO n) = BitVec.ofNat 32 sof ∧
  (full = true → t.bit ⟨R.CAN_LOST n (m / 32), m % 32, 1⟩ = true ∧ irq t 6 = true ∧
    t.f (F.CAN_CNT_lost n) = min 0xFFFF (s.f (F.CAN_CNT_lost n) + 1)) ∧
  (full = true → w2.getLsbD 10 = false → ∀ b, a ≤ b → b < a + 80 → memGet t.mem b = memGet s.mem b) ∧
  (full = false ∨ w2.getLsbD 10 = true → irq t 0 = true ∧
    (∀ i < 64, memGet t.mem (a + 16 + i) = if i < len then fr.data.getD i 0 else 0) ∧
    (t.obj n (3 + m) 0).setWidth 29 = (s.obj n (3 + m) 0).setWidth 29 ∧
    (t.obj n (3 + m) 0).getLsbD 29 = fr.xtd ∧ (t.obj n (3 + m) 0).getLsbD 30 = fr.fdf ∧
    (t.obj n (3 + m) 0).getLsbD 31 = fr.brs ∧ t.obj n (3 + m) 1 = s.obj n (3 + m) 1 ∧
    getBits (t.obj n (3 + m) 2) 0 4 = d ∧ (t.obj n (3 + m) 2).getLsbD 4 = fr.esi ∧
    getBits (t.obj n (3 + m) 2) 8 5 = getBits w2 8 5 ∧ t.obj n (3 + m) 3 = BitVec.ofNat 32 sof) ∧
  (w2.getLsbD 11 = true → s.ringOn 13 = true →
    let k := if len ≤ 16 then 0 else if len ≤ 48 then 1 else 2
    let entry := s.ringEntry 13 (s.f (F.RING_TAIL_tail 13))
    (s.ringCount 13 + (1 + k) ≤ s.ringCap 13 →
      t.f (F.RING_TAIL_tail 13) = (s.f (F.RING_TAIL_tail 13) + 1 + k) % 0x10000 ∧
      getBits (t.word (entry + 4)) 0 4 = d ∧ getBits (t.word (entry + 4)) 4 3 = n ∧
      (t.word (entry + 4)).getLsbD 8 = fr.esi ∧ getBits (t.word (entry + 4)) 16 2 = k ∧
      t.word (entry + 8) = BitVec.ofNat 32 sof ∧ t.word (entry + 12) = BitVec.ofNat 32 (sof / 2 ^ 32) ∧
      ∀ i < 16, memGet t.mem (entry + 16 + i) = if i < len then fr.data.getD i 0 else 0) ∧
    (s.ringCap 13 < s.ringCount 13 + (1 + k) → t.f (F.RING_TAIL_tail 13) = s.f (F.RING_TAIL_tail 13) ∧
      t.bit (F.RING_STS_overflow 13) = true))

/-- R364, R365, R380: enable and disable, the change of mode, sleep and wake. The model's choices: an enable of an enabled
controller and a disable of a disabled one change nothing (log entry 12), a refused enable leaves en at 0 (log entry 22), a
disable waits for the end of the frame and clears the error counters (log entry 35). -/
def canModes : Prop :=
  ∀ (s : State) (n : Fin 4), s.pwr.mainRst = false →
    let ctl := fun (x : Nat → Fld) => s.f (x n)
    let nt1 := ctl F.CAN_NBT_tseg1_m1 + 1
    let nt2 := ctl F.CAN_NBT_tseg2_m1 + 1
    let dt2 := ctl F.CAN_DBT_tseg2_m1 + 1
    let nbit := (ctl F.CAN_NBT_brp_m1 + 1) * (1 + nt1 + nt2)
    let dbit := (ctl F.CAN_DBT_brp_m1 + 1) * (1 + (ctl F.CAN_DBT_tseg1_m1 + 1) + dt2)
    let fd := s.bit (F.CAN_CTL_fd_en n) = true
    let fails : List Prop :=
      [nt1 < 2 ∨ nt2 < 2 ∨ nt2 < ctl F.CAN_NBT_sjw_m1 + 1 ∨ fd ∧ dt2 < ctl F.CAN_DBT_sjw_m1 + 1,
       nbit < 80 ∨ fd ∧ (dbit < 10 ∨ nbit < dbit), ctl F.CAN_CTL_mode = 3,
       s.bit (F.CAN_TTCFG_tt_en n) = true ∧ ctl F.CAN_TTCFG_ref_period < 100]
    let idle := (s.can n).onBus = none ∧ (s.can n).foreign = false ∧ (s.can n).wait = false
    let leaves := (s.can n).leaving = true
    (s.bit (F.CAN_CTL_en n) = true → Machine.exec (.canEnable n) s = .next s) ∧
    (s.bit (F.CAN_CTL_en n) = false →
      (∀ k < 4, (∀ j < k, ¬ fails.getD j False) → fails.getD k False →
        Machine.exec (.canEnable n) s = .next (s.setF (F.CAN_STS_error n) (k + 1))) ∧
      ((∀ k < 4, ¬ fails.getD k False) → Does (.canEnable n) s fun t =>
        t.bit (F.CAN_CTL_en n) = true ∧ t.f (F.CAN_STS_error n) = 0 ∧
        t.bit (F.CAN_STS_enabled n) = s.bit (F.CAN_STS_enabled n) ∧ Keeps s t [0x10] ∧ t.tm = s.tm ∧
        (leaves → t.cans = s.cans) ∧
        (¬ leaves → t.reg (R.CAN_ERR n) = 0 ∧ t.f (F.CAN_STS_conf n) = 0 ∧
          (t.can n).mode = ctl F.CAN_CTL_mode ∧ (t.can n).onBus = none ∧ (t.can n).due = [])) ∧
      Machine.exec (.canDisable n) s = .next s) ∧
    (let joins := (s.bit (F.CAN_CTL_en n) = true ∨ leaves) ∧ s.f (F.CAN_STS_conf n) ≠ 2 ∧ s.bit (F.CAN_STS_sleeping n) = false
     (joins → Does (.canIntegrated n) s fun t => Keeps s t [0x10] ∧ (t.can n).foreign = false ∧ (t.can n).wait = false ∧
       (t.can n).onBus = none ∧
       (¬ leaves → t.bit (F.CAN_STS_enabled n) = true ∧ t.bit (F.CAN_STS_bus_idle n) = true ∧
         t.reg (R.CAN_ERR n) = s.reg (R.CAN_ERR n) ∧ t.reg (R.CAN_TXB_STS n) = s.reg (R.CAN_TXB_STS n) ∧
         (ctl F.CAN_CTL_mode < 2 → (t.can n).mode = ctl F.CAN_CTL_mode)) ∧
       (leaves → t.bit (F.CAN_STS_enabled n) = false ∧ t.f (F.CAN_TXB_STS_pending n) = 0 ∧ t.reg (R.CAN_ERR n) = 0)) ∧
     (¬ joins → Machine.exec (.canIntegrated n) s = .next s)) ∧
    (s.bit (F.CAN_CTL_en n) = true →
      ((s.can n).onBus = none → (s.can n).foreign = false → Does (.canDisable n) s fun t => t.bit (F.CAN_CTL_en n) = false ∧
        t.bit (F.CAN_STS_enabled n) = false ∧ t.f (F.CAN_TXB_STS_pending n) = 0 ∧
        (∀ k < 3, t.reg (R.CAN_MOPEND n k) = 0) ∧ t.reg (R.CAN_ERR n) = 0 ∧ Keeps s t [0x10]) ∧
      ((s.can n).onBus ≠ none ∨ (s.can n).foreign = true → Does (.canDisable n) s fun t => t = (s.setF (F.CAN_CTL_en n) 0).setCan n
        { s.can n with leaving := true })) ∧
    (let acts := s.bit (F.CAN_CTL_en n) = true ∧ ctl F.CAN_CTL_mode < 2 ∧ idle
     (acts → Does (.canModeChange n) s fun t => (t.can n).mode = ctl F.CAN_CTL_mode ∧ t.mem = s.mem ∧ Keeps s t [0x10] ∧
       (s.bit (F.CAN_STS_sleeping n) = false → t.regs = s.regs) ∧
       (s.bit (F.CAN_STS_sleeping n) = true → t.bit (F.CAN_STS_sleeping n) = false ∧ t.bit (F.CAN_STS_enabled n) = false)) ∧
     (¬ acts → Machine.exec (.canModeChange n) s = .next s)) ∧
    (let sleeps := s.bit (F.CAN_CTL_en n) = true ∧ ctl F.CAN_CTL_mode = 2 ∧ idle
     (sleeps → Does (.sleepEnter n) s fun t => t.bit (F.CAN_STS_sleeping n) = true ∧
       t.reg (R.CAN_TXB_STS n) = s.reg (R.CAN_TXB_STS n) ∧ (∀ k < 3, t.reg (R.CAN_MOPEND n k) = s.reg (R.CAN_MOPEND n k)) ∧
       Keeps s t [0x10]) ∧
     (¬ sleeps → Machine.exec (.sleepEnter n) s = .next s)) ∧
    (∀ (bits : Nat) (fr : Option CanFrame) (sof : Nat),
      let asleep := s.bit (F.CAN_STS_sleeping n) = true
      let onFrame := s.bit (F.CAN_WAKE_frame_wake n) = true
      let woken := fun (t : State) => t.bit (F.CAN_STS_sleeping n) = false ∧ t.f (F.CAN_CTL_mode n) = 0 ∧
        t.bit (F.CAN_STS_enabled n) = false ∧ t.bit ⟨R.CAN_IRQ n, 7, 1⟩ = true ∧
        t.reg (R.CAN_ERR n) = s.reg (R.CAN_ERR n) ∧ Keeps s t [0x10, 0x12]
      (¬ asleep ∨ ¬ onFrame ∧ bits < max 1 (s.f (F.CAN_WAKE_filt n)) ∨ onFrame ∧ fr = none →
        Machine.exec (.wake n ⟨bits, fr⟩ sof) s = .next s) ∧
      (asleep → ¬ onFrame → max 1 (s.f (F.CAN_WAKE_filt n)) ≤ bits → Does (.wake n ⟨bits, fr⟩ sof) s woken) ∧
      (asleep → onFrame → ∀ g, fr = some g → g.fdf = true → s.bitE (F.CAN_CTL_fd_en n) = false →
        Machine.exec (.wake n ⟨bits, fr⟩ sof) s = .next s) ∧
      (asleep → onFrame → ∀ g, fr = some g → (g.fdf = true → s.bitE (F.CAN_CTL_fd_en n) = true) →
        (canHits s n (s.f (F.CAN_WAKE_wake_obj n)) g → Does (.wake n ⟨bits, fr⟩ sof) s fun t => woken t ∧
          t.reg (R.CAN_TS_LO n) = BitVec.ofNat 32 sof ∧
          (Memory.wf s.mem = true → ∀ m < 96, canHits s n m g → (∀ k < m, ¬ canHits s n k g) → canStores s n m g sof t)) ∧
        (¬ canHits s n (s.f (F.CAN_WAKE_wake_obj n)) g → Does (.wake n ⟨bits, fr⟩ sof) s fun t =>
          t.bit (F.CAN_STS_sleeping n) = true ∧ t.reg (R.CAN_TS_LO n) = BitVec.ofNat 32 sof ∧
          t.reg (R.CAN_TS_HI n) = BitVec.ofNat 32 (sof / 2 ^ 32) ∧ Keeps s t [0x10])))

/-- R366–R369, R373–R376: reception, errors, and the message RAM. The copy to RG13 is made whether or not the object takes the
frame (log entry 34), and a reception that ends error passive sets a free value from 119 to 127 (log entry 76): the model's
choices. -/
def canReception : Prop :=
  ∀ (s : State) (n : Fin 4), s.pwr.mainRst = false →
    let live := s.bit (F.CAN_STS_enabled n) = true ∧ s.bit (F.CAN_STS_sleeping n) = false ∧ s.f (F.CAN_STS_conf n) ≠ 2 ∧
      (s.can n).wait = false
    let stays := (s.can n).leaving = false
    let tec := s.f (F.CAN_ERR_tec n)
    let rec_ := s.f (F.CAN_ERR_rec n)
    (∀ (fr : CanFrame) (sof : Nat),
      let hits := fun (m : Nat) => canHits s n m fr
      let takes := live ∧ (fr.fdf = true → s.bitE (F.CAN_CTL_fd_en n) = true)
      let irq := fun (t : State) (b : Nat) => t.bit ⟨R.CAN_IRQ n, b, 1⟩
      (¬ takes → Machine.exec (.canFrameReceived n fr sof) s = .next s) ∧
      (takes → (∀ m < 96, ¬ hits m) → Does (.canFrameReceived n fr sof) s fun t =>
        t.f (F.CAN_CNT_nomatch n) = min 0xFFFF (s.f (F.CAN_CNT_nomatch n) + 1) ∧ irq t 11 = true ∧
        t.reg (R.CAN_TS_LO n) = BitVec.ofNat 32 sof ∧ t.reg (R.CAN_TS_HI n) = BitVec.ofNat 32 (sof / 2 ^ 32) ∧
        Keeps s t [0x10, 0x12] ∧ (t.can n).onBus = none ∧ (t.can n).foreign = false ∧
        t.bit (F.CAN_STS_bus_idle n) = (s.can n).leaving.not ∧
        (stays → t.bit (F.CAN_STS_enabled n) = true) ∧
        (¬ stays → t.bit (F.CAN_STS_enabled n) = false ∧ t.f (F.CAN_TXB_STS_pending n) = 0 ∧ t.reg (R.CAN_ERR n) = 0)) ∧
      (takes → Memory.wf s.mem = true → ∀ m < 96, hits m → (∀ k < m, ¬ hits k) →
        Does (.canFrameReceived n fr sof) s fun t => canStores s n m fr sof t ∧
          ((s.obj n (3 + m) 2).getLsbD 11 = false → s.bitE (F.CAN_TTCFG_tt_en n) = false →
            ∀ b, b < canRam n + 0xF0 + 0x50 * m ∨ canRam n + 0x140 + 0x50 * m ≤ b → memGet t.mem b = memGet s.mem b))) ∧
    (∀ sof, ¬ live → Machine.exec (.remoteFrame ⟨n, sof⟩) s = .next s) ∧
    (∀ sof, live → stays → Does (.remoteFrame ⟨n, sof⟩) s fun t => t.bit (F.CAN_STS_bus_idle n) = true ∧
      (rec_ < 128 → t.f (F.CAN_ERR_rec n) = rec_ - 1) ∧
      (128 ≤ rec_ → 119 ≤ t.f (F.CAN_ERR_rec n) ∧ t.f (F.CAN_ERR_rec n) ≤ 127) ∧ t.f (F.CAN_ERR_tec n) = tec ∧
      t.reg (R.CAN_TS_LO n) = BitVec.ofNat 32 sof ∧ t.mem = s.mem ∧ Keeps s t [0x10, 0x12]) ∧
    (∀ (lec : Fin 7) (tx : Bool) (e : CanError),
      (¬ live → Machine.exec (.canBusError n lec tx e) s = .next s) ∧
      (live → ¬ stays → (s.can n).onBus ≠ none → tx = true → Does (.canBusError n lec tx e) s fun t =>
        t.reg (R.CAN_ERR n) = 0 ∧ t.bit (F.CAN_STS_enabled n) = false ∧ (t.can n).onBus = none ∧ Keeps s t [0x10, 0x12]) ∧
      (live → stays → Does (.canBusError n lec tx e) s fun t =>
        (lec.val ≠ 0 → t.f (F.CAN_STS_lec n) = lec) ∧ Keeps s t [0x10, 0x12] ∧ (t.can n).onBus = none ∧
        (∀ o d, (s.can n).onBus = some o → tx = true → e.delay = some d → o < 99 → (s.obj n o 0).getLsbD 30 = true →
          (s.obj n o 0).getLsbD 31 = true → s.bitE (F.CAN_TDC_tdc_en n) = true →
          t.f (F.CAN_TDC_STS_measured n) = min 127 d ∧
          (127 ≤ d → t.bit (F.CAN_TDC_STS_sat n) = true ∧ t.bit ⟨R.CAN_IRQ n, 8, 1⟩ = true)) ∧
        ((s.can n).mode = 1 → t.reg (R.CAN_ERR n) = s.reg (R.CAN_ERR n) ∧ (t.can n).wait = true ∧
          t.bit (F.CAN_STS_bus_idle n) = false) ∧
        ((s.can n).mode ≠ 1 →
          let ackOrStuff := tx = true ∧ e.cause = .exempt ∧ (lec = 3 ∧ s.f (F.CAN_STS_conf n) = 1 ∨ lec = 1)
          let plain := e.cause = .detected ∨ e.cause = .exempt
          let txUp := if tx = false ∨ ackOrStuff ∨ e.cause = .afterFlag then 0 else 8
          let rxUp := if tx = true then 0 else if plain then 1 else 8
          let tec := min 511 (tec + txUp)
          let rec_ := min 511 (rec_ + rxUp)
          t.f (F.CAN_ERR_tec n) = tec ∧ t.f (F.CAN_ERR_rec n) = rec_ ∧
          t.f (F.CAN_STS_conf n) = (if 256 ≤ tec then 2 else if 128 ≤ tec ∨ 128 ≤ rec_ then 1 else 0) ∧
          (256 ≤ tec → t.bit ⟨R.CAN_IRQ n, 5, 1⟩ = true) ∧
          (tx = false → t.reg (R.CAN_TXB_STS n) = s.reg (R.CAN_TXB_STS n))))) ∧
    (s.f (F.CAN_STS_conf n) ≠ 2 → Machine.exec (.canRecover n) s = .next s) ∧
    (s.f (F.CAN_STS_conf n) = 2 → Machine.exec (.canRecover n) s = .next (s.setF (F.CAN_STS_recovering n) 1)) ∧
    (s.bit (F.CAN_STS_recovering n) = false → Machine.exec (.busOffRecovered n) s = .next s) ∧
    (s.bit (F.CAN_STS_recovering n) = true → stays → Does (.busOffRecovered n) s fun t =>
      t.f (F.CAN_STS_conf n) = 0 ∧ t.reg (R.CAN_ERR n) = 0 ∧ t.bit (F.CAN_STS_recovering n) = false ∧
      t.reg (R.CAN_TXB_STS n) = s.reg (R.CAN_TXB_STS n) ∧ Keeps s t [0x10]) ∧
    (∀ (o : Fin 99) (i : Fin 20) (be : BitVec 4) (v : Word),
      let a := canRam n + 0x50 * o + 4 * i
      let held := s.bit (pendBit n o) = true
      (o.val = 2 ∧ s.bitE (F.CAN_CTL_ring_tx n) = true → ¬ held → Machine.exec (.objectWrite n o i be v) s = .next s) ∧
      (Memory.wf s.mem = true →
        (¬ (o.val = 2 ∧ s.bitE (F.CAN_CTL_ring_tx n) = true) → ¬ held → Does (.objectWrite n o i be v) s fun t => t.regs = s.regs ∧ t.cans = s.cans ∧
          (∀ j < 4, memGet t.mem (a + j) = if be.getLsbD j then (v >>> (8 * j)).setWidth 8 else memGet s.mem (a + j)) ∧
          ∀ b, b < a ∨ a + 4 ≤ b → memGet t.mem b = memGet s.mem b) ∧
        (held → ¬ (3 ≤ o.val ∧ i.val = 2 ∧ be.getLsbD 1 = true ∧ getBits v 8 2 = 0) →
          Does (.objectWrite n o i be v) s fun t => t.bit ⟨R.CAN_IRQ n, 12, 1⟩ = true ∧
            t.bit (pendBit n o) = true ∧ Keeps s t [0x10, 0x12]) ∧
        (held → 3 ≤ o.val → i.val = 2 → be.getLsbD 1 = true → getBits v 8 2 = 0 → Does (.objectWrite n o i be v) s fun t =>
          getBits (t.obj n o 2) 8 2 = 0 ∧ o.val ∉ (t.can n).due ∧ (t.bit (pendBit n o) = true ↔ (s.can n).onBus = some o.val) ∧
          ((s.can n).onBus = some o.val → (t.can n).cancel = true)))) ∧
    (∀ (o : Fin 99) (m : Sys2Proof.Master), ¬ (m = .pcie ∧ s.host.d3hot = true) → Does (.objectReadLatch n o m) s fun t =>
      (∀ i < 20, t.objRead n o i = s.obj n o i) ∧ tblFind t.host.rdata (masterIdx m) = some [s.obj n o 0] ∧
      t.regs = s.regs ∧ t.mem = s.mem)

/-- R363, R366, R370–R372, R375, R376: requests, selection, and how a transmission ends. A cancel waits for the end of the frame
(log entry 35), and the outcome of a frame is a command (log entry 33): the model's choices. -/
def canTransmission : Prop :=
  ∀ (s : State) (n : Fin 4), s.pwr.mainRst = false →
    let x := s.can n
    let pend := fun (t : State) (o : Nat) => t.bit (pendBit n o) = true
    let dir := fun (o : Nat) => getBits (s.obj n o 2) 8 2
    let ringTx := s.bitE (F.CAN_CTL_ring_tx n) = true
    (∀ (k : Fin 4) (mask : Word),
      let asked := fun (o : Nat) => if k.val = 0 then o < 3 ∧ mask.getLsbD o = true ∧ ¬ (o = 2 ∧ ringTx)
        else (o - 3) / 32 + 1 = k.val ∧ 3 ≤ o ∧ mask.getLsbD ((o - 3) % 32) = true ∧ dir o = 2
      let refused := fun (o : Nat) => (s.obj n o 0).getLsbD 30 = true ∧ s.bitE (F.CAN_CTL_fd_en n) = false
      Does (.txRequest n k mask) s fun t => Keeps s t [0x10, 0x12] ∧ t.cans = s.cans ∧
        (∀ o < 99, pend t o ↔ pend s o ∨ asked o ∧ ¬ refused o) ∧
        ((∃ o < 99, asked o ∧ refused o) → t.bit ⟨R.CAN_IRQ n, 10, 1⟩ = true)) ∧
    (∀ mask : BitVec 3, Does (.txCancel n mask) s fun t => Keeps s t [0x10] ∧
      ∀ o < 3, let hit := mask.getLsbD o = true ∧ pend s o
        (pend t o ↔ pend s o ∧ (¬ hit ∨ x.onBus = some o)) ∧
        (hit → t.bit ⟨R.CAN_TXB_STS n, 12 + o, 1⟩ = true ∧ (x.onBus = some o → (t.can n).cancel = true))) ∧
    (∀ other : Bool,
     let opens := s.bit (F.CAN_STS_enabled n) = true ∧ s.bit (F.CAN_STS_sleeping n) = false ∧ s.f (F.CAN_STS_conf n) ≠ 2 ∧
       x.onBus = none ∧ x.foreign = false ∧ x.wait = false
     let may := opens ∧ x.mode = 0 ∧ x.leaving = false
     let none_ := fun (t : State) => t = if other then
       (s.setCan n { x with foreign := true }).setF (F.CAN_STS_bus_idle n) 0 else s
     let cand := fun (o : Nat) => pend s o ∧ (o < 3 ∨ dir o = 2 ∧
       ((s.obj n o 2).getLsbD 12 = false ∨ x.refSeen = true ∧ o ∈ x.due))
     let key := fun (o : Nat) => getBits (s.obj n o 0) 18 11 * 2 ^ 19 +
       if (s.obj n o 0).getLsbD 29 then 2 ^ 18 + getBits (s.obj n o 0) 0 18 else 0
     let starts := fun (o : Nat) (t : State) => (t.can n).onBus = some o ∧ (t.can n).cancel = false ∧
       t.bit (F.CAN_STS_bus_idle n) = false ∧ Keeps s t [0x10] ∧ t.reg (R.CAN_TXB_STS n) = s.reg (R.CAN_TXB_STS n) ∧
       (o < 99 → ∃ fr ∈ (t.can n).sending, fr.id = (s.obj n o 0).setWidth 29 ∧ fr.xtd = (s.obj n o 0).getLsbD 29 ∧
         fr.fdf = (s.obj n o 0).getLsbD 30 ∧ fr.dlc.toNat = getBits (s.obj n o 2) 0 4 ∧
         fr.data.length = (if fr.dlc.toNat ≤ 8 then fr.dlc.toNat else if fr.fdf then
           [12, 16, 20, 24, 32, 48, 64].getD (fr.dlc.toNat - 9) 64 else 8) ∧
         ∀ i < fr.data.length, fr.data.getD i 0 = memGet s.mem (objAddr n o 4 + i))
     (¬ opens → Machine.exec (.txSelect ⟨n, other⟩) s = .next s) ∧
     (opens → ¬ may → Does (.txSelect ⟨n, other⟩) s none_) ∧
     (may → x.refReq = true → Does (.txSelect ⟨n, other⟩) s fun t => starts 99 t ∧ (t.can n).sending =
       some ⟨BitVec.ofNat 29 (s.fe (F.CAN_REFID_id n)), s.bitE (F.CAN_REFID_xtd n), false, false, false, 1,
         [BitVec.ofNat 8 (x.cycle % 64)]⟩) ∧
     (may → x.refReq = false → (∀ o < 99, ¬ cand o) → Does (.txSelect ⟨n, other⟩) s none_) ∧
     (may → x.refReq = false → ∀ o < 99, cand o →
       (s.bitE (F.CAN_CTL_tx_prio n) = true → (∀ p < o, ¬ cand p) → Does (.txSelect ⟨n, other⟩) s (starts o)) ∧
       (s.bitE (F.CAN_CTL_tx_prio n) = false →
         (∀ p < 99, cand p → key o < key p ∨ key o = key p ∧ o ≤ p) → Does (.txSelect ⟨n, other⟩) s (starts o)))) ∧
    (x.onBus = none → (∀ sof d, Machine.exec (.txDone n sof d) s = .next s) ∧
      Machine.exec (.arbitrationLost n) s = .next s) ∧
    (∀ o, x.onBus = some o → x.leaving = false →
      let w0 := s.obj n o 0
      (∀ sof d, Memory.wf s.mem = true → Does (.txDone n sof d) s fun t =>
        (t.can n).onBus = none ∧ t.bit (F.CAN_STS_bus_idle n) = true ∧
        t.f (F.CAN_ERR_tec n) = s.f (F.CAN_ERR_tec n) - 1 ∧ t.reg (R.CAN_TS_LO n) = BitVec.ofNat 32 sof ∧
        t.reg (R.CAN_TS_HI n) = BitVec.ofNat 32 (sof / 2 ^ 32) ∧
        (99 ≤ o → (t.can n).refReq = false ∧ t.f (F.CAN_TTSTS_cycle n) = x.cycle % 64 ∧
          (t.can n).cycle = (x.cycle % 64 + 1) % 64 ∧ (t.can n).start = sof ∧ t.bit (pendFld 48) = true) ∧
        (o < 99 → ¬ pend t o ∧ t.bit ⟨R.CAN_IRQ n, 1, 1⟩ = true ∧ t.obj n o 3 = BitVec.ofNat 32 sof ∧
          (∀ a, a < objAddr n o 3 ∨ objAddr n o 4 ≤ a → memGet t.mem a = memGet s.mem a) ∧
          (o < 3 → t.bit ⟨R.CAN_TXB_STS n, 4 + o, 1⟩ = true) ∧
          (w0.getLsbD 30 = true → w0.getLsbD 31 = true → s.bitE (F.CAN_TDC_tdc_en n) = true →
            t.f (F.CAN_TDC_STS_measured n) = min 127 d ∧
            (127 ≤ d → t.bit (F.CAN_TDC_STS_sat n) = true ∧ t.bit ⟨R.CAN_IRQ n, 8, 1⟩ = true)))) ∧
      Does (.arbitrationLost n) s fun t => (t.can n).onBus = none ∧ t.bit (F.CAN_STS_bus_idle n) = false ∧
        (t.can n).foreign = true ∧
        t.reg (R.CAN_TS_LO n) = s.reg (R.CAN_TS_LO n) ∧ Keeps s t [0x10, 0x12] ∧
        (o < 99 → x.cancel = true → ¬ pend t o) ∧
        (o < 3 → s.bit (F.CAN_CTL_oneshot n) = true → ¬ pend t o ∧
          t.bit ⟨R.CAN_TXB_STS n, 8 + o, 1⟩ = true ∧ t.f ⟨R.CAN_TXB_STS n, 16 + 2 * o, 2⟩ = 1 ∧
          t.bit ⟨R.CAN_IRQ n, 2, 1⟩ = true) ∧
        (x.cancel = false → (3 ≤ o ∨ s.bit (F.CAN_CTL_oneshot n) = false) → ∀ p < 99, pend t p ↔ pend s p)) ∧
    (let frame := s.words (s.ringEntry 12 (s.f (F.RING_HEAD_head 12))) 8
     let c := min 2 (getBits (frame.getD 1 0) 16 2)
     let takes := s.bit (F.CAN_CTL_en n) = true ∧ ringTx ∧ ¬ pend s 2 ∧ s.ringOn 12 = true ∧
       getBits (frame.getD 1 0) 4 3 = n ∧ 1 + c ≤ s.ringCount 12
     (¬ takes → Machine.exec (.rg12FrameTake n) s = .next s) ∧
     (takes → Memory.wf s.mem = true → Does (.rg12FrameTake n) s fun t =>
       t.f (F.RING_HEAD_head 12) = (s.f (F.RING_HEAD_head 12) + 1 + c) % 0x10000 ∧ t.obj n 2 0 = frame.getD 0 0 ∧
       getBits (t.obj n 2 2) 0 4 = getBits (frame.getD 1 0) 0 4 ∧
       (∀ i < 4, t.obj n 2 (4 + i) = frame.getD (4 + i) 0) ∧
       (∀ a, a < objAddr n 2 0 ∨ objAddr n 3 0 ≤ a → memGet t.mem a = memGet s.mem a) ∧
       ((frame.getD 0 0).getLsbD 30 = false ∨ s.bitE (F.CAN_CTL_fd_en n) = true → pend t 2) ∧ t.tm = s.tm))

/-- R377–R379, R381: reference messages and time-triggered objects. An event without its condition changes nothing: the model's
choice (log entry 13). -/
def canTimeTriggered : Prop :=
  ∀ (s : State) (n : Fin 4), s.pwr.mainRst = false →
    let x := s.can n
    let period := s.fe (F.CAN_TTCFG_ref_period n) * 1000
    let on := s.bit (F.CAN_CTL_en n) = true ∧ s.bitE (F.CAN_TTCFG_tt_en n) = true
    let master := s.bitE (F.CAN_TTCFG_master n) = true
    (¬ (on ∧ master ∧ s.tm.holdLag = none) → Machine.exec (.referenceMessageTimer n) s = .next s) ∧
    (on → master → s.tm.holdLag = none → 0 < period → Does (.referenceMessageTimer n) s fun t =>
      (t.can n).refReq = true ∧ t.now % period = 0 ∧ s.now ≤ t.now ∧ t.now < s.now + period ∧ t.regs = s.regs ∧
      t.mem = s.mem) ∧
    (∀ (fr : CanFrame) (sof : Nat),
      let live := s.bit (F.CAN_STS_enabled n) = true ∧ s.bit (F.CAN_STS_sleeping n) = false ∧ s.f (F.CAN_STS_conf n) ≠ 2 ∧
        x.wait = false
      let id := s.fe (F.CAN_REFID_id n)
      let hers := s.bitE (F.CAN_TTCFG_tt_en n) = true ∧ ¬ master ∧ fr.xtd = s.bitE (F.CAN_REFID_xtd n) ∧ fr.dlc ≠ 0 ∧
        (if fr.xtd then fr.id.toNat = id else fr.id.toNat / 2 ^ 18 = id / 2 ^ 18)
      let valid := live ∧ (fr.fdf = true → s.bitE (F.CAN_CTL_fd_en n) = true)
      let counted := fun (c : Nat) (t : State) =>
        t.f (F.CAN_TTSTS_cycle n) = c ∧ t.bit ⟨R.CAN_IRQ n, 9, 1⟩ = true ∧ t.bit (pendFld 48) = true ∧
        (x.leaving = false → (t.can n).start = sof ∧ (t.can n).refSeen = true ∧ (t.can n).refTold = false ∧
          (t.can n).due = [] ∧ (t.can n).cycle = (c + 1) % 64 ∧ ∀ o ∈ x.due, o < 99 → t.bit (pendBit n o) = false) ∧
        (x.due ≠ [] → t.bit ⟨R.CAN_IRQ n, 2, 1⟩ = true) ∧
        t.f (F.CAN_TTSTS_missed n) = min 0xFFFF (s.f (F.CAN_TTSTS_missed n) + x.due.length) ∧
        t.reg (R.CAN_TS_LO n) = BitVec.ofNat 32 sof ∧ ∀ a, a / 0x10000 ∉ [0x10, 0x11, 0x12] → t.reg a = s.reg a
      let cycle := if fr.data.length = 0 then 0 else (fr.data.getD 0 0).toNat % 64
      (¬ master → ¬ hers ∨ ¬ valid → Machine.exec (.referenceMessage n fr sof) s = .next s) ∧
      (hers → valid → Does (.referenceMessage n fr sof) s (counted cycle)) ∧
      (hers → valid → Does (.canFrameReceived n fr sof) s (counted cycle)) ∧
      (master → x.onBus ≠ some 99 → Machine.exec (.referenceMessage n fr sof) s = .next s) ∧
      (master → x.onBus = some 99 → Does (.referenceMessage n fr sof) s (counted (x.cycle % 64)))) ∧
    (let lost := on ∧ ¬ master ∧ x.refTold = false
     (¬ lost → Machine.exec (.referenceLost n) s = .next s) ∧
     (lost → Does (.referenceLost n) s fun t => t.bit (F.CAN_TTSTS_ref_lost n) = true ∧ (t.can n).refSeen = false ∧ (t.can n).refTold = true ∧
       (s.tm.holdLag = none → t.now = max s.now (x.start + 2 * period)) ∧ Keeps s t [0x10])) ∧
    (∀ m : Fin 96,
      let o := 3 + m.val
      let w1 := s.obj n o 1
      let due := s.bitE (F.CAN_TTCFG_tt_en n) = true ∧ x.refSeen = true ∧ getBits (s.obj n o 2) 8 2 = 2 ∧
        (s.obj n o 2).getLsbD 12 = true ∧ s.bit (pendBit n o) = true ∧ o ∉ x.triggered ∧
        s.f (F.CAN_TTSTS_cycle n) % 2 ^ getBits w1 22 3 = getBits w1 16 6
      (¬ due → Machine.exec (.ttTrigger n m) s = .next s) ∧
      (due → Does (.ttTrigger n m) s fun t => o ∈ (t.can n).due ∧ o ∈ (t.can n).triggered ∧
        (s.tm.holdLag = none → t.now = max s.now (x.start + getBits w1 0 16 * 1000)) ∧ t.regs = s.regs ∧ t.mem = s.mem))

/-- R361–R381: the CAN FD controllers. The limits and the increments of the error counters are those of ISO 11898-1, which is the
model's presumption (log entry 30); the ends of sleep and of a message that fd_en shuts out are log entry 118's choice, and an
enable while a disable waits, another node's frames and the reference messages log entry 133's. -/
def Obligations.CanControllers : Prop := canModes ∧ canReception ∧ canTransmission ∧ canTimeTriggered
/-! ## Safety -/

/-- LOCKOUT of the device: cause shown, every enabled pair locked out with passed_stop cleared, every ball and the
gate-enable net off, SFAULT_N low (R389, R395). -/
def LockedOut (t : State) (cause : Nat) : Prop :=
  t.safeState = 4 ∧ t.f F.SAFE_STS_lock_cause = cause ∧
  (∀ n < 12, t.pairFunc n ≠ 0 → (pairOf t.saf.die n).st = 3 ∧ (pairOf t.saf.core n).st = 3 ∧
    (pairOf t.saf.die n).passed = false) ∧
  (∀ b < 20, t.ballCmd b = false) ∧ t.gateNet = false ∧ t.bit F.SAFE_STS_sfault = true

/-- R390–R393, R395, R398: the inputs and pair states of the safety die at a sample. A filter that a test pulse freezes, and the
states of each pair of a function, are the model's reading (log entry 86). -/
def sampleInputs : Prop :=
  ∀ s : State, Alive s → ∀ (die core : BitVec 25) (back : BitVec 20), (∀ b < 20, back.getLsbD b = s.ballLevel b) →
    let k := s.saf.sample
    let c := s.saf.die
    Does (.safetySample die core back) s fun t =>
      t.saf.sample = k + 1 ∧ t.safeState = s.safeState ∧ t.mem = s.mem ∧ t.pending = s.pending ∧
      t.f F.SAFE_IN_image = t.saf.die.img.toNat ∧ t.f F.SAFE_INFLT_tp_fault = t.saf.die.inflt.toNat ∧
      (∀ i < 24,
        (s.inHold (s.inSrc i) k = true → t.saf.die.img.getLsbD i = c.img.getLsbD i) ∧
        (s.inHold (s.inSrc i) k = false →
          (die.getLsbD i = c.img.getLsbD i → t.saf.die.img.getLsbD i = c.img.getLsbD i ∧ tblGet 0 t.saf.die.cnt i = 0) ∧
          (die.getLsbD i ≠ c.img.getLsbD i →
            (s.inFilt i ≤ tblGet 0 c.cnt i + 1 → t.saf.die.img.getLsbD i = die.getLsbD i ∧ tblGet 0 t.saf.die.cnt i = 0) ∧
            (tblGet 0 c.cnt i + 1 < s.inFilt i → t.saf.die.img.getLsbD i = c.img.getLsbD i ∧
              tblGet 0 t.saf.die.cnt i = tblGet 0 c.cnt i + 1))) ∧
        (∀ m < 8, s.pairFunc (i / 2) ≠ 0 → s.inSrc i = m + 1 → s.lastOf m k = true → c.img.getLsbD i = s.inRunLevel i →
          t.saf.die.inflt.getLsbD i = die.getLsbD i ∧
          (die.getLsbD i = true → (pairOf t.saf.die (i / 2)).st = 3 ∧ (pairOf t.saf.die (i / 2)).passed = false ∧
            t.bit ⟨R.SAFE_FLAGS, 5, 1⟩ = true)) ∧
        (s.pairFunc (i / 2) = 0 ∨ s.inSrc i = 0 ∨ c.img.getLsbD i ≠ s.inRunLevel i →
          t.saf.die.inflt.getLsbD i = c.inflt.getLsbD i)) ∧
      (∀ n < 12, s.pairFunc n ∈ [1, 2, 5] → s.inSrc (2 * n) = 0 → s.inSrc (2 * n + 1) = 0 →
        let run := t.aRun t.saf.die n && t.bRun t.saf.die n
        let stop := !t.aRun t.saf.die n && !t.bRun t.saf.die n
        let was := pairOf c n
        let x := pairOf t.saf.die n
        (was.st = 1 → x.st = if run then 1 else 2) ∧
        (was.st = 2 → x.st = if run && s.pairAuto n && !inputFault c n then 1 else 2) ∧
        (was.st = 3 → x.st = 3 ∧ x.passed = (was.passed || stop))) ∧
      (die.getLsbD 24 = c.sres → t.saf.die.sres = c.sres ∧ t.saf.die.scnt = 0) ∧
      (die.getLsbD 24 ≠ c.sres → c.scnt + 1 < 20 → t.saf.die.sres = c.sres ∧ t.saf.die.scnt = c.scnt + 1) ∧
      (die.getLsbD 24 = true → c.sres = false → 20 ≤ c.scnt + 1 → t.saf.die.sres = true ∧ t.saf.die.rise = k) ∧
      (die.getLsbD 24 = false → c.sres = true → 20 ≤ c.scnt + 1 →
        let w := (k - c.rise) / 20
        t.saf.die.sres = false ∧ t.f F.SAFE_RESET_width = min w 4095 ∧
        (250 ≤ w → w ≤ 3000 → t.saf.die.pulse = true ∧
          t.f F.SAFE_RESET_accepted = (s.f F.SAFE_RESET_accepted + 1) % 0x10000) ∧
        (w < 250 ∨ 3000 < w → t.saf.die.pulse = false ∧ t.bit ⟨R.SAFE_FLAGS, 0, 1⟩ = true))

/-- R387, R389, R400–R404: what may be on after a sample, and what an ending demand or a new one does. What ends SS1, the age of
a permit and the outputs that are read back follow log entry 85, the demand of a consumer connection log entry 119: the model's
choices. -/
def sampleOutputs : Prop :=
  ∀ s : State, Alive s → ∀ (die core : BitVec 25) (back : BitVec 20), Does (.safetySample die core back) s fun t =>
    let c := t.saf.die
    t.f F.SAFE_REQ_rel_force = s.f F.SAFE_REQ_rel_host ||| t.f F.SAFE_REQ_rel_axis ∧
    (∀ n < 8, t.ballCmd n = true → c.sto.getLsbD n = true ∧ c.permitAge < 2 ∧ c.permit.getLsbD n = true) ∧
    (∀ n < 8, c.sto.getLsbD n = true → t.safeState = 3 ∧ t.stoUsed n = true ∧ t.bit (F.SAFE_STO_readback n) = false ∧
      (∀ p < 12, t.pairCarries p = true → (t.pairMask p).testBit n = true → t.funcRun c p = true ∨
        t.pairCat1 p = true ∧ (tblFind c.ss1 n).isSome) ∧
      (∀ k < 8, t.connRole k = 1 → (t.connByte k 5).testBit n = true → t.f (F.SAFE_CONN_state k) = 2 ∧
        t.bit (F.SAFE_CONN_run k) = true ∧ (t.conn k).latched = false ∨
        (t.connByte k 6).testBit 0 = true ∧ (tblFind c.ss1 n).isSome)) ∧
    (∀ n < 8, s.saf.die.sto.getLsbD n = true → c.sto.getLsbD n = true → ∀ e, tblFind s.saf.die.ss1 n = some e →
      tblFind c.ss1 n = some e ∨ tblFind c.ss1 n = none) ∧
    (∀ n < 8, s.saf.die.sto.getLsbD n = true → s.saf.core.sto.getLsbD n = true → c.sto.getLsbD n = false →
      t.bit (pendFld 0) = true) ∧
    (∀ m < 2, t.ballCmd (16 + m) = true → c.permitAge < 2 ∧ c.permit.getLsbD (8 + m) = true ∧
      (t.sbcRole m = 1 → t.safeState = 3 ∧ t.bit (F.SAFE_SBC_readback m) = false ∧
        (t.f F.SAFE_REQ_rel_force).testBit m = true ∧ (t.ballCmd (t.sbcLink m % 8) = true ∨ t.sbcLink m ≥ 8 ∨
          (tblFind t.saf.brakeAt m).isSome)) ∧
      (t.sbcRole m = 2 → t.safeState = 3 ∧ (t.f F.SAFE_REQ_unlock_host).testBit m = true) ∧ t.sbcRole m ∈ [1, 2]) ∧
    (t.gateNet = true → t.safeState = 3 ∧ c.permitAge < 2 ∧ c.permit.getLsbD 10 = true ∧
      ∀ n < 8, t.stoUsed n = true → t.stoGen n = true → t.ballCmd n = true)

/-- R387, R388, R394, R406: the tick of 1 ms. Each channel counts its own clock windows, and the check at a tick is log entry
119's: the model's choices. -/
def safetyTicks : Prop :=
  ∀ s : State, Alive s → ∀ (exchange toDie toCore : Bool) (sosc core : Nat),
    let live := s.saf.selfDone = true
    let agree := exchange = true ∧ s.nipView s.saf.die = s.nipView s.saf.core
    let dieRow := if 14720 ≤ sosc ∧ sosc ≤ 17280 then 0 else s.saf.clkRow + 1
    let coreRow := if 92000 ≤ core ∧ core ≤ 108000 then 0 else s.saf.clkRowCore + 1
    let up := s.safeState ∈ [1, 2, 3]
    Does (.safetyTick exchange toDie toCore sosc core) s fun t =>
      (∀ n < 12, s.pairFunc n ≠ 0 →
        (s.disagrees s.saf.die n = true → (pairOf t.saf.die n).timer = (pairOf s.saf.die n).timer + 1 ∧
          t.f (F.SAFE_PAIR_disc_cnt n) = s.f (F.SAFE_PAIR_disc_cnt n)) ∧
        (s.disagrees s.saf.die n = false → (pairOf t.saf.die n).timer = 0 ∧ t.f (F.SAFE_PAIR_disc_cnt n) =
          if (pairOf s.saf.die n).timer = 0 then s.f (F.SAFE_PAIR_disc_cnt n) else min 0xFF (s.f (F.SAFE_PAIR_disc_cnt n) + 1))) ∧
      (live → toDie = true → t.saf.die.permit = permitWord s.saf.core ∧ t.saf.die.permitAge = 0) ∧
      (¬ (live ∧ toDie = true) → t.saf.die.permit = s.saf.die.permit ∧
        t.saf.die.permitAge = min 2 (s.saf.die.permitAge + 1)) ∧
      (¬ live → t.reg R.SAFE_NIP = s.reg R.SAFE_NIP ∧ t.safeState = s.safeState) ∧
      (live → t.f F.SAFE_NIP_checks = (s.f F.SAFE_NIP_checks + 1) % 0x10000 ∧
        t.f F.SAFE_CLK_sosc_khz = sosc % 0x10000 ∧
        (agree → t.saf.nipRow = 0 ∧ t.bit F.SAFE_NIP_last = false ∧
          t.f F.SAFE_NIP_mismatches = s.f F.SAFE_NIP_mismatches) ∧
        (¬ agree → t.saf.nipRow = s.saf.nipRow + 1 ∧ t.bit F.SAFE_NIP_last = true ∧
          t.f F.SAFE_NIP_mismatches = min 0xFF (s.f F.SAFE_NIP_mismatches + 1) ∧ t.bit ⟨R.SAFE_FLAGS, 4, 1⟩ = true ∧
          (up → 1 ≤ s.saf.nipRow → t.bit (pendFld 1) = true ∧
            LockedOut t (if t.saf.die.permitAge < 2 ∧ t.saf.core.permitAge < 2 then 4 else 5))) ∧
        t.saf.clkRow = dieRow ∧ t.saf.clkRowCore = coreRow ∧
        (dieRow < 2 → coreRow < 2 → t.bit F.SAFE_CLK_fault = false ∧ (agree → t.safeState = s.safeState)) ∧
        (2 ≤ dieRow ∨ 2 ≤ coreRow → t.bit F.SAFE_CLK_fault = true ∧
          (s.bit F.SAFE_CLK_fault = false → t.bit ⟨R.SAFE_FLAGS, 7, 1⟩ = true ∧ t.bit (pendFld 57) = true) ∧
          (up → agree → LockedOut t 7 ∧ t.bit (pendFld 1) = true)))

/-- R386, R387, R392, R394, R402, R403, R405: what the channels' timers and tests do. DISC at the timer's end is log entry 86's,
the tests of outputs and GATE_ENABLE_LOSS log entry 85's; an event without its condition changes nothing (log entry 13): the
model's choices. -/
def safetyTimers : Prop :=
  ∀ s : State, Alive s →
    let k := s.saf.sample
    let up := s.safeState ∈ [1, 2, 3]
    (∀ n : Fin 12,
      let late := fun (c : ChanSt) => s.pairDisc n ≤ (pairOf c n).timer
      let fault := s.pairFunc n ≠ 0 ∧ (late s.saf.die ∨ late s.saf.core)
      (¬ fault → Machine.exec (.discrepancy n) s = .next s) ∧
      (fault → Does (.discrepancy n) s fun t => t.safeState = s.safeState ∧ t.mem = s.mem ∧
        (late s.saf.die → (pairOf t.saf.die n).st = 3 ∧ (pairOf t.saf.die n).passed = false ∧
          ((pairOf s.saf.die n).st ≠ 3 → (pairOf t.saf.die n).cause = 1)) ∧
        ((pairOf s.saf.die n).st ≠ 3 → (pairOf s.saf.core n).st ≠ 3 → t.bit (pendFld 1) = true) ∧
        (late s.saf.die → t.bit F.SAFE_STS_sfault = true))) ∧
    (∀ b : Bool,
      let age := (if b then s.saf.core else s.saf.die).permitAge
      (age < 2 ∨ ¬ up → s.safeState < 5 → Machine.exec (.permitLoss b) s = .next s) ∧
      (2 ≤ age → up → Does (.permitLoss b) s fun t => LockedOut t 5 ∧ t.bit (pendFld 1) = true)) ∧
    (∀ m : Fin 8,
      let starts := s.tpoEn m = true ∧ s.tpoPer ≠ 0 ∧ k % (20 * s.tpoPer) = (5 * m * s.tpoPer + 1) / 2 % (20 * s.tpoPer)
      (¬ starts → Machine.exec (.tpoPulse m) s = .next s) ∧
      (starts → Does (.tpoPulse m) s fun t => tblFind t.saf.tpoAt m = some k ∧ Keeps s t [0x13] ∧
        ∀ j < s.tpoW + 1, t.tpoLevel m (k + j) = decide (s.tpoW ≤ j))) ∧
    (∀ (b : Fin 20) (high : Bool),
      let a := b.val < 8 ∨ 16 ≤ b.val ∧ b.val < 18
      let now := k / 20 % 1000 = (if a then 0 else 500) ∧ (16 ≤ b.val ∨ k % 20 = b.val % 8) ∧ s.ballCmd b = true ∧
        s.ballTp b ≠ 0
      (¬ now → Machine.exec (.outputTest b high) s = .next s) ∧
      (now → high = false → Does (.outputTest b high) s fun t => tblFind t.saf.testEnd b = some (k + 2 * s.ballTp b) ∧
        t.ballLevel b = false ∧ t.safeState = s.safeState ∧ Keeps s t [0x13]) ∧
      (now → high = true → up → Does (.outputTest b high) s fun t => LockedOut t 6 ∧ t.bit (pendFld 1) = true ∧
        t.bit ⟨R.SAFE_FLAGS, 6, 1⟩ = true ∧
        t.bit (if b.val < 16 then F.SAFE_STO_readback (b % 8) else F.SAFE_SBC_readback (b % 2)) = true)) ∧
    (∀ n : Fin 8,
      let due := fun (c : ChanSt) => ∃ e ∈ tblFind c.ss1 n, e ≤ k
      (¬ due s.saf.die → ¬ due s.saf.core → Machine.exec (.ss1Expiry n) s = .next s) ∧
      (due s.saf.die → s.outDemands s.saf.die n ≠ [] → Does (.ss1Expiry n) s fun t =>
        t.saf.die.sto.getLsbD n = false ∧ tblFind t.saf.die.ss1 n = none ∧ t.ballCmd n = false ∧ t.mem = s.mem ∧
        (s.saf.die.sto.getLsbD n = true → s.saf.core.sto.getLsbD n = true → t.bit (pendFld 0) = true))) ∧
    (∀ m : Fin 2,
      let due := ∃ e ∈ tblFind s.saf.brakeAt m, e ≤ k
      Does (.sbcDelayExpiry m) s fun t => Keeps s t [0x13] ∧ (due → t.saf.die.sbc.getLsbD m = false ∧
        t.ballCmd (16 + m) = false ∧ t.bit (F.SAFE_SBC_released m) = false) ∧
        (¬ due → t.saf.die = s.saf.die)) ∧
    Does .gateEnableLoss s fun t => t.gateNet = false ∧ t.saf = s.saf ∧ t.mem = s.mem ∧
      ∀ k < 8, s.gateNet = true → s.convExists k = true → s.bit (F.PROT_CV_CTL_en k) = true →
        t.f (F.PROT_CV_STS_state k) ≠ 0

/-- R399: a valid reset pulse. The states after a reset, and that GUARD_LOCK and TWO_HAND need passed_stop of both pairs, are
the model's choices (log entry 39). -/
def safetyReset : Prop :=
  ∀ s : State, Alive s →
    let c := s.saf.die
    let clear := fun (c : ChanSt) => c.inflt = 0 ∧
      ∀ n < 12, s.pairFunc n ≠ 0 → s.disagrees c n = false ∧ (pairOf c n).timer = 0
    let met := fun (c : ChanSt) (n : Nat) => clear c ∧ (pairOf c n).passed = true ∧
      (s.pairFunc n ∈ [3, 4] → (pairOf c (if n % 2 = 0 then n + 1 else n - 1)).passed = true) ∧
      (s.pairFunc n ≠ 4 → s.inRun c n = true)
    (c.pulse = false → s.saf.core.pulse = false → Machine.exec .safetyResetPulse s = .next s) ∧
    (c.pulse = true → Does .safetyResetPulse s fun t => t.saf.die.pulse = false ∧ t.mem = s.mem ∧
      (∀ n < 12, s.pairFunc n ≠ 0 →
        let x := (pairOf t.saf.die n).st
        let again := s.pairFunc n ≠ 4 ∧ s.pairAuto n = false ∧ s.inRun c n = true ∧ clear c
        ((pairOf c n).st = 1 → x = 1) ∧
        ((pairOf c n).st = 2 → (again → x = 1) ∧ (¬ again → x = 2 ∧ t.bit ⟨R.SAFE_FLAGS, 1, 1⟩ = true)) ∧
        ((pairOf c n).st = 3 → (met c n → x = (if s.pairFunc n = 4 then 2 else 1) ∧
          (s.pairFunc n = 4 → (pairOf t.saf.die (n - n % 2)).freed = false ∧ (pairOf t.saf.die (n - n % 2)).permit = false)) ∧
          (¬ met c n → x = 3 ∧ t.bit ⟨R.SAFE_FLAGS, 1, 1⟩ = true ∧ (s.safeState = 4 → t.safeState = 4)))) ∧
      (s.safeState ≠ 4 → t.safeState = s.safeState) ∧
      (s.safeState = 4 → s.causePresent = true → t.safeState = 4) ∧
      (s.safeState = 4 → s.saf.core.pulse = false → t.safeState = 4) ∧
      (s.safeState = 4 → s.saf.core.pulse = true → s.causePresent = false → s.reg R.SAFE_CONFIRM = s.reg R.SAFE_PCRC → s.setIsHeld = true →
        (∀ n < 12, s.pairFunc n ≠ 0 → met c n ∧ met s.saf.core n) → t.safeState = 3 ∧ t.f F.SAFE_STS_lock_cause = 0))

/-- R384–R408: inputs, pairs, lockout, outputs and tests of the safety channels. The short between channels is checked on
run-high channels only (log entry 40); the net and SFAULT_N follow at once. -/
def Obligations.SafetyChannels : Prop :=
  sampleInputs ∧ sampleOutputs ∧ safetyTicks ∧ safetyTimers ∧ safetyReset

/-- R389, R404, R410–R412: requests, loads, checks, confirmation, self-test and the safety store. Loads in LOCKOUT and INIT, a
second load and the reading of a set that is not held are the model's choices (log entry 38), and so are the end of the
self-test while the main die is in reset (log entry 37) and a device without boot flash (log entry 134). -/
def Obligations.SafetyParameterSet : Prop :=
  (∀ s : State, s.pwr.mainRst = true → s.pwr.safRst = false → s.saf.selfDone = false → s.safeState = 0 →
    s.setIsHeld = false → Does .selfTestDone s fun t => t.saf.selfDone = true ∧ t.safeState = 1 ∧ Keeps s t [0x13]) ∧
  ∀ s : State, Alive s →
    (∀ v : Word,
      let addr := getBits v 5 16
      let src := dataBase + 32 * addr
      (v.getLsbD 0 = false ∨ s.saf.checking = true →
        Machine.exec (.parameterLoad v) s = .next (s.setF F.SAFE_PLOAD_addr addr)) ∧
      (v.getLsbD 0 = true → s.saf.checking = false →
        ((∃ b < 20, s.ballCmd b = true) → Machine.exec (.parameterLoad v) s =
          .next ((s.setF F.SAFE_PLOAD_addr addr).setF ⟨R.SAFE_FLAGS, 2, 1⟩ 1)) ∧
        ((∀ b < 20, s.ballCmd b = false) → Memory.wf s.mem = true → Does (.parameterLoad v) s fun t =>
          t.saf.checking = true ∧ t.saf.fromStore = false ∧ t.bit F.SAFE_PLOAD_busy = true ∧
          (∀ i < 1024, memGet t.mem (setNew + i) = memGet s.mem (src + i)) ∧
          (∀ a, a < setNew ∨ setNew + 1024 ≤ a → memGet t.mem a = memGet s.mem a) ∧
          (∀ a, a / 0x10000 ≠ 0x13 → t.reg a = s.reg a) ∧ t.safeState = s.safeState))) ∧
    (∀ agree : Bool,
      let e := if agree then s.setError setNew else 6
      let settled := s.safeState ≠ 4 ∧ (s.safeState = 0 → s.saf.selfDone = true)
      (s.saf.checking = false → Machine.exec (.parameterCheckDone agree) s = .next s) ∧
      (s.saf.checking = true → Memory.wf s.mem = true → Does (.parameterCheckDone agree) s fun t =>
        t.saf.checking = false ∧ t.bit F.SAFE_PLOAD_busy = false ∧ t.f F.SAFE_STS_perr = e ∧
        (¬ settled → t.safeState = s.safeState) ∧
        (e ≠ 0 → t.reg R.SAFE_PCRC = 0 ∧ (settled → t.safeState = 1) ∧
          (∀ i < 1024, memGet t.mem (setHeld + i) = 0 ∧ memGet t.mem (setStore + i) = memGet s.mem (setStore + i))) ∧
        (e = 0 → t.reg R.SAFE_PCRC = crcReflected 0xEDB88320 (memBytes s.mem setNew 1020) ∧
          (settled → t.safeState = if s.reg R.SAFE_CONFIRM = t.reg R.SAFE_PCRC then 3 else 2) ∧
          (∀ i < 1024, memGet t.mem (setHeld + i) = memGet s.mem (setNew + i)) ∧
          (s.sec.noFlash = true → t.saf.stored = s.saf.stored) ∧
          (s.saf.fromStore = false → s.sec.noFlash = false → t.saf.stored = true ∧
            ∀ i < 1024, memGet t.mem (setStore + i) = memGet s.mem (setNew + i)) ∧
          (settled → ∀ n < 12, t.pairFunc n ≠ 0 → (pairOf t.saf.die n).st = 2 ∧ (pairOf t.saf.core n).st = 2)))) ∧
    (∀ v : Word, Machine.exec (.commissioningKey v) s =
      .next { s with saf := { s.saf with armed := decide (v.setWidth 16 = 0xC3A5#16) } }) ∧
    (∀ v : Word,
      (s.saf.armed = false → Machine.exec (.confirm v) s = .next s) ∧
      (s.saf.armed = true → v ≠ s.reg R.SAFE_PCRC → Machine.exec (.confirm v) s =
        .next ({ s with saf := { s.saf with armed := false } }.setF ⟨R.SAFE_FLAGS, 3, 1⟩ 1)) ∧
      (s.saf.armed = true → v = s.reg R.SAFE_PCRC → Does (.confirm v) s fun t =>
        t.reg R.SAFE_CONFIRM = v ∧ (s.sec.noFlash = false → t.saf.storedConf = some v) ∧ t.saf.armed = false ∧ Keeps s t [0x13] ∧
        t.safeState = (if s.safeState = 2 then 3 else s.safeState) ∧
        (s.safeState = 2 → ∀ n < 12, s.pairFunc n ≠ 0 → (pairOf t.saf.die n).st = 2))) ∧
    (∀ m : BitVec 2, Machine.exec (.releaseRequest m) s = .next (s.setF F.SAFE_REQ_rel_host m.toNat) ∧
      Machine.exec (.unlockRequest m) s = .next (s.setF F.SAFE_REQ_unlock_host m.toNat)) ∧
    (s.saf.selfDone = true → Machine.exec .selfTestDone s = .next s) ∧
    (s.saf.selfDone = false → Does .selfTestDone s fun t => t.saf.selfDone = true ∧ Keeps s t [0x13] ∧
      t.safeState = s.safeState) ∧
    (let may := s.saf.selfDone = true ∧ s.saf.checking = false
     (¬ may → Machine.exec .safetyStoreHandover s = .next s) ∧
     (may → s.saf.stored = true → s.sec.noFlash = false → Memory.wf s.mem = true → Does .safetyStoreHandover s fun t =>
       t.saf.checking = true ∧ t.saf.fromStore = true ∧ t.reg R.SAFE_CONFIRM = s.handedConfirm ∧
       (∀ i < 1024, memGet t.mem (setNew + i) = memGet s.mem (setStore + i)) ∧ t.safeState = s.safeState) ∧
     (may → s.saf.stored = false ∨ s.sec.noFlash = true → s.setIsHeld = false → Does .safetyStoreHandover s fun t =>
       t.safeState = (if s.safeState = 0 then 1 else s.safeState) ∧ Keeps s t [0x13]))

/-- R413–R417: consumers and producers of safety frames, by CAN and by ring. The first frame after FAILSAFE is accepted with any
sequence number and sets the reference (DEDUCED); that a frame is taken from its message object, the agreement of the two copies
and the instant of a producer's first frame are log entry 119's. The first frame after FAILSAFE, the run of the watchdog and the
use of RG10 and RG11 are log entry 84's choices. -/
def Obligations.SafetyFrames : Prop :=
  ∀ (s : State) (c : Fin 8), Alive s →
    let id := s.connId c
    let n := s.connN c
    let k := s.connByte c 2 % 4
    let x := s.conn c
    let last := s.f (F.SAFE_CONN_seq c)
    let state := fun (t : State) => t.f (F.SAFE_CONN_state c)
    let masked := fun (t : State) (d : ChanSt) => ∀ o < 8, (s.connByte c 5).testBit o = true →
      (s.connByte c 6).testBit 0 = false → d.sto.getLsbD o = false ∧ t.ballCmd o = false
    let object := fun (t : State) (m : Nat) (fr : List Byte) => ∀ i < 64, (memGet t.mem (objAddr k (3 + m) 4 + i)) = fr.getD i 0
    let dataAt := s.connByte c 3
    let echoAt := s.connByte c 4
    let ring := s.connRing c
    let head := s.f (F.RING_HEAD_head 10)
    let w0 := s.word (s.ringEntry 10 head)
    let more := w0.getLsbD 16
    let waits := fun (m : Nat) => if ring then s.ringOn 10 = true ∧ getBits w0 0 3 = c ∧
      (if more then 2 else 1) ≤ s.ringCount 10 else m < 96 ∧ s.bit (newBit k m) = true
    let frame := fun (m : Nat) => if ring then
        (((List.range 28).map fun i => memGet s.mem (s.ringEntry 10 head + 4 + i)) ++
          if more then (List.range 32).map fun i => memGet s.mem (s.ringEntry 10 ((head + 1) % 0x10000) + i) else []).take
          (getBits w0 8 6)
      else ((List.range 64).map fun i => memGet s.mem (objAddr k (3 + m) 4 + i)).take
        (dlcLen ((s.obj k (3 + m) 0).getLsbD 30) (getBits (s.obj k (3 + m) 2) 0 4))
    let taken := fun (m : Nat) (t : State) => if ring then
      t.f (F.RING_HEAD_head 10) = (head + if more then 2 else 1) % 0x10000 else t.bit (newBit k m) = false
    (s.connRole c ≠ 1 → (∀ copy, Machine.exec (.safetyFrameReceived c copy) s = .next s) ∧
      Machine.exec (.consumerWatchdog c) s = .next s) ∧
    (∀ copy, dataAt < 96 → ¬ waits dataAt → Machine.exec (.safetyFrameReceived c copy) s = .next s) ∧
    (s.connRole c = 1 → waits dataAt → Memory.wf s.mem = true →
      let fr := frame dataAt
      (∀ copy, (copy = false ∨ frameKind fr ≠ 1 ∨ frameN fr ≠ n ∨ n = 0 ∨ 32 < n ∨ frameCheck id (3 + n) fr = false ∨
          x.good ≠ 0 ∧ ¬ (1 ≤ (frameSeq fr + 65536 - last) % 65536 ∧ (frameSeq fr + 65536 - last) % 65536 ≤ 8)) →
        Does (.safetyFrameReceived c copy) s fun t => state t = 1 ∧ (t.conn c).latched = true ∧ (t.conn c).good = 0 ∧
          t.f (F.SAFE_CONN_rejected c) = min 0xFF (s.f (F.SAFE_CONN_rejected c) + 1) ∧ t.f (F.SAFE_CONN_seq c) = last ∧
          taken dataAt t ∧ t.mem = s.mem ∧ masked t t.saf.die) ∧
      (∀ (seq : BitVec 16) (data : List Byte), data.length = n → 1 ≤ n → n ≤ 32 → (n = 1 ∨ s.ringOn 11 = false) →
        fr.take (n + 7) = dataFrame id seq.toNat data →
        let ahead := (seq.toNat + 65536 - last) % 65536
        let valid := state s = 2 ∨ x.good ≠ 0 ∧ ahead = 1
        let run := (data.getD 0 0).getLsbD 0
        (x.good = 0 ∨ 1 ≤ ahead ∧ ahead ≤ 8) →
        Does (.safetyFrameReceived c true) s fun t =>
          t.f (F.SAFE_CONN_seq c) = seq.toNat ∧ (t.conn c).good = 1 ∧ (t.conn c).due = some (s.now + 1000000 * s.connWd c) ∧
          (valid → state t = 2 ∧ t.bit (F.SAFE_CONN_run c) = run ∧ (t.conn c).data = data ∧
            (run = false → (t.conn c).latched = true ∧ masked t t.saf.die)) ∧
          (¬ valid → state t = 1 ∧ t.bit (F.SAFE_CONN_run c) = s.bit (F.SAFE_CONN_run c)) ∧
          (x.latched = true → (t.conn c).latched = true) ∧ (s.connEv c = true → t.bit (pendFld 49) = true) ∧
          taken dataAt t ∧ (ring = false → echoAt < 96 → object t echoAt (echoFrameOf id seq.toNat)) ∧
          (ring = true → s.ringOn 11 = true → s.ringCount 11 + 1 ≤ s.ringCap 11 →
            let e := s.ringEntry 11 (s.f (F.RING_TAIL_tail 11))
            t.f (F.RING_TAIL_tail 11) = (s.f (F.RING_TAIL_tail 11) + 1) % 0x10000 ∧
            t.word e = BitVec.ofNat 32 (c + 0x100 * 7) ∧
            ∀ i < 7, memGet t.mem (e + 4 + i) = (echoFrameOf id seq.toNat).getD i 0) ∧
          t.f (F.SAFE_CONN_rejected c) = s.f (F.SAFE_CONN_rejected c))) ∧
    (x.due = none → Machine.exec (.consumerWatchdog c) s = .next s) ∧
    (∀ d, x.due = some d → s.connRole c = 1 → Does (.consumerWatchdog c) s fun t => state t = 1 ∧
      t.bit (F.SAFE_CONN_run c) = false ∧ t.bit (pendFld 50) = true ∧ (t.conn c).latched = true ∧
      (t.conn c).data = List.replicate n 0 ∧ (t.conn c).due = none ∧ t.mem = s.mem ∧ masked t t.saf.die ∧
      (s.tm.holdLag = none → t.now = max s.now d)) ∧
    (s.connRole c ≠ 2 → Machine.exec (.producerSend c) s = .next s ∧ Machine.exec (.echoTimeout c) s = .next s ∧
      ∀ copy, Machine.exec (.echoFrame c copy) s = .next s) ∧
    (∀ copy, echoAt < 96 → ¬ waits echoAt → Machine.exec (.echoFrame c copy) s = .next s) ∧
    (x.sendAt = none → Machine.exec (.producerSend c) s = .next s) ∧
    (s.connRole c = 2 →
      let seq := (last + 1) % 0x10000
      let bits := fun (m : Nat) (p : Nat → Bool) => (List.range m).foldl (fun a i => a + (p i).toNat * 2 ^ i) 0
      let runs := bits 12 fun i => (pairOf s.saf.die i).st == 1
      let data := ([BitVec.ofNat 8 (bits 8 fun i => s.bit (F.SAFE_STO_on i)), BitVec.ofNat 8 runs, BitVec.ofNat 8 (runs / 256),
        (if s.safeState = 3 then 1#8 else if s.safeState = 4 then 2#8 else 0#8)] ++ List.replicate 28 0).take n
      (∀ at_, x.sendAt = some at_ → Memory.wf s.mem = true → Does (.producerSend c) s fun t => t.f (F.SAFE_CONN_seq c) = seq ∧
        (s.tm.holdLag = none → t.now = max s.now at_) ∧ (t.conn c).sendAt = some (at_ + 1000000 * s.connPeriod c) ∧
        (t.conn c).out = x.out ++ [(seq, t.now + 1000000 * s.connWd c)] ∧ t.saf.die = s.saf.die ∧
        (s.connRing c = false → dataAt < 96 → object t dataAt (dataFrame id seq data)) ∧
        (s.connRing c = true → s.ringOn 11 = true → s.ringCount 11 + 2 ≤ s.ringCap 11 →
          t.f (F.RING_TAIL_tail 11) = (s.f (F.RING_TAIL_tail 11) + if min n 32 + 7 ≤ 28 then 1 else 2) % 0x10000)) ∧
      (waits echoAt →
        let fr := frame echoAt
        (∀ seq : BitVec 16, (∃ e ∈ x.out, e.1 = seq.toNat) → fr.take 7 = echoFrameOf id seq.toNat →
          Does (.echoFrame c true) s fun t => (t.conn c).good = min 2 (x.good + 1) ∧
            (∀ e ∈ (t.conn c).out, e ∈ x.out ∧ e.1 ≠ seq.toNat) ∧ state t = (if 1 ≤ x.good then 2 else state s) ∧
            taken echoAt t ∧ t.saf.die = s.saf.die ∧ Keeps s t [0x10, 0x11, 0x12, 0x13]) ∧
        (∀ copy, (copy = false ∨ frameKind fr ≠ 2 ∨ frameN fr ≠ 0 ∨ frameCheck id 3 fr = false ∨
            ∀ e ∈ x.out, e.1 ≠ frameSeq fr) →
          Does (.echoFrame c copy) s fun t => state t = 1 ∧ (t.conn c).good = 0 ∧ t.bit (pendFld 50) = true ∧
            taken echoAt t ∧ t.saf.die = s.saf.die ∧ Keeps s t [0x10, 0x11, 0x12, 0x13])) ∧
      (x.out = [] → Machine.exec (.echoTimeout c) s = .next s) ∧
      (∀ e es, x.out = e :: es → Does (.echoTimeout c) s fun t => state t = 1 ∧ (t.conn c).good = 0 ∧
        (t.conn c).out = es ∧ t.bit (pendFld 50) = true ∧ t.saf.die = s.saf.die ∧
        (s.tm.holdLag = none → t.now = max s.now e.2) ∧ Keeps s t [0x12, 0x13]))
/-! ## Host link, register access, rings, commands and events -/

/-- Field of DEV_LOCK_STS that shows master `m`'s lock; the keeper has none (R428). -/
def lockBit : Sys2Proof.Master → Option Fld
  | .keeper => none
  | .pcie => some F.DEV_LOCK_STS_pcie_open
  | .spi => some F.DEV_LOCK_STS_spi_open
  | .cmd => some F.DEV_LOCK_STS_cmd_open

/-- Bits of a KG field take a write of `m`: no guard in force, the keeper, or an open lock (R428). -/
def opensKg (s : State) (m : Sys2Proof.Master) : Prop :=
  (s.sec.lifecycle ≠ 3 ∧ s.sec.lifecycle ≠ 4) ∨ ∀ x ∈ lockBit m, s.bit x = true

/-- Blocks in whose registers only enables, held references, triggers and flags act by a write. -/
def quiet (a : Nat) (r : RegSpec) : Prop :=
  a / 0x10000 ∈ [1, 2, 6, 8, 10, 11, 15] ∧ a % 0x10000 < 0x4000 ∧ r.wo = 0 ∧ r.w1c = 0 ∧ isEnable a = false ∧
  couched a = none ∧ isModRef a = false

/-- Nothing but the lock and drop bits of DEV_LOCK_STS and register `a` has changed. -/
def OnlyReg (s t : State) (a : Nat) : Prop :=
  (∀ b, b ≠ a → b ≠ R.DEV_LOCK_STS → t.reg b = s.reg b) ∧ t.mem = s.mem ∧ t.pending = s.pending ∧ t.tm = s.tm

/-- R10, R422, R424–R429: reads, writes, masked writes and locks. The model's choices: a key write opens the lock and does not
use it up (log entry 45), accesses of one cycle are commands in turn (log entry 120). -/
def hostAccess : Prop :=
  ∀ (s : State) (m : Sys2Proof.Master), s.pwr.mainRst = false →
    (m = .pcie → s.host.d3hot = true → ∀ a be v w, Machine.exec (.registerWrite m a be v w) s = .next s ∧
      Machine.exec (.readClear m a w) s = .next s ∧ Machine.exec (.maskedWrite m a v) s = .next s ∧
      Machine.exec (.lockKey m v) s = .next s) ∧
    (¬ (m = .pcie ∧ s.host.d3hot = true) →
      let host := m ≠ .keeper
      let service := s.f F.DEV_LOCK_STS_phase = 1
      let closed := fun (t : State) => ∀ x ∈ lockBit m, t.bit x = false
      let read := fun (t : State) => tblFind t.host.rdata (masterIdx m)
      (∀ a r v, a % 4 = 0 → regSpec a = some r → quiet a r → s.part.lacks a = false → tblFind s.held a = none →
        let rw := BitVec.ofNat 32 r.rw &&& liveBits a
        Does (.registerWrite m a 0xF v 0) s fun t => OnlyReg s t a ∧ closed t ∧
          (opensKg s m → (service ∨ ¬ host ∨ r.sg = 0) → t.reg a = (s.reg a &&& ~~~rw) ||| (v &&& rw)) ∧
          (¬ opensKg s m → r.kg ≠ 0 → t.bit F.DEV_LOCK_STS_kg_drop = true ∧
            ∀ i < 32, r.kg.testBit i = true → (t.reg a).getLsbD i = (s.reg a).getLsbD i) ∧
          (host → ¬ service → r.sg ≠ 0 → t.bit F.DEV_LOCK_STS_sg_drop = true ∧
            ∀ i < 32, r.sg.testBit i = true → (t.reg a).getLsbD i = (s.reg a).getLsbD i) ∧
          (∀ i < 32, rw.getLsbD i = true → r.kg.testBit i = false → r.sg.testBit i = false →
            (t.reg a).getLsbD i = v.getLsbD i)) ∧
      (∀ a r be v, a % 4 = 0 → regSpec a = some r → be ≠ 0xF#4 → Does (.registerWrite m a be v 0) s fun t =>
        OnlyReg s t R.DEV_LOCK_STS ∧ t.bit F.DEV_LOCK_STS_part_drop = true ∧ closed t) ∧
      (∀ a be v, a % 4 = 0 → a / 0x10000 < 0x15 → regSpec a = none → aliasOf a = none → canObject a = none →
        Does (.registerWrite m a be v 0) s fun t => OnlyReg s t R.DEV_LOCK_STS ∧ closed t) ∧
      (∀ k < 2, ∀ v hw : Word, Does (.registerWrite m (R.EVT_PEND k) 0xF v hw) s fun t =>
        t.reg (R.EVT_PEND k) = (if host then s.reg (R.EVT_PEND k) &&& ~~~v else s.reg (R.EVT_PEND k)) ||| hw) ∧
      (∀ a be v, a % 4 = 0 → dataBase ≤ a → a < dataBase + 0x200000 → Memory.wf s.mem = true →
        Does (.registerWrite m a be v 0) s fun t => closed t ∧
          (∀ b, b ≠ R.DEV_LOCK_STS → t.reg b = s.reg b) ∧
          (∀ j < 4, memGet t.mem (a + j) = if be.getLsbD j then (v >>> (8 * j)).setWidth 8 else memGet s.mem (a + j)) ∧
          ∀ b, b < a ∨ a + 4 ≤ b → memGet t.mem b = memGet s.mem b) ∧
      (∀ o be v, o % 4 = 0 → o < 0x200000 → host →
        (s.bit (F.RING_STS_enabled (o / 0x20000)) = false ∨ o / 0x20000 ∈ [4, 5, 6, 7, 8, 9, 11, 13, 15] ∨
          2 ^ s.f (F.RING_CFG_size (o / 0x20000)) * 32 ≤ o % 0x20000) →
        Does (.registerWrite m (ringBase + o) be v 0) s fun t => OnlyReg s t R.DEV_LOCK_STS) ∧
      (∀ o be v, o % 4 = 0 → o < 0x200000 → host → s.bit (F.RING_STS_enabled (o / 0x20000)) = true →
        o / 0x20000 ∈ [0, 1, 2, 3, 10, 12, 14] → o % 0x20000 < 2 ^ s.f (F.RING_CFG_size (o / 0x20000)) * 32 → Memory.wf s.mem = true →
        Does (.registerWrite m (ringBase + o) be v 0) s fun t => closed t ∧
          (∀ b, b ≠ R.DEV_LOCK_STS → t.reg b = s.reg b) ∧
          (∀ j < 4, memGet t.mem (ringBase + o + j) =
            if be.getLsbD j then (v >>> (8 * j)).setWidth 8 else memGet s.mem (ringBase + o + j)) ∧
          ∀ b, b < ringBase + o ∨ ringBase + o + 4 ≤ b → memGet t.mem b = memGet s.mem b) ∧
      (∀ a r v, a % 4 = 0 → regSpec a = some r → quiet a r → s.part.lacks a = false → tblFind s.held a = none → r.mw ≠ 0 →
        let picks := fun (i : Nat) => i < 16 ∧ v.getLsbD (16 + i) = true ∧ r.mw.testBit i = true ∧ (liveBits a).getLsbD i = true
        let guarded := ∃ i < 16, v.getLsbD (16 + i) = true ∧ r.kg.testBit i = true
        Does (.maskedWrite m (a + 0x8000) v) s fun t => OnlyReg s t a ∧
          (¬ guarded → r.sg = 0 → (∀ i < 32, (t.reg a).getLsbD i = if picks i then v.getLsbD i else (s.reg a).getLsbD i) ∧
            ∀ x ∈ lockBit m, t.bit x = s.bit x) ∧
          (guarded → closed t ∧ (¬ opensKg s m → t.bit F.DEV_LOCK_STS_kg_drop = true ∧
            ∀ i < 32, r.kg.testBit i = true → (t.reg a).getLsbD i = (s.reg a).getLsbD i))) ∧
      (∀ a r inc, a % 4 = 0 → regSpec a = some r → r.rc ≠ 0 → a / 0x10000 ∈ [2, 6, 11, 15] → s.part.lacks a = false →
        Does (.readClear m a inc) s fun t => OnlyReg s t a ∧
          t.reg a = (s.reg a &&& ~~~(BitVec.ofNat 32 r.rc)) ||| (inc &&& BitVec.ofNat 32 r.rc) ∧
          (∀ v ∈ read t, ∃ w, v = [w] ∧ w &&& BitVec.ofNat 32 r.rc = s.reg a &&& BitVec.ofNat 32 r.rc) ∧ (read t).isSome) ∧
      (∀ a, a % 4 = 0 → a / 0x10000 < 0x15 → regSpec a = none → canObject a = none → Does (.readClear m a 0) s fun t =>
        read t = some [0] ∧ t.regs = s.regs ∧ t.mem = s.mem) ∧
      (Does (.readClear m R.DEV_IDCODE 0) s fun t => read t = some [match s.part with
        | .olv8840 => 0x18840573 | .olv8830 => 0x18830573 | .olv8810 => 0x18810573]) ∧
      (Does (.readClear m R.DEV_VARIANT 0) s fun t => read t = some [match s.part with
        | .olv8840 => 0xFFFFFFFF | .olv8830 => 0xFFFF00FF | .olv8810 => 0x0F0F0000]) ∧
      (∀ v, Does (.lockKey m v) s fun t => OnlyReg s t R.DEV_LOCK_STS ∧
        ∀ x ∈ lockBit m, t.bit x = decide (v.setWidth 16 = 0x5A3C#16)) ∧
      (∀ k : Fin 24, Does (.forerunnerRead m k) s fun t => ∃ w, read t = some [w] ∧ t.mem = s.mem ∧
        (k.val = 9 → w = s.reg R.SAFE_STS) ∧ (k.val = 10 → w = s.reg R.SAFE_OUT) ∧
        (k.val = 0 → w = BitVec.ofNat 32 s.now ∧
          tblFind t.host.latch (masterIdx m) = some (BitVec.ofNat 32 (s.now / 2 ^ 32))))) ∧
    (∀ x ∈ lockBit m, ∀ a, tblFind s.host.lockAt (masterIdx m) = some a → s.bit x = true → Does (.lockLapse m) s fun t =>
      t.bit x = false ∧ t.bit F.DEV_LOCK_STS_lapsed = true ∧ (s.tm.holdLag = none → t.now = max s.now (a + 1000000)) ∧
      (∀ b, b ≠ R.DEV_LOCK_STS → t.reg b = s.reg b)) ∧
    (∀ x ∈ lockBit m, s.bit x = false → Machine.exec (.lockLapse m) s = .next s)

/-- R420, R421, R423, R497: the PCIe endpoint and the SPI slave. No command reads the configuration space: what it holds is a
function of the state (the model's choice, log entry 135). A level that is there already changes nothing (log entry 13), and the
function mask is set and cleared by MSIX_UNMASK (log entry 41): the model's choices. -/
def hostLinks : Prop :=
  ∀ s : State, s.pwr.mainRst = false →
    let linked := fun (t : State) => t.bit (pendFld 54) = true ∧ Keeps s t [0x12] ∧ t.tm = s.tm
    (∀ v, (s.host.perstN = v → Machine.exec (.perst v) s = .next s) ∧
      (s.host.perstN ≠ v → Does (.perst v) s fun t => t.host.perstN = v ∧ linked t)) ∧
    (∀ v, (s.host.linkUp = v → Machine.exec (.linkChange v) s = .next s) ∧
      (s.host.linkUp ≠ v → Does (.linkChange v) s fun t => t.host.linkUp = v ∧ linked t)) ∧
    (∀ v, (s.host.d3hot = v → Machine.exec (.powerStateChange v) s = .next s) ∧
      (s.host.d3hot ≠ v → Does (.powerStateChange v) s fun t => t.host.d3hot = v ∧ linked t)) ∧
    (∀ (a v : Word), Does (.spiWrite a [v]) s fun t =>
      Does (.registerWrite .spi ((if a.getLsbD 31 then ringBase else 0) + a.toNat % 2 ^ 31) 0xF v 0) s fun u =>
        t.regs = u.regs ∧ t.mem = u.mem ∧ t.tm = u.tm) ∧
    (∀ (a : Nat) (ws : List Word), a % 4 = 0 → dataBase ≤ a → a + 4 * ws.length ≤ dataBase + 0x200000 → Memory.wf s.mem = true →
      Does (.spiWrite (BitVec.ofNat 32 a) ws) s fun t => (∀ i < ws.length, t.word (a + 4 * i) = ws.getD i 0) ∧
        (∀ b, b < a ∨ a + 4 * ws.length ≤ b → memGet t.mem b = memGet s.mem b) ∧ ∀ b, b ≠ R.DEV_LOCK_STS → t.reg b = s.reg b) ∧
    (∀ (a n : Nat), a % 4 = 0 → dataBase ≤ a → a + 4 * n ≤ dataBase + 0x200000 → Does (.spiRead (BitVec.ofNat 32 a) n) s fun t =>
      tblFind t.host.rdata (masterIdx .spi) = some (s.words a n) ∧ t.regs = s.regs ∧ t.mem = s.mem) ∧
    (Does .spiStatus s fun t => t.host.spiError = false ∧ t.regs = s.regs ∧ t.mem = s.mem ∧
      tblFind t.host.rdata (masterIdx .spi) = some [BitVec.ofNat 32 ((if s.host.spiDropped then 1 else 0) +
        (if s.host.spiError then 2 else 0) + 4 * s.f F.DEV_LOCK_STS_phase)]) ∧
    (Does .spiFrameError s fun t => t.host.spiError = true ∧ linked t) ∧
    (let x := s.pciConfig
     x.vendorDevice.toNat / 0x10000 = (match s.part with | .olv8840 => 0x8840 | .olv8830 => 0x8830 | .olv8810 => 0x8810) ∧
     x.subVendor = 0x1F4C ∧ x.subsystem = 1 ∧ x.revision = s.f F.DEV_ID_stepping ∧ x.classCode = 0x118000 ∧
     x.bar0 = some (0x1000000, false, false) ∧ x.bar1 = none ∧ x.bar2 = some (0x200000, true, true) ∧ x.interruptPin = 0 ∧
     x.noSoftReset = true ∧ x.d3hot = s.host.d3hot ∧ x.vectors = 16 ∧ x.fnMask = s.host.fnMask)

/-- R431–R434: the indices of a ring as its host side writes them. -/
def hostRings : Prop :=
  ∀ (s : State) (n : Fin 16) (v : Word), s.pwr.mainRst = false →
    let on := s.bit (F.RING_STS_enabled n) = true
    let dev := n.val ∈ [4, 5, 6, 7, 8, 9, 11, 13, 15]
    let head := s.f (F.RING_HEAD_head n)
    let tail := s.f (F.RING_TAIL_tail n)
    let count := (tail + 0x10000 - head) % 0x10000
    let v16 := v.toNat % 0x10000
    let size := v.toNat % 16
    let bad := fun (c : Instr) => Machine.exec c s = .next (s.setF (F.RING_STS_idx_bad n) 1)
    (Does (.ringConfig n v) s fun t => t.f (F.RING_CFG_size n) = size ∧ t.f (F.RING_HEAD_head n) = 0 ∧
      t.f (F.RING_TAIL_tail n) = 0 ∧ t.bit (F.RING_STS_enabled n) = decide (4 ≤ size ∧ size ≤ 12) ∧
      (1 ≤ size → size < 4 ∨ 12 < size → t.bit (F.RING_STS_cfg_error n) = true) ∧ n.val ∉ t.host.dropping ∧ Keeps s t [0x11]) ∧
    (let c := (v16 + 0x10000 - head) % 0x10000
     let takes := on ∧ ¬ dev ∧ count ≤ c ∧ c ≤ 2 ^ s.f (F.RING_CFG_size n)
     (¬ takes → bad (.doorbell n v)) ∧
     (takes → Does (.doorbell n v) s fun t => t.f (F.RING_TAIL_tail n) = v16 ∧ t.f (F.RING_HEAD_head n) = head ∧
       t.bit (pendFld 51) = true ∧ t.f (F.RING_CNT_entries n) = (s.f (F.RING_CNT_entries n) + (c - count)) % 2 ^ 32 ∧
       Keeps s t [0x11, 0x12])) ∧
    (let c := (tail + 0x10000 - v16) % 0x10000
     let takes := on ∧ dev ∧ c ≤ count
     (¬ takes → bad (.headWrite n v)) ∧
     (takes → Machine.exec (.headWrite n v) s = .next (s.setF (F.RING_HEAD_head n) v.toNat)))

/-- The response to command `c` stands at the tail of its response ring where that has room, and no command is in hand (R436). -/
def Answers (s t : State) (c : CmdRec) (status : Nat) (ws : List Word) : Prop :=
  t.host.cmd = none ∧
  (c.ring < 4 → s.ringOn (4 + c.ring) = true → s.ringCount (4 + c.ring) < s.ringCap (4 + c.ring) → Memory.wf s.mem = true →
    let r := 4 + c.ring
    t.f (F.RING_TAIL_tail r) = (s.f (F.RING_TAIL_tail r) + 1) % 0x10000 ∧
    t.words (s.ringEntry r (s.f (F.RING_TAIL_tail r))) 8 =
      [BitVec.ofNat 32 (getBits (c.words.getD 0 0) 0 8 + 0x100 * status + 0x10000 * getBits (c.words.getD 0 0) 16 16),
       BitVec.ofNat 32 (c.ring + 0x10000 * (c.index % 0x10000))] ++ (ws ++ List.replicate 6 0).take 6)

/-- The values that READ_CLEAR commands of the command-ring master return for the addresses in turn, and the state they leave. -/
def readsInTurn (s : State) : List Word → Option (List Word × State)
  | [] => some ([], s)
  | a :: as => match Machine.exec (.readClear .cmd a.toNat 0) s with
    | .next v => match tblFind v.host.rdata (masterIdx .cmd), readsInTurn { v with host := { v.host with rdata := s.host.rdata } } as with
      | some [w], some r => some (w :: r.1, r.2)
      | _, _ => none
    | _ => none

/-- The state that REGISTER_WRITE commands of the command-ring master leave for the address and value pairs in turn, and the mask
of the pairs dropped or partly dropped, from pair `j`. -/
def writesInTurn (s : State) (j : Nat) : List (Word × Word) → Option (Nat × State)
  | [] => some (0, s)
  | p :: ps => match Machine.execRegisterWrite .cmd p.1.toNat 0xF p.2 0 s with
    | .next v => (writesInTurn v (j + 1) ps).map fun r =>
      (r.1 + if (s.busWrite .cmd p.1.toNat 0xF p.2 0).2 then 2 ^ j else 0, r.2)
    | _ => none

/-- R435–R437: the commands that the keeper takes and executes. REG_READ and REG_WRITE act as READ_CLEAR and REGISTER_WRITE of
the command-ring master in turn. A command without its condition changes nothing (log entry 13), and DECKLE_CONFIG looks at its
arguments before the key (log entry 46): the model's choices. -/
def hostCommands : Prop :=
  ∀ s : State, s.pwr.mainRst = false →
    let ready := fun (p : Nat) => s.ringOn p = true ∧ s.ringCount p ≠ 0 ∧ s.ringOn (4 + p) = true ∧
      s.ringCount (4 + p) < s.ringCap (4 + p)
    let free := s.f F.DEV_LOCK_STS_phase = 1 ∧ s.host.cmd = none
    (¬ free ∨ (∀ p < 4, ¬ ready p) → Machine.exec .commandTake s = .next s) ∧
    (free → ∀ p < 4, ready p → (∀ q < p, ¬ ready q) → Does .commandTake s fun t =>
      let h := s.f (F.RING_HEAD_head p)
      t.host.cmd = some ⟨p, h, s.words (s.ringEntry p h) 8⟩ ∧ t.f (F.RING_HEAD_head p) = (h + 1) % 0x10000 ∧ Keeps s t [0x11]) ∧
    (s.host.cmd = none → ∀ c ∈ [Instr.cmdNop, .cmdVersion, .timeRead, .regRead, .regWrite, .deckleConfig, .deckleRead,
      .unknownOpcode], Machine.exec c s = .next s) ∧
    (∀ c, s.host.cmd = some c →
      let op := getBits (c.words.getD 0 0) 0 8
      let w1 := c.words.getD 1 0
      let u := getBits w1 0 8
      let q := getBits w1 8 8
      let val := getBits (c.words.getD 2 0) 0 16
      let k := getBits w1 0 3
      let pair := fun (j : Nat) => (c.words.getD (2 + 2 * j) 0).toNat
      (op = 0 → Does .cmdNop s fun t => Answers s t c 0 []) ∧
      (op = 1 → Does .cmdVersion s fun t => Answers s t c 0 [Config.keeperVersion]) ∧
      (op = 2 → Does .timeRead s fun t => Answers s t c 0 [BitVec.ofNat 32 s.now, BitVec.ofNat 32 (s.now / 2 ^ 32)]) ∧
      (op = 3 → (k = 0 ∨ k = 7 → Does .regRead s fun t => Answers s t c 2 []) ∧
        (1 ≤ k → k ≤ 6 → (∀ a ∈ (c.words.drop 2).take k, a.toNat < 0x1000000) →
          ∃ r, readsInTurn s ((c.words.drop 2).take k) = some r ∧ Does .regRead s fun t => Answers r.2 t c 0 r.1) ∧
        (1 ≤ k → k ≤ 6 → (∀ j < k, ∃ a : Word, c.words[2 + j]? = some a ∧ dataBase ≤ a.toNat ∧ a.toNat < dataBase + 0x200000) →
          Does .regRead s fun t => Answers s t c 0 ((List.range k).map fun j => s.word ((c.words.getD (2 + j) 0).toNat / 4 * 4)))) ∧
      (op = 4 → (getBits w1 0 2 = 0 → Does .regWrite s fun t => Answers s t c 2 []) ∧
        (let ps := (List.range (getBits w1 0 2)).map fun j => (c.words.getD (2 + 2 * j) 0, c.words.getD (3 + 2 * j) 0)
         1 ≤ getBits w1 0 2 → (∀ p ∈ ps, p.1.toNat < 0x1000000) → ∃ r, writesInTurn s 0 ps = some r ∧
          Does .regWrite s fun t => Answers r.2 t c (if r.1 = 0 then 0 else 3) [BitVec.ofNat 32 r.1]) ∧
        (getBits w1 0 2 = 1 → pair 0 % 4 = 0 → dataBase ≤ pair 0 → pair 0 < dataBase + 0x200000 → Memory.wf s.mem = true →
          c.ring < 4 → Does .regWrite s fun t => t.host.cmd = none ∧ t.word (pair 0) = c.words.getD 3 0 ∧
            t.bit F.DEV_LOCK_STS_cmd_open = false)) ∧
      (op = 5 →
        let badArg := s.part.lanes ≤ u ∨ 7 < q ∨ 0x8000 ≤ val
        (badArg → Does .deckleConfig s fun t => Answers s t c 2 [] ∧ t.eng.configured = s.eng.configured) ∧
        (¬ badArg → ¬ opensKg s .cmd → Does .deckleConfig s fun t => Answers s t c 2 [] ∧
          t.eng.configured = s.eng.configured ∧ t.bit F.DEV_LOCK_STS_kg_drop = true) ∧
        (¬ badArg → opensKg s .cmd → Does .deckleConfig s fun t => Answers s t c 0 [BitVec.ofNat 32 val] ∧
          tblFind t.eng.configured (8 * u + q) = some val ∧ t.bit F.DEV_LOCK_STS_cmd_open = false)) ∧
      (op = 6 → (s.part.lanes ≤ u → Does .deckleRead s fun t => Answers s t c 2 []) ∧
        (u < s.part.lanes → Does .deckleRead s fun t => Answers s t c 0 ((List.range 4).map fun j =>
          BitVec.ofNat 32 (s.configuredDeckle u (2 * j) + 0x10000 * s.configuredDeckle u (2 * j + 1))))) ∧
      (6 < op → Does .unknownOpcode s fun t => Answers s t c 1 []))

/-- R433, R434, R441–R443: the event log, what a ring says as it fills and overflows, and the vectors. An event without its
condition changes nothing (log entry 13), and which masks hold a message back is log entry 41's: the model's choices. -/
def hostEvents : Prop :=
  ∀ s : State, s.pwr.mainRst = false →
    let room := s.ringOn 8 = true ∧ s.ringCount 8 < s.ringCap 8
    let rises := room ∧ s.ringCount 8 < s.f (F.RING_THR_thr 8) ∧ s.f (F.RING_THR_thr 8) ≤ s.ringCount 8 + 1
    let tail := s.f (F.RING_TAIL_tail 8)
    let blocked := fun (v : Nat) => v ∈ s.host.masked ∨ s.host.fnMask = true
    let sends := fun (t : State) (v : Nat) =>
      (blocked v → v ∈ t.host.pba ∧ t.regs = s.regs) ∧
      (¬ blocked v → t.host.lastMsg = some v ∧ v ∉ t.host.pba ∧
        t.f (F.EVT_VEC_sent v) = min 0xFFFF (s.f (F.EVT_VEC_sent v) + 1) ∧ Keeps s t [0x12])
    let level := fun (v : Nat) => ∃ k < 64, s.bit (F.EVT_SRC_vec_en k) = true ∧ s.f (F.EVT_SRC_vector k) = v ∧ s.bit (pendFld k) = true
    (s.host.queue = [] → Machine.exec .eventLogWrite s = .next s) ∧
    (∀ i r, s.host.queue[i]? = some r → (∀ j x, s.host.queue[j]? = some x → j ≠ i → r.before x = true ∧ x.before r = false) →
      Does .eventLogWrite s fun t => t.host.logNo = s.host.logNo + 1 ∧
        (¬ rises → t.host.queue = s.host.queue.eraseIdx i) ∧ (room → ¬ rises → t.host.dropped = false) ∧
        (rises → t.bit (pendFld 52) = true ∧ t.f (F.EVT_SRC_count 52) = (s.f (F.EVT_SRC_count 52) + 1) % 2 ^ 16) ∧
        (s.tm.holdLag = none → t.now = max s.now (r.stamp + 1000)) ∧
        (room → t.f (F.RING_TAIL_tail 8) = (tail + 1) % 0x10000 ∧
          (Memory.wf s.mem = true → t.words (s.ringEntry 8 tail) 8 =
            [BitVec.ofNat 32 (r.source % 64 + (if r.safety then 0x100 else 0) + (if s.host.dropped then 0x200 else 0) +
              0x10000 * (r.payload % 0x10000)), BitVec.ofNat 32 r.stamp, BitVec.ofNat 32 (r.stamp / 2 ^ 32), r.origin, r.reaction,
              BitVec.ofNat 32 r.tick, 0, BitVec.ofNat 32 s.host.logNo])) ∧
        (¬ room → t.host.dropped = true ∧ t.f (F.RING_TAIL_tail 8) = tail ∧ t.mem = s.mem) ∧
        (s.ringOn 8 = false → t.f (F.RING_DROP_drops 8) = s.f (F.RING_DROP_drops 8) ∧ t.bit (pendFld 53) = s.bit (pendFld 53)) ∧
        (s.ringOn 8 = true → ¬ room → t.bit (F.RING_STS_overflow 8) = true ∧ 8 ∈ t.host.dropping ∧
          t.f (F.RING_DROP_drops 8) = min 0xFFFF (s.f (F.RING_DROP_drops 8) + 1) ∧
          (8 ∈ s.host.dropping → t.bit (pendFld 53) = s.bit (pendFld 53) ∧ t.f (F.EVT_SRC_count 53) = s.f (F.EVT_SRC_count 53)) ∧
          (8 ∉ s.host.dropping → t.bit (pendFld 53) = true ∧
            t.f (F.EVT_SRC_count 53) = (s.f (F.EVT_SRC_count 53) + 1) % 2 ^ 16))) ∧
    (∀ v : Fin 16, (¬ level v → Machine.exec (.vectorAck v) s = .next s) ∧
      (level v → Does (.vectorAck v) s fun t => sends t v)) ∧
    (Machine.exec (.msixUnmask (.function true)) s = .next { s with host := { s.host with fnMask := true } }) ∧
    (Does (.msixUnmask (.function false)) s fun t => t.host.fnMask = false ∧ t.host.masked = s.host.masked ∧ t.mem = s.mem ∧
      Keeps s t [0x12] ∧ ∀ v < 16,
        (v ∈ s.host.pba → v ∉ s.host.masked → v ∉ t.host.pba ∧
          t.f (F.EVT_VEC_sent v) = min 0xFFFF (s.f (F.EVT_VEC_sent v) + 1)) ∧
        (v ∈ s.host.masked → (v ∈ t.host.pba ↔ v ∈ s.host.pba)) ∧
        (v ∉ s.host.pba ∨ v ∈ s.host.masked → t.f (F.EVT_VEC_sent v) = s.f (F.EVT_VEC_sent v))) ∧
    (∀ v : Fin 16, Does (.msixUnmask (.vector v)) s fun t => v.val ∉ t.host.masked ∧ t.mem = s.mem ∧
      (v.val ∈ s.host.pba → s.host.fnMask = false → t.host.lastMsg = some v.val ∧ v.val ∉ t.host.pba) ∧
      (v.val ∉ s.host.pba → t.regs = s.regs ∧ t.host.lastMsg = s.host.lastMsg))

/-- R420–R447, R501: the host side. -/
def Obligations.HostAccessAndLinks : Prop := hostAccess ∧ hostLinks
/-- R430–R443: rings, commands and the event log. -/
def Obligations.RingsCommandsEvents : Prop := hostRings ∧ hostCommands ∧ hostEvents
/-! ## Lifecycle, boot, tokens, resets, monitors, GPIOs and debug -/

/-- Boot check `k` fails for image `i` (R450, R451). -/
def bootFails (s : State) (i : Image) : Nat → Prop
  | 1 => i.magic ≠ 0x38564C4F ∨ 0x400000 < i.length
  | 2 => s.sec.admits i = false
  | 3 => Config.ecdsaVerify Config.vendorKey (i.manifest.take 64) i.vendorSig = false
  | 4 => s.sec.lifecycle ≠ 1 ∧ Config.ecdsaVerify (if s.sec.lifecycle = 2 then i.customerKey else s.sec.customerKey)
      i.manifest i.customerSig = false
  | 5 => i.svn < s.sec.svnMin
  | 6 => Config.sha384 i.keeper ≠ i.keeperHash ∨ Config.sha384 i.app ≠ i.appHash
  | 7 => (∃ t ∈ i.tiles, s.sec.plain i t = none) ∨ ∃ k ∈ i.imageKey, Config.keyUnwrap Config.transportKey k.2 = none
  | _ => False

/-- The boot of `i` ends with `code`; 0 where every check passes. -/
def BootEnds (s : State) (i : Image) (code : Nat) : Prop :=
  (∀ k < code, ¬ bootFails s i k) ∧ if code = 0 then (∀ k < 8, ¬ bootFails s i k) else code < 8 ∧ bootFails s i code

/-- A boot has failed with `code` (R451): outside BLANK the phase is RECOVERY. -/
def BootFailed (s t : State) (code : Nat) : Prop :=
  t.f F.DEV_BOOT_error = code ∧ t.f F.DEV_BOOT_status = 2 ∧ t.bit (pendFld 59) = true ∧ t.f F.SEC_ALERT_cause = 1 ∧
  (s.sec.lifecycle ≠ 0 → t.f F.DEV_LOCK_STS_phase = 3) ∧ (s.sec.lifecycle = 0 → t.f F.DEV_LOCK_STS_phase = s.f F.DEV_LOCK_STS_phase) ∧
  t.sec.image = s.sec.image ∧ t.sec.lifecycle = s.sec.lifecycle ∧ t.sec.svnMin = s.sec.svnMin

/-- What an accepted image changes in OTP and key store (R451, R453). -/
def Accepted (s t : State) (i : Image) : Prop :=
  t.sec.svnMin = max s.sec.svnMin i.svn ∧ t.f F.DEV_SVN_svn = t.sec.svnMin % 2 ^ 16 ∧
  (s.sec.lifecycle = 2 → t.sec.lifecycle = 3 ∧ t.f F.DEV_LC_state = 3 ∧ t.sec.customerKey = i.customerKey ∧
    (i.imageKey = [] → t.sec.imageKey = none) ∧
    (∀ k ks, i.imageKey = k :: ks → t.sec.imageKey = Config.keyUnwrap Config.transportKey k.2)) ∧
  (s.sec.lifecycle ≠ 2 → t.sec.lifecycle = s.sec.lifecycle ∧ t.sec.customerKey = s.sec.customerKey ∧ t.sec.imageKey = s.sec.imageKey)

/-- The keeper's steps from 2 to `steps` (R457, R458) have run from `s` to `t`, with target SCRAPPED where `scrap`; `erased` says
that every byte read back as zero. -/
def Erasing (s t : State) (scrap erased : Bool) (steps : Nat) : Prop :=
  (2 ≤ steps → t.sec.imageKey = none) ∧
  (steps < 3 → t.mem = s.mem) ∧
  (3 ≤ steps → (∀ a, progBase ≤ a → a < dataBase → memGet t.mem a = 0) ∧
    (∀ a, a < progBase ∨ dataBase ≤ a → memGet t.mem a = memGet s.mem a) ∧ ∀ n < 3072, t.quarantined n = true) ∧
  (steps < 4 → t.f F.SEC_TOKEN_STS_step = max 2 (steps + 1) ∧ t.sec.lifecycle = s.sec.lifecycle) ∧
  (steps = 4 → erased = true → t.f F.SEC_TOKEN_STS_step = 5 ∧ t.sec.lifecycle = s.sec.lifecycle) ∧
  (steps = 5 → erased = true → t.f F.SEC_TOKEN_STS_step = 6 ∧ t.sec.lifecycle = (if scrap then 5 else 4) ∧ t.sec.jtag = false) ∧
  (6 ≤ steps → erased = true → t.f F.SEC_TOKEN_STS_result = 7 ∧ t.f F.DEV_LOCK_STS_phase = 3 ∧
    t.bit F.DEV_LC_opening = false ∧ t.sec.lifecycle = (if scrap then 5 else 4) ∧ t.sec.jtag = !scrap) ∧
  (4 ≤ steps → erased = false → t.f F.SEC_TOKEN_STS_result = 6 ∧ t.f F.DEV_LOCK_STS_phase = 3 ∧
    t.bit F.DEV_LC_opening = false ∧ t.sec.lifecycle = 5 ∧ t.sec.jtag = false)

/-- R448–R454, R468, R474, R490, R504: the release of the reset and the boot. A cause that the device has measured holds it. The
model's choices: the boots of BLANK, of vendor images and in RECOVERY (log entry 51), a boot in one command (log entry 91),
BOOT_GO while an opening is pending (log entry 134), and what holds a reset (log entry 88). -/
def lifeBoot : Prop :=
  ∀ s : State,
    let held := s.pwr.hotRst = true ∨ ∃ r < 5, tblGet 0 s.pwr.railOut r ≠ 0
    (∀ (straps : BitVec 3) (erased : Bool) (steps : Fin 7),
      (s.pwr.mainRst = false → s.pwr.bootPend = false → Machine.exec (.porstRelease straps ⟨erased, steps⟩) s = .next s) ∧
      (s.pwr.mainRst = true → held → Machine.exec (.porstRelease straps ⟨erased, steps⟩) s = .next s) ∧
      (s.pwr.mainRst = true ∧ ¬ held ∨ s.pwr.mainRst = false ∧ s.pwr.bootPend = true → Does (.porstRelease straps ⟨erased, steps⟩) s fun t =>
        let lc := s.sec.lifecycle
        t.pwr.mainRst = false ∧ t.pwr.bootPend = false ∧ t.pwr.causes = 0 ∧ t.f F.DEV_BOOT_mode = straps.toNat ∧
        (let c := s.pwr.causes
         let shown := if c.getLsbD 0 then c else s.reg R.CLK_RST_CAUSE ||| c
         (c.getLsbD 2 = false → t.reg R.CLK_RST_CAUSE = shown) ∧
         (c.getLsbD 2 = true → t.reg R.CLK_RST_CAUSE &&& 0xFF = shown &&& 0xFF ∧ t.f F.CLK_RST_CAUSE_rail = s.pwr.rail % 8)) ∧
        (s.pwr.clockFail = true → t.bit (pendFld 57) = true) ∧
        (s.sec.opening = false →
          t.bit F.DEV_LC_opening = false ∧ (t.sec.jtag = true ↔ lc = 0 ∨ lc = 1 ∨ lc = 4) ∧
          (lc = 0 → t.f F.DEV_LOCK_STS_phase = s.f F.DEV_LOCK_STS_phase ∧ t.sec.image = s.sec.image) ∧
          (lc = 5 → t.f F.DEV_LOCK_STS_phase = 3 ∧ t.sec.image = s.sec.image) ∧
          (1 ≤ lc → lc ≤ 4 →
            (2 < straps.toNat → t.f F.DEV_LOCK_STS_phase = 3 ∧ t.sec.image = s.sec.image) ∧
            (straps = 1 ∨ straps = 2 → t.f F.DEV_LOCK_STS_phase = s.f F.DEV_LOCK_STS_phase ∧ t.sec.image = s.sec.image) ∧
            (straps = 0 → (s.sec.flash = none → BootFailed s t 1) ∧
              ∀ i, s.sec.flash = some i →
                (∀ k, 1 ≤ k → BootEnds s i k → BootFailed s t k) ∧
                (BootEnds s i 0 → t.f F.DEV_BOOT_status = 1 ∧ t.f F.DEV_BOOT_error = 0 ∧ t.sec.image = some i ∧
                  t.sec.fromFlash = true ∧ t.f F.DEV_LOCK_STS_phase = (if lc = 1 then 2 else 1) ∧ Accepted s t i)))) ∧
        (s.sec.opening = true → t.sec.image = s.sec.image ∧ Erasing s t s.sec.scrapMark erased steps))) ∧
    (s.pwr.mainRst = false → ∀ program : Bool,
      let i := s.hostImage
      let phase := s.f F.DEV_LOCK_STS_phase
      (phase ≠ 0 → phase ≠ 3 → Machine.exec (.bootGo program) s = .next s) ∧
      (s.sec.opening = true → Machine.exec (.bootGo program) s = .next s) ∧
      (phase = 0 ∨ phase = 3 → s.sec.opening = false →
        (∀ k, 1 ≤ k → BootEnds s i k → Does (.bootGo program) s fun t => BootFailed s t k) ∧
        (BootEnds s i 0 → Does (.bootGo program) s fun t =>
          t.f F.DEV_BOOT_status = (if program && !s.sec.noFlash then 3 else 1) ∧ t.f F.DEV_BOOT_error = 0 ∧ Accepted s t i ∧
          t.sec.flash = (if program && !s.sec.noFlash then some i else s.sec.flash) ∧
          (phase = 3 → t.f F.DEV_LOCK_STS_phase = 3 ∧ t.mem = s.mem) ∧
          (phase = 0 → t.sec.image = some i ∧ t.sec.fromFlash = false ∧
            t.f F.DEV_LOCK_STS_phase = if s.sec.lifecycle = 1 then 2 else 1))))

/-- Token check `k` fails (R457). -/
def tokenFails (s : State) (t : List Byte) : Nat → Prop
  | 1 => (t[4]? = some 1 ∧ s.sec.lifecycle ≠ 3) ∨ (t[4]? = some 2 ∧ s.sec.lifecycle ∈ [0, 1, 5]) ∨
      s.bit F.TIME_TICK_STS_running = true ∨ ∃ k < 8, s.bit (F.PROT_CV_CTL_en k) = true
  | 2 => leNat (t.take 4) ≠ 0x4E4B5455 ∨ ¬ (t[4]? = some 1 ∨ t[4]? = some 2) ∨ (t.drop 5).take 3 ≠ [0, 0, 0]
  | 3 => leNat ((t.drop 8).take 16) ≠ s.sec.uid.toNat
  | 4 => (t.drop 24).take 16 ≠ (List.range 4).flatMap fun k => leBytes 4 (s.f (F.SEC_NONCE_nonce k))
  | 5 => Config.ecdsaVerify (if t[4]? = some 2 ∧ s.sec.lifecycle = 2 then Config.vendorKey else s.sec.customerKey)
      (t.take 40) (BitVec.ofNat 768 ((t.drop 40).foldl (fun a b => a * 256 + b.toNat) 0)) = false
  | _ => False

/-- R456–R458: a token is refused with the first failing check, or destroys the secrets and opens or scraps the device. The
steps of a token, and the one that a reset interrupts, are an operand (log entries 48 and 91). -/
def lifeToken : Prop :=
  ∀ (s : State) (erased : Bool) (steps : Fin 7), s.pwr.mainRst = false →
    let k := memBytes s.mem (dataBase + 32 * s.f F.SEC_TOKEN_addr) 136
    let scrap := k[4]? = some 2
    (∀ e, 1 ≤ e → e ≤ 5 → tokenFails s k e → (∀ j < e, ¬ tokenFails s k j) → Does (.token ⟨erased, steps⟩) s fun t =>
      t.f F.SEC_TOKEN_STS_result = e ∧ t.f F.SEC_ALERT_cause = 2 ∧ t.bit (pendFld 59) = true ∧ t.sec = s.sec ∧ t.mem = s.mem) ∧
    ((∀ j < 6, ¬ tokenFails s k j) → Does (.token ⟨erased, steps⟩) s fun t =>
      (steps.val = 0 → t.f F.SEC_TOKEN_STS_step = 1 ∧ t.sec = s.sec ∧ t.mem = s.mem) ∧
      (1 ≤ steps.val → t.sec.openMark = (s.sec.openMark || !decide scrap) ∧ t.sec.scrapMark = (s.sec.scrapMark || decide scrap) ∧
        Erasing s t t.sec.scrapMark erased steps ∧
        (4 ≤ steps.val → erased = true →
          t.reg R.SEC_ERASE = crc32c ((k.drop 24).take 16 ++ List.replicate 3149824 0))))

/-- R448, R455, R459, R502: JTAG, the test multiplexer, the keeper's watchdog, the end of a re-fetch. The model's choices: EV59
for JTAG in the closed states only (log entry 89), a code that the table does not list is not permitted (log entry 90), the
watchdog fires once (log entry 87) and not in START (log entry 134). -/
def lifeAccess : Prop :=
  ∀ s : State, s.pwr.mainRst = false →
    let lc := s.sec.lifecycle
    (∀ ir : JtagInstr,
      (ir = .other → lc ∈ [2, 3, 5] → Does (.jtagInstruction ir) s fun t => t.sec = { s.sec with jtagIr := .bypass } ∧
        t.f F.SEC_ALERT_cause = 4 ∧ t.bit (pendFld 59) = true ∧ t.mem = s.mem) ∧
      (ir ≠ .other ∨ lc ∉ [2, 3, 5] → Machine.exec (.jtagInstruction ir) s = .next { s with sec := { s.sec with jtagIr := ir } })) ∧
    (∀ (k : Fin 8) (code : BitVec 8),
      let c := code.toNat
      let safe := c ≤ 3 ∨ (0x10 ≤ c ∧ c ≤ 0x17) ∨ (0x20 ≤ c ∧ c ≤ 0x67)
      let mayUse := (safe ∧ lc ∈ [1, 2, 3, 4] ∧ ¬ (0x40 ≤ c ∧ 0x67 < c)) ∨ (0x80 ≤ c ∧ lc ∈ [1, 4]) ∨ c = 0
      Does (.tmxSelect k code) s fun t => t.f (F.DBG_TMX_SEL_code k) = c ∧ Keeps s t [0x14] ∧
        (mayUse → t.bit F.DBG_STS_tmx_denied = s.bit F.DBG_STS_tmx_denied) ∧
        (¬ mayUse → t.bit F.DBG_STS_tmx_denied = true ∧ t.tmxCode k = 0) ∧
        (mayUse → s.bit F.DBG_CTL_tmx_en = true → t.tmxCode k = c)) ∧
    (s.sec.wdFired = true ∨ s.f F.DEV_LOCK_STS_phase = 0 → Machine.exec .keeperWatchdog s = .next s) ∧
    (s.sec.wdFired = false → s.f F.DEV_LOCK_STS_phase ≠ 0 → Does .keeperWatchdog s fun t =>
      t.sec.wdFired = true ∧ t.f F.SEC_ALERT_cause = 3 ∧ t.bit (pendFld 59) = true ∧ t.mem = s.mem ∧
      ∀ v < 8, s.convExists v = true → s.demandChanges v 10 = true → t.f (F.PROT_CV_STS_class v) = 10) ∧
    (s.eng.refetch = none → Machine.exec .tileRefetchDone s = .next s) ∧
    (∀ n, s.eng.refetch = some n → n < 2048 → Memory.wf s.mem = true → Does .tileRefetchDone s fun t =>
      let entry := s.sec.image.bind fun i => (i.tiles.find? fun r => r.kind == 1 && r.tile == n).map fun r => (i, r)
      let same := fun (ws : List Word) => crc32c (ws.flatMap fun w => leBytes 4 w.toNat) = s.wm n
      t.eng.refetch = none ∧ (∀ m, m ≠ n → t.quarantined m = s.quarantined m) ∧
      (∀ a, a < progBase + 1024 * n ∨ progBase + 1024 * n + 1024 ≤ a → memGet t.mem a = memGet s.mem a) ∧
      (s.f F.DEV_LOCK_STS_phase = 3 → t.quarantined n = s.quarantined n ∧ t.mem = s.mem) ∧
      (s.f F.DEV_LOCK_STS_phase ≠ 3 →
        (entry = none → t.words (progBase + 1024 * n) 256 = List.replicate 256 0 ∧
          t.quarantined n = (s.quarantined n && !decide (same (List.replicate 256 0)))) ∧
        (∀ e, entry = some e → (s.sec.fromFlash = false ∨ s.sec.flash ≠ some e.1) → t.mem = s.mem ∧
          t.quarantined n = s.quarantined n) ∧
        (∀ e ws, entry = some e → s.sec.fromFlash = true → s.sec.flash = some e.1 → s.sec.plain e.1 e.2 = some ws →
          ws.length = 256 → t.words (progBase + 1024 * n) 256 = ws ∧
          t.quarantined n = (s.quarantined n && !decide (same ws)))))

/-- R448–R459, R502: the lifecycle of the device, its boot, tokens, JTAG, test multiplexer, keeper watchdog and re-fetch. -/
def Obligations.LifecycleAndBoot : Prop :=
  lifeBoot ∧ lifeToken ∧ lifeAccess

/-- R468–R471, R476–R478, R490: resets and clocks. The model's choices: memory reads as zero after a reset (log entry 3), the
registers that survive it (log entry 37), a reset that acts at once (log entry 88), the balls while a supply is absent (log
entry 123). -/
def resetsAndClocks : Prop :=
  ∀ s : State,
    (∀ c : ResetCause,
      let b := match c with
        | .powerUp => 0
        | .pin => 1
        | .supply _ => 2
        | .thermal => 4
        | .island => 5
      Does (.mainDieReset c) s fun t => t.pwr.mainRst = true ∧ t.pending = s.pending ∧
        t.pwr.causes = (if c = .powerUp then 1 else s.pwr.causes ||| BitVec.ofNat 32 (2 ^ b)) ∧
        (∀ r, c = .supply r → t.pwr.rail = r.val) ∧
        (∀ x : OutBall, tblGet 0 s.pwr.railOut x.rail = 1 → t.out x = .highZ) ∧
        (tblGet 0 s.pwr.railOut 3 ≠ 1 → ∀ n m up, t.out (.gate n up) = .highZ ∧ t.out (.chp n) = .highZ ∧
          t.out (.sto n true) = .level false ∧ t.out (.sbc n true) = .level false ∧ t.out .faultN = .level false ∧
          t.out .alertN = .highZ ∧ t.out .rstoutN = .level false ∧ t.out (.sdc n) = .level false ∧
          t.out (.emu n m) = .level false ∧ t.out .psynco = .level false ∧ t.out .ppso = .level false ∧
          t.out (.tmx n) = .level false ∧ t.out .qck = .level false ∧ t.out .qcsN = .level true ∧
          t.out (.ctx n) = .level true ∧ t.out (.fz n) = .highZ ∧ t.out (.gpio n) = .highZ ∧ t.out .ssdo = .highZ ∧
          t.out .tdo = .highZ) ∧
        (tblGet 0 s.pwr.railOut 1 ≠ 1 → ∀ n up, t.out (.ktx n) = .quiet ∧ t.out (.stx up) = .quiet ∧ t.out .pet = .quiet) ∧
        t.sec.lifecycle = s.sec.lifecycle ∧ t.sec.customerKey = s.sec.customerKey ∧ t.sec.flash = s.sec.flash ∧
        t.sec.svnMin = s.sec.svnMin ∧ t.pwr.safRst = s.pwr.safRst ∧ (∀ n < 18, ∀ up, t.ball n up = none) ∧
        (s.pwr.mainRst = false →
          (∀ a, a / 0x10000 ≠ 0x13 → a ≠ R.CLK_RST_CAUSE → t.reg a = resetWord a) ∧
          t.reg R.CLK_RST_CAUSE = s.reg R.CLK_RST_CAUSE ∧ t.saf.die = s.saf.die ∧ t.eng = {} ∧ t.tm = {} ∧
          t.host.queue = [] ∧ ∀ a, a < setHeld → memGet t.mem a = 0)) ∧
    (s.pwr.safRst = true → Machine.exec .safetyDieReset s = .next s) ∧
    (s.pwr.safRst = false → Does .safetyDieReset s fun t => t.pwr.safRst = true ∧ t.pwr.mainRst = s.pwr.mainRst ∧
      t.saf.stored = s.saf.stored ∧ t.saf.storedConf = s.saf.storedConf ∧ t.saf.die = {} ∧ t.gateNet = false ∧
      (∀ b < 20, t.ballLevel b = false) ∧
      (tblGet 0 s.pwr.railOut 5 ≠ 1 → ∀ n, t.out (.sto n false) = .level false ∧ t.out (.sbc n false) = .level false ∧
        t.out .sfaultN = .level false ∧ t.out (.tpo n) = .level false) ∧ ∀ a, a < setHeld → memGet t.mem a = memGet s.mem a) ∧
    (∀ xtal : Bool,
      (s.pwr.safRst = false → s.pwr.safPend = false → Machine.exec (.safetyDieRelease xtal) s = .next s) ∧
      (tblGet 0 s.pwr.railOut 5 ≠ 0 → Machine.exec (.safetyDieRelease xtal) s = .next s) ∧
      (s.pwr.safRst = true ∨ s.pwr.safPend = true → tblGet 0 s.pwr.railOut 5 = 0 → Does (.safetyDieRelease xtal) s fun t => t.pwr.safRst = false ∧
        t.bit F.SAFE_CLK_xtal = xtal ∧ t.saf.stored = s.saf.stored ∧ t.saf.die = {} ∧ t.mem = s.mem ∧
        ∀ a, a ≠ R.SAFE_CLK → t.reg a = s.reg a)) ∧
    (s.pwr.mainRst = false →
      (s.pwr.locked = true → Machine.exec .pllLock s = .next s) ∧
      (s.pwr.locked = false → Does .pllLock s fun t => t.now = 0 ∧ t.pwr.locked = true ∧ t.bit F.CLK_STS_pll_lock = true ∧
        t.bit F.CLK_STS_ref_ok = true ∧ Keeps s t [1] ∧
        (∀ f, Machine.exec (.clockFailure f) s = .next s) ∧ Machine.exec .rstoutRelease s = .next s) ∧
      (s.pwr.locked = true → s.pwr.rstoutN = false → s.tm.holdLag = none → Does .rstoutRelease s fun t =>
        t.pwr.rstoutN = true ∧ t.now = max s.now 1000000 ∧ t.regs = s.regs ∧ t.mem = s.mem) ∧
      (s.pwr.locked = true → ∀ f, Does (.clockFailure f) s fun t =>
        t.pwr.mainRst = true ∧ t.pwr.causes.getLsbD 3 = true ∧ t.pwr.clockFail = true ∧ t.pending = s.pending))

/-- Windows of R472 in mV: warning, then reset. -/
def railWindow : Nat → (Nat × Nat) × (Nat × Nat)
  | 0 => ((770, 830), (740, 880))
  | 1 => ((865, 935), (830, 970))
  | 2 => ((1690, 1910), (1620, 1980))
  | 3 => ((3100, 3500), (2950, 3650))
  | 4 => ((1730, 1870), (1620, 1980))
  | _ => ((3100, 3500), (2950, 3650))

/-- `s` after a measurement of `rail` that gives `out`: 0 inside its reset window, 1 below it, 2 above it. -/
def railRead (s : State) (rail : Fin 6) (out : Nat) : State :=
  { s with pwr := { s.pwr with railOut := tblSet s.pwr.railOut rail out } }

/-- R468, R472–R474, R490: supplies and temperature while the main die is in reset. What a measurement in reset leaves is the
model's choice (log entries 88 and 122). -/
def monitorsInReset : Prop :=
  ∀ s : State, s.pwr.mainRst = true →
    (∀ (rail : Fin 6) (mv : BitVec 12),
      let r := (railWindow rail).2
      let m := mv.toNat
      (r.1 ≤ m → m ≤ r.2 → ¬ (rail = 0 ∧ tblGet 0 s.pwr.railOut 0 = 1) →
        Machine.exec (.supplyMeasurement rail mv) s = .next (railRead s rail 0)) ∧
      (r.1 ≤ m → m ≤ r.2 → rail = 0 → tblGet 0 s.pwr.railOut 0 = 1 → Does (.supplyMeasurement rail mv) s fun t =>
        t.pwr.causes = 1 ∧ tblGet 0 t.pwr.railOut 0 = 0 ∧ t.regs = s.regs ∧ t.mem = s.mem) ∧
      (¬ (r.1 ≤ m ∧ m ≤ r.2) → Does (.supplyMeasurement rail mv) s fun t => t.pwr.mainRst = true ∧
        tblGet 0 t.pwr.railOut rail = (if m < r.1 then 1 else 2) ∧ (rail = 5 → t.pwr.safRst = true) ∧
        (rail = 0 → m < r.1 → t.pwr.causes = 1) ∧
        (rail ≠ 5 → ¬ (rail = 0 ∧ m < r.1) → t.pwr.causes.getLsbD 2 = true ∧ t.pwr.rail = rail.val))) ∧
    ∀ code : BitVec 11, Does (.temperatureReading code) s fun t =>
      (816 ≤ code.toNat → t.pwr.hotRst = true ∧ t.pwr.causes.getLsbD 4 = true) ∧
      (736 ≤ code.toNat → code.toNat < 816 → t = s) ∧
      (code.toNat < 736 → t.pwr.hotRst = false ∧ t.pwr.causes = s.pwr.causes ∧ t.regs = s.regs)

/-- R472–R474: supplies and temperature. When EV55 goes out again is log entry 87's, warn_seen log entry 122's, the reset at the
measurement log entry 88's: the model's choices. -/
def monitors : Prop :=
  ∀ s : State, Alive s →
    (∀ (rail : Fin 6) (mv : BitVec 12),
      let w := (railWindow rail).1
      let r := (railWindow rail).2
      let m := mv.toNat
      let isIn := w.1 ≤ m ∧ m ≤ w.2
      let seen : Fld := ⟨R.CLK_SUP_STS, 8 + rail, 1⟩
      (r.1 ≤ m → m ≤ r.2 → Does (.supplyMeasurement rail mv) s fun t =>
        t.f (F.CLK_SUP_mv rail) = m ∧ t.bit ⟨R.CLK_SUP_STS, rail, 1⟩ = decide isIn ∧ Keeps s t [1, 0x12] ∧
        (isIn → t.bit seen = s.bit seen ∧ t.reg (R.EVT_PEND 1) = s.reg (R.EVT_PEND 1)) ∧
        (¬ isIn → (tblGet 2 s.pwr.railIn rail = 0 → t.bit seen = s.bit seen) ∧
          (tblGet 2 s.pwr.railIn rail ≠ 0 → t.bit seen = true) ∧
          (tblGet 2 s.pwr.railIn rail = 2 → t.bit (pendFld 55) = true ∧
            t.f (F.EVT_SRC_count 55) = (s.f (F.EVT_SRC_count 55) + 1) % 2 ^ 16) ∧
          (tblGet 2 s.pwr.railIn rail ≠ 2 → t.f (F.EVT_SRC_count 55) = s.f (F.EVT_SRC_count 55)))) ∧
      (¬ (r.1 ≤ m ∧ m ≤ r.2) → let out := if m < r.1 then 1 else 2
        (rail = 5 → Does (.supplyMeasurement rail mv) s fun t => t.pwr.safRst = true ∧ tblGet 0 t.pwr.railOut 5 = out ∧
          t.f (F.CLK_SUP_mv 5) = m ∧ t.bit ⟨R.CLK_SUP_STS, 5, 1⟩ = false ∧
          (tblGet 2 s.pwr.railIn 5 ≠ 0 → t.bit seen = true) ∧ (tblGet 2 s.pwr.railIn 5 = 2 → t.bit (pendFld 55) = true)) ∧
        ∀ k : Fin 5, rail.val = k.val → Machine.exec (.supplyMeasurement rail mv) s =
          Machine.exec (.mainDieReset (if k = 0 ∧ out = 1 then .powerUp else .supply k)) (railRead s rail out))) ∧
    (∀ code : BitVec 11, 816 ≤ code.toNat →
      Machine.exec (.temperatureReading code) s =
        Machine.exec (.mainDieReset .thermal) { s with pwr := { s.pwr with hotRst := true } }) ∧
    (∀ code : BitVec 11, code.toNat < 816 → Does (.temperatureReading code) s fun t =>
      let c := code.toNat
      let warn := s.f F.CLK_TEMP_CFG_warn
      let hot := s.bit F.CLK_TEMP_hot
      t.f F.CLK_TEMP_temp = c ∧ Keeps s t [1, 0x12] ∧
      (hot = false → warn < c → t.bit F.CLK_TEMP_hot = true ∧ t.bit F.CLK_TEMP_hot_seen = true ∧ t.bit (pendFld 56) = true) ∧
      (hot = false → c ≤ warn → t.bit F.CLK_TEMP_hot = false ∧ t.reg (R.EVT_PEND 1) = s.reg (R.EVT_PEND 1)) ∧
      (hot = true → t.reg (R.EVT_PEND 1) = s.reg (R.EVT_PEND 1) ∧
        (t.bit F.CLK_TEMP_hot = false ↔ c + s.f F.CLK_TEMP_CFG_hyst < warn)))

/-- R498, R499: GPIO edges. -/
def gpioEdges : Prop :=
  ∀ (s : State) (g : Fin 16) (level : Bool) (held : Nat) (ph : Fin 4), s.pwr.mainRst = false →
    let filtered := s.f F.GPIO_FILT_filt < held
    let was := (s.f F.GPIO_IN_level).testBit g
    let armed := (if level then s.f F.GPIO_RISE_EN_rise else s.f F.GPIO_FALL_EN_fall).testBit g
    let stamp := s.now / 4 * 4 + ph
    Does (.gpioEdge ⟨g, held⟩ level ph) s fun t =>
      (t.f F.GPIO_IN_level).testBit g = (if filtered then level else was) ∧
      (s.gpioDriven g = none → t.pwr.gpio.getLsbD g = level) ∧ (∀ j < 16, j ≠ g.val → t.pwr.gpio.getLsbD j = s.pwr.gpio.getLsbD j) ∧ (∀ j < 16, j ≠ g.val → (t.f F.GPIO_IN_level).testBit j = (s.f F.GPIO_IN_level).testBit j) ∧
      Keeps s t [0x12, 0x14] ∧
      (¬ filtered ∨ was = level ∨ armed = false → t.f F.GPIO_EDGE_CNT_count = s.f F.GPIO_EDGE_CNT_count ∧
        t.reg (R.EVT_PEND 1) = s.reg (R.EVT_PEND 1) ∧ t.f F.GPIO_STAMP_LO_stamp = s.f F.GPIO_STAMP_LO_stamp) ∧
      (filtered → was ≠ level → armed = true → t.bit ⟨R.GPIO_EDGE, g, 1⟩ = true ∧ t.bit (pendFld 61) = true ∧
        t.f F.GPIO_STAMP_LO_stamp + 2 ^ 32 * t.f F.GPIO_STAMP_HI_stamp = stamp % 2 ^ 64 ∧
        (s.bit (F.EVT_SRC_log_en 61) = true → s.host.queue.length < 256 → ∃ r ∈ t.host.queue, r.source = 61 ∧ r.stamp = stamp ∧
          r.payload = g + 256 * level.toNat ∧ r.reaction = scopeNone))

/-- R101, R196, R460–R462: halts, breakpoints, steps, resume and the debug view's writes. A step sets the reason of its lane and
that of the resume event (log entry 58), an A register that is not open reads 0 (log entry 127), a command without its condition
changes nothing (log entry 13): the model's choices. -/
def debugging : Prop :=
  ∀ s : State, s.pwr.mainRst = false →
    let may := s.sec.lifecycle = 4 ∧ s.bit F.SHFT_CTL_en = false
    let Halts := fun (c : Instr) (reason : Nat) (why : Nat → Nat) =>
      (s.halted = true → Machine.exec c s = .next s) ∧
      (s.halted = false → ¬ may → Machine.exec c s = .next (s.setF F.DBG_STS_halt_refused 1)) ∧
      (s.halted = false → may → Does c s fun t => t.eng.haltAt = some s.now ∧ t.bit F.DBG_STS_halted = true ∧
        t.bit (pendFld 58) = true ∧ t.eng.haltReason = reason ∧ Keeps s t [0x14, 3, 0x12] ∧
        (∀ n < 8, t.bit (F.ENG_DBG_STS_halted n) = true ∧ t.f (F.ENG_DBG_STS_reason n) = why n) ∧
        ∀ d < 8, s.mdOn d = true → (t.md d).held = some ((s.now : Int) - (s.md d).zero))
    (∀ j : Bool, Halts (.debugHalt j) 1 fun _ => 1) ∧
    (∀ n : Fin 8,
      let l := s.core n
      let hit := l.busy = true ∧ l.slot < 32 ∧ tblGet 0 l.slots l.slot ≠ 0 ∧ ∃ m < 4,
        (s.f (F.ENG_DBG_CTL_bp_en n)).testBit m = true ∧ s.f (F.ENG_DBG_BP_addr n m) = l.pcAddr
      (¬ hit → Machine.exec (.breakpointHit n) s = .next s) ∧
      (hit → Halts (.breakpointHit n) 2 fun k => if k = n then 2 else 4) ∧
      (s.halted = false ∨ l.busy = false → Machine.exec (.debugStep n) s = .next s) ∧
      (s.halted = true → l.busy = true →
        let u := s.onCore n fun k => { k with step := true }
        Does (.debugStep n) s fun t => t.eng.haltReason = 3 ∧ t.f (F.ENG_DBG_STS_reason n) = 3 ∧
          (∀ j, j ≠ n.val → t.core j = s.core j) ∧ (t.core n).step = false ∧
          let w := u.word (slotBase n l.slot + 4 * l.word)
          let stepped := fun (i : Instr) => ∃ v, Machine.exec i u = .next v ∧
            t = { (v.onCore n fun k => { k with step := false }).setF (F.ENG_DBG_STS_reason n) 3 with
              eng := { (v.onCore n fun k => { k with step := false }).eng with haltReason := 3 } }
          (∀ i ∈ Sys2Proof.decodeNimson (.lane n) w, stepped i) ∧
          (Sys2Proof.decodeNimson (.lane n) w = none → stepped (.illegalInstruction (.lane n) w))) ∧
      (∀ (k : Fin 4) (w : Word),
        let i := s.f (F.ENG_DBG_SEL_index n)
        let file := s.f (F.ENG_DBG_SEL_file n)
        let data := Instr.debugDataWrite n k w
        (s.halted = false ∨ (file ≠ 1 ∧ k ≠ 0) ∨ (1 < file ∧ 8 ≤ i) → Machine.exec data s = .next s) ∧
        (s.halted = true → Does data s fun t => t.regs = s.regs ∧ t.mem = s.mem ∧ t.tm = s.tm ∧ (∀ j, j ≠ n.val → t.core j = s.core j) ∧
          let x := t.core n
          (file = 0 → k = 0 → x.getS (BitVec.ofNat 5 i) = if i = 0 then 0 else w) ∧
          (file = 1 → ∀ j < 4, elemF (x.getV (BitVec.ofNat 5 i)) j =
            if j = k.val then w else elemF (l.getV (BitVec.ofNat 5 i)) j) ∧
          (file = 2 → k = 0 → i < 8 → x.getP (BitVec.ofNat 5 i) = if i = 0 then 0xFF else w.setWidth 8) ∧
          (file = 3 → k = 0 → i < 8 → tblGet 0 x.a i = if w.getLsbD 31 then (w.setWidth 10).toNat + 1 else 0)))) ∧
    (s.eng.haltAt = none → Machine.exec .debugResume s = .next s) ∧
    (∀ t0, s.eng.haltAt = some t0 → Does .debugResume s fun t =>
      let d := (s.now - t0) / 4 * 4
      let epoch := fun (x : State) => x.f F.TIME_TICK_EPOCH_LO_epoch_lo + 2 ^ 32 * x.f F.TIME_TICK_EPOCH_HI_epoch_hi
      t.eng.haltAt = none ∧ t.bit F.DBG_STS_halted = false ∧ t.bit (pendFld 58) = true ∧
      (∀ n < 8, t.bit (F.ENG_DBG_STS_halted n) = false ∧ t.f (F.ENG_DBG_STS_reason n) = 0) ∧
      t.tm.start = s.tm.start + d ∧ t.tm.epoch = s.tm.epoch + d ∧ epoch t = (epoch s + d) % 2 ^ 64 ∧ t.now = s.now ∧ t.mem = s.mem ∧
      (∀ k < 8, ∀ x, (s.md k).held = some x → (t.md k).held = none ∧ (t.md k).zero = (s.now : Int) - x))

/-- R101, R196, R460–R462, R468–R478, R490, R498, R499: resets, clocks, monitors, GPIOs and the debug halt. That the thermal reset
acts at 140 °C is log entry 122. -/
def Obligations.ResetsMonitorsGpioDebug : Prop :=
  resetsAndClocks ∧ monitors ∧ monitorsInReset ∧ gpioEdges ∧ debugging
end

