-- ==== Sys2Proof/Laws/Store.lean ====
section
/-! SUPPORT. Laws of the two containers: what a table reads after an update, what memory reads after a write, and that every
memory operation keeps the canonical form. -/

namespace Sys2Proof.Machine

/-! ## Tables -/

@[simp] theorem tblGet_nil {α : Type} (d : α) (k : Nat) : tblGet d [] k = d := rfl

/-- The entry just written is read. -/
@[simp] theorem tblGet_set_same {α : Type} (d : α) (t : Tbl α) (k : Nat) (v : α) : tblGet d (tblSet t k v) k = v := by
  induction t with
  | nil => simp [tblSet, tblGet]
  | cons e t ih =>
    obtain ⟨j, x⟩ := e
    by_cases h : k = j
    · simp [tblSet, tblGet, h]
    · by_cases h2 : k < j
      · simp [tblSet, tblGet, h, h2]
      · simp [tblSet, tblGet, h, h2, ih]

/-- A write leaves every other key alone. -/
theorem tblGet_set_ne {α : Type} (d : α) (t : Tbl α) {k j : Nat} (v : α) (h : j ≠ k) :
    tblGet d (tblSet t k v) j = tblGet d t j := by
  induction t with
  | nil => simp [tblSet, tblGet, h]
  | cons e t ih =>
    obtain ⟨i, x⟩ := e
    by_cases hk : k = i
    · subst hk; simp [tblSet, tblGet, h]
    · by_cases h2 : k < i
      · simp [tblSet, tblGet, hk, h2, h]
      · simp [tblSet, hk, h2]
        by_cases hj : j = i
        · simp [tblGet, hj]
        · simp [tblGet, hj, ih]

/-- A read after a write, by cases on the key. -/
theorem tblGet_set {α : Type} (d : α) (t : Tbl α) (k j : Nat) (v : α) :
    tblGet d (tblSet t k v) j = if j = k then v else tblGet d t j := by
  by_cases h : j = k
  · subst h; simp
  · simp [h, tblGet_set_ne d t v h]

/-! ## Byte memory -/

@[simp] theorem memGet_nil (a : Nat) : memGet [] a = memDefault := rfl

/-- Below the first address that the form allows nothing is listed. -/
theorem memGet_below {m : List Host.Cell} {lo a : Nat} (h : Memory.wfFrom lo m = true) (ha : a < lo) :
    memGet m a = memDefault := by
  induction m generalizing lo with
  | nil => rfl
  | cons e t ih =>
    obtain ⟨j, x⟩ := e
    simp only [Memory.wfFrom, Bool.and_eq_true, decide_eq_true_eq] at h
    have hj : a ≠ j := by omega
    simp only [memGet, hj, if_false]
    exact ih h.2 (by omega)

/-- The form is kept when the bound falls. -/
theorem wfFrom_mono {m : List Host.Cell} {lo lo' : Nat} (h : Memory.wfFrom lo m = true) (hl : lo' ≤ lo) :
    Memory.wfFrom lo' m = true := by
  cases m with
  | nil => rfl
  | cons e t =>
    obtain ⟨j, x⟩ := e
    simp only [Memory.wfFrom, Bool.and_eq_true, decide_eq_true_eq] at h ⊢
    exact ⟨⟨by omega, h.1.2⟩, h.2⟩

/-- A write at or above the bound keeps the form above it. -/
theorem memPut_wfFrom {m : List Host.Cell} {lo a : Nat} (v : Byte) (h : Memory.wfFrom lo m = true) (ha : lo ≤ a) :
    Memory.wfFrom lo (memPut m a v) = true := by
  induction m generalizing lo with
  | nil =>
    by_cases hv : v = memDefault
    · simp [memPut, hv, Memory.wfFrom]
    · simp [memPut, hv, Memory.wfFrom, ha]
  | cons e t ih =>
    obtain ⟨j, x⟩ := e
    simp only [Memory.wfFrom, Bool.and_eq_true, decide_eq_true_eq] at h
    obtain ⟨⟨hlj, hx⟩, ht⟩ := h
    by_cases haj : a = j
    · by_cases hv : v = memDefault
      · simp [memPut, haj, hv]; exact wfFrom_mono ht (by omega)
      · subst haj; simp [memPut, hv, Memory.wfFrom, ha, ht]
    · by_cases hlt : a < j
      · by_cases hv : v = memDefault
        · simp only [memPut, haj, hlt, hv, if_true, if_false, Memory.wfFrom, Bool.and_eq_true, decide_eq_true_eq]
          exact ⟨⟨hlj, hx⟩, ht⟩
        · simp only [memPut, haj, hlt, hv, if_true, if_false, Memory.wfFrom, Bool.and_eq_true, decide_eq_true_eq]
          exact ⟨⟨ha, hv⟩, ⟨by omega, hx⟩, ht⟩
      · simp only [memPut, haj, hlt, if_false, Memory.wfFrom, Bool.and_eq_true, decide_eq_true_eq]
        exact ⟨⟨hlj, hx⟩, ih ht (by omega)⟩

/-- A byte write keeps the canonical form. -/
theorem memPut_wf {m : List Host.Cell} (a : Nat) (v : Byte) (h : Memory.wf m = true) : Memory.wf (memPut m a v) = true :=
  memPut_wfFrom v h (Nat.zero_le a)

/-- The byte just written is read. -/
theorem memGet_put_same {m : List Host.Cell} {lo : Nat} (a : Nat) (v : Byte) (h : Memory.wfFrom lo m = true) :
    memGet (memPut m a v) a = v := by
  induction m generalizing lo with
  | nil => by_cases hv : v = memDefault <;> simp [memPut, hv, memGet]
  | cons e t ih =>
    obtain ⟨j, x⟩ := e
    simp only [Memory.wfFrom, Bool.and_eq_true, decide_eq_true_eq] at h
    obtain ⟨⟨hlj, hx⟩, ht⟩ := h
    by_cases haj : a = j
    · subst haj
      by_cases hv : v = memDefault
      · simp [memPut, hv, memGet_below ht (Nat.lt_succ_self a)]
      · simp [memPut, hv, memGet]
    · by_cases hlt : a < j
      · by_cases hv : v = memDefault
        · simp [memPut, haj, hlt, hv, memGet, memGet_below ht (show a < j + 1 by omega)]
        · simp [memPut, haj, hlt, hv, memGet]
      · simp [memPut, haj, hlt, memGet, ih ht]

/-- A byte write leaves every other byte alone. -/
theorem memGet_put_ne {m : List Host.Cell} {a b : Nat} (v : Byte) (h : b ≠ a) : memGet (memPut m a v) b = memGet m b := by
  induction m with
  | nil => by_cases hv : v = memDefault <;> simp [memPut, hv, memGet, h]
  | cons e t ih =>
    obtain ⟨j, x⟩ := e
    by_cases haj : a = j
    · subst haj
      by_cases hv : v = memDefault <;> simp [memPut, hv, memGet, h]
    · by_cases hlt : a < j
      · by_cases hv : v = memDefault <;> simp [memPut, haj, hlt, hv, memGet, h]
      · by_cases hb : b = j <;> simp [memPut, haj, hlt, memGet, hb, ih]

/-- A word write keeps the canonical form. -/
theorem memPutWord_wf {m : List Host.Cell} (a : Nat) (w : Word) (h : Memory.wf m = true) : Memory.wf (memPutWord m a w) = true :=
  memPut_wf _ _ (memPut_wf _ _ (memPut_wf _ _ (memPut_wf _ _ h)))

/-- A word write leaves every byte outside its four alone. -/
theorem memGet_putWord_ne {m : List Host.Cell} {a b : Nat} (w : Word) (h : b < a ∨ a + 4 ≤ b) :
    memGet (memPutWord m a w) b = memGet m b := by
  unfold memPutWord
  rw [memGet_put_ne _ (by omega), memGet_put_ne _ (by omega), memGet_put_ne _ (by omega), memGet_put_ne _ (by omega)]

/-- The word just written is read. -/
theorem memWord_putWord_same {m : List Host.Cell} (a : Nat) (w : Word) (h : Memory.wf m = true) :
    memWord (memPutWord m a w) a = w := by
  have h0 := memPut_wf a (w.extractLsb' 0 8) h
  have h1 := memPut_wf (a + 1) (w.extractLsb' 8 8) h0
  have h2 := memPut_wf (a + 2) (w.extractLsb' 16 8) h1
  unfold memWord memPutWord
  rw [memGet_put_same _ _ h2, memGet_put_ne _ (show a + 2 ≠ a + 3 by omega), memGet_put_same _ _ h1,
    memGet_put_ne _ (show a + 1 ≠ a + 3 by omega), memGet_put_ne _ (show a + 1 ≠ a + 2 by omega), memGet_put_same _ _ h0,
    memGet_put_ne _ (show a ≠ a + 3 by omega), memGet_put_ne _ (show a ≠ a + 2 by omega),
    memGet_put_ne _ (show a ≠ a + 1 by omega), memGet_put_same _ _ h]
  apply BitVec.eq_of_getLsbD_eq
  intro i hi
  simp only [BitVec.getLsbD_append, BitVec.getLsbD_extractLsb']
  by_cases h8 : i < 8
  · simp [h8]
  · by_cases h16 : i < 16
    · simp [h8, show i - 8 < 8 by omega, show 8 + (i - 8) = i by omega]
    · by_cases h24 : i < 24
      · simp [h8, show ¬ i - 8 < 8 by omega, show i - 8 - 8 < 8 by omega, show 16 + (i - 8 - 8) = i by omega]
      · simp [h8, show ¬ i - 8 < 8 by omega, show ¬ i - 8 - 8 < 8 by omega, show 24 + (i - 8 - 8 - 8) = i by omega]
        omega

/-- Writes of several words, of selected bytes, of bytes and of a copy keep the canonical form. -/
theorem memPutWords_wf {m : List Host.Cell} (a : Nat) (ws : List Word) (h : Memory.wf m = true) :
    Memory.wf (memPutWords m a ws) = true := by
  induction ws generalizing m a with
  | nil => exact h
  | cons w ws ih => exact ih _ (memPutWord_wf a w h)

theorem memPutList_wf {m : List Host.Cell} (a : Nat) (bs : List Byte) (h : Memory.wf m = true) :
    Memory.wf (memPutList m a bs) = true := by
  induction bs generalizing m a with
  | nil => exact h
  | cons b bs ih => exact ih _ (memPut_wf a b h)

theorem memPutBytes_wf {m : List Host.Cell} (a : Nat) (w : Word) (be : BitVec 4) (h : Memory.wf m = true) :
    Memory.wf (memPutBytes m a w be) = true := by
  unfold memPutBytes
  dsimp only
  repeat' split
  all_goals repeat (first | exact h | apply memPut_wf)

theorem memCopy_wf {m : List Host.Cell} (src dst n : Nat) (h : Memory.wf m = true) : Memory.wf (memCopy m src dst n) = true := by
  induction n generalizing m src dst with
  | zero => exact h
  | succ n ih => exact ih _ _ (memPut_wf _ _ h)

/-- Dropping cells keeps the canonical form. -/
theorem memFilter_wfFrom {m : List Host.Cell} {lo : Nat} (p : Host.Cell → Bool) (h : Memory.wfFrom lo m = true) :
    Memory.wfFrom lo (m.filter p) = true := by
  induction m generalizing lo with
  | nil => rfl
  | cons e t ih =>
    obtain ⟨j, x⟩ := e
    simp only [Memory.wfFrom, Bool.and_eq_true, decide_eq_true_eq] at h
    by_cases hp : p (j, x) = true
    · simp only [List.filter_cons, hp, if_true, Memory.wfFrom, Bool.and_eq_true, decide_eq_true_eq]
      exact ⟨h.1, ih h.2⟩
    · simp only [List.filter_cons, hp, if_false, Bool.false_eq_true]
      exact wfFrom_mono (ih h.2) (by omega)

end Sys2Proof.Machine
end

