-- ==== Sys2Proof/Laws/Fields.lean ====
section
/-! SUPPORT. Laws of registers and their fields: what a field reads after a field write, in the same register and in
another. -/

namespace Sys2Proof.Machine

/-! ## Bits of a word -/

/-- The field just inserted is read back. -/
theorem getBits_insertBits_same (w : Word) {lsb width : Nat} (v : Nat) (h : lsb + width ≤ 32) :
    getBits (insertBits w lsb width v) lsb width = v % 2 ^ width := by
  unfold getBits insertBits ones
  apply Nat.eq_of_testBit_eq
  intro i
  have hw : i < width → ((BitVec.ofNat 32 ((2 ^ width - 1) <<< lsb)).getLsbD (lsb + i)) = true := by
    intro hi
    simp only [BitVec.getLsbD_ofNat, Nat.testBit_shiftLeft]
    simp only [ge_iff_le, Nat.le_add_right, decide_true, Bool.true_and, Nat.add_sub_cancel_left,
      Nat.testBit_two_pow_sub_one, Bool.and_eq_true, decide_eq_true_eq]
    omega
  simp only [Nat.testBit_mod_two_pow, Nat.testBit_shiftRight, BitVec.testBit_toNat]
  by_cases hi : i < width
  · have h32 : lsb + i < 32 := by omega
    simp only [hi, decide_true, Bool.true_and, BitVec.getLsbD_or, BitVec.getLsbD_and, BitVec.getLsbD_not, hw hi, h32,
      Bool.not_true, Bool.and_false, Bool.false_or, BitVec.getLsbD_ofNat, Nat.testBit_shiftLeft, Nat.testBit_mod_two_pow]
    simp [hi]
  · simp [hi]

/-- Bits outside the inserted field are left alone. -/
theorem getBits_insertBits_disj (w : Word) {lsb width lsb' width' : Nat} (v : Nat) (h : lsb + width ≤ 32)
    (hd : lsb' + width' ≤ lsb ∨ lsb + width ≤ lsb') :
    getBits (insertBits w lsb width v) lsb' width' = getBits w lsb' width' := by
  unfold getBits insertBits ones
  apply Nat.eq_of_testBit_eq
  intro i
  simp only [Nat.testBit_mod_two_pow, Nat.testBit_shiftRight, BitVec.testBit_toNat]
  by_cases hi : i < width'
  · by_cases h32 : lsb' + i < 32
    · have hm : (BitVec.ofNat 32 ((2 ^ width - 1) <<< lsb)).getLsbD (lsb' + i) = false := by
        simp only [BitVec.getLsbD_ofNat, Nat.testBit_shiftLeft, Nat.testBit_two_pow_sub_one]
        rcases hd with hd | hd
        · simp; omega
        · simp; omega
      have hv : (BitVec.ofNat 32 ((v % 2 ^ width) <<< lsb)).getLsbD (lsb' + i) = false := by
        simp only [BitVec.getLsbD_ofNat, Nat.testBit_shiftLeft, Nat.testBit_mod_two_pow]
        rcases hd with hd | hd
        · simp; omega
        · simp; omega
      simp only [hi, h32, hm, hv, decide_true, Bool.true_and, BitVec.getLsbD_or, BitVec.getLsbD_and, BitVec.getLsbD_not,
        Bool.not_false, Bool.and_true, Bool.or_false]
    · have e1 := BitVec.getLsbD_of_ge ((w &&& ~~~(BitVec.ofNat 32 ((2 ^ width - 1) <<< lsb))) |||
        BitVec.ofNat 32 ((v % 2 ^ width) <<< lsb)) (lsb' + i) (by omega)
      have e2 := BitVec.getLsbD_of_ge w (lsb' + i) (by omega)
      rw [e1, e2]
  · simp [hi]

/-- A field reads below 2 to its width. -/
theorem getBits_lt (w : Word) (lsb width : Nat) : getBits w lsb width < 2 ^ width := Nat.mod_lt _ (Nat.two_pow_pos width)

/-! ## Registers -/

@[simp] theorem reg_setReg_same (s : State) (a : Nat) (w : Word) : (s.setReg a w).reg a = w := by
  simp [State.reg, State.setReg]

theorem reg_setReg_ne (s : State) {a b : Nat} (w : Word) (h : b ≠ a) : (s.setReg a w).reg b = s.reg b := by
  simp [State.reg, State.setReg, tblGet_set_ne _ _ _ h]

theorem reg_setF_ne (s : State) {x : Fld} {a : Nat} (v : Nat) (h : a ≠ x.addr) : (s.setF x v).reg a = s.reg a :=
  reg_setReg_ne s _ h

/-! ## Fields -/

/-- The field lies within its word. -/
def Fld.ok (x : Fld) : Prop := x.lsb + x.width ≤ 32

/-- Two fields share no bit. -/
def Fld.apart (x y : Fld) : Prop := x.addr ≠ y.addr ∨ x.lsb + x.width ≤ y.lsb ∨ y.lsb + y.width ≤ x.lsb

/-- A field just written is read, cut to its width. -/
theorem f_setF_same (s : State) (x : Fld) (v : Nat) (h : x.ok) : (s.setF x v).f x = v % 2 ^ x.width := by
  simp only [State.f, State.setF, reg_setReg_same]
  exact getBits_insertBits_same _ v h

/-- A field write leaves every field apart from it alone. -/
theorem f_setF_apart (s : State) (x y : Fld) (v : Nat) (h : x.ok) (hd : x.apart y) : (s.setF x v).f y = s.f y := by
  simp only [State.f, State.setF]
  by_cases ha : y.addr = x.addr
  · rw [ha, reg_setReg_same]
    rcases hd with hd | hd | hd
    · exact absurd ha.symm hd
    · exact getBits_insertBits_disj _ v h (Or.inr hd)
    · exact getBits_insertBits_disj _ v h (Or.inl hd)
  · rw [reg_setReg_ne s _ ha]

/-- A write to another register leaves a field alone. -/
theorem f_setReg_ne (s : State) {a : Nat} (x : Fld) (w : Word) (h : x.addr ≠ a) : (s.setReg a w).f x = s.f x := by
  simp only [State.f, reg_setReg_ne s w h]

theorem f_lt (s : State) (x : Fld) : s.f x < 2 ^ x.width := getBits_lt _ _ _

/-- A flag just written is read. -/
theorem bit_setB_same (s : State) (x : Fld) (v : Bool) (h : x.ok) (hw : x.width = 1) : (s.setB x v).bit x = v := by
  unfold State.bit State.setB
  rw [f_setF_same s x _ h, hw]
  cases v <;> rfl

/-- Two states with the same register give the same field. -/
theorem f_congr {s t : State} {x : Fld} (h : s.reg x.addr = t.reg x.addr) : s.f x = t.f x := by simp only [State.f, h]

end Sys2Proof.Machine
end

