-- ==== Sys2Proof/Laws/State.lean ====
section
/-! SUPPORT. What each named update of the state leaves alone: one law a component, true by definition. -/

namespace Sys2Proof.Machine

variable (s : State)

/-! ### setReg -/

@[simp] theorem State.setReg_pending (a : Nat) (w : Word) : (s.setReg a w).pending = s.pending := rfl
@[simp] theorem State.setReg_freeCtr (a : Nat) (w : Word) : (s.setReg a w).freeCtr = s.freeCtr := rfl
@[simp] theorem State.setReg_part (a : Nat) (w : Word) : (s.setReg a w).part = s.part := rfl
@[simp] theorem State.setReg_inForce (a : Nat) (w : Word) : (s.setReg a w).inForce = s.inForce := rfl
@[simp] theorem State.setReg_shadow (a : Nat) (w : Word) : (s.setReg a w).shadow = s.shadow := rfl
@[simp] theorem State.setReg_elig (a : Nat) (w : Word) : (s.setReg a w).elig = s.elig := rfl
@[simp] theorem State.setReg_held (a : Nat) (w : Word) : (s.setReg a w).held = s.held := rfl
@[simp] theorem State.setReg_mem (a : Nat) (w : Word) : (s.setReg a w).mem = s.mem := rfl
@[simp] theorem State.setReg_tm (a : Nat) (w : Word) : (s.setReg a w).tm = s.tm := rfl
@[simp] theorem State.setReg_eng (a : Nat) (w : Word) : (s.setReg a w).eng = s.eng := rfl
@[simp] theorem State.setReg_host (a : Nat) (w : Word) : (s.setReg a w).host = s.host := rfl
@[simp] theorem State.setReg_sec (a : Nat) (w : Word) : (s.setReg a w).sec = s.sec := rfl
@[simp] theorem State.setReg_pwr (a : Nat) (w : Word) : (s.setReg a w).pwr = s.pwr := rfl
@[simp] theorem State.setReg_units (a : Nat) (w : Word) : (s.setReg a w).units = s.units := rfl
@[simp] theorem State.setReg_mds (a : Nat) (w : Word) : (s.setReg a w).mds = s.mds := rfl
@[simp] theorem State.setReg_legs (a : Nat) (w : Word) : (s.setReg a w).legs = s.legs := rfl
@[simp] theorem State.setReg_prot (a : Nat) (w : Word) : (s.setReg a w).prot = s.prot := rfl
@[simp] theorem State.setReg_gateNet (a : Nat) (w : Word) : (s.setReg a w).gateNet = s.gateNet := rfl
@[simp] theorem State.setReg_sns (a : Nat) (w : Word) : (s.setReg a w).sns = s.sns := rfl
@[simp] theorem State.setReg_ports (a : Nat) (w : Word) : (s.setReg a w).ports = s.ports := rfl
@[simp] theorem State.setReg_emus (a : Nat) (w : Word) : (s.setReg a w).emus = s.emus := rfl
@[simp] theorem State.setReg_kyn (a : Nat) (w : Word) : (s.setReg a w).kyn = s.kyn := rfl
@[simp] theorem State.setReg_cells (a : Nat) (w : Word) : (s.setReg a w).cells = s.cells := rfl
@[simp] theorem State.setReg_arms (a : Nat) (w : Word) : (s.setReg a w).arms = s.arms := rfl
@[simp] theorem State.setReg_axes (a : Nat) (w : Word) : (s.setReg a w).axes = s.axes := rfl
@[simp] theorem State.setReg_cams (a : Nat) (w : Word) : (s.setReg a w).cams = s.cams := rfl
@[simp] theorem State.setReg_line (a : Nat) (w : Word) : (s.setReg a w).line = s.line := rfl
@[simp] theorem State.setReg_cans (a : Nat) (w : Word) : (s.setReg a w).cans = s.cans := rfl
@[simp] theorem State.setReg_saf (a : Nat) (w : Word) : (s.setReg a w).saf = s.saf := rfl

/-! ### setF -/

@[simp] theorem State.setF_pending (x : Fld) (v : Nat) : (s.setF x v).pending = s.pending := rfl
@[simp] theorem State.setF_freeCtr (x : Fld) (v : Nat) : (s.setF x v).freeCtr = s.freeCtr := rfl
@[simp] theorem State.setF_part (x : Fld) (v : Nat) : (s.setF x v).part = s.part := rfl
@[simp] theorem State.setF_inForce (x : Fld) (v : Nat) : (s.setF x v).inForce = s.inForce := rfl
@[simp] theorem State.setF_shadow (x : Fld) (v : Nat) : (s.setF x v).shadow = s.shadow := rfl
@[simp] theorem State.setF_elig (x : Fld) (v : Nat) : (s.setF x v).elig = s.elig := rfl
@[simp] theorem State.setF_held (x : Fld) (v : Nat) : (s.setF x v).held = s.held := rfl
@[simp] theorem State.setF_mem (x : Fld) (v : Nat) : (s.setF x v).mem = s.mem := rfl
@[simp] theorem State.setF_tm (x : Fld) (v : Nat) : (s.setF x v).tm = s.tm := rfl
@[simp] theorem State.setF_eng (x : Fld) (v : Nat) : (s.setF x v).eng = s.eng := rfl
@[simp] theorem State.setF_host (x : Fld) (v : Nat) : (s.setF x v).host = s.host := rfl
@[simp] theorem State.setF_sec (x : Fld) (v : Nat) : (s.setF x v).sec = s.sec := rfl
@[simp] theorem State.setF_pwr (x : Fld) (v : Nat) : (s.setF x v).pwr = s.pwr := rfl
@[simp] theorem State.setF_units (x : Fld) (v : Nat) : (s.setF x v).units = s.units := rfl
@[simp] theorem State.setF_mds (x : Fld) (v : Nat) : (s.setF x v).mds = s.mds := rfl
@[simp] theorem State.setF_legs (x : Fld) (v : Nat) : (s.setF x v).legs = s.legs := rfl
@[simp] theorem State.setF_prot (x : Fld) (v : Nat) : (s.setF x v).prot = s.prot := rfl
@[simp] theorem State.setF_gateNet (x : Fld) (v : Nat) : (s.setF x v).gateNet = s.gateNet := rfl
@[simp] theorem State.setF_sns (x : Fld) (v : Nat) : (s.setF x v).sns = s.sns := rfl
@[simp] theorem State.setF_ports (x : Fld) (v : Nat) : (s.setF x v).ports = s.ports := rfl
@[simp] theorem State.setF_emus (x : Fld) (v : Nat) : (s.setF x v).emus = s.emus := rfl
@[simp] theorem State.setF_kyn (x : Fld) (v : Nat) : (s.setF x v).kyn = s.kyn := rfl
@[simp] theorem State.setF_cells (x : Fld) (v : Nat) : (s.setF x v).cells = s.cells := rfl
@[simp] theorem State.setF_arms (x : Fld) (v : Nat) : (s.setF x v).arms = s.arms := rfl
@[simp] theorem State.setF_axes (x : Fld) (v : Nat) : (s.setF x v).axes = s.axes := rfl
@[simp] theorem State.setF_cams (x : Fld) (v : Nat) : (s.setF x v).cams = s.cams := rfl
@[simp] theorem State.setF_line (x : Fld) (v : Nat) : (s.setF x v).line = s.line := rfl
@[simp] theorem State.setF_cans (x : Fld) (v : Nat) : (s.setF x v).cans = s.cans := rfl
@[simp] theorem State.setF_saf (x : Fld) (v : Nat) : (s.setF x v).saf = s.saf := rfl

/-! ### setB -/

@[simp] theorem State.setB_pending (x : Fld) (v : Bool) : (s.setB x v).pending = s.pending := rfl
@[simp] theorem State.setB_freeCtr (x : Fld) (v : Bool) : (s.setB x v).freeCtr = s.freeCtr := rfl
@[simp] theorem State.setB_part (x : Fld) (v : Bool) : (s.setB x v).part = s.part := rfl
@[simp] theorem State.setB_inForce (x : Fld) (v : Bool) : (s.setB x v).inForce = s.inForce := rfl
@[simp] theorem State.setB_shadow (x : Fld) (v : Bool) : (s.setB x v).shadow = s.shadow := rfl
@[simp] theorem State.setB_elig (x : Fld) (v : Bool) : (s.setB x v).elig = s.elig := rfl
@[simp] theorem State.setB_held (x : Fld) (v : Bool) : (s.setB x v).held = s.held := rfl
@[simp] theorem State.setB_mem (x : Fld) (v : Bool) : (s.setB x v).mem = s.mem := rfl
@[simp] theorem State.setB_tm (x : Fld) (v : Bool) : (s.setB x v).tm = s.tm := rfl
@[simp] theorem State.setB_eng (x : Fld) (v : Bool) : (s.setB x v).eng = s.eng := rfl
@[simp] theorem State.setB_host (x : Fld) (v : Bool) : (s.setB x v).host = s.host := rfl
@[simp] theorem State.setB_sec (x : Fld) (v : Bool) : (s.setB x v).sec = s.sec := rfl
@[simp] theorem State.setB_pwr (x : Fld) (v : Bool) : (s.setB x v).pwr = s.pwr := rfl
@[simp] theorem State.setB_units (x : Fld) (v : Bool) : (s.setB x v).units = s.units := rfl
@[simp] theorem State.setB_mds (x : Fld) (v : Bool) : (s.setB x v).mds = s.mds := rfl
@[simp] theorem State.setB_legs (x : Fld) (v : Bool) : (s.setB x v).legs = s.legs := rfl
@[simp] theorem State.setB_prot (x : Fld) (v : Bool) : (s.setB x v).prot = s.prot := rfl
@[simp] theorem State.setB_gateNet (x : Fld) (v : Bool) : (s.setB x v).gateNet = s.gateNet := rfl
@[simp] theorem State.setB_sns (x : Fld) (v : Bool) : (s.setB x v).sns = s.sns := rfl
@[simp] theorem State.setB_ports (x : Fld) (v : Bool) : (s.setB x v).ports = s.ports := rfl
@[simp] theorem State.setB_emus (x : Fld) (v : Bool) : (s.setB x v).emus = s.emus := rfl
@[simp] theorem State.setB_kyn (x : Fld) (v : Bool) : (s.setB x v).kyn = s.kyn := rfl
@[simp] theorem State.setB_cells (x : Fld) (v : Bool) : (s.setB x v).cells = s.cells := rfl
@[simp] theorem State.setB_arms (x : Fld) (v : Bool) : (s.setB x v).arms = s.arms := rfl
@[simp] theorem State.setB_axes (x : Fld) (v : Bool) : (s.setB x v).axes = s.axes := rfl
@[simp] theorem State.setB_cams (x : Fld) (v : Bool) : (s.setB x v).cams = s.cams := rfl
@[simp] theorem State.setB_line (x : Fld) (v : Bool) : (s.setB x v).line = s.line := rfl
@[simp] theorem State.setB_cans (x : Fld) (v : Bool) : (s.setB x v).cans = s.cans := rfl
@[simp] theorem State.setB_saf (x : Fld) (v : Bool) : (s.setB x v).saf = s.saf := rfl

/-! ### setI -/

@[simp] theorem State.setI_pending (x : Fld) (i : Int) : (s.setI x i).pending = s.pending := rfl
@[simp] theorem State.setI_freeCtr (x : Fld) (i : Int) : (s.setI x i).freeCtr = s.freeCtr := rfl
@[simp] theorem State.setI_part (x : Fld) (i : Int) : (s.setI x i).part = s.part := rfl
@[simp] theorem State.setI_inForce (x : Fld) (i : Int) : (s.setI x i).inForce = s.inForce := rfl
@[simp] theorem State.setI_shadow (x : Fld) (i : Int) : (s.setI x i).shadow = s.shadow := rfl
@[simp] theorem State.setI_elig (x : Fld) (i : Int) : (s.setI x i).elig = s.elig := rfl
@[simp] theorem State.setI_held (x : Fld) (i : Int) : (s.setI x i).held = s.held := rfl
@[simp] theorem State.setI_mem (x : Fld) (i : Int) : (s.setI x i).mem = s.mem := rfl
@[simp] theorem State.setI_tm (x : Fld) (i : Int) : (s.setI x i).tm = s.tm := rfl
@[simp] theorem State.setI_eng (x : Fld) (i : Int) : (s.setI x i).eng = s.eng := rfl
@[simp] theorem State.setI_host (x : Fld) (i : Int) : (s.setI x i).host = s.host := rfl
@[simp] theorem State.setI_sec (x : Fld) (i : Int) : (s.setI x i).sec = s.sec := rfl
@[simp] theorem State.setI_pwr (x : Fld) (i : Int) : (s.setI x i).pwr = s.pwr := rfl
@[simp] theorem State.setI_units (x : Fld) (i : Int) : (s.setI x i).units = s.units := rfl
@[simp] theorem State.setI_mds (x : Fld) (i : Int) : (s.setI x i).mds = s.mds := rfl
@[simp] theorem State.setI_legs (x : Fld) (i : Int) : (s.setI x i).legs = s.legs := rfl
@[simp] theorem State.setI_prot (x : Fld) (i : Int) : (s.setI x i).prot = s.prot := rfl
@[simp] theorem State.setI_gateNet (x : Fld) (i : Int) : (s.setI x i).gateNet = s.gateNet := rfl
@[simp] theorem State.setI_sns (x : Fld) (i : Int) : (s.setI x i).sns = s.sns := rfl
@[simp] theorem State.setI_ports (x : Fld) (i : Int) : (s.setI x i).ports = s.ports := rfl
@[simp] theorem State.setI_emus (x : Fld) (i : Int) : (s.setI x i).emus = s.emus := rfl
@[simp] theorem State.setI_kyn (x : Fld) (i : Int) : (s.setI x i).kyn = s.kyn := rfl
@[simp] theorem State.setI_cells (x : Fld) (i : Int) : (s.setI x i).cells = s.cells := rfl
@[simp] theorem State.setI_arms (x : Fld) (i : Int) : (s.setI x i).arms = s.arms := rfl
@[simp] theorem State.setI_axes (x : Fld) (i : Int) : (s.setI x i).axes = s.axes := rfl
@[simp] theorem State.setI_cams (x : Fld) (i : Int) : (s.setI x i).cams = s.cams := rfl
@[simp] theorem State.setI_line (x : Fld) (i : Int) : (s.setI x i).line = s.line := rfl
@[simp] theorem State.setI_cans (x : Fld) (i : Int) : (s.setI x i).cans = s.cans := rfl
@[simp] theorem State.setI_saf (x : Fld) (i : Int) : (s.setI x i).saf = s.saf := rfl

/-! ### incSat -/

@[simp] theorem State.incSat_pending (x : Fld) (n : Nat) : (s.incSat x n).pending = s.pending := rfl
@[simp] theorem State.incSat_freeCtr (x : Fld) (n : Nat) : (s.incSat x n).freeCtr = s.freeCtr := rfl
@[simp] theorem State.incSat_part (x : Fld) (n : Nat) : (s.incSat x n).part = s.part := rfl
@[simp] theorem State.incSat_inForce (x : Fld) (n : Nat) : (s.incSat x n).inForce = s.inForce := rfl
@[simp] theorem State.incSat_shadow (x : Fld) (n : Nat) : (s.incSat x n).shadow = s.shadow := rfl
@[simp] theorem State.incSat_elig (x : Fld) (n : Nat) : (s.incSat x n).elig = s.elig := rfl
@[simp] theorem State.incSat_held (x : Fld) (n : Nat) : (s.incSat x n).held = s.held := rfl
@[simp] theorem State.incSat_mem (x : Fld) (n : Nat) : (s.incSat x n).mem = s.mem := rfl
@[simp] theorem State.incSat_tm (x : Fld) (n : Nat) : (s.incSat x n).tm = s.tm := rfl
@[simp] theorem State.incSat_eng (x : Fld) (n : Nat) : (s.incSat x n).eng = s.eng := rfl
@[simp] theorem State.incSat_host (x : Fld) (n : Nat) : (s.incSat x n).host = s.host := rfl
@[simp] theorem State.incSat_sec (x : Fld) (n : Nat) : (s.incSat x n).sec = s.sec := rfl
@[simp] theorem State.incSat_pwr (x : Fld) (n : Nat) : (s.incSat x n).pwr = s.pwr := rfl
@[simp] theorem State.incSat_units (x : Fld) (n : Nat) : (s.incSat x n).units = s.units := rfl
@[simp] theorem State.incSat_mds (x : Fld) (n : Nat) : (s.incSat x n).mds = s.mds := rfl
@[simp] theorem State.incSat_legs (x : Fld) (n : Nat) : (s.incSat x n).legs = s.legs := rfl
@[simp] theorem State.incSat_prot (x : Fld) (n : Nat) : (s.incSat x n).prot = s.prot := rfl
@[simp] theorem State.incSat_gateNet (x : Fld) (n : Nat) : (s.incSat x n).gateNet = s.gateNet := rfl
@[simp] theorem State.incSat_sns (x : Fld) (n : Nat) : (s.incSat x n).sns = s.sns := rfl
@[simp] theorem State.incSat_ports (x : Fld) (n : Nat) : (s.incSat x n).ports = s.ports := rfl
@[simp] theorem State.incSat_emus (x : Fld) (n : Nat) : (s.incSat x n).emus = s.emus := rfl
@[simp] theorem State.incSat_kyn (x : Fld) (n : Nat) : (s.incSat x n).kyn = s.kyn := rfl
@[simp] theorem State.incSat_cells (x : Fld) (n : Nat) : (s.incSat x n).cells = s.cells := rfl
@[simp] theorem State.incSat_arms (x : Fld) (n : Nat) : (s.incSat x n).arms = s.arms := rfl
@[simp] theorem State.incSat_axes (x : Fld) (n : Nat) : (s.incSat x n).axes = s.axes := rfl
@[simp] theorem State.incSat_cams (x : Fld) (n : Nat) : (s.incSat x n).cams = s.cams := rfl
@[simp] theorem State.incSat_line (x : Fld) (n : Nat) : (s.incSat x n).line = s.line := rfl
@[simp] theorem State.incSat_cans (x : Fld) (n : Nat) : (s.incSat x n).cans = s.cans := rfl
@[simp] theorem State.incSat_saf (x : Fld) (n : Nat) : (s.incSat x n).saf = s.saf := rfl

/-! ### incWrap -/

@[simp] theorem State.incWrap_pending (x : Fld) (n : Nat) : (s.incWrap x n).pending = s.pending := rfl
@[simp] theorem State.incWrap_freeCtr (x : Fld) (n : Nat) : (s.incWrap x n).freeCtr = s.freeCtr := rfl
@[simp] theorem State.incWrap_part (x : Fld) (n : Nat) : (s.incWrap x n).part = s.part := rfl
@[simp] theorem State.incWrap_inForce (x : Fld) (n : Nat) : (s.incWrap x n).inForce = s.inForce := rfl
@[simp] theorem State.incWrap_shadow (x : Fld) (n : Nat) : (s.incWrap x n).shadow = s.shadow := rfl
@[simp] theorem State.incWrap_elig (x : Fld) (n : Nat) : (s.incWrap x n).elig = s.elig := rfl
@[simp] theorem State.incWrap_held (x : Fld) (n : Nat) : (s.incWrap x n).held = s.held := rfl
@[simp] theorem State.incWrap_mem (x : Fld) (n : Nat) : (s.incWrap x n).mem = s.mem := rfl
@[simp] theorem State.incWrap_tm (x : Fld) (n : Nat) : (s.incWrap x n).tm = s.tm := rfl
@[simp] theorem State.incWrap_eng (x : Fld) (n : Nat) : (s.incWrap x n).eng = s.eng := rfl
@[simp] theorem State.incWrap_host (x : Fld) (n : Nat) : (s.incWrap x n).host = s.host := rfl
@[simp] theorem State.incWrap_sec (x : Fld) (n : Nat) : (s.incWrap x n).sec = s.sec := rfl
@[simp] theorem State.incWrap_pwr (x : Fld) (n : Nat) : (s.incWrap x n).pwr = s.pwr := rfl
@[simp] theorem State.incWrap_units (x : Fld) (n : Nat) : (s.incWrap x n).units = s.units := rfl
@[simp] theorem State.incWrap_mds (x : Fld) (n : Nat) : (s.incWrap x n).mds = s.mds := rfl
@[simp] theorem State.incWrap_legs (x : Fld) (n : Nat) : (s.incWrap x n).legs = s.legs := rfl
@[simp] theorem State.incWrap_prot (x : Fld) (n : Nat) : (s.incWrap x n).prot = s.prot := rfl
@[simp] theorem State.incWrap_gateNet (x : Fld) (n : Nat) : (s.incWrap x n).gateNet = s.gateNet := rfl
@[simp] theorem State.incWrap_sns (x : Fld) (n : Nat) : (s.incWrap x n).sns = s.sns := rfl
@[simp] theorem State.incWrap_ports (x : Fld) (n : Nat) : (s.incWrap x n).ports = s.ports := rfl
@[simp] theorem State.incWrap_emus (x : Fld) (n : Nat) : (s.incWrap x n).emus = s.emus := rfl
@[simp] theorem State.incWrap_kyn (x : Fld) (n : Nat) : (s.incWrap x n).kyn = s.kyn := rfl
@[simp] theorem State.incWrap_cells (x : Fld) (n : Nat) : (s.incWrap x n).cells = s.cells := rfl
@[simp] theorem State.incWrap_arms (x : Fld) (n : Nat) : (s.incWrap x n).arms = s.arms := rfl
@[simp] theorem State.incWrap_axes (x : Fld) (n : Nat) : (s.incWrap x n).axes = s.axes := rfl
@[simp] theorem State.incWrap_cams (x : Fld) (n : Nat) : (s.incWrap x n).cams = s.cams := rfl
@[simp] theorem State.incWrap_line (x : Fld) (n : Nat) : (s.incWrap x n).line = s.line := rfl
@[simp] theorem State.incWrap_cans (x : Fld) (n : Nat) : (s.incWrap x n).cans = s.cans := rfl
@[simp] theorem State.incWrap_saf (x : Fld) (n : Nat) : (s.incWrap x n).saf = s.saf := rfl

/-! ### maxF -/

@[simp] theorem State.maxF_pending (x : Fld) (v : Nat) : (s.maxF x v).pending = s.pending := rfl
@[simp] theorem State.maxF_freeCtr (x : Fld) (v : Nat) : (s.maxF x v).freeCtr = s.freeCtr := rfl
@[simp] theorem State.maxF_part (x : Fld) (v : Nat) : (s.maxF x v).part = s.part := rfl
@[simp] theorem State.maxF_inForce (x : Fld) (v : Nat) : (s.maxF x v).inForce = s.inForce := rfl
@[simp] theorem State.maxF_shadow (x : Fld) (v : Nat) : (s.maxF x v).shadow = s.shadow := rfl
@[simp] theorem State.maxF_elig (x : Fld) (v : Nat) : (s.maxF x v).elig = s.elig := rfl
@[simp] theorem State.maxF_held (x : Fld) (v : Nat) : (s.maxF x v).held = s.held := rfl
@[simp] theorem State.maxF_mem (x : Fld) (v : Nat) : (s.maxF x v).mem = s.mem := rfl
@[simp] theorem State.maxF_tm (x : Fld) (v : Nat) : (s.maxF x v).tm = s.tm := rfl
@[simp] theorem State.maxF_eng (x : Fld) (v : Nat) : (s.maxF x v).eng = s.eng := rfl
@[simp] theorem State.maxF_host (x : Fld) (v : Nat) : (s.maxF x v).host = s.host := rfl
@[simp] theorem State.maxF_sec (x : Fld) (v : Nat) : (s.maxF x v).sec = s.sec := rfl
@[simp] theorem State.maxF_pwr (x : Fld) (v : Nat) : (s.maxF x v).pwr = s.pwr := rfl
@[simp] theorem State.maxF_units (x : Fld) (v : Nat) : (s.maxF x v).units = s.units := rfl
@[simp] theorem State.maxF_mds (x : Fld) (v : Nat) : (s.maxF x v).mds = s.mds := rfl
@[simp] theorem State.maxF_legs (x : Fld) (v : Nat) : (s.maxF x v).legs = s.legs := rfl
@[simp] theorem State.maxF_prot (x : Fld) (v : Nat) : (s.maxF x v).prot = s.prot := rfl
@[simp] theorem State.maxF_gateNet (x : Fld) (v : Nat) : (s.maxF x v).gateNet = s.gateNet := rfl
@[simp] theorem State.maxF_sns (x : Fld) (v : Nat) : (s.maxF x v).sns = s.sns := rfl
@[simp] theorem State.maxF_ports (x : Fld) (v : Nat) : (s.maxF x v).ports = s.ports := rfl
@[simp] theorem State.maxF_emus (x : Fld) (v : Nat) : (s.maxF x v).emus = s.emus := rfl
@[simp] theorem State.maxF_kyn (x : Fld) (v : Nat) : (s.maxF x v).kyn = s.kyn := rfl
@[simp] theorem State.maxF_cells (x : Fld) (v : Nat) : (s.maxF x v).cells = s.cells := rfl
@[simp] theorem State.maxF_arms (x : Fld) (v : Nat) : (s.maxF x v).arms = s.arms := rfl
@[simp] theorem State.maxF_axes (x : Fld) (v : Nat) : (s.maxF x v).axes = s.axes := rfl
@[simp] theorem State.maxF_cams (x : Fld) (v : Nat) : (s.maxF x v).cams = s.cams := rfl
@[simp] theorem State.maxF_line (x : Fld) (v : Nat) : (s.maxF x v).line = s.line := rfl
@[simp] theorem State.maxF_cans (x : Fld) (v : Nat) : (s.maxF x v).cans = s.cans := rfl
@[simp] theorem State.maxF_saf (x : Fld) (v : Nat) : (s.maxF x v).saf = s.saf := rfl

/-! ### putWord -/

@[simp] theorem State.putWord_pending (a : Nat) (w : Word) : (s.putWord a w).pending = s.pending := rfl
@[simp] theorem State.putWord_freeCtr (a : Nat) (w : Word) : (s.putWord a w).freeCtr = s.freeCtr := rfl
@[simp] theorem State.putWord_part (a : Nat) (w : Word) : (s.putWord a w).part = s.part := rfl
@[simp] theorem State.putWord_regs (a : Nat) (w : Word) : (s.putWord a w).regs = s.regs := rfl
@[simp] theorem State.putWord_inForce (a : Nat) (w : Word) : (s.putWord a w).inForce = s.inForce := rfl
@[simp] theorem State.putWord_shadow (a : Nat) (w : Word) : (s.putWord a w).shadow = s.shadow := rfl
@[simp] theorem State.putWord_elig (a : Nat) (w : Word) : (s.putWord a w).elig = s.elig := rfl
@[simp] theorem State.putWord_held (a : Nat) (w : Word) : (s.putWord a w).held = s.held := rfl
@[simp] theorem State.putWord_tm (a : Nat) (w : Word) : (s.putWord a w).tm = s.tm := rfl
@[simp] theorem State.putWord_eng (a : Nat) (w : Word) : (s.putWord a w).eng = s.eng := rfl
@[simp] theorem State.putWord_host (a : Nat) (w : Word) : (s.putWord a w).host = s.host := rfl
@[simp] theorem State.putWord_sec (a : Nat) (w : Word) : (s.putWord a w).sec = s.sec := rfl
@[simp] theorem State.putWord_pwr (a : Nat) (w : Word) : (s.putWord a w).pwr = s.pwr := rfl
@[simp] theorem State.putWord_units (a : Nat) (w : Word) : (s.putWord a w).units = s.units := rfl
@[simp] theorem State.putWord_mds (a : Nat) (w : Word) : (s.putWord a w).mds = s.mds := rfl
@[simp] theorem State.putWord_legs (a : Nat) (w : Word) : (s.putWord a w).legs = s.legs := rfl
@[simp] theorem State.putWord_prot (a : Nat) (w : Word) : (s.putWord a w).prot = s.prot := rfl
@[simp] theorem State.putWord_gateNet (a : Nat) (w : Word) : (s.putWord a w).gateNet = s.gateNet := rfl
@[simp] theorem State.putWord_sns (a : Nat) (w : Word) : (s.putWord a w).sns = s.sns := rfl
@[simp] theorem State.putWord_ports (a : Nat) (w : Word) : (s.putWord a w).ports = s.ports := rfl
@[simp] theorem State.putWord_emus (a : Nat) (w : Word) : (s.putWord a w).emus = s.emus := rfl
@[simp] theorem State.putWord_kyn (a : Nat) (w : Word) : (s.putWord a w).kyn = s.kyn := rfl
@[simp] theorem State.putWord_cells (a : Nat) (w : Word) : (s.putWord a w).cells = s.cells := rfl
@[simp] theorem State.putWord_arms (a : Nat) (w : Word) : (s.putWord a w).arms = s.arms := rfl
@[simp] theorem State.putWord_axes (a : Nat) (w : Word) : (s.putWord a w).axes = s.axes := rfl
@[simp] theorem State.putWord_cams (a : Nat) (w : Word) : (s.putWord a w).cams = s.cams := rfl
@[simp] theorem State.putWord_line (a : Nat) (w : Word) : (s.putWord a w).line = s.line := rfl
@[simp] theorem State.putWord_cans (a : Nat) (w : Word) : (s.putWord a w).cans = s.cans := rfl
@[simp] theorem State.putWord_saf (a : Nat) (w : Word) : (s.putWord a w).saf = s.saf := rfl

/-! ### putBytes -/

@[simp] theorem State.putBytes_pending (a : Nat) (w : Word) (be : BitVec 4) : (s.putBytes a w be).pending = s.pending := rfl
@[simp] theorem State.putBytes_freeCtr (a : Nat) (w : Word) (be : BitVec 4) : (s.putBytes a w be).freeCtr = s.freeCtr := rfl
@[simp] theorem State.putBytes_part (a : Nat) (w : Word) (be : BitVec 4) : (s.putBytes a w be).part = s.part := rfl
@[simp] theorem State.putBytes_regs (a : Nat) (w : Word) (be : BitVec 4) : (s.putBytes a w be).regs = s.regs := rfl
@[simp] theorem State.putBytes_inForce (a : Nat) (w : Word) (be : BitVec 4) : (s.putBytes a w be).inForce = s.inForce := rfl
@[simp] theorem State.putBytes_shadow (a : Nat) (w : Word) (be : BitVec 4) : (s.putBytes a w be).shadow = s.shadow := rfl
@[simp] theorem State.putBytes_elig (a : Nat) (w : Word) (be : BitVec 4) : (s.putBytes a w be).elig = s.elig := rfl
@[simp] theorem State.putBytes_held (a : Nat) (w : Word) (be : BitVec 4) : (s.putBytes a w be).held = s.held := rfl
@[simp] theorem State.putBytes_tm (a : Nat) (w : Word) (be : BitVec 4) : (s.putBytes a w be).tm = s.tm := rfl
@[simp] theorem State.putBytes_eng (a : Nat) (w : Word) (be : BitVec 4) : (s.putBytes a w be).eng = s.eng := rfl
@[simp] theorem State.putBytes_host (a : Nat) (w : Word) (be : BitVec 4) : (s.putBytes a w be).host = s.host := rfl
@[simp] theorem State.putBytes_sec (a : Nat) (w : Word) (be : BitVec 4) : (s.putBytes a w be).sec = s.sec := rfl
@[simp] theorem State.putBytes_pwr (a : Nat) (w : Word) (be : BitVec 4) : (s.putBytes a w be).pwr = s.pwr := rfl
@[simp] theorem State.putBytes_units (a : Nat) (w : Word) (be : BitVec 4) : (s.putBytes a w be).units = s.units := rfl
@[simp] theorem State.putBytes_mds (a : Nat) (w : Word) (be : BitVec 4) : (s.putBytes a w be).mds = s.mds := rfl
@[simp] theorem State.putBytes_legs (a : Nat) (w : Word) (be : BitVec 4) : (s.putBytes a w be).legs = s.legs := rfl
@[simp] theorem State.putBytes_prot (a : Nat) (w : Word) (be : BitVec 4) : (s.putBytes a w be).prot = s.prot := rfl
@[simp] theorem State.putBytes_gateNet (a : Nat) (w : Word) (be : BitVec 4) : (s.putBytes a w be).gateNet = s.gateNet := rfl
@[simp] theorem State.putBytes_sns (a : Nat) (w : Word) (be : BitVec 4) : (s.putBytes a w be).sns = s.sns := rfl
@[simp] theorem State.putBytes_ports (a : Nat) (w : Word) (be : BitVec 4) : (s.putBytes a w be).ports = s.ports := rfl
@[simp] theorem State.putBytes_emus (a : Nat) (w : Word) (be : BitVec 4) : (s.putBytes a w be).emus = s.emus := rfl
@[simp] theorem State.putBytes_kyn (a : Nat) (w : Word) (be : BitVec 4) : (s.putBytes a w be).kyn = s.kyn := rfl
@[simp] theorem State.putBytes_cells (a : Nat) (w : Word) (be : BitVec 4) : (s.putBytes a w be).cells = s.cells := rfl
@[simp] theorem State.putBytes_arms (a : Nat) (w : Word) (be : BitVec 4) : (s.putBytes a w be).arms = s.arms := rfl
@[simp] theorem State.putBytes_axes (a : Nat) (w : Word) (be : BitVec 4) : (s.putBytes a w be).axes = s.axes := rfl
@[simp] theorem State.putBytes_cams (a : Nat) (w : Word) (be : BitVec 4) : (s.putBytes a w be).cams = s.cams := rfl
@[simp] theorem State.putBytes_line (a : Nat) (w : Word) (be : BitVec 4) : (s.putBytes a w be).line = s.line := rfl
@[simp] theorem State.putBytes_cans (a : Nat) (w : Word) (be : BitVec 4) : (s.putBytes a w be).cans = s.cans := rfl
@[simp] theorem State.putBytes_saf (a : Nat) (w : Word) (be : BitVec 4) : (s.putBytes a w be).saf = s.saf := rfl

/-! ### putWords -/

@[simp] theorem State.putWords_pending (a : Nat) (ws : List Word) : (s.putWords a ws).pending = s.pending := rfl
@[simp] theorem State.putWords_freeCtr (a : Nat) (ws : List Word) : (s.putWords a ws).freeCtr = s.freeCtr := rfl
@[simp] theorem State.putWords_part (a : Nat) (ws : List Word) : (s.putWords a ws).part = s.part := rfl
@[simp] theorem State.putWords_regs (a : Nat) (ws : List Word) : (s.putWords a ws).regs = s.regs := rfl
@[simp] theorem State.putWords_inForce (a : Nat) (ws : List Word) : (s.putWords a ws).inForce = s.inForce := rfl
@[simp] theorem State.putWords_shadow (a : Nat) (ws : List Word) : (s.putWords a ws).shadow = s.shadow := rfl
@[simp] theorem State.putWords_elig (a : Nat) (ws : List Word) : (s.putWords a ws).elig = s.elig := rfl
@[simp] theorem State.putWords_held (a : Nat) (ws : List Word) : (s.putWords a ws).held = s.held := rfl
@[simp] theorem State.putWords_tm (a : Nat) (ws : List Word) : (s.putWords a ws).tm = s.tm := rfl
@[simp] theorem State.putWords_eng (a : Nat) (ws : List Word) : (s.putWords a ws).eng = s.eng := rfl
@[simp] theorem State.putWords_host (a : Nat) (ws : List Word) : (s.putWords a ws).host = s.host := rfl
@[simp] theorem State.putWords_sec (a : Nat) (ws : List Word) : (s.putWords a ws).sec = s.sec := rfl
@[simp] theorem State.putWords_pwr (a : Nat) (ws : List Word) : (s.putWords a ws).pwr = s.pwr := rfl
@[simp] theorem State.putWords_units (a : Nat) (ws : List Word) : (s.putWords a ws).units = s.units := rfl
@[simp] theorem State.putWords_mds (a : Nat) (ws : List Word) : (s.putWords a ws).mds = s.mds := rfl
@[simp] theorem State.putWords_legs (a : Nat) (ws : List Word) : (s.putWords a ws).legs = s.legs := rfl
@[simp] theorem State.putWords_prot (a : Nat) (ws : List Word) : (s.putWords a ws).prot = s.prot := rfl
@[simp] theorem State.putWords_gateNet (a : Nat) (ws : List Word) : (s.putWords a ws).gateNet = s.gateNet := rfl
@[simp] theorem State.putWords_sns (a : Nat) (ws : List Word) : (s.putWords a ws).sns = s.sns := rfl
@[simp] theorem State.putWords_ports (a : Nat) (ws : List Word) : (s.putWords a ws).ports = s.ports := rfl
@[simp] theorem State.putWords_emus (a : Nat) (ws : List Word) : (s.putWords a ws).emus = s.emus := rfl
@[simp] theorem State.putWords_kyn (a : Nat) (ws : List Word) : (s.putWords a ws).kyn = s.kyn := rfl
@[simp] theorem State.putWords_cells (a : Nat) (ws : List Word) : (s.putWords a ws).cells = s.cells := rfl
@[simp] theorem State.putWords_arms (a : Nat) (ws : List Word) : (s.putWords a ws).arms = s.arms := rfl
@[simp] theorem State.putWords_axes (a : Nat) (ws : List Word) : (s.putWords a ws).axes = s.axes := rfl
@[simp] theorem State.putWords_cams (a : Nat) (ws : List Word) : (s.putWords a ws).cams = s.cams := rfl
@[simp] theorem State.putWords_line (a : Nat) (ws : List Word) : (s.putWords a ws).line = s.line := rfl
@[simp] theorem State.putWords_cans (a : Nat) (ws : List Word) : (s.putWords a ws).cans = s.cans := rfl
@[simp] theorem State.putWords_saf (a : Nat) (ws : List Word) : (s.putWords a ws).saf = s.saf := rfl

/-! ### copy -/

@[simp] theorem State.copy_pending (a b n : Nat) : (s.copy a b n).pending = s.pending := rfl
@[simp] theorem State.copy_freeCtr (a b n : Nat) : (s.copy a b n).freeCtr = s.freeCtr := rfl
@[simp] theorem State.copy_part (a b n : Nat) : (s.copy a b n).part = s.part := rfl
@[simp] theorem State.copy_regs (a b n : Nat) : (s.copy a b n).regs = s.regs := rfl
@[simp] theorem State.copy_inForce (a b n : Nat) : (s.copy a b n).inForce = s.inForce := rfl
@[simp] theorem State.copy_shadow (a b n : Nat) : (s.copy a b n).shadow = s.shadow := rfl
@[simp] theorem State.copy_elig (a b n : Nat) : (s.copy a b n).elig = s.elig := rfl
@[simp] theorem State.copy_held (a b n : Nat) : (s.copy a b n).held = s.held := rfl
@[simp] theorem State.copy_tm (a b n : Nat) : (s.copy a b n).tm = s.tm := rfl
@[simp] theorem State.copy_eng (a b n : Nat) : (s.copy a b n).eng = s.eng := rfl
@[simp] theorem State.copy_host (a b n : Nat) : (s.copy a b n).host = s.host := rfl
@[simp] theorem State.copy_sec (a b n : Nat) : (s.copy a b n).sec = s.sec := rfl
@[simp] theorem State.copy_pwr (a b n : Nat) : (s.copy a b n).pwr = s.pwr := rfl
@[simp] theorem State.copy_units (a b n : Nat) : (s.copy a b n).units = s.units := rfl
@[simp] theorem State.copy_mds (a b n : Nat) : (s.copy a b n).mds = s.mds := rfl
@[simp] theorem State.copy_legs (a b n : Nat) : (s.copy a b n).legs = s.legs := rfl
@[simp] theorem State.copy_prot (a b n : Nat) : (s.copy a b n).prot = s.prot := rfl
@[simp] theorem State.copy_gateNet (a b n : Nat) : (s.copy a b n).gateNet = s.gateNet := rfl
@[simp] theorem State.copy_sns (a b n : Nat) : (s.copy a b n).sns = s.sns := rfl
@[simp] theorem State.copy_ports (a b n : Nat) : (s.copy a b n).ports = s.ports := rfl
@[simp] theorem State.copy_emus (a b n : Nat) : (s.copy a b n).emus = s.emus := rfl
@[simp] theorem State.copy_kyn (a b n : Nat) : (s.copy a b n).kyn = s.kyn := rfl
@[simp] theorem State.copy_cells (a b n : Nat) : (s.copy a b n).cells = s.cells := rfl
@[simp] theorem State.copy_arms (a b n : Nat) : (s.copy a b n).arms = s.arms := rfl
@[simp] theorem State.copy_axes (a b n : Nat) : (s.copy a b n).axes = s.axes := rfl
@[simp] theorem State.copy_cams (a b n : Nat) : (s.copy a b n).cams = s.cams := rfl
@[simp] theorem State.copy_line (a b n : Nat) : (s.copy a b n).line = s.line := rfl
@[simp] theorem State.copy_cans (a b n : Nat) : (s.copy a b n).cans = s.cans := rfl
@[simp] theorem State.copy_saf (a b n : Nat) : (s.copy a b n).saf = s.saf := rfl

/-! ### takeInForce -/

@[simp] theorem State.takeInForce_pending (lo hi : Nat) : (s.takeInForce lo hi).pending = s.pending := rfl
@[simp] theorem State.takeInForce_freeCtr (lo hi : Nat) : (s.takeInForce lo hi).freeCtr = s.freeCtr := rfl
@[simp] theorem State.takeInForce_part (lo hi : Nat) : (s.takeInForce lo hi).part = s.part := rfl
@[simp] theorem State.takeInForce_regs (lo hi : Nat) : (s.takeInForce lo hi).regs = s.regs := rfl
@[simp] theorem State.takeInForce_shadow (lo hi : Nat) : (s.takeInForce lo hi).shadow = s.shadow := rfl
@[simp] theorem State.takeInForce_elig (lo hi : Nat) : (s.takeInForce lo hi).elig = s.elig := rfl
@[simp] theorem State.takeInForce_held (lo hi : Nat) : (s.takeInForce lo hi).held = s.held := rfl
@[simp] theorem State.takeInForce_mem (lo hi : Nat) : (s.takeInForce lo hi).mem = s.mem := rfl
@[simp] theorem State.takeInForce_tm (lo hi : Nat) : (s.takeInForce lo hi).tm = s.tm := rfl
@[simp] theorem State.takeInForce_eng (lo hi : Nat) : (s.takeInForce lo hi).eng = s.eng := rfl
@[simp] theorem State.takeInForce_host (lo hi : Nat) : (s.takeInForce lo hi).host = s.host := rfl
@[simp] theorem State.takeInForce_sec (lo hi : Nat) : (s.takeInForce lo hi).sec = s.sec := rfl
@[simp] theorem State.takeInForce_pwr (lo hi : Nat) : (s.takeInForce lo hi).pwr = s.pwr := rfl
@[simp] theorem State.takeInForce_units (lo hi : Nat) : (s.takeInForce lo hi).units = s.units := rfl
@[simp] theorem State.takeInForce_mds (lo hi : Nat) : (s.takeInForce lo hi).mds = s.mds := rfl
@[simp] theorem State.takeInForce_legs (lo hi : Nat) : (s.takeInForce lo hi).legs = s.legs := rfl
@[simp] theorem State.takeInForce_prot (lo hi : Nat) : (s.takeInForce lo hi).prot = s.prot := rfl
@[simp] theorem State.takeInForce_gateNet (lo hi : Nat) : (s.takeInForce lo hi).gateNet = s.gateNet := rfl
@[simp] theorem State.takeInForce_sns (lo hi : Nat) : (s.takeInForce lo hi).sns = s.sns := rfl
@[simp] theorem State.takeInForce_ports (lo hi : Nat) : (s.takeInForce lo hi).ports = s.ports := rfl
@[simp] theorem State.takeInForce_emus (lo hi : Nat) : (s.takeInForce lo hi).emus = s.emus := rfl
@[simp] theorem State.takeInForce_kyn (lo hi : Nat) : (s.takeInForce lo hi).kyn = s.kyn := rfl
@[simp] theorem State.takeInForce_cells (lo hi : Nat) : (s.takeInForce lo hi).cells = s.cells := rfl
@[simp] theorem State.takeInForce_arms (lo hi : Nat) : (s.takeInForce lo hi).arms = s.arms := rfl
@[simp] theorem State.takeInForce_axes (lo hi : Nat) : (s.takeInForce lo hi).axes = s.axes := rfl
@[simp] theorem State.takeInForce_cams (lo hi : Nat) : (s.takeInForce lo hi).cams = s.cams := rfl
@[simp] theorem State.takeInForce_line (lo hi : Nat) : (s.takeInForce lo hi).line = s.line := rfl
@[simp] theorem State.takeInForce_cans (lo hi : Nat) : (s.takeInForce lo hi).cans = s.cans := rfl
@[simp] theorem State.takeInForce_saf (lo hi : Nat) : (s.takeInForce lo hi).saf = s.saf := rfl

/-! ### setShd -/

@[simp] theorem State.setShd_pending (a : Nat) (w : Word) : (s.setShd a w).pending = s.pending := rfl
@[simp] theorem State.setShd_freeCtr (a : Nat) (w : Word) : (s.setShd a w).freeCtr = s.freeCtr := rfl
@[simp] theorem State.setShd_part (a : Nat) (w : Word) : (s.setShd a w).part = s.part := rfl
@[simp] theorem State.setShd_regs (a : Nat) (w : Word) : (s.setShd a w).regs = s.regs := rfl
@[simp] theorem State.setShd_inForce (a : Nat) (w : Word) : (s.setShd a w).inForce = s.inForce := rfl
@[simp] theorem State.setShd_elig (a : Nat) (w : Word) : (s.setShd a w).elig = s.elig := rfl
@[simp] theorem State.setShd_held (a : Nat) (w : Word) : (s.setShd a w).held = s.held := rfl
@[simp] theorem State.setShd_mem (a : Nat) (w : Word) : (s.setShd a w).mem = s.mem := rfl
@[simp] theorem State.setShd_tm (a : Nat) (w : Word) : (s.setShd a w).tm = s.tm := rfl
@[simp] theorem State.setShd_eng (a : Nat) (w : Word) : (s.setShd a w).eng = s.eng := rfl
@[simp] theorem State.setShd_host (a : Nat) (w : Word) : (s.setShd a w).host = s.host := rfl
@[simp] theorem State.setShd_sec (a : Nat) (w : Word) : (s.setShd a w).sec = s.sec := rfl
@[simp] theorem State.setShd_pwr (a : Nat) (w : Word) : (s.setShd a w).pwr = s.pwr := rfl
@[simp] theorem State.setShd_units (a : Nat) (w : Word) : (s.setShd a w).units = s.units := rfl
@[simp] theorem State.setShd_mds (a : Nat) (w : Word) : (s.setShd a w).mds = s.mds := rfl
@[simp] theorem State.setShd_legs (a : Nat) (w : Word) : (s.setShd a w).legs = s.legs := rfl
@[simp] theorem State.setShd_prot (a : Nat) (w : Word) : (s.setShd a w).prot = s.prot := rfl
@[simp] theorem State.setShd_gateNet (a : Nat) (w : Word) : (s.setShd a w).gateNet = s.gateNet := rfl
@[simp] theorem State.setShd_sns (a : Nat) (w : Word) : (s.setShd a w).sns = s.sns := rfl
@[simp] theorem State.setShd_ports (a : Nat) (w : Word) : (s.setShd a w).ports = s.ports := rfl
@[simp] theorem State.setShd_emus (a : Nat) (w : Word) : (s.setShd a w).emus = s.emus := rfl
@[simp] theorem State.setShd_kyn (a : Nat) (w : Word) : (s.setShd a w).kyn = s.kyn := rfl
@[simp] theorem State.setShd_cells (a : Nat) (w : Word) : (s.setShd a w).cells = s.cells := rfl
@[simp] theorem State.setShd_arms (a : Nat) (w : Word) : (s.setShd a w).arms = s.arms := rfl
@[simp] theorem State.setShd_axes (a : Nat) (w : Word) : (s.setShd a w).axes = s.axes := rfl
@[simp] theorem State.setShd_cams (a : Nat) (w : Word) : (s.setShd a w).cams = s.cams := rfl
@[simp] theorem State.setShd_line (a : Nat) (w : Word) : (s.setShd a w).line = s.line := rfl
@[simp] theorem State.setShd_cans (a : Nat) (w : Word) : (s.setShd a w).cans = s.cans := rfl
@[simp] theorem State.setShd_saf (a : Nat) (w : Word) : (s.setShd a w).saf = s.saf := rfl

/-! ### setUnit -/

@[simp] theorem State.setUnit_pending (n : Nat) (x : UnitSt) : (s.setUnit n x).pending = s.pending := rfl
@[simp] theorem State.setUnit_freeCtr (n : Nat) (x : UnitSt) : (s.setUnit n x).freeCtr = s.freeCtr := rfl
@[simp] theorem State.setUnit_part (n : Nat) (x : UnitSt) : (s.setUnit n x).part = s.part := rfl
@[simp] theorem State.setUnit_regs (n : Nat) (x : UnitSt) : (s.setUnit n x).regs = s.regs := rfl
@[simp] theorem State.setUnit_inForce (n : Nat) (x : UnitSt) : (s.setUnit n x).inForce = s.inForce := rfl
@[simp] theorem State.setUnit_shadow (n : Nat) (x : UnitSt) : (s.setUnit n x).shadow = s.shadow := rfl
@[simp] theorem State.setUnit_elig (n : Nat) (x : UnitSt) : (s.setUnit n x).elig = s.elig := rfl
@[simp] theorem State.setUnit_held (n : Nat) (x : UnitSt) : (s.setUnit n x).held = s.held := rfl
@[simp] theorem State.setUnit_mem (n : Nat) (x : UnitSt) : (s.setUnit n x).mem = s.mem := rfl
@[simp] theorem State.setUnit_tm (n : Nat) (x : UnitSt) : (s.setUnit n x).tm = s.tm := rfl
@[simp] theorem State.setUnit_eng (n : Nat) (x : UnitSt) : (s.setUnit n x).eng = s.eng := rfl
@[simp] theorem State.setUnit_host (n : Nat) (x : UnitSt) : (s.setUnit n x).host = s.host := rfl
@[simp] theorem State.setUnit_sec (n : Nat) (x : UnitSt) : (s.setUnit n x).sec = s.sec := rfl
@[simp] theorem State.setUnit_pwr (n : Nat) (x : UnitSt) : (s.setUnit n x).pwr = s.pwr := rfl
@[simp] theorem State.setUnit_mds (n : Nat) (x : UnitSt) : (s.setUnit n x).mds = s.mds := rfl
@[simp] theorem State.setUnit_legs (n : Nat) (x : UnitSt) : (s.setUnit n x).legs = s.legs := rfl
@[simp] theorem State.setUnit_prot (n : Nat) (x : UnitSt) : (s.setUnit n x).prot = s.prot := rfl
@[simp] theorem State.setUnit_gateNet (n : Nat) (x : UnitSt) : (s.setUnit n x).gateNet = s.gateNet := rfl
@[simp] theorem State.setUnit_sns (n : Nat) (x : UnitSt) : (s.setUnit n x).sns = s.sns := rfl
@[simp] theorem State.setUnit_ports (n : Nat) (x : UnitSt) : (s.setUnit n x).ports = s.ports := rfl
@[simp] theorem State.setUnit_emus (n : Nat) (x : UnitSt) : (s.setUnit n x).emus = s.emus := rfl
@[simp] theorem State.setUnit_kyn (n : Nat) (x : UnitSt) : (s.setUnit n x).kyn = s.kyn := rfl
@[simp] theorem State.setUnit_cells (n : Nat) (x : UnitSt) : (s.setUnit n x).cells = s.cells := rfl
@[simp] theorem State.setUnit_arms (n : Nat) (x : UnitSt) : (s.setUnit n x).arms = s.arms := rfl
@[simp] theorem State.setUnit_axes (n : Nat) (x : UnitSt) : (s.setUnit n x).axes = s.axes := rfl
@[simp] theorem State.setUnit_cams (n : Nat) (x : UnitSt) : (s.setUnit n x).cams = s.cams := rfl
@[simp] theorem State.setUnit_line (n : Nat) (x : UnitSt) : (s.setUnit n x).line = s.line := rfl
@[simp] theorem State.setUnit_cans (n : Nat) (x : UnitSt) : (s.setUnit n x).cans = s.cans := rfl
@[simp] theorem State.setUnit_saf (n : Nat) (x : UnitSt) : (s.setUnit n x).saf = s.saf := rfl

/-! ### setMd -/

@[simp] theorem State.setMd_pending (n : Nat) (x : MdSt) : (s.setMd n x).pending = s.pending := rfl
@[simp] theorem State.setMd_freeCtr (n : Nat) (x : MdSt) : (s.setMd n x).freeCtr = s.freeCtr := rfl
@[simp] theorem State.setMd_part (n : Nat) (x : MdSt) : (s.setMd n x).part = s.part := rfl
@[simp] theorem State.setMd_regs (n : Nat) (x : MdSt) : (s.setMd n x).regs = s.regs := rfl
@[simp] theorem State.setMd_inForce (n : Nat) (x : MdSt) : (s.setMd n x).inForce = s.inForce := rfl
@[simp] theorem State.setMd_shadow (n : Nat) (x : MdSt) : (s.setMd n x).shadow = s.shadow := rfl
@[simp] theorem State.setMd_elig (n : Nat) (x : MdSt) : (s.setMd n x).elig = s.elig := rfl
@[simp] theorem State.setMd_held (n : Nat) (x : MdSt) : (s.setMd n x).held = s.held := rfl
@[simp] theorem State.setMd_mem (n : Nat) (x : MdSt) : (s.setMd n x).mem = s.mem := rfl
@[simp] theorem State.setMd_tm (n : Nat) (x : MdSt) : (s.setMd n x).tm = s.tm := rfl
@[simp] theorem State.setMd_eng (n : Nat) (x : MdSt) : (s.setMd n x).eng = s.eng := rfl
@[simp] theorem State.setMd_host (n : Nat) (x : MdSt) : (s.setMd n x).host = s.host := rfl
@[simp] theorem State.setMd_sec (n : Nat) (x : MdSt) : (s.setMd n x).sec = s.sec := rfl
@[simp] theorem State.setMd_pwr (n : Nat) (x : MdSt) : (s.setMd n x).pwr = s.pwr := rfl
@[simp] theorem State.setMd_units (n : Nat) (x : MdSt) : (s.setMd n x).units = s.units := rfl
@[simp] theorem State.setMd_legs (n : Nat) (x : MdSt) : (s.setMd n x).legs = s.legs := rfl
@[simp] theorem State.setMd_prot (n : Nat) (x : MdSt) : (s.setMd n x).prot = s.prot := rfl
@[simp] theorem State.setMd_gateNet (n : Nat) (x : MdSt) : (s.setMd n x).gateNet = s.gateNet := rfl
@[simp] theorem State.setMd_sns (n : Nat) (x : MdSt) : (s.setMd n x).sns = s.sns := rfl
@[simp] theorem State.setMd_ports (n : Nat) (x : MdSt) : (s.setMd n x).ports = s.ports := rfl
@[simp] theorem State.setMd_emus (n : Nat) (x : MdSt) : (s.setMd n x).emus = s.emus := rfl
@[simp] theorem State.setMd_kyn (n : Nat) (x : MdSt) : (s.setMd n x).kyn = s.kyn := rfl
@[simp] theorem State.setMd_cells (n : Nat) (x : MdSt) : (s.setMd n x).cells = s.cells := rfl
@[simp] theorem State.setMd_arms (n : Nat) (x : MdSt) : (s.setMd n x).arms = s.arms := rfl
@[simp] theorem State.setMd_axes (n : Nat) (x : MdSt) : (s.setMd n x).axes = s.axes := rfl
@[simp] theorem State.setMd_cams (n : Nat) (x : MdSt) : (s.setMd n x).cams = s.cams := rfl
@[simp] theorem State.setMd_line (n : Nat) (x : MdSt) : (s.setMd n x).line = s.line := rfl
@[simp] theorem State.setMd_cans (n : Nat) (x : MdSt) : (s.setMd n x).cans = s.cans := rfl
@[simp] theorem State.setMd_saf (n : Nat) (x : MdSt) : (s.setMd n x).saf = s.saf := rfl

/-! ### setLeg -/

@[simp] theorem State.setLeg_pending (n : Nat) (x : LegSt) : (s.setLeg n x).pending = s.pending := rfl
@[simp] theorem State.setLeg_freeCtr (n : Nat) (x : LegSt) : (s.setLeg n x).freeCtr = s.freeCtr := rfl
@[simp] theorem State.setLeg_part (n : Nat) (x : LegSt) : (s.setLeg n x).part = s.part := rfl
@[simp] theorem State.setLeg_regs (n : Nat) (x : LegSt) : (s.setLeg n x).regs = s.regs := rfl
@[simp] theorem State.setLeg_inForce (n : Nat) (x : LegSt) : (s.setLeg n x).inForce = s.inForce := rfl
@[simp] theorem State.setLeg_shadow (n : Nat) (x : LegSt) : (s.setLeg n x).shadow = s.shadow := rfl
@[simp] theorem State.setLeg_elig (n : Nat) (x : LegSt) : (s.setLeg n x).elig = s.elig := rfl
@[simp] theorem State.setLeg_held (n : Nat) (x : LegSt) : (s.setLeg n x).held = s.held := rfl
@[simp] theorem State.setLeg_mem (n : Nat) (x : LegSt) : (s.setLeg n x).mem = s.mem := rfl
@[simp] theorem State.setLeg_tm (n : Nat) (x : LegSt) : (s.setLeg n x).tm = s.tm := rfl
@[simp] theorem State.setLeg_eng (n : Nat) (x : LegSt) : (s.setLeg n x).eng = s.eng := rfl
@[simp] theorem State.setLeg_host (n : Nat) (x : LegSt) : (s.setLeg n x).host = s.host := rfl
@[simp] theorem State.setLeg_sec (n : Nat) (x : LegSt) : (s.setLeg n x).sec = s.sec := rfl
@[simp] theorem State.setLeg_pwr (n : Nat) (x : LegSt) : (s.setLeg n x).pwr = s.pwr := rfl
@[simp] theorem State.setLeg_units (n : Nat) (x : LegSt) : (s.setLeg n x).units = s.units := rfl
@[simp] theorem State.setLeg_mds (n : Nat) (x : LegSt) : (s.setLeg n x).mds = s.mds := rfl
@[simp] theorem State.setLeg_prot (n : Nat) (x : LegSt) : (s.setLeg n x).prot = s.prot := rfl
@[simp] theorem State.setLeg_gateNet (n : Nat) (x : LegSt) : (s.setLeg n x).gateNet = s.gateNet := rfl
@[simp] theorem State.setLeg_sns (n : Nat) (x : LegSt) : (s.setLeg n x).sns = s.sns := rfl
@[simp] theorem State.setLeg_ports (n : Nat) (x : LegSt) : (s.setLeg n x).ports = s.ports := rfl
@[simp] theorem State.setLeg_emus (n : Nat) (x : LegSt) : (s.setLeg n x).emus = s.emus := rfl
@[simp] theorem State.setLeg_kyn (n : Nat) (x : LegSt) : (s.setLeg n x).kyn = s.kyn := rfl
@[simp] theorem State.setLeg_cells (n : Nat) (x : LegSt) : (s.setLeg n x).cells = s.cells := rfl
@[simp] theorem State.setLeg_arms (n : Nat) (x : LegSt) : (s.setLeg n x).arms = s.arms := rfl
@[simp] theorem State.setLeg_axes (n : Nat) (x : LegSt) : (s.setLeg n x).axes = s.axes := rfl
@[simp] theorem State.setLeg_cams (n : Nat) (x : LegSt) : (s.setLeg n x).cams = s.cams := rfl
@[simp] theorem State.setLeg_line (n : Nat) (x : LegSt) : (s.setLeg n x).line = s.line := rfl
@[simp] theorem State.setLeg_cans (n : Nat) (x : LegSt) : (s.setLeg n x).cans = s.cans := rfl
@[simp] theorem State.setLeg_saf (n : Nat) (x : LegSt) : (s.setLeg n x).saf = s.saf := rfl

/-! ### setConv -/

@[simp] theorem State.setConv_pending (n : Nat) (x : ConvSt) : (s.setConv n x).pending = s.pending := rfl
@[simp] theorem State.setConv_freeCtr (n : Nat) (x : ConvSt) : (s.setConv n x).freeCtr = s.freeCtr := rfl
@[simp] theorem State.setConv_part (n : Nat) (x : ConvSt) : (s.setConv n x).part = s.part := rfl
@[simp] theorem State.setConv_regs (n : Nat) (x : ConvSt) : (s.setConv n x).regs = s.regs := rfl
@[simp] theorem State.setConv_inForce (n : Nat) (x : ConvSt) : (s.setConv n x).inForce = s.inForce := rfl
@[simp] theorem State.setConv_shadow (n : Nat) (x : ConvSt) : (s.setConv n x).shadow = s.shadow := rfl
@[simp] theorem State.setConv_elig (n : Nat) (x : ConvSt) : (s.setConv n x).elig = s.elig := rfl
@[simp] theorem State.setConv_held (n : Nat) (x : ConvSt) : (s.setConv n x).held = s.held := rfl
@[simp] theorem State.setConv_mem (n : Nat) (x : ConvSt) : (s.setConv n x).mem = s.mem := rfl
@[simp] theorem State.setConv_tm (n : Nat) (x : ConvSt) : (s.setConv n x).tm = s.tm := rfl
@[simp] theorem State.setConv_eng (n : Nat) (x : ConvSt) : (s.setConv n x).eng = s.eng := rfl
@[simp] theorem State.setConv_host (n : Nat) (x : ConvSt) : (s.setConv n x).host = s.host := rfl
@[simp] theorem State.setConv_sec (n : Nat) (x : ConvSt) : (s.setConv n x).sec = s.sec := rfl
@[simp] theorem State.setConv_pwr (n : Nat) (x : ConvSt) : (s.setConv n x).pwr = s.pwr := rfl
@[simp] theorem State.setConv_units (n : Nat) (x : ConvSt) : (s.setConv n x).units = s.units := rfl
@[simp] theorem State.setConv_mds (n : Nat) (x : ConvSt) : (s.setConv n x).mds = s.mds := rfl
@[simp] theorem State.setConv_legs (n : Nat) (x : ConvSt) : (s.setConv n x).legs = s.legs := rfl
@[simp] theorem State.setConv_gateNet (n : Nat) (x : ConvSt) : (s.setConv n x).gateNet = s.gateNet := rfl
@[simp] theorem State.setConv_sns (n : Nat) (x : ConvSt) : (s.setConv n x).sns = s.sns := rfl
@[simp] theorem State.setConv_ports (n : Nat) (x : ConvSt) : (s.setConv n x).ports = s.ports := rfl
@[simp] theorem State.setConv_emus (n : Nat) (x : ConvSt) : (s.setConv n x).emus = s.emus := rfl
@[simp] theorem State.setConv_kyn (n : Nat) (x : ConvSt) : (s.setConv n x).kyn = s.kyn := rfl
@[simp] theorem State.setConv_cells (n : Nat) (x : ConvSt) : (s.setConv n x).cells = s.cells := rfl
@[simp] theorem State.setConv_arms (n : Nat) (x : ConvSt) : (s.setConv n x).arms = s.arms := rfl
@[simp] theorem State.setConv_axes (n : Nat) (x : ConvSt) : (s.setConv n x).axes = s.axes := rfl
@[simp] theorem State.setConv_cams (n : Nat) (x : ConvSt) : (s.setConv n x).cams = s.cams := rfl
@[simp] theorem State.setConv_line (n : Nat) (x : ConvSt) : (s.setConv n x).line = s.line := rfl
@[simp] theorem State.setConv_cans (n : Nat) (x : ConvSt) : (s.setConv n x).cans = s.cans := rfl
@[simp] theorem State.setConv_saf (n : Nat) (x : ConvSt) : (s.setConv n x).saf = s.saf := rfl

/-! ### setChop -/

@[simp] theorem State.setChop_pending (n : Nat) (x : ChopSt) : (s.setChop n x).pending = s.pending := rfl
@[simp] theorem State.setChop_freeCtr (n : Nat) (x : ChopSt) : (s.setChop n x).freeCtr = s.freeCtr := rfl
@[simp] theorem State.setChop_part (n : Nat) (x : ChopSt) : (s.setChop n x).part = s.part := rfl
@[simp] theorem State.setChop_regs (n : Nat) (x : ChopSt) : (s.setChop n x).regs = s.regs := rfl
@[simp] theorem State.setChop_inForce (n : Nat) (x : ChopSt) : (s.setChop n x).inForce = s.inForce := rfl
@[simp] theorem State.setChop_shadow (n : Nat) (x : ChopSt) : (s.setChop n x).shadow = s.shadow := rfl
@[simp] theorem State.setChop_elig (n : Nat) (x : ChopSt) : (s.setChop n x).elig = s.elig := rfl
@[simp] theorem State.setChop_held (n : Nat) (x : ChopSt) : (s.setChop n x).held = s.held := rfl
@[simp] theorem State.setChop_mem (n : Nat) (x : ChopSt) : (s.setChop n x).mem = s.mem := rfl
@[simp] theorem State.setChop_tm (n : Nat) (x : ChopSt) : (s.setChop n x).tm = s.tm := rfl
@[simp] theorem State.setChop_eng (n : Nat) (x : ChopSt) : (s.setChop n x).eng = s.eng := rfl
@[simp] theorem State.setChop_host (n : Nat) (x : ChopSt) : (s.setChop n x).host = s.host := rfl
@[simp] theorem State.setChop_sec (n : Nat) (x : ChopSt) : (s.setChop n x).sec = s.sec := rfl
@[simp] theorem State.setChop_pwr (n : Nat) (x : ChopSt) : (s.setChop n x).pwr = s.pwr := rfl
@[simp] theorem State.setChop_units (n : Nat) (x : ChopSt) : (s.setChop n x).units = s.units := rfl
@[simp] theorem State.setChop_mds (n : Nat) (x : ChopSt) : (s.setChop n x).mds = s.mds := rfl
@[simp] theorem State.setChop_legs (n : Nat) (x : ChopSt) : (s.setChop n x).legs = s.legs := rfl
@[simp] theorem State.setChop_gateNet (n : Nat) (x : ChopSt) : (s.setChop n x).gateNet = s.gateNet := rfl
@[simp] theorem State.setChop_sns (n : Nat) (x : ChopSt) : (s.setChop n x).sns = s.sns := rfl
@[simp] theorem State.setChop_ports (n : Nat) (x : ChopSt) : (s.setChop n x).ports = s.ports := rfl
@[simp] theorem State.setChop_emus (n : Nat) (x : ChopSt) : (s.setChop n x).emus = s.emus := rfl
@[simp] theorem State.setChop_kyn (n : Nat) (x : ChopSt) : (s.setChop n x).kyn = s.kyn := rfl
@[simp] theorem State.setChop_cells (n : Nat) (x : ChopSt) : (s.setChop n x).cells = s.cells := rfl
@[simp] theorem State.setChop_arms (n : Nat) (x : ChopSt) : (s.setChop n x).arms = s.arms := rfl
@[simp] theorem State.setChop_axes (n : Nat) (x : ChopSt) : (s.setChop n x).axes = s.axes := rfl
@[simp] theorem State.setChop_cams (n : Nat) (x : ChopSt) : (s.setChop n x).cams = s.cams := rfl
@[simp] theorem State.setChop_line (n : Nat) (x : ChopSt) : (s.setChop n x).line = s.line := rfl
@[simp] theorem State.setChop_cans (n : Nat) (x : ChopSt) : (s.setChop n x).cans = s.cans := rfl
@[simp] theorem State.setChop_saf (n : Nat) (x : ChopSt) : (s.setChop n x).saf = s.saf := rfl

/-! ### setCore -/

@[simp] theorem State.setCore_pending (n : Nat) (x : LaneSt) : (s.setCore n x).pending = s.pending := rfl
@[simp] theorem State.setCore_freeCtr (n : Nat) (x : LaneSt) : (s.setCore n x).freeCtr = s.freeCtr := rfl
@[simp] theorem State.setCore_part (n : Nat) (x : LaneSt) : (s.setCore n x).part = s.part := rfl
@[simp] theorem State.setCore_regs (n : Nat) (x : LaneSt) : (s.setCore n x).regs = s.regs := rfl
@[simp] theorem State.setCore_inForce (n : Nat) (x : LaneSt) : (s.setCore n x).inForce = s.inForce := rfl
@[simp] theorem State.setCore_shadow (n : Nat) (x : LaneSt) : (s.setCore n x).shadow = s.shadow := rfl
@[simp] theorem State.setCore_elig (n : Nat) (x : LaneSt) : (s.setCore n x).elig = s.elig := rfl
@[simp] theorem State.setCore_held (n : Nat) (x : LaneSt) : (s.setCore n x).held = s.held := rfl
@[simp] theorem State.setCore_mem (n : Nat) (x : LaneSt) : (s.setCore n x).mem = s.mem := rfl
@[simp] theorem State.setCore_tm (n : Nat) (x : LaneSt) : (s.setCore n x).tm = s.tm := rfl
@[simp] theorem State.setCore_host (n : Nat) (x : LaneSt) : (s.setCore n x).host = s.host := rfl
@[simp] theorem State.setCore_sec (n : Nat) (x : LaneSt) : (s.setCore n x).sec = s.sec := rfl
@[simp] theorem State.setCore_pwr (n : Nat) (x : LaneSt) : (s.setCore n x).pwr = s.pwr := rfl
@[simp] theorem State.setCore_units (n : Nat) (x : LaneSt) : (s.setCore n x).units = s.units := rfl
@[simp] theorem State.setCore_mds (n : Nat) (x : LaneSt) : (s.setCore n x).mds = s.mds := rfl
@[simp] theorem State.setCore_legs (n : Nat) (x : LaneSt) : (s.setCore n x).legs = s.legs := rfl
@[simp] theorem State.setCore_prot (n : Nat) (x : LaneSt) : (s.setCore n x).prot = s.prot := rfl
@[simp] theorem State.setCore_gateNet (n : Nat) (x : LaneSt) : (s.setCore n x).gateNet = s.gateNet := rfl
@[simp] theorem State.setCore_sns (n : Nat) (x : LaneSt) : (s.setCore n x).sns = s.sns := rfl
@[simp] theorem State.setCore_ports (n : Nat) (x : LaneSt) : (s.setCore n x).ports = s.ports := rfl
@[simp] theorem State.setCore_emus (n : Nat) (x : LaneSt) : (s.setCore n x).emus = s.emus := rfl
@[simp] theorem State.setCore_kyn (n : Nat) (x : LaneSt) : (s.setCore n x).kyn = s.kyn := rfl
@[simp] theorem State.setCore_cells (n : Nat) (x : LaneSt) : (s.setCore n x).cells = s.cells := rfl
@[simp] theorem State.setCore_arms (n : Nat) (x : LaneSt) : (s.setCore n x).arms = s.arms := rfl
@[simp] theorem State.setCore_axes (n : Nat) (x : LaneSt) : (s.setCore n x).axes = s.axes := rfl
@[simp] theorem State.setCore_cams (n : Nat) (x : LaneSt) : (s.setCore n x).cams = s.cams := rfl
@[simp] theorem State.setCore_line (n : Nat) (x : LaneSt) : (s.setCore n x).line = s.line := rfl
@[simp] theorem State.setCore_cans (n : Nat) (x : LaneSt) : (s.setCore n x).cans = s.cans := rfl
@[simp] theorem State.setCore_saf (n : Nat) (x : LaneSt) : (s.setCore n x).saf = s.saf := rfl

/-! ### setCtx -/

@[simp] theorem State.setCtx_pending (n : Nat) (x : CtxSt) : (s.setCtx n x).pending = s.pending := rfl
@[simp] theorem State.setCtx_freeCtr (n : Nat) (x : CtxSt) : (s.setCtx n x).freeCtr = s.freeCtr := rfl
@[simp] theorem State.setCtx_part (n : Nat) (x : CtxSt) : (s.setCtx n x).part = s.part := rfl
@[simp] theorem State.setCtx_regs (n : Nat) (x : CtxSt) : (s.setCtx n x).regs = s.regs := rfl
@[simp] theorem State.setCtx_inForce (n : Nat) (x : CtxSt) : (s.setCtx n x).inForce = s.inForce := rfl
@[simp] theorem State.setCtx_shadow (n : Nat) (x : CtxSt) : (s.setCtx n x).shadow = s.shadow := rfl
@[simp] theorem State.setCtx_elig (n : Nat) (x : CtxSt) : (s.setCtx n x).elig = s.elig := rfl
@[simp] theorem State.setCtx_held (n : Nat) (x : CtxSt) : (s.setCtx n x).held = s.held := rfl
@[simp] theorem State.setCtx_mem (n : Nat) (x : CtxSt) : (s.setCtx n x).mem = s.mem := rfl
@[simp] theorem State.setCtx_tm (n : Nat) (x : CtxSt) : (s.setCtx n x).tm = s.tm := rfl
@[simp] theorem State.setCtx_host (n : Nat) (x : CtxSt) : (s.setCtx n x).host = s.host := rfl
@[simp] theorem State.setCtx_sec (n : Nat) (x : CtxSt) : (s.setCtx n x).sec = s.sec := rfl
@[simp] theorem State.setCtx_pwr (n : Nat) (x : CtxSt) : (s.setCtx n x).pwr = s.pwr := rfl
@[simp] theorem State.setCtx_units (n : Nat) (x : CtxSt) : (s.setCtx n x).units = s.units := rfl
@[simp] theorem State.setCtx_mds (n : Nat) (x : CtxSt) : (s.setCtx n x).mds = s.mds := rfl
@[simp] theorem State.setCtx_legs (n : Nat) (x : CtxSt) : (s.setCtx n x).legs = s.legs := rfl
@[simp] theorem State.setCtx_prot (n : Nat) (x : CtxSt) : (s.setCtx n x).prot = s.prot := rfl
@[simp] theorem State.setCtx_gateNet (n : Nat) (x : CtxSt) : (s.setCtx n x).gateNet = s.gateNet := rfl
@[simp] theorem State.setCtx_sns (n : Nat) (x : CtxSt) : (s.setCtx n x).sns = s.sns := rfl
@[simp] theorem State.setCtx_ports (n : Nat) (x : CtxSt) : (s.setCtx n x).ports = s.ports := rfl
@[simp] theorem State.setCtx_emus (n : Nat) (x : CtxSt) : (s.setCtx n x).emus = s.emus := rfl
@[simp] theorem State.setCtx_kyn (n : Nat) (x : CtxSt) : (s.setCtx n x).kyn = s.kyn := rfl
@[simp] theorem State.setCtx_cells (n : Nat) (x : CtxSt) : (s.setCtx n x).cells = s.cells := rfl
@[simp] theorem State.setCtx_arms (n : Nat) (x : CtxSt) : (s.setCtx n x).arms = s.arms := rfl
@[simp] theorem State.setCtx_axes (n : Nat) (x : CtxSt) : (s.setCtx n x).axes = s.axes := rfl
@[simp] theorem State.setCtx_cams (n : Nat) (x : CtxSt) : (s.setCtx n x).cams = s.cams := rfl
@[simp] theorem State.setCtx_line (n : Nat) (x : CtxSt) : (s.setCtx n x).line = s.line := rfl
@[simp] theorem State.setCtx_cans (n : Nat) (x : CtxSt) : (s.setCtx n x).cans = s.cans := rfl
@[simp] theorem State.setCtx_saf (n : Nat) (x : CtxSt) : (s.setCtx n x).saf = s.saf := rfl

/-! ### setSd -/

@[simp] theorem State.setSd_pending (n : Nat) (x : SdSt) : (s.setSd n x).pending = s.pending := rfl
@[simp] theorem State.setSd_freeCtr (n : Nat) (x : SdSt) : (s.setSd n x).freeCtr = s.freeCtr := rfl
@[simp] theorem State.setSd_part (n : Nat) (x : SdSt) : (s.setSd n x).part = s.part := rfl
@[simp] theorem State.setSd_regs (n : Nat) (x : SdSt) : (s.setSd n x).regs = s.regs := rfl
@[simp] theorem State.setSd_inForce (n : Nat) (x : SdSt) : (s.setSd n x).inForce = s.inForce := rfl
@[simp] theorem State.setSd_shadow (n : Nat) (x : SdSt) : (s.setSd n x).shadow = s.shadow := rfl
@[simp] theorem State.setSd_elig (n : Nat) (x : SdSt) : (s.setSd n x).elig = s.elig := rfl
@[simp] theorem State.setSd_held (n : Nat) (x : SdSt) : (s.setSd n x).held = s.held := rfl
@[simp] theorem State.setSd_mem (n : Nat) (x : SdSt) : (s.setSd n x).mem = s.mem := rfl
@[simp] theorem State.setSd_tm (n : Nat) (x : SdSt) : (s.setSd n x).tm = s.tm := rfl
@[simp] theorem State.setSd_eng (n : Nat) (x : SdSt) : (s.setSd n x).eng = s.eng := rfl
@[simp] theorem State.setSd_host (n : Nat) (x : SdSt) : (s.setSd n x).host = s.host := rfl
@[simp] theorem State.setSd_sec (n : Nat) (x : SdSt) : (s.setSd n x).sec = s.sec := rfl
@[simp] theorem State.setSd_pwr (n : Nat) (x : SdSt) : (s.setSd n x).pwr = s.pwr := rfl
@[simp] theorem State.setSd_units (n : Nat) (x : SdSt) : (s.setSd n x).units = s.units := rfl
@[simp] theorem State.setSd_mds (n : Nat) (x : SdSt) : (s.setSd n x).mds = s.mds := rfl
@[simp] theorem State.setSd_legs (n : Nat) (x : SdSt) : (s.setSd n x).legs = s.legs := rfl
@[simp] theorem State.setSd_prot (n : Nat) (x : SdSt) : (s.setSd n x).prot = s.prot := rfl
@[simp] theorem State.setSd_gateNet (n : Nat) (x : SdSt) : (s.setSd n x).gateNet = s.gateNet := rfl
@[simp] theorem State.setSd_ports (n : Nat) (x : SdSt) : (s.setSd n x).ports = s.ports := rfl
@[simp] theorem State.setSd_emus (n : Nat) (x : SdSt) : (s.setSd n x).emus = s.emus := rfl
@[simp] theorem State.setSd_kyn (n : Nat) (x : SdSt) : (s.setSd n x).kyn = s.kyn := rfl
@[simp] theorem State.setSd_cells (n : Nat) (x : SdSt) : (s.setSd n x).cells = s.cells := rfl
@[simp] theorem State.setSd_arms (n : Nat) (x : SdSt) : (s.setSd n x).arms = s.arms := rfl
@[simp] theorem State.setSd_axes (n : Nat) (x : SdSt) : (s.setSd n x).axes = s.axes := rfl
@[simp] theorem State.setSd_cams (n : Nat) (x : SdSt) : (s.setSd n x).cams = s.cams := rfl
@[simp] theorem State.setSd_line (n : Nat) (x : SdSt) : (s.setSd n x).line = s.line := rfl
@[simp] theorem State.setSd_cans (n : Nat) (x : SdSt) : (s.setSd n x).cans = s.cans := rfl
@[simp] theorem State.setSd_saf (n : Nat) (x : SdSt) : (s.setSd n x).saf = s.saf := rfl

/-! ### setPort -/

@[simp] theorem State.setPort_pending (n : Nat) (x : PortSt) : (s.setPort n x).pending = s.pending := rfl
@[simp] theorem State.setPort_freeCtr (n : Nat) (x : PortSt) : (s.setPort n x).freeCtr = s.freeCtr := rfl
@[simp] theorem State.setPort_part (n : Nat) (x : PortSt) : (s.setPort n x).part = s.part := rfl
@[simp] theorem State.setPort_regs (n : Nat) (x : PortSt) : (s.setPort n x).regs = s.regs := rfl
@[simp] theorem State.setPort_inForce (n : Nat) (x : PortSt) : (s.setPort n x).inForce = s.inForce := rfl
@[simp] theorem State.setPort_shadow (n : Nat) (x : PortSt) : (s.setPort n x).shadow = s.shadow := rfl
@[simp] theorem State.setPort_elig (n : Nat) (x : PortSt) : (s.setPort n x).elig = s.elig := rfl
@[simp] theorem State.setPort_held (n : Nat) (x : PortSt) : (s.setPort n x).held = s.held := rfl
@[simp] theorem State.setPort_mem (n : Nat) (x : PortSt) : (s.setPort n x).mem = s.mem := rfl
@[simp] theorem State.setPort_tm (n : Nat) (x : PortSt) : (s.setPort n x).tm = s.tm := rfl
@[simp] theorem State.setPort_eng (n : Nat) (x : PortSt) : (s.setPort n x).eng = s.eng := rfl
@[simp] theorem State.setPort_host (n : Nat) (x : PortSt) : (s.setPort n x).host = s.host := rfl
@[simp] theorem State.setPort_sec (n : Nat) (x : PortSt) : (s.setPort n x).sec = s.sec := rfl
@[simp] theorem State.setPort_pwr (n : Nat) (x : PortSt) : (s.setPort n x).pwr = s.pwr := rfl
@[simp] theorem State.setPort_units (n : Nat) (x : PortSt) : (s.setPort n x).units = s.units := rfl
@[simp] theorem State.setPort_mds (n : Nat) (x : PortSt) : (s.setPort n x).mds = s.mds := rfl
@[simp] theorem State.setPort_legs (n : Nat) (x : PortSt) : (s.setPort n x).legs = s.legs := rfl
@[simp] theorem State.setPort_prot (n : Nat) (x : PortSt) : (s.setPort n x).prot = s.prot := rfl
@[simp] theorem State.setPort_gateNet (n : Nat) (x : PortSt) : (s.setPort n x).gateNet = s.gateNet := rfl
@[simp] theorem State.setPort_sns (n : Nat) (x : PortSt) : (s.setPort n x).sns = s.sns := rfl
@[simp] theorem State.setPort_emus (n : Nat) (x : PortSt) : (s.setPort n x).emus = s.emus := rfl
@[simp] theorem State.setPort_kyn (n : Nat) (x : PortSt) : (s.setPort n x).kyn = s.kyn := rfl
@[simp] theorem State.setPort_cells (n : Nat) (x : PortSt) : (s.setPort n x).cells = s.cells := rfl
@[simp] theorem State.setPort_arms (n : Nat) (x : PortSt) : (s.setPort n x).arms = s.arms := rfl
@[simp] theorem State.setPort_axes (n : Nat) (x : PortSt) : (s.setPort n x).axes = s.axes := rfl
@[simp] theorem State.setPort_cams (n : Nat) (x : PortSt) : (s.setPort n x).cams = s.cams := rfl
@[simp] theorem State.setPort_line (n : Nat) (x : PortSt) : (s.setPort n x).line = s.line := rfl
@[simp] theorem State.setPort_cans (n : Nat) (x : PortSt) : (s.setPort n x).cans = s.cans := rfl
@[simp] theorem State.setPort_saf (n : Nat) (x : PortSt) : (s.setPort n x).saf = s.saf := rfl

/-! ### setEmu -/

@[simp] theorem State.setEmu_pending (n : Nat) (x : EmuSt) : (s.setEmu n x).pending = s.pending := rfl
@[simp] theorem State.setEmu_freeCtr (n : Nat) (x : EmuSt) : (s.setEmu n x).freeCtr = s.freeCtr := rfl
@[simp] theorem State.setEmu_part (n : Nat) (x : EmuSt) : (s.setEmu n x).part = s.part := rfl
@[simp] theorem State.setEmu_regs (n : Nat) (x : EmuSt) : (s.setEmu n x).regs = s.regs := rfl
@[simp] theorem State.setEmu_inForce (n : Nat) (x : EmuSt) : (s.setEmu n x).inForce = s.inForce := rfl
@[simp] theorem State.setEmu_shadow (n : Nat) (x : EmuSt) : (s.setEmu n x).shadow = s.shadow := rfl
@[simp] theorem State.setEmu_elig (n : Nat) (x : EmuSt) : (s.setEmu n x).elig = s.elig := rfl
@[simp] theorem State.setEmu_held (n : Nat) (x : EmuSt) : (s.setEmu n x).held = s.held := rfl
@[simp] theorem State.setEmu_mem (n : Nat) (x : EmuSt) : (s.setEmu n x).mem = s.mem := rfl
@[simp] theorem State.setEmu_tm (n : Nat) (x : EmuSt) : (s.setEmu n x).tm = s.tm := rfl
@[simp] theorem State.setEmu_eng (n : Nat) (x : EmuSt) : (s.setEmu n x).eng = s.eng := rfl
@[simp] theorem State.setEmu_host (n : Nat) (x : EmuSt) : (s.setEmu n x).host = s.host := rfl
@[simp] theorem State.setEmu_sec (n : Nat) (x : EmuSt) : (s.setEmu n x).sec = s.sec := rfl
@[simp] theorem State.setEmu_pwr (n : Nat) (x : EmuSt) : (s.setEmu n x).pwr = s.pwr := rfl
@[simp] theorem State.setEmu_units (n : Nat) (x : EmuSt) : (s.setEmu n x).units = s.units := rfl
@[simp] theorem State.setEmu_mds (n : Nat) (x : EmuSt) : (s.setEmu n x).mds = s.mds := rfl
@[simp] theorem State.setEmu_legs (n : Nat) (x : EmuSt) : (s.setEmu n x).legs = s.legs := rfl
@[simp] theorem State.setEmu_prot (n : Nat) (x : EmuSt) : (s.setEmu n x).prot = s.prot := rfl
@[simp] theorem State.setEmu_gateNet (n : Nat) (x : EmuSt) : (s.setEmu n x).gateNet = s.gateNet := rfl
@[simp] theorem State.setEmu_sns (n : Nat) (x : EmuSt) : (s.setEmu n x).sns = s.sns := rfl
@[simp] theorem State.setEmu_ports (n : Nat) (x : EmuSt) : (s.setEmu n x).ports = s.ports := rfl
@[simp] theorem State.setEmu_kyn (n : Nat) (x : EmuSt) : (s.setEmu n x).kyn = s.kyn := rfl
@[simp] theorem State.setEmu_cells (n : Nat) (x : EmuSt) : (s.setEmu n x).cells = s.cells := rfl
@[simp] theorem State.setEmu_arms (n : Nat) (x : EmuSt) : (s.setEmu n x).arms = s.arms := rfl
@[simp] theorem State.setEmu_axes (n : Nat) (x : EmuSt) : (s.setEmu n x).axes = s.axes := rfl
@[simp] theorem State.setEmu_cams (n : Nat) (x : EmuSt) : (s.setEmu n x).cams = s.cams := rfl
@[simp] theorem State.setEmu_line (n : Nat) (x : EmuSt) : (s.setEmu n x).line = s.line := rfl
@[simp] theorem State.setEmu_cans (n : Nat) (x : EmuSt) : (s.setEmu n x).cans = s.cans := rfl
@[simp] theorem State.setEmu_saf (n : Nat) (x : EmuSt) : (s.setEmu n x).saf = s.saf := rfl

/-! ### setLane -/

@[simp] theorem State.setLane_pending (n : Nat) (x : KynSt) : (s.setLane n x).pending = s.pending := rfl
@[simp] theorem State.setLane_freeCtr (n : Nat) (x : KynSt) : (s.setLane n x).freeCtr = s.freeCtr := rfl
@[simp] theorem State.setLane_part (n : Nat) (x : KynSt) : (s.setLane n x).part = s.part := rfl
@[simp] theorem State.setLane_regs (n : Nat) (x : KynSt) : (s.setLane n x).regs = s.regs := rfl
@[simp] theorem State.setLane_inForce (n : Nat) (x : KynSt) : (s.setLane n x).inForce = s.inForce := rfl
@[simp] theorem State.setLane_shadow (n : Nat) (x : KynSt) : (s.setLane n x).shadow = s.shadow := rfl
@[simp] theorem State.setLane_elig (n : Nat) (x : KynSt) : (s.setLane n x).elig = s.elig := rfl
@[simp] theorem State.setLane_held (n : Nat) (x : KynSt) : (s.setLane n x).held = s.held := rfl
@[simp] theorem State.setLane_mem (n : Nat) (x : KynSt) : (s.setLane n x).mem = s.mem := rfl
@[simp] theorem State.setLane_tm (n : Nat) (x : KynSt) : (s.setLane n x).tm = s.tm := rfl
@[simp] theorem State.setLane_eng (n : Nat) (x : KynSt) : (s.setLane n x).eng = s.eng := rfl
@[simp] theorem State.setLane_host (n : Nat) (x : KynSt) : (s.setLane n x).host = s.host := rfl
@[simp] theorem State.setLane_sec (n : Nat) (x : KynSt) : (s.setLane n x).sec = s.sec := rfl
@[simp] theorem State.setLane_pwr (n : Nat) (x : KynSt) : (s.setLane n x).pwr = s.pwr := rfl
@[simp] theorem State.setLane_units (n : Nat) (x : KynSt) : (s.setLane n x).units = s.units := rfl
@[simp] theorem State.setLane_mds (n : Nat) (x : KynSt) : (s.setLane n x).mds = s.mds := rfl
@[simp] theorem State.setLane_legs (n : Nat) (x : KynSt) : (s.setLane n x).legs = s.legs := rfl
@[simp] theorem State.setLane_prot (n : Nat) (x : KynSt) : (s.setLane n x).prot = s.prot := rfl
@[simp] theorem State.setLane_gateNet (n : Nat) (x : KynSt) : (s.setLane n x).gateNet = s.gateNet := rfl
@[simp] theorem State.setLane_sns (n : Nat) (x : KynSt) : (s.setLane n x).sns = s.sns := rfl
@[simp] theorem State.setLane_ports (n : Nat) (x : KynSt) : (s.setLane n x).ports = s.ports := rfl
@[simp] theorem State.setLane_emus (n : Nat) (x : KynSt) : (s.setLane n x).emus = s.emus := rfl
@[simp] theorem State.setLane_cells (n : Nat) (x : KynSt) : (s.setLane n x).cells = s.cells := rfl
@[simp] theorem State.setLane_arms (n : Nat) (x : KynSt) : (s.setLane n x).arms = s.arms := rfl
@[simp] theorem State.setLane_axes (n : Nat) (x : KynSt) : (s.setLane n x).axes = s.axes := rfl
@[simp] theorem State.setLane_cams (n : Nat) (x : KynSt) : (s.setLane n x).cams = s.cams := rfl
@[simp] theorem State.setLane_line (n : Nat) (x : KynSt) : (s.setLane n x).line = s.line := rfl
@[simp] theorem State.setLane_cans (n : Nat) (x : KynSt) : (s.setLane n x).cans = s.cans := rfl
@[simp] theorem State.setLane_saf (n : Nat) (x : KynSt) : (s.setLane n x).saf = s.saf := rfl

/-! ### setCell -/

@[simp] theorem State.setCell_pending (n : Nat) (x : CellSt) : (s.setCell n x).pending = s.pending := rfl
@[simp] theorem State.setCell_freeCtr (n : Nat) (x : CellSt) : (s.setCell n x).freeCtr = s.freeCtr := rfl
@[simp] theorem State.setCell_part (n : Nat) (x : CellSt) : (s.setCell n x).part = s.part := rfl
@[simp] theorem State.setCell_regs (n : Nat) (x : CellSt) : (s.setCell n x).regs = s.regs := rfl
@[simp] theorem State.setCell_inForce (n : Nat) (x : CellSt) : (s.setCell n x).inForce = s.inForce := rfl
@[simp] theorem State.setCell_shadow (n : Nat) (x : CellSt) : (s.setCell n x).shadow = s.shadow := rfl
@[simp] theorem State.setCell_elig (n : Nat) (x : CellSt) : (s.setCell n x).elig = s.elig := rfl
@[simp] theorem State.setCell_held (n : Nat) (x : CellSt) : (s.setCell n x).held = s.held := rfl
@[simp] theorem State.setCell_mem (n : Nat) (x : CellSt) : (s.setCell n x).mem = s.mem := rfl
@[simp] theorem State.setCell_tm (n : Nat) (x : CellSt) : (s.setCell n x).tm = s.tm := rfl
@[simp] theorem State.setCell_eng (n : Nat) (x : CellSt) : (s.setCell n x).eng = s.eng := rfl
@[simp] theorem State.setCell_host (n : Nat) (x : CellSt) : (s.setCell n x).host = s.host := rfl
@[simp] theorem State.setCell_sec (n : Nat) (x : CellSt) : (s.setCell n x).sec = s.sec := rfl
@[simp] theorem State.setCell_pwr (n : Nat) (x : CellSt) : (s.setCell n x).pwr = s.pwr := rfl
@[simp] theorem State.setCell_units (n : Nat) (x : CellSt) : (s.setCell n x).units = s.units := rfl
@[simp] theorem State.setCell_mds (n : Nat) (x : CellSt) : (s.setCell n x).mds = s.mds := rfl
@[simp] theorem State.setCell_legs (n : Nat) (x : CellSt) : (s.setCell n x).legs = s.legs := rfl
@[simp] theorem State.setCell_prot (n : Nat) (x : CellSt) : (s.setCell n x).prot = s.prot := rfl
@[simp] theorem State.setCell_gateNet (n : Nat) (x : CellSt) : (s.setCell n x).gateNet = s.gateNet := rfl
@[simp] theorem State.setCell_sns (n : Nat) (x : CellSt) : (s.setCell n x).sns = s.sns := rfl
@[simp] theorem State.setCell_ports (n : Nat) (x : CellSt) : (s.setCell n x).ports = s.ports := rfl
@[simp] theorem State.setCell_emus (n : Nat) (x : CellSt) : (s.setCell n x).emus = s.emus := rfl
@[simp] theorem State.setCell_kyn (n : Nat) (x : CellSt) : (s.setCell n x).kyn = s.kyn := rfl
@[simp] theorem State.setCell_arms (n : Nat) (x : CellSt) : (s.setCell n x).arms = s.arms := rfl
@[simp] theorem State.setCell_axes (n : Nat) (x : CellSt) : (s.setCell n x).axes = s.axes := rfl
@[simp] theorem State.setCell_cams (n : Nat) (x : CellSt) : (s.setCell n x).cams = s.cams := rfl
@[simp] theorem State.setCell_line (n : Nat) (x : CellSt) : (s.setCell n x).line = s.line := rfl
@[simp] theorem State.setCell_cans (n : Nat) (x : CellSt) : (s.setCell n x).cans = s.cans := rfl
@[simp] theorem State.setCell_saf (n : Nat) (x : CellSt) : (s.setCell n x).saf = s.saf := rfl

/-! ### setArm -/

@[simp] theorem State.setArm_pending (n : Nat) (x : ArmSt) : (s.setArm n x).pending = s.pending := rfl
@[simp] theorem State.setArm_freeCtr (n : Nat) (x : ArmSt) : (s.setArm n x).freeCtr = s.freeCtr := rfl
@[simp] theorem State.setArm_part (n : Nat) (x : ArmSt) : (s.setArm n x).part = s.part := rfl
@[simp] theorem State.setArm_regs (n : Nat) (x : ArmSt) : (s.setArm n x).regs = s.regs := rfl
@[simp] theorem State.setArm_inForce (n : Nat) (x : ArmSt) : (s.setArm n x).inForce = s.inForce := rfl
@[simp] theorem State.setArm_shadow (n : Nat) (x : ArmSt) : (s.setArm n x).shadow = s.shadow := rfl
@[simp] theorem State.setArm_elig (n : Nat) (x : ArmSt) : (s.setArm n x).elig = s.elig := rfl
@[simp] theorem State.setArm_held (n : Nat) (x : ArmSt) : (s.setArm n x).held = s.held := rfl
@[simp] theorem State.setArm_mem (n : Nat) (x : ArmSt) : (s.setArm n x).mem = s.mem := rfl
@[simp] theorem State.setArm_tm (n : Nat) (x : ArmSt) : (s.setArm n x).tm = s.tm := rfl
@[simp] theorem State.setArm_eng (n : Nat) (x : ArmSt) : (s.setArm n x).eng = s.eng := rfl
@[simp] theorem State.setArm_host (n : Nat) (x : ArmSt) : (s.setArm n x).host = s.host := rfl
@[simp] theorem State.setArm_sec (n : Nat) (x : ArmSt) : (s.setArm n x).sec = s.sec := rfl
@[simp] theorem State.setArm_pwr (n : Nat) (x : ArmSt) : (s.setArm n x).pwr = s.pwr := rfl
@[simp] theorem State.setArm_units (n : Nat) (x : ArmSt) : (s.setArm n x).units = s.units := rfl
@[simp] theorem State.setArm_mds (n : Nat) (x : ArmSt) : (s.setArm n x).mds = s.mds := rfl
@[simp] theorem State.setArm_legs (n : Nat) (x : ArmSt) : (s.setArm n x).legs = s.legs := rfl
@[simp] theorem State.setArm_prot (n : Nat) (x : ArmSt) : (s.setArm n x).prot = s.prot := rfl
@[simp] theorem State.setArm_gateNet (n : Nat) (x : ArmSt) : (s.setArm n x).gateNet = s.gateNet := rfl
@[simp] theorem State.setArm_sns (n : Nat) (x : ArmSt) : (s.setArm n x).sns = s.sns := rfl
@[simp] theorem State.setArm_ports (n : Nat) (x : ArmSt) : (s.setArm n x).ports = s.ports := rfl
@[simp] theorem State.setArm_emus (n : Nat) (x : ArmSt) : (s.setArm n x).emus = s.emus := rfl
@[simp] theorem State.setArm_kyn (n : Nat) (x : ArmSt) : (s.setArm n x).kyn = s.kyn := rfl
@[simp] theorem State.setArm_cells (n : Nat) (x : ArmSt) : (s.setArm n x).cells = s.cells := rfl
@[simp] theorem State.setArm_axes (n : Nat) (x : ArmSt) : (s.setArm n x).axes = s.axes := rfl
@[simp] theorem State.setArm_cams (n : Nat) (x : ArmSt) : (s.setArm n x).cams = s.cams := rfl
@[simp] theorem State.setArm_line (n : Nat) (x : ArmSt) : (s.setArm n x).line = s.line := rfl
@[simp] theorem State.setArm_cans (n : Nat) (x : ArmSt) : (s.setArm n x).cans = s.cans := rfl
@[simp] theorem State.setArm_saf (n : Nat) (x : ArmSt) : (s.setArm n x).saf = s.saf := rfl

/-! ### setAxis -/

@[simp] theorem State.setAxis_pending (n : Nat) (x : AxisSt) : (s.setAxis n x).pending = s.pending := rfl
@[simp] theorem State.setAxis_freeCtr (n : Nat) (x : AxisSt) : (s.setAxis n x).freeCtr = s.freeCtr := rfl
@[simp] theorem State.setAxis_part (n : Nat) (x : AxisSt) : (s.setAxis n x).part = s.part := rfl
@[simp] theorem State.setAxis_regs (n : Nat) (x : AxisSt) : (s.setAxis n x).regs = s.regs := rfl
@[simp] theorem State.setAxis_inForce (n : Nat) (x : AxisSt) : (s.setAxis n x).inForce = s.inForce := rfl
@[simp] theorem State.setAxis_shadow (n : Nat) (x : AxisSt) : (s.setAxis n x).shadow = s.shadow := rfl
@[simp] theorem State.setAxis_elig (n : Nat) (x : AxisSt) : (s.setAxis n x).elig = s.elig := rfl
@[simp] theorem State.setAxis_held (n : Nat) (x : AxisSt) : (s.setAxis n x).held = s.held := rfl
@[simp] theorem State.setAxis_mem (n : Nat) (x : AxisSt) : (s.setAxis n x).mem = s.mem := rfl
@[simp] theorem State.setAxis_tm (n : Nat) (x : AxisSt) : (s.setAxis n x).tm = s.tm := rfl
@[simp] theorem State.setAxis_eng (n : Nat) (x : AxisSt) : (s.setAxis n x).eng = s.eng := rfl
@[simp] theorem State.setAxis_host (n : Nat) (x : AxisSt) : (s.setAxis n x).host = s.host := rfl
@[simp] theorem State.setAxis_sec (n : Nat) (x : AxisSt) : (s.setAxis n x).sec = s.sec := rfl
@[simp] theorem State.setAxis_pwr (n : Nat) (x : AxisSt) : (s.setAxis n x).pwr = s.pwr := rfl
@[simp] theorem State.setAxis_units (n : Nat) (x : AxisSt) : (s.setAxis n x).units = s.units := rfl
@[simp] theorem State.setAxis_mds (n : Nat) (x : AxisSt) : (s.setAxis n x).mds = s.mds := rfl
@[simp] theorem State.setAxis_legs (n : Nat) (x : AxisSt) : (s.setAxis n x).legs = s.legs := rfl
@[simp] theorem State.setAxis_prot (n : Nat) (x : AxisSt) : (s.setAxis n x).prot = s.prot := rfl
@[simp] theorem State.setAxis_gateNet (n : Nat) (x : AxisSt) : (s.setAxis n x).gateNet = s.gateNet := rfl
@[simp] theorem State.setAxis_sns (n : Nat) (x : AxisSt) : (s.setAxis n x).sns = s.sns := rfl
@[simp] theorem State.setAxis_ports (n : Nat) (x : AxisSt) : (s.setAxis n x).ports = s.ports := rfl
@[simp] theorem State.setAxis_emus (n : Nat) (x : AxisSt) : (s.setAxis n x).emus = s.emus := rfl
@[simp] theorem State.setAxis_kyn (n : Nat) (x : AxisSt) : (s.setAxis n x).kyn = s.kyn := rfl
@[simp] theorem State.setAxis_cells (n : Nat) (x : AxisSt) : (s.setAxis n x).cells = s.cells := rfl
@[simp] theorem State.setAxis_arms (n : Nat) (x : AxisSt) : (s.setAxis n x).arms = s.arms := rfl
@[simp] theorem State.setAxis_cams (n : Nat) (x : AxisSt) : (s.setAxis n x).cams = s.cams := rfl
@[simp] theorem State.setAxis_line (n : Nat) (x : AxisSt) : (s.setAxis n x).line = s.line := rfl
@[simp] theorem State.setAxis_cans (n : Nat) (x : AxisSt) : (s.setAxis n x).cans = s.cans := rfl
@[simp] theorem State.setAxis_saf (n : Nat) (x : AxisSt) : (s.setAxis n x).saf = s.saf := rfl

/-! ### setLine -/

@[simp] theorem State.setLine_pending (x : LineSt) : (s.setLine x).pending = s.pending := rfl
@[simp] theorem State.setLine_freeCtr (x : LineSt) : (s.setLine x).freeCtr = s.freeCtr := rfl
@[simp] theorem State.setLine_part (x : LineSt) : (s.setLine x).part = s.part := rfl
@[simp] theorem State.setLine_regs (x : LineSt) : (s.setLine x).regs = s.regs := rfl
@[simp] theorem State.setLine_inForce (x : LineSt) : (s.setLine x).inForce = s.inForce := rfl
@[simp] theorem State.setLine_shadow (x : LineSt) : (s.setLine x).shadow = s.shadow := rfl
@[simp] theorem State.setLine_elig (x : LineSt) : (s.setLine x).elig = s.elig := rfl
@[simp] theorem State.setLine_held (x : LineSt) : (s.setLine x).held = s.held := rfl
@[simp] theorem State.setLine_mem (x : LineSt) : (s.setLine x).mem = s.mem := rfl
@[simp] theorem State.setLine_tm (x : LineSt) : (s.setLine x).tm = s.tm := rfl
@[simp] theorem State.setLine_eng (x : LineSt) : (s.setLine x).eng = s.eng := rfl
@[simp] theorem State.setLine_host (x : LineSt) : (s.setLine x).host = s.host := rfl
@[simp] theorem State.setLine_sec (x : LineSt) : (s.setLine x).sec = s.sec := rfl
@[simp] theorem State.setLine_pwr (x : LineSt) : (s.setLine x).pwr = s.pwr := rfl
@[simp] theorem State.setLine_units (x : LineSt) : (s.setLine x).units = s.units := rfl
@[simp] theorem State.setLine_mds (x : LineSt) : (s.setLine x).mds = s.mds := rfl
@[simp] theorem State.setLine_legs (x : LineSt) : (s.setLine x).legs = s.legs := rfl
@[simp] theorem State.setLine_prot (x : LineSt) : (s.setLine x).prot = s.prot := rfl
@[simp] theorem State.setLine_gateNet (x : LineSt) : (s.setLine x).gateNet = s.gateNet := rfl
@[simp] theorem State.setLine_sns (x : LineSt) : (s.setLine x).sns = s.sns := rfl
@[simp] theorem State.setLine_ports (x : LineSt) : (s.setLine x).ports = s.ports := rfl
@[simp] theorem State.setLine_emus (x : LineSt) : (s.setLine x).emus = s.emus := rfl
@[simp] theorem State.setLine_kyn (x : LineSt) : (s.setLine x).kyn = s.kyn := rfl
@[simp] theorem State.setLine_cells (x : LineSt) : (s.setLine x).cells = s.cells := rfl
@[simp] theorem State.setLine_arms (x : LineSt) : (s.setLine x).arms = s.arms := rfl
@[simp] theorem State.setLine_axes (x : LineSt) : (s.setLine x).axes = s.axes := rfl
@[simp] theorem State.setLine_cams (x : LineSt) : (s.setLine x).cams = s.cams := rfl
@[simp] theorem State.setLine_cans (x : LineSt) : (s.setLine x).cans = s.cans := rfl
@[simp] theorem State.setLine_saf (x : LineSt) : (s.setLine x).saf = s.saf := rfl

/-! ### setShare -/

@[simp] theorem State.setShare_pending (n : Nat) (x : ShareSt) : (s.setShare n x).pending = s.pending := rfl
@[simp] theorem State.setShare_freeCtr (n : Nat) (x : ShareSt) : (s.setShare n x).freeCtr = s.freeCtr := rfl
@[simp] theorem State.setShare_part (n : Nat) (x : ShareSt) : (s.setShare n x).part = s.part := rfl
@[simp] theorem State.setShare_regs (n : Nat) (x : ShareSt) : (s.setShare n x).regs = s.regs := rfl
@[simp] theorem State.setShare_inForce (n : Nat) (x : ShareSt) : (s.setShare n x).inForce = s.inForce := rfl
@[simp] theorem State.setShare_shadow (n : Nat) (x : ShareSt) : (s.setShare n x).shadow = s.shadow := rfl
@[simp] theorem State.setShare_elig (n : Nat) (x : ShareSt) : (s.setShare n x).elig = s.elig := rfl
@[simp] theorem State.setShare_held (n : Nat) (x : ShareSt) : (s.setShare n x).held = s.held := rfl
@[simp] theorem State.setShare_mem (n : Nat) (x : ShareSt) : (s.setShare n x).mem = s.mem := rfl
@[simp] theorem State.setShare_tm (n : Nat) (x : ShareSt) : (s.setShare n x).tm = s.tm := rfl
@[simp] theorem State.setShare_eng (n : Nat) (x : ShareSt) : (s.setShare n x).eng = s.eng := rfl
@[simp] theorem State.setShare_host (n : Nat) (x : ShareSt) : (s.setShare n x).host = s.host := rfl
@[simp] theorem State.setShare_sec (n : Nat) (x : ShareSt) : (s.setShare n x).sec = s.sec := rfl
@[simp] theorem State.setShare_pwr (n : Nat) (x : ShareSt) : (s.setShare n x).pwr = s.pwr := rfl
@[simp] theorem State.setShare_units (n : Nat) (x : ShareSt) : (s.setShare n x).units = s.units := rfl
@[simp] theorem State.setShare_mds (n : Nat) (x : ShareSt) : (s.setShare n x).mds = s.mds := rfl
@[simp] theorem State.setShare_legs (n : Nat) (x : ShareSt) : (s.setShare n x).legs = s.legs := rfl
@[simp] theorem State.setShare_prot (n : Nat) (x : ShareSt) : (s.setShare n x).prot = s.prot := rfl
@[simp] theorem State.setShare_gateNet (n : Nat) (x : ShareSt) : (s.setShare n x).gateNet = s.gateNet := rfl
@[simp] theorem State.setShare_sns (n : Nat) (x : ShareSt) : (s.setShare n x).sns = s.sns := rfl
@[simp] theorem State.setShare_ports (n : Nat) (x : ShareSt) : (s.setShare n x).ports = s.ports := rfl
@[simp] theorem State.setShare_emus (n : Nat) (x : ShareSt) : (s.setShare n x).emus = s.emus := rfl
@[simp] theorem State.setShare_kyn (n : Nat) (x : ShareSt) : (s.setShare n x).kyn = s.kyn := rfl
@[simp] theorem State.setShare_cells (n : Nat) (x : ShareSt) : (s.setShare n x).cells = s.cells := rfl
@[simp] theorem State.setShare_arms (n : Nat) (x : ShareSt) : (s.setShare n x).arms = s.arms := rfl
@[simp] theorem State.setShare_axes (n : Nat) (x : ShareSt) : (s.setShare n x).axes = s.axes := rfl
@[simp] theorem State.setShare_cams (n : Nat) (x : ShareSt) : (s.setShare n x).cams = s.cams := rfl
@[simp] theorem State.setShare_cans (n : Nat) (x : ShareSt) : (s.setShare n x).cans = s.cans := rfl
@[simp] theorem State.setShare_saf (n : Nat) (x : ShareSt) : (s.setShare n x).saf = s.saf := rfl

/-! ### setCan -/

@[simp] theorem State.setCan_pending (n : Nat) (x : CanSt) : (s.setCan n x).pending = s.pending := rfl
@[simp] theorem State.setCan_freeCtr (n : Nat) (x : CanSt) : (s.setCan n x).freeCtr = s.freeCtr := rfl
@[simp] theorem State.setCan_part (n : Nat) (x : CanSt) : (s.setCan n x).part = s.part := rfl
@[simp] theorem State.setCan_regs (n : Nat) (x : CanSt) : (s.setCan n x).regs = s.regs := rfl
@[simp] theorem State.setCan_inForce (n : Nat) (x : CanSt) : (s.setCan n x).inForce = s.inForce := rfl
@[simp] theorem State.setCan_shadow (n : Nat) (x : CanSt) : (s.setCan n x).shadow = s.shadow := rfl
@[simp] theorem State.setCan_elig (n : Nat) (x : CanSt) : (s.setCan n x).elig = s.elig := rfl
@[simp] theorem State.setCan_held (n : Nat) (x : CanSt) : (s.setCan n x).held = s.held := rfl
@[simp] theorem State.setCan_mem (n : Nat) (x : CanSt) : (s.setCan n x).mem = s.mem := rfl
@[simp] theorem State.setCan_tm (n : Nat) (x : CanSt) : (s.setCan n x).tm = s.tm := rfl
@[simp] theorem State.setCan_eng (n : Nat) (x : CanSt) : (s.setCan n x).eng = s.eng := rfl
@[simp] theorem State.setCan_host (n : Nat) (x : CanSt) : (s.setCan n x).host = s.host := rfl
@[simp] theorem State.setCan_sec (n : Nat) (x : CanSt) : (s.setCan n x).sec = s.sec := rfl
@[simp] theorem State.setCan_pwr (n : Nat) (x : CanSt) : (s.setCan n x).pwr = s.pwr := rfl
@[simp] theorem State.setCan_units (n : Nat) (x : CanSt) : (s.setCan n x).units = s.units := rfl
@[simp] theorem State.setCan_mds (n : Nat) (x : CanSt) : (s.setCan n x).mds = s.mds := rfl
@[simp] theorem State.setCan_legs (n : Nat) (x : CanSt) : (s.setCan n x).legs = s.legs := rfl
@[simp] theorem State.setCan_prot (n : Nat) (x : CanSt) : (s.setCan n x).prot = s.prot := rfl
@[simp] theorem State.setCan_gateNet (n : Nat) (x : CanSt) : (s.setCan n x).gateNet = s.gateNet := rfl
@[simp] theorem State.setCan_sns (n : Nat) (x : CanSt) : (s.setCan n x).sns = s.sns := rfl
@[simp] theorem State.setCan_ports (n : Nat) (x : CanSt) : (s.setCan n x).ports = s.ports := rfl
@[simp] theorem State.setCan_emus (n : Nat) (x : CanSt) : (s.setCan n x).emus = s.emus := rfl
@[simp] theorem State.setCan_kyn (n : Nat) (x : CanSt) : (s.setCan n x).kyn = s.kyn := rfl
@[simp] theorem State.setCan_cells (n : Nat) (x : CanSt) : (s.setCan n x).cells = s.cells := rfl
@[simp] theorem State.setCan_arms (n : Nat) (x : CanSt) : (s.setCan n x).arms = s.arms := rfl
@[simp] theorem State.setCan_axes (n : Nat) (x : CanSt) : (s.setCan n x).axes = s.axes := rfl
@[simp] theorem State.setCan_cams (n : Nat) (x : CanSt) : (s.setCan n x).cams = s.cams := rfl
@[simp] theorem State.setCan_line (n : Nat) (x : CanSt) : (s.setCan n x).line = s.line := rfl
@[simp] theorem State.setCan_saf (n : Nat) (x : CanSt) : (s.setCan n x).saf = s.saf := rfl

/-! ### setSaf -/

@[simp] theorem State.setSaf_pending (x : SafeSt) : (s.setSaf x).pending = s.pending := rfl
@[simp] theorem State.setSaf_freeCtr (x : SafeSt) : (s.setSaf x).freeCtr = s.freeCtr := rfl
@[simp] theorem State.setSaf_part (x : SafeSt) : (s.setSaf x).part = s.part := rfl
@[simp] theorem State.setSaf_regs (x : SafeSt) : (s.setSaf x).regs = s.regs := rfl
@[simp] theorem State.setSaf_inForce (x : SafeSt) : (s.setSaf x).inForce = s.inForce := rfl
@[simp] theorem State.setSaf_shadow (x : SafeSt) : (s.setSaf x).shadow = s.shadow := rfl
@[simp] theorem State.setSaf_elig (x : SafeSt) : (s.setSaf x).elig = s.elig := rfl
@[simp] theorem State.setSaf_held (x : SafeSt) : (s.setSaf x).held = s.held := rfl
@[simp] theorem State.setSaf_mem (x : SafeSt) : (s.setSaf x).mem = s.mem := rfl
@[simp] theorem State.setSaf_tm (x : SafeSt) : (s.setSaf x).tm = s.tm := rfl
@[simp] theorem State.setSaf_eng (x : SafeSt) : (s.setSaf x).eng = s.eng := rfl
@[simp] theorem State.setSaf_host (x : SafeSt) : (s.setSaf x).host = s.host := rfl
@[simp] theorem State.setSaf_sec (x : SafeSt) : (s.setSaf x).sec = s.sec := rfl
@[simp] theorem State.setSaf_pwr (x : SafeSt) : (s.setSaf x).pwr = s.pwr := rfl
@[simp] theorem State.setSaf_units (x : SafeSt) : (s.setSaf x).units = s.units := rfl
@[simp] theorem State.setSaf_mds (x : SafeSt) : (s.setSaf x).mds = s.mds := rfl
@[simp] theorem State.setSaf_legs (x : SafeSt) : (s.setSaf x).legs = s.legs := rfl
@[simp] theorem State.setSaf_prot (x : SafeSt) : (s.setSaf x).prot = s.prot := rfl
@[simp] theorem State.setSaf_gateNet (x : SafeSt) : (s.setSaf x).gateNet = s.gateNet := rfl
@[simp] theorem State.setSaf_sns (x : SafeSt) : (s.setSaf x).sns = s.sns := rfl
@[simp] theorem State.setSaf_ports (x : SafeSt) : (s.setSaf x).ports = s.ports := rfl
@[simp] theorem State.setSaf_emus (x : SafeSt) : (s.setSaf x).emus = s.emus := rfl
@[simp] theorem State.setSaf_kyn (x : SafeSt) : (s.setSaf x).kyn = s.kyn := rfl
@[simp] theorem State.setSaf_cells (x : SafeSt) : (s.setSaf x).cells = s.cells := rfl
@[simp] theorem State.setSaf_arms (x : SafeSt) : (s.setSaf x).arms = s.arms := rfl
@[simp] theorem State.setSaf_axes (x : SafeSt) : (s.setSaf x).axes = s.axes := rfl
@[simp] theorem State.setSaf_cams (x : SafeSt) : (s.setSaf x).cams = s.cams := rfl
@[simp] theorem State.setSaf_line (x : SafeSt) : (s.setSaf x).line = s.line := rfl
@[simp] theorem State.setSaf_cans (x : SafeSt) : (s.setSaf x).cans = s.cans := rfl

/-! ### setConn -/

@[simp] theorem State.setConn_pending (n : Nat) (x : ConnSt) : (s.setConn n x).pending = s.pending := rfl
@[simp] theorem State.setConn_freeCtr (n : Nat) (x : ConnSt) : (s.setConn n x).freeCtr = s.freeCtr := rfl
@[simp] theorem State.setConn_part (n : Nat) (x : ConnSt) : (s.setConn n x).part = s.part := rfl
@[simp] theorem State.setConn_regs (n : Nat) (x : ConnSt) : (s.setConn n x).regs = s.regs := rfl
@[simp] theorem State.setConn_inForce (n : Nat) (x : ConnSt) : (s.setConn n x).inForce = s.inForce := rfl
@[simp] theorem State.setConn_shadow (n : Nat) (x : ConnSt) : (s.setConn n x).shadow = s.shadow := rfl
@[simp] theorem State.setConn_elig (n : Nat) (x : ConnSt) : (s.setConn n x).elig = s.elig := rfl
@[simp] theorem State.setConn_held (n : Nat) (x : ConnSt) : (s.setConn n x).held = s.held := rfl
@[simp] theorem State.setConn_mem (n : Nat) (x : ConnSt) : (s.setConn n x).mem = s.mem := rfl
@[simp] theorem State.setConn_tm (n : Nat) (x : ConnSt) : (s.setConn n x).tm = s.tm := rfl
@[simp] theorem State.setConn_eng (n : Nat) (x : ConnSt) : (s.setConn n x).eng = s.eng := rfl
@[simp] theorem State.setConn_host (n : Nat) (x : ConnSt) : (s.setConn n x).host = s.host := rfl
@[simp] theorem State.setConn_sec (n : Nat) (x : ConnSt) : (s.setConn n x).sec = s.sec := rfl
@[simp] theorem State.setConn_pwr (n : Nat) (x : ConnSt) : (s.setConn n x).pwr = s.pwr := rfl
@[simp] theorem State.setConn_units (n : Nat) (x : ConnSt) : (s.setConn n x).units = s.units := rfl
@[simp] theorem State.setConn_mds (n : Nat) (x : ConnSt) : (s.setConn n x).mds = s.mds := rfl
@[simp] theorem State.setConn_legs (n : Nat) (x : ConnSt) : (s.setConn n x).legs = s.legs := rfl
@[simp] theorem State.setConn_prot (n : Nat) (x : ConnSt) : (s.setConn n x).prot = s.prot := rfl
@[simp] theorem State.setConn_gateNet (n : Nat) (x : ConnSt) : (s.setConn n x).gateNet = s.gateNet := rfl
@[simp] theorem State.setConn_sns (n : Nat) (x : ConnSt) : (s.setConn n x).sns = s.sns := rfl
@[simp] theorem State.setConn_ports (n : Nat) (x : ConnSt) : (s.setConn n x).ports = s.ports := rfl
@[simp] theorem State.setConn_emus (n : Nat) (x : ConnSt) : (s.setConn n x).emus = s.emus := rfl
@[simp] theorem State.setConn_kyn (n : Nat) (x : ConnSt) : (s.setConn n x).kyn = s.kyn := rfl
@[simp] theorem State.setConn_cells (n : Nat) (x : ConnSt) : (s.setConn n x).cells = s.cells := rfl
@[simp] theorem State.setConn_arms (n : Nat) (x : ConnSt) : (s.setConn n x).arms = s.arms := rfl
@[simp] theorem State.setConn_axes (n : Nat) (x : ConnSt) : (s.setConn n x).axes = s.axes := rfl
@[simp] theorem State.setConn_cams (n : Nat) (x : ConnSt) : (s.setConn n x).cams = s.cams := rfl
@[simp] theorem State.setConn_line (n : Nat) (x : ConnSt) : (s.setConn n x).line = s.line := rfl
@[simp] theorem State.setConn_cans (n : Nat) (x : ConnSt) : (s.setConn n x).cans = s.cans := rfl

end Sys2Proof.Machine
end

