-- ==== Sys2Proof/Laws/Nimson.lean ====
section
/-! SUPPORT. Laws of the Nimson frame: what an instruction does where it is permitted, where it is not, and where its
fields break R73. -/

namespace Sys2Proof.Machine

theorem core_setCore_same (s : State) (i : Nat) (l : LaneSt) : (s.setCore i l).core i = l := by
  simp [State.core, State.setCore, tblGet_set_same]

theorem core_setCore_ne (s : State) {i j : Nat} (l : LaneSt) (h : j ≠ i) : (s.setCore i l).core j = s.core j := by
  simp [State.core, State.setCore, tblGet_set_ne _ _ _ h]

/-- A lane access to one word that has no uncorrectable error goes through. -/
theorem eccAccess_one (s : State) (i a : Nat) (h : s.eccOf a ≠ 2) : ∃ t, s.eccAccess i a 1 = some t := by
  have h' : ¬ tblGet 0 s.eng.ecc (a / 8) = 2 := h
  rw [← Option.isSome_iff_exists]
  unfold State.eccAccess
  simp [h']

/-- An access to one word, corrected or not, leaves a debug halt as it is. -/
theorem eccAccess_one_halted (s : State) (i a : Nat) (t : State) (h : s.eccAccess i a 1 = some t) : t.halted = s.halted := by
  unfold State.eccAccess at h
  have hw : ((List.range 1).map fun k => (a + 4 * k) / 8).eraseDups = [a / 8] := by simp; rfl
  simp only [hw, List.foldl_cons, List.foldl_nil] at h
  split at h
  · cases h
  · injection h with h
    subst h
    by_cases hc : (tblGet 0 s.eng.ecc (a / 8) == 1) = true <;> by_cases hi : i < 8 <;> simp only [hc, hi] <;> rfl

/-- An instruction whose fields are legal, executed to its end. -/
theorem instr_runs (s : State) (c : Proc) (on : Cores) (m : Pred) (n : Nat) (p : BitVec 3) (ok : Bool) (eff : Effect)
    (h : CanRun s c n) (_ : 0 < n) (hok : (on.has c && ok) = true) :
    s.instr c on m n p ok eff =
      if m.any (predOf s c p) then
        let r := eff (ran s c n) (coreOf s c)
        if r.2 = 0 then r.1
        else if procLane c then
          (((fetched s c).ran (coreOf s c) n).setCore (procIdx c)
            (((fetched s c).ran (coreOf s c) n).spendOf (coreOf s c) n)).laneExc (procIdx c) r.2
        else fetched s c
      else ran s c n := by
  obtain ⟨_, hl⟩ := h
  unfold State.instr
  simp only [State.onCore, core_setCore_same]
  have hpred : predOf s c p = (coreOf s c).getP (p.setWidth 5) := rfl
  rw [hpred]
  unfold ran fetched
  have hco : (s.core (procIdx c)).stepUsed = coreOf s c := rfl
  rw [hco]
  cases hp : procLane c with
  | false => cases hm : m.any ((coreOf s c).getP (p.setWidth 5)) <;> simp [hok]
  | true =>
    obtain ⟨hf, hb⟩ := hl hp
    simp only [laneFetches, Bool.and_eq_true, decide_eq_true_eq, bne_iff_ne, ne_eq] at hf
    obtain ⟨⟨⟨hr, hs⟩, ht⟩, he⟩ := hf
    have hs' : ¬ 32 ≤ (coreOf s c).slot := Nat.not_le.mpr hs
    have ht' : ¬ tblGet 0 (coreOf s c).slots (coreOf s c).slot = 0 := ht
    have he' : ¬ (s.setCore (procIdx c) (coreOf s c)).eccOf (slotBase (procIdx c) (coreOf s c).slot +
      4 * (coreOf s c).word) = 2 := he
    have hc : ¬ (coreOf s c).budget ≤ (coreOf s c).cyc := Nat.not_le.mpr hb.1
    obtain ⟨x, hx⟩ := eccAccess_one (s.setCore (procIdx c) (coreOf s c)) (procIdx c) _ he'
    have hb' : x.overBudget (coreOf s c) n = false := by
      have hh : x.halted = s.halted := eccAccess_one_halted (s.setCore (procIdx c) (coreOf s c)) _ _ _ hx
      have hq : s.halted = true ∨ (coreOf s c).cyc + n ≤ (coreOf s c).budget := hb.2
      unfold State.overBudget
      rw [hh]
      rcases hq with hq | hq <;> simp [hq, Nat.not_lt.mpr]
    cases hm : m.any ((coreOf s c).getP (p.setWidth 5)) <;> simp [hr, hs', ht', hx, hok, hb', hc]

/-- What a meaning of the form `onMain … instr` answers, where the instruction is permitted and raises no exception. -/
theorem onMain_instr (s : State) (c : Proc) (on : Cores) (m : Pred) (n : Nat) (p : BitVec 3) (ok : Bool) (eff : Effect)
    (h : CanRun s c n) (hn : 0 < n) (hok : (on.has c && ok) = true) (hm : m.any (predOf s c p) = true)
    (he : (eff (ran s c n) (coreOf s c)).2 = 0) :
    onMain s (fun s => s.instr c on m n p ok eff) = .next (eff (ran s c n) (coreOf s c)).1 := by
  simp [onMain, h.1, instr_runs s c on m n p ok eff h hn hok, hm, he]

/-- What it answers where the predicate does not permit it: the cycles pass and the position moves on (R74). -/
theorem onMain_instr_not (s : State) (c : Proc) (on : Cores) (m : Pred) (n : Nat) (p : BitVec 3) (ok : Bool)
    (eff : Effect) (h : CanRun s c n) (hn : 0 < n) (hok : (on.has c && ok) = true) (hm : m.any (predOf s c p) = false) :
    onMain s (fun s => s.instr c on m n p ok eff) = .next (ran s c n) := by
  simp [onMain, h.1, instr_runs s c on m n p ok eff h hn hok, hm]

/-- An instruction that writes an S register. -/
theorem onMain_s (s : State) (c : Proc) (on : Cores) (n : Nat) (p : BitVec 3) (ok : Bool) (d : BitVec 5)
    (f : LaneSt → Fl) (h : CanRun s c n) (hn : 0 < n) (hok : (on.has c && ok) = true) (hm : (predOf s c p).getLsbD 0 = true) :
    onMain s (fun s => s.instr c on .scalar n p ok (Effect.s c d f)) =
      .next (ranWith s c n fun k => (k.setS d (f (coreOf s c)).v).flag (f (coreOf s c)).fl) :=
  onMain_instr s c on .scalar n p ok _ h hn hok hm rfl

/-- An instruction that writes a P register. -/
theorem onMain_p (s : State) (c : Proc) (on : Cores) (n : Nat) (p : BitVec 3) (ok : Bool) (d : BitVec 5)
    (f : LaneSt → BitVec 8) (h : CanRun s c n) (hn : 0 < n) (hok : (on.has c && ok) = true) (hm : (predOf s c p).getLsbD 0 = true) :
    onMain s (fun s => s.instr c on .scalar n p ok (Effect.p c d f)) =
      .next (ranWith s c n fun k => k.setP d (f (coreOf s c))) :=
  onMain_instr s c on .scalar n p ok _ h hn hok hm rfl

/-- An instruction that writes fp32 elements of a V register. -/
theorem onMain_v (s : State) (c : Proc) (on : Cores) (n : Nat) (p : BitVec 3) (ok : Bool) (d : BitVec 5)
    (f : LaneSt → VWord) (fs : LaneSt → Nat → BitVec 3) (h : CanRun s c n) (hn : 0 < n) (hok : (on.has c && ok) = true)
    (hm : Pred.any .f32 (predOf s c p) = true) :
    onMain s (fun s => s.instr c on .f32 n p ok (Effect.v c p d f fs)) =
      .next (ranWith s c n fun k => (k.setV d (mergeF (predOf s c p) ((coreOf s c).getV d) (f (coreOf s c)))).flag
        (flagsF (predOf s c p) (fs (coreOf s c)))) :=
  onMain_instr s c on .f32 n p ok _ h hn hok hm rfl

/-- An instruction that writes int16 elements of a V register. -/
theorem onMain_h (s : State) (c : Proc) (on : Cores) (n : Nat) (p : BitVec 3) (ok : Bool) (d : BitVec 5)
    (f : LaneSt → Nat → BitVec 16 × BitVec 3) (h : CanRun s c n) (hn : 0 < n) (hok : (on.has c && ok) = true)
    (hm : Pred.any .h16 (predOf s c p) = true) :
    onMain s (fun s => s.instr c on .h16 n p ok (Effect.h c p d f)) =
      .next (ranWith s c n fun k => (k.setV d (mergeH (predOf s c p) ((coreOf s c).getV d)
        (vecOfH fun j => (f (coreOf s c) j).1))).flag (flagsH (predOf s c p) fun j => (f (coreOf s c) j).2)) :=
  onMain_instr s c on .h16 n p ok _ h hn hok hm rfl

/-! ## Elements of a V word -/

/-- Bits above the lower part of a concatenation. -/
theorem extract_append_hi {v w : Nat} (x : BitVec v) (y : BitVec w) (k n : Nat) (h : w ≤ k) :
    (x ++ y).extractLsb' k n = x.extractLsb' (k - w) n := by
  ext i hi
  have h1 : ¬ k + i < w := by omega
  have h2 : k + i - w = k - w + i := by omega
  simp [BitVec.getLsbD_append, h1, h2]
/-- The lower part of a concatenation. -/
theorem extract_append_lo {v w : Nat} (x : BitVec v) (y : BitVec w) : (x ++ y).extractLsb' 0 w = y := by
  ext i hi
  simp [BitVec.getLsbD_append, hi]
  
theorem elemF_vecOfF (f : Nat → F32) {j : Nat} (h : j < 4) : elemF (vecOfF f) j = f j := by
  unfold elemF vecOfF vecF
  interval_cases j <;> simp only [Nat.reduceMul, extract_append_hi _ _ _ _ (by decide : 32 ≤ 32), extract_append_hi _ _ _ _ (by decide : 32 ≤ 64), extract_append_hi _ _ _ _ (by decide : 32 ≤ 96), Nat.reduceSub, extract_append_lo]
  simp
theorem elemH_vecOfH (f : Nat → BitVec 16) {j : Nat} (h : j < 8) : elemH (vecOfH f) j = f j := by
  unfold elemH vecOfH
  interval_cases j <;> simp only [Nat.reduceMul, extract_append_hi _ _ _ _ (by decide : 16 ≤ 16), extract_append_hi _ _ _ _ (by decide : 16 ≤ 32), extract_append_hi _ _ _ _ (by decide : 16 ≤ 48),
   extract_append_hi _ _ _ _ (by decide : 16 ≤ 64), extract_append_hi _ _ _ _ (by decide : 16 ≤ 80), extract_append_hi _ _ _ _ (by decide : 16 ≤ 96), extract_append_hi _ _ _ _ (by decide : 16 ≤ 112), Nat.reduceSub, extract_append_lo]
  simp

theorem elemF_mergeF (p : BitVec 8) (old new : VWord) {j : Nat} (h : j < 4) :
    elemF (mergeF p old new) j = if permF p j then elemF new j else elemF old j := elemF_vecOfF _ h

theorem elemH_mergeH (p : BitVec 8) (old new : VWord) {j : Nat} (h : j < 8) :
    elemH (mergeH p old new) j = if permH p j then elemH new j else elemH old j := elemH_vecOfH _ h

end Sys2Proof.Machine
end

