-- ==== Sys2Proof/Laws/Ops.lean ====
section
/-! SUPPORT. Laws of the shared operations: what a raised event can change, what it leaves in its pending bit, what bringing
time forward changes, and what a die in reset does. -/

namespace Sys2Proof.Machine

/-! ## Sequences of register writes -/

theorem reg_setB_ne (s : State) {x : Fld} {a : Nat} (v : Bool) (h : a ≠ x.addr) : (s.setB x v).reg a = s.reg a :=
  reg_setF_ne s _ h

theorem reg_incSat_ne (s : State) {x : Fld} {a : Nat} (k : Nat) (h : a ≠ x.addr) : (s.incSat x k).reg a = s.reg a :=
  reg_setF_ne s _ h

theorem reg_incWrap_ne (s : State) {x : Fld} {a : Nat} (k : Nat) (h : a ≠ x.addr) : (s.incWrap x k).reg a = s.reg a :=
  reg_setF_ne s _ h

theorem reg_maxF_ne (s : State) {x : Fld} {a : Nat} (k : Nat) (h : a ≠ x.addr) : (s.maxF x k).reg a = s.reg a :=
  reg_setF_ne s _ h

/-- A field in another register keeps its value. -/
theorem f_setF_ne (s : State) {x y : Fld} (v : Nat) (h : y.addr ≠ x.addr) : (s.setF x v).f y = s.f y :=
  f_congr (reg_setF_ne s v h)

theorem f_setB_ne (s : State) {x y : Fld} (v : Bool) (h : y.addr ≠ x.addr) : (s.setB x v).f y = s.f y :=
  f_congr (reg_setB_ne s v h)

theorem bit_eq_f (s : State) (x : Fld) : s.bit x = (s.f x != 0) := rfl

/-! ## Events (R440–R443) -/

/-- Registers of the event unit that a raise can write. -/
def evtReg (a : Nat) : Prop := 0x120000 ≤ a ∧ a < 0x120180

/-- `t` differs from `s` in registers of the event unit and in the host interface's hidden state only. -/
structure OnlyEvents (s t : State) : Prop where
  regs : ∀ a, ¬ evtReg a → t.reg a = s.reg a
  rest : ∃ h r, t = { s with host := h, regs := r }

theorem OnlyEvents.refl (s : State) : OnlyEvents s s := ⟨fun _ _ => rfl, s.host, s.regs, rfl⟩

theorem OnlyEvents.trans {s t u : State} (h : OnlyEvents s t) (k : OnlyEvents t u) : OnlyEvents s u := by
  obtain ⟨h1, _, _, rfl⟩ := h
  obtain ⟨k1, k2, k3, rfl⟩ := k
  exact ⟨fun a ha => (k1 a ha).trans (h1 a ha), k2, k3, rfl⟩

theorem OnlyEvents.setF (s : State) {x : Fld} (v : Nat) (h : evtReg x.addr) : OnlyEvents s (s.setF x v) :=
  ⟨fun a ha => reg_setF_ne s v (by rintro rfl; exact ha h), s.host, (s.setF x v).regs, rfl⟩

theorem OnlyEvents.host (s : State) (h : HostSt) : OnlyEvents s { s with host := h } :=
  ⟨fun _ _ => rfl, h, s.regs, rfl⟩

/-- A field outside the event unit keeps its value. -/
theorem OnlyEvents.f {s t : State} (h : OnlyEvents s t) {x : Fld} (hx : ¬ evtReg x.addr) : t.f x = s.f x :=
  f_congr (h.regs x.addr hx)

theorem evtReg_vec {s : State} {x : Fld} (hw : x.width = 4) : evtReg (F.EVT_VEC_sent (s.f x)).addr := by
  have := f_lt s x
  rw [hw] at this
  unfold evtReg
  simp only
  omega

theorem onlyEvents_sendMsg (s : State) {v : Nat} (hv : v < 16) : OnlyEvents s (s.sendMsg v) := by
  unfold State.sendMsg
  split
  · exact OnlyEvents.host s _
  · refine OnlyEvents.trans (OnlyEvents.setF s (x := F.EVT_VEC_sent v) _ ?_) (OnlyEvents.host _ _)
    unfold evtReg; simp only; omega

theorem onlyEvents_msgOnRise {s0 s s' : State} {v : Nat} (hv : v < 16) (h : OnlyEvents s0 s') :
    OnlyEvents s0 (s.msgOnRise s' v) := by
  unfold State.msgOnRise
  split
  · exact h.trans (onlyEvents_sendMsg s' hv)
  · exact h

theorem onlyEvents_enqueue (s : State) (r : EvRec) : OnlyEvents s (s.enqueue r) := by
  unfold State.enqueue
  split
  · refine OnlyEvents.trans (OnlyEvents.setF s (x := F.EVT_LOST_lost) _ (by unfold evtReg; decide))
      (OnlyEvents.trans (OnlyEvents.setF _ (x := F.EVT_STS_queue_full) _ (by unfold evtReg; decide)) (OnlyEvents.host _ _))
  · exact OnlyEvents.trans (OnlyEvents.setF s (x := F.EVT_STS_queue) _ (by unfold evtReg; decide)) (OnlyEvents.host _ _)

theorem vector_lt (s : State) (src : Nat) : s.f (F.EVT_SRC_vector src) < 16 := f_lt s (F.EVT_SRC_vector src)

theorem pendFld_addr (src : Nat) : (pendFld src).addr = 0x120008 + 4 * (src / 32) := rfl

theorem evtReg_pend {src : Nat} (h : src < 64) : evtReg (pendFld src).addr := by
  unfold evtReg; rw [pendFld_addr]; omega

theorem evtReg_src {src : Nat} (h : src < 64) : evtReg (F.EVT_SRC_count src).addr := by
  unfold evtReg; simp only; omega

/-- A raised event changes the event unit and nothing else. -/
theorem onlyEvents_raiseAt (s : State) (stamp : Nat) (saf : Bool) {src : Nat} (payload : Nat) (o r : Word) (h : src < 64) :
    OnlyEvents s (s.raiseAt stamp saf src payload o r) := by
  have h1 : OnlyEvents s ((s.setF (pendFld src) 1).incWrap (F.EVT_SRC_count src)) :=
    (OnlyEvents.setF s 1 (evtReg_pend h)).trans (OnlyEvents.setF _ (x := F.EVT_SRC_count src) _ (evtReg_src h))
  have h2 := onlyEvents_msgOnRise (s := s) (vector_lt s src) h1
  unfold State.raiseAt
  simp only
  split
  · exact h2.trans (onlyEvents_enqueue _ _)
  · exact h2

theorem onlyEvents_raise (s : State) {src : Nat} (payload : Nat) (o r : Word) (h : src < 64) :
    OnlyEvents s (s.raise src payload o r) := onlyEvents_raiseAt s _ _ payload o r h

theorem onlyEvents_raiseDev (s : State) {src : Nat} (payload : Nat) (h : src < 64) :
    OnlyEvents s (s.raiseDev src payload) := onlyEvents_raise s payload _ _ h

/-- A raised source is pending. -/
theorem raiseAt_pending (s : State) (stamp : Nat) (saf : Bool) {src : Nat} (payload : Nat) (o r : Word) (h : src < 64) :
    (s.raiseAt stamp saf src payload o r).bit (pendFld src) = true := by
  have hp : ((s.setF (pendFld src) 1).incWrap (F.EVT_SRC_count src)).f (pendFld src) = 1 := by
    unfold State.incWrap
    rw [f_setF_ne]
    · rw [f_setF_same]
      · rfl
      · unfold Fld.ok pendFld; simp only; omega
    · rw [pendFld_addr]; simp only; omega
  have hsend : ∀ (t : State) (v : Nat), v < 16 → (t.sendMsg v).f (pendFld src) = t.f (pendFld src) := by
    intro t v hv
    unfold State.sendMsg
    split
    · rfl
    · refine f_congr (reg_setF_ne t _ ?_)
      rw [pendFld_addr]; simp only; omega
  have hm : (s.msgOnRise ((s.setF (pendFld src) 1).incWrap (F.EVT_SRC_count src)) (s.f (F.EVT_SRC_vector src))).f
      (pendFld src) = 1 := by
    unfold State.msgOnRise
    split
    · rw [hsend _ _ (vector_lt s src)]; exact hp
    · exact hp
  have hq : ∀ (t : State) (e : EvRec), (t.enqueue e).f (pendFld src) = t.f (pendFld src) := by
    intro t e
    unfold State.enqueue
    split
    · refine (f_congr (reg_setF_ne _ _ ?_)).trans (f_congr (reg_setF_ne _ _ ?_)) <;> (rw [pendFld_addr]; simp only; omega)
    · refine f_congr (reg_setF_ne _ _ ?_); rw [pendFld_addr]; simp only; omega
  unfold State.raiseAt
  rw [bit_eq_f]
  simp only
  by_cases hl : s.bit (F.EVT_SRC_log_en src) = true
  · rw [if_pos hl, hq, hm]; rfl
  · rw [if_neg hl, hm]; rfl

theorem raise_pending (s : State) {src : Nat} (payload : Nat) (o r : Word) (h : src < 64) :
    (s.raise src payload o r).bit (pendFld src) = true := raiseAt_pending s _ _ payload o r h

theorem raiseDev_pending (s : State) {src : Nat} (payload : Nat) (h : src < 64) :
    (s.raiseDev src payload).bit (pendFld src) = true := raise_pending s payload _ _ h

/-! ## Time -/

/-- Bringing time forward changes global time only. -/
theorem at_eq (s : State) (t : Nat) : s.at t = { s with tm := (s.at t).tm } := by
  unfold State.at
  split <;> rfl

@[simp] theorem at_regs (s : State) (t : Nat) : (s.at t).regs = s.regs := by rw [at_eq]
@[simp] theorem at_mem (s : State) (t : Nat) : (s.at t).mem = s.mem := by rw [at_eq]
@[simp] theorem at_eng (s : State) (t : Nat) : (s.at t).eng = s.eng := by rw [at_eq]
@[simp] theorem at_reg (s : State) (t a : Nat) : (s.at t).reg a = s.reg a := by rw [at_eq]; rfl
@[simp] theorem at_f (s : State) (t : Nat) (x : Fld) : (s.at t).f x = s.f x := by rw [at_eq]; rfl
@[simp] theorem at_bit (s : State) (t : Nat) (x : Fld) : (s.at t).bit x = s.bit x := by rw [at_eq]; rfl

/-- Global time never goes back (R30). -/
theorem now_le_at (s : State) (t : Nat) : s.now ≤ (s.at t).now := by
  unfold State.at State.now
  split
  · exact Nat.le_refl _
  · exact Nat.le_max_left _ _

/-! ## Dies in reset -/

theorem onMain_run {s : State} (act : State → State) (h : s.pwr.mainRst = false) : onMain s act = .next (act s) := by
  simp [onMain, h]

theorem onSafety_run {s : State} (act : State → State) (h : s.pwr.safRst = false) : onSafety s act = .next (act s) := by
  simp [onSafety, h]

theorem onBus_run {s : State} {m : Master} (act : State → State) (h : s.pwr.mainRst = false)
    (hd : m = .pcie → s.host.d3hot = false) : onBus s m act = .next (act s) := by
  by_cases hm : m = .pcie
  · simp [onBus, onMain, h, hm, hd hm]
  · simp [onBus, onMain, h, hm]

/-- A main die in reset does nothing with a command (R468, R469). -/
theorem onMain_reset {s : State} (act : State → State) (h : s.pwr.mainRst = true) : onMain s act = .next s := by
  simp [onMain, h]

end Sys2Proof.Machine
end

