-- ==== Sys2Proof/Tests/Slice0.lean ====
section
/-! SUPPORT. Tests: ill-formed instructions that the checks refuse, words decoded, worked examples of the manual, and a witness
for the hypotheses of every statement (Obligations.lean), clause by clause, at the bounds of their ranges. -/

namespace Sys2Proof.Tests

open Sys2Proof Sys2Proof.Machine

set_option Elab.async false

/-! ## States to test on -/

/-- `s` with the fields set. -/
def put (s : State) (fs : List (Fld × Nat)) : State := fs.foldl (fun s e => s.setF e.1 e.2) s

/-- The reset state with the fields set. -/
def st (fs : List (Fld × Nat)) : State := put State.reset fs

/-- `s` with the fields set and every register in force. -/
def force (s : State) (fs : List (Fld × Nat)) : State := (put s fs).takeInForce 0 0x1000000

/-- `c` is done on `s`, and `ok` holds of the state it leaves. -/
def after (c : Instr) (s : State) (ok : State → Bool) : Bool :=
  match Machine.exec c s with
  | .next t => ok t
  | _ => false

/-- Lane 0 as `l`, running a slice; program tile 0 is staged in its slot 0. -/
def lane (l : LaneSt) : State := { State.reset with eng := { lanes := [(0, { l with busy := true, slots := [(0, 1)] })] } }

/-- Lane 0 with the S registers given, at cycle `cyc` of a budget of 100. -/
def laneAt (cyc : Nat) (regs : Tbl Word) : State := lane { cyc := cyc, budget := 100, s := regs }

/-- The running tick, in phase `ph`. -/
def tick (s : State) (ph : Nat) : State := { s.setF F.TIME_TICK_STS_running 1 with tm := { s.tm with period := 5000, lead := 1500, start := 4000, phase := ph, now := 4000 } }

/-! ## Well-formedness (R73) -/

/-- One instruction for each check that its fields break. -/
theorem test_ill_formed_refused :
    let c : Proc := .lane 0
    ([.vaddF c 0 17 1 2, .vaddF c 0 1 16 2, .vdotF c 0 3 16 1, .vdotF c 0 3 1 31, .pand c 0 8 1 1, .pand c 0 1 8 1, .pand c 0 1 1 31,
      .pnot c 0 9 1, .pset c 0 8 1, .vext c 0 1 2 4, .vext c 0 1 16 0, .vins c 0 1 2 31, .ftoq c 0 1 2 16, .qtof c 0 1 2 16,
      .mfs c 0 1 8, .mts c 0 1 1, .topen c 0 8 1, .lut c 0 1 2 8, .lwt c 0 1 8 0, .vlt c 0 16 1 0, .vsvm c 0 1 2 3,
      .loop c 1 0 3, .loop c 1 3 0, .vsl c 0 16 1 0, .vpi c 0 1 2 16, .cmpEq c 0 8 1 2, .vpi .keeper 0 8 6 7, .stg .keeper 0 true 1 2,
      .callk .safety 0 1 2 3] : List Instr).all (fun i => !instrWf i) = true := by decide +kernel

/-- The same shapes at the last value that the checks accept. -/
theorem test_well_formed_at_the_bound :
    let c : Proc := .lane 7
    ([.vaddF c 7 15 15 15, .vdotF c 0 31 15 15, .pand c 0 7 7 7, .vext c 0 31 15 3, .ftoq c 0 31 31 15, .mfs c 0 31 7, .mts c 0 31 0,
      .topen c 0 7 31, .lut c 0 31 31 7, .vlt c 0 15 7 255, .vsvm c 0 15 15 2, .loop c 31 0xFFF 63, .nop .safety 7] :
      List Instr).all instrWf = true := by decide +kernel

/-! ## Words (R72, R82), field by field, and the example of chapter 3 -/

theorem test_word_vpi : Sys2Proof.decodeNimson (.lane 0) 0x7020C705 = some (.vpi (.lane 0) 0 8 6 7) := by decide +kernel
theorem test_word_fadd : Sys2Proof.decodeNimson .keeper 0b001011_010_00001_00010_00011_00000000 = some (.fadd .keeper 2 1 2 3) := by
  decide +kernel
theorem test_word_reserved : Sys2Proof.decodeNimson (.lane 0) 0b000000_001_00010_00011_00100_11111111 = none := by decide +kernel

/-! ## Words of each family (R72, R82): opcode, predicate, fields -/

theorem test_words_of_the_families :
    let c : Proc := .lane 0
    let d := Sys2Proof.decodeNimson c
    d 0b010000_000_00001_00010_0000000000100 = some (.lwh c 0 1 2 4) ∧
    d 0b010101_000_01111_00010_1111111110000 = some (.vsd c 0 15 2 0x1FF0) ∧
    d 0b011000_011_00001_00010_00011_00000011 = some (.vfmaF c 3 1 2 3) ∧
    d 0b011001_000_00001_00010_00011_00000010 = some (.vmulqH c 0 1 2 3) ∧
    d 0b011010_000_00001_00010_00011_00000010 = some (.vext c 0 1 2 3) ∧
    d 0b011011_000_00001_00010_00000_11100100 = some (.vshuf c 0 1 2 0xE4) ∧
    d 0b001001_000_00111_00010_00011_00000011 = some (.fcmpUn c 0 7 2 3) ∧
    d 0b001010_000_00111_00010_00011_00000010 = some (.pxor c 0 7 2 3) := by decide +kernel

/-! ## Witnesses: the queue, reset, words, memory -/

theorem witness_StepRunsTheFrontCommand :
    State.reset.pending = [] ∧ State.reset.bit F.CLK_STS_pll_lock = false ∧
    (let s := { st [(F.CLK_STS_pll_lock, 1)] with tm := { slow := 5 } }
     s.pending = [] ∧ s.bit F.CLK_STS_pll_lock = true ∧ s.tm.holdLag = none) := by decide +kernel

theorem witness_MainDieInResetHolds :
    { State.reset with pwr := { State.reset.pwr with mainRst := true } }.pwr.mainRst = true ∧ ¬ beyondMainDie .couch ∧
    ¬ beyondMainDie (.add .keeper 0 1 2 3) ∧ ¬ beyondMainDie .pllLock := by
  refine ⟨rfl, ?_, ?_, ?_⟩ <;> simp [beyondMainDie]

theorem witness_DecodeOfEncode :
    let i : Instr := .vlim (.lane 7) 7 15 15 31
    instrCore i = some (.lane 7) ∧ instrWf i = true ∧ (encodeNimson i).isSome = true := by decide +kernel

theorem witness_EncodeOfDecode : (Sys2Proof.decodeNimson .safety 0b101000_000_00000_00000_00000_00000000).isNone = true ∧
    (Sys2Proof.decodeNimson .safety 0b101010_000_00000_00000_00000_00000000).isNone = true ∧
    (Sys2Proof.decodeNimson .safety 0b000000_111_11111_11111_11111_00001111).isSome = true := by decide +kernel

theorem witness_StepKeepsMemoryForm :
    let s := { State.reset with mem := [(dataBase, 1)] }
    Memory.wf s.mem = true ∧ after (.registerWrite .pcie (dataBase + 0x1FFFFC) 0x8 0xFF000000 0) s
      (fun t => t.mem == [(dataBase, 1), (dataBase + 0x1FFFFF, 0xFF)]) = true := by decide +kernel

/-! ## Witnesses: the Nimson instructions

A core that has just the cycles left that the instruction takes, at the bounds of its operands. -/

theorem witness_IntegerResults :
    (let s := laneAt 99 [(1, 0x7FFFFFFF), (2, 1)]
     CanRun s (.lane 0) 1 ∧ (predOf s (.lane 0) 0).getLsbD 0 = true) ∧
    CanRun (laneAt 98 []) (.lane 0) 2 ∧ CanRun State.reset .keeper 12 ∧ CanRun State.reset .safety 12 ∧
    (let s := laneAt 88 [(1, 0x80000000), (2, 0xFFFFFFFF)]
     CanRun s (.lane 0) 12 ∧ (coreOf s (.lane 0)).getS 2 ≠ 0 ∧ (coreOf s (.lane 0)).getS 3 = 0) ∧
    (let s := { laneAt 99 [] with eng := { (laneAt 99 []).eng with haltAt := some 0 } }
     s.halted = true ∧ ¬ CanRun s (.lane 0) 12) := by unfold CanRun; decide +kernel

/-- R77: the examples of wrapping and saturating. -/
theorem test_integer_bounds :
    let s := laneAt 88 [(1, 0x80000000), (2, 0xFFFFFFFF), (3, 0x7FFFFFFF)]
    after (.add (.lane 0) 0 4 3 2) s (fun t => (t.core 0).getS 4 == 0x7FFFFFFE) = true ∧
    after (.adds (.lane 0) 0 4 1 2) s (fun t => (t.core 0).getS 4 == 0x80000000 && (t.core 0).lst.getLsbD 0) = true ∧
    after (.div (.lane 0) 0 4 1 2) s (fun t => (t.core 0).getS 4 == 0x7FFFFFFF && (t.core 0).lst.getLsbD 0) = true ∧
    after (.sar (.lane 0) 0 4 1 2) s (fun t => (t.core 0).getS 4 == 0xFFFFFFFF) = true := by decide +kernel

theorem witness_ScalarFloatResults :
    CanRun (laneAt 97 []) (.lane 0) 3 ∧ CanRun (laneAt 90 []) (.lane 0) 10 ∧ (15 : BitVec 5).toNat < 16 := by
  unfold CanRun; decide +kernel

theorem witness_FloatSpecialCases :
    let nan : F32 := 0x7FC00001
    (fIsNan nan || fIsNan 0) = true ∧ (!fIsNan 0x7F800000 && !fIsNan 0xFF800000) = true ∧
    (let a : F32 := 0x00800000
     let b : F32 := 0x80000000
     fKey a ≠ 0 ∧ fIsNan a = false ∧ fIsInf a = false ∧ fKey b = 0 ∧ fIsNan b = false) := by decide +kernel

theorem witness_VectorResults :
    let s := lane { cyc := 96, budget := 100, p := [(1, 0xC0)] }
    let pb := predOf s (.lane 0) 1
    okV 15 = true ∧ okP 7 = true ∧ CanRun s (.lane 0) 4 ∧ (predOf s (.lane 0) 0).getLsbD 0 = true ∧ Pred.any .f32 pb = true ∧
    Pred.any .h16 pb = true ∧ pb.getLsbD 0 = false ∧ permF pb 3 = true ∧ permF pb 2 = false := by unfold CanRun; decide +kernel

theorem witness_VectorMoveResults :
    let s := lane { cyc := 98, budget := 100, p := [(1, 0xC0)] }
    okV 15 = true ∧ (3 : BitVec 5).toNat < 4 ∧ CanRun s (.lane 0) 1 ∧ CanRun s (.lane 0) 2 ∧
    Pred.any .f32 (predOf s (.lane 0) 1) = true ∧ Pred.any .h16 (predOf s (.lane 0) 1) = true := by unfold CanRun; decide +kernel

theorem witness_DriveResults :
    let v : VWord := 0x3F800000_3F800000_3F800000_3F800000
    let s := lane { cyc := 88, budget := 100, s := [(1, 0x7F800000), (2, 0x7FC00000), (3, 0x3F800000), (4, 0xFF800000)],
                    v := [(0, v), (1, 0x00000000_BF800000_3F800000_00000000), (2, 0x7FC00000_00000000_00000000_00000000)],
                    a := [(7, 1)] }
    let c : Proc := .lane 0
    let k := coreOf s c
    okV 15 = true ∧ okP 7 = true ∧ k.getA 7 ≠ none ∧ (∀ n ∈ [4, 6, 8, 12], CanRun s c n) ∧
    fIsInf (k.getS 1) = true ∧ fIsNan (k.getS 2) = true ∧ (fIsNan (k.getS 3) = false ∧ fIsInf (k.getS 3) = false) ∧
    ([elemF (k.getV 0) 0, elemF (k.getV 0) 1, elemF (k.getV 0) 2, elemF (k.getV 0) 3, elemF (k.getV 1) 0].all fun x => !fIsNan x) = true ∧
    ([elemF (k.getV 2) 0, elemF (k.getV 2) 1, elemF (k.getV 2) 2, elemF (k.getV 2) 3].any fun x => fIsNan x) = true ∧
    (2 : BitVec 5).toNat < 3 ∧
    (let m := fun (x : F32) => ((((⟨x, 0⟩ : Fl).mul ⟨x, 0⟩).add ((⟨0, 0⟩ : Fl).mul ⟨0, 0⟩)).sqrt).v
     fLt fZero (m 0x7F800000) = true ∧ fLt fZero (m 0) = false) := by unfold CanRun; decide +kernel

theorem witness_ImmediateAndCompareResults :
    let s := laneAt 99 [(1, 0x7FC00000)]
    CanRun s (.lane 0) 1 ∧ okP 7 = true ∧ (predOf s (.lane 0) 0).getLsbD 0 = true ∧ fIsNan ((coreOf s (.lane 0)).getS 1) = true := by
  unfold CanRun; decide +kernel

/-- R48, R83: an address of 16 bits of the last word of a memory, and an error of each kind in it. -/
theorem witness_LoadResults :
    let c : Proc := .lane 0
    let s := lane { cyc := 92, budget := 100, s := [(1, 0x3FFC), (2, 0x1FFFFC), (3, 0x4000)], a := [(7, 1)], v := [] }
    let broken := { s with eng := { s.eng with ecc := [((dataBase + 0x1FFFFC) / 8, 1)] } }
    (∀ n ∈ [2, 4, 6, 8], CanRun s c n) ∧ (predOf s c 0).getLsbD 0 = true ∧ Pred.any .f32 (predOf s c 0) = true ∧ okV 15 = true ∧
    (let x := byteAddr s c 1 0
     x % 4 = 0 ∧ x < 0x4000 ∧ 0x4000 ≤ x + 4 ∧ s.eccOf (localBase (procIdx c) + x) = 0) ∧
    (let x := byteAddr s c 2 0
     c ≠ .safety ∧ x % 4 = 0 ∧ x < 0x200000 ∧ 0x200000 ≤ x + 4 ∧ s.eccOf (dataBase + x) = 0 ∧ broken.eccOf (dataBase + x) = 1 ∧
     CanRun broken c 6) ∧
    (let x := byteAddr s c 3 0x1FF0
     x % 16 = 0 ∧ x < 0x4000 ∧ 0x4000 ≤ x + 16 ∧ ∀ k < 4, s.eccOf (localBase 0 + x + 4 * k) = 0) ∧
    (let x := byteAddr s c 2 0x1FF4
     x % 16 = 0 ∧ x < 0x200000 ∧ 0x200000 ≤ x + 16 ∧ ∀ k < 4, s.eccOf (dataBase + x + 4 * k) = 0) ∧
    okP 7 = true ∧ (coreOf s c).getA 7 ≠ none ∧ (252 : BitVec 8).toNat ≤ 252 := by unfold CanRun; decide +kernel

theorem witness_StoreResults :
    let c : Proc := .lane 0
    let s := lane { cyc := 94, budget := 100, s := [(1, 0x3FFC), (2, 0x1FFFFC)], p := [(1, 0xC0)] }
    Memory.wf s.mem = true ∧ (∀ n ∈ [1, 4, 6], CanRun s c n) ∧ (predOf s c 0).getLsbD 0 = true ∧
    Pred.any .f32 (predOf s c 1) = true ∧
    (let x := byteAddr s c 1 0
     x % 4 = 0 ∧ x < 0x4000 ∧ s.eccOf (localBase (procIdx c) + x) = 0) ∧
    (let x := byteAddr s c 2 0
     x % 4 = 0 ∧ x < 0x200000 ∧ s.eccOf (dataBase + x) = 0) ∧
    (let x := byteAddr s c 1 0x1FF4
     x % 16 = 0 ∧ x < 0x4000 ∧ ∀ k < 4, s.eccOf (localBase 0 + x + 4 * k) = 0) ∧
    (let x := byteAddr s c 2 0x1FF4
     x % 16 = 0 ∧ x < 0x200000 ∧ ∀ k < 4, s.eccOf (dataBase + x + 4 * k) = 0) := by unfold CanRun; decide +kernel

/-- A store of the last element alone leaves the others. -/
theorem test_store_one_element :
    let s := lane { cyc := 94, budget := 100, s := [(1, 0x3FF0)], p := [(1, 0xC0)], v := [(0, 0x44444444_33333333_22222222_11111111)] }
    after (.vsl (.lane 0) 1 0 1 0) s (fun t => t.word (localBase 0 + 0x3FFC) == 0x44444444 && t.word (localBase 0 + 0x3FF8) == 0) =
      true := by decide +kernel

theorem witness_ControlFlow :
    let c : Proc := .lane 0
    let at_ := fun (w n : Nat) (loops : List LoopRec) => lane { cyc := 98, budget := 100, word := w, s := [(1, BitVec.ofNat 32 n)], loops := loops }
    CanRun (at_ 0 0 []) c 2 ∧ CanRun (at_ 0 0 []) c 1 ∧ (predOf (at_ 0 0 []) c 0).getLsbD 0 = true ∧
    (predOf (at_ 0 0 []) c 1).getLsbD 0 = false ∧
    (let l := coreOf (at_ 254 0 []) c
     l.slot * 256 + l.word < 0 * 256 + (255 : BitVec 8).toNat ∧ tblGet 0 l.slots 0 ≠ 0) ∧
    (let l := coreOf (at_ 192 0 []) c
     min (l.getS 1).toNat 0xFFF = 0 ∧ l.word + (63 : BitVec 6).toNat = 255 ∧ l.loops = []) ∧
    (let l := coreOf (at_ 191 0 []) c
     min (l.getS 1).toNat 0xFFF = 0 ∧ l.word + (63 : BitVec 6).toNat < 255) ∧
    (let r : LoopRec := ⟨0, 1, 10, 0, 2⟩
     let l := coreOf (at_ 9 1 [r]) c
     min (l.getS 1).toNat 0xFFF ≠ 0 ∧ l.loops.length < 2 ∧ l.slot = r.slot ∧ r.first ≤ l.word + 1 ∧ l.word + 1 ≤ r.last) ∧
    (let r : LoopRec := ⟨0, 1, 10, 0, 2⟩
     let l := coreOf (at_ 10 0 [r]) c
     l.loops = [r] ∧ l.slot = r.slot ∧ l.word = r.last ∧ r.idx + 1 < r.count) ∧
    (let l := coreOf (at_ 255 0 []) c
     l.loops = [] ∧ l.word = 255) := by unfold CanRun; decide +kernel

/-- Context 0's schedule, in which it owns every instance of every kind. -/
def owned (s : State) (x : CtxSt) : State :=
  { s with eng := { s.eng with ctxs := [(0, x)], sched := some { owners := (List.range 8).map fun k => ⟨0, k, 0, 255⟩ } } }

theorem witness_StagingAndClosing :
    let c : Proc := .lane 0
    let s := owned (lane { cyc := 98, budget := 100, s := [(1, 0x01070002), (2, 0x05000000), (3, 0x05000001), (4, 0x05000007), (5, 0x06110001), (6, 0x7FC00000)] })
    let open_ := s { felt := List.replicate 63 (0, 0) }
    let done := s { closed := true, group := .committed }
    let bad := s { group := .discarded }
    (predOf open_ c 0).getLsbD 0 = true ∧ CanRun open_ c 2 ∧ CanRun done c 1 ∧
    ((open_.ctx 0).felt.length ≤ 64 ∧ (open_.ctx 0).felt.length < 64 ∧ (open_.ctx 0).closed = false) ∧
    (∀ r ∈ [1, 2, 3, 4, 5], let tgt := (coreOf open_ c).getS (BitVec.ofNat 5 r)
      (stgField (getBits tgt 24 8) (getBits tgt 16 8) (getBits tgt 0 16)).isSome = true ∧
      open_.ownerOf (getBits tgt 24 8) (getBits tgt 16 8) = some 0) ∧
    stgField 1 7 2 = some (16, .q 15) ∧ stgField 5 0 0 = some (32, .int) ∧ stgField 5 0 1 = some (32, .raw) ∧
    stgField 5 0 7 = some (16, .seq) ∧ stgField 6 17 1 = some (2, .uint) ∧
    ((open_.ctx 0).group ≠ .discarded) ∧ ((bad.ctx 0).closed = false ∧ (bad.ctx 0).group = .discarded) ∧ (done.ctx 0).closed = true := by
  unfold CanRun; decide +kernel

/-- `s` in which the watermark of tile `t` is the CRC of its bytes. -/
def marked (t : Nat) (s : State) : State := { s with eng := { s.eng with wm := [(t, s.tileCrc t)] } }

theorem marked_ok {t : Nat} {s : State} (h : s.quarantined t = false) : (marked t s).wmOk t = true := by
  simpa [State.wmOk, marked, State.wm, State.quarantined, tblGet, State.tileCrc] using h

theorem witness_TilesEventsStatus :
    let c : Proc := .lane 0
    let s := marked 3071 (lane { cyc := 28, budget := 100, s := [(1, 1023)] })
    let q := { s with eng := { s.eng with quar := [3071] } }
    let busy := { s with eng := { s.eng with ctxs := [(0, { posted := true })] } }
    (predOf s c 0).getLsbD 0 = true ∧ CanRun s c 72 ∧ CanRun s c 1 ∧ okP 7 = true ∧ ((coreOf s c).getS 1).toNat < 1024 ∧
    Memory.wf s.mem = true ∧
    (q.wmOk (2048 + 1023) = false ∧ (q.ctx 0).group = .opened) ∧ (s.ctx 0).posted = false ∧ (busy.ctx 0).posted = true ∧
    s.wmOk (2048 + 1023) = true := by
  unfold CanRun
  exact ⟨by decide +kernel, by decide +kernel, by decide +kernel, by decide +kernel, by decide +kernel, by decide +kernel,
    by decide +kernel, by decide +kernel, by decide +kernel, marked_ok (by decide +kernel)⟩

/-- MFS at the ends of its range, and the free values of selectors 3 and 4. -/
theorem witness_statusSelectors :
    CanRun State.reset .safety 1 ∧ procLane .keeper = false ∧ (7 : BitVec 5).toNat < 8 ∧
    after (.mfs (.lane 3) 0 1 4) { State.reset with eng := { lanes := [(3, { busy := true, budget := 1, slots := [(0, 1)] })] } }
      (fun t => (t.core 3).getS 1 == 3) = true := by unfold CanRun; decide +kernel

theorem witness_LaneExceptions :
    let c : Proc := .lane 0
    let s := fun (cyc : Nat) => lane { cyc := cyc, budget := 100, s := [(1, 0x3FFE), (2, 0x4000), (3, 0x200000), (4, 1024), (5, 0x01000000), (6, 0x3FFC), (7, 0x1FFFFC), (8, 0x3FF8)] }
    let ue := { s 94 with eng := { (s 94).eng with ecc := [((localBase 0 + 0x3FFC) / 8, 2), ((dataBase + 0x1FFFFC) / 8, 2)] } }
    ((s 99).core 0).ctx < 64 ∧ laneFetches (s 99) 0 = true ∧ ((s 99).core 0).cyc + 1 ≤ ((s 99).core 0).budget ∧
    (fieldsOk (.vpi c 0 1 2 16) = false ∧ fieldsOk (.mfs c 0 1 8) = false) ∧
    Sys2Proof.decodeNimson c 0xFFFFFFFF = none ∧
    (0 : BitVec 5).toNat * 256 + (0 : BitVec 8).toNat ≤ ((s 99).core 0).slot * 256 + ((s 99).core 0).word ∧
    255 < ((lane { word := 193 }).core 0).word + (63 : BitVec 6).toNat ∧
    (predOf (s 28) c 0).getLsbD 0 = true ∧ (∀ n ∈ [1, 2, 4, 6, 72], CanRun (s 28) c n) ∧
    (byteAddr (s 99) c 1 0 % 4 ≠ 0 ∧ 0x4000 ≤ byteAddr (s 99) c 2 0 ∧ 0x200000 ≤ byteAddr (s 99) c 3 0) ∧
    (ue.eccOf (localBase 0 + byteAddr ue c 6 0) = 2 ∧ ue.eccOf (dataBase + byteAddr ue c 7 0) = 2) ∧
    ((coreOf (s 92) c).getA 7 = none ∧ CanRun (s 92) c 8 ∧ 1024 ≤ ((coreOf (s 28) c).getS 4).toNat) ∧
    (let o := owned (s 98) { closed := true }
     (o.ctx (o.core 0).ctx).closed = true ∧ CanRun o c 2) ∧
    (let o := owned (s 98) { felt := List.replicate 64 (0, 0) }
     (o.ctx 0).closed = false ∧ o.ownerOf 1 0 = some (o.core 0).ctx ∧ o.ownerOf 8 0 ≠ some (o.core 0).ctx ∧ 64 ≤ (o.ctx 0).felt.length) ∧
    (byteAddr (s 99) c 8 0 % 16 ≠ 0 ∧ ∃ k < 4, ue.eccOf (localBase 0 + 0x3FF0 + 4 * k) = 2) ∧ 252 < (253 : BitVec 8).toNat := by
  unfold CanRun; decide +kernel

theorem witness_NotPermittedAndAbandoned :
    let c : Proc := .lane 0
    let i : Instr := .div c 1 1 2 3
    let s := laneAt 88 []
    instrCore i = some c ∧ fieldsOk i = true ∧ instrPred i = some (.scalar, 1) ∧ instrCycles i = 12 ∧
    (Pred.any .scalar (predOf s c 1) = false ∧ CanRun s c 12) ∧
    (let t := laneAt 89 []
     laneFetches t 0 = true ∧ t.halted = false ∧ (t.core 0).budget < (t.core 0).cyc + 12) ∧
    (let t := laneAt 100 []
     laneFetches t 0 = true ∧ (t.core 0).budget ≤ (t.core 0).cyc) := by unfold CanRun; decide +kernel

theorem witness_RegisterInstructionFrame :
    let c : Proc := .lane 0
    let i : Instr := .vaddF c 0 15 0 0
    let s := laneAt 98 []
    let broken := { s with eng := { s.eng with ecc := [(slotBase 0 0 / 8, 1)] } }
    instrCore i = some c ∧ fieldsOk i = true ∧ instrDest i = some (.v 15) ∧ CanRun s c (instrCycles i) ∧
    (CanRun broken c (instrCycles i) ∧ broken.eccOf (slotBase 0 0) = 1) := by unfold CanRun; decide +kernel

/-- R68: a count of corrected errors that stands at its greatest value stays there. -/
theorem test_ecc_count_saturates :
    let s := laneAt 98 []
    let s := put { s with eng := { s.eng with ecc := [(slotBase 0 0 / 8, 1)] } } [(F.ENG_LANE_ECC_CNT_ecc_corr 0, 0xFFFF)]
    after (.nop (.lane 0) 0) s (fun t => t.f (F.ENG_LANE_ECC_CNT_ecc_corr 0) == 0xFFFF && t.eccOf (slotBase 0 0) == 0) = true := by
  decide +kernel

/-- The slice of the example of chapter 2: context 4 on lane 0, k = 2. -/
def sliceOf4 (stage : List (Nat × Nat)) : Slice := { ctx := 4, lane := 0, k := 2, start := 3864, budget := 2400, tile := 32, word := 1, stage := stage }

theorem witness_SliceStartAndOverrun :
    let s := fun (quar : List Nat) (x : Slice) => tick { st [(F.CTX_STS_state 4, 1)] with
      eng := { sched := some { slices := List.replicate 255 (sliceOf4 []) ++ [x] }, quar := quar } } 2
    let a := s [] (sliceOf4 [])
    let b := marked 2047 (s [] (sliceOf4 [(2047, 31)]))
    let c := s [2047] (sliceOf4 [(2047, 31)])
    (a.eng.sched.bind fun t => t.slices[255]?) = some (sliceOf4 []) ∧ a.running = true ∧ a.tm.phase = 2 ∧ a.halted = false ∧
    a.f (F.CTX_STS_state 4) = 1 ∧ (a.core 0).busy = false ∧ 255 ∉ (a.core 0).done ∧ Memory.wf a.mem = true ∧
    (c.wmOk 2047 = false ∧ (c.ctx 4).group ≠ .discarded) ∧
    (let l := lane { ctx := 63 }
     (l.core 0).busy = true ∧ l.halted = false ∧ (l.core 0).ctx < 64 ∧ (l.ctx (l.core 0).ctx).group ≠ .discarded) ∧
    b.wmOk 2047 = true := by
  exact ⟨by decide +kernel, by decide +kernel, by decide +kernel, by decide +kernel, by decide +kernel, by decide +kernel,
    by decide +kernel, by decide +kernel, by decide +kernel, by decide +kernel, marked_ok (by decide +kernel)⟩

/-- The four words of the slice entry of the example. -/
theorem test_slice_entry_of_the_example :
    let e : SliceEntry := ⟨0x00020004, 0xF18, 0x960, 0x120, []⟩
    e.slice.ctx = 4 ∧ e.slice.lane = 0 ∧ e.slice.k = 2 ∧ e.slice.start = 0xF18 ∧ e.slice.budget = 0x960 := by decide +kernel

/-! ## Time and the tick -/

/-- Reset with a verified schedule; the tick's period and lead in 4 ns counts. -/
def timed (p l : Nat) (sl : List Slice) (fs : List (Fld × Nat)) : State :=
  { put State.reset ([(F.TIME_TICK_PERIOD_period_m1, p - 1), (F.TIME_COUCH_LEAD_lead, l), (F.TILE_SCHED_STS_verified, 1)] ++ fs) with
    eng := { sched := some { slices := sl } } }

theorem witness_StartOfTheTick :
    let s := timed 2000 1375 [] [(F.TIME_REQ_LEAD_req_lead, 1375)]
    s.pwr.mainRst = false ∧ s.bit F.TIME_TICK_CTL_run = false ∧ ∀ k < 7, (startConds s).getD k False := by
  refine ⟨by decide +kernel, by decide +kernel, ?_⟩
  intro k hk
  interval_cases k <;> simp only [startConds, List.getD_cons_zero, List.getD_cons_succ] <;> decide +kernel

/-- R27: a state that each check refuses, at the bound of its range. -/
theorem test_start_codes :
    let code := fun (s : State) (c : Nat) => after .startTick s fun t => t.f F.TIME_TICK_STS_start_error == c
    let fol := (F.TIME_LINE_STS_role, 2)
    code (timed 1999 0 [] []) 1 = true ∧ code (timed 50001 0 [] []) 1 = true ∧
    code (put (timed 2000 0 [] []) [(F.TILE_SCHED_STS_verified, 0)]) 2 = true ∧
    code (timed 5000 1500 [{ sliceOf4 [] with start := 9600, budget := 401 }] []) 2 = true ∧
    code (timed 5000 1500 [{ sliceOf4 [] with start := 9600, budget := 400 }] []) 0 = true ∧
    code (timed 2000 1375 [] [(F.TIME_REQ_LEAD_req_lead, 1376)]) 4 = true ∧ code (timed 2000 1376 [] []) 5 = true ∧
    code (timed 2000 1375 [] [fol, (F.TIME_LINE_STS_locked, 0)]) 6 = true ∧
    code (timed 2000 1375 [] [fol, (F.TIME_LINE_STS_locked, 1), (F.TIME_SRV_PERIOD_period_m1, 2000)]) 7 = true := by
  decide +kernel

theorem witness_StopOfTheTick :
    let s := st [(F.TIME_TICK_CTL_run, 1)]
    let due := { s with tm := { s.tm with pend := some ⟨0, 5000, 1500, 0⟩ } }
    let live := put s [(F.FLD_STS_state 7, 4)]
    s.pwr.mainRst = false ∧ State.reset.bit F.TIME_TICK_CTL_run = false ∧ s.bit F.TIME_TICK_CTL_run = true ∧
    ((∀ u < 8, driveAtRest s u) ∧ ∀ k < 8, s.convExists k = true → s.f (F.PROT_CV_STS_state k) ≠ 0) ∧
    (s.tm.pend = none ∧ due.tm.pend ≠ none) ∧
    (live.bit F.TIME_TICK_CTL_run = true ∧ ¬ driveAtRest live 7) := by unfold driveAtRest; decide +kernel

theorem witness_TickPhases :
    let p := { State.reset with tm := { State.reset.tm with pend := some ⟨0, 2000, 0, 0⟩ } }
    let last := { tick State.reset 3 with tm := { (tick State.reset 3).tm with stopping := true } }
    (p.pwr.mainRst = false ∧ p.halted = false ∧ p.tm.holdLag = none ∧ p.running = false ∧ p.tm.pend = some ⟨0, 2000, 0, 0⟩) ∧
    (∀ ph ∈ [1, 2, 3], let s := tick State.reset ph
      s.running = true ∧ s.tm.phase = ph ∧ s.tm.stopping = false ∧ s.halted = false ∧ s.tm.holdLag = none) ∧
    (last.running = true ∧ last.tm.phase = 3 ∧ last.tm.stopping = true) := by decide +kernel

theorem witness_StampsAndPairs :
    let s := { State.reset with tm := { State.reset.tm with now := 999999999, ppso := true } }
    s.pwr.mainRst = false ∧ s.tm.holdLag = none ∧ s.tm.ppso = true ∧ s.host.d3hot = false ∧
    after .ppsoSecond s (fun t => t.now == 1000000000) = true := by decide +kernel

/-! ## Tiles, contexts and keeper services -/

theorem witness_TileUpkeep :
    let e := fun (x : EngSt) => { State.reset with eng := x }
    let bad := e { scrub := true, scrubTile := 3071, wm := [(3071, 0)] }
    let ok := marked 3071 (e { scrub := true, scrubTile := 3071 })
    let q := e { quar := [3000, 2047, 0], stuck := [0] }
    let chk := e { checking := [(1023, 5)] }
    ok.pwr.mainRst = false ∧ ok.eng.scrub = true ∧ ok.eng.scrubTile ≤ 3071 ∧
    (bad.eng.scrub = true ∧ bad.eng.scrubTile = 3071 ∧ bad.quarantined 3071 = false) ∧
    (q.eng.refetch = none ∧ q.phase ≠ 3 ∧ (q.eng.quar.find? fun x => x < 2048 && !q.eng.stuck.contains x) = some 2047) ∧
    q.host.d3hot = false ∧ chk.eng.checking = [(1023, 5)] ∧ ok.wmOk 3071 = true := by
  exact ⟨by decide +kernel, by decide +kernel, by decide +kernel, by decide +kernel, by decide +kernel, by decide +kernel,
    by decide +kernel, marked_ok (by decide +kernel)⟩

theorem witness_GroupsHaltsRestarts :
    let s := fun (n : Nat) (x : CtxSt) => { st [(F.CTX_STS_state 63, 1), (F.CTX_STS_streak 63, n)] with eng := { ctxs := [(63, x)] } }
    let halted := { st [(F.CTX_STS_state 63, 2), (F.CTX_SAFE_DRIVES_drives 63, 0x80), (F.FLD_STS_state 7, 5)] with
      eng := { ctxs := [(63, { resumeNext := true })] } }
    let run := fun (i f : Nat) (k : Nat) => { tick (st [(F.CTX_STS_state 1, 1)]) 2 with
      eng := { ctxs := [(1, { group := .committed, felt := [(BitVec.ofNat 32 (0x1000000 * k + 0x10000 * i + f), 0x7FFF)] })] } }
    (let a := s 2 { group := .committed }
     a.f (F.CTX_STS_state 63) = 1 ∧ (a.ctx 63).group = .committed ∧ (a.ctx 63).felt = []) ∧
    (let a := s 2 { group := .discarded, cause := 15 }
     (a.ctx 63).group = .discarded ∧ (a.ctx 63).cause ≠ 3 ∧ (a.ctx 63).cause < 16) ∧
    (let a := s 2 { group := .discarded, cause := 3 }
     (a.ctx 63).group = .discarded ∧ (a.ctx 63).cause = 3) ∧
    (let a := s 0 {}
     (a.ctx 63).group = .opened) ∧
    (halted.pwr.mainRst = false ∧ halted.f (F.CTX_STS_state 63) = 2 ∧ (halted.f (F.CTX_SAFE_DRIVES_drives 63)).testBit 7 = true ∧
     ¬ driveAtRest halted 7 ∧ (halted.ctx 63).resumeNext = true ∧ (halted.ctx 63).haltNext = false ∧ driveAtRest halted 0) ∧
    (let a := run 7 2 1
     a.pwr.mainRst = false ∧ a.running = true ∧ a.tm.phase = 2 ∧ a.halted = false ∧ a.f (F.CTX_STS_state 1) = 1 ∧
     (∀ j < 64, j ≠ 1 → a.f (F.CTX_STS_state j) ≠ 1) ∧ (∀ n < 8, (a.core n).busy = false ∧ a.f (F.FLD_STS_state n) = 0) ∧
     a.held = [] ∧ a.refIgnored 7 (R.MOD_DUTY 7 2) = false ∧ a.refIgnored 7 (R.MOD_CMP 7 5) = false) := by unfold driveAtRest; decide +kernel

theorem witness_KeeperServices :
    let q := fun (svc : Nat) (a b : Word) (e : EngSt) => { st [(F.FLD_DECK_value 7 7, 0x1000)] with eng := { e with svcQ := [⟨63, svc, a, b, 9, 0⟩] } }
    let u := fun (a : Word) => getBits a 0 8
    let v := fun (a : Word) => getBits a 8 8
    State.reset.pwr.mainRst = false ∧ (q 1 0x707 0 {}).eng.svcQ = [⟨63, 1, 0x707, 0, 9, 0⟩] ∧
    (u 0x707 < State.reset.part.lanes ∧ v 0x707 < 8 ∧ State.reset.part.lanes ≤ u 0x008 ∧ 8 ≤ v 0x800) ∧
    (signed 16 (getBits 0x1000 0 16) ≤ (q 2 0x707 0x1000 {}).fi (F.FLD_DECK_value 7 7) ∧
     (q 2 0x707 0x1001 {}).fi (F.FLD_DECK_value 7 7) < signed 16 (getBits 0x1001 0 16)) ∧
    ((q 5 0 0 { fromSafety := [7] }).eng.fromSafety = [7] ∧ (q 5 0 0 {}).eng.fromSafety = []) ∧
    ((3071 : Word).toNat ≤ 3071 ∧ 3071 < (3072 : Word).toNat) ∧ (63 < 64 ∧ 7 < 8) := by decide +kernel

/-- R66: the answer of TILE_QUERY for the last tile, and the words it writes to the context's result address. -/
theorem test_tile_query :
    let s := { State.reset with eng := { svcQ := [⟨63, 6, 3071, 0, 0x10009, 0⟩], quar := [3071], sched := some { svcAddr := [(63, 0x1FFFF8)] } } }
    after .tileQuery s (fun t => t.reg (R.CTX_SVC_RESULT 63) == 1 && t.word (dataBase + 0x1FFFF8) == 1 &&
      t.word (dataBase + 0x1FFFFC) == 0x00090601 && t.eng.svcQ == []) = true := by decide +kernel

/-! ## Measurement -/

theorem witness_SincFilters :
    (16 ≤ 16 ∧ 256 ≤ 256 ∧ 8 ≤ 8 ∧ 32 ≤ 32) ∧ tripleSum (BitVec.allOnes 768) 16 = 4096 ∧ doubleSum 1 8 = 1 := by decide +kernel

/-- R104: one bit set in the window of a sinc3 filter of 16 bits weighs 1 of 4,096: −1 + 2/4096 in Q1.15. -/
theorem test_sinc3_one_bit : sinc3 1 16 = -32768 + 16 := by decide +kernel

theorem witness_SarSequence :
    let slots := fun (e : List (Nat × Nat × Nat)) => e.map fun x =>
      ((⟨R.SNS_SAR_SEQ (x.1 / 2), 16 * (x.1 % 2), 16⟩, 0x1010 + x.2.1 + 256 * x.2.2) : Fld × Nat)
    let s := st ((F.SNS_SAR_CTL_len_m1, 15) :: slots [(15, 0, 15)])
    let on := (force s [(F.SNS_SAR_CTL_en, 1), (F.SNS_SAR_STS_running, 1)])
    let run := tick on 1
    s.pwr.mainRst = false ∧ s.bit F.SNS_SAR_CTL_en = false ∧
    (on.running = false ∧ on.bit F.SNS_SAR_CTL_en = true ∧ (∀ k < 16, on.slotPort k = none) ∧ on.sarNamed.Nodup) ∧
    (run.running = true ∧ run.sarSlot 15 = true ∧ run.slotPort 15 = none ∧ run.sarEntryE 0 15 = some 0 ∧ run.sarEntryE 1 15 = some 15) ∧
    after .sarEnable s (fun t => t.f F.SNS_SAR_STS_error == 0 && t.bit F.SNS_SAR_CTL_en) = true ∧
    after .sarEnable (st ((F.SNS_SAR_CTL_len_m1, 0) :: slots [(0, 3, 3)])) (fun t => t.f F.SNS_SAR_STS_error == 1) = true ∧
    after .sarEnable (st ([(F.SNS_SAR_CTL_len_m1, 0), (F.SNS_AIN_CFG_role 3, 6)] ++ slots [(0, 3, 4)])) (fun t => t.f F.SNS_SAR_STS_error == 2) = true ∧
    after .sarEnable (force s [(F.FBK_CTL_en 0, 1), (F.FBK_CFG_mode 0, 2)]) (fun t => t.f F.SNS_SAR_STS_error == 3) = true := by decide +kernel

theorem witness_SigmaDeltaChannels :
    let s := fun (d n : Nat) => st [(F.SNS_SDC_CLK_div 3, d), (F.SNS_SD_CFG_osr_m1 39, n)]
    let fast := fun (n : Nat) => force (st []) [(F.SNS_SDC_CLK_div 0, 10), (F.SNS_SDC_CLK_en 0, 1), (F.SNS_SD_FAST_fosr_m1 39, n)]
    let lat := fun (n : Nat) => (n + 1) * (4 * (fast n).sdcDiv ((fast n).sdClk 39)) + 24
    let on := { force State.reset [(F.SNS_SD_CFG_en 39, 1), (F.SNS_SD_CFG_osr_m1 39, 15), (F.SNS_SDC_CLK_en 0, 1), (F.SNS_SDC_CLK_div 0, 10), (F.SNS_SD_FAST_fast_en 39, 1), (F.SNS_SD_FAST_fosr_m1 39, 7)] with
      sns := { sd := [(39, { count := 48 })] } }
    let off := force State.reset [(F.SNS_SD_CFG_en 39, 1)]
    (s 10 15).pwr.mainRst = false ∧ (s 10 15).bit (F.SNS_SDC_CLK_en 3) = false ∧ (s 50 15).f (F.SNS_SDC_CLK_div 3) = 50 ∧
    (s 9 15).f (F.SNS_SDC_CLK_div 3) = 9 ∧ (s 51 15).f (F.SNS_SDC_CLK_div 3) = 51 ∧
    ((s 10 15).bit (F.SNS_SD_CFG_en 39) = false ∧ 15 ≤ (s 10 15).f (F.SNS_SD_CFG_osr_m1 39) ∧ (s 10 15).f (F.SNS_SD_MAP_role 39) < 5 ∧
     ¬ 15 ≤ (s 10 14).f (F.SNS_SD_CFG_osr_m1 39)) ∧
    (lat 7 = 344 ∧ lat 24 = 1024 ∧ lat 23 = 984 ∧ (fast 6).f (F.SNS_SD_FAST_fosr_m1 39) + 1 = 7 ∧ (fast 7).bit (F.SNS_SD_FAST_fast_en 39) = false) ∧
    (on.bit (F.SNS_SD_CFG_en 39) = true ∧ on.sdcOn (on.fe (F.SNS_SD_CFG_clk_sel 39)) = true ∧ on.bit (F.SNS_SD_FAST_fast_en 39) = true ∧
     2 * (on.fe (F.SNS_SD_FAST_fosr_m1 39) + 1) - 1 ≤ min 768 ((on.sd 39).count + 1) ∧ on.running = false ∧ (tick on 1).running = true ∧
     3 * (on.fe (F.SNS_SD_CFG_osr_m1 39) + 1) ≤ (on.sd 39).count) ∧
    (off.bit (F.SNS_SD_CFG_en 39) = true ∧ off.sdcOn (off.fe (F.SNS_SD_CFG_clk_sel 39)) = false) := by decide +kernel

/-! ## Field control -/

/-- Unit 7 with settings that pass every check of R125, and the fields `fs`. -/
def machine (fs : List (Fld × Nat)) : State :=
  st ([F.FLD_BASE_I_value 7, F.FLD_BASE_V_value 7, F.FLD_BASE_N_value 7, F.FLD_BASE_T_value 7, F.FLD_MACH_LD_value 7,
    F.FLD_MACH_LQ_value 7, F.FLD_MACH_KT_value 7, F.FLD_MACH_PSI_value 7].map (fun x => (x, 0x3F800000)) ++
    [(F.FLD_ANGLE_pole_pairs 7, 1), (F.FLD_ALIGN_CFG_width 7, 500), (F.FLD_CATCH_CFG_width 7, 5000),
     (F.FLD_CATCH_CFG_pulses_m1 7, 7), (F.FLD_CATCH_CFG_spacing_m1 7, 1)] ++ fs)

theorem witness_FieldUnitEnable :
    let s := machine []
    let on := machine [(F.FLD_STS_state 7, 6)]
    let run := machine [(F.FLD_STS_state 7, 4)]
    s.pwr.mainRst = false ∧ 7 < s.part.lanes ∧ s.f (F.FLD_STS_state 7) = 0 ∧ on.f (F.FLD_STS_state 7) = 6 ∧
    run.f (F.FLD_STS_state 7) = 4 ∧ ∀ k < 7, ¬ (fldFails (machine []) 7).getD k False := by
  refine ⟨by decide +kernel, by decide +kernel, by decide +kernel, by decide +kernel, by decide +kernel, ?_⟩
  intro k hk
  interval_cases k <;> simp only [fldFails, List.getD_cons_zero, List.getD_cons_succ] <;> decide +kernel

/-- R125: a state that each check refuses, at the bound of its range. -/
theorem test_unit_codes :
    let code := fun (fs : List (Fld × Nat)) (c : Nat) => after (.fldEnable 7) (machine fs) fun t => t.f (F.FLD_STS_cfg_error 7) == c
    let other := [(F.FLD_STS_state 0, 6)]
    code [] 0 = true ∧ code [(F.FLD_BIND_conv 7, 3)] 1 = true ∧ code other 2 = true ∧ code [(F.FLD_BIND_conv 7, 2)] 3 = true ∧
    code [(F.FLD_OBS_CFG_bw 7, 9)] 4 = true ∧ code [(F.FLD_BASE_I_value 7, 0)] 5 = true ∧
    after (.fldEnable 7) { machine [(F.FLD_CTL_ref_mode 7, 1)] with eng := { quar := [2048] } } (fun t => t.f (F.FLD_STS_cfg_error 7) == 6) = true ∧
    code [(F.FLD_ALIGN_CFG_width 7, 499)] 7 = true ∧
    code [(F.FLD_CATCH_CFG_width 7, 5001)] 7 = true ∧ code [(F.FLD_CATCH_CFG_spacing_m1 7, 0)] 7 = true ∧
    code [(F.FLD_ALIGN_CFG_spacing_m1 7, 0), (F.FLD_ALIGN_CFG_width 7, 2500)] 0 = true ∧
    code [(F.FLD_ALIGN_CFG_spacing_m1 7, 0), (F.FLD_ALIGN_CFG_width 7, 2501)] 7 = true := by decide +kernel

theorem witness_FieldUnitEvents :
    let u := fun (fs : List (Fld × Nat)) (x : UnitSt) => { force State.reset ([(F.FLD_STS_state 7, 4)] ++ fs) with units := [(7, x)] }
    let r := fun (fs : List (Fld × Nat)) (x : UnitSt) => tick (u fs x) 2
    let a := r [(F.FLD_OBS_CFG_loss_k 7, 3)] { obsGood := 64, obsBad := 8 }
    let lr := r [(F.FLD_LR_CFG_window 7, 1), (F.FLD_LR_CFG_thr 7, 0)] { lrTime := 9980000 }
    let ovs := r [(F.FLD_OVS_CFG_limit 7, 1), (F.FLD_MEAS_speed 7, 2)] { ovs := 1, measOk := true }
    let rt := u [(F.FLD_STS_rt 7, 1)] { rtZero := 16 }
    let low := u [(F.FLD_STS_rt 7, 1), (F.FLD_RT_CFG_floor 7, 1)] { rtZero := 16, measOk := true }
    let mag := fun (n : Nat) => { u [(F.FLD_IM_CFG_mag 7, 1)] { seq := .magnetise } with tm := { State.reset.tm with now := n } }
    let seq := fun (q : Seq) (n : Nat) (caps : List (F32 × F32 × Nat)) => r [] { seq := q, pulse := 11, ticks := 22, d0 := n, width := 5000, caps := caps }
    let stop := fun (s : State) => s.tm.start + ((s.unit 7).d0 + (s.unit 7).pulse * s.spacing 7 - (s.unit 7).ticks) * s.periodNs
    let big := [((0x7F000000, 0, 500) : F32 × F32 × Nat)]
    State.reset.pwr.mainRst = false ∧ (a.f (F.FLD_STS_state 7) ≠ 0 ∧ a.running = true ∧ 64 ≤ (a.unit 7).obsGood) ∧
    ((a.unit 7).obsLost = false ∧ 2 ^ a.f (F.FLD_OBS_CFG_loss_k 7) ≤ (a.unit 7).obsBad) ∧
    (a.tm.phase = 2 ∧ a.halted = false ∧ (2, 7) ∉ a.prot.taken) ∧
    (let w := (lr.atCouch.unitWatch 7).unit 7
     lr.atCouch.f (F.FLD_LR_CFG_window 7) ≠ 0 ∧ w.lrHeld = false ∧ lr.atCouch.f (F.FLD_LR_CFG_window 7) * 10000000 ≤ w.lrTime) ∧
    (a.atCouch.f (F.FLD_LR_CFG_window 7) = 0) ∧
    (((ovs.unitWatch 7).unit 7).ovs = 2 ∧ ((a.unitWatch 7).unit 7).ovs ≠ 2) ∧
    ((u [] { rtLow := 2 }).f (F.FLD_STS_state 7) = 4 ∧ (u [] { rtLow := 2 }).bit (F.FLD_STS_rt 7) = false) ∧
    (rt.bit (F.FLD_STS_rt 7) = true ∧ 16 ≤ (rt.unit 7).rtZero ∧ (rt.unit 7).measOk = false) ∧
    (low.bit (F.FLD_STS_rt 7) = true ∧ (low.unit 7).measOk = true ∧ fLt (fAbs (low.unit 7).meas) (low.q15 (F.FLD_RT_CFG_floor 7)) = true) ∧
    ((u [] { limp := 1 }).limpPersists 7 = true ∧ (u [] {}).limpPersists 7 = false) ∧
    ((mag 0).unit 7).magAt + (mag 0).fe (F.FLD_IM_CFG_mag 7) * 10000000 = 10000000 ∧ (mag 10000000).now = 10000000 ∧ (mag 9999999).now < 10000000 ∧
    (let s := seq .align 0 []
     (s.unit 7).seq = .align ∧ (s.unit 7).pulseOn = false ∧ stop s - 4 * (s.unit 7).width < s.tm.start + s.periodNs) ∧
    (let s := seq .pulses 3 []
     s.tm.start + s.periodNs ≤ stop s - 4 * (s.unit 7).width) ∧
    (let s := seq .pulses 0 big
     fGt (fMag 0x7F000000 0) (s.q15 (F.FLD_CATCH_LIM_i_max 7)) = true ∧ (s.unit 7).caps.getLast? = some (0x7F000000, 0, 500)) := by
  decide +kernel

theorem witness_FieldTransitions :
    let u := fun (st safe cv run : Nat) (x : UnitSt) => { force State.reset [(F.FLD_STS_state 7, st), (F.FLD_STS_safe_state 7, safe),
      (F.PROT_CV_STS_state 1, cv), (F.FLD_BIND_conv 7, 2), (F.FLD_BIND_cv 7, 1), (F.FLD_REF5_run_req 7, run), (F.FLD_CTL_en 7, 1)] with units := [(7, x)] }
    let c := fun (v : Nat) (d : Nat) => { force State.reset [(F.FLD_STS_dir 7, d), (F.FLD_CRV_FWD_on 7, 0x1000), (F.FLD_CRV_FWD_off 7, 0x800),
      (F.FLD_CRV_AST_on 7, 0x1000), (F.FLD_CRV_AST_off 7, 0x800)] with units := [(7, { ovr := [(4, BitVec.ofNat 32 v)] })] }
    let q := fun (f : Fld) => fOfQ 16 15 ((c 0 0).fe f)
    ((u 5 4 0 0 {}).f (F.FLD_STS_safe_state 7) = 4 ∧ (u 5 4 0 0 { ever := true }).unitConv 7 = some 1) ∧
    (u 1 0 3 0 {}).f (F.PROT_CV_STS_state 1) = 3 ∧ (u 5 4 4 0 {}).f (F.PROT_CV_STS_state 1) = 4 ∧
    ((u 1 0 0 1 {}).runReq 7 = 1 ∧ ((u 1 0 0 1 {}).unit 7).runPrev = 0) ∧ ((u 1 0 0 1 { runPrev := 1 }).unit 7).runPrev ≠ 0 ∧
    ((u 4 0 0 0 {}).runReq 7 = 0 ∧ (u 4 0 0 2 {}).runReq 7 = 2 ∧ (u 4 0 0 3 {}).runReq 7 = 3) ∧
    (u 5 0 0 1 {}).runReq 7 = 1 ∧ (u 6 2 0 0 {}).f (F.FLD_STS_state 7) = 6 ∧
    (tblGet 0 ((c 0x7FC00000 0).unit 7).ovr 4 = 0x7FC00000 ∧ fIsNan 0x7FC00000 = true) ∧
    (fLe (q (F.FLD_CRV_FWD_on 7)) 0x3E000000 = true ∧ fLe (q (F.FLD_CRV_FWD_on 7)) 0x3DFFFFFF = false) ∧
    (fLe 0xBE000000 (fNeg (q (F.FLD_CRV_AST_on 7))) = true ∧ fLe 0xBDFFFFFF (fNeg (q (F.FLD_CRV_AST_on 7))) = false) ∧
    (fLt 0x3D7FFFFF (q (F.FLD_CRV_FWD_off 7)) = true ∧ fLt 0x3D800000 (q (F.FLD_CRV_FWD_off 7)) = false) := by decide +kernel

/-! ## Modulation -/

/-- Domain 7 with leg 17 in slot 5 and a carrier of 1,250 counts, in force, and the fields `fs`. -/
def carrier (m : MdSt) (l : LegSt) (fs : List (Fld × Nat)) : State :=
  { force State.reset ([(F.MOD_CTL_topo 7, 2), (F.MOD_CTL_bridge 7, 5), (F.PROT_CV_STS_state 7, 0), (F.MOD_PERIOD_half 7, 1250), (F.MOD_RELOAD_evt 7, 1),
      (F.GATE_CFG_assigned 17, 1), (F.GATE_CFG_md 17, 7), (F.GATE_CFG_slot 17, 5)] ++ fs) with
    mds := [(7, { m with ever := true })], legs := [(17, l)], gateNet := true }

theorem witness_DomainEnable :
    let s := carrier {} {} []
    let bound := tick (carrier {} {} [(F.MOD_CTL_bind 7, 1), (F.MOD_CTL_en 7, 1), (F.MOD_STS_waiting 7, 1)]) 3
    let bad := tick (carrier {} {} [(F.MOD_CTL_bind 7, 1), (F.MOD_CTL_en 7, 1), (F.MOD_STS_waiting 7, 1), (F.MOD_PERIOD_half 7, 1251)]) 3
    let fits := fun (s : State) => s.tm.period % (if s.fe (F.MOD_RELOAD_evt 7) = 3 then (s.fe (F.MOD_RELOAD_n_m1 7) + 1) * s.mdP 7
      else (s.fe (F.MOD_RELOAD_n_m1 7) + 1) * (2 * s.mdP 7))
    s.pwr.mainRst = false ∧ s.bit (F.MOD_CTL_en 7) = false ∧ s.bit (F.MOD_CTL_bind 7) = false ∧ s.f (F.MOD_PHASE_offset 7) = 0 ∧
    s.tm.holdLag = none ∧
    (bound.running = true ∧ bound.tm.phase = 3 ∧ bound.tm.stopping = false ∧ bound.halted = false ∧ bound.bit (F.MOD_CTL_en 7) = true ∧
     bound.bitE (F.MOD_CTL_bind 7) = true ∧ bound.mdOn 7 = false ∧ fits bound = 0) ∧
    (bad.bit (F.MOD_STS_waiting 7) = true ∧ fits bad ≠ 0) ∧ ∀ k < 7, ¬ (modFails (carrier {} {} []) 7 5000).getD k False := by
  refine ⟨by decide +kernel, by decide +kernel, by decide +kernel, by decide +kernel, by decide +kernel, by decide +kernel,
    by decide +kernel, ?_⟩
  have one : ∀ k < 18, (carrier {} {} []).bit (F.GATE_CFG_assigned k) = true → k = 17 := by decide +kernel
  intro k hk
  interval_cases k <;> simp only [modFails, List.getD_cons_zero, List.getD_cons_succ, and_assoc]
  · decide +kernel
  · rintro (h | h | ⟨k, m, hk, hk', -, hm, hm', -, hne, -⟩ | h)
    · revert h; decide +kernel
    · revert h; decide +kernel
    · exact hne ((one k hk hk').trans (one m hm hm').symm)
    · revert h; decide +kernel
  all_goals decide +kernel

/-- R173: a state that each check refuses, at the bound of its range. -/
theorem test_domain_codes :
    let code := fun (fs : List (Fld × Nat)) (c : Nat) => after (.modEnable 7) (carrier {} {} fs) fun t => t.f (F.MOD_STS_error 7) == c
    code [] 0 = true ∧ code [(F.MOD_CTL_topo 7, 3)] 1 = true ∧ code [(F.GATE_CFG_assigned 17, 0)] 2 = true ∧
    code [(F.MOD_PERIOD_half 7, 1249)] 3 = true ∧ code [(F.MOD_PERIOD_half 7, 250000)] 0 = true ∧ code [(F.MOD_PERIOD_half 7, 250001)] 3 = true ∧
    code [(F.MOD_PHASE_offset 7, 2499)] 0 = true ∧ code [(F.MOD_PHASE_offset 7, 2500)] 3 = true ∧ code [(F.MOD_RELOAD_evt 7, 0)] 4 = true ∧
    code [(F.MOD_CTL_bind 7, 1), (F.MOD_PERIOD_half 7, 1251)] 5 = true ∧
    code [(F.GATE_STS_enabled 17, 1), (F.GATE_DT_dt 17, 4000), (F.GATE_MINP_t_min 17, 1001)] 6 = true ∧
    code [(F.GATE_STS_enabled 17, 1), (F.GATE_DT_dt 17, 4000), (F.GATE_MINP_t_min 17, 1000)] 0 = true := by decide +kernel

theorem witness_DutyToCompare :
    (0x0001 : BitVec 16).toInt = 1 ∧ (0x7FFF : BitVec 16).toInt = 0x7FFF ∧ (0x7FFE : BitVec 16).toInt ≠ 0x7FFF ∧
    0 < npcOuter 0x4001 ∧ ¬ 0 < npcOuter 0x4000 := by decide +kernel

/-- R178: half of a carrier half period of 10 µs. -/
theorem test_half_duty : dutyCmp 0x4000 10000 = 5000 := by decide +kernel

theorem witness_CarrierAndReload :
    let s := fun (m : MdSt) (fs : List (Fld × Nat)) => carrier m {} ([(F.MOD_STS_running 7, 1), (F.MOD_CTL_en 7, 1)] ++ fs)
    let md0 := fun (o : Nat) => { force State.reset [(F.MOD_SYNC_in_en 0, 1), (F.MOD_PERIOD_half 0, 1250), (F.MOD_STS_running 0, 1), (F.MOD_SYNC_offset 0, o)] with
      mds := [(0, { ever := true })] }
    let owner := owned (s {} []) {}
    let unit := force (s {} []) [(F.FLD_STS_state 0, 1), (F.FLD_BIND_md 0, 7), (F.FLD_CTL_cc_src 0, 0)]
    ((s {} []).pwr.mainRst = false ∧ (s {} []).halted = false ∧ (s {} []).mdOn 7 = true ∧ (s {} []).tm.holdLag = none) ∧
    (((s { up := false } []).md 7).up = false ∧ ((s { up := true } []).md 7).up = true ∧ ((s { due := true } []).md 7).due = true) ∧
    ((s {} []).refWriter 7 = .host ∧ (s {} []).topo 7 = some 2 ∧ owner.refWriter 7 = .ctx 0 ∧ unit.refWriter 7 = .unit) ∧
    ((s {} [(F.MOD_HOST_CTL_hold 7, 1)]).bit (F.MOD_HOST_CTL_hold 7) = true ∧ (carrier {} {} [(F.MOD_HOST_CTL_hold 7, 1)]).mdOn 7 = false) ∧
    ((md0 0).mdOn 0 = true ∧ (md0 0).bitE (F.MOD_SYNC_in_en 0) = true ∧ (md0 0).bitE (F.MOD_CTL_bind 0) = false) ∧
    ((md0 0).fe (F.MOD_SYNC_offset 0) = 0 ∧ (md0 1250).fe (F.MOD_SYNC_offset 0) ≤ (md0 1250).mdP 0 ∧ (md0 1251).mdP 0 < (md0 1251).fe (F.MOD_SYNC_offset 0)) ∧
    (let a := s { reloadAt := some 1 } []
     (a.md 7).reloadAt.any (fun r => r / 4 == a.now / 4) = true) ∧
    (let a := s { notBefore := 1 } []
     a.now < (a.md 7).notBefore) := by decide +kernel

theorem witness_LegCommands :
    let s := fun (l : LegSt) (fs : List (Fld × Nat)) => carrier { zero := 0, up := true } l ([(F.MOD_STS_running 7, 1), (F.GATE_STS_enabled 17, 1),
      (F.GATE_CMD_en 17, 1)] ++ fs)
    let on := s { h := true, pend := some (true, 200) } []
    let ref := s { refUntil := some 500, ol := true } []
    let boot := { s { refCnt := 1, period := some 0 } [(F.GATE_CFG_supply 17, 1), (F.GATE_BOOT_k_m1 17, 0)] with tm := { State.reset.tm with now := 0 } }
    let edge := fun (c tmin : Nat) => s {} [(F.MOD_ACT_value 7 5, c), (F.GATE_MINP_t_min 17, tmin)]
    (on.pwr.mainRst = false ∧ on.bit (F.GATE_CMD_en 17) = true ∧ (carrier {} {} []).bit (F.GATE_CMD_en 17) = false ∧
     on.bit (F.GATE_STS_enabled 17) = true ∧ (carrier {} {} []).bit (F.GATE_STS_enabled 17) = false) ∧
    ((s {} []).leg 17).late = none ∧ ((s {} []).leg 17).pend = none ∧
    ((on.leg 17).pend = some (true, 200) ∧ (on.leg 17).late = none ∧ on.npcPartner 17 = none ∧ on.halted = false ∧ on.legAsk 17 = (true, false) ∧
     (on.leg 17).gl = false ∧ (on.leg 17).gh = false ∧ (on.leg 17).refUntil = none ∧ 4 ≤ on.legRank 17) ∧
    ((ref.leg 17).refUntil = some 500 ∧ (ref.leg 17).ol = true ∧ ref.halted = false) ∧
    (boot.bit (F.GATE_CFG_supply 17) = true ∧ boot.fe (F.GATE_BOOT_k_m1 17) + 1 ≤ (boot.leg 17).refCnt ∧ (boot.leg 17).refUntil = none ∧
     6 ≤ boot.legRank 17 ∧ (boot.leg 17).period = some boot.now) ∧
    (∀ c ∈ [1, 4999], let a := edge c 0
      a.slotLeg 7 5 = some 17 ∧ a.mdOn 7 = true ∧ a.tm.holdLag = none ∧ a.legRank 17 = 7 ∧ (a.md 7).up = true ∧ 0 < a.actCmp 7 5 ∧
      a.actCmp 7 5 < a.mdH 7 ∧ (a.now : Int) < (a.md 7).zero + a.mdH 7 - a.actCmp 7 5 ∧ (a.leg 17).h = false ∧ (a.leg 17).drop = none) ∧
    ∀ k < 5, ¬ (legFails (carrier {} {} []) 17).getD k False := by
  refine ⟨by decide +kernel, by decide +kernel, by decide +kernel, by decide +kernel, by decide +kernel, by decide +kernel,
    by decide +kernel, ?_⟩
  intro k hk
  interval_cases k <;> simp only [legFails, List.getD_cons_zero, List.getD_cons_succ] <;> decide +kernel

/-- R191: a state that each check refuses, at the bound of its range. -/
theorem test_leg_codes :
    let code := fun (fs : List (Fld × Nat)) (c : Nat) => after (.legEnable 17) (carrier {} {} fs) fun t => t.f (F.GATE_STS_cfg_error 17) == c
    let twin := [(F.GATE_CFG_assigned 16, 1), (F.GATE_CFG_md 16, 7), (F.GATE_CFG_slot 16, 5), (F.GATE_STS_enabled 16, 1)]
    code [] 0 = true ∧ code twin 1 = true ∧ code [(F.GATE_DT_dt 17, 8001)] 2 = true ∧ code [(F.GATE_MINP_t_min 17, 2001)] 3 = true ∧
    code [(F.GATE_CFG_supply 17, 1), (F.GATE_BOOT_width 17, 99)] 4 = true ∧ code [(F.GATE_DT_dt 17, 4000), (F.GATE_MINP_t_min 17, 1001)] 5 = true ∧
    code [(F.GATE_DT_dt 17, 4000), (F.GATE_MINP_t_min 17, 1000)] 0 = true := by decide +kernel

/-! ## Kynor cell link -/

/-- Lane 15 in state `x`, with a chain of `c`. -/
def link (x c : Nat) (k : KynSt) : State :=
  { force State.reset [(F.KYN_LANE_STS_state 15, x), (F.KYN_LANE_CTL_chain 15, c)] with kyn := [(15, k)] }

theorem witness_UplinkFrameLayout :
    (List.replicate 24 (List.replicate 8 (0 : Byte))).length ≤ 24 ∧ (∀ sl ∈ List.replicate 24 (List.replicate 8 (0 : Byte)), sl.length = 8) ∧
    [1, 2, 3, 4, 5, 6, (7 : Byte)].length = 7 ∧ (List.replicate 5 (0 : Byte)).length < 6 := by decide +kernel

/-- Check values of the CRC-8 (R201) and of the CRC-16 (R204) over "123456789". -/
theorem test_crc_check_values :
    let bs := [0x31, 0x32, 0x33, 0x34, 0x35, 0x36, 0x37, 0x38, (0x39 : Byte)]
    crc8 bs = 0xDF ∧ crc16 bs = 0x29B1 := by decide +kernel

theorem witness_LaneStatesAndFrames :
    let halt := { link 3 24 {} with eng := { haltAt := some 0 } }
    let run := fun (c : Nat) => { tick (link 0 c {}) 1 with tm := { (tick (link 0 c {}) 1).tm with period := 3124 } }
    let burst := tick (link 4 24 { run := true }) 3
    let ready := link 3 24 { dn := 2000, ahead := [(1000, 9)], due := some (2000, 9) }
    let tr : Nat → BitVec 16 := fun p => BitVec.ofNat 16 (4000 - 100 * p)
    let delta := fun (p : Nat) => (4000 - (tr p).toNat) / 2
    let up := fun (r : Bool) => { link 4 24 { run := r, due := some (0, 7) } with tm := { State.reset.tm with now := 5 } }
    (halt.pwr.mainRst = false ∧ 15 < halt.part.kynLanes ∧ halt.laneState 15 = 3 ∧ halt.halted = true) ∧
    ((link 0 24 {}).laneState 15 = 0 ∧ (link 0 24 {}).f (F.KYN_LANE_CTL_chain 15) = 24 ∧ (link 0 25 {}).f (F.KYN_LANE_CTL_chain 15) = 25) ∧
    ((run 6).running = true ∧ chainLimit (run 6).tm.period = 6 ∧ (run 7).f (F.KYN_LANE_CTL_chain 15) = 7) ∧
    ((∀ k ∈ [1, 2, 3, 4, 5], (link k 1 {}).laneState 15 = k ∧ (link k 1 {}).halted = false) ∧ (link 1 1 {}).tm.holdLag = none) ∧
    (∀ q < 24, (q = 23 → q < (link 3 24 {}).chain 15) ∧ (link 3 24 {}).cellOwner (24 * 15 + q) = none) ∧
    ((∀ p < 24, (tr p).toNat ≤ 4000) ∧ (∀ p, p < 23 → delta p < delta (p + 1)) ∧ counts4 (downReq 24 delta) ≤ 1500 ∧
     counts4 (downReq 1 fun _ => 32767) = 8445) ∧
    upOk [] = false ∧ slotOk [1, 2, 3, 4, 5, 6, 7, 0] = false ∧
    (ready.laneState 15 = 3 ∧ (∀ e ∈ (ready.lane 15).ahead, e.1 ≤ ready.now + (ready.lane 15).dn) ∧ (ready.lane 15).due = some (2000, 9)) ∧
    (burst.laneState 15 = 4 ∧ (burst.lane 15).run = true ∧ burst.running = true ∧ burst.tm.phase = 3) ∧
    (∀ r, (up r).laneState 15 = 4 ∧ ((up r).lane 15).due = some (0, 7) ∧ ((up r).lane 15).run = r ∧
      (((up r).lane 15).got = false ∧ (up r).now ≤ 0 + 5)) := by decide +kernel

/-! ## Arms and cells -/

/-- Arm 11 with the last two cells of lane 15 in its slots 0 and 1, and the fields `fs`. -/
def arm (fs : List (Fld × Nat)) : State :=
  st ([(F.ARM_CFG_active 11, 1), (F.ARM_CFG_spares 11, 1), (F.ARM_RED_min_active 11, 1), (F.ARM_VNOM_vnom 11, 1),
    (F.ARM_CELL_CFG_mapped 382, 1), (F.ARM_CELL_CFG_arm 382, 11), (F.ARM_CELL_CFG_slot 382, 0), (F.ARM_CELL_CFG_mapped 383, 1),
    (F.ARM_CELL_CFG_arm 383, 11), (F.ARM_CELL_CFG_slot 383, 1), (F.KYN_LANE_STS_state 15, 3), (F.KYN_LANE_CTL_chain 15, 24)] ++ fs)

theorem witness_ArmCommands :
    let s := arm []
    let unit := force (arm [(F.ARM_CTL_en 11, 1)]) [(F.FLD_STS_state 0, 1), (F.FLD_BIND_conv 0, 2), (F.FLD_BIND_cv 0, 1)]
    let bound := { unit with units := [(0, { ever := true })] }
    let on := arm [(F.ARM_CTL_en 11, 1), (F.ARM_STS_enabled 11, 1), (F.ARM_CELL_STS_state 383, 2), (F.ARM_BALCFG_ticks 11, 1)]
    let late := tick { arm [(F.ARM_STS_enabled 11, 1), (F.ARM_CELL_STS_state 383, 3)] with cells := [(383, { order := true, couches := 15 })] } 2
    let lim := { on with arms := [(11, { spread := 1, circ := 1 })] }
    s.pwr.mainRst = false ∧ s.part.mmc = true ∧ s.bit (F.ARM_CTL_en 11) = false ∧ s.f (F.ARM_CFG_active 11) ≠ 0 ∧
    State.reset.f (F.ARM_CFG_active 11) = 0 ∧
    (bound.bit (F.ARM_CTL_en 11) = true ∧ bound.boundUnits 1 ≠ [] ∧ on.bit (F.ARM_CTL_en 11) = true ∧ on.boundUnits 1 = []) ∧
    (on.cellOwner 383 ≠ none ∧ on.cellState 383 = 2 ∧ (on.cell 383).fail = none ∧ s.cellOwner 383 = none ∧ s.f (F.ARM_CELL_CFG_arm 383) = 11) ∧
    (late.cellOwner 383 = some 11 ∧ late.cellState 383 = 3 ∧ (late.cell 383).order = true ∧ (late.cell 383).flags.testBit 4 = false ∧
     15 ≤ (late.cell 383).couches ∧ (late.cell 383).unconf = false ∧ late.running = true ∧ late.tm.phase = 2 ∧ late.halted = false ∧
     (4, 11) ∉ late.prot.taken) ∧
    (lim.bit (F.ARM_STS_enabled 11) = true ∧ lim.f (F.ARM_BALCFG_ticks 11) = (lim.arm 11).spread ∧ (lim.arm 11).spreadUp = false ∧
     lim.f (F.ARM_BALCFG_ticks 11) = (lim.arm 11).circ ∧ (lim.arm 11).circUp = false) := by decide +kernel

/-- R227: an enable that passes and one that each check refuses, at the bound of its range. -/
theorem test_arm_codes :
    let code := fun (fs : List (Fld × Nat)) (c : Nat) => after (.armEnable 11) (force (arm fs) []) fun t => t.f (F.ARM_STS_error 11) == c
    code [] 0 = true ∧ code [(F.ARM_CFG_active 11, 65)] 1 = true ∧ code [(F.ARM_RED_min_active 11, 2)] 1 = true ∧
    code [(F.ARM_CELL_CFG_slot 383, 0)] 2 = true ∧ code [(F.ARM_CELL_CFG_slot 383, 2)] 2 = true ∧
    code [(F.KYN_LANE_CTL_chain 15, 23)] 3 = true ∧ code [(F.KYN_LANE_STS_state 15, 2)] 3 = true ∧ code [(F.ARM_VNOM_vnom 11, 0)] 4 = true ∧
    code [(F.ARM_CFG_mode 11, 2)] 5 = true := by decide +kernel

theorem witness_CellSelection :
    let cells : List (Nat × F32) := [(0, 0x3F800000), (1, 0x40000000), (63, 0x7FC00000)]
    let s := force (arm []) [(F.ARM_STS_enabled 11, 1), (F.ARM_CFG_mode 11, 1), (F.ARM_CELL_STS_state 382, 1), (F.ARM_CELL_STS_state 383, 1)]
    (cells.map Prod.fst).Nodup ∧ cells.length ≤ 64 ∧ 3 ≤ cells.length ∧
    (s.bit (F.ARM_STS_enabled 11) = true ∧ s.fe (F.ARM_CFG_mode 11) = 1 ∧ s.armPlan 1 = none ∧ s.armOverride 1 = none ∧
     ((s.armIn 11 1).map Prod.fst).Nodup ∧ (s.armIn 11 1)[1]? = some (1, 383)) ∧
    (cells.filter fun e => [0, 63].contains e.1).length = 2 := by decide +kernel

/-- R235: CHARGE ranks the lower voltage better, DISCHARGE the higher, a NaN last. -/
theorem test_ranking :
    let cells : List (Nat × F32) := [(0, 0x3F800000), (1, 0x40000000), (63, 0x7FC00000)]
    (nlmSet 1 1 0 0 [] cells).1 = [0] ∧ (nlmSet 2 1 0 0 [] cells).1 = [1] ∧ (nlmSet 2 2 0 0 [] cells).2.1 = some 63 := by decide +kernel

/-- R238: a width of 5 µs at offset 0 begins with on; one of 499 ns is left out; one that wraps begins with off. -/
theorem test_psc_slots :
    (pscSlot 5000 0 20000).c0 = 1 ∧ pscSlot 499 0 20000 = { c0 := 2 } ∧ pscSlot 19501 0 20000 = { c0 := 1 } ∧
    (pscSlot 10000 15000 20000).c0 = 2 := by decide +kernel

/-! ## Protection -/

/-- Converter 7 (bridge 5), enabled, in `x` by class `c`, with the fields `fs` in force and the net active. -/
def conv (x c : Nat) (fs : List (Fld × Nat)) : State :=
  { force State.reset ([(F.PROT_CV_CTL_en 7, 1), (F.PROT_CV_STS_state 7, x), (F.PROT_CV_STS_class 7, c)] ++ fs) with gateNet := true }

theorem witness_FaultInputs :
    let gf := conv 0 0 [(F.PROT_GF_en 17, 1), (F.PROT_GF_filt 17, 50)]
    let blank := conv 0 0 [(F.PROT_GF_en 17, 1), (F.PROT_GF_in_blank 17, 1)]
    let legs := { conv 0 0 [(F.MOD_CTL_bridge 7, 5), (F.GATE_CFG_assigned 17, 1), (F.GATE_CFG_md 17, 7)] with mds := [(7, { ever := true })] }
    let drdy := conv 0 0 [(F.PROT_DRDY_CFG_en, 0x20), (F.PROT_DRDY_CFG_filt, 255), (F.PROT_DRDY_STS_ready, 0x20)]
    let oc := { force (conv 0 0 [(F.SNS_SD_CFG_en 39, 1), (F.SNS_SD_MAP_role 39, 4), (F.SNS_SD_MAP_arm 39, 11)]) [] with
      sns := { sd := [(39, { hi := true, lo := true })] } }
    let ov2 := { conv 0 0 [(F.PROT_CV_DC_ov2_en 7, 1), (F.PROT_CV_DC_sd_ch 7, 39)] with sns := { sd := [(39, { hi := true })] } }
    let uv := fun (v : Word) => { tick (conv 0 0 [(F.PROT_CV_STS_uv_armed 7, 1), (F.PROT_CV_DC_uv 7, 0x1000), (F.PROT_CV_DC_drive 7, 7)]) 2 with
      eng := { headbox := [(0x1D0, v)] }, prot := { convs := [(7, { uvLow := 1, vdcBad := 2 })] } }
    let trip := conv 0 0 [(F.PROT_TRIP_CFG_en 7, 1), (F.PROT_TRIP_CFG_filter 7, 49), (F.PROT_TRIP_CFG_action 7, 4), (F.PROT_TRIP_CFG_mask 7, 0x80)]
    (gf.pwr.mainRst = false ∧ 4 * gf.f (F.PROT_GF_filt 17) = 200 ∧ gf.bit (F.PROT_GF_en 17) = true ∧ gf.bit (F.PROT_GF_in_blank 17) = false ∧
     gf.bit (F.PROT_GF_act 17) = false ∧ gf.npcPartner 17 = none) ∧
    (blank.bit (F.PROT_GF_in_blank 17) = true ∧ blank.bit (F.PROT_GF_en 17) = true ∧ State.reset.legBridge 17 = none) ∧
    (legs.legBridge 17 = some 5 ∧ legs.f (F.PROT_CV_STS_state 7) = 0) ∧
    (4 * drdy.f F.PROT_DRDY_CFG_filt < 1021 ∧ (drdy.f F.PROT_DRDY_CFG_en).testBit 5 = true ∧ (drdy.f F.PROT_DRDY_STS_ready).testBit 5 = true) ∧
    (oc.ocConv 39 = some 1 ∧ (oc.sd 39).hi = true ∧ (oc.sd 39).lo = true ∧ State.reset.ocConv 39 = none ∧ ∀ k < 8, State.reset.dcChannel k 39 = false) ∧
    (ov2.dcChannel 7 (ov2.fe (F.PROT_CV_DC_sd_ch 7)) = true ∧ (ov2.sd (ov2.fe (F.PROT_CV_DC_sd_ch 7))).hi = true) ∧
    (let s := uv 0x3EFFFFFF
     s.running = true ∧ s.tm.phase = 2 ∧ s.halted = false ∧ s.bit (F.PROT_CV_CTL_en 7) = true ∧ (0, 7) ∉ s.prot.taken ∧
     fIsNan (s.convVdc 7) = false ∧ fLt (s.convVdc 7) (s.level (F.PROT_CV_DC_uv 7)) = true ∧ 1 ≤ (s.conv 7).uvLow ∧
     s.bit (F.PROT_CV_STS_uv_armed 7) = true) ∧
    (let s := uv 0x7FC00000
     fIsNan (s.convVdc 7) = true ∧ 2 ≤ (s.conv 7).vdcBad ∧ (1, 7) ∉ s.prot.taken) ∧
    fLt ((uv 0x3F000000).convVdc 7) ((uv 0x3F000000).level (F.PROT_CV_DC_uv 7)) = false ∧
    (max 50 (min 10000 (trip.f (F.PROT_TRIP_CFG_filter 7))) = 50 ∧ trip.bit (F.PROT_TRIP_CFG_en 7) = true ∧
     (trip.f F.PROT_TRIP_STS_active).testBit 7 = false ∧ trip.f (F.PROT_TRIP_CFG_action 7) = 4 ∧
     (trip.f (F.PROT_TRIP_CFG_mask 7)).testBit 7 = true) := by decide +kernel

/-- R266: TRIP7 held for its filter demands PULSE_BLOCK of converter 7 in class 5. -/
theorem test_trip_at_the_filter :
    let s := conv 0 0 [(F.PROT_TRIP_CFG_en 7, 1), (F.PROT_TRIP_CFG_filter 7, 50), (F.PROT_TRIP_CFG_action 7, 1), (F.PROT_TRIP_CFG_mask 7, 0x80)]
    let act := s.bit (F.PROT_TRIP_CFG_pol 7)
    after (.tripInput ⟨7, act, 50⟩) s (fun t => t.f (F.PROT_CV_STS_state 7) == 1 && t.f (F.PROT_CV_STS_class 7) == 5) = true ∧
    after (.tripInput ⟨7, act, 49⟩) s (fun t => t.f (F.PROT_CV_STS_state 7) == 0) = true := by decide +kernel

theorem witness_SafeStateDecision :
    let s := conv 1 10 []
    let new := st [(F.PROT_CV_DC_uv 7, 0x1000), (F.PROT_CV_CTL_uv_arm 7, 0x1001), (F.PROT_CV_LVL_ov1 7, 0x1001), (F.PROT_CV_LVL_ov1_top 7, 0x1002)]
    let ends := { s with prot := { convs := [(7, { release := true })] } }
    s.pwr.mainRst = false ∧ s.convExists 7 = true ∧ s.bit (F.PROT_CV_CTL_en 7) = true ∧ s.f (F.PROT_CV_STS_state 7) ≠ 0 ∧
    (conv 0 0 []).f (F.PROT_CV_STS_state 7) = 0 ∧ s.demandChanges 7 10 = false ∧ (new.bit (F.PROT_CV_CTL_en 7) = false ∧ new.convExists 7 = true) ∧
    after (.protEnable 7) new (fun t => t.f (F.PROT_CV_STS_error 7) == 0 && t.bit (F.PROT_CV_CTL_en 7)) = true ∧
    (ends.conv 7).release = true ∧ (4 : BitVec 3).toNat ≤ 4 ∧
    ((conv 4 9 [(F.PROT_CV_POL2_ramp_max 7, 1)]).f (F.PROT_CV_STS_state 7) = 4 ∧ (conv 4 9 [(F.PROT_CV_POL2_ramp_max 7, 1)]).f (F.PROT_CV_POL2_ramp_max 7) ≠ 0) ∧
    ¬ ∃ p ∈ holdCauses (conv 1 10 []) 7, p := by
  refine ⟨by decide +kernel, by decide +kernel, by decide +kernel, by decide +kernel, by decide +kernel, by decide +kernel, by decide +kernel,
    by decide +kernel, by decide +kernel, by decide +kernel, by decide +kernel, ?_⟩
  have ctx : ∀ c < 64, (conv 1 10 []).f (F.CTX_STS_state c) ≠ 2 := by decide +kernel
  rintro ⟨p, hp, h⟩
  simp only [holdCauses, List.mem_cons, List.not_mem_nil, or_false] at hp
  rcases hp with rfl | rfl | rfl | rfl | rfl | rfl | rfl | rfl
  case inr.inr.inr.inr.inr.inr.inl =>
    rcases h with h | ⟨c, hc, h2, -⟩ | h | h
    · revert h; decide +kernel
    · exact ctx c hc h2
    · revert h; decide +kernel
    · revert h; decide +kernel
  all_goals revert h; decide +kernel

/-- R282: the codes of a refused PROT_CV_CTL.en. -/
theorem test_protection_codes :
    let code := fun (k : Fin 8) (fs : List (Fld × Nat)) (c : Nat) => after (.protEnable k)
      (st ([(F.PROT_CV_DC_uv k, 0x1000), (F.PROT_CV_CTL_uv_arm k, 0x1001), (F.PROT_CV_LVL_ov1 k, 0x1001), (F.PROT_CV_LVL_ov1_top k, 0x1002)] ++ fs))
      fun t => t.f (F.PROT_CV_STS_error k) == c
    code 7 [] 0 = true ∧ code 7 [(F.PROT_CV_DC_uv 7, 0x1001)] 3 = true ∧ code 7 [(F.PROT_CV_LVL_ov1_top 7, 0x1001)] 3 = true ∧
    code 7 [(F.PROT_CV_DC_ov2_en 7, 1), (F.PROT_CV_DC_sd_ch 7, 40)] 4 = true := by decide +kernel

theorem witness_ChoppersAndDiagnosis :
    let chop := fun (v : Word) (on : Nat) (x : ChopSt) => { tick (conv 0 0 [(F.PROT_CHP_CFG_en 3, 1), (F.PROT_CHP_CFG_src 3, 7), (F.PROT_CV_DC_drive 7, 7),
      (F.PROT_CHP_STS_on 3, on), (F.PROT_CHP_LVL_on 3, 0x2000), (F.PROT_CHP_LVL_off 3, 0x1000), (F.PROT_CHP_CFG_min_on 3, 1), (F.PROT_CHP_CFG_min_off 3, 1)]) 2 with
      eng := { headbox := [(0x1D0, v)] }, prot := { chops := [(3, x)] } }
    let idle := chop 0 0 {}
    let halt := { chop 0 0 {} with eng := { haltAt := some 0 } }
    let cf := conv 0 0 [(F.PROT_CHP_CFG_cf_en 3, 1)]
    let diag := fun (k st : Nat) => { conv 1 10 [(F.PROT_DIAG_STS_busy, 1)] with prot := { diag := { conv := k, step := st } } }
    let read := fun (m : Nat) (r : Tbl F32) => { st [(F.PROT_DIAG_CFG_mode, m), (F.PROT_DIAG_LVL_lo_lvl, 0x1000), (F.PROT_DIAG_LVL_dcp_margin, 0x1000)] with
      prot := { diag := { reads := r } } }
    let dcp := fun (s : State) (x : Nat) => fLe (fsub (s.diagRead 0 3) (s.level F.PROT_DIAG_LVL_dcp_margin)) (s.diagRead 0 x)
    let one : Tbl F32 := [(0, 0x3F800000), (3, 0x3F800000)]
    (idle.pwr.mainRst = false ∧ idle.running = true ∧ idle.eng.haltAt = none ∧ halt.eng.haltAt ≠ none ∧ (conv 0 0 []).running = false) ∧
    (let s := chop 0x3F800000 0 {}
     s.bit (F.PROT_CHP_CFG_en 3) = true ∧ fIsNan (s.convVdc 7) = false ∧ s.bit (F.PROT_CV_CTL_en 7) = true ∧ s.bit (F.PROT_CHP_STS_fault 3) = false ∧
     fLe (fOfQ 16 13 (s.f (F.PROT_CHP_LVL_on 3))) (s.convVdc 7) = true ∧ s.f (F.PROT_CHP_CFG_min_off 3) ≤ (s.chop 3).run + 1) ∧
    (let s := chop 0x3F000000 1 {}
     s.bit (F.PROT_CHP_STS_on 3) = true ∧ fLe (s.convVdc 7) (fOfQ 16 13 (s.f (F.PROT_CHP_LVL_off 3))) = true) ∧
    fLe ((chop 0x3F000001 1 {}).convVdc 7) (fOfQ 16 13 ((chop 0x3F000001 1 {}).f (F.PROT_CHP_LVL_off 3))) = false ∧
    (cf.bit (F.PROT_CHP_CFG_cf_en 3) = true ∧ (cf.chop 3).blankEnd ≤ cf.now ∧ (cf.chop 3).cf = false) ∧
    (State.reset.diagCheck 7 = 1 ∧ (conv 1 10 []).diagCheck 7 = 2) ∧
    ((diag 7 0).bit F.PROT_DIAG_STS_busy = true ∧ 2 ≤ (diag 7 0).prot.diag.conv ∧ (diag 7 0).prot.diag.step = 0 ∧ (diag 7 1).prot.diag.step = 1 ∧
     (diag 7 2).prot.diag.step = 2 ∧ (diag 7 3).prot.diag.step = 3 ∧ (diag 1 0).prot.diag.conv < 2 ∧ State.reset.bit F.PROT_DIAG_STS_busy = false) ∧
    (dcp (read 0 one) 0 = true ∧ dcp (read 0 []) 0 = false ∧ fLe ((read 0 [(0, 0x3F000000)]).diagRead 0 0) ((read 0 []).level F.PROT_DIAG_LVL_lo_lvl) = true ∧
     (read 1 []).f F.PROT_DIAG_CFG_mode = 1) := by decide +kernel

/-! ## Position and speed feedback -/

/-- Port 7 with settings that pass the checks of R284 in mode `m`, the fields `fs` in force, and its hidden state. -/
def port (m : Nat) (fs : List (Fld × Nat)) (x : PortSt) : State :=
  { force State.reset ([(F.FBK_CFG_mode 7, m), (F.FBK_RES_lines 7, 1), (F.FBK_CFG_ib 7, 2), (F.FBK_SSI_div 7, 25), (F.FBK_SSI_FMT_len 7, 25),
    (F.FBK_SSI_FMT_st 7, 13), (F.FBK_SSI_FMT_mt 7, 12), (F.FBK_SSI_LEAD_lead 7, 1000), (F.FBK_SSI_dly 7, 0), (F.FBK_SSI_rec 7, 1)] ++ fs) with ports := [(7, x)] }

theorem witness_FeedbackPorts :
    let s := port 1 [] {}
    let on := port 1 [(F.FBK_CTL_en 7, 1), (F.FBK_IDX_idx_en 7, 1)]
    let done := port 1 [(F.FBK_CTL_en 7, 1), (F.FBK_CFG_bw 7, 9)] { ticks := 4000 }
    let fault := fun (c : Nat) (x : PortSt) => port 1 [(F.FBK_STS_fault 7, 1), (F.FBK_STS_fault_src 7, c)] x
    let ref := port 1 [(F.FBK_CTL_en 7, 1), (F.FBK_IDX_idx_en 7, 1), (F.FBK_STS_referenced 7, 1), (F.FBK_CPR_cpr 7, 4)] { ang := 2, z := false }
    let amp := port 2 [(F.FBK_CTL_en 7, 1), (F.FBK_SC_AMP_amp_n 7, 0)] { ampOut := 2 }
    let ssi := port 3 [(F.FBK_CTL_en 7, 1)] {}
    let busy := port 3 [(F.FBK_CTL_en 7, 1)] { ssiBusy := true }
    let run := tick ssi 1
    let bits : BitVec 40 := 0x1FFFFFF
    let cmp := fun (best : Option Int) (pitch rem : Nat) => port 1 [(F.FBK_CTL_en 7, 1), (F.FBK_CMP_STS_armed 7, 1), (F.FBK_CMP_PITCH_pitch 7, pitch),
      (F.FBK_CMP_STS_remaining 7, rem), (F.FBK_CMP_CUR_value 7, 10)] { best := best, pulse := some 9 }
    let emu := { st [(F.FBK_EE_CFG_en 1, 1)] with emus := [(1, { t := 1 })] }
    (s.pwr.mainRst = false ∧ s.portOn 7 = false ∧ ssi.portOn 7 = true ∧ ssi.portMode 7 = 3) ∧
    ((done.port 7).ticks ≥ 8 ∧ 2 * 10 ^ 9 ≤ 4000 * (10 * 2 ^ done.fe (F.FBK_CFG_bw 7) * done.obsT) ∧ 0 < done.obsT) ∧
    ((fault 1 {}).f (F.FBK_STS_fault_src 7) = 1 ∧ ((fault 1 {}).port 7).ampOk = true ∧ ((fault 1 { ampOk := false }).port 7).ampOk = false ∧
     ((fault 4 { ssiGood := false }).port 7).ssiGood = false) ∧
    ((on {}).fe (F.FBK_CFG_filt 7) < 1 + (on {}).fe (F.FBK_CFG_filt 7) ∧ (on {}).portMode 7 = 1 ∧ (on {}).bitE (F.FBK_IDX_idx_en 7) = true ∧
     ((on {}).bitE (F.FBK_CFG_z_gate 7) = true → ((on {}).port 7).a = true) ∧ ((on {}).port 7).z = false ∧ (on {}).bitE (F.FBK_CFG_z_pol 7) = false) ∧
    (((on { illegal := [3, 2, 1] }).port 7).illegal = [3, 2, 1] ∧ (on {}).now ≤ 1 + 4096 ∧ ((on { illegal := [2, 1] }).port 7).illegal.length < 3) ∧
    (ref.bit (F.FBK_STS_referenced 7) = true ∧ 0 < ref.f (F.FBK_CPR_cpr 7) ∧ ref.f (F.FBK_IDX_REF_ref 7) = 0 ∧
     (((ref.port 7).ang : Int) - 0 - 2) % 4 = 0 ∧ -(4 : Int) < 2 * 2 ∧ (2 : Int) * 2 ≤ 4) ∧
    (amp.portOn 7 = true ∧ amp.portMode 7 = 2 ∧ max 1 (amp.f (F.FBK_SC_AMP_amp_n 7)) < (amp.port 7).ampOut ∧ (amp.port 7).ampTold = false) ∧
    (run.running = true ∧ run.tm.start + run.periodNs * 1 = 24000 ∧ run.now + 4 * run.fe (F.FBK_SSI_LEAD_lead 7) ≤ 24000 ∧
     24000 < run.now + 4 * run.fe (F.FBK_SSI_LEAD_lead 7) + run.periodNs ∧ (run.f F.TIME_TICK_COUNT_count + 1) % 2 ^ 32 % (run.fe (F.FBK_SSI_every_m1 7) + 1) = 0) ∧
    (ssi.running = false ∧ ssi.tm.pend = none ∧ (ssi.port 7).idleAt + 100000 * 1 = 100000 ∧ (ssi.port 7).ssiBusy = false ∧ (ssi.port 7).ssiPoint ≠ some 100000) ∧
    ((busy.port 7).ssiBusy = true ∧ (busy.port 7).ssiLow = false ∧ (busy.port 7).ssiFail = false ∧ busy.bitE (F.FBK_SSI_FMT_err_en 7) = false ∧
     (busy.port 7).ssiFirst = true ∧ (busy.port 7).lastSt = none ∧ (busy.port 7).turns = 0 ∧
     busy.fe (F.FBK_SSI_FMT_st 7) + busy.fe (F.FBK_SSI_FMT_mt 7) = 25 ∧ busy.bitE (F.FBK_SSI_FMT_gray 7) = false ∧
     ∀ i < 25, (2 ^ 25 - 1 : Nat).testBit (24 - i) = bits.getLsbD i) ∧
    (let c := cmp (some 10) 5 1
     (c.port 7).best = some 10 ∧ c.bit (F.FBK_CMP_STS_armed 7) = true ∧ 0 < c.f (F.FBK_CMP_STS_remaining 7) ∧ c.fi (F.FBK_CMP_PITCH_pitch 7) = 5 ∧
     c.fi (F.FBK_CMP_CUR_value 7) ≤ 10 ∧ (c.port 7).pulse = some 9) ∧
    ((cmp (some 11) 0xFFFFFFFF 1).fi (F.FBK_CMP_PITCH_pitch 7) < 0 ∧ (cmp none 5 1).fi (F.FBK_CMP_PITCH_pitch 7) ≠ 0) ∧
    (emu.bit (F.FBK_EE_CFG_en 1) = true ∧ emu.bit (F.FBK_EE_STS_hold 1) = false ∧ (emu.emu 1).t ≠ (emu.emu 1).e) ∧
    ∀ k < 6, ¬ (portFails (port 1 [] {}) 7).getD k False := by
  refine ⟨by decide +kernel, by decide +kernel, by decide +kernel, by decide +kernel, by decide +kernel, by decide +kernel,
    by decide +kernel, by decide +kernel, by decide +kernel, by decide +kernel, by decide +kernel, by decide +kernel, by decide +kernel, ?_⟩
  intro k hk
  interval_cases k <;> simp only [portFails, List.getD_cons_zero, List.getD_cons_succ] <;> decide +kernel

/-- R284: a state that each check refuses, at the bound of its range. -/
theorem test_port_codes :
    let code := fun (m : Nat) (fs : List (Fld × Nat)) (c : Nat) => after (.portEnable 7) (port m fs {}) fun t => t.f (F.FBK_STS_error 7) == c
    code 1 [] 0 = true ∧ code 3 [] 0 = true ∧ code 0 [] 1 = true ∧ code 2 [] 1 = true ∧ code 1 [(F.FBK_RES_lines 7, 0)] 2 = true ∧
    code 1 [(F.FBK_CFG_ib 7, 13)] 2 = true ∧ code 1 [(F.FBK_CFG_bw 7, 10)] 2 = true ∧ code 3 [(F.FBK_SSI_div 7, 24)] 4 = true ∧
    code 3 [(F.FBK_SSI_FMT_len 7, 24)] 4 = true ∧ code 3 [(F.FBK_SSI_LEAD_lead 7, 399)] 5 = true ∧ code 3 [(F.FBK_SSI_LEAD_lead 7, 400)] 0 = true ∧
    code 1 [(F.FBK_CFG_lim_en 7, 1), (F.FBK_LIM_HI_hi 7, 5), (F.FBK_LIM_LO_lo 7, 5)] 6 = true := by decide +kernel

/-- R294: an observer of 80 Hz at T = 40 µs has the gain e^(−2π × 80 Hz × 40 µs), which lies between 0.980094 and 0.980095. -/
theorem test_observer_gain :
    980094 * 2 ^ 60 < 1000000 * obsGain 3 40000 ∧ 1000000 * obsGain 3 40000 < 980095 * 2 ^ 60 := by decide +kernel

/-! ## Motion -/

/-- Axis 7 on unit 0 and port 7 in state `x`, the fields `fs` in force, its unit in state `u`, and its hidden state. -/
def axis (x u : Nat) (fs : List (Fld × Nat)) (a : AxisSt) : State :=
  { force State.reset ([(F.MOT_STS_state 7, x), (F.FLD_STS_state 0, u), (F.FBK_CTL_en 7, 1), (F.MOT_BIND_port 7, 7), (F.FLD_CTL_ref_mode 0, 2),
    (⟨R.MOT_GEAR 7, 0, 32⟩, 0x3F800000), (F.MOT_CTL_en 7, 1)] ++ fs) with axes := [(7, a)] }

/-- As `axis`, with the values of a move of kind `k` in the target registers. -/
def target (x k : Nat) (fs : List (Fld × Nat)) (a : AxisSt) : State :=
  axis x 4 ([(F.MOT_TGT7_seq 7, 1), (F.MOT_TGT7_kind 7, k)] ++ (List.range 4).map (fun j => ((⟨R.MOT_TGT0 7 + 4 * (j + 2), 0, 32⟩, 0x3F800000) : Fld × Nat)) ++ fs) a

theorem witness_MotionAxes :
    let off := axis 0 1 [(F.MOT_CTL_en 7, 0)] {}
    let leads := axis 2 4 [(F.MOT_CTL_en 0, 1), (F.MOT_CTL_src 0, 2), (F.MOT_BIND_leader 0, 7)] {}
    let home := axis 6 4 [(F.MOT_HOME_method 7, 1)] { homeReq := true }
    let sw := fun (x : Nat) (fs : List (Fld × Nat)) (a : AxisSt) => axis x 4 ([(F.MOT_SW_hi_en 7, 1), (F.MOT_DEB_deb 7, 4), (F.MOT_SW_hi_pol 7, 1), (F.MOT_SW_gpio_hi 7, 15)] ++ fs) a
    let high := fun (s : State) => { s with pwr := { s.pwr with gpio := 0x8000 } }
    let lim := axis 3 4 [(F.MOT_CTL_vlim_en 7, 1), (F.MOT_VLIM_HI_hi 7, 5), (F.MOT_VLIM_LO_lo 7, 1)] {}
    let slack := axis 2 4 [(F.MOT_WINCH_mode 7, 1), (F.MOT_WINCH_slack_t 7, 1)] { slackNs := 10000000 }
    let sync := axis 2 4 [(F.MOT_CTL_src 7, 2)] { syncRun := 8 }
    let cam := marked 3071 (st [(F.MOT_CAM_CFG_length 15, 256), (F.MOT_CAM_TILE_tile 15, 1023), (⟨R.MOT_CAM_DX 15, 0, 32⟩, 0x3F800000), (F.MOT_CAM_CFG_master 15, 16)])
    (off.pwr.mainRst = false ∧ off.bit (F.MOT_CTL_en 7) = false ∧ off.mot 7 = 0 ∧ (axis 2 4 [] {}).bit (F.MOT_CTL_en 7) = true) ∧
    (∃ m < 8, leads.bit (F.MOT_CTL_en m) = true ∧ leads.axisSrc m = 2 ∧ leads.fe (F.MOT_BIND_leader m) = 7) ∧
    (home.mot 7 = 6 ∧ home.f (F.MOT_HOME_method 7) = 1 ∧ home.bit (F.MOT_STS_hl_latched 7) = false) ∧
    (let s := sw 2 [(F.MOT_STS_sw_hi 7, 1)] {}
     s.bit (F.MOT_SW_hi_en 7) = true ∧ s.bit (F.MOT_STS_sw_hi 7) = s.bit (F.MOT_SW_hi_pol 7)) ∧
    ((target 2 1 [] {}).mot 7 = 2 ∧ (target 2 1 [] {}).f (F.FLD_STS_state ((target 2 1 [] {}).axisUnit 7)) = 4 ∧
     ((target 2 1 [] {}).axis 7).fault = 0 ∧ (target 2 1 [] {}).f (F.MOT_TGT7_seq 7) ≠ ((target 2 1 [] {}).axis 7).seq ∧
     (target 2 1 [] {}).f (F.MOT_TGT7_kind 7) = 1 ∧ (∀ k < 4, fLt fZero ((target 2 1 [] {}).tgt 7 (k + 2)) = true) ∧
     (target 2 1 [] {}).winch 7 ≠ 2 ∧ (target 2 1 [] {}).axisSrc 7 = 0 ∧ (target 2 1 [] {}).vlim 7 = none) ∧
    (fLt fZero ((target 2 2 [(⟨R.MOT_TGT0 7 + 8, 0, 32⟩, 0x80000000)] {}).tgt 7 2) = false ∧ (target 3 3 [] {}).f (F.MOT_TGT7_kind 7) = 3) ∧
    (((target 5 0 [] { fault := 2 }).axis 7).fault ≠ 0 ∧ ((target 5 0 [] { fault := 2 }).axis 7).homeEnd = 0) ∧
    ((axis 5 1 [] {}).mot 7 = 5 ∧ (axis 2 1 [] {}).f (F.FLD_STS_state ((axis 2 1 [] {}).axisUnit 7)) ≠ 4) ∧
    (let s := axis 2 4 [(F.MOT_HOME_method 7, 2)] { homeReq := true }
     s.mot 7 = 2 ∧ (s.axis 7).homeReq = true ∧ s.f (F.MOT_TGT7_seq 7) = (s.axis 7).seq) ∧
    (let s := axis 5 4 [] { homeEnd := 3 }
     s.mot 7 = 5 ∧ (s.axis 7).fault ≠ 3 ∧ 2 ≤ (s.axis 7).homeEnd ∧ (s.axis 7).homeEnd ≤ 3) ∧
    (let s := high (sw 5 [(F.MOT_HOME_method 7, 1)] { phase := 4 })
     s.f (F.MOT_DEB_deb 7) < 5 ∧ s.bit (F.MOT_STS_sw_hi 7) ≠ s.gpioLevel 15 ∧ s.gpioLevel 15 = s.bit (F.MOT_SW_hi_pol 7) ∧
     (s.axis 7).phase ≠ 5 ∧ (s.axis 7).phase ≠ 6 ∧ (s.axis 7).limits = 0) ∧
    (let s := sw 5 [(F.MOT_HOME_method 7, 1), (F.MOT_STS_sw_hi 7, 1)] { phase := 3 }
     s.gpioLevel 15 ≠ s.bit (F.MOT_SW_hi_pol 7) ∧ true = !s.bit (F.MOT_HOME_dir 7) ∧ s.bit (F.MOT_STS_sw_hi 7) ≠ s.gpioLevel 15) ∧
    (let s := axis 5 4 [] { phase := 3, home := some 0 }
     (s.axis 7).home = some 0 ∧ s.f (F.MOT_HOME_max 7) = 0) ∧
    (let s := axis 5 4 [(F.MOT_HOME_max 7, 1)] { phase := 3, travel := 4096 * 65536 + 1 }
     s.f (F.MOT_HOME_max 7) ≠ 0 ∧ 4096 * s.f (F.MOT_HOME_max 7) * 65536 < (s.axis 7).travel ∧ (s.axis 7).home = none) ∧
    (lim.vlim 7 = some (65536, 327680) ∧ (axis 3 4 [] {}).vlim 7 = none) ∧
    (let s := high (sw 2 [] {})
     s.bit (F.MOT_STS_sw_hi 7) ≠ s.bit (F.MOT_SW_hi_pol 7) ∧ s.gpioLevel 15 = s.bit (F.MOT_SW_hi_pol 7) ∧ s.mot 7 ≠ 5) ∧
    (sw 2 [(F.MOT_DEB_chat_n 7, 7), (F.MOT_DEB_chat_w 7, 1)] {}).chatting 7 [0, 0, 0, 0, 0, 0, 0, 0] = true ∧
    (((axis 3 4 [] { ferrRun := 2 }).axis 7).ferrRun = 2 ∧ ((axis 2 4 [] { ferrHold := 2 }).axis 7).ferrHold = 2) ∧
    (slack.mot 7 ≠ 0 ∧ slack.winch 7 = 1 ∧ slack.f (F.MOT_WINCH_slack_t 7) * 10000000 ≤ (slack.axis 7).slackNs) ∧
    (sync.bit (F.MOT_CTL_en 7) = true ∧ sync.axisSrc 7 = 2 ∧ 8 ≤ (sync.axis 7).syncRun) ∧
    (let s := axis 2 4 [(F.MOT_STAND_stand_t 7, 1)] { stand := 10000000 }
     s.mot 7 = 2 ∧ s.fe (F.MOT_STAND_stand_t 7) * 10000000 ≤ (s.axis 7).stand ∧ s.fe (F.MOT_STAND_stand_t 7) ≠ 0) ∧
    ((axis 6 1 [] {}).mot 7 = 6 ∧ ((axis 6 1 [] {}).axis 7).coiled = false) ∧
    (let s := axis 7 4 [] { relAt := some 0, held := .home }
     (s.axis 7).relAt = some 0 ∧ s.mot 7 = 7 ∧ s.bit (F.MOT_STAND_sbc_en 7) = false) ∧
    (cam.bit (F.MOT_CAM_CFG_en 15) = false ∧ cam.f (F.MOT_CAM_CFG_length 15) = 256 ∧ cam.f (F.MOT_CAM_TILE_tile 15) + 0 ≤ 1023 ∧
     cam.f (F.MOT_CAM_CFG_master 15) = 16 ∧ fEq (cam.reg (R.MOT_CAM_DX 15)) fZero = false) ∧
    cam.wmOk (2048 + 1023) = true ∧ ∀ k < 6, ¬ (axisFails (axis 0 1 [(F.MOT_CTL_en 7, 0)] {}) 7).getD k False := by
  refine ⟨by decide +kernel, by decide +kernel, by decide +kernel, by decide +kernel, by decide +kernel, by decide +kernel,
    by decide +kernel, by decide +kernel, by decide +kernel, by decide +kernel, by decide +kernel, by decide +kernel, by decide +kernel,
    by decide +kernel, by decide +kernel, by decide +kernel, by decide +kernel, by decide +kernel, by decide +kernel, by decide +kernel,
    by decide +kernel, by decide +kernel, by decide +kernel, by decide +kernel, marked_ok (by decide +kernel), ?_⟩
  intro k hk
  interval_cases k <;> simp only [axisFails, List.getD_cons_zero, List.getD_cons_succ] <;> decide +kernel

/-- R308: a state that each check refuses, at the bound of its range. -/
theorem test_axis_codes :
    let code := fun (fs : List (Fld × Nat)) (c : Nat) => after (.axisEnable 7) (axis 0 1 ((F.MOT_CTL_en 7, 0) :: fs) {}) fun t => t.f (F.MOT_STS_error 7) == c
    code [] 0 = true ∧ code [(F.MOT_BIND_unit 7, 1)] 1 = true ∧ code [(F.FLD_CTL_ref_mode 0, 1)] 2 = true ∧
    code [(⟨R.MOT_GEAR 7, 0, 32⟩, 0)] 3 = true ∧ code [(F.MOT_CTL_src 7, 2), (F.FLD_CTL_ref_mode 0, 1), (F.MOT_BIND_leader 7, 7)] 4 = true ∧
    code [(F.MOT_STAND_stand_t 7, 1)] 5 = true ∧ code [(F.MOT_CTL_vlim_en 7, 1), (F.MOT_VLIM_HI_hi 7, 1), (F.MOT_VLIM_LO_lo 7, 1)] 6 = true := by
  decide +kernel

/-! ## Shaft link -/

/-- Member `o` of a line of 8 with identity 3, link code `l`, the fields `fs` in force, and its hidden state. -/
def member (o l : Nat) (fs : List (Fld × Nat)) (x : LineSt) : State :=
  { force State.reset ([(F.SHFT_CFG_node, o), (F.SHFT_CFG_n, 8), (F.SHFT_CFG_line, 3), (F.SHFT_CTL_en, 1), (F.SHFT_STS_link, l),
    (F.SHFT_STS_ring_a, 1), (F.SHFT_STS_ring_b, 1), (F.TIME_LINE_STS_role, if o = 0 then 1 else 2), (F.TIME_LINE_STS_locked, if o = 0 then 1 else 0)] ++ fs) with line := x }

/-- A frame of type `ty` from `o` of that line, with the bytes `bs` after its third character. -/
def frame (ty o : Nat) (bs : List Byte) : List Byte := withCrc ([BitVec.ofNat 8 ty, BitVec.ofNat 8 (o + 128), 3] ++ bs)

/-- An EXCH frame of `o` for the couch at `c`, without blocks. -/
def exch (o : Nat) (c : Word) : List Byte := frame 3 o (bytesOf c.toNat 4 ++ [0, 0] ++ List.replicate 64 0)

theorem witness_ShaftLink :
    let off := st [(F.SHFT_CFG_n, 2), (F.SHFT_CFG_node, 1), (F.SHFT_XCH_CFG_blocks, 8)]
    let bad := st [(F.SHFT_CFG_n, 2), (F.SHFT_CFG_node, 2)]
    let run := tick (member 7 2 [] { couched := some 3000 }) 2
    let late := { tick (member 7 2 [] { couched := some 1000 }) 1 with tm := { (tick State.reset 1).tm with now := 5400 } }
    let area := tick (member 7 2 [(F.SHFT_XCH_CFG_addr, 0xFFFF)] { acc := [(6, (0, exch 6 18000))] }) 1
    let wf := Memory.wf area.mem
    let mail := { member 7 2 [(F.RING_STS_enabled 14, 1), (F.RING_CFG_size 14, 4), (F.RING_TAIL_tail 14, 1)] { mailGo := true } with
      mem := memPutWord [] (ringBase + 14 * 0x20000) 0x00011807 }
    let share := fun (m : Nat) (fs : List (Fld × Nat)) => member 6 2 ([(F.SHFT_LS_CFG_mode 7, m), (F.SHFT_LS_CFG_src_node 7, 7), (F.FLD_STS_state 7, 1), (F.FLD_CTL_ref_mode 7, m)] ++ fs) {}
    let linked := member 6 2 [(F.SHFT_LS_CFG_src_node 7, 7), (F.SHFT_LS_STS_fallback 7, 1)] { age := [(7, 0)] }
    (off.pwr.mainRst = false ∧ off.bit F.SHFT_CTL_en = false ∧ ¬ off.f F.SHFT_CFG_n < 2 ∧ ¬ off.f F.SHFT_CFG_n ≤ off.f F.SHFT_CFG_node ∧
     ¬ 8 < off.f F.SHFT_XCH_CFG_blocks ∧ bad.f F.SHFT_CFG_n ≤ bad.f F.SHFT_CFG_node) ∧
    (let s := member 7 1 [] {}
     s.bit F.SHFT_CTL_en = true ∧ s.link = 1 ∧ s.tm.holdLag = none ∧ s.halted = false ∧ s.node = 7 ∧ s.lineN = 8) ∧
    (crcOk [1, 2] = false ∧ crcOk (frame 1 6 []) = true ∧ frType (frame 1 6 []) = 1) ∧
    (let s := member 7 1 [] {}
     frameShows s false false true (frame 1 7 []) = 2 ∧ frameShows s false false true (frame 1 5 []) = 3 ∧ upstream s false = 6 ∧ upstream s true = 0 ∧
     frameShows s false false false (withCrc [1, 0x76, 3]) = 4 ∧ frameShows s false false true (withCrc [1, 0x86, 2]) = 5 ∧
     frameShows s false false true (frame 1 6 []) = 0 ∧ frameShows s false true false (frame 1 7 []) = 0) ∧
    (let s := member 7 1 [(F.SHFT_STS_ring_a, 0), (F.SHFT_STS_ring_b, 0)] { heard := [(0, 0), (1, 0), (2, 0), (3, 0), (4, 0), (5, 0)] }
     s.ringUp 0 = false ∧ s.ringUp 1 = false ∧ s.line.fallen = [] ∧ s.line.failAt = [] ∧
     ∀ p < 8, p ≠ 6 → p ≠ s.node → ∃ h ∈ tblFind s.line.heard (8 * 0 + p), s.now ≤ h + 10000000) ∧
    (2 ≤ run.link ∧ run.ringUp 0 = true ∧ (member 7 5 [] {}).link = 5) ∧
    ((member 0 2 [] {}).role = 1 ∧ (member 7 2 [] {}).role = 2 ∧ (member 7 2 [] {}).bit F.TIME_LINE_STS_locked = false) ∧
    (let fr := frame 2 0 (bytesOf 100 8 ++ bytesOf 0 4 ++ bytesOf 4999 2 ++ bytesOf 0 8)
     let s := member 7 2 [] { syncAt := some 0 }
     crcOk fr = true ∧ frType fr = 2 ∧ frOrigin fr = 0 ∧ s.node ≠ 0 ∧ frN fr = s.lineN ∧ byteAt fr 2 = s.fe F.SHFT_CFG_line ∧ s.ringUp 0 = true ∧
     (s.now : Int) ≤ ((frBytes fr 3 8 + frBytes fr 11 4 + s.f F.TIME_SRV_DLYA_dly : Nat) : Int) ∧ s.line.syncAt = some 0) ∧
    { member 7 2 [] {} with tm := { State.reset.tm with holdLag := some 5 } }.tm.holdLag ≠ none ∧
    (let s := member 7 2 [(F.SHFT_XCH_CFG_blocks, 8)] { couched := some 0, exchGo := true }
     s.line.couched = some 0 ∧ s.link ≠ 0 ∧ s.line.exchGo = true ∧ s.xchB ≤ 8) ∧
    (let d := fun (c w : Word) => (w - c).toInt.natAbs
     run.running = true ∧ run.link ≠ 5 ∧ upstream run false = 6 ∧ run.couchAt = 18000 ∧ frBytes (exch 6 19000) 3 4 = 19000 ∧ d 18000 19000 = 1000 ∧ d 18000 19001 = 1001 ∧
     crcOk (exch 6 19000) = true ∧ frType (exch 6 19000) = 3 ∧ frN (exch 6 0) = 8 ∧ tblFind run.line.acc 6 = none ∧ d 18000 0xFFFFFFFF = 18001) ∧
    (late.line.couched = some 1000 ∧ (2000 - 1000 : Int).natAbs ≤ 1000 ∧ late.tm.start + 1400 ≤ late.now ∧ run.now < run.tm.start + 1400) ∧
    (area.running = true ∧ area.lineN ≤ 8 ∧ wf = true ∧ tblFind area.line.acc 6 = some (0, exch 6 18000) ∧ tblFind area.line.acc 5 = none) ∧
    (let s := member 7 2 [] { miss := [(1, 3)] }
     tblGet 0 s.line.miss 1 = 3 ∧ s.link = (if s.ringUp 0 then 2 else 4)) ∧
    (let s := member 7 4 [(F.SHFT_STS_ring_a, 0)] { fallen := [0], good := [(0, 16)] }
     2 ≤ s.link ∧ s.ringUp 0 = false ∧ 0 ∈ s.line.fallen ∧ tblGet 0 s.line.good 0 = 16 ∧ s.link = (if s.ringUp 1 then 4 else 5)) ∧
    (mail.lineUp = true ∧ mail.line.mailGo = true ∧ (mail.ringTake 14).map (fun e => getBits (e.1.getD 0 0) 8 5) = some 24 ∧
     (mail.ringTake 14).any (fun e => (e.2.ringTake 14).isNone) = true ∧ (member 7 2 [] {}).ringTake 14 = none) ∧
    (let fr := frame 4 6 (bytesOf 9 2 ++ bytesOf 1 2 ++ [8, 24] ++ List.replicate 24 0)
     crcOk fr = true ∧ (byteAt fr 7).testBit 3 = true ∧ tblFind (member 7 2 [] {}).line.mailLast 6 = none ∧ frBytes fr 3 2 = 9 ∧
     byteAt (frame 4 6 [9, 0, 1, 0, 6, 1, 0]) 7 % 8 ≠ 7) ∧
    ((share 1 []).bit (F.SHFT_LS_CFG_en 7) = false ∧ (share 1 []).fe (F.FLD_CTL_ref_mode 7) = 1 ∧ (share 1 []).unitOn 7 = true ∧
     (share 1 []).f (F.SHFT_LS_CFG_src_node 7) < (share 1 []).lineN) ∧
    (linked.lineUp = true ∧ tblGet 3 linked.line.age (linked.fe (F.SHFT_LS_CFG_src_node 7)) = 0 ∧ linked.bit (F.SHFT_LS_STS_fallback 7) = true ∧
     0 < tblGet 3 run.line.age (run.fe (F.SHFT_LS_CFG_src_node 7))) := by
  refine ⟨?_, ?_, ?_, ?_, ?_, ?_, ?_, ?_, ?_, ?_, ?_, ?_, ?_, ?_, ?_, ?_, ?_, ?_, ?_⟩ <;> decide +kernel

/-- R356: the codes of a refused load share, and one that is accepted. -/
theorem test_share_codes :
    let code := fun (m src : Nat) (fs : List (Fld × Nat)) (c : Nat) => after (.loadShareEnable 7) (member 6 2 ([(F.SHFT_LS_CFG_mode 7, m),
      (F.SHFT_LS_CFG_src_node 7, src), (F.SHFT_LS_CFG_src_drive 7, 7), (F.FLD_STS_state 7, 1), (F.FLD_CTL_ref_mode 7, 1)] ++ fs) {}) fun t => t.f (F.SHFT_LS_STS_error 7) == c
    code 1 7 [] 0 = true ∧ code 1 7 [(F.FLD_STS_state 7, 0)] 1 = true ∧ code 0 7 [] 2 = true ∧ code 2 7 [] 2 = true ∧ code 3 7 [] 2 = true ∧
    code 1 6 [] 3 = true := by decide +kernel

/-! ## CAN FD -/

/-- Controller 3, enabled and integrated, with the fields `fs` in force and its hidden state. -/
def can (fs : List (Fld × Nat)) (x : CanSt) : State :=
  { force State.reset ([(F.CAN_CTL_en 3, 1), (F.CAN_STS_enabled 3, 1), (F.CAN_STS_bus_idle 3, 1)] ++ fs) with cans := [(3, x)] }

/-- As `s`, with words of object `o` written. -/
def withObj (s : State) (o : Nat) (ws : List (Nat × Word)) : State := { s with mem := ws.foldl (fun m e => memPutWord m (objAddr 3 o e.1) e.2) s.mem }

theorem witness_CanControllers :
    let off := st [(F.CAN_NBT_brp_m1 3, 0), (F.CAN_NBT_tseg1_m1 3, 62), (F.CAN_NBT_tseg2_m1 3, 15), (F.CAN_NBT_sjw_m1 3, 15)]
    let nbit := fun (s : State) => (s.f (F.CAN_NBT_brp_m1 3) + 1) * (1 + (s.f (F.CAN_NBT_tseg1_m1 3) + 1) + (s.f (F.CAN_NBT_tseg2_m1 3) + 1))
    let s := can [] {}
    let fr : CanFrame := { id := 0x1FFFFFFF, xtd := true, fdf := false, brs := false, esi := false, dlc := 8, data := [1, 2, 3, 4, 5, 6, 7, 8] }
    let rx := withObj s 98 [(0, 0x3FFFFFFF), (1, 0x3FFFFFFF), (2, 0x100)]
    let sleep := can [(F.CAN_STS_sleeping 3, 1), (F.CAN_WAKE_frame_wake 3, 1), (F.CAN_WAKE_wake_obj 3, 95)] {}
    let held := withObj (can [(⟨R.CAN_MOPEND 3 2, 31, 1⟩, 1)] {}) 98 [(2, 0x200)]
    let tx := fun (x : CanSt) => withObj (can [(F.CAN_TXB_STS_pending 3, 6)] x) 2 [(0, 0x04000000)]
    let ring := fun (c : Word) => { can [(F.CAN_CTL_ring_tx 3, 1), (F.RING_STS_enabled 12, 1), (F.RING_CFG_size 12, 4), (F.RING_TAIL_tail 12, 3)] {} with
      mem := memPutWord [] (ringBase + 12 * 0x20000 + 4) c }
    let tt := can [(F.CAN_TTCFG_tt_en 3, 1), (F.CAN_TTCFG_ref_period 3, 100), (F.CAN_TTCFG_master 3, 1)]
    let slave := can [(F.CAN_TTCFG_tt_en 3, 1), (F.CAN_TTCFG_ref_period 3, 100), (F.CAN_REFID_id 3, 0x1FFFFFFF), (F.CAN_REFID_xtd 3, 1)]
    let trig := withObj (can [(F.CAN_TTCFG_tt_en 3, 1), (⟨R.CAN_MOPEND 3 2, 31, 1⟩, 1), (F.CAN_TTSTS_cycle 3, 63)] { refSeen := true }) 98 [(1, 0x01BF0000), (2, 0x1200)]
    (off.pwr.mainRst = false ∧ off.bit (F.CAN_CTL_en 3) = false ∧ nbit off = 80 ∧ off.f (F.CAN_NBT_sjw_m1 3) + 1 ≤ off.f (F.CAN_NBT_tseg2_m1 3) + 1 ∧
     nbit (put off [(F.CAN_NBT_tseg1_m1 3, 61)]) = 79) ∧
    (s.bit (F.CAN_CTL_en 3) = true ∧ (s.can 3).onBus = none ∧ (s.can 3).foreign = false ∧ (s.can 3).wait = false ∧ (s.can 3).leaving = false ∧
     s.f (F.CAN_CTL_mode 3) < 2 ∧ s.f (F.CAN_STS_conf 3) ≠ 2 ∧ s.bit (F.CAN_STS_sleeping 3) = false ∧ s.bit (F.CAN_STS_enabled 3) = true) ∧
    (((can [] { foreign := true }).can 3).foreign = true ∧ ((can [] { leaving := true, onBus := some 98 }).can 3).onBus = some 98 ∧ ((can [] { leaving := true, onBus := some 98 }).can 3).leaving = true) ∧
    ((can [(F.CAN_CTL_mode 3, 2)] {}).f (F.CAN_CTL_mode 3) = 2) ∧
    (sleep.bit (F.CAN_STS_sleeping 3) = true ∧ sleep.bit (F.CAN_WAKE_frame_wake 3) = true ∧ sleep.f (F.CAN_WAKE_wake_obj 3) = 95) ∧
    (max 1 ((can [(F.CAN_STS_sleeping 3, 1), (F.CAN_WAKE_filt 3, 0)] {}).f (F.CAN_WAKE_filt 3)) = 1) ∧
    (canHits rx 3 95 fr ∧ (∀ k < 95, ¬ canHits rx 3 k fr) ∧ (∀ m < 96, ¬ canHits s 3 m fr) ∧ Memory.wf rx.mem = true) ∧
    (128 ≤ (can [(F.CAN_ERR_rec 3, 128)] {}).f (F.CAN_ERR_rec 3) ∧ s.f (F.CAN_ERR_rec 3) < 128) ∧
    ((can [(F.CAN_STS_conf 3, 2), (F.CAN_STS_recovering 3, 1)] {}).f (F.CAN_STS_conf 3) = 2 ∧ (can [(F.CAN_STS_recovering 3, 1)] {}).bit (F.CAN_STS_recovering 3) = true) ∧
    (held.bit (pendBit 3 98) = true ∧ Memory.wf held.mem = true ∧ getBits (held.obj 3 98 2) 8 2 = 2 ∧ s.bit (pendBit 3 98) = false) ∧
    ((can [(F.CAN_CTL_ring_tx 3, 1)] {}).bitE (F.CAN_CTL_ring_tx 3) = true ∧ s.host.d3hot = false) ∧
    (let t := tx {}
     t.bit (pendBit 3 1) = true ∧ t.bit (pendBit 3 2) = true ∧ t.bit (pendBit 3 0) = false ∧ (t.can 3).mode = 0 ∧ (t.can 3).refReq = false ∧
     getBits (t.obj 3 1 0) 18 11 < getBits (t.obj 3 2 0) 18 11 ∧ (∀ o < 99, t.bit (pendBit 3 o) = true → o = 1 ∨ o = 2)) ∧
    (((tx { refReq := true }).can 3).refReq = true ∧ ((tx { mode := 1 }).can 3).mode ≠ 0 ∧ ((tx { onBus := some 2, cancel := true }).can 3).cancel = true ∧
     ((tx { onBus := some 99 }).can 3).onBus = some 99) ∧
    (getBits (((ring 0x00020030).words ((ring 0x00020030).ringEntry 12 0) 8).getD 1 0) 16 2 = 2 ∧ 1 + 2 ≤ (ring 0x00020030).ringCount 12 ∧
     getBits (((ring 0x00020030).words ((ring 0x00020030).ringEntry 12 0) 8).getD 1 0) 4 3 = 3 ∧ (ring 0).ringOn 12 = true) ∧
    ((tt {}).bitE (F.CAN_TTCFG_tt_en 3) = true ∧ (tt {}).bitE (F.CAN_TTCFG_master 3) = true ∧ 0 < (tt {}).fe (F.CAN_TTCFG_ref_period 3) * 1000) ∧
    (let t := slave { due := [98] }
     ¬ t.bitE (F.CAN_TTCFG_master 3) = true ∧ fr.xtd = t.bitE (F.CAN_REFID_xtd 3) ∧ fr.dlc ≠ 0 ∧ fr.id.toNat = t.fe (F.CAN_REFID_id 3) ∧ (t.can 3).due ≠ [] ∧
     (t.can 3).refTold = false) ∧
    ((trig.can 3).refSeen = true ∧ getBits (trig.obj 3 98 2) 8 2 = 2 ∧ (trig.obj 3 98 2).getLsbD 12 = true ∧ trig.bit (pendBit 3 98) = true ∧
     trig.f (F.CAN_TTSTS_cycle 3) % 2 ^ getBits (trig.obj 3 98 1) 22 3 = getBits (trig.obj 3 98 1) 16 6) := by
  unfold canHits
  refine ⟨?_, ?_, ?_, ?_, ?_, ?_, ?_, ?_, ?_, ?_, ?_, ?_, ?_, ?_, ?_, ?_, ?_⟩ <;> decide +kernel

/-! ## Safety -/

/-- Both dies out of reset, in device state `z`, with the fields `fs`, the set bytes `bs` and the safety state `x`. -/
def safe (z : Nat) (fs : List (Fld × Nat)) (bs : List (Nat × Byte)) (x : SafeSt) : State :=
  { st ([(F.SAFE_STS_state, z)] ++ fs) with mem := bs.foldl (fun m e => memPut m (setHeld + e.1) e.2) [], saf := { x with selfDone := true } }

/-- The bytes of a set in which pair 11 is an ESTOP on STO7, on inputs with a filter of 4 samples and a time of 5 ticks. -/
def pair11 : List (Nat × Byte) := [(192, 1), (194, 4), (196, 5), (198, 0x80), (264, 1)]

theorem witness_SafetyChannels :
    let x : SafeSt := {}
    let s := safe 3 [] pair11 x
    let run : ChanSt := { img := 0xFFFFFF, pairs := [(11, { st := 1 })], permitAge := 0, permit := 0x7FF }
    let hold := safe 3 [] (pair11 ++ [(195, 8), (289, 1), (290, 1)]) { x with tpoAt := [(7, 0)], sample := 1, die := { img := 0x400000 } }
    let stops := safe 3 [] pair11 { x with die := { run with pairs := [(11, { st := 2 })] } }
    let out := safe 4 [] pair11 { x with die := { run with pairs := [(11, { st := 3, passed := true })] }, core := { run with pairs := [(11, { st := 3, passed := true })] } }
    let rise := safe 3 [] pair11 { x with die := { scnt := 19 } }
    let fall := fun (k : Nat) => safe 3 [] pair11 { x with die := { scnt := 19, sres := true, rise := 0 }, sample := k }
    let apart := safe 3 [] pair11 { x with die := { img := 0x400000, pairs := [(11, { timer := 5 })] } }
    let old := safe 3 [] pair11 { x with die := { permitAge := 2 } }
    let tpo := safe 3 [] [(288, 0x80), (292, 10)] { x with sample := 175 }
    let test := safe 3 [] [(268, 2)] { x with die := { sto := 0x80, permit := 0x80, permitAge := 0, ball := 0x80 }, sample := 7 }
    let ss1 := safe 3 [] pair11 { x with die := { ss1 := [(7, 10)], sto := 0x80 }, sample := 10 }
    let brake := safe 3 [] [] { x with brakeAt := [(1, 10)], sample := 10 }
    let pulse := safe 2 [] pair11 { x with die := { run with pulse := true, pairs := [(11, { st := 2 })] } }
    let reset := { out with saf := { out.saf with die := { out.saf.die with pulse := true }, core := { out.saf.core with pulse := true } } }
    (s.pwr.mainRst = false ∧ s.pwr.safRst = false ∧ s.pairFunc 11 = 1 ∧ s.inFilt 23 = 4 ∧ s.stoUsed 7 = true ∧ s.pairMask 11 = 0x80 ∧
     s.pairCarries 11 = true ∧ ∀ b < 20, (0 : BitVec 20).getLsbD b = s.ballLevel b) ∧
    (hold.inHold (hold.inSrc 22) 1 = true ∧ hold.lastOf 7 1 = true ∧ hold.inSrc 22 = 7 + 1 ∧ hold.saf.die.img.getLsbD 22 = hold.inRunLevel 22 ∧
     s.inHold (s.inSrc 23) 0 = false) ∧
    (s.inFilt 23 ≤ tblGet 0 [(23, 3)] 23 + 1 ∧ tblGet 0 [(23, 2)] 23 + 1 < s.inFilt 23) ∧
    ((pairOf run 11).st = 1 ∧ (pairOf stops.saf.die 11).st = 2 ∧ (pairOf out.saf.die 11).st = 3 ∧ s.inSrc 22 = 0) ∧
    (20 ≤ rise.saf.die.scnt + 1 ∧ rise.saf.die.sres = false) ∧
    ((fall 5000).saf.sample / 20 = 250 ∧ (fall 60019).saf.sample / 20 = 3000 ∧ (fall 4999).saf.sample / 20 < 250 ∧ 3000 < (fall 60020).saf.sample / 20 ∧
     (fall 5000).saf.die.sres = true) ∧
    (apart.disagrees apart.saf.die 11 = true ∧ s.disagrees s.saf.die 11 = false ∧ apart.pairDisc 11 ≤ (pairOf apart.saf.die 11).timer ∧ s.saf.selfDone = true) ∧
    (s.saf.die = s.saf.core ∧ (apart.nipView apart.saf.die).1 ≠ (apart.nipView apart.saf.core).1) ∧
    ((14720 ≤ 14720 ∧ 17280 ≤ 17280 ∧ ¬ 14720 ≤ 14719) ∧ s.safeState ∈ [1, 2, 3]) ∧
    (old.saf.die.permitAge = 2 ∧ run.permitAge < 2) ∧
    (tpo.tpoEn 7 = true ∧ tpo.tpoPer = 10 ∧ tpo.saf.sample % (20 * 10) = (5 * 7 * 10 + 1) / 2 % (20 * 10)) ∧
    (test.saf.sample / 20 % 1000 = 0 ∧ test.saf.sample % 20 = 7 % 8 ∧ test.ballCmd 7 = true ∧ test.ballTp 7 = 2) ∧
    (tblFind ss1.saf.die.ss1 7 = some 10 ∧ 10 ≤ ss1.saf.sample ∧ ss1.outDemands ss1.saf.die 7 ≠ []) ∧
    (tblFind brake.saf.brakeAt 1 = some 10 ∧ 10 ≤ brake.saf.sample) ∧
    (pulse.saf.die.pulse = true ∧ (pairOf pulse.saf.die 11).st = 2 ∧ pulse.pairAuto 11 = false ∧ pulse.inRun pulse.saf.die 11 = true ∧ pulse.saf.die.inflt = 0) ∧
    (reset.safeState = 4 ∧ reset.saf.core.pulse = true ∧ reset.causePresent = false ∧ reset.reg R.SAFE_CONFIRM = reset.reg R.SAFE_PCRC ∧
     (pairOf reset.saf.die 11).passed = true ∧ reset.inRun reset.saf.die 11 = true ∧ reset.disagrees reset.saf.die 11 = false) := by
  refine ⟨?_, ?_, ?_, ?_, ?_, ?_, ?_, ?_, ?_, ?_, ?_, ?_, ?_, ?_, ?_, ?_⟩ <;> decide +kernel

/-- R399: the reset pulse of `reset` brings a device whose set is held from LOCKOUT to RUN. -/
theorem test_reset_leaves_lockout :
    let run : ChanSt := { img := 0xFFFFFF, pairs := [(11, { st := 3, passed := true })], permitAge := 0, permit := 0x7FF, pulse := true }
    after .safetyResetPulse (safe 4 [] ((0, 1) :: pair11) { die := run, core := run }) (fun t => t.safeState == 3) = true ∧
    after .safetyResetPulse (safe 4 [] ((0, 1) :: pair11) { die := run, core := { run with pulse := false } }) (fun t => t.safeState == 4) = true := by
  decide +kernel

theorem witness_SafetyParameterSet :
    let s := safe 2 [(F.SAFE_PCRC_crc, 0xDEADBEEF)] [] { armed := true }
    let chk := safe 3 [] [] { checking := true }
    let self := { State.reset with pwr := { State.reset.pwr with mainRst := true } }
    let stored := safe 0 [] [] { stored := true }
    let hot := safe 3 [] [(272, 1)] { core := { sbc := 2, permit := 0x7FF, permitAge := 0 }, die := { sto := 0x80, permit := 0x80, permitAge := 0, ball := 0x80 } }
    (self.pwr.mainRst = true ∧ self.pwr.safRst = false ∧ self.saf.selfDone = false ∧ self.safeState = 0 ∧ self.setIsHeld = false) ∧
    (s.pwr.mainRst = false ∧ s.pwr.safRst = false ∧ s.saf.checking = false ∧ (∀ b < 20, s.ballCmd b = false) ∧ (0x1FFFFF : Word).getLsbD 0 = true ∧
     getBits (0x1FFFFF : Word) 5 16 = 0xFFFF) ∧
    (∃ b < 20, hot.ballCmd b = true) ∧ (chk.saf.checking = true ∧ Memory.wf chk.mem = true ∧ chk.safeState ≠ 4) ∧
    (s.saf.armed = true ∧ (0xDEADBEEF : Word) = s.reg R.SAFE_PCRC ∧ chk.saf.armed = false ∧ s.safeState = 2) ∧
    (stored.saf.selfDone = true ∧ stored.saf.stored = true ∧ stored.sec.noFlash = false ∧ s.saf.stored = false ∧ s.setIsHeld = false ∧
     State.reset.saf.selfDone = false) := by decide +kernel

/-- A set in which connection 7 has the role and transport `r`, one byte of safe data, a period and a watchdog of 10 ms. -/
def conn7 (r : Byte) (z : Nat) (fs : List (Fld × Nat)) (x : ConnSt) : State :=
  { safe 3 ([(F.SAFE_CONN_state 7, z), (F.SAFE_CONN_seq 7, 4)] ++ fs) [] {} with
    mem := [(setHeld + 528, r), (setHeld + 529, 1), (setHeld + 531, 95), (setHeld + 536, 3), (setHeld + 538, 1), (setHeld + 540, 10), (setHeld + 542, 10)],
    saf := { selfDone := true, conns := [(7, x)] } }

/-- R413: the DATA frame of connection 0x00010003 with sequence number 5 and run set, byte by byte, and its echo's check. -/
theorem test_frame_bytes :
    dataFrame 0x00010003 5 [1] = [0x41, 0x05, 0x00, 0x01, 0x79, 0x50, 0xDB, 0x46] ∧
    frameCheck 0x00010003 4 (dataFrame 0x00010003 5 [1]) = true ∧ frameCheck 0x00010002 4 (dataFrame 0x00010003 5 [1]) = false := by decide +kernel

theorem witness_SafetyFrames :
    let fr := dataFrame 0x00010003 5 [1]
    let put := fun (s : State) => { s with mem := memPutBytes (memPutBytes (memPutBytes s.mem (objAddr 0 98 2) 8 0xF) (objAddr 0 98 4) 0x01000541 0xF) (objAddr 0 98 5) 0x46DB5079 0xF }
    let use := conn7 1 2 [(newBit 0 95, 1)] { good := 1, due := some 9 }
    let got := put use
    let ring := conn7 5 2 [(F.RING_STS_enabled 10, 1), (F.RING_CFG_size 10, 4), (F.RING_TAIL_tail 10, 1)] {}
    let send := conn7 2 1 [] { sendAt := some 9, out := [(5, 19)], good := 1 }
    (use.pwr.mainRst = false ∧ use.pwr.safRst = false ∧ use.connRole 7 = 1 ∧ use.connByte 7 3 = 95 ∧ use.connN 7 = 1 ∧ use.connId 7 = 0x00010003 ∧
     use.bit (newBit 0 95) = true ∧ (use.conn 7).due = some 9) ∧
    (let bytes := ((List.range 64).map fun i => memGet got.mem (objAddr 0 98 4 + i)).take (dlcLen ((got.obj 0 98 0).getLsbD 30) (getBits (got.obj 0 98 2) 0 4))
     bytes = fr ∧ bytes.take 8 = fr ∧ (5 + 65536 - got.f (F.SAFE_CONN_seq 7)) % 65536 = 1 ∧ Memory.wf got.mem = true) ∧
    (ring.connRole 7 = 1 ∧ ring.connRing 7 = true ∧ ring.ringOn 10 = true ∧ 1 ≤ ring.ringCount 10 ∧ getBits (ring.word (ring.ringEntry 10 0)) 0 3 ≠ 7) ∧
    (send.connRole 7 = 2 ∧ (send.conn 7).sendAt = some 9 ∧ (∃ e ∈ (send.conn 7).out, e.1 = 5) ∧ send.connPeriod 7 = 10) ∧
    (frameKind (echoFrameOf 0x00010003 5) = 2 ∧ frameN (echoFrameOf 0x00010003 5) = 0 ∧ frameSeq (echoFrameOf 0x00010003 5) = 5) := by decide +kernel

/-! ## Host -/

/-- Ring `n` with `2 ^ size` entries, its head and its tail. -/
def ring (n size head tail : Nat) : State :=
  st [(F.RING_STS_enabled n, 1), (F.RING_CFG_size n, size), (F.RING_HEAD_head n, head), (F.RING_TAIL_tail n, tail)]

theorem witness_HostAccessAndLinks :
    let s := State.reset
    let served := st [(F.DEV_LOCK_STS_phase, 1)]
    let field := { served with sec := { s.sec with lifecycle := 3 } }
    let opened := { (force field [(F.DEV_LOCK_STS_pcie_open, 1)]) with host := { s.host with lockAt := [(1, 0)] } }
    let asleep := { s with host := { s.host with d3hot := true } }
    let lead := R.TIME_COUCH_LEAD
    let spec := (regSpec lead).getD ⟨0, [], 0, 0, 0, 0, 0, 0, 0, 0, 0, 0, 0⟩
    let reload := 0x8070C
    (s.pwr.mainRst = false ∧ asleep.host.d3hot = true ∧ s.host.d3hot = false ∧ Memory.wf s.mem = true) ∧
    (regSpec lead = some spec ∧ quiet lead spec ∧ s.part.lacks lead = false ∧ tblFind s.held lead = none ∧ spec.kg ≠ 0 ∧ spec.sg ≠ 0 ∧ spec.mw ≠ 0) ∧
    (opensKg s .cmd ∧ opensKg field .keeper ∧ opensKg opened .pcie ∧ ¬ opensKg field .pcie ∧ ¬ opensKg field .cmd) ∧
    (served.f F.DEV_LOCK_STS_phase = 1 ∧ s.f F.DEV_LOCK_STS_phase ≠ 1 ∧ Sys2Proof.Master.pcie ≠ Sys2Proof.Master.keeper) ∧
    ((regSpec reload).any (fun r => r.mw == 0x3F && r.kg == 0 && r.sg == 0) = true ∧ s.part.lacks reload = false) ∧
    (regSpec 0x147FFC = none ∧ aliasOf 0x147FFC = none ∧ canObject 0x147FFC = none ∧ (0x0 : BitVec 4) ≠ 0xF#4) ∧
    (dataBase + 0x1FFFFC < dataBase + 0x200000 ∧ (dataBase + 0x1FFFFC) % 4 = 0) ∧
    (let r := ring 14 12 0 0
     r.bit (F.RING_STS_enabled 14) = true ∧ (0x1C0000 + 0x1FFFC) / 0x20000 = 14 ∧ 0x1FFFC < 2 ^ r.f (F.RING_CFG_size 14) * 32) ∧
    (let r := ring 0 4 0 0
     r.bit (F.RING_STS_enabled 0) = true ∧ 2 ^ r.f (F.RING_CFG_size 0) * 32 = 512 ∧ s.bit (F.RING_STS_enabled 0) = false ∧ 0x1FFFFC / 0x20000 = 15) ∧
    (∃ r, regSpec 0x20050 = some r ∧ r.rc = 0xFFFF ∧ s.part.lacks 0x20050 = false) ∧
    (opened.bit F.DEV_LOCK_STS_pcie_open = true ∧ tblFind opened.host.lockAt (masterIdx .pcie) = some 0 ∧ opened.tm.holdLag = none ∧
     s.bit F.DEV_LOCK_STS_pcie_open = false) ∧
    (s.host.perstN ≠ false ∧ s.host.linkUp ≠ true ∧ s.host.d3hot ≠ true ∧ s.host.perstN = true) := by
  unfold opensKg quiet
  refine ⟨?_, ?_, ?_, ?_, ?_, ?_, ?_, ?_, ?_, ⟨_, rfl, ?_⟩, ?_, ?_⟩ <;> decide +kernel

/-- A FIELD device in SERVICE: a write without the key drops the guarded value and says so; with the key it takes it. -/
theorem test_lock_key :
    let s := { st [(F.DEV_LOCK_STS_phase, 1)] with sec := { State.reset.sec with lifecycle := 3 } }
    after (.registerWrite .pcie R.TIME_COUCH_LEAD 0xF 1000 0) s (fun t => t.reg R.TIME_COUCH_LEAD == 1500 && t.bit F.DEV_LOCK_STS_kg_drop) = true ∧
    after (.lockKey .pcie 0xFFFF5A3C) s (fun u => u.bit F.DEV_LOCK_STS_pcie_open &&
      after (.registerWrite .pcie R.TIME_COUCH_LEAD 0xF 1000 0) u fun t => t.reg R.TIME_COUCH_LEAD == 1000 && !t.bit F.DEV_LOCK_STS_pcie_open) = true ∧
    after (.lockKey .pcie 0x5A3D) s (fun u => !u.bit F.DEV_LOCK_STS_pcie_open) = true := by decide +kernel

/-- R497: DEV_IDCODE of the OLV8840 and the revision byte of its configuration space. -/
theorem test_identity :
    after (.readClear .spi R.DEV_IDCODE 0) State.reset (fun t => tblFind t.host.rdata 2 == some [0x18840573]) = true ∧
    State.reset.pciConfig.classCode = 0x118000 ∧ State.reset.pciConfig.subVendor = 0x1F4C := by decide +kernel

theorem witness_RingsCommandsEvents :
    let room := ring 0 4 0xFFF8 4
    let full := ring 1 12 0 4096
    let dev := ring 15 4 5 9
    let cmds := fun (p : Nat) => put (ring p 4 0 1) [(F.DEV_LOCK_STS_phase, 1), (F.RING_STS_enabled (4 + p), 1), (F.RING_CFG_size (4 + p), 4), (F.RING_TAIL_tail (4 + p), 15)]
    let ready := fun (s : State) (p : Nat) => s.ringOn p = true ∧ s.ringCount p ≠ 0 ∧ s.ringOn (4 + p) = true ∧
      s.ringCount (4 + p) < s.ringCap (4 + p)
    let hand := fun (ws : List Word) => { cmds 3 with host := { State.reset.host with cmd := some ⟨3, 0, ws⟩ } }
    let rec0 : EvRec := { source := 8, safety := false, payload := 0, stamp := 100, origin := 0, reaction := 0, tick := 0 }
    let log := fun (size tail : Nat) (fs : List (Fld × Nat)) (drops : List Nat) => { put (ring 8 size 0 tail) fs with host := { State.reset.host with queue := [{ rec0 with stamp := 101 }, rec0], dropping := drops } }
    let vec := st [(F.EVT_SRC_vec_en 63, 1), (F.EVT_SRC_vector 63, 15), (pendFld 63, 1)]
    let held := { State.reset with host := { State.reset.host with pba := [14, 15], masked := [14], fnMask := true } }
    (State.reset.pwr.mainRst = false ∧ Memory.wf State.reset.mem = true) ∧
    (room.ringCount 0 = 12 ∧ (8 + 0x10000 - 0xFFF8) % 0x10000 = 16 ∧ 16 ≤ 2 ^ room.f (F.RING_CFG_size 0) ∧ ¬ 17 ≤ 2 ^ room.f (F.RING_CFG_size 0) ∧
     full.ringCount 1 = 2 ^ full.f (F.RING_CFG_size 1) ∧ State.reset.bit (F.RING_STS_enabled 0) = false) ∧
    (dev.bit (F.RING_STS_enabled 15) = true ∧ (9 + 0x10000 - 9) % 0x10000 ≤ dev.ringCount 15 ∧ (9 + 0x10000 - 5) % 0x10000 ≤ dev.ringCount 15 ∧
     ¬ (9 + 0x10000 - 4) % 0x10000 ≤ dev.ringCount 15) ∧
    (ready (cmds 3) 3 ∧ (∀ q < 3, ¬ ready (cmds 3) q) ∧ ready (cmds 0) 0 ∧ (cmds 3).f F.DEV_LOCK_STS_phase = 1 ∧ (cmds 3).host.cmd = none ∧
     (∀ p < 4, ¬ ready (put (cmds 3) [(F.RING_TAIL_tail 7, 16)]) p)) ∧
    (State.reset.host.cmd = none ∧ State.reset.f F.DEV_LOCK_STS_phase ≠ 1) ∧
    (∀ op < 8, (hand [BitVec.ofNat 32 op]).host.cmd = some ⟨3, 0, [BitVec.ofNat 32 op]⟩ ∧ getBits (BitVec.ofNat 32 op) 0 8 = op) ∧
    (getBits (7 : Word) 0 3 = 7 ∧ getBits (6 : Word) 0 3 = 6 ∧ (0xFFFFFC : Word).toNat < 0x1000000 ∧ getBits (3 : Word) 0 2 = 3 ∧
     (readsInTurn (hand [3, 2, 0xFFFFFC, 8]) [0xFFFFFC, 8]).map (fun r => r.1) = some [0, 0x18840573] ∧
     ((writesInTurn (hand []) 0 [(BitVec.ofNat 32 R.TIME_COUCH_LEAD, 1000), (0x147FFC, 0)]).map fun r => r.2.reg R.TIME_COUCH_LEAD) = some 1000 ∧
     (let a : Word := BitVec.ofNat 32 (dataBase + 0x1FFFFC)
      a.toNat % 4 = 0 ∧ dataBase ≤ a.toNat ∧ a.toNat < dataBase + 0x200000)) ∧
    (State.reset.part.lanes = 8 ∧ getBits (0x0707 : Word) 0 8 = 7 ∧ getBits (0x0808 : Word) 0 8 = 8 ∧ getBits (0x0808 : Word) 8 8 = 8 ∧ opensKg State.reset .cmd ∧
     ¬ opensKg { State.reset with sec := { State.reset.sec with lifecycle := 3 } } .cmd) ∧
    (let s := log 4 14 [] []
     s.ringOn 8 = true ∧ s.ringCount 8 < s.ringCap 8 ∧ s.host.queue[1]? = some rec0 ∧ s.tm.holdLag = none ∧
     rec0.before { rec0 with stamp := 101 } = true ∧ EvRec.before { rec0 with stamp := 101 } rec0 = false) ∧
    (let s := log 4 14 [(F.RING_THR_thr 8, 15)] []
     s.ringCount 8 < s.f (F.RING_THR_thr 8) ∧ s.f (F.RING_THR_thr 8) ≤ s.ringCount 8 + 1) ∧
    (let s := log 4 16 [] [8]
     s.ringOn 8 = true ∧ ¬ s.ringCount 8 < s.ringCap 8 ∧ 8 ∈ s.host.dropping ∧ 8 ∉ (log 4 16 [] []).host.dropping) ∧
    (vec.bit (F.EVT_SRC_vec_en 63) = true ∧ vec.f (F.EVT_SRC_vector 63) = 15 ∧ vec.bit (pendFld 63) = true ∧ 15 ∈ State.reset.host.masked ∧
     15 ∉ held.host.masked) ∧
    (15 ∈ held.host.pba ∧ 15 ∉ held.host.masked ∧ 14 ∈ held.host.pba ∧ 14 ∈ held.host.masked ∧ 0 ∉ held.host.pba ∧ held.host.fnMask = true ∧
     State.reset.host.fnMask = false) := by
  unfold opensKg
  refine ⟨?_, ?_, ?_, ?_, ?_, ?_, ?_, ?_, ?_, ?_, ?_, ?_, ?_⟩ <;> decide +kernel

/-- R441: the earlier record is logged first, whatever its place in the queue; a full log drops it and EV53 says so. -/
theorem test_event_log :
    let e : EvRec := { source := 8, safety := false, payload := 7, stamp := 100, origin := 1, reaction := 2, tick := 3 }
    let s := fun (tail : Nat) => { ring 8 4 0 tail with host := { State.reset.host with queue := [{ e with stamp := 101 }, e], logNo := 9 } }
    after .eventLogWrite (s 14) (fun t => t.words (t.ringEntry 8 14) 8 == [0x70008, 100, 0, 1, 2, 3, 0, 9] && t.ringCount 8 == 15) = true ∧
    after .eventLogWrite (s 16) (fun t => t.ringCount 8 == 16 && t.f (F.RING_DROP_drops 8) == 1 && t.bit (pendFld 53) && t.host.dropped) = true := by
  decide +kernel

/-! ## Lifecycle, boot, tokens, resets, monitors, GPIOs and debug -/

/-- The reset state in lifecycle state `lc` and phase `ph`, with the fields `fs`. -/
def life (lc ph : Nat) (fs : List (Fld × Nat)) : State :=
  { st ([(F.DEV_LOCK_STS_phase, ph)] ++ fs) with sec := { lifecycle := lc } }

/-- An image of the magic number, the length `n` and security version 9, with the records `app`. -/
def image (n : Nat) (app : List Byte) : Image :=
  ⟨bytesOf 0x38564C4F 4 ++ bytesOf n 4 ++ bytesOf 9 4 ++ List.replicate 500 0, [], app⟩

/-- An application section of one tile record, in the clear, for program tile 2047, all of whose bytes are `b`. -/
def clearTile (b : Byte) : List Byte := [1, 0x14, 0x04, 0, 0xFF, 0x07] ++ List.replicate 18 0 ++ List.replicate 1024 b

/-- The power's state is `x` and the device in FIELD. -/
def power (x : PwrSt) : State := { State.reset with pwr := x }

/-- R451: exactly one of the results 0 to 7 is that of an image's boot. -/
theorem witness_boot_result (s : State) (i : Image) : ∃ k < 8, BootEnds s i k := by
  by_cases h : ∀ k < 8, ¬ bootFails s i k
  · exact ⟨0, by omega, fun k hk => absurd hk (Nat.not_lt_zero k), by simpa using h⟩
  · have h : ∃ k, k < 8 ∧ bootFails s i k := by simpa using h
    classical
    have f := Nat.find_spec h
    refine ⟨Nat.find h, f.1, fun k hk hf => Nat.find_min h hk ⟨by omega, hf⟩, ?_⟩
    have : Nat.find h ≠ 0 := fun e => by rw [e] at f; exact f.2
    simpa [this] using f

/-- Code 1 at reset, where no image stands in data memory; codes 1, 2 and 5 at the bounds of length, kind and version. -/
theorem witness_boot_codes :
    BootEnds State.reset State.reset.hostImage 1 ∧ BootEnds State.reset (image 0x400001 []) 1 ∧ ¬ bootFails State.reset (image 0x400000 []) 1 ∧
    BootEnds (life 0 0 []) (image 0x400000 []) 2 ∧ BootEnds (life 3 0 []) (image 512 [6, 0, 0, 0]) 2 ∧
    bootFails { State.reset with sec := { svnMin := 10 } } (image 512 []) 5 ∧ ¬ bootFails { State.reset with sec := { svnMin := 9 } } (image 512 []) 5 := by
  have one : ∀ s i, bootFails s i 1 → BootEnds s i 1 := fun s i h =>
    ⟨fun k hk => by interval_cases k; simp [bootFails], ⟨by decide, h⟩⟩
  have two : ∀ s i, ¬ bootFails s i 1 → bootFails s i 2 → BootEnds s i 2 := fun s i h1 h =>
    ⟨fun k hk => by interval_cases k; simp [bootFails]; exact h1, ⟨by decide, h⟩⟩
  refine ⟨one _ _ (Or.inl ?_), one _ _ (Or.inr ?_), ?_, two _ _ ?_ ?_, two _ _ ?_ ?_, ?_, ?_⟩ <;>
    (try simp only [bootFails]) <;> first | decide +kernel | skip
  show SecSt.admits _ _ = false
  simp only [SecSt.admits]
  rw [show (image 512 [6, 0, 0, 0]).otherKinds = 1 by decide +kernel]; simp

/-- Code 0 for an image of no records, in every state whose keys and hashes say so. -/
theorem witness_boot_accepted
    (h2 : Config.vendorTest (image 512 []).man = false)
    (h3 : Config.ecdsaVerify Config.vendorKey ((image 512 []).manifest.take 64) (image 512 []).vendorSig = true)
    (h4 : Config.ecdsaVerify 0 (image 512 []).manifest (image 512 []).customerSig = true)
    (h6 : Config.sha384 [] = (image 512 []).keeperHash ∧ Config.sha384 [] = (image 512 []).appHash) :
    BootEnds (life 3 0 []) (image 512 []) 0 := by
  have none_ : (image 512 []).tiles = [] ∧ (image 512 []).imageKey = [] ∧ (image 512 []).scheds = [] := ⟨rfl, rfl, rfl⟩
  refine ⟨fun k hk => absurd hk (Nat.not_lt_zero k), ?_⟩
  simp only [↓reduceIte]
  intro k hk
  interval_cases k <;> simp only [bootFails]
  · simp
  · decide +kernel
  · have e : (life 3 0 []).sec.admits (image 512 []) = !(image 512 []).vendorTest := by
      simp only [SecSt.admits, none_]; generalize (image 512 []).vendorTest = v; revert v; decide +kernel
    rw [e]; simp only [Image.vendorTest, h2]; decide
  · rw [h3]; decide
  · rintro ⟨-, h⟩; rw [if_neg (by decide +kernel)] at h; exact absurd (h4.symm.trans h) (by decide)
  · decide +kernel
  · rintro (h | h); exacts [h h6.1, h h6.2]
  · simp [none_]

theorem witness_LifecycleAndBoot :
    let held := power { mainRst := true, railOut := [(4, 2)] }
    let hot := power { mainRst := true, hotRst := true }
    let open_ := fun (r : PwrSt) => r.hotRst = true ∨ ∃ n < 5, tblGet 0 r.railOut n ≠ 0
    let pend := { power { causes := 0x36, rail := 4, clockFail := true } with sec := { openMark := true } }
    let tok := fun (lc : Nat) (fs : List (Fld × Nat)) (bs : List (Nat × Byte)) =>
      { life lc 1 ([(F.SEC_TOKEN_addr, 0xFFFB)] ++ fs) with mem := bs.foldl (fun m b => memPut m (dataBase + 0x1FFF60 + b.1) b.2) [] }
    let word := fun (s : State) => memBytes s.mem (dataBase + 32 * s.f F.SEC_TOKEN_addr) 136
    let magic : List (Nat × Byte) := [(0, 0x55), (1, 0x54), (2, 0x4B), (3, 0x4E)]
    let good := tok 3 [] (magic ++ [(4, 1)])
    let i := image 512 (clearTile 7)
    let fetch := { life 3 1 [] with eng := { refetch := some 2047 }, sec := { lifecycle := 3, image := some i, flash := some i, fromFlash := true } }
    (State.reset.pwr.mainRst = false ∧ State.reset.pwr.bootPend = true ∧ (power { bootPend := false }).pwr.bootPend = false ∧
     held.pwr.mainRst = true ∧ open_ held.pwr ∧ hot.pwr.mainRst = true ∧ open_ hot.pwr ∧ ¬ open_ { mainRst := true, railOut := [(5, 1)] }) ∧
    (pend.pwr.bootPend = true ∧ pend.sec.opening = true ∧ pend.pwr.causes.getLsbD 2 = true ∧ pend.pwr.causes.getLsbD 0 = false ∧
     pend.pwr.clockFail = true ∧ State.reset.sec.opening = false ∧ State.reset.pwr.causes.getLsbD 2 = false) ∧
    (State.reset.sec.flash = none ∧ 2 < (3 : BitVec 3).toNat ∧ (life 1 0 []).sec.lifecycle = 1 ∧ (life 4 0 []).sec.lifecycle = 4 ∧
     (life 0 0 []).sec.lifecycle = 0 ∧ (life 5 0 []).sec.lifecycle = 5) ∧
    ((life 3 0 []).f F.DEV_LOCK_STS_phase = 0 ∧ (life 3 3 []).f F.DEV_LOCK_STS_phase = 3 ∧ (life 3 2 []).f F.DEV_LOCK_STS_phase = 2) ∧
    (tokenFails (tok 2 [] [(4, 1)]) (word (tok 2 [] [(4, 1)])) 1 ∧ tokenFails (tok 3 [(F.TIME_TICK_STS_running, 1)] []) [] 1 ∧
     tokenFails (tok 3 [(F.PROT_CV_CTL_en 7, 1)] []) [] 1 ∧
     (let s := tok 3 [] (magic ++ [(4, 3)]); tokenFails s (word s) 2 ∧ ∀ j < 2, ¬ tokenFails s (word s) j) ∧
     (let s := tok 3 [] (magic ++ [(4, 1), (23, 1)]); tokenFails s (word s) 3 ∧ ∀ j < 3, ¬ tokenFails s (word s) j) ∧
     (let s := tok 3 [] (magic ++ [(4, 1), (39, 1)]); tokenFails s (word s) 4 ∧ ∀ j < 4, ¬ tokenFails s (word s) j) ∧
     ∀ j < 5, ¬ tokenFails good (word good) j) ∧
    (JtagInstr.other ≠ .idcode ∧ (life 5 0 []).sec.lifecycle ∈ [2, 3, 5] ∧ (life 4 0 []).sec.lifecycle ∉ [2, 3, 5]) ∧
    ((st [(F.DBG_CTL_tmx_en, 1)]).bit F.DBG_CTL_tmx_en = true ∧ (0x67 ≤ 0x67 ∧ ¬ 0x68 ≤ 0x67 ∧ 0x80 ≤ 0x80)) ∧
    (State.reset.sec.wdFired = false ∧ State.reset.f F.DEV_LOCK_STS_phase = 0 ∧ (life 3 1 []).f F.DEV_LOCK_STS_phase ≠ 0 ∧
     State.reset.demandChanges 7 10 = false ∧ (st [(F.PROT_CV_CTL_en 7, 1), (F.PROT_CV_STS_state 7, 0)]).demandChanges 7 10 = true) ∧
    (fetch.eng.refetch = some 2047 ∧ Memory.wf fetch.mem = true ∧ fetch.f F.DEV_LOCK_STS_phase ≠ 3 ∧
     (i.tiles.find? fun r => r.kind == 1 && r.tile == 2047).any (fun r => (fetch.sec.plain i r).any fun ws => ws.length == 256) = true ∧
     (i.tiles.find? fun r => r.kind == 1 && r.tile == 2046).isNone = true ∧ fetch.sec.flash = some i ∧ State.reset.eng.refetch = none) := by
  refine ⟨?_, ?_, ?_, ?_, ?_, ?_, ?_, ?_, ?_⟩
  case refine_5 =>
    have none0 : ∀ (s : State) (t : List Byte), ¬ tokenFails s t 0 := fun _ _ => by simp [tokenFails]
    refine ⟨?_, ?_, ?_, ⟨?_, ?_⟩, ⟨?_, ?_⟩, ⟨?_, ?_⟩, ?_⟩ <;>
      first
        | (simp only [tokenFails]; decide +kernel)
        | (intro j hj; interval_cases j <;> (first | exact none0 _ _ | (simp only [tokenFails]; decide +kernel)))
  all_goals decide +kernel

theorem witness_ResetsMonitorsGpioDebug :
    let inReset := power { mainRst := true, safRst := true, railOut := [(0, 1)] }
    let alive := power { mainRst := false, safRst := false, locked := true, railIn := [(5, 2), (4, 1), (3, 0)] }
    let g := st [(F.GPIO_FILT_filt, 3), (F.GPIO_RISE_EN_rise, 0x8000)]
    let open_ := life 4 1 []
    let l : LaneSt := { busy := true, slot := 31, word := 255, slots := [(31, 2048)] }
    let core := { life 4 1 [(F.ENG_DBG_CTL_bp_en 7, 8), (F.ENG_DBG_BP_addr 7 3, 2047 * 1024 + 255 * 4)] with eng := { lanes := [(7, l)] } }
    let stopped := { core with eng := { core.eng with haltAt := some 4 }, mds := [(7, { State.reset.md 7 with held := some 5 })] }
    let shows := fun (f k : Nat) => put stopped [(F.ENG_DBG_SEL_file 7, f), (F.ENG_DBG_SEL_index 7, k)]
    (tblGet 0 inReset.pwr.railOut (OutBall.rail (.gate 0 true)) ≠ 1 ∧ ResetCause.supply 4 ≠ .powerUp ∧ inReset.pwr.mainRst = true ∧ State.reset.pwr.mainRst = false) ∧
    (inReset.pwr.safRst = true ∧ State.reset.pwr.safRst = false ∧ State.reset.pwr.safPend = true ∧
     (power { safPend := false }).pwr.safPend = false ∧ tblGet 0 (power { safRst := true, railOut := [(5, 2)] }).pwr.railOut 5 ≠ 0) ∧
    (State.reset.pwr.locked = false ∧ alive.pwr.locked = true ∧ alive.pwr.rstoutN = false ∧ alive.tm.holdLag = none) ∧
    ((740 ≤ 740 ∧ 739 < (railWindow 0).2.1 ∧ (railWindow 0).2.2 < 881) ∧ tblGet 0 inReset.pwr.railOut 0 = 1 ∧ (railWindow 5).1 = (3100, 3500)) ∧
    (alive.pwr.mainRst = false ∧ alive.pwr.safRst = false ∧ tblGet 2 alive.pwr.railIn 5 = 2 ∧ tblGet 2 alive.pwr.railIn 4 = 1 ∧ tblGet 2 alive.pwr.railIn 3 = 0) ∧
    ((816 : BitVec 11).toNat = 816 ∧ (815 : BitVec 11).toNat < 816 ∧ (735 : BitVec 11).toNat < 736 ∧
     (st [(F.CLK_TEMP_hot, 1)]).bit F.CLK_TEMP_hot = true ∧ State.reset.bit F.CLK_TEMP_hot = false ∧ State.reset.f F.CLK_TEMP_CFG_warn < 815) ∧
    (g.f F.GPIO_FILT_filt < 4 ∧ ¬ g.f F.GPIO_FILT_filt < 3 ∧ (g.f F.GPIO_IN_level).testBit 15 = false ∧ (g.f F.GPIO_RISE_EN_rise).testBit 15 = true ∧
     (g.f F.GPIO_RISE_EN_rise).testBit 14 = false ∧ g.gpioDriven 15 = none ∧ g.host.queue.length < 256 ∧
     (st [(F.EVT_SRC_log_en 61, 1)]).bit (F.EVT_SRC_log_en 61) = true) ∧
    (open_.sec.lifecycle = 4 ∧ open_.bit F.SHFT_CTL_en = false ∧ open_.halted = false ∧ stopped.halted = true ∧ (life 3 1 []).sec.lifecycle ≠ 4) ∧
    ((core.core 7).busy = true ∧ (core.core 7).slot < 32 ∧ tblGet 0 (core.core 7).slots (core.core 7).slot ≠ 0 ∧
     (core.f (F.ENG_DBG_CTL_bp_en 7)).testBit 3 = true ∧ core.f (F.ENG_DBG_BP_addr 7 3) = (core.core 7).pcAddr ∧ (core.core 6).busy = false) ∧
    ((stopped.core 7).busy = true ∧ (Sys2Proof.decodeNimson (.lane 7) (stopped.word (slotBase 7 31 + 4 * 255))).isSome = true) ∧
    ((shows 0 31).f (F.ENG_DBG_SEL_file 7) = 0 ∧ (shows 0 31).f (F.ENG_DBG_SEL_index 7) = 31 ∧ (shows 1 31).f (F.ENG_DBG_SEL_file 7) = 1 ∧
     (shows 2 7).f (F.ENG_DBG_SEL_index 7) = 7 ∧ (shows 3 8).f (F.ENG_DBG_SEL_file 7) = 3 ∧ (shows 3 8).f (F.ENG_DBG_SEL_index 7) = 8) ∧
    (stopped.eng.haltAt = some 4 ∧ (stopped.md 7).held = some 5 ∧ State.reset.eng.haltAt = none) := by
  refine ⟨?_, ?_, ?_, ?_, ?_, ?_, ?_, ?_, ?_, ?_, ?_, ?_⟩ <;> decide +kernel

/-- R473: a supply just outside its warning window is told once, and reset outside its reset window. -/
theorem test_supply :
    let s := State.reset
    after (.supplyMeasurement 1 864) s (fun t => !t.bit ⟨R.CLK_SUP_STS, 1, 1⟩ && t.f (F.CLK_SUP_mv 1) == 864 && !t.pwr.mainRst) = true ∧
    after (.supplyMeasurement 1 865) s (fun t => t.bit ⟨R.CLK_SUP_STS, 1, 1⟩) = true ∧
    after (.supplyMeasurement 1 829) s (fun t => t.pwr.mainRst && t.pwr.causes.getLsbD 2 && t.pwr.rail == 1) = true ∧
    after (.supplyMeasurement 5 2949) s (fun t => t.pwr.safRst && !t.pwr.mainRst) = true := by decide +kernel

end Sys2Proof.Tests
end

/-! # Register access by each master, its lock, PCIe and SPI (O57)

A write passes the gates (lock, key guard, secure gate), which touch DEV_LOCK_STS alone; the register map then says that a
quiet register takes no action, so the write is one register's. Reads, memory windows and links follow their own paths. -/

namespace Sys2Proof.Machine

/-! ## Locks and guards (R428, R429) -/

/-- The lock of master `m` is closed. -/
def LockClosed (m : Master) (t : State) : Prop := ∀ x ∈ lockBit m, t.bit x = false

theorem lockFld_eq_lockBit (m : Master) : lockFld m = lockBit m := by cases m <;> rfl

/-- A lock shows as one of the three lowest bits of DEV_LOCK_STS. -/
theorem lockBit_place {m : Master} {x : Fld} (h : x ∈ lockBit m) :
    x.addr = R.DEV_LOCK_STS ∧ x.lsb < 3 ∧ x.width = 1 := by
  cases m <;> simp only [lockBit, Option.mem_def, Option.some.injEq, reduceCtorEq] at h <;> subst h <;> decide

theorem keyed_iff_opensKg (s : State) (m : Master) : s.keyed m = true ↔ opensKg s m := by
  unfold State.keyed opensKg State.guard
  rw [lockFld_eq_lockBit]
  cases lockBit m <;> simp

theorem reg_setLock_ne (s : State) (m : Master) (v : Bool) {b : Nat} (h : b ≠ R.DEV_LOCK_STS) :
    (s.setLock m v).reg b = s.reg b := by
  unfold State.setLock
  split
  · rfl
  · next x hx =>
    rw [lockFld_eq_lockBit] at hx
    exact reg_setB_ne s v (by rwa [(lockBit_place hx).1])

/-- A lock opened or closed shows so. -/
theorem bit_setLock (s : State) {m : Master} (v : Bool) {x : Fld} (h : x ∈ lockBit m) : (s.setLock m v).bit x = v := by
  obtain ⟨-, hl, hw⟩ := lockBit_place h
  unfold State.setLock
  rw [lockFld_eq_lockBit, h]
  exact bit_setB_same s x v (by unfold Fld.ok; omega) hw

@[simp] theorem setLock_mem (s : State) (m : Master) (v : Bool) : (s.setLock m v).mem = s.mem := by
  unfold State.setLock; split <;> rfl
@[simp] theorem setLock_pending (s : State) (m : Master) (v : Bool) : (s.setLock m v).pending = s.pending := by
  unfold State.setLock; split <;> rfl
@[simp] theorem setLock_tm (s : State) (m : Master) (v : Bool) : (s.setLock m v).tm = s.tm := by
  unfold State.setLock; split <;> rfl
@[simp] theorem setLock_held (s : State) (m : Master) (v : Bool) : (s.setLock m v).held = s.held := by
  unfold State.setLock; split <;> rfl

theorem onlyReg_refl (s : State) (a : Nat) : OnlyReg s s a := ⟨fun _ _ _ => rfl, rfl, rfl, rfl⟩

theorem onlyReg_setLock (s : State) (m : Master) (v : Bool) : OnlyReg s (s.setLock m v) R.DEV_LOCK_STS :=
  ⟨fun _ _ hb => reg_setLock_ne s m v hb, setLock_mem s m v, setLock_pending s m v, setLock_tm s m v⟩

theorem lockClosed_lockUse (s : State) (m : Master) : LockClosed m (s.lockUse m) := fun _ hx => bit_setLock s false hx

/-- A drop bit of DEV_LOCK_STS. -/
def DropBit (x : Fld) : Prop := x.addr = R.DEV_LOCK_STS ∧ 3 ≤ x.lsb ∧ x.lsb < 32 ∧ x.width = 1

theorem dropBit_kg : DropBit F.DEV_LOCK_STS_kg_drop := by unfold DropBit; decide
theorem dropBit_sg : DropBit F.DEV_LOCK_STS_sg_drop := by unfold DropBit; decide
theorem dropBit_part : DropBit F.DEV_LOCK_STS_part_drop := by unfold DropBit; decide
theorem dropBit_lapsed : DropBit F.DEV_LOCK_STS_lapsed := by unfold DropBit; decide

theorem bit_setF_one {s : State} {x : Fld} (h : DropBit x) : (s.setF x 1).bit x = true := by
  obtain ⟨-, -, hl, hw⟩ := h
  rw [bit_eq_f, f_setF_same s x 1 (by unfold Fld.ok; omega), hw]
  rfl

/-- A drop bit that is set leaves the locks alone. -/
theorem bit_lock_setF_drop {s : State} {m : Master} {x y : Fld} (hx : DropBit x) (hy : y ∈ lockBit m) :
    (s.setF x 1).bit y = s.bit y := by
  obtain ⟨-, h3, hl, hw⟩ := hx
  obtain ⟨-, hl', hw'⟩ := lockBit_place hy
  rw [bit_eq_f, bit_eq_f, f_setF_apart s x y 1 (by unfold Fld.ok; omega) (by unfold Fld.apart; omega)]

theorem onlyReg_setF_drop {s t : State} {a : Nat} {x : Fld} (hx : DropBit x) (h : OnlyReg s t a) :
    OnlyReg s (t.setF x 1) a := by
  obtain ⟨hr, hm, hp, ht⟩ := h
  exact ⟨fun b hb hl => (reg_setF_ne t 1 (by rwa [hx.1])).trans (hr b hb hl), hm, hp, ht⟩

/-! ## What the guards of a write leave (R428, R429) -/

/-- Key-guarded bits among `sel` that master `m` may not write. -/
def State.dropsKg (s : State) (m : Master) (r : RegSpec) (sel : Word) : Bool :=
  sel &&& BitVec.ofNat 32 r.kg != 0 && !s.keyed m

/-- Secure-gated bits among `sel` that master `m` may not write. -/
def State.dropsSg (s : State) (m : Master) (r : RegSpec) (sel : Word) : Bool :=
  (sel &&& BitVec.ofNat 32 r.sg != 0) && m != .keeper && s.phase != 1

/-- The state once the guards of a write have acted: the lock used up where `use`, the drop bits set. -/
def State.guards (s : State) (m : Master) (use kg sg : Bool) : State :=
  let s := if use then s.lockUse m else s
  let s := if kg then s.setF F.DEV_LOCK_STS_kg_drop 1 else s
  if sg then s.setF F.DEV_LOCK_STS_sg_drop 1 else s

theorem onlyReg_guards (s : State) (m : Master) (use kg sg : Bool) : OnlyReg s (s.guards m use kg sg) R.DEV_LOCK_STS := by
  have h1 : OnlyReg s (if use then s.lockUse m else s) R.DEV_LOCK_STS := by
    cases use
    · exact onlyReg_refl s _
    · exact onlyReg_setLock s m false
  have h2 : OnlyReg s (if kg then (if use then s.lockUse m else s).setF F.DEV_LOCK_STS_kg_drop 1
      else if use then s.lockUse m else s) R.DEV_LOCK_STS := by
    cases kg
    · exact h1
    · exact onlyReg_setF_drop dropBit_kg h1
  cases sg
  · exact h2
  · exact onlyReg_setF_drop dropBit_sg h2

@[simp] theorem guards_held (s : State) (m : Master) (use kg sg : Bool) : (s.guards m use kg sg).held = s.held := by
  unfold State.guards State.lockUse
  cases use <;> cases kg <;> cases sg <;> simp

/-- The guards leave a lock as it is, or close it where the write uses it up. -/
theorem bit_lock_guards (s : State) {m : Master} (use kg sg : Bool) {x : Fld} (hx : x ∈ lockBit m) :
    (s.guards m use kg sg).bit x = (if use then false else s.bit x) := by
  have hu : (if use then s.lockUse m else s).bit x = (if use then false else s.bit x) := by
    cases use
    · rfl
    · exact lockClosed_lockUse s m x hx
  unfold State.guards
  cases kg <;> cases sg <;>
    simp only [if_true, if_false, Bool.false_eq_true, bit_lock_setF_drop dropBit_kg hx, bit_lock_setF_drop dropBit_sg hx, hu]

theorem bit_kg_guards (s : State) (m : Master) (use sg : Bool) :
    (s.guards m use true sg).bit F.DEV_LOCK_STS_kg_drop = true := by
  unfold State.guards
  cases sg
  · exact bit_setF_one dropBit_kg
  · simp only [if_true]
    rw [bit_eq_f, f_setF_apart _ F.DEV_LOCK_STS_sg_drop F.DEV_LOCK_STS_kg_drop 1 (by unfold Fld.ok; decide)
      (by unfold Fld.apart; decide), ← bit_eq_f]
    exact bit_setF_one dropBit_kg

theorem bit_sg_guards (s : State) (m : Master) (use kg : Bool) :
    (s.guards m use kg true).bit F.DEV_LOCK_STS_sg_drop = true := bit_setF_one dropBit_sg

/-! ## The register map -/

theorem findSpec_some {l : List RegSpec} {a : Nat} {r : RegSpec} (h : findSpec l a = some r) : r ∈ l ∧ r.hit a = true := by
  induction l with
  | nil => simp [findSpec] at h
  | cons e t ih =>
    unfold findSpec at h
    split at h
    next he => injection h with h; subst h; exact ⟨List.mem_cons_self, he⟩
    next => exact ⟨List.mem_cons_of_mem _ (ih h).1, (ih h).2⟩

/-- The table of a block. -/
def blockRegs (k : Nat) : List RegSpec :=
  ([regsDev, regsClk, regsTime, regsEng, regsCtx, regsTile, regsSns, regsFld, regsMod, regsGate, regsKyn, regsArm, regsProt,
    regsFbk, regsMot, regsShft, regsCan, regsRing, regsEvt, regsSafe, regsShared][k]?).getD []

theorem regSpec_eq_blockRegs (a : Nat) : regSpec a = findSpec (blockRegs (a / 0x10000)) a := by
  unfold regSpec
  generalize a / 0x10000 = k
  obtain hk | hk := Nat.lt_or_ge k 21
  · interval_cases k <;> rfl
  · obtain ⟨n, rfl⟩ := Nat.exists_eq_add_of_le' hk
    rfl

/-- A register that is there stands in the table of its block, and its kind is repeated at its address. -/
theorem regSpec_some {a : Nat} {r : RegSpec} (h : regSpec a = some r) :
    r ∈ blockRegs (a / 0x10000) ∧ r.hit a = true := by
  rw [regSpec_eq_blockRegs] at h
  exact findSpec_some h

theorem block_of_regSpec {a : Nat} {r : RegSpec} (h : regSpec a = some r) : a / 0x10000 < 21 := by
  by_contra hn
  have := (regSpec_some h).1
  unfold blockRegs at this
  rw [List.getElem?_eq_none (by simp only [List.length_cons, List.length_nil]; omega)] at this
  cases this

/-- The masks of a register kind fit its word; masked-write bits are RW, read-clear bits are neither secure-gated nor
write-only (R9). -/
def RegSpec.Sane (r : RegSpec) : Prop :=
  r.kg < 2 ^ 32 ∧ r.sg < 2 ^ 32 ∧ r.mw &&& r.rw = r.mw ∧ r.rc &&& r.sg = 0 ∧ r.rc &&& r.wo = 0

theorem blockRegs_sane : ∀ k < 21, ∀ r ∈ blockRegs k, r.Sane := by unfold RegSpec.Sane; decide +kernel

theorem sane_of_regSpec {a : Nat} {r : RegSpec} (h : regSpec a = some r) : r.Sane :=
  blockRegs_sane _ (block_of_regSpec h) r (regSpec_some h).1

/-! ## Writes of quiet registers -/

/-- A repetition of a kind lies below the end of the outermost one. -/
theorem dimsHit_lt {c st d : Nat} {l : List (Nat × Nat)} (hst : 0 < st) (h : dimsHit ((c, st) :: l) d = true) :
    d < c * st := by
  simp only [dimsHit, Bool.and_eq_true, decide_eq_true_eq] at h
  exact (Nat.div_lt_iff_lt_mul hst).1 h.1

/-- Of block ARM, the kinds without a WO field lie below the cells' registers, but for ARM_CELL_STS. -/
theorem regsArm_wo : ∀ r ∈ regsArm, r.wo = 0 →
    (r.addr < 0xB0100 ∧ r.dims.head? = some (12, 0x80)) ∨ (r.addr = 0xB1004 ∧ r.dims = [(384, 8)]) := by decide +kernel

/-- ARM_CELLc_CFG has a WO field. -/
theorem wo_of_cellCfg {a : Nat} {r : RegSpec} (h : regSpec a = some r) (hb : a / 0x10000 = 11)
    (ho : 0x1000 ≤ a % 0x10000) (h8 : a % 8 = 0) : r.wo ≠ 0 := by
  intro hwo
  obtain ⟨hm, hhit⟩ := regSpec_some h
  rw [hb] at hm
  unfold RegSpec.hit at hhit
  simp only [Bool.and_eq_true, decide_eq_true_eq] at hhit
  obtain ⟨hle, hd⟩ := hhit
  rcases regsArm_wo r hm hwo with ⟨ha, hdim⟩ | ⟨ha, hdim⟩
  · obtain ⟨l, hl⟩ := List.head?_eq_some_iff.1 hdim
    rw [hl] at hd
    have := dimsHit_lt (by decide) hd
    omega
  · rw [hdim] at hd
    simp only [dimsHit, Bool.and_eq_true, decide_eq_true_eq, beq_iff_eq] at hd
    omega

theorem regWhole_quiet (s : State) {a : Nat} {r : RegSpec} (x : RegWr) (h : quiet a r) : s.regWhole a x = none := by
  obtain ⟨hb, -, -, -, -, -, hm⟩ := h
  simp only [List.mem_cons, List.not_mem_nil, or_false] at hb
  rcases hb with hb | hb | hb | hb | hb | hb | hb <;> simp [State.regWhole, hb, hm]

/-- No bit written 1 to a quiet register acts. -/
theorem regAct_quiet (was s : State) {a : Nat} {r : RegSpec} {x : RegWr} (h : quiet a r) (hx : x.wo = 0) :
    State.regAct was s a x = s := by
  obtain ⟨hb, -⟩ := h
  simp only [List.mem_cons, List.not_mem_nil, or_false] at hb
  rcases hb with hb | hb | hb | hb | hb | hb | hb <;> simp [State.regAct, hb, hx, getBits, bitsOf]

theorem keptBits_quiet (s : State) {a : Nat} {r : RegSpec} (new : Word) (hr : regSpec a = some r) (h : quiet a r) :
    s.keptBits a new = 0 := by
  obtain ⟨hb, -, hwo, -⟩ := h
  have hc : ¬ (a / 0x10000 = 11 ∧ 0x1000 ≤ a % 0x10000 ∧ a % 8 = 0) := fun ⟨h1, h2, h3⟩ => wo_of_cellCfg hr h1 h2 h3 hwo
  have h16 : a / 0x10000 ≠ 16 := by intro h; rw [h] at hb; revert hb; decide
  unfold State.keptBits
  rw [if_neg (by simp only [Bool.and_eq_true, decide_eq_true_eq]; tauto),
    if_neg (by simp [h16])]

/-- The word that a write of `val` to the bits `reach` of register `a` leaves in it. -/
def State.written (s : State) (a : Nat) (r : RegSpec) (reach val : Word) : Word :=
  (s.reg a &&& ~~~(BitVec.ofNat 32 r.rw &&& reach)) ||| (val &&& (BitVec.ofNat 32 r.rw &&& reach))

/-- `u` differs from `t` in register `a` only, which holds `w`. -/
structure Writes (t u : State) (a : Nat) (w : Word) : Prop where
  same : u.reg a = w
  regs : ∀ b, b ≠ a → u.reg b = t.reg b
  mem : u.mem = t.mem
  pending : u.pending = t.pending
  tm : u.tm = t.tm

theorem writes_setReg (t : State) (a : Nat) (w : Word) : Writes t (t.setReg a w) a w :=
  ⟨reg_setReg_same t a w, fun _ h => reg_setReg_ne t w h, rfl, rfl, rfl⟩

theorem writes_refl (t : State) (a : Nat) : Writes t t a (t.reg a) := ⟨rfl, fun _ _ => rfl, rfl, rfl, rfl⟩

@[simp] theorem word_and_ones (w : Word) : w &&& 0xFFFFFFFF#32 = w := BitVec.and_allOnes

/-- The RW bits that a write reaches take the value, every other bit stays. -/
theorem merge_written (old val rw reach : Word) :
    (old &&& ~~~rw) ||| ((((old &&& rw) &&& ~~~(rw &&& reach)) ||| (val &&& (rw &&& reach))) &&& rw) =
      (old &&& ~~~(rw &&& reach)) ||| (val &&& (rw &&& reach)) := by
  ext i hi
  simp only [BitVec.getElem_or, BitVec.getElem_and, BitVec.getElem_not]
  cases old[i] <;> cases rw[i] <;> cases reach[i] <;> simp

theorem regPlain_quiet (t : State) {a : Nat} {x : RegWr} {val : Word} (h1 : x.one = 0) (hh : x.hw = 0)
    (hn : x.new = ((t.reg a &&& BitVec.ofNat 32 x.r.rw) &&& ~~~(BitVec.ofNat 32 x.r.rw &&& x.reach)) |||
      (val &&& (BitVec.ofNat 32 x.r.rw &&& x.reach))) :
    t.regPlain a x 0 = t.setReg a (t.written a x.r x.reach val) := by
  unfold State.regPlain State.written
  rw [← merge_written, ← hn, h1, hh]
  simp

/-- A write of a quiet register after its guards. -/
theorem writes_regPut_quiet (t : State) {a : Nat} {x : RegWr} {val : Word} (hr : regSpec a = some x.r) (hq : quiet a x.r)
    (h1 : x.one = 0) (hwo : x.wo = 0) (hh : x.hw = 0)
    (hn : x.new = ((t.reg a &&& BitVec.ofNat 32 x.r.rw) &&& ~~~(BitVec.ofNat 32 x.r.rw &&& x.reach)) |||
      (val &&& (BitVec.ofNat 32 x.r.rw &&& x.reach))) :
    Writes t (t.regPut a x).1 a (t.written a x.r x.reach val) := by
  obtain ⟨hb, -, hqwo, hqw1c, he, hc, hm⟩ := id hq
  have h7 : a / 0x10000 ≠ 7 := by intro h; rw [h] at hb; revert hb; decide
  have htouch : BitVec.ofNat 32 (x.r.rw ||| x.r.w1c ||| x.r.wo) = BitVec.ofNat 32 x.r.rw := by simp [hqwo, hqw1c]
  unfold State.regPut
  simp only [htouch]
  by_cases ht : x.reach &&& BitVec.ofNat 32 x.r.rw = 0#32
  · have hw : t.written a x.r x.reach val = t.reg a := by
      unfold State.written
      rw [BitVec.and_comm (BitVec.ofNat 32 x.r.rw), ht]
      simp
    rw [if_pos (by simp [ht, h7]), hw]
    exact writes_refl t a
  · rw [if_neg (by simp [ht]), regWhole_quiet t x hq]
    simp only [hc, he, keptBits_quiet t x.new hr hq, regPlain_quiet t h1 hh hn, regAct_quiet t _ hq hwo]
    rw [if_neg (by simp [ht])]
    exact writes_setReg t a _

/-! ## A register write after the gates (R426–R429) -/

/-- A write of the bits `sel` uses up the lock: every write but a masked one that selects no key-guarded bit (R428). -/
def usesLock (r : RegSpec) (sel : Word) (masked : Bool) : Bool := !(masked && !(sel &&& BitVec.ofNat 32 r.kg != 0))

/-- The state once the guards of a write by `m` of the bits `sel` have acted. -/
def State.gated (s : State) (m : Master) (r : RegSpec) (sel : Word) (masked : Bool) : State :=
  s.guards m (usesLock r sel masked) (s.dropsKg m r sel) (s.dropsSg m r sel)

/-- The bits of register `a` that a write by `m` of the bits `sel` reaches. -/
def State.reached (s : State) (m : Master) (a : Nat) (r : RegSpec) (sel : Word) (masked : Bool) : Word :=
  sel &&& liveBits a &&& (if masked then BitVec.ofNat 32 r.mw else 0xFFFFFFFF) &&&
    ~~~((if s.dropsKg m r sel then BitVec.ofNat 32 r.kg else 0) ||| (if s.dropsSg m r sel then BitVec.ofNat 32 r.sg else 0))

/-- What the gates hand on to the register. -/
def State.regWrOf (s : State) (m : Master) (a : Nat) (r : RegSpec) (sel val hw : Word) (masked : Bool) : RegWr :=
  let reach := s.reached m a r sel masked
  let rw := BitVec.ofNat 32 r.rw &&& reach
  { r := r, new := (((s.gated m r sel masked).base a &&& BitVec.ofNat 32 r.rw) &&& ~~~rw) ||| (val &&& rw)
    one := if m = .keeper && (a = R.EVT_PEND 0 || a = R.EVT_PEND 1) then 0 else val &&& BitVec.ofNat 32 r.w1c &&& reach
    wo := val &&& BitVec.ofNat 32 r.wo &&& reach
    reach := reach, hw := hw }

/-- A write of a register that the part has, other than the lock key and what only the keeper writes. -/
theorem regWrite_eq (s : State) {m : Master} {a : Nat} {r : RegSpec} (sel val hw : Word) (masked : Bool)
    (hr : regSpec a = some r) (hl : s.part.lacks a = false) (hk : a ≠ R.DEV_LOCK_KEY) (hp : s.keeperPut a val = none) :
    (s.regWrite m a sel val hw masked).1 =
      ((s.gated m r sel masked).regPut a (s.regWrOf m a r sel val hw masked)).1 := by
  have hp' : (if m = .keeper then s.keeperPut a val else none) = none := by split <;> [exact hp; rfl]
  unfold State.regWrite
  simp only [hr, hl, hk, hp', decide_false, Bool.false_and, Bool.false_eq_true, if_false]
  have hu : (if (masked && !(sel &&& BitVec.ofNat 32 r.kg != 0)) = true then s else s.lockUse m) =
      if usesLock r sel masked = true then s.lockUse m else s := by
    unfold usesLock
    cases masked && !(sel &&& BitVec.ofNat 32 r.kg != 0) <;> rfl
  rw [hu]
  rfl

theorem keeperPut_none (s : State) {a : Nat} (val : Word) (h7 : a / 0x10000 ≠ 7) (h9 : a / 0x10000 ≠ 9) :
    s.keeperPut a val = none := by
  simp [State.keeperPut, h7, h9]

theorem quiet_block {a : Nat} {r : RegSpec} (h : quiet a r) :
    a / 0x10000 ≠ 0 ∧ a / 0x10000 ≠ 7 ∧ a / 0x10000 ≠ 9 ∧ a / 0x10000 ≤ 15 ∧ a % 0x10000 < 0x4000 := by
  obtain ⟨hb, ho, -⟩ := h
  simp only [List.mem_cons, List.not_mem_nil, or_false] at hb
  omega

/-- The value that a write of a quiet register replaces is the register's (R426). -/
theorem base_quiet (s : State) {a : Nat} {r : RegSpec} (h : quiet a r) (hh : tblFind s.held a = none) : s.base a = s.reg a := by
  obtain ⟨-, -, h9, -⟩ := quiet_block h
  obtain ⟨-, -, -, -, -, -, hm⟩ := h
  simp [State.base, hm, isGateCmd, h9, hh]

theorem reg_gated (s : State) (m : Master) (r : RegSpec) (sel : Word) (masked : Bool) {b : Nat} (h : b ≠ R.DEV_LOCK_STS) :
    (s.gated m r sel masked).reg b = s.reg b := (onlyReg_guards s m _ _ _).1 b h h

/-- A write of a quiet register changes that register, as the gates let it, and otherwise what the gates change. -/
theorem writes_regWrite_quiet (s : State) {m : Master} {a : Nat} {r : RegSpec} (sel val : Word) (masked : Bool)
    (hr : regSpec a = some r) (hq : quiet a r) (hl : s.part.lacks a = false) (hh : tblFind s.held a = none) :
    Writes (s.gated m r sel masked) (s.regWrite m a sel val 0 masked).1 a
      (s.written a r (s.reached m a r sel masked) val) := by
  obtain ⟨h0, h7, h9, -⟩ := quiet_block hq
  obtain ⟨-, -, hwo, hw1c, -⟩ := id hq
  have hlk : a ≠ R.DEV_LOCK_STS := by rintro rfl; exact h0 rfl
  have hbase : (s.gated m r sel masked).base a = s.reg a :=
    (base_quiet _ hq (by simpa [State.gated] using hh)).trans (reg_gated s m r sel masked hlk)
  rw [regWrite_eq s sel val 0 masked hr hl (by rintro rfl; exact h0 rfl) (keeperPut_none s val h7 h9)]
  have hw := writes_regPut_quiet (s.gated m r sel masked) (x := s.regWrOf m a r sel val 0 masked) (val := val) hr hq
    (by simp [State.regWrOf, hw1c]) (by simp [State.regWrOf, hwo]) rfl
    (by simp only [State.regWrOf, hbase, reg_gated s m r sel masked hlk])
  simp only [State.written, reg_gated s m r sel masked hlk] at hw ⊢
  exact hw

theorem onlyReg_of_writes {s t u : State} {a : Nat} {w : Word} (h : OnlyReg s t R.DEV_LOCK_STS) (hw : Writes t u a w) :
    OnlyReg s u a := by
  obtain ⟨hr, hm, hp, ht⟩ := h
  exact ⟨fun b hb hl => (hw.regs b hb).trans (hr b hl hl), hw.mem.trans hm, hw.pending.trans hp, hw.tm.trans ht⟩

theorem getLsbD_written (s : State) (a : Nat) (r : RegSpec) (reach val : Word) {i : Nat} (hi : i < 32) :
    (s.written a r reach val).getLsbD i =
      if r.rw.testBit i && reach.getLsbD i then val.getLsbD i else (s.reg a).getLsbD i := by
  unfold State.written
  simp only [BitVec.getLsbD_or, BitVec.getLsbD_and, BitVec.getLsbD_not, BitVec.getLsbD_ofNat, hi, decide_true, Bool.true_and]
  cases r.rw.testBit i <;> cases reach.getLsbD i <;> simp

/-- The fields of DEV_LOCK_STS are as the gates left them where another register is written. -/
theorem Writes.bit {t u : State} {a : Nat} {w : Word} (hw : Writes t u a w) {x : Fld} (hx : x.addr ≠ a) : u.bit x = t.bit x := by
  rw [bit_eq_f, bit_eq_f, f_congr (hw.regs x.addr hx)]

theorem getLsbD_reached (s : State) (m : Master) (a : Nat) (r : RegSpec) (sel : Word) (masked : Bool) {i : Nat} (hi : i < 32) :
    (s.reached m a r sel masked).getLsbD i = (sel.getLsbD i && (liveBits a).getLsbD i && (!masked || r.mw.testBit i) &&
      !(s.dropsKg m r sel && r.kg.testBit i) && !(s.dropsSg m r sel && r.sg.testBit i)) := by
  unfold State.reached
  cases s.dropsKg m r sel <;> cases s.dropsSg m r sel <;> cases masked <;>
    simp [-BitVec.getLsbD_eq_getElem, BitVec.getLsbD_ofNat, hi, Bool.and_assoc]

/-! ## The bus (R422, R424) -/

/-- The device acts on an access of master `m`: the main die is out of reset, and a PCIe host has not put the function in
D3hot (R421, R469). -/
def Hears (s : State) (m : Master) : Prop := s.pwr.mainRst = false ∧ (m = .pcie → s.host.d3hot = false)

theorem exec_registerWrite {s : State} {m : Master} (h : Hears s m) (a : Nat) (be : BitVec 4) (v w : Word) :
    Machine.exec (.registerWrite m a be v w) s = .next (s.busWrite m a be v w).1 :=
  onBus_run (fun s => (s.busWrite m a be v w).1) h.1 h.2

theorem exec_maskedWrite {s : State} {m : Master} (h : Hears s m) (a : Nat) (v : Word) :
    Machine.exec (.maskedWrite m a v) s = .next (s.busWrite m a 0xF v 0).1 :=
  onBus_run (fun s => (s.busWrite m a 0xF v 0).1) h.1 h.2

theorem exec_readClear {s : State} {m : Master} (h : Hears s m) (a : Nat) (inc : Word) :
    Machine.exec (.readClear m a inc) s = .next (s.readInc m a inc) :=
  onBus_run (fun s => s.readInc m a inc) h.1 h.2

theorem exec_lockKey {s : State} {m : Master} (h : Hears s m) (v : Word) :
    Machine.exec (.lockKey m v) s = .next (s.lockKey m v) :=
  onBus_run (fun s => s.lockKey m v) h.1 h.2

theorem exec_forerunnerRead {s : State} {m : Master} (h : Hears s m) (k : Fin 24) :
    Machine.exec (.forerunnerRead m k) s =
      .next ((s.readReg m (R.EVT_FR k)).2.returns m [(s.readReg m (R.EVT_FR k)).1]) :=
  onBus_run (fun s => (s.readReg m (R.EVT_FR k)).2.returns m [(s.readReg m (R.EVT_FR k)).1]) h.1 h.2

theorem aligned_eq {a : Nat} (h : a % 4 = 0) : a / 4 * 4 = a := by omega

theorem canObject_none {a : Nat} (h : a / 0x10000 ≠ 16) : canObject a = none := by
  simp [canObject, h]

theorem regsCan_below : ∀ r ∈ regsCan, 0x100000 ≤ r.addr ∧ r.addr < 0x100080 ∧ r.dims.head? = some (4, 0x4000) ∧
    (r.dims.tail = [] ∨ r.dims.tail = [(3, 4)]) := by decide +kernel

/-- The registers of a controller lie below its message RAM (R366, R382). -/
theorem canObject_of_regSpec {a : Nat} {r : RegSpec} (h : regSpec a = some r) : canObject a = none := by
  by_cases hb : a / 0x10000 = 16
  · obtain ⟨hm, hhit⟩ := regSpec_some h
    rw [hb] at hm
    obtain ⟨hlo, hhi, hh, ht⟩ := regsCan_below r hm
    obtain ⟨l, hl⟩ := List.head?_eq_some_iff.1 hh
    simp only [RegSpec.hit, Bool.and_eq_true, decide_eq_true_eq, hl, dimsHit] at hhit
    rw [hl, List.tail_cons] at ht
    have hoff : a % 0x4000 < 0x2000 := by
      obtain ⟨hle, -, hrest⟩ := hhit
      rcases ht with rfl | rfl <;> simp only [dimsHit, beq_iff_eq, Bool.and_eq_true, decide_eq_true_eq] at hrest <;> omega
    simp [canObject, hb, hoff]
  · exact canObject_none hb

/-- A write outside the memory windows goes to the registers. -/
theorem busWrite_regs (s : State) {m : Master} {a : Nat} (be : BitVec 4) (v w : Word) (h4 : a % 4 = 0)
    (hb : a / 0x10000 < 21) (hc : canObject a = none) : s.busWrite m a be v w = s.regSpace m a be v w := by
  unfold State.busWrite
  simp only [aligned_eq h4, hc, ringBase, progBase, tableBase, dataBase, msixBase, Bool.and_eq_true, decide_eq_true_eq]
  rw [if_neg (by omega), if_neg (by omega), if_neg (by omega), if_neg (by omega), if_neg (by omega)]

theorem aliasOf_below {a : Nat} (hb : a / 0x10000 ≠ 16) (ho : a % 0x10000 < 0x8000) : aliasOf a = none := by
  unfold aliasOf
  simp only [hb, if_false, Bool.and_eq_true, decide_eq_true_eq]
  rw [if_neg (show ¬ (0x8000 ≤ a % 0x10000 ∧ a % 0x10000 < 0xC000) by omega), if_neg (show ¬ 0xC000 ≤ a % 0x10000 by omega)]
  simp

theorem aliasOf_low {a : Nat} (hb : a / 0x10000 < 16) (ho : a % 0x10000 < 0x4000) : aliasOf (a + 0x8000) = some (a, false) := by
  unfold aliasOf
  rw [if_neg (by omega), if_neg (by omega)]
  simp only [Bool.and_eq_true, decide_eq_true_eq]
  rw [if_pos (by omega)]
  simp

/-- A whole-word write of a register at its own address. -/
theorem regSpace_native (s : State) {m : Master} {a : Nat} (v w : Word) (ha : aliasOf a = none) :
    s.regSpace m a 0xF v w = s.regWrite m a 0xFFFFFFFF v w false := by
  simp [State.regSpace, ha]

/-- A masked write, at the low of the two addresses that R426 gives it, of a register with masked-write bits. -/
theorem regSpace_low (s : State) {m : Master} {a b : Nat} {r : RegSpec} (v : Word) (ha : aliasOf b = some (a, false))
    (hr : regSpec a = some r) (hmw : r.mw ≠ 0) :
    s.regSpace m b 0xF v 0 = s.regWrite m a (v >>> 16) (v &&& 0xFFFF#32) 0 true := by
  simp [State.regSpace, ha, State.maskedReg, hr, hmw]

/-- A write with other byte enables than 0xF (R424). -/
theorem regSpace_part (s : State) {m : Master} {a : Nat} {r : RegSpec} {be : BitVec 4} (v w : Word)
    (hr : regSpec a = some r) (hbe : be ≠ 0xF#4) :
    (s.regSpace m a be v w).1 = (s.lockUse m).setF F.DEV_LOCK_STS_part_drop 1 := by
  simp [State.regSpace, hr, hbe]

/-- A write of a reserved offset does nothing but use up the lock (R6). -/
theorem regSpace_reserved (s : State) {m : Master} {a : Nat} (be : BitVec 4) (v w : Word) (hr : regSpec a = none)
    (ha : aliasOf a = none) : (s.regSpace m a be v w).1 = s.lockUse m := by
  simp [State.regSpace, ha, hr, State.regWrite]

/-! ## Whole-word writes of quiet registers by a master (R426, R428, R429) -/

section Quiet

variable {s : State} {m : Master} {a : Nat} {r : RegSpec}

theorem dropsKg_of_opensKg (sel : Word) (h : opensKg s m) : s.dropsKg m r sel = false := by
  simp [State.dropsKg, (keyed_iff_opensKg s m).2 h]

theorem not_keyed (h : ¬ opensKg s m) : s.keyed m = false := by
  rw [← Bool.not_eq_true, keyed_iff_opensKg]; exact h

theorem dropsSg_of_service (sel : Word) (h : s.f F.DEV_LOCK_STS_phase = 1 ∨ ¬ m ≠ .keeper ∨ r.sg = 0) :
    s.dropsSg m r sel = false := by
  unfold State.dropsSg State.phase
  rcases h with h | h | h
  · simp [h]
  · simp [not_not.1 h]
  · simp [h]

theorem ofNat_ne_zero {n : Nat} (h : n < 2 ^ 32) (h0 : n ≠ 0) : BitVec.ofNat 32 n ≠ 0#32 := by
  intro he
  have := congrArg BitVec.toNat he
  rw [BitVec.toNat_ofNat, Nat.mod_eq_of_lt h] at this
  exact h0 this

/-- A whole-word write drops the key-guarded bits where the lock is closed and the guard in force. -/
theorem dropsKg_all (hr : regSpec a = some r) (h : ¬ opensKg s m) (hkg : r.kg ≠ 0) :
    s.dropsKg m r 0xFFFFFFFF = true := by
  obtain ⟨hlt, -⟩ := sane_of_regSpec hr
  have hne := ofNat_ne_zero hlt hkg
  simp [State.dropsKg, not_keyed h, BitVec.and_comm 0xFFFFFFFF#32, hne]

/-- A whole-word write by a host outside SERVICE drops the secure-gated bits. -/
theorem dropsSg_all (hr : regSpec a = some r) (hm : m ≠ .keeper) (hp : ¬ s.f F.DEV_LOCK_STS_phase = 1) (hsg : r.sg ≠ 0) :
    s.dropsSg m r 0xFFFFFFFF = true := by
  obtain ⟨-, hlt, -⟩ := sane_of_regSpec hr
  have hne := ofNat_ne_zero hlt hsg
  simp [State.dropsSg, State.phase, hm, hp, BitVec.and_comm 0xFFFFFFFF#32, hne]

theorem getLsbD_ones {i : Nat} (hi : i < 32) : (0xFFFFFFFF#32 : Word).getLsbD i = true := by
  rw [show (0xFFFFFFFF#32 : Word) = BitVec.allOnes 32 from rfl, BitVec.getLsbD_allOnes]
  simpa using hi

theorem reached_open (hk : s.dropsKg m r 0xFFFFFFFF = false) (hg : s.dropsSg m r 0xFFFFFFFF = false) :
    s.reached m a r 0xFFFFFFFF false = liveBits a := by
  unfold State.reached
  rw [hk, hg]
  simp [BitVec.and_comm 0xFFFFFFFF#32]

/-- A bit that the gates keep a write from stays as it is. -/
theorem getLsbD_written_unreached (val sel : Word) (masked : Bool) {i : Nat} (hi : i < 32)
    (h : (s.dropsKg m r sel = true ∧ r.kg.testBit i = true) ∨ (s.dropsSg m r sel = true ∧ r.sg.testBit i = true)) :
    (s.written a r (s.reached m a r sel masked) val).getLsbD i = (s.reg a).getLsbD i := by
  have hz : (s.reached m a r sel masked).getLsbD i = false := by
    rw [getLsbD_reached s m a r sel masked hi]
    rcases h with ⟨h1, h2⟩ | ⟨h1, h2⟩ <;> simp [h1, h2]
  rw [getLsbD_written s a r _ val hi, hz]
  simp

theorem bit_of_writes {t u : State} {w : Word} {x : Fld} (ha : a ≠ R.DEV_LOCK_STS) (hw : Writes t u a w)
    (hx : x.addr = R.DEV_LOCK_STS) : u.bit x = t.bit x := hw.bit (by rw [hx]; exact ha.symm)

variable {u : State} {sel val : Word} {masked : Bool} (ha : a ≠ R.DEV_LOCK_STS)
  (hw : Writes (s.gated m r sel masked) u a (s.written a r (s.reached m a r sel masked) val))
include ha hw

/-- Dropped key-guarded bits keep their value, and the drop shows. -/
theorem kg_dropped (hd : s.dropsKg m r sel = true) : u.bit F.DEV_LOCK_STS_kg_drop = true ∧
    ∀ i < 32, r.kg.testBit i = true → (u.reg a).getLsbD i = (s.reg a).getLsbD i := by
  refine ⟨?_, fun i hi hbit => ?_⟩
  · rw [bit_of_writes ha hw rfl, State.gated, hd]
    exact bit_kg_guards s m _ _
  · rw [hw.same]
    exact getLsbD_written_unreached _ _ _ hi (Or.inl ⟨hd, hbit⟩)

/-- Dropped secure-gated bits keep their value, and the drop shows. -/
theorem sg_dropped (hd : s.dropsSg m r sel = true) : u.bit F.DEV_LOCK_STS_sg_drop = true ∧
    ∀ i < 32, r.sg.testBit i = true → (u.reg a).getLsbD i = (s.reg a).getLsbD i := by
  refine ⟨?_, fun i hi hbit => ?_⟩
  · rw [bit_of_writes ha hw rfl, State.gated, hd]
    exact bit_sg_guards s m _ _
  · rw [hw.same]
    exact getLsbD_written_unreached _ _ _ hi (Or.inr ⟨hd, hbit⟩)

/-- A lock that the write uses up is closed; another is as it was. -/
theorem lock_after_write {x : Fld} (hx : x ∈ lockBit m) :
    u.bit x = (if usesLock r sel masked then false else s.bit x) := by
  rw [bit_of_writes ha hw (lockBit_place hx).1, State.gated, bit_lock_guards s _ _ _ hx]

end Quiet

/-- What a whole-word write of a quiet register does. -/
theorem quietWrite {s : State} {m : Master} (hs : Hears s m) (a : Nat) (r : RegSpec) (v : Word) (h4 : a % 4 = 0)
    (hr : regSpec a = some r) (hq : quiet a r) (hl : s.part.lacks a = false) (hh : tblFind s.held a = none) :
    let rw := BitVec.ofNat 32 r.rw &&& liveBits a
    Does (.registerWrite m a 0xF v 0) s fun t => OnlyReg s t a ∧ LockClosed m t ∧
      (opensKg s m → (s.f F.DEV_LOCK_STS_phase = 1 ∨ ¬ m ≠ .keeper ∨ r.sg = 0) → t.reg a = (s.reg a &&& ~~~rw) ||| (v &&& rw)) ∧
      (¬ opensKg s m → r.kg ≠ 0 → t.bit F.DEV_LOCK_STS_kg_drop = true ∧
        ∀ i < 32, r.kg.testBit i = true → (t.reg a).getLsbD i = (s.reg a).getLsbD i) ∧
      (m ≠ .keeper → ¬ s.f F.DEV_LOCK_STS_phase = 1 → r.sg ≠ 0 → t.bit F.DEV_LOCK_STS_sg_drop = true ∧
        ∀ i < 32, r.sg.testBit i = true → (t.reg a).getLsbD i = (s.reg a).getLsbD i) ∧
      (∀ i < 32, rw.getLsbD i = true → r.kg.testBit i = false → r.sg.testBit i = false →
        (t.reg a).getLsbD i = v.getLsbD i) := by
  intro rw
  obtain ⟨h0, -, -, h15, hoff⟩ := quiet_block hq
  have ha : a ≠ R.DEV_LOCK_STS := by rintro rfl; exact h0 rfl
  have hrun : s.busWrite m a 0xF v 0 = s.regWrite m a 0xFFFFFFFF v 0 false := by
    rw [busWrite_regs s 0xF v 0 h4 (by omega) (canObject_of_regSpec hr),
      regSpace_native s v 0 (aliasOf_below (by omega) (by omega))]
  have hw := writes_regWrite_quiet (m := m) s 0xFFFFFFFF v false hr hq hl hh
  refine ⟨_, exec_registerWrite hs a 0xF v 0, ?_⟩
  rw [hrun]
  refine ⟨onlyReg_of_writes (onlyReg_guards s m _ _ _) hw, ?_, ?_, ?_, ?_, ?_⟩
  · exact fun x hx => lock_after_write ha hw hx
  · intro ho hp
    rw [hw.same, reached_open (dropsKg_of_opensKg _ ho) (dropsSg_of_service _ hp)]
    rfl
  · exact fun ho hkg => kg_dropped ha hw (dropsKg_all hr ho hkg)
  · exact fun hm hp hsg => sg_dropped ha hw (dropsSg_all hr hm hp hsg)
  · intro i hi hrw hkg hsg
    simp only [rw, BitVec.getLsbD_and, BitVec.getLsbD_ofNat, hi, decide_true, Bool.true_and, Bool.and_eq_true] at hrw
    rw [hw.same, getLsbD_written s a r _ v hi, getLsbD_reached s m a r _ _ hi, hrw.1, hrw.2, hkg, hsg]
    simp [-BitVec.getLsbD_eq_getElem, getLsbD_ones hi]

/-! ## Masked writes (R426) -/

/-- A masked write selects a key-guarded bit. -/
def SelectsKg (r : RegSpec) (v : Word) : Prop := ∃ i < 16, v.getLsbD (16 + i) = true ∧ r.kg.testBit i = true

theorem selectsKg_iff (r : RegSpec) (v : Word) : SelectsKg r v ↔ v >>> 16 &&& BitVec.ofNat 32 r.kg ≠ 0#32 := by
  constructor
  · rintro ⟨i, hi, hv, hk⟩ h0
    have := congrArg (BitVec.getLsbD · i) h0
    simp [-BitVec.getLsbD_eq_getElem, BitVec.getLsbD_ofNat, show i < 32 by omega, hv, hk] at this
  · intro h
    by_contra hn
    refine h (BitVec.eq_of_getLsbD_eq fun i hi => ?_)
    simp only [BitVec.getLsbD_and, BitVec.getLsbD_ushiftRight, BitVec.getLsbD_ofNat, hi, decide_true, Bool.true_and,
      Nat.zero_testBit]
    by_cases h16 : i < 16
    · by_contra hne
      rw [Bool.not_eq_false, Bool.and_eq_true] at hne
      exact hn ⟨i, h16, hne⟩
    · rw [BitVec.getLsbD_of_ge v (16 + i) (by omega), Bool.false_and]

theorem usesLock_masked (r : RegSpec) (v : Word) : usesLock r (v >>> 16) true = true ↔ SelectsKg r v := by
  rw [selectsKg_iff]; simp [usesLock]

/-- What a masked write of the lower half of a quiet register does. -/
theorem quietMaskedWrite {s : State} {m : Master} (hs : Hears s m) (a : Nat) (r : RegSpec) (v : Word) (h4 : a % 4 = 0)
    (hr : regSpec a = some r) (hq : quiet a r) (hl : s.part.lacks a = false) (hh : tblFind s.held a = none) (hmw : r.mw ≠ 0) :
    let picks := fun (i : Nat) => i < 16 ∧ v.getLsbD (16 + i) = true ∧ r.mw.testBit i = true ∧ (liveBits a).getLsbD i = true
    Does (.maskedWrite m (a + 0x8000) v) s fun t => OnlyReg s t a ∧
      (¬ SelectsKg r v → r.sg = 0 → (∀ i < 32, (t.reg a).getLsbD i = if picks i then v.getLsbD i else (s.reg a).getLsbD i) ∧
        ∀ x ∈ lockBit m, t.bit x = s.bit x) ∧
      (SelectsKg r v → LockClosed m t ∧ (¬ opensKg s m → t.bit F.DEV_LOCK_STS_kg_drop = true ∧
        ∀ i < 32, r.kg.testBit i = true → (t.reg a).getLsbD i = (s.reg a).getLsbD i)) := by
  intro picks
  obtain ⟨h0, -, -, h15, hoff⟩ := quiet_block hq
  have ha : a ≠ R.DEV_LOCK_STS := by rintro rfl; exact h0 rfl
  have hrun : s.busWrite m (a + 0x8000) 0xF v 0 = s.regWrite m a (v >>> 16) (v &&& 0xFFFF#32) 0 true := by
    rw [busWrite_regs s 0xF v 0 (by omega) (by omega) (canObject_none (by omega)),
      regSpace_low s v (aliasOf_low (by omega) hoff) hr hmw]
  have hw := writes_regWrite_quiet (m := m) s (v >>> 16) (v &&& 0xFFFF#32) true hr hq hl hh
  refine ⟨_, exec_maskedWrite hs (a + 0x8000) v, ?_⟩
  rw [hrun]
  refine ⟨onlyReg_of_writes (onlyReg_guards s m _ _ _) hw, ?_, ?_⟩
  · intro hng hsg
    have hkg : s.dropsKg m r (v >>> 16) = false := by
      rw [selectsKg_iff, not_not] at hng
      simp [State.dropsKg, hng]
    have hsd : s.dropsSg m r (v >>> 16) = false := dropsSg_of_service _ (Or.inr (Or.inr hsg))
    have huse : usesLock r (v >>> 16) true = false := by
      rw [← Bool.not_eq_true, usesLock_masked]; exact hng
    refine ⟨fun i hi => ?_, fun x hx => ?_⟩
    · obtain ⟨-, -, hsub, -⟩ := sane_of_regSpec hr
      have hmr : r.mw.testBit i = true → r.rw.testBit i = true := by
        intro h
        rw [← hsub, Nat.testBit_and, Bool.and_eq_true] at h
        exact h.2
      have hsel : (v >>> 16).getLsbD i = v.getLsbD (16 + i) := BitVec.getLsbD_ushiftRight v 16 i
      have hiff : (r.rw.testBit i && (s.reached m a r (v >>> 16) true).getLsbD i) = true ↔ picks i := by
        rw [getLsbD_reached s m a r _ _ hi, hkg, hsd, hsel]
        have h16 : v.getLsbD (16 + i) = true → i < 16 := fun h => by have := BitVec.lt_of_getLsbD h; omega
        simp only [Bool.not_true, Bool.false_or, Bool.false_and, Bool.not_false, Bool.and_true, Bool.and_eq_true, picks]
        tauto
      rw [hw.same, getLsbD_written s a r _ _ hi]
      by_cases hp : picks i
      · rw [if_pos (hiff.2 hp), if_pos hp, BitVec.getLsbD_and,
          show (0xFFFF#32).getLsbD i = true by have := hp.1; interval_cases i <;> rfl, Bool.and_true]
      · rw [if_neg (fun h => hp (hiff.1 h)), if_neg hp]
    · rw [lock_after_write ha hw hx, huse]
      rfl
  · intro hg
    refine ⟨fun x hx => ?_, fun ho => kg_dropped ha hw ?_⟩
    · rw [lock_after_write ha hw hx, (usesLock_masked r v).2 hg]
      rfl
    · simp [State.dropsKg, not_keyed ho, (selectsKg_iff r v).1 hg]

/-! ## Writes that change no register but DEV_LOCK_STS (R6, R424, R428) -/

/-- A write with other byte enables than 0xF. -/
theorem partialWrite {s : State} {m : Master} (hs : Hears s m) {a : Nat} {r : RegSpec} {be : BitVec 4} (v : Word)
    (h4 : a % 4 = 0) (hr : regSpec a = some r) (hbe : be ≠ 0xF#4) :
    Does (.registerWrite m a be v 0) s fun t =>
      OnlyReg s t R.DEV_LOCK_STS ∧ t.bit F.DEV_LOCK_STS_part_drop = true ∧ LockClosed m t := by
  refine ⟨_, exec_registerWrite hs a be v 0, ?_⟩
  rw [busWrite_regs s be v 0 h4 (block_of_regSpec hr) (canObject_of_regSpec hr), regSpace_part s v 0 hr hbe]
  exact ⟨onlyReg_setF_drop dropBit_part (onlyReg_setLock s m false), bit_setF_one dropBit_part, fun x hx =>
    (bit_lock_setF_drop dropBit_part hx).trans (lockClosed_lockUse s m x hx)⟩

/-- A write at a reserved offset. -/
theorem reservedWrite {s : State} {m : Master} (hs : Hears s m) {a : Nat} (be : BitVec 4) (v : Word) (h4 : a % 4 = 0)
    (hb : a / 0x10000 < 0x15) (hr : regSpec a = none) (ha : aliasOf a = none) (hc : canObject a = none) :
    Does (.registerWrite m a be v 0) s fun t => OnlyReg s t R.DEV_LOCK_STS ∧ LockClosed m t := by
  refine ⟨_, exec_registerWrite hs a be v 0, ?_⟩
  rw [busWrite_regs s be v 0 h4 hb hc, regSpace_reserved s be v 0 hr ha]
  exact ⟨onlyReg_setLock s m false, lockClosed_lockUse s m⟩

/-- LOCK_KEY opens the master's lock with the key and closes it with any other value. -/
theorem lockKeyWrite {s : State} {m : Master} (hs : Hears s m) (v : Word) :
    Does (.lockKey m v) s fun t => OnlyReg s t R.DEV_LOCK_STS ∧
      ∀ x ∈ lockBit m, t.bit x = decide (v.setWidth 16 = 0x5A3C#16) := by
  have hkey : (getBits v 0 16 == 0x5A3C) = decide (v.setWidth 16 = 0x5A3C#16) := by
    rw [beq_eq_decide, decide_eq_decide, ← BitVec.toNat_inj, BitVec.toNat_setWidth]
    rfl
  refine ⟨_, exec_lockKey hs v, onlyReg_setLock s m _, fun x hx => ?_⟩
  rw [← hkey]
  exact bit_setLock s _ hx

/-- An open lock lapses 1 ms after its last write. -/
theorem lockLapse_open {s : State} {m : Master} (hm : s.pwr.mainRst = false) {x : Fld} (hx : x ∈ lockBit m) {a : Nat}
    (ha : tblFind s.host.lockAt (masterIdx m) = some a) (ho : s.bit x = true) :
    Does (.lockLapse m) s fun t => t.bit x = false ∧ t.bit F.DEV_LOCK_STS_lapsed = true ∧
      (s.tm.holdLag = none → t.now = max s.now (a + 1000000)) ∧ ∀ b, b ≠ R.DEV_LOCK_STS → t.reg b = s.reg b := by
  have hrun : s.lockLapse m = ((s.at (a + 1000000)).setLock m false).setF F.DEV_LOCK_STS_lapsed 1 := by
    unfold State.lockLapse
    rw [lockFld_eq_lockBit, hx, ha]
    simp [ho]
  refine ⟨_, onMain_run (fun s => s.lockLapse m) hm, ?_⟩
  rw [hrun]
  refine ⟨?_, bit_setF_one dropBit_lapsed, fun hl => ?_, fun b hb => ?_⟩
  · rw [bit_lock_setF_drop dropBit_lapsed hx]
    exact bit_setLock _ false hx
  · show (((s.at (a + 1000000)).setLock m false).setF F.DEV_LOCK_STS_lapsed 1).tm.now = _
    rw [State.setF_tm, setLock_tm]
    simp [State.at, hl, State.now]
  · rw [reg_setF_ne _ 1 hb, reg_setLock_ne _ m false hb, at_reg]

theorem lockLapse_closed {s : State} {m : Master} (hm : s.pwr.mainRst = false) {x : Fld} (hx : x ∈ lockBit m)
    (hc : s.bit x = false) : Machine.exec (.lockLapse m) s = .next s := by
  refine (onMain_run (fun s => s.lockLapse m) hm).trans ?_
  unfold State.lockLapse
  rw [lockFld_eq_lockBit, hx]
  cases tblFind s.host.lockAt (masterIdx m) <;> simp [hc]

/-! ## The pending bits of EVT (R10, R440) -/

theorem reg_sendMsg_ne (s : State) {v b : Nat} (h : b ≠ R.EVT_VEC v) : (s.sendMsg v).reg b = s.reg b := by
  unfold State.sendMsg
  split
  · rfl
  · exact reg_incSat_ne s (x := F.EVT_VEC_sent v) 1 h

/-- The messages that a change sends count in EVT_VEC only. -/
theorem reg_vecRises_ne (was s : State) {b : Nat} (h : ∀ v < 16, b ≠ R.EVT_VEC v) : (was.vecRises s).reg b = s.reg b := by
  have hfold : ∀ (l : List Nat) (u : State), (∀ v ∈ l, v < 16) →
      (l.foldl (fun s v => was.msgOnRise s v) u).reg b = u.reg b := by
    intro l
    induction l with
    | nil => intro u _; rfl
    | cons v l ih =>
      intro u hl
      rw [List.foldl_cons, ih _ fun w hw => hl w (List.mem_cons_of_mem _ hw)]
      unfold State.msgOnRise
      split
      · exact reg_sendMsg_ne u (h v (hl v List.mem_cons_self))
      · rfl
  exact hfold _ s fun v hv => List.mem_range.1 hv

/-- The register kind EVT_PEND. -/
def pendSpec : RegSpec := ⟨0x120008, [(2, 4)], 0, 0xFFFFFFFF, 0, 0, 0, 0, 0, 0, 0, 0, 0⟩

/-- A write of a pending word that reaches every bit: the bits written 1 clear, and vectors whose level rises are sent. -/
theorem regPut_pend (t : State) {k : Nat} (hk : k < 2) {x : RegWr} (hr : x.r = pendSpec) (hx : x.reach = 0xFFFFFFFF#32) :
    (t.regPut (R.EVT_PEND k) x).1.reg (R.EVT_PEND k) = (t.reg (R.EVT_PEND k) &&& ~~~x.one) ||| x.hw := by
  have hblk : R.EVT_PEND k / 0x10000 = 18 := by unfold R.EVT_PEND; omega
  have hoff : R.EVT_PEND k % 0x10000 = 8 + 4 * k := by unfold R.EVT_PEND; omega
  have htouch : x.reach &&& BitVec.ofNat 32 (x.r.rw ||| x.r.w1c ||| x.r.wo) = 0xFFFFFFFF#32 := by rw [hr, hx]; rfl
  have hput : (t.regPut (R.EVT_PEND k) x).1 = State.vecRises t (t.regPlain (R.EVT_PEND k) x 0) := by
    unfold State.regPut
    rw [htouch]
    simp [State.regWhole, couched, isEnable, State.keptBits, State.regAct, hblk, hoff, show ¬ 64 ≤ 8 + 4 * k by omega]
  rw [hput, reg_vecRises_ne t _ fun v hv => by unfold R.EVT_PEND R.EVT_VEC; omega, State.regPlain, reg_setReg_same, hr]
  simp [pendSpec, judgedBits, hblk]

/-- A host clears pending bits by writing them 1, and a bit that hardware sets in the same cycle stays set. -/
theorem pendWrite {s : State} {m : Master} (hs : Hears s m) {k : Nat} (hk : k < 2) (v hw : Word) :
    Does (.registerWrite m (R.EVT_PEND k) 0xF v hw) s fun t =>
      t.reg (R.EVT_PEND k) =
        (if m ≠ .keeper then s.reg (R.EVT_PEND k) &&& ~~~v else s.reg (R.EVT_PEND k)) ||| hw := by
  have hblk : R.EVT_PEND k / 0x10000 = 18 := by unfold R.EVT_PEND; omega
  have hoff : R.EVT_PEND k % 0x10000 = 8 + 4 * k := by unfold R.EVT_PEND; omega
  have hspec : regSpec (R.EVT_PEND k) = some pendSpec := by interval_cases k <;> rfl
  have hlive : liveBits (R.EVT_PEND k) = 0xFFFFFFFF := by simp [liveBits, hblk]
  have hreach : s.reached m (R.EVT_PEND k) pendSpec 0xFFFFFFFF#32 false = 0xFFFFFFFF#32 :=
    (reached_open (by simp [State.dropsKg, pendSpec]) (by simp [State.dropsSg, pendSpec])).trans hlive
  have hlk : R.EVT_PEND k ≠ R.DEV_LOCK_STS := fun h => by rw [h] at hblk; cases hblk
  refine ⟨_, exec_registerWrite hs (R.EVT_PEND k) 0xF v hw, ?_⟩
  rw [busWrite_regs s 0xF v hw (by unfold R.EVT_PEND; omega) (by omega) (canObject_none (by omega)),
    regSpace_native s v hw (aliasOf_below (by omega) (by omega)),
    regWrite_eq s _ v hw false hspec (by simp [Part.lacks, hblk]) (fun h => by rw [h] at hblk; cases hblk)
      (keeperPut_none s v (by omega) (by omega))]
  beta_reduce
  rw [regPut_pend _ hk rfl hreach, reg_gated s m _ _ _ hlk]
  have hone : (s.regWrOf m (R.EVT_PEND k) pendSpec 0xFFFFFFFF v hw false).one = if m = .keeper then 0 else v := by
    have hw1c : BitVec.ofNat 32 pendSpec.w1c = 0xFFFFFFFF#32 := rfl
    have hself : k = 0 ∨ k = 1 := by omega
    cases m <;> simp [State.regWrOf, hreach, hw1c, hself]
  rw [hone]
  by_cases hm : m = .keeper <;> simp [hm, State.regWrOf]

/-! ## Bytes and words in memory -/

theorem memPutIf_wf {m : List Host.Cell} (c : Bool) (a : Nat) (v : Byte) (h : Memory.wf m = true) :
    Memory.wf (if c then memPut m a v else m) = true := by
  cases c
  · exact h
  · exact memPut_wf a v h

theorem memGet_putIf {m : List Host.Cell} (c : Bool) (a b : Nat) (v : Byte) (h : Memory.wf m = true) :
    memGet (if c then memPut m a v else m) b = if c = true ∧ b = a then v else memGet m b := by
  cases c
  · simp
  · by_cases hb : b = a
    · subst hb; simpa using memGet_put_same b v h
    · simpa [hb] using memGet_put_ne v hb

/-- A write of selected bytes, read back byte by byte. -/
theorem memGet_putBytes {m : List Host.Cell} (a b : Nat) (w : Word) (be : BitVec 4) (h : Memory.wf m = true) :
    memGet (memPutBytes m a w be) b =
      if be.getLsbD 3 = true ∧ b = a + 3 then w.extractLsb' 24 8
      else if be.getLsbD 2 = true ∧ b = a + 2 then w.extractLsb' 16 8
      else if be.getLsbD 1 = true ∧ b = a + 1 then w.extractLsb' 8 8
      else if be.getLsbD 0 = true ∧ b = a then w.extractLsb' 0 8 else memGet m b := by
  have h0 := memPutIf_wf (be.getLsbD 0) a (w.extractLsb' 0 8) h
  have h1 := memPutIf_wf (be.getLsbD 1) (a + 1) (w.extractLsb' 8 8) h0
  have h2 := memPutIf_wf (be.getLsbD 2) (a + 2) (w.extractLsb' 16 8) h1
  unfold memPutBytes
  simp only [memGet_putIf _ _ _ _ h2, memGet_putIf _ _ _ _ h1, memGet_putIf _ _ _ _ h0, memGet_putIf _ _ _ _ h]

/-- Byte `j` of the word takes its byte of `w` where its byte enable is set. -/
theorem memGet_putBytes_same {m : List Host.Cell} (a : Nat) (w : Word) (be : BitVec 4) (h : Memory.wf m = true) {j : Nat}
    (hj : j < 4) : memGet (memPutBytes m a w be) (a + j) =
      if be.getLsbD j then (w >>> (8 * j)).setWidth 8 else memGet m (a + j) := by
  have hext : ∀ k, w.extractLsb' k 8 = (w >>> k).setWidth 8 := fun k =>
    BitVec.eq_of_getLsbD_eq fun i hi => by simp [-BitVec.getLsbD_eq_getElem, hi]
  rw [memGet_putBytes a (a + j) w be h]
  interval_cases j <;> simp [-BitVec.getLsbD_eq_getElem, hext]

theorem memGet_putBytes_ne {m : List Host.Cell} {a b : Nat} (w : Word) (be : BitVec 4) (h : Memory.wf m = true)
    (hb : b < a ∨ a + 4 ≤ b) : memGet (memPutBytes m a w be) b = memGet m b := by
  rw [memGet_putBytes a b w be h, if_neg (by omega), if_neg (by omega), if_neg (by omega), if_neg (by omega)]

theorem memPutBytes_whole (m : List Host.Cell) (a : Nat) (w : Word) : memPutBytes m a w 0xF = memPutWord m a w := rfl

theorem memGet_putWords_ne {m : List Host.Cell} {a b : Nat} {ws : List Word} (h : b < a ∨ a + 4 * ws.length ≤ b) :
    memGet (memPutWords m a ws) b = memGet m b := by
  induction ws generalizing m a with
  | nil => rfl
  | cons w ws ih =>
    rw [List.length_cons] at h
    rw [memPutWords, ih (by omega), memGet_putWord_ne w (by omega)]

theorem memWord_congr {m m' : List Host.Cell} {a : Nat} (h : ∀ b, a ≤ b → b < a + 4 → memGet m b = memGet m' b) :
    memWord m a = memWord m' a := by
  unfold memWord
  rw [h a (by omega) (by omega), h (a + 1) (by omega) (by omega), h (a + 2) (by omega) (by omega),
    h (a + 3) (by omega) (by omega)]

/-- The words just written are read. -/
theorem memWord_putWords {m : List Host.Cell} (a : Nat) (ws : List Word) (h : Memory.wf m = true) {i : Nat}
    (hi : i < ws.length) : memWord (memPutWords m a ws) (a + 4 * i) = ws.getD i 0 := by
  induction ws generalizing m a i with
  | nil => cases hi
  | cons w ws ih =>
    rw [memPutWords]
    cases i with
    | zero =>
      rw [memWord_congr (m' := memPutWord m a w) fun b _ _ => memGet_putWords_ne (by omega), Nat.mul_zero, Nat.add_zero,
        memWord_putWord_same a w h]
      rfl
    | succ i =>
      have := ih (a + 4) (memPutWord_wf a w h) (i := i) (by simpa using hi)
      rw [show a + 4 * (i + 1) = a + 4 + 4 * i by omega, this]
      rfl

/-! ## Writes of the data memory and of the rings (R424, R430, R431) -/

theorem busWrite_data (s : State) {m : Master} {a : Nat} (be : BitVec 4) (v w : Word) (h4 : a % 4 = 0) (hlo : dataBase ≤ a)
    (hhi : a < dataBase + 0x200000) : (s.busWrite m a be v w).1 = (s.lockUse m).putBytes a v be := by
  have hlo' : 0x500000 ≤ a := hlo
  have hhi' : a < 0x700000 := hhi
  unfold State.busWrite
  simp only [aligned_eq h4, ringBase, progBase, tableBase, dataBase, Bool.and_eq_true, decide_eq_true_eq]
  rw [if_neg (by omega), if_neg (by omega), if_neg (by omega), if_pos (by omega)]

/-- A host's write of the ring memory stores where its ring takes it, and uses up the lock (R431). -/
theorem busWrite_ring (s : State) {m : Master} {o : Nat} (be : BitVec 4) (v w : Word) (h4 : o % 4 = 0) (ho : o < 0x200000)
    (hm : m ≠ .keeper) : (s.busWrite m (ringBase + o) be v w).1 =
      if s.ringWrites o then (s.lockUse m).putBytes (ringBase + o) v be else s.lockUse m := by
  have hal : (ringBase + o) / 4 * 4 = ringBase + o := by unfold ringBase; omega
  unfold State.busWrite
  simp only [hal, Nat.le_add_right, if_true, Nat.add_sub_cancel_left, hm, decide_false, Bool.false_or]
  rw [show decide (ringBase + o < ringBase + 0x200000) = true from decide_eq_true (by omega), Bool.true_and]

/-- What a write of selected bytes at `a` leaves: the lock closed, registers and other bytes as they were. -/
theorem putBytes_after_lockUse (s : State) (m : Master) (a : Nat) (be : BitVec 4) (v : Word) (hwf : Memory.wf s.mem = true) :
    LockClosed m ((s.lockUse m).putBytes a v be) ∧
      (∀ b, b ≠ R.DEV_LOCK_STS → ((s.lockUse m).putBytes a v be).reg b = s.reg b) ∧
      (∀ j < 4, memGet ((s.lockUse m).putBytes a v be).mem (a + j) =
        if be.getLsbD j then (v >>> (8 * j)).setWidth 8 else memGet s.mem (a + j)) ∧
      ∀ b, b < a ∨ a + 4 ≤ b → memGet ((s.lockUse m).putBytes a v be).mem b = memGet s.mem b := by
  have hmem : (s.lockUse m).mem = s.mem := setLock_mem s m false
  refine ⟨lockClosed_lockUse s m, fun b hb => reg_setLock_ne s m false hb, fun j hj => ?_, fun b hb => ?_⟩
  · show memGet (memPutBytes (s.lockUse m).mem a v be) (a + j) = _
    rw [hmem, memGet_putBytes_same a v be hwf hj]
  · show memGet (memPutBytes (s.lockUse m).mem a v be) b = _
    rw [hmem, memGet_putBytes_ne v be hwf hb]

theorem deviceRing_iff {n : Nat} (h : n < 16) : deviceRing n = true ↔ n ∈ [4, 5, 6, 7, 8, 9, 11, 13, 15] := by
  interval_cases n <;> decide

theorem ringWrites_iff (s : State) {o : Nat} (ho : o < 0x200000) : s.ringWrites o = true ↔
    s.bit (F.RING_STS_enabled (o / 0x20000)) = true ∧ o / 0x20000 ∉ [4, 5, 6, 7, 8, 9, 11, 13, 15] ∧
      o % 0x20000 < 2 ^ s.f (F.RING_CFG_size (o / 0x20000)) * 32 := by
  have hn : o / 0x20000 < 16 := by omega
  rw [← deviceRing_iff hn, Bool.not_eq_true]
  simp only [State.ringWrites, State.ringReads, Bool.and_eq_true, decide_eq_true_eq, Bool.not_eq_true', hn, true_and]
  unfold State.ringOn State.ringCap
  tauto

/-! ## SPI (R423) -/

theorem spiAddr_eq (a : Word) : spiAddr a = (if a.getLsbD 31 then ringBase else 0) + a.toNat % 2 ^ 31 := by
  unfold spiAddr
  cases a.getLsbD 31 <;> simp

/-- An SPI address below 2^31 is the BAR0 address. -/
theorem spiAddr_ofNat {a : Nat} (h : a < 2 ^ 31) : spiAddr (BitVec.ofNat 32 a) = a := by
  rw [spiAddr_eq, BitVec.getLsbD_ofNat, Nat.testBit_lt_two_pow h, BitVec.toNat_ofNat]
  simp
  omega

/-- The words of an SPI write into the data memory. -/
theorem spiWords_data (ws : List Word) : ∀ (s : State) (a : Nat), a % 4 = 0 → dataBase ≤ a →
    a + 4 * ws.length ≤ dataBase + 0x200000 → (s.spiWords a ws).mem = memPutWords s.mem a ws ∧
      ∀ b, b ≠ R.DEV_LOCK_STS → (s.spiWords a ws).reg b = s.reg b := by
  induction ws with
  | nil => intro s a _ _ _; exact ⟨rfl, fun _ _ => rfl⟩
  | cons w ws ih =>
    intro s a h4 hlo hhi
    rw [List.length_cons] at hhi
    have hw := busWrite_data s (m := .spi) 0xF w 0 h4 hlo (by omega)
    obtain ⟨hm, hr⟩ := ih { (s.busWrite .spi a 0xF w 0).1 with
      host := { (s.busWrite .spi a 0xF w 0).1.host with spiDropped := (s.busWrite .spi a 0xF w 0).2 } } (a + 4) (by omega)
      (by omega) (by omega)
    refine ⟨hm.trans ?_, fun b hb => (hr b hb).trans ?_⟩
    · show memPutWords (s.busWrite .spi a 0xF w 0).1.mem (a + 4) ws = _
      rw [hw]
      show memPutWords (memPutBytes (s.lockUse .spi).mem a w 0xF) (a + 4) ws = _
      rw [show (s.lockUse .spi).mem = s.mem from setLock_mem s .spi false, memPutBytes_whole]
      rfl
    · show (s.busWrite .spi a 0xF w 0).1.reg b = _
      rw [hw]
      exact reg_setLock_ne s .spi false hb

/-- Reads of the data memory have no side effect. -/
theorem busReads_data (s : State) (m : Master) (n : Nat) : ∀ a, a % 4 = 0 → dataBase ≤ a →
    a + 4 * n ≤ dataBase + 0x200000 → s.busReads m a n = (s.words a n, s) := by
  induction n with
  | zero => intro a _ _ _; rfl
  | succ n ih =>
    intro a h4 hlo hhi
    have hlo' : 0x500000 ≤ a := hlo
    have hhi' : a + 4 * (n + 1) ≤ 0x700000 := hhi
    have hr : s.busRead m a = (s.word a, s) := by
      unfold State.busRead
      simp only [aligned_eq h4, ringBase, progBase, tableBase, dataBase, Bool.and_eq_true, decide_eq_true_eq]
      rw [if_neg (by omega), if_neg (by omega), if_pos (by omega)]
    simp only [State.busReads, hr, ih (a + 4) (by omega) (by omega) (by omega), State.words]

/-- A write of the data memory by a master. -/
theorem dataWrite {s : State} {m : Master} (hs : Hears s m) {a : Nat} (be : BitVec 4) (v : Word) (h4 : a % 4 = 0)
    (hlo : dataBase ≤ a) (hhi : a < dataBase + 0x200000) (hwf : Memory.wf s.mem = true) :
    Does (.registerWrite m a be v 0) s fun t => LockClosed m t ∧ (∀ b, b ≠ R.DEV_LOCK_STS → t.reg b = s.reg b) ∧
      (∀ j < 4, memGet t.mem (a + j) = if be.getLsbD j then (v >>> (8 * j)).setWidth 8 else memGet s.mem (a + j)) ∧
      ∀ b, b < a ∨ a + 4 ≤ b → memGet t.mem b = memGet s.mem b := by
  refine ⟨_, exec_registerWrite hs a be v 0, ?_⟩
  rw [busWrite_data s be v 0 h4 hlo hhi]
  exact putBytes_after_lockUse s m a be v hwf

/-- A host's write that its ring does not take. -/
theorem ringWrite_dropped {s : State} {m : Master} (hs : Hears s m) {o : Nat} (be : BitVec 4) (v : Word) (h4 : o % 4 = 0)
    (ho : o < 0x200000) (hh : m ≠ .keeper)
    (hr : s.bit (F.RING_STS_enabled (o / 0x20000)) = false ∨ o / 0x20000 ∈ [4, 5, 6, 7, 8, 9, 11, 13, 15] ∨
      2 ^ s.f (F.RING_CFG_size (o / 0x20000)) * 32 ≤ o % 0x20000) :
    Does (.registerWrite m (ringBase + o) be v 0) s fun t => OnlyReg s t R.DEV_LOCK_STS := by
  have hno : ¬ s.ringWrites o = true := by
    rw [ringWrites_iff s ho]
    rintro ⟨hon, hprod, hlt⟩
    rcases hr with hoff | hdev | hge
    · rw [hon] at hoff; cases hoff
    · exact hprod hdev
    · exact absurd hlt (Nat.not_lt.2 hge)
  refine ⟨_, exec_registerWrite hs (ringBase + o) be v 0, ?_⟩
  rw [busWrite_ring s be v 0 h4 ho hh, if_neg hno]
  exact onlyReg_setLock s m false

/-- A host's write into an enabled ring that the host produces. -/
theorem ringWrite_taken {s : State} {m : Master} (hs : Hears s m) {o : Nat} (be : BitVec 4) (v : Word) (h4 : o % 4 = 0)
    (ho : o < 0x200000) (hh : m ≠ .keeper) (hon : s.bit (F.RING_STS_enabled (o / 0x20000)) = true)
    (hp : o / 0x20000 ∈ [0, 1, 2, 3, 10, 12, 14]) (hlt : o % 0x20000 < 2 ^ s.f (F.RING_CFG_size (o / 0x20000)) * 32)
    (hwf : Memory.wf s.mem = true) :
    Does (.registerWrite m (ringBase + o) be v 0) s fun t => LockClosed m t ∧
      (∀ b, b ≠ R.DEV_LOCK_STS → t.reg b = s.reg b) ∧
      (∀ j < 4, memGet t.mem (ringBase + o + j) =
        if be.getLsbD j then (v >>> (8 * j)).setWidth 8 else memGet s.mem (ringBase + o + j)) ∧
      ∀ b, b < ringBase + o ∨ ringBase + o + 4 ≤ b → memGet t.mem b = memGet s.mem b := by
  have hprod : o / 0x20000 ∉ [4, 5, 6, 7, 8, 9, 11, 13, 15] := by
    intro h
    simp only [List.mem_cons, List.not_mem_nil, or_false] at h hp
    omega
  refine ⟨_, exec_registerWrite hs (ringBase + o) be v 0, ?_⟩
  rw [busWrite_ring s be v 0 h4 ho hh, if_pos ((ringWrites_iff s ho).2 ⟨hon, hprod, hlt⟩)]
  exact putBytes_after_lockUse s m (ringBase + o) be v hwf

/-! ## Reads (R9, R10, R31, R422, R429, R445) -/

theorem tblFind_set_same {α : Type} (t : Tbl α) (k : Nat) (v : α) : tblFind (tblSet t k v) k = some v := by
  induction t with
  | nil => simp [tblSet, tblFind]
  | cons e t ih =>
    obtain ⟨j, x⟩ := e
    unfold tblSet
    split
    · simp [tblFind]
    · next hne => split <;> simp [tblFind, hne, ih]

/-- What a master was last answered. -/
theorem tblFind_rdata_returns (s : State) (m : Master) (ws : List Word) :
    tblFind (s.returns m ws).host.rdata (masterIdx m) = some ws := tblFind_set_same _ _ _

theorem busRead_regs (s : State) (m : Master) {a : Nat} (h4 : a % 4 = 0) (hb : a / 0x10000 < 21) (hc : canObject a = none) :
    s.busRead m a = s.readReg m a := by
  unfold State.busRead
  simp only [aligned_eq h4, hc, ringBase, progBase, tableBase, dataBase, msixBase, Bool.and_eq_true, decide_eq_true_eq]
  rw [if_neg (by omega), if_neg (by omega), if_neg (by omega), if_neg (by omega), if_neg (by omega)]

/-- The register is half of no latched pair. -/
def Unpaired (s : State) (a : Nat) : Prop := pairHigh a = none ∧ s.pairLow a = none

theorem unpaired_of {s : State} {a : Nat} (h16 : a / 0x10000 ≠ 16) (h20 : a / 0x10000 ≠ 20) (hlo : a ≠ R.TIME_NOW_LO)
    (hhi : a ≠ R.TIME_NOW_HI) : Unpaired s a := by
  have hg : a ≠ R.GPIO_STAMP_LO ∧ a ≠ R.GPIO_STAMP_HI := by
    constructor <;> (rintro rfl; exact h20 rfl)
  have hc : ∀ n < 4, a ≠ R.CAN_TS_LO n ∧ a ≠ R.CAN_TS_HI n := by
    intro n hn
    unfold R.CAN_TS_LO R.CAN_TS_HI
    omega
  constructor
  · unfold pairHigh
    rw [if_neg hhi, if_neg hg.2, List.find?_eq_none.2 fun n hn => by simpa using (hc n (List.mem_range.1 hn)).2]
    rfl
  · unfold State.pairLow
    rw [if_neg hlo, if_neg hg.1, List.find?_eq_none.2 fun n hn => by simpa using (hc n (List.mem_range.1 hn)).1]
    rfl

/-- A read of a register with no latch, read-clear, secure-gated or write-only field gives what it shows. -/
theorem readNative_open (s : State) (m : Master) {a : Nat} {r : RegSpec} (hr : regSpec a = some r) (hp : Unpaired s a)
    (hrc : r.rc = 0) (hsg : r.sg = 0) (hwo : r.wo = 0) : s.readNative m a = (s.view a, s) := by
  have hmask : s.readMask m r = 0xFFFFFFFF#32 := by
    unfold State.readMask
    split
    · rfl
    · rw [hsg]; rfl
  unfold State.readNative
  simp [hr, hp.1, hp.2, hrc, hwo, hmask]

/-- A read of a register with read-clear fields clears them. -/
theorem readNative_rc (s : State) (m : Master) {a : Nat} {r : RegSpec} (hr : regSpec a = some r) (hp : Unpaired s a)
    (hrc : r.rc ≠ 0) (hl : s.part.lacks a = false) :
    s.readNative m a = (s.view a &&& s.readMask m r &&& ~~~(BitVec.ofNat 32 r.wo),
      s.setReg a (s.reg a &&& ~~~(BitVec.ofNat 32 r.rc))) := by
  unfold State.readNative
  simp [hr, hp.1, hp.2, hrc, hl]

theorem readNative_mem (s : State) (m : Master) (a : Nat) : (s.readNative m a).2.mem = s.mem := by
  unfold State.readNative
  split
  · rfl
  · split
    · rfl
    · dsimp only
      split
      · rfl
      · split <;> rfl

theorem readReg_native (s : State) (m : Master) {a : Nat} (h : isFr a = false) : s.readReg m a = s.readNative m a := by
  simp [State.readReg, h]

theorem isFr_false {a : Nat} (h : a / 0x10000 ≠ 18) : isFr a = false := by
  simp only [isFr, Bool.and_eq_false_iff, decide_eq_false_iff_not]
  omega

/-- Where hardware counts nothing in the same cycle, a read is the bus's read. -/
theorem readInc_zero (s : State) (m : Master) (a : Nat) :
    s.readInc m a 0 = (s.busRead m a).2.returns m [(s.busRead m a).1] := by
  unfold State.readInc
  cases regSpec (a / 4 * 4) <;> simp

/-! ### Read-clear registers -/

theorem ofNat_and_not {x y : Nat} (h : x &&& y = 0) : BitVec.ofNat 32 x &&& ~~~(BitVec.ofNat 32 y) = BitVec.ofNat 32 x := by
  refine BitVec.eq_of_getLsbD_eq fun i hi => ?_
  have hb := congrArg (Nat.testBit · i) h
  simp only [Nat.testBit_and, Nat.zero_testBit] at hb
  simp only [BitVec.getLsbD_and, BitVec.getLsbD_not, BitVec.getLsbD_ofNat, hi, decide_true, Bool.true_and]
  cases hx : x.testBit i
  · rfl
  · rw [hx, Bool.true_and] at hb
    rw [hb]
    rfl

theorem regsArm_rc : ∀ r ∈ regsArm, r.rc ≠ 0 → (r.addr = 0xB0034 ∨ r.addr = 0xB0038) ∧ r.dims = [(12, 0x80)] := by
  decide +kernel

theorem no_rc {a : Nat} {r r' : RegSpec} (hr : regSpec a = some r) (hrc : r.rc ≠ 0) {b : Nat} (hb : regSpec b = some r')
    (h0 : r'.rc = 0) : a ≠ b := by
  rintro rfl
  rw [hr, Option.some.injEq] at hb
  exact hrc (hb ▸ h0)

/-- A register of blocks TIME, SNS, ARM or SHFT with read-clear fields shows the register itself. -/
theorem view_rc (s : State) {a : Nat} {r : RegSpec} (hr : regSpec a = some r) (hrc : r.rc ≠ 0)
    (hb : a / 0x10000 ∈ [2, 6, 11, 15]) (hl : s.part.lacks a = false) : s.view a = s.reg a := by
  have hlo : a ≠ R.TIME_NOW_LO := no_rc hr hrc (b := R.TIME_NOW_LO) rfl rfl
  have hep : a ≠ R.TIME_TICK_EPOCH_LO := no_rc hr hrc (b := R.TIME_TICK_EPOCH_LO) rfl rfl
  simp only [List.mem_cons, List.not_mem_nil, or_false] at hb
  have hlive : liveBits a = 0xFFFFFFFF#32 := by
    rcases hb with hb | hb | hb | hb
    · have : a % 0x10000 ≠ 0x28 := by unfold R.TIME_TICK_EPOCH_LO at hep; omega
      simp [liveBits, hb, this]
    · simp [liveBits, hb]
    · obtain ⟨hm, hhit⟩ := regSpec_some hr
      rw [hb] at hm
      obtain ⟨ha, hdim⟩ := regsArm_rc r hm hrc
      simp only [RegSpec.hit, Bool.and_eq_true, decide_eq_true_eq, hdim, dimsHit, beq_iff_eq] at hhit
      have h48 : a % 0x80 ≠ 0x48 := by omega
      have h4c : a % 0x80 ≠ 0x4C := by omega
      simp [liveBits, hb, h48, h4c]
    · simp [liveBits, hb]
  unfold State.view
  rw [hl, hlive]
  rcases hb with hb | hb | hb | hb <;> simp [hb, hlo, BitVec.and_comm 0xFFFFFFFF#32]

theorem Writes.returns {s u : State} {a : Nat} {w : Word} (hw : Writes s u a w) (m : Master) (ws : List Word) :
    Writes s (u.returns m ws) a w := ⟨hw.same, hw.regs, hw.mem, hw.pending, hw.tm⟩

/-- READ_CLEAR of a register with read-clear fields: they are answered and cleared, and what hardware counts in the same
cycle stays. -/
theorem readClear_rc {s : State} {m : Master} (hs : Hears s m) (a : Nat) (r : RegSpec) (inc : Word) (h4 : a % 4 = 0)
    (hr : regSpec a = some r) (hrc : r.rc ≠ 0) (hb : a / 0x10000 ∈ [2, 6, 11, 15]) (hl : s.part.lacks a = false) :
    Does (.readClear m a inc) s fun t => OnlyReg s t a ∧
      t.reg a = (s.reg a &&& ~~~(BitVec.ofNat 32 r.rc)) ||| (inc &&& BitVec.ofNat 32 r.rc) ∧
      (∀ v ∈ tblFind t.host.rdata (masterIdx m), ∃ w, v = [w] ∧
        w &&& BitVec.ofNat 32 r.rc = s.reg a &&& BitVec.ofNat 32 r.rc) ∧
      (tblFind t.host.rdata (masterIdx m)).isSome := by
  have hblk : a / 0x10000 ≠ 16 ∧ a / 0x10000 ≠ 18 ∧ a / 0x10000 ≠ 20 ∧ a / 0x10000 < 21 := by
    simp only [List.mem_cons, List.not_mem_nil, or_false] at hb; omega
  obtain ⟨h16, h18, h20, h21⟩ := hblk
  have hp : Unpaired s a := unpaired_of h16 h20 (no_rc hr hrc (b := R.TIME_NOW_LO) rfl rfl)
    (no_rc hr hrc (b := R.TIME_NOW_HI) rfl rfl)
  have hread : s.busRead m a = (s.reg a &&& s.readMask m r &&& ~~~(BitVec.ofNat 32 r.wo),
      s.setReg a (s.reg a &&& ~~~(BitVec.ofNat 32 r.rc))) := by
    rw [busRead_regs s m h4 h21 (canObject_none h16), readReg_native s m (isFr_false h18), readNative_rc s m hr hp hrc hl,
      view_rc s hr hrc hb hl]
  have hrun : ∃ u, s.readInc m a inc = u.returns m [s.reg a &&& s.readMask m r &&& ~~~(BitVec.ofNat 32 r.wo)] ∧
      Writes s u a ((s.reg a &&& ~~~(BitVec.ofNat 32 r.rc)) ||| (inc &&& BitVec.ofNat 32 r.rc)) := by
    unfold State.readInc
    simp only [hread, aligned_eq h4, hr]
    split
    · next h0 =>
      refine ⟨_, rfl, ?_⟩
      rw [h0]
      simpa using writes_setReg s a (s.reg a &&& ~~~(BitVec.ofNat 32 r.rc))
    · refine ⟨_, rfl, ?_⟩
      rw [reg_setReg_same]
      exact ⟨reg_setReg_same _ a _, fun b h => (reg_setReg_ne _ _ h).trans (reg_setReg_ne s _ h), rfl, rfl, rfl⟩
  obtain ⟨u, hu, hw⟩ := hrun
  refine ⟨_, exec_readClear hs a inc, ?_⟩
  rw [hu]
  beta_reduce
  rw [tblFind_rdata_returns]
  have ht := hw.returns m [s.reg a &&& s.readMask m r &&& ~~~(BitVec.ofNat 32 r.wo)]
  refine ⟨onlyReg_of_writes (onlyReg_refl s _) ht, ht.same, fun v hv => ⟨_, (Option.some.inj hv).symm, ?_⟩, rfl⟩
  obtain ⟨-, -, -, hsg, hwo⟩ := sane_of_regSpec hr
  have hmask : s.readMask m r &&& BitVec.ofNat 32 r.rc = BitVec.ofNat 32 r.rc := by
    rw [BitVec.and_comm]
    unfold State.readMask
    split
    · exact word_and_ones _
    · exact ofNat_and_not hsg
  have hwo' := ofNat_and_not hwo
  rw [BitVec.and_comm] at hwo'
  rw [BitVec.and_assoc, hwo', BitVec.and_assoc, hmask]

/-! ### Registers without a side effect, and the forerunner words -/

theorem isFr_regSpec : ∀ j < 24, (regSpec (R.EVT_FR j)).isSome = true := by decide +kernel

/-- A read at a reserved offset gives zero (R6). -/
theorem readClear_reserved {s : State} {m : Master} (hs : Hears s m) (a : Nat) (h4 : a % 4 = 0) (hb : a / 0x10000 < 0x15)
    (hr : regSpec a = none) (hc : canObject a = none) :
    Does (.readClear m a 0) s fun t => tblFind t.host.rdata (masterIdx m) = some [0] ∧ t.regs = s.regs ∧ t.mem = s.mem := by
  have hfr : isFr a = false := by
    by_contra h
    simp only [isFr, Bool.not_eq_false, Bool.and_eq_true, decide_eq_true_eq] at h
    have := isFr_regSpec ((a - 0x120180) / 4) (by omega)
    rw [show R.EVT_FR ((a - 0x120180) / 4) = a by unfold R.EVT_FR; omega, hr] at this
    cases this
  have hread : s.busRead m a = (0, s) := by
    rw [busRead_regs s m h4 hb hc, readReg_native s m hfr]
    unfold State.readNative
    rw [hr]
  refine ⟨_, exec_readClear hs a 0, ?_⟩
  rw [readInc_zero, hread]
  exact ⟨tblFind_rdata_returns s m _, rfl, rfl⟩

/-- A read of an identity register of block DEV (R497). -/
theorem readClear_dev {s : State} {m : Master} (hs : Hears s m) {a : Nat} {r : RegSpec} (hr : regSpec a = some r)
    (h4 : a % 4 = 0) (hb : a / 0x10000 = 0) (hrc : r.rc = 0) (hsg : r.sg = 0) (hwo : r.wo = 0) :
    Does (.readClear m a 0) s fun t => tblFind t.host.rdata (masterIdx m) = some [s.viewDev a] := by
  have hview : s.view a = s.viewDev a := by
    simp [State.view, Part.lacks, liveBits, hb, BitVec.and_comm 0xFFFFFFFF#32]
  have hp : Unpaired s a := unpaired_of (by omega) (by omega) (by unfold R.TIME_NOW_LO; omega) (by unfold R.TIME_NOW_HI; omega)
  refine ⟨_, exec_readClear hs a 0, ?_⟩
  rw [readInc_zero, busRead_regs s m h4 (by omega) (canObject_none (by omega)), readReg_native s m (isFr_false (by omega)),
    readNative_open s m hr hp hrc hsg hwo, hview]
  exact tblFind_rdata_returns s m _

theorem readReg_fr (s : State) (m : Master) {k : Nat} (hk : k < 24) :
    s.readReg m (R.EVT_FR k) = s.readNative m (frNative k) := by
  have h1 : isFr (R.EVT_FR k) = true := by
    simp only [isFr, R.EVT_FR, Bool.and_eq_true, decide_eq_true_eq]; omega
  have h2 : (R.EVT_FR k - 0x120180) / 4 = k := by unfold R.EVT_FR; omega
  simp only [State.readReg, h1, if_true, h2]

theorem view_plain_safe (s : State) {a : Nat} (hb : a / 0x10000 = 19) (ha : a < 0x130060) : s.view a = s.reg a := by
  have hs : s.viewSafe a = s.reg a := by simp [State.viewSafe, show ¬ 0x130060 ≤ a by omega]
  simp [State.view, Part.lacks, liveBits, hb, hs, BitVec.and_comm 0xFFFFFFFF#32]

/-- A read of TIME_NOW_LO gives the low half of global time and latches the high half for the master (R31). -/
theorem readNative_now (s : State) (m : Master) : s.readNative m R.TIME_NOW_LO = (BitVec.ofNat 32 s.now,
    { s with host := { s.host with latch := tblSet s.host.latch (masterIdx m) (BitVec.ofNat 32 (s.now / 2 ^ 32)) } }) := by
  have hview : s.view R.TIME_NOW_LO = BitVec.ofNat 32 s.now := by
    simp [State.view, Part.lacks, liveBits, R.TIME_NOW_LO, BitVec.and_comm 0xFFFFFFFF#32]
  have hr : regSpec R.TIME_NOW_LO = some ⟨0x20000, [], 0, 0, 0, 0, 0, 0, 0, 0, 0, 0, 0⟩ := rfl
  have hhi : pairHigh R.TIME_NOW_LO = none := rfl
  have hlo : s.pairLow R.TIME_NOW_LO = some (0, BitVec.ofNat 32 (s.now / 2 ^ 32)) := rfl
  unfold State.readNative
  rw [hr]
  simp only [hhi, hlo, hview, State.readMask]
  simp

/-- A read of a forerunner word is the read of the native register (R445). -/
theorem forerunnerRead_native {s : State} {m : Master} (hs : Hears s m) (k : Fin 24) :
    Does (.forerunnerRead m k) s fun t => ∃ w, tblFind t.host.rdata (masterIdx m) = some [w] ∧ t.mem = s.mem ∧
      (k.val = 9 → w = s.reg R.SAFE_STS) ∧ (k.val = 10 → w = s.reg R.SAFE_OUT) ∧
      (k.val = 0 → w = BitVec.ofNat 32 s.now ∧
        tblFind t.host.latch (masterIdx m) = some (BitVec.ofNat 32 (s.now / 2 ^ 32))) := by
  refine ⟨_, exec_forerunnerRead hs k, _, tblFind_rdata_returns _ m _, ?_, fun h => ?_, fun h => ?_, fun h => ?_⟩
  · rw [readReg_fr s m k.isLt]
    exact readNative_mem s m _
  · rw [readReg_fr s m k.isLt, h, show frNative 9 = R.SAFE_STS from rfl,
      readNative_open s m (r := ⟨0x130000, [], 0, 0, 0, 0, 0, 0, 0, 0, 0, 0, 0x8000⟩) rfl ⟨rfl, rfl⟩ rfl rfl rfl]
    exact view_plain_safe s (a := R.SAFE_STS) rfl (by decide)
  · rw [readReg_fr s m k.isLt, h, show frNative 10 = R.SAFE_OUT from rfl,
      readNative_open s m (r := ⟨0x130010, [], 0, 0, 0, 0, 0, 0, 0, 0, 0, 0, 0⟩) rfl ⟨rfl, rfl⟩ rfl rfl rfl]
    exact view_plain_safe s (a := R.SAFE_OUT) rfl (by decide)
  · rw [readReg_fr s m k.isLt, h, show frNative 0 = R.TIME_NOW_LO from rfl, readNative_now]
    exact ⟨rfl, tblFind_set_same _ _ _⟩

theorem readClear_idcode {s : State} {m : Master} (hs : Hears s m) :
    Does (.readClear m R.DEV_IDCODE 0) s fun t => tblFind t.host.rdata (masterIdx m) = some [match s.part with
      | .olv8840 => 0x18840573 | .olv8830 => 0x18830573 | .olv8810 => 0x18810573] := by
  have h := readClear_dev hs (a := R.DEV_IDCODE) (r := ⟨8, [], 0, 0, 0, 0, 0, 0, 0, 0, 0, 0, 0⟩) rfl rfl rfl rfl rfl rfl
  have hv : s.viewDev R.DEV_IDCODE = match s.part with
      | .olv8840 => 0x18840573 | .olv8830 => 0x18830573 | .olv8810 => 0x18810573 := by
    unfold State.viewDev
    cases s.part <;> rfl
  rwa [hv] at h

theorem readClear_variant {s : State} {m : Master} (hs : Hears s m) :
    Does (.readClear m R.DEV_VARIANT 0) s fun t => tblFind t.host.rdata (masterIdx m) = some [match s.part with
      | .olv8840 => 0xFFFFFFFF | .olv8830 => 0xFFFF00FF | .olv8810 => 0x0F0F0000] := by
  have h := readClear_dev hs (a := R.DEV_VARIANT) (r := ⟨4, [], 0, 0, 0, 0, 0, 0, 0, 0, 0, 0, 0⟩) rfl rfl rfl rfl rfl rfl
  have hv : s.viewDev R.DEV_VARIANT = match s.part with
      | .olv8840 => 0xFFFFFFFF | .olv8830 => 0xFFFF00FF | .olv8810 => 0x0F0F0000 := by
    unfold State.viewDev
    cases s.part <;> rfl
  rwa [hv] at h

/-! ## Host access (R10, R422, R424–R429) -/

/-- In D3hot the device takes no action on a request of the PCIe host (R421). -/
theorem onBus_d3hot {s : State} {m : Master} (hp : m = .pcie) (hd : s.host.d3hot = true) (act : State → State) :
    onBus s m act = .next s := by
  simp [onBus, onMain, hp, hd]

theorem hostAccess_holds : hostAccess := by
  intro s m hm
  refine ⟨fun hp hd a be v w => ⟨onBus_d3hot hp hd fun s => (s.busWrite m a be v w).1,
      onBus_d3hot hp hd fun s => s.readInc m a w, onBus_d3hot hp hd fun s => (s.busWrite m a 0xF v 0).1,
      onBus_d3hot hp hd fun s => s.lockKey m v⟩, fun hn => ?_,
    fun x hx a ha ho => lockLapse_open hm hx ha ho, fun x hx hc => lockLapse_closed hm hx hc⟩
  have hs : Hears s m := ⟨hm, fun hp => by
    rw [← Bool.not_eq_true]
    exact fun hd => hn ⟨hp, hd⟩⟩
  intro host service closed read
  refine ⟨?_, ?_, ?_, ?_, ?_, ?_, ?_, ?_, ?_, ?_, ?_, ?_, ?_, ?_⟩
  case refine_1 => exact fun a r v h4 hr hq hl hh => quietWrite hs a r v h4 hr hq hl hh
  case refine_2 => exact fun a r be v h4 hr hbe => partialWrite hs v h4 hr hbe
  case refine_3 => exact fun a be v h4 hb hr ha hc => reservedWrite hs be v h4 hb hr ha hc
  case refine_4 => exact fun k hk v hw => pendWrite hs hk v hw
  case refine_5 => exact fun a be v h4 hlo hhi hwf => dataWrite hs be v h4 hlo hhi hwf
  case refine_6 => exact fun o be v h4 ho hh hr => ringWrite_dropped hs be v h4 ho hh hr
  case refine_7 => exact fun o be v h4 ho hh hon hp hlt hwf => ringWrite_taken hs be v h4 ho hh hon hp hlt hwf
  case refine_8 => exact fun a r v h4 hr hq hl hh hmw => quietMaskedWrite hs a r v h4 hr hq hl hh hmw
  case refine_9 => exact fun a r inc h4 hr hrc hb hl => readClear_rc hs a r inc h4 hr hrc hb hl
  case refine_10 => exact fun a h4 hb hr hc => readClear_reserved hs a h4 hb hr hc
  case refine_11 => exact readClear_idcode hs
  case refine_12 => exact readClear_variant hs
  case refine_13 => exact fun v => lockKeyWrite hs v
  case refine_14 => exact fun k => forerunnerRead_native hs k

/-! ## The PCIe endpoint and the SPI slave (R420, R421, R423, R497) -/

/-- What the host links show of the hidden state: PERST_N, the link, D3hot, and the SPI error bit. -/
def HostSt.link (h : HostSt) : Bool × Bool × Bool × Bool := (h.perstN, h.linkUp, h.d3hot, h.spiError)

theorem link_sendMsg (s : State) (v : Nat) : (s.sendMsg v).host.link = s.host.link := by
  unfold State.sendMsg; split <;> rfl

theorem link_enqueue (s : State) (r : EvRec) : (s.enqueue r).host.link = s.host.link := by
  unfold State.enqueue; split <;> rfl

/-- A raised event leaves the links as they are. -/
theorem link_raiseDev (s : State) (src payload : Nat) : (s.raiseDev src payload).host.link = s.host.link := by
  have hmsg : ∀ (u : State) (v : Nat), u.host.link = s.host.link → (s.msgOnRise u v).host.link = s.host.link := by
    intro u v hu
    unfold State.msgOnRise
    split
    · exact (link_sendMsg u v).trans hu
    · exact hu
  have h2 := hmsg ((s.setF (pendFld src) 1).incWrap (F.EVT_SRC_count src)) (s.f (F.EVT_SRC_vector src)) rfl
  unfold State.raiseDev State.raise State.raiseAt
  dsimp only
  split
  · exact (link_enqueue _ _).trans h2
  · exact h2

/-- EV54 is pending, and only the event unit's registers have changed. -/
def Linked (s t : State) : Prop := t.bit (pendFld 54) = true ∧ Keeps s t [0x12] ∧ t.tm = s.tm

/-- A change of the links with its event: EV54, and the links as they were set. -/
theorem linked_linkEvent (s : State) (h : HostSt) :
    Linked s ({ s with host := h } : State).linkEvent ∧ ({ s with host := h } : State).linkEvent.host.link = h.link := by
  obtain ⟨hregs, h', r', hrest⟩ := onlyEvents_raiseDev { s with host := h } 0 (show 54 < 64 by decide)
  refine ⟨⟨raiseDev_pending _ 0 (by decide), ⟨fun a ha => ?_, ?_, ?_⟩, ?_⟩, link_raiseDev _ 54 0⟩
  · refine hregs a fun he => ha ?_
    unfold evtReg at he
    simp only [List.mem_singleton]
    omega
  all_goals unfold State.linkEvent; rw [hrest]

section

variable {s : State} (hm : s.pwr.mainRst = false)
include hm

theorem exec_perst (v : Bool) : Machine.exec (.perst v) s = .next (s.perst v) := onMain_run (fun s => s.perst v) hm
theorem exec_linkChange (v : Bool) : Machine.exec (.linkChange v) s = .next (s.linkChange v) :=
  onMain_run (fun s => s.linkChange v) hm
theorem exec_powerStateChange (v : Bool) : Machine.exec (.powerStateChange v) s = .next (s.powerState v) :=
  onMain_run (fun s => s.powerState v) hm
theorem exec_spiFrameError : Machine.exec .spiFrameError s =
    .next ({ s with host := { s.host with spiError := true } } : State).linkEvent :=
  onMain_run (fun s => ({ s with host := { s.host with spiError := true } } : State).linkEvent) hm
theorem exec_spiStatus : Machine.exec .spiStatus s = .next s.spiStatus := onMain_run State.spiStatus hm
theorem exec_spiWrite (a : Word) (ws : List Word) : Machine.exec (.spiWrite a ws) s = .next (s.spiWords (spiAddr a) ws) :=
  onMain_run (fun s => s.spiWords (spiAddr a) ws) hm
theorem exec_spiRead (a : Word) (n : Nat) : Machine.exec (.spiRead a n) s =
    .next ((s.busReads .spi (spiAddr a) n).2.returns .spi (s.busReads .spi (spiAddr a) n).1) :=
  onMain_run (fun s => (s.busReads .spi (spiAddr a) n).2.returns .spi (s.busReads .spi (spiAddr a) n).1) hm

/-- PERST_N (R421). -/
theorem perst_link (v : Bool) :
    (s.host.perstN = v → Machine.exec (.perst v) s = .next s) ∧
      (s.host.perstN ≠ v → Does (.perst v) s fun t => t.host.perstN = v ∧ Linked s t) := by
  refine ⟨fun h => by rw [exec_perst hm]; simp [State.perst, h], fun h => ⟨_, exec_perst hm v, ?_⟩⟩
  obtain ⟨h', hl, ht⟩ : ∃ h', h'.perstN = v ∧ s.perst v = ({ s with host := h' } : State).linkEvent := by
    unfold State.perst
    rw [if_neg (by simpa using h)]
    refine ⟨_, ?_, rfl⟩
    cases v <;> rfl
  rw [ht]
  exact ⟨(congrArg Prod.fst (linked_linkEvent s h').2).trans hl, (linked_linkEvent s h').1⟩

/-- The link comes up or goes down (R421). -/
theorem linkChange_link (v : Bool) :
    (s.host.linkUp = v → Machine.exec (.linkChange v) s = .next s) ∧
      (s.host.linkUp ≠ v → Does (.linkChange v) s fun t => t.host.linkUp = v ∧ Linked s t) := by
  refine ⟨fun h => by rw [exec_linkChange hm]; simp [State.linkChange, h], fun h => ⟨_, exec_linkChange hm v, ?_⟩⟩
  unfold State.linkChange
  rw [if_neg (by simpa using h)]
  exact ⟨congrArg (·.2.1) (linked_linkEvent s _).2, (linked_linkEvent s _).1⟩

/-- D3hot (R421). -/
theorem powerState_link (v : Bool) :
    (s.host.d3hot = v → Machine.exec (.powerStateChange v) s = .next s) ∧
      (s.host.d3hot ≠ v → Does (.powerStateChange v) s fun t => t.host.d3hot = v ∧ Linked s t) := by
  refine ⟨fun h => by rw [exec_powerStateChange hm]; simp [State.powerState, h], fun h => ⟨_, exec_powerStateChange hm v, ?_⟩⟩
  unfold State.powerState
  rw [if_neg (by simpa using h)]
  exact ⟨congrArg (·.2.2.1) (linked_linkEvent s _).2, (linked_linkEvent s _).1⟩

/-- An SPI frame with an error (R423). -/
theorem spiFrameError_link :
    Does .spiFrameError s fun t => t.host.spiError = true ∧ Linked s t :=
  ⟨_, exec_spiFrameError hm, congrArg (·.2.2.2) (linked_linkEvent s _).2, (linked_linkEvent s _).1⟩

/-- An SPI write of one word is the register write at the address that bit 31 selects. -/
theorem spiWrite_one (a v : Word) :
    Does (.spiWrite a [v]) s fun t =>
      Does (.registerWrite .spi ((if a.getLsbD 31 then ringBase else 0) + a.toNat % 2 ^ 31) 0xF v 0) s fun u =>
        t.regs = u.regs ∧ t.mem = u.mem ∧ t.tm = u.tm := by
  refine ⟨_, exec_spiWrite hm a [v], _, exec_registerWrite ⟨hm, fun h => by cases h⟩ _ 0xF v 0, ?_⟩
  rw [spiAddr_eq]
  exact ⟨rfl, rfl, rfl⟩

/-- An SPI write into the data memory stores its words in ascending order. -/
theorem spiWrite_data (a : Nat) (ws : List Word) (h4 : a % 4 = 0)
    (hlo : dataBase ≤ a) (hhi : a + 4 * ws.length ≤ dataBase + 0x200000) (hwf : Memory.wf s.mem = true) :
    Does (.spiWrite (BitVec.ofNat 32 a) ws) s fun t => (∀ i < ws.length, t.word (a + 4 * i) = ws.getD i 0) ∧
      (∀ b, b < a ∨ a + 4 * ws.length ≤ b → memGet t.mem b = memGet s.mem b) ∧
      ∀ b, b ≠ R.DEV_LOCK_STS → t.reg b = s.reg b := by
  have hhi' : a + 4 * ws.length ≤ 0x700000 := hhi
  obtain ⟨hmem, hreg⟩ := spiWords_data ws s a h4 hlo hhi
  refine ⟨_, exec_spiWrite hm _ ws, ?_⟩
  rw [spiAddr_ofNat (show a < 2 ^ 31 by omega)]
  refine ⟨fun i hi => ?_, fun b hb => ?_, hreg⟩
  · rw [State.word, hmem]
    exact memWord_putWords a ws hwf hi
  · rw [hmem]
    exact memGet_putWords_ne hb

/-- An SPI read of the data memory gives its words and changes nothing. -/
theorem spiRead_data (a n : Nat) (h4 : a % 4 = 0) (hlo : dataBase ≤ a)
    (hhi : a + 4 * n ≤ dataBase + 0x200000) :
    Does (.spiRead (BitVec.ofNat 32 a) n) s fun t =>
      tblFind t.host.rdata (masterIdx .spi) = some (s.words a n) ∧ t.regs = s.regs ∧ t.mem = s.mem := by
  have hhi' : a + 4 * n ≤ 0x700000 := hhi
  refine ⟨_, exec_spiRead hm _ n, ?_⟩
  rw [spiAddr_ofNat (show a < 2 ^ 31 by omega), busReads_data s .spi n a h4 hlo hhi]
  exact ⟨tblFind_rdata_returns s .spi _, rfl, rfl⟩

/-- An SPI STATUS frame shows the last drop, the error and the phase, and clears the error. -/
theorem spiStatus_answer :
    Does .spiStatus s fun t => t.host.spiError = false ∧ t.regs = s.regs ∧ t.mem = s.mem ∧
      tblFind t.host.rdata (masterIdx .spi) = some [BitVec.ofNat 32 ((if s.host.spiDropped then 1 else 0) +
        (if s.host.spiError then 2 else 0) + 4 * s.f F.DEV_LOCK_STS_phase)] := by
  refine ⟨_, exec_spiStatus hm, rfl, rfl, rfl, (tblFind_rdata_returns _ .spi _).trans ?_⟩
  cases s.host.spiDropped <;> cases s.host.spiError <;> rfl

end

/-- The device number that DEV_PCI_ID shows is the part's (R497). -/
theorem view_pciId (s : State) : (s.view R.DEV_PCI_ID).toNat / 0x10000 = s.part.number := by
  have hv : s.view R.DEV_PCI_ID = putFld F.DEV_PCI_ID_device s.part.number (s.reg R.DEV_PCI_ID) := by
    simp [State.view, State.viewDev, Part.lacks, liveBits, R.DEV_PCI_ID, BitVec.and_comm 0xFFFFFFFF#32]
  have hb := getBits_insertBits_same (s.reg R.DEV_PCI_ID) (lsb := 16) (width := 16) s.part.number (by decide)
  have hn : s.part.number < 2 ^ 16 := by cases s.part <;> decide
  rw [hv]
  unfold putFld
  have hlt := (insertBits (s.reg R.DEV_PCI_ID) 16 16 s.part.number).isLt
  unfold getBits at hb
  rw [Nat.shiftRight_eq_div_pow, Nat.mod_eq_of_lt hn, Nat.mod_eq_of_lt (by omega)] at hb
  exact hb

theorem hostLinks_holds : hostLinks := by
  intro s hm linked
  refine ⟨perst_link hm, linkChange_link hm, powerState_link hm, spiWrite_one hm, ?_, ?_, spiStatus_answer hm,
    spiFrameError_link hm, ?_⟩
  · exact fun a ws h4 hlo hhi hwf => spiWrite_data hm a ws h4 hlo hhi hwf
  · exact fun a n h4 hlo hhi => spiRead_data hm a n h4 hlo hhi
  · refine ⟨(view_pciId s).trans ?_, rfl, rfl, rfl, rfl, rfl, rfl, rfl, rfl, rfl, rfl, rfl, rfl⟩
    cases s.part <;> rfl

/-- Settles O57: each clause on an access is a fact about one path of the bus, each clause on a link a fact about one link. -/
theorem hostAccessAndLinks : Obligations.HostAccessAndLinks := ⟨hostAccess_holds, hostLinks_holds⟩

end Sys2Proof.Machine

/-! # The queue, reset, and the tick's start, stop, second pulse and stamps (O1, O4, O26, O27, O29)

Each clause follows one path of a small function of Machine/Time.lean; a start refuses with the number of the first check of
R27 that its state fails. -/

namespace Sys2Proof.Machine

/-! ## Fields written and read -/

/-- `f_setF_same` for a field that is written out. -/
theorem f_setF_read {s : State} {x : Fld} {v : Nat} (h : x.lsb + x.width ≤ 32) :
    (s.setF x v).f x = v % 2 ^ x.width := f_setF_same s x v h

/-- `f_setF_apart` for two fields that are written out. -/
theorem f_setF_other {s : State} {x y : Fld} {v : Nat} (h : x.lsb + x.width ≤ 32)
    (hd : x.addr ≠ y.addr ∨ x.lsb + x.width ≤ y.lsb ∨ y.lsb + y.width ≤ x.lsb) :
    (s.setF x v).f y = s.f y := f_setF_apart s x y v h hd

/-! ## One step (R30) -/

/-- While the counter is not held, global time goes on to `t` where `t` lies ahead. -/
theorem at_of_running {s : State} (h : s.tm.holdLag = none) (t : Nat) :
    s.at t = { s with tm := { s.tm with now := max s.tm.now t } } := by
  simp [State.at, h]

/-- A cycle of a locked timebase takes 4 ns less what a slew takes off it. -/
theorem idle_locked {s : State} (hl : s.bit F.CLK_STS_pll_lock = true) (hh : s.tm.holdLag = none) :
    s.idle = { s with tm := { s.tm with now := s.tm.now + 4 - min 3 s.tm.slow, slow := s.tm.slow - min 3 s.tm.slow } } := by
  have hmax : max s.tm.now (s.tm.now + 4 - min 3 s.tm.slow) = s.tm.now + 4 - min 3 s.tm.slow := by omega
  simp [State.idle, State.at, State.now, hl, hh, hmax]

theorem stepFront_holds : stepFront := fun _ _ => rfl

theorem emptyQueue_holds : emptyQueue := by
  intro s hq
  have hstep : Machine.step s = .next s.idle := by simp [Machine.step, hq]
  refine ⟨fun hl => ?_, fun hl hh => ?_⟩
  · rw [hstep]; simp [State.idle, hl]
  · rw [hstep, idle_locked hl hh]

/-- Settles O1: a step matches on the queue, and an idle step is one cycle of the timebase. -/
theorem stepRunsTheFrontCommand : Obligations.StepRunsTheFrontCommand := ⟨stepFront_holds, emptyQueue_holds⟩

/-! ## Reset -/

/-- No gate-enable net, no level on a ball (R386). -/
theorem ball_of_gateNet_off {s : State} (h : s.netOn = false) (n : Nat) (b : Bool) : s.ball n b = none := by
  simp [State.ball, h]

/-- Settles O4: the registers' reset words are those of the register map, and no ball is driven as the gate-enable net is off. -/
theorem resetValues : Obligations.ResetValues := by
  refine ⟨rfl, by decide +kernel, by decide +kernel, by decide +kernel, by decide +kernel, by decide +kernel,
    by decide +kernel, rfl, by decide +kernel, by decide +kernel, by decide +kernel, by decide +kernel, ?_⟩
  exact fun n _ b => ball_of_gateNet_off (by decide +kernel) n b

/-! ## The checks of a start (R27) -/

/-- The window check without the division: lane cycles are 5 to 16 timebase cycles. -/
theorem fits_windowCycles (t : Sched) (p l : Nat) : t.fits (windowCycles p l) = true ↔
    ∀ x ∈ t.slices, 5 * ((x.start + x.budget : Nat) : Int) ≤ 16 * ((p : Int) - l - 375) := by
  unfold Sched.fits windowCycles
  rw [List.all_eq_true]
  refine forall₂_congr fun x _ => decide_eq_true_iff.trans ?_
  omega

open Classical in
/-- The number of the first condition of a list that fails, counted from `n`; 0 where none does. -/
noncomputable def firstFailing : List Prop → Nat → Nat
  | [], _ => 0
  | c :: cs, n => if c then firstFailing cs (n + 1) else n

theorem firstFailing_of_fails (cs : List Prop) (n k : Nat) (hk : k < cs.length) (hlt : ∀ j < k, cs.getD j False)
    (hf : ¬ cs.getD k False) : firstFailing cs n = n + k := by
  induction cs generalizing n k with
  | nil => simp at hk
  | cons c cs ih =>
    cases k with
    | zero => simpa [firstFailing] using fun hc : c => absurd hc hf
    | succ k =>
      have hc : c := hlt 0 (Nat.succ_pos k)
      have ht := ih (n + 1) k (Nat.lt_of_succ_lt_succ hk) (fun j hj => hlt (j + 1) (Nat.succ_lt_succ hj)) hf
      simp only [firstFailing, hc, if_true, ht]
      omega

theorem firstFailing_of_passes (cs : List Prop) (n : Nat) (h : ∀ k < cs.length, cs.getD k False) :
    firstFailing cs n = 0 := by
  induction cs generalizing n with
  | nil => rfl
  | cons c cs ih =>
    have hc : c := h 0 (Nat.succ_pos _)
    simp only [firstFailing, hc, if_true]
    exact ih (n + 1) fun k hk => h (k + 1) (Nat.succ_lt_succ hk)

/-- A check in the model's order of tests: its test is the failure of the condition. -/
theorem ite_eq_firstFailing {b c : Prop} [Decidable b] {cs : List Prop} {n e : Nat} (hb : b ↔ ¬ c)
    (he : e = firstFailing cs (n + 1)) : (if b then n else e) = firstFailing (c :: cs) n := by
  by_cases hc : c <;> simp [firstFailing, hb, hc, he]

/-- The check of a start numbers the conditions of R27 in their order. -/
theorem startCheck_eq_firstFailing (s : State) : s.startCheck = firstFailing (startConds s) 1 := by
  have hfits := fits_windowCycles (s.eng.sched.getD {}) s.startPeriod (s.f F.TIME_COUCH_LEAD_lead)
  unfold State.startCheck startConds
  refine ite_eq_firstFailing ?_ <| ite_eq_firstFailing ?_ <| ite_eq_firstFailing ?_ <| ite_eq_firstFailing ?_ <|
    ite_eq_firstFailing ?_ <| ite_eq_firstFailing ?_ <| ite_eq_firstFailing ?_ rfl
  · rw [Bool.or_eq_true, decide_eq_true_iff, decide_eq_true_iff, ← Nat.not_le, ← Nat.not_le, ← not_and_or]
    rfl
  · rw [Bool.not_eq_true', Bool.and_eq_false_iff, ← Bool.not_eq_true, ← Bool.not_eq_true, hfits, ← not_and_or]
    rfl
  · simp [chainLimit, State.startPeriod]
  · exact Nat.not_le.symm
  · exact Nat.not_le.symm
  · rw [Bool.and_eq_true, decide_eq_true_iff, Bool.not_eq_true', ← Bool.not_eq_true, Classical.not_imp]
    rfl
  · rw [Bool.and_eq_true, decide_eq_true_iff, bne_iff_ne, Classical.not_imp]
    rfl

/-! ## A start (R27, R29, R47) -/

/-- The first grid instant at or after `x`: on the grid, not before `x`, and less than a period after it or the epoch. -/
theorem gridAt_spec (e x : Nat) {t : Nat} (ht : 0 < t) :
    x ≤ gridAt e t x ∧ e ≤ gridAt e t x ∧ (gridAt e t x - e) % t = 0 ∧ (gridAt e t x = e ∨ gridAt e t x < x + t) := by
  have hdiv := Nat.div_add_mod (x - e + t - 1) t
  have hmod := Nat.mod_lt (x - e + t - 1) ht
  have hcomm := Nat.mul_comm t ((x - e + t - 1) / t)
  unfold gridAt
  refine ⟨by omega, by omega, ?_, ?_⟩
  · rw [Nat.add_sub_cancel_left]; exact Nat.mul_mod_left _ _
  · by_cases hx : x ≤ e
    · left
      rw [Nat.div_eq_of_lt (by omega)]; omega
    · right; omega

/-- The window check of a start writes TILE_SCHED_STS alone. -/
theorem reg_windowCheck_ne (s : State) {a : Nat} (ha : a ≠ 0x50000) : s.windowCheck.reg a = s.reg a := by
  unfold State.windowCheck
  split
  · rfl
  · exact reg_setF_ne s _ ha

@[simp] theorem windowCheck_tm (s : State) : s.windowCheck.tm = s.tm := by
  unfold State.windowCheck
  split <;> rfl

/-- On a verified schedule the window check writes 0 where the window fits, else 5 (R47). -/
theorem error_windowCheck {s : State} (hv : s.bit F.TILE_SCHED_STS_verified = true) :
    s.windowCheck.f F.TILE_SCHED_STS_error =
      if (s.eng.sched.getD {}).fits (windowCycles s.startPeriod (s.f F.TIME_COUCH_LEAD_lead)) then 0 else 5 := by
  unfold State.windowCheck
  rw [if_neg (by simp [hv]), f_setF_read (by decide)]
  split <;> rfl

section Start

variable {s : State} (hrun : s.bit F.TIME_TICK_CTL_run = false)
include hrun

/-- A start that a check refuses leaves its code (R27). -/
theorem startTick_refused (he : s.startCheck ≠ 0) : s.startTick =
    ((if s.startCheck = 1 then s else s.windowCheck).setF F.TIME_TICK_STS_start_error s.startCheck).setF
      F.TIME_TICK_STS_start_refused 1 := by
  simp [State.startTick, hrun, he]

/-- A start that passes is pending for the first grid instant 4 µs or more ahead (R27, R29). -/
theorem startTick_accepted (he : s.startCheck = 0) : s.startTick =
    { ((s.windowCheck.setF F.TIME_TICK_STS_start_error 0).setF F.TIME_TICK_CTL_run 1) with
      tm := { s.tm with pend := some ⟨gridAt s.epochNow (4 * s.startPeriod) (s.now + 4000), s.startPeriod,
        s.f F.TIME_COUCH_LEAD_lead, s.epochNow⟩ }
      sns := { s.windowCheck.sns with sdcRestart := true } } := by
  let t := s.windowCheck.setF F.TIME_TICK_STS_start_error 0
  have htm : t.tm = s.tm := windowCheck_tm s
  have hreg : ∀ a, a ≠ 0x50000 → a ≠ 0x20014 → t.reg a = s.reg a := fun a h h' =>
    (reg_setF_ne _ _ h').trans (reg_windowCheck_ne s h)
  have hp : t.startPeriod = s.startPeriod := congrArg (· + 1) (f_congr (hreg 0x20018 (by decide) (by decide)))
  have hl : t.f F.TIME_COUCH_LEAD_lead = s.f F.TIME_COUCH_LEAD_lead := f_congr (hreg 0x2001C (by decide) (by decide))
  have hep : t.epochNow = s.epochNow := by
    unfold State.epochNow State.role
    rw [htm, f_congr (x := F.TIME_LINE_STS_role) (hreg 0x20030 (by decide) (by decide)),
      f_congr (x := F.TIME_TICK_EPOCH_LO_epoch_lo) (hreg 0x20028 (by decide) (by decide)),
      f_congr (x := F.TIME_TICK_EPOCH_HI_epoch_hi) (hreg 0x2002C (by decide) (by decide))]
  have hnow : t.now = s.now := congrArg TimeSt.now htm
  unfold State.startTick
  simp only [hrun, he, Bool.false_eq_true, if_false, Nat.zero_ne_one, bne_self_eq_false]
  change { t.setF F.TIME_TICK_CTL_run 1 with
    tm := { t.tm with pend := some ⟨gridAt t.epochNow (4 * t.startPeriod) (t.now + 4000), t.startPeriod,
      t.f F.TIME_COUCH_LEAD_lead, t.epochNow⟩ }
    sns := { s.windowCheck.sns with sdcRestart := true } } = _
  rw [hp, hl, hep, hnow, htm]

/-- The first condition of R27 that fails refuses the start. -/
theorem start_refusal {k : Nat} (hk : k < 7) (hlt : ∀ j < k, (startConds s).getD j False)
    (hf : ¬ (startConds s).getD k False) :
    let t := s.startTick
    t.bit F.TIME_TICK_CTL_run = false ∧ t.f F.TIME_TICK_STS_start_error = k + 1 ∧
      t.bit F.TIME_TICK_STS_start_refused = true ∧ t.tm = s.tm ∧
      (k = 1 → s.bit F.TILE_SCHED_STS_verified = true → t.f F.TILE_SCHED_STS_error = 5) := by
  have he : s.startCheck = k + 1 := by
    rw [startCheck_eq_firstFailing, firstFailing_of_fails (startConds s) 1 k hk hlt hf, Nat.add_comm]
  let u := if s.startCheck = 1 then s else s.windowCheck
  have hu : u.reg 0x20010 = s.reg 0x20010 ∧ u.tm = s.tm := by
    dsimp only [u]
    split
    · exact ⟨rfl, rfl⟩
    · exact ⟨reg_windowCheck_ne s (by decide), windowCheck_tm s⟩
  intro t
  have ht : t = (u.setF F.TIME_TICK_STS_start_error (k + 1)).setF F.TIME_TICK_STS_start_refused 1 := by
    rw [← he]; exact startTick_refused hrun (by omega)
  rw [ht]
  refine ⟨?_, ?_, ?_, hu.2, ?_⟩
  · rw [bit_eq_f, f_setF_other (by decide) (by decide), f_setF_other (by decide) (by decide), f_congr (t := s) hu.1]
    exact hrun
  · rw [f_setF_other (by decide) (by decide), f_setF_read (by decide)]
    exact Nat.mod_eq_of_lt (by change k + 1 < 8; omega)
  · rw [bit_eq_f, f_setF_read (by decide)]; rfl
  · rintro rfl hv
    have hw : u = s.windowCheck := if_neg (by omega)
    have hfit : (s.eng.sched.getD {}).fits (windowCycles s.startPeriod (s.f F.TIME_COUCH_LEAD_lead)) = false := by
      rw [← Bool.not_eq_true, fits_windowCycles]
      exact fun h => hf ⟨hv, h⟩
    rw [f_setF_other (by decide) (by decide), f_setF_other (by decide) (by decide), hw, error_windowCheck hv, hfit]
    rfl

/-- Where every condition of R27 holds, the start is accepted. -/
theorem start_acceptance (hall : ∀ k < 7, (startConds s).getD k False) :
    let t := s.startTick
    t.bit F.TIME_TICK_CTL_run = true ∧ t.f F.TIME_TICK_STS_start_error = 0 ∧ t.running = s.running ∧
      t.f F.TILE_SCHED_STS_error = 0 ∧
      ∃ r, t.tm = { s.tm with pend := some r } ∧ r.period = s.f F.TIME_TICK_PERIOD_period_m1 + 1 ∧
        r.lead = s.f F.TIME_COUCH_LEAD_lead ∧ r.epoch = s.epochNow ∧ s.now + 4000 ≤ r.first ∧
        r.epoch ≤ r.first ∧ (r.first - r.epoch) % (4 * r.period) = 0 ∧
        (r.first = r.epoch ∨ r.first < s.now + 4000 + 4 * r.period) := by
  have he : s.startCheck = 0 := (startCheck_eq_firstFailing s).trans (firstFailing_of_passes (startConds s) 1 hall)
  obtain ⟨hv, hwin⟩ : s.bit F.TILE_SCHED_STS_verified = true ∧ _ := hall 1 (by decide)
  have hfit := (fits_windowCycles (s.eng.sched.getD {}) s.startPeriod (s.f F.TIME_COUCH_LEAD_lead)).2 hwin
  let u := (s.windowCheck.setF F.TIME_TICK_STS_start_error 0).setF F.TIME_TICK_CTL_run 1
  obtain ⟨hx, hep, hgrid, hnear⟩ := gridAt_spec s.epochNow (s.now + 4000)
    (show 0 < 4 * s.startPeriod by unfold State.startPeriod; omega)
  intro t
  have ht : t = _ := startTick_accepted hrun he
  have hf : ∀ x, t.f x = u.f x := fun x => by rw [ht]; rfl
  refine ⟨?_, ?_, ?_, ?_, ⟨_, _, _, _⟩, congrArg State.tm ht, rfl, rfl, rfl, hx, hep, hgrid, hnear⟩
  · rw [bit_eq_f, hf, f_setF_read (by decide)]; rfl
  · rw [hf, f_setF_other (by decide) (by decide), f_setF_read (by decide)]; rfl
  · unfold State.running
    rw [bit_eq_f, hf, f_setF_other (by decide) (by decide), f_setF_other (by decide) (by decide),
      f_congr (t := s) (reg_windowCheck_ne s (by decide))]
    rfl
  · rw [hf, f_setF_other (by decide) (by decide), f_setF_other (by decide) (by decide), error_windowCheck hv, if_pos hfit]

end Start

/-- Settles O26: the check of a start numbers the first failing condition of R27, and an accepted start is pending for the
first grid instant. -/
theorem startOfTheTick : Obligations.StartOfTheTick := by
  intro s hm
  have hx : Machine.exec .startTick s = .next s.startTick := onMain_run State.startTick hm
  refine ⟨fun hrun => ?_, fun hrun => ⟨fun k hk hlt hf => ⟨_, hx, start_refusal hrun hk hlt hf⟩,
    fun hall => ⟨_, hx, start_acceptance hrun hall⟩⟩⟩
  rw [hx]
  simp [State.startTick, hrun]

/-! ## A stop (R28) -/

/-- The model's test of a safe drive is that of the statements. -/
theorem driveSafe_iff (s : State) (u : Nat) : s.driveSafe u = true ↔ driveAtRest s u := by
  simp [State.driveSafe, driveAtRest, or_assoc]

/-- The model's test of a stop: every drive at rest, no converter in state 0 (R28). -/
theorem allSafe_iff (s : State) : s.allSafe = true ↔
    (∀ u < 8, driveAtRest s u) ∧ ∀ k < 8, s.convExists k = true → s.f (F.PROT_CV_STS_state k) ≠ 0 := by
  simp [State.allSafe, driveSafe_iff, imp_iff_not_or]

section Stop

variable {s : State} (hrun : s.bit F.TIME_TICK_CTL_run = true)
include hrun

theorem stopTick_unsafe (h : s.allSafe = false) : s.stopTick = s.setF F.TIME_TICK_STS_stop_rejected 1 := by
  simp [State.stopTick, hrun, h]

/-- A stop cancels a start that is pending. -/
theorem stopTick_pending (h : s.allSafe = true) (hp : s.tm.pend ≠ none) : s.stopTick =
    { s.setF F.TIME_TICK_CTL_run 0 with
      tm := { s.tm with pend := none }, sns := { s.sns with sdcRestart := false } } := by
  have hp' : (s.setF F.TIME_TICK_CTL_run 0).tm.pend.isSome = true := Option.isSome_iff_ne_none.2 hp
  unfold State.stopTick
  rw [if_neg (by simp [hrun]), if_neg (by simp [h]), if_pos hp']
  rfl

/-- A stop of a running tick waits for the end of the tick in progress. -/
theorem stopTick_running (h : s.allSafe = true) (hp : s.tm.pend = none) : s.stopTick =
    { s.setF F.TIME_TICK_CTL_run 0 with tm := { s.tm with stopping := true } } := by
  have hp' : ¬ (s.setF F.TIME_TICK_CTL_run 0).tm.pend.isSome = true := by simp [hp]
  unfold State.stopTick
  rw [if_neg (by simp [hrun]), if_neg (by simp [h]), if_neg hp']
  rfl

end Stop

/-- An accepted stop clears run and leaves TIME_TICK_STS.running. -/
theorem run_cleared (s : State) : (s.setF F.TIME_TICK_CTL_run 0).bit F.TIME_TICK_CTL_run = false ∧
    (s.setF F.TIME_TICK_CTL_run 0).running = s.running := by
  unfold State.running
  rw [bit_eq_f, bit_eq_f, f_setF_read (by decide), f_setF_other (by decide) (by decide)]
  exact ⟨rfl, rfl⟩

/-- Settles O27: the four ways of a stop are the branches of its definition. -/
theorem stopOfTheTick : Obligations.StopOfTheTick := by
  intro s hm safe
  have hx : Machine.exec .stopTick s = .next s.stopTick := onMain_run State.stopTick hm
  obtain ⟨hclear, hkept⟩ := run_cleared s
  refine ⟨fun hrun => ?_, fun hrun hsafe => ?_, fun hrun hsafe hp => ?_, fun hrun hsafe hp => ?_⟩
  · rw [hx]; simp [State.stopTick, hrun]
  · rw [hx, stopTick_unsafe hrun (Bool.not_eq_true _ ▸ fun h => hsafe ((allSafe_iff s).1 h))]
  · exact ⟨_, hx.trans (congrArg _ (stopTick_pending hrun ((allSafe_iff s).2 hsafe) hp)), hclear, rfl, hkept⟩
  · exact ⟨_, hx.trans (congrArg _ (stopTick_running hrun ((allSafe_iff s).2 hsafe) hp)), hclear, rfl, hkept⟩

/-! ## Second pulse, stamps, latched pairs (R31, R32, R35, R375) -/

/-- The next whole second at or after `n`. -/
theorem nextSecond (n : Nat) : (n + 999999999) / 1000000000 * 1000000000 % 1000000000 = 0 ∧
    n ≤ (n + 999999999) / 1000000000 * 1000000000 ∧ (n + 999999999) / 1000000000 * 1000000000 < n + 1000000000 := by
  omega

theorem ppsoSecond_spec {s : State} (hh : s.tm.holdLag = none) :
    let t := s.ppsoSecond
    t.now % 1000000000 = 0 ∧ s.now ≤ t.now ∧ t.now < s.now + 1000000000 ∧ t.tm.ppso = true ∧
      t.ppsoBall = s.bit F.TIME_TICK_CTL_ppso_en ∧ t.regs = s.regs ∧ t.mem = s.mem := by
  obtain ⟨hmod, hle, hlt⟩ := nextSecond s.now
  intro t
  have ht : t = { s with tm :=
      { s.tm with now := max s.now ((s.now + 999999999) / 1000000000 * 1000000000), ppso := true } } := by
    simp [t, State.ppsoSecond, hh, at_of_running hh, State.now]
  have hnow : t.now = (s.now + 999999999) / 1000000000 * 1000000000 := by
    rw [ht]; exact Nat.max_eq_right hle
  rw [hnow, ht]
  exact ⟨hmod, hle, hlt, rfl, rfl, rfl, rfl⟩

theorem ppsoEnd_spec {s : State} (hp : s.tm.ppso = true) (hh : s.tm.holdLag = none) :
    let t := s.ppsoEnd
    t.ppsoBall = false ∧ t.tm.ppso = false ∧ t.now = max s.now (s.now / 1000000000 * 1000000000 + 10000) ∧
      t.regs = s.regs ∧ t.mem = s.mem := by
  intro t
  have ht : t = { s with tm :=
      { s.tm with now := max s.now (s.now / 1000000000 * 1000000000 + 10000), ppso := false } } := by
    simp [t, State.ppsoEnd, hp, hh, at_of_running hh, State.now]
  rw [ht]
  exact ⟨rfl, rfl, rfl, rfl, rfl⟩

theorem masterIdx_lt (m : Master) : masterIdx m < 4 := by cases m <;> decide

theorem masterIdx_injective {m m' : Master} (h : masterIdx m = masterIdx m') : m = m' := by
  revert h; cases m <;> cases m' <;> decide

/-- Each master has a latch of its own for each pair. -/
theorem latch_key_injective {k k' : Nat} {m m' : Master} (h : 4 * k + masterIdx m = 4 * k' + masterIdx m') :
    (k, m) = (k', m') := by
  have hm := masterIdx_lt m
  have hm' := masterIdx_lt m'
  obtain rfl : k = k' := by omega
  rw [masterIdx_injective (show masterIdx m = masterIdx m' by omega)]

/-- A read of the low word of pair `k` latches the high word for the master that reads, and no other latch (R31). -/
theorem readPair_spec (s : State) (k : Nat) (m : Master) (lo hi : Word) :
    let t := s.readPair k m lo hi
    t.host.rdata = tblSet s.host.rdata (masterIdx m) [lo] ∧ t.latched k m = hi ∧
      (∀ k' m', (k', m') ≠ (k, m) → t.latched k' m' = s.latched k' m') ∧ t.regs = s.regs ∧ t.mem = s.mem ∧
      t.tm = s.tm :=
  ⟨rfl, tblGet_set_same _ _ _ _, fun _ _ hne => tblGet_set_ne _ _ _ fun h => hne (latch_key_injective h), rfl, rfl, rfl⟩

/-- An edge of PPSI stamps the phase of the cycle in both registers at once (R32). -/
theorem exec_ppsiEdge {s : State} (hm : s.pwr.mainRst = false) (ph : Fin 4) : Machine.exec (.ppsiEdge ph) s =
    .next ((s.setF F.TIME_PPSI_LO_ppsi_lo (s.now / 4 * 4 + ph)).setF F.TIME_PPSI_HI_ppsi_hi
      ((s.now / 4 * 4 + ph) / 2 ^ 32)) :=
  onMain_run (fun s : State => (s.setF F.TIME_PPSI_LO_ppsi_lo (s.now / 4 * 4 + ph)).setF F.TIME_PPSI_HI_ppsi_hi
    ((s.now / 4 * 4 + ph) / 2 ^ 32)) hm

section Pairs

variable {s : State} {m : Master} (hs : Hears s m)
include hs

theorem exec_timeNowRead : Machine.exec (.timeNowRead m) s =
    .next (s.readPair 0 m (BitVec.ofNat 32 s.now) (BitVec.ofNat 32 (s.now / 2 ^ 32))) :=
  onBus_run (fun s => s.readTimeNow m) hs.1 hs.2

theorem exec_gpioStampRead : Machine.exec (.gpioStampRead m) s =
    .next (s.readPair 1 m (s.reg R.GPIO_STAMP_LO) (s.reg R.GPIO_STAMP_HI)) :=
  onBus_run (fun s => s.readPair 1 m (s.reg R.GPIO_STAMP_LO) (s.reg R.GPIO_STAMP_HI)) hs.1 hs.2

theorem exec_canTimestampRead (n : Fin 4) : Machine.exec (.canTimestampRead n m) s =
    .next (s.readPair (2 + n) m (s.reg (R.CAN_TS_LO n)) (s.reg (R.CAN_TS_HI n))) :=
  onBus_run (fun s => s.readPair (2 + n) m (s.reg (R.CAN_TS_LO n)) (s.reg (R.CAN_TS_HI n))) hs.1 hs.2

end Pairs

/-- Settles O29: second pulse and stamp follow their definitions, the three pairs are one operation. -/
theorem stampsAndPairs : Obligations.StampsAndPairs := by
  intro s hm
  refine ⟨fun hh => ⟨_, onMain_run State.ppsoSecond hm, ppsoSecond_spec hh⟩,
    fun hp hh => ⟨_, onMain_run State.ppsoEnd hm, ppsoEnd_spec hp hh⟩,
    fun ph => ⟨_, exec_ppsiEdge hm ph, ?_, f_setF_read (by decide), rfl, rfl⟩, fun m hd => ?_⟩
  · rw [f_setF_other (by decide) (by decide)]; exact f_setF_read (by decide)
  · have hs : Hears s m := ⟨hm, hd⟩
    exact ⟨⟨_, exec_timeNowRead hs, readPair_spec s 0 m _ _⟩, ⟨_, exec_gpioStampRead hs, readPair_spec s 1 m _ _⟩,
      fun n => ⟨_, exec_canTimestampRead hs n, readPair_spec s (2 + n) m _ _⟩⟩

end Sys2Proof.Machine

/-! # The phases of a tick (O28)

What a phase does to the units, the tiles and the log leaves the tick generator alone: `SameClock s t`. Each function of the
model has one extension rule, whose proof mirrors the function's source; a phase is then its own few updates of the clock
around functions that keep it. -/

namespace Sys2Proof.Machine

/-- `t` has the clock, the tick generator and the held writes of `s`, and the same TIME_TICK_STS and TIME_TICK_COUNT. -/
structure SameClock (s t : State) : Prop where
  tm : t.tm = s.tm
  held : t.held = s.held
  sts : t.reg 0x20014 = s.reg 0x20014
  count : t.reg 0x20024 = s.reg 0x20024

namespace SameClock

variable {s t u : State}

@[refl] protected theorem refl (s : State) : SameClock s s := ⟨rfl, rfl, rfl, rfl⟩

/-- An update of other components. -/
theorem copy (h : SameClock s t) (htm : u.tm = t.tm) (hheld : u.held = t.held)
    (hregs : u.regs = t.regs) : SameClock s u := by
  have hreg : ∀ a, u.reg a = t.reg a := fun a => by unfold State.reg; rw [hregs]
  exact ⟨htm.trans h.tm, hheld.trans h.held, (hreg _).trans h.sts, (hreg _).trans h.count⟩

theorem ite {p : Prop} [Decidable p] (h : SameClock s t) (h' : SameClock s u) : SameClock s (if p then t else u) := by
  split
  · exact h
  · exact h'

theorem ite_snd {α : Type} {q : Prop} [Decidable q] {x y : α × State} (hx : SameClock s x.2) (hy : SameClock s y.2) :
    SameClock s (if q then x else y).2 := by
  split
  · exact hx
  · exact hy

/-- A conditional part, and an early end. -/
theorem ifThen {p : Prop} [Decidable p] (h : SameClock s t) (hf : SameClock s t → SameClock s u) :
    SameClock s (if p then u else t) := (hf h).ite h

theorem ifElse {p : Prop} [Decidable p] (h : SameClock s t) (hf : SameClock s t → SameClock s u) :
    SameClock s (if p then t else u) := h.ite (hf h)

theorem branch {p : Prop} [Decidable p] {v : State} (h : SameClock s t) (hf : SameClock s t → SameClock s u)
    (hg : SameClock s t → SameClock s v) : SameClock s (if p then u else v) := (hf h).ite (hg h)

theorem foldl {α : Type} {f : State → α → State} {l : List α} (h : SameClock s t)
    (hf : ∀ {t} {x}, SameClock s t → SameClock s (f t x)) : SameClock s (l.foldl f t) := by
  induction l generalizing t with
  | nil => exact h
  | cons x l ih => exact ih (hf h)

/-! ### Named updates -/

/-- A register above those of the tick. The address is written so that unification finds `b`: these three forms are one
register, one of an array, and one of an array of arrays. -/
theorem setReg0 {b : Nat} {w : Word} (h : SameClock s t) : SameClock s (t.setReg (b + 0x20025) w) :=
  ⟨h.tm, h.held, (reg_setReg_ne t w (by omega)).trans h.sts, (reg_setReg_ne t w (by omega)).trans h.count⟩

theorem setReg {b k : Nat} {w : Word} (h : SameClock s t) : SameClock s (t.setReg (b + 0x20025 + k) w) := by
  rw [Nat.add_right_comm]
  exact h.setReg0

theorem setReg2 {b j k : Nat} {w : Word} (h : SameClock s t) : SameClock s (t.setReg (b + 0x20025 + j + k) w) := by
  rw [Nat.add_assoc _ j k]
  exact h.setReg

section
variable {b j k l w v n : Nat} {x : Bool} (h : SameClock s t)
include h

theorem setF0 : SameClock s (t.setF ⟨b + 0x20025, l, w⟩ v) := h.setReg0
theorem setB0 : SameClock s (t.setB ⟨b + 0x20025, l, w⟩ x) := h.setReg0
theorem incSat0 : SameClock s (t.incSat ⟨b + 0x20025, l, w⟩ n) := h.setReg0
theorem incWrap0 : SameClock s (t.incWrap ⟨b + 0x20025, l, w⟩ n) := h.setReg0
theorem setF : SameClock s (t.setF ⟨b + 0x20025 + k, l, w⟩ v) := h.setReg
theorem setB : SameClock s (t.setB ⟨b + 0x20025 + k, l, w⟩ x) := h.setReg
theorem incSat : SameClock s (t.incSat ⟨b + 0x20025 + k, l, w⟩ n) := h.setReg
theorem incWrap : SameClock s (t.incWrap ⟨b + 0x20025 + k, l, w⟩ n) := h.setReg
theorem maxF : SameClock s (t.maxF ⟨b + 0x20025 + k, l, w⟩ n) := h.setReg
theorem setF2 : SameClock s (t.setF ⟨b + 0x20025 + j + k, l, w⟩ v) := h.setReg2
theorem setB2 : SameClock s (t.setB ⟨b + 0x20025 + j + k, l, w⟩ x) := h.setReg2

end

section
variable {n a k : Nat} (h : SameClock s t)
include h

theorem host {x : HostSt} : SameClock s { t with host := x } := h.copy rfl rfl rfl
theorem eng {x : EngSt} : SameClock s { t with eng := x } := h.copy rfl rfl rfl
theorem cams {x : Tbl CamSt} : SameClock s { t with cams := x } := h.copy rfl rfl rfl
theorem sns {x : SnsSt} : SameClock s { t with sns := x } := h.copy rfl rfl rfl
theorem cellsSns {x : Tbl CellSt} {y : SnsSt} : SameClock s { t with cells := x, sns := y } := h.copy rfl rfl rfl
theorem prot {x : ProtSt} : SameClock s { t with prot := x } := h.copy rfl rfl rfl

theorem setUnit {x : UnitSt} : SameClock s (t.setUnit n x) := h.copy rfl rfl rfl
theorem setMd {x : MdSt} : SameClock s (t.setMd n x) := h.copy rfl rfl rfl
theorem setLeg {x : LegSt} : SameClock s (t.setLeg n x) := h.copy rfl rfl rfl
theorem setConv {x : ConvSt} : SameClock s (t.setConv n x) := h.copy rfl rfl rfl
theorem setCore {x : LaneSt} : SameClock s (t.setCore n x) := h.copy rfl rfl rfl
theorem setCtx {x : CtxSt} : SameClock s (t.setCtx n x) := h.copy rfl rfl rfl
theorem setPort {x : PortSt} : SameClock s (t.setPort n x) := h.copy rfl rfl rfl
theorem setEmu {x : EmuSt} : SameClock s (t.setEmu n x) := h.copy rfl rfl rfl
theorem setLane {x : KynSt} : SameClock s (t.setLane n x) := h.copy rfl rfl rfl
theorem setCell {x : CellSt} : SameClock s (t.setCell n x) := h.copy rfl rfl rfl
theorem setArm {x : ArmSt} : SameClock s (t.setArm n x) := h.copy rfl rfl rfl
theorem setAxis {x : AxisSt} : SameClock s (t.setAxis n x) := h.copy rfl rfl rfl
theorem setLine {x : LineSt} : SameClock s (t.setLine x) := h.copy rfl rfl rfl
theorem setShare {x : ShareSt} : SameClock s (t.setShare n x) := h.copy rfl rfl rfl
theorem setShd {w : Word} : SameClock s (t.setShd a w) := h.copy rfl rfl rfl
theorem takeInForce {lo hi : Nat} : SameClock s (t.takeInForce lo hi) := h.copy rfl rfl rfl
theorem putWord {w : Word} : SameClock s (t.putWord a w) := h.copy rfl rfl rfl
theorem putWords {ws : List Word} : SameClock s (t.putWords a ws) := h.copy rfl rfl rfl
theorem free {w : Nat} : SameClock s (t.free w).2 := h.copy rfl rfl rfl

/-! ### Events and demands -/

theorem sendMsg {v : Nat} : SameClock s (t.sendMsg v) := h.host.ite h.incSat.host
theorem msgOnRise {v : Nat} : SameClock s (u.msgOnRise t v) := h.ifThen (·.sendMsg)
theorem enqueue {r : EvRec} : SameClock s (t.enqueue r) := h.incSat0.setF0.host.ite h.setF0.host

theorem raiseAt {stamp src payload : Nat} {safety : Bool} {origin reaction : Word} :
    SameClock s (t.raiseAt stamp safety src payload origin reaction) := by
  have h1 : SameClock s ((t.setF (pendFld src) 1).incWrap (F.EVT_SRC_count src)) := h.setF.incWrap
  have h2 : SameClock s (t.msgOnRise _ (t.f (F.EVT_SRC_vector src))) := h1.msgOnRise
  exact h2.enqueue.ite h2

theorem raise {src payload : Nat} {origin reaction : Word} : SameClock s (t.raise src payload origin reaction) := h.raiseAt
theorem raiseDev {src payload : Nat} : SameClock s (t.raiseDev src payload) := h.raise
theorem demandStamped {stamp cls st src : Nat} {origin : Word} :
    SameClock s (t.demandStamped stamp k cls st src origin) := h.copy rfl rfl rfl
theorem demandLater {cls st src : Nat} {origin : Word} : SameClock s (t.demandLater k cls st src origin) := h.copy rfl rfl rfl

/-! ### Contexts and slices -/

variable {c u d p m i : Nat}

theorem sliceEnd : SameClock s (t.sliceEnd i) := h.setCore.setF.setCtx
theorem discard {cause exc : Nat} : SameClock s (t.discard c cause exc) :=
  h.ifElse fun h => h.setCtx.setF.setF.setF.raise
theorem haltDemand {src : Nat} : SameClock s (t.haltDemand c src) := h.foldl (·.demandLater)
theorem ctxHalt {cause src : Nat} : SameClock s (t.ctxHalt c cause src) := h.setF.setF.haltDemand

theorem modShow : SameClock s (t.modShow d) := h.foldl fun h => h.setF2.setF2.setB2
theorem commitRef {w : Word} : SameClock s (t.commitRef d a w) := h.ifElse fun h => h.setShd.setMd.modShow
theorem commitGate {field raw : Nat} : SameClock s (t.commitGate n field raw) := h.setShd.setLeg

theorem commitTarget {x w : Word} : SameClock s (t.commitTarget x w) := by
  unfold State.commitTarget
  split
  · exact h.commitRef.ite h.commitRef
  · exact h.setF
  · exact h.setF2.ite h.setReg
  · exact h.setF2
  · exact h.setReg2
  · exact h.commitGate
  · exact h.putWord
  · exact h

theorem ctxCouch : SameClock s (t.ctxCouch c) :=
  h.ifElse fun h => (h.ifThen (·.discard)).branch (fun h => (h.foldl (·.commitTarget)).incSat.setF) fun h =>
    h.incSat.ifElse fun h => h.setF.ifThen (·.ctxHalt)

theorem groupsCouch : SameClock s t.groupsCouch := h.foldl (·.ctxCouch)
theorem deckApply {ws : List DeckleWr} : SameClock s (t.deckApply ws) := h.foldl (·.ifElse (·.setF2))
theorem deckCouch : SameClock s t.deckCouch.1 := h.eng.deckApply

theorem ctxCycles : SameClock s (t.ctxCycles c) := h.setF.maxF
theorem laneCycles : SameClock s (t.laneCycles n) := h.setF.maxF
theorem engEnd : SameClock s t.engEnd := (h.foldl (·.laneCycles)).foldl (·.ctxCycles)
theorem ctxTick : SameClock s (t.ctxTick c) := (h.ctxHalt.ite (h.ifThen fun h => h.setF.setF.setF)).setCtx
theorem engTick : SameClock s t.engTick := (h.foldl (·.setCore)).foldl (·.ctxTick)

/-! ### Legs and modulation -/

theorem gfBlank : SameClock s (t.gfBlank n) := h.setF.setLeg
theorem legApply : SameClock s (t.legApply n) := h.ifElse fun h => h.setLeg.setLeg.setF
theorem legSettle : SameClock s (t.legSettle n) := ((h.ifThen fun h => h.setF.incSat).setLeg).ifThen (·.gfBlank)
theorem legsApply {ls : List Nat} : SameClock s (t.legsApply ls) :=
  ((h.foldl (·.legApply)).foldl (·.legApply)).foldl (·.legSettle)
theorem allLegs : SameClock s t.allLegs := h.legsApply
theorem mdClear : SameClock s (t.mdClear d) := h.foldl (·.setLeg)
theorem mdPlace {o x : Nat} : SameClock s (t.mdPlace d o x) := h.setMd
theorem mdStart {x : Nat} : SameClock s (t.mdStart d x) := h.setF.setF.mdClear.setMd.mdPlace.ifThen (·.setMd)
theorem mdHalt : SameClock s (t.mdHalt d) := h.setF.setF.setMd.mdClear.legsApply
theorem boundStart {x : Nat} : SameClock s (t.boundStart x d) :=
  h.ifElse fun h => h.setF.setF.setF.ite h.mdStart.legsApply
theorem boundStop : SameClock s (t.boundStop d) := h.ifThen fun h => h.mdHalt.setF
theorem legSet {w : Word} : SameClock s (t.legSet n w) :=
  ((h.ifThen (·.setF)).ifThen fun h => h.takeInForce.takeInForce.setF).setReg.setB.ifThen (·.setShd)
theorem legCmd {w : Word} : SameClock s (t.legCmd n w) := h.legSet.legsApply
theorem freeLegs : SameClock s t.freeLegs := h.foldl (·.ifThen (·.legCmd))
theorem unitDuties {codes : List Nat} : SameClock s (t.unitDuties d codes) := (h.foldl (·.setShd)).setMd.modShow

/-! ### Arms, cells and Kynor lanes -/

theorem narrow {q v : Nat} : SameClock s (t.narrow u q v) := h.eng
theorem armNarrow : SameClock s (t.armNarrow k) := h.foldl fun h => h.foldl fun h => by
  split
  · exact h.narrow
  · exact h
theorem limpEnter {bit : Nat} : SameClock s (t.limpEnter u bit) := h.setUnit.setF
theorem unitDemandLater {act cls src : Nat} : SameClock s (t.unitDemandLater u act cls src) := by
  unfold State.unitDemandLater
  split
  · exact h.demandLater
  · exact h
theorem unlessTaken {kind : Nat} {f : State → State} (hf : SameClock s t → SameClock s (f t)) :
    SameClock s (t.unlessTaken kind k f) := h.ifElse hf

theorem cellFails {cause : Nat} : SameClock s (t.cellFails c cause) := h.ifThen (·.setCell)
theorem staleCheck : SameClock s (t.staleCheck a c) :=
  (((h.ifThen (·.cellFails)).ifThen (·.cellFails)).setCell).ifThen (·.cellFails)
theorem substitute {x : Nat} : SameClock s (t.substitute a c x) := by
  refine h.setF.ifElse fun h => ?_
  split
  · exact h.setF
  · exact h
theorem cellFailure {cause : Nat} : SameClock s (t.cellFailure a c cause) := by
  unfold State.cellFailure
  dsimp only
  split
  · exact (h.setCell.setF.setF.substitute.incSat.ifElse (·.raise)).ifThen (·.demandStamped)
  · exact h.setCell.setF.setF.substitute.incSat.ifElse (·.raise)
theorem armCount : SameClock s (t.armCount a) := h.setF.setF.setF2.setF2
theorem armDerate : SameClock s (t.armDerate a) :=
  h.setF.setF.armNarrow.foldl fun h => h.limpEnter.ite h.unitDemandLater
theorem armEvent {trip unconf : Bool} {r : Word} : SameClock s (t.armEvent a trip unconf r) := h.raise
theorem armTrip {unconf : Bool} : SameClock s (t.armTrip a unconf) := h.setF.armEvent.demandLater

theorem armFailures : SameClock s (t.armFailures a) := by
  refine h.ifElse fun h => ?_
  refine ((((SameClock.foldl ?_ fun h => ?_).armCount.foldl (·.setCell.setF)).ifThen
    (·.armDerate.ifElse (·.armEvent))).ifThen (·.unlessTaken (·.armTrip))).ifThen (·.setArm.raise)
  · exact (h.foldl (·.ifThen fun h => h.setF.ite h.setCell)).foldl (·.ifThen (·.staleCheck))
  · split
    · exact h.cellFailure
    · exact h

theorem failuresCouch : SameClock s t.failuresCouch := h.ifThen (·.foldl (·.armFailures))

theorem armSupervise : SameClock s (t.armSupervise a) :=
  h.ifElse fun h => (h.setReg.ifElse fun h => h.setF.setF).setArm
theorem overrideLevel {x : Pattern} : SameClock s (t.overrideLevel a n x).2 := by
  cases x with
  | pwm => exact h.free (w := 32)
  | _ => exact h
theorem pulseSets {dir : Nat} {band : F32} {cells : List (Nat × F32)} {w : List Nat} {pl : List (Nat × Pattern)} :
    SameClock s (t.pulseSets a n dir band cells w pl).2 := by
  induction pl generalizing t w with
  | nil => exact h
  | cons e pl ih => exact ih h.overrideLevel
theorem showSet {frac dir : Nat} {set : List Nat} {mod : Option Nat} : SameClock s (t.showSet a frac dir set mod) :=
  h.setF.setF.setF.setF.setB.setF2.setF2
theorem issue {act : List (Nat × Nat)} {cmd : Nat → CellCmd} : SameClock s (t.issue a act cmd) :=
  (h.foldl (·.setCell)).incSat
theorem armPulse {dir : Nat} {band : F32} {act : List (Nat × Nat)} {cells : List (Nat × F32)}
    {pl : List (Nat × Pattern)} : SameClock s (t.armPulse a dir band act cells pl) := h.pulseSets.issue.showSet.setArm

theorem armSelect : SameClock s (t.armSelect a) := by
  refine h.ifElse fun h => ?_
  dsimp only
  split
  · exact ((h.setB.setB.foldl (·.setCell)).foldl (·.setCell)).armPulse
  · split
    · exact ((h.setB.setB.foldl (·.setCell)).foldl (·.setCell)).overrideLevel.issue.incSat.showSet.setArm
    · exact ((h.setB.setB.foldl (·.setCell)).foldl (·.setCell)).branch (·.issue.showSet.setArm)
        (·.issue.incSat.showSet.setArm)

theorem armMirror {v : Nat} : SameClock s (t.armMirror v) := h.ifElse (·.putWords)
theorem reqLead : SameClock s t.reqLead :=
  ⟨h.tm, h.held, (reg_setReg_ne t _ (by decide)).trans h.sts, (reg_setReg_ne t _ (by decide)).trans h.count⟩
theorem laneEnter {x : Nat} : SameClock s (t.laneEnter n x) := h.setF.setLane.reqLead
theorem laneCouch : SameClock s (t.laneCouch n) :=
  (h.ifThen fun h => h.setLane.laneEnter).ifElse fun h => h.foldl fun h => by
    dsimp only
    split
    · exact h.setCell
    · exact h
theorem armsCouch : SameClock s t.armsCouch := h.ifElse fun h =>
  ((((h.foldl (·.armSupervise)).foldl (·.armSelect)).foldl (·.armMirror)).foldl (·.laneCouch))

theorem ageMap : SameClock s (t.ageMap n) := h.setF
theorem older {cs : List Nat} : SameClock s (t.older cs) := h.foldl (·.setCell)
theorem laneFall : SameClock s (t.laneFall n) := h.ifElse fun h => h.setF.laneEnter.raise.foldl (·.demandLater)
theorem lanePoint : SameClock s (t.lanePoint n) :=
  ((h.ifElse fun h => h.ageMap.older).setLane).ifThen (·.laneFall)
theorem laneSample : SameClock s (t.laneSample n) := h.ifElse fun h => h.ageMap.ifThen (·.lanePoint)
theorem kynSample : SameClock s t.kynSample := (h.foldl (·.laneSample)).cellsSns
theorem kynStop : SameClock s t.kynStop := h.foldl fun h => h.ifElse fun h => h.setLane.ifThen (·.laneEnter)

/-! ### Protection -/

theorem ascDenied {x : Nat} : SameClock s (t.ascDenied k x) := h.ifThen (·.foldl (·.setF))
theorem gpioSync : SameClock s t.gpioSync := h.setF0.setF0.setF0
theorem diagStop {cls : Nat} : SameClock s (t.diagStop k cls) :=
  h.ifThen fun h => h.setF0.setF0.setF0.gpioSync.raiseDev.allLegs
theorem histLog {cls x src : Nat} {changed : Bool} : SameClock s (t.histLog k cls x src changed) :=
  h.setF.setF.setB.setF.setF.setF.incWrap0.incWrap0.setF0
theorem unitEnter {x : Nat} : SameClock s (t.unitEnter u x) := h.setF
theorem unitRampDown : SameClock s (t.unitRampDown u) := (h.ifThen fun h => h.setF.setUnit).unitEnter
theorem leaveRun : SameClock s (t.leaveRun u) := h.setF.setF.setF.setUnit
theorem abortSeq : SameClock s (t.abortSeq u) := (h.setF.raise.ite (h.ifThen fun h => h.setF.raise)).setUnit
theorem unitSafe {x : Nat} {shorted : Bool} : SameClock s (State.unitSafe x shorted t u) :=
  h.ifElse fun h => (h.unitRampDown.setF.ite (h.ifThen (·.setF))).ite
    (h.abortSeq.leaveRun.unitEnter.setF.ifThen fun h => (h.ifElse (·.setUnit)).ifElse (·.raise))
theorem convEnter {cls x : Nat} : SameClock s (t.convEnter k cls x) :=
  (h.setF.setF.incSat.setConv.foldl (·.unitSafe)).allLegs
theorem demand {cls x src : Nat} : SameClock s (t.demand k cls x src) :=
  h.ifElse fun h => h.ascDenied.histLog.diagStop.branch (·.convEnter) (·.incSat)
theorem demandsNoted {ds : List Demand} {acc : List (Demand × Bool)} :
    SameClock s (ds.foldl State.demandNoted (t, acc)).1 := by
  induction ds generalizing t acc with
  | nil => exact h
  | cons d ds ih => exact ih h.demand
theorem demandsCouch : SameClock s t.demandsCouch := h.prot.demandsNoted.host

theorem unitWatch : SameClock s (t.unitWatch u) := h.ifElse fun h => h.setF.setUnit
theorem govern {vdc : F32} : SameClock s (t.govern k vdc) := h.ifElse fun h =>
  h.setB.branch (fun h => (h.setF.ifThen (·.setF)).setConv) fun h =>
    ((h.setF.setF.ifThen (·.raise)).setB.ifThen (·.setF)).setConv
theorem unitFault {bit src act : Nat} : SameClock s (t.unitFault bit src act u) := h.setF.unitDemandLater.raise
theorem lrDemand : SameClock s (t.lrDemand u) := h.unitFault
theorem ovsDemand : SameClock s (t.ovsDemand u) := h.unitFault
theorem unitFaults : SameClock s (t.unitFaults u) :=
  (h.ifThen fun h => h.setUnit.unlessTaken (·.lrDemand)).ifThen fun h => h.setUnit.unlessTaken (·.ovsDemand)
theorem uvDemand {later : Bool} : SameClock s (t.uvDemand later k) := h.demandLater.raise.ite h.demand.raise
theorem lostDemand {later : Bool} : SameClock s (t.lostDemand later k) := h.setF.uvDemand
theorem governFaults {later : Bool} : SameClock s (State.governFaults later t k) :=
  (h.ifThen fun h => h.setConv.unlessTaken (·.uvDemand)).ifThen fun h => h.setConv.unlessTaken (·.lostDemand)
theorem watchCouch : SameClock s t.watchCouch :=
  ((((h.foldl (·.unitWatch)).foldl (·.govern)).foldl (·.unitFaults)).foldl (·.governFaults)).prot

theorem deckleEvent {wide : Nat → Int} {fresh : List Nat} : SameClock s (t.deckleEvent u wide fresh) :=
  h.ifElse fun h => h.raiseDev.ite h.unitDemandLater.raiseDev
theorem clampCouch {w : State} : SameClock s (t.clampCouch w) := (h.eng.foldl (·.incSat)).foldl (·.deckleEvent)
theorem rampEnd : SameClock s (t.rampEnd k) := (h.setF.foldl (·.unitSafe)).allLegs
theorem rampCouch : SameClock s (t.rampCouch k) := h.ifThen (·.rampEnd)
theorem releaseAtCouch : SameClock s (t.releaseAtCouch k) :=
  h.ifElse fun h => (h.setF.setF.setF.setConv.foldl (·.ifElse (·.setLeg))).allLegs
theorem protCouch : SameClock s t.protCouch :=
  ((h.foldl (·.rampCouch)).foldl (·.releaseAtCouch)).foldl (·.setB)
theorem ascCouch : SameClock s (t.ascCouch k) := h.ifThen (·.rampEnd)
theorem unitPhase : SameClock s (t.unitPhase u) :=
  h.ifElse fun h => h.setUnit.ifElse fun h => h.limpEnter.ite h.unitDemandLater

/-! ### Load share and crash stops -/

theorem crashCouch : SameClock s t.crashCouch := h.setLine.ifElse fun h => h.foldl (·.ifThen (·.setUnit))
theorem delOvr : SameClock s (t.delOvr u k) := h.setUnit
theorem setOvr {w : F32} : SameClock s (t.setOvr u k w) := h.setUnit
theorem shareCheck : SameClock s (t.shareCheck d) := h.ifThen fun h => h.setF.setF.raise
theorem shareCouch : SameClock s (t.shareCouch d) := h.ifElse fun h => h.setF.setF.setF.delOvr.ite
  (h.shareCheck.branch (fun h => h.setOvr.setF)
    fun h => (h.setOvr.setShare.ifThen (·.setF)).ite h.setOvr.setShare).setShare
theorem shareCouches : SameClock s t.shareCouches := h.foldl (·.shareCouch)
theorem crashStep {alone : Bool} : SameClock s (t.crashStep u alone) := h.setUnit.ite (h.setUnit.ifThen (·.setF))

/-! ### Motion -/

theorem camCouch {s0 : State} : SameClock s (State.camCouch s0 t m) := by
  refine h.ifElse fun h => ?_
  refine (h.cams.branch (fun h => ?_) fun h => h.ifThen fun h => h.setF.raise).setF.setReg
  split
  · exact h.ifElse fun h => h.incWrap.ifThen (·.foldl (·.raise))
  · exact h
theorem winchCouch : SameClock s (t.winchCouch n) := h.ifElse fun h =>
  h.setAxis.branch (fun h => h.setOvr.setOvr.ifThen (·.setF)) fun h => h.setOvr.setOvr.setB.setB
theorem axisGo {x : Nat} : SameClock s (t.axisGo n x) := h.setF
theorem camWait {x : AxisSt} : SameClock s (t.camWait n x) := h.setAxis.axisGo
theorem raiseMx {src payload : Nat} : SameClock s (t.raiseMx n src payload) := h.raise
theorem atLimit {arrived : Bool} : SameClock s (t.atLimit n arrived) := h.ifThen fun h => h.setF.raiseMx
theorem camFollow : SameClock s (t.camFollow n) :=
  h.camWait.ite (h.setF.setAxis.axisGo.ite (h.setF.camWait.ite (h.atLimit.camWait.ite h.setAxis.axisGo)))
theorem moveEnd {o : Nat} : SameClock s (t.moveEnd n o) := h.setF.raiseMx
theorem profileCouch : SameClock s (t.profileCouch n) :=
  (h.setAxis.atLimit.ifThen (·.moveEnd.axisGo)).ite <|
    (h.setAxis.atLimit.ifElse fun h => h.moveEnd.axisGo.ite (h.ifThen (·.moveEnd.axisGo))).ite
      (h.setAxis.atLimit.ifThen (·.moveEnd.axisGo))
theorem homeWrite {x : Int} : SameClock s (t.homeWrite n x) := h.setF.setAxis
theorem homeFail {res : Nat} : SameClock s (t.homeFail n res) := (h.setF.raiseMx.ifElse (·.setF)).setAxis
theorem homeCouch : SameClock s (t.homeCouch n) := by
  have h1 : SameClock s (match (t.axis n).home with
      | some x => if 3 ≤ (t.axis n).phase then t.homeWrite n x else t
      | none => t) := by
    split
    · exact h.ifThen (·.homeWrite)
    · exact h
  exact h1.setAxis.homeFail.axisGo.ite (h1.setAxis.ite (h1.setAxis.ite (h1.setAxis.ite
    h1.setAxis.setF.setF.raiseMx.axisGo)))
theorem axisMotion : SameClock s (t.axisMotion n) := by
  refine SameClock.ifThen ?_ (·.setAxis)
  split
  · exact h.camFollow.ite (h.setAxis.ite h.profileCouch)
  · exact h.camFollow.ite (h.setAxis.ite h.profileCouch)
  · exact h.setAxis.atLimit.ifElse fun h => (h.ifThen (·.moveEnd)).setAxis.axisGo
  · exact h.homeCouch
  · exact h.setAxis
theorem axisLost : SameClock s (t.axisLost n) :=
  (h.setF.branch (·.moveEnd) (·.ifThen (·.homeFail))).setAxis.axisGo
theorem axisStop {fault : Bool} : SameClock s (t.axisStop n fault) := (h.ifElse (·.setF)).setAxis.axisGo
theorem homeStart : SameClock s (t.homeStart n) := h.setAxis.axisGo
theorem axisTransition : SameClock s (t.axisTransition n) := by
  unfold State.axisTransition
  dsimp only
  split
  · exact h.ifElse fun h => h.setAxis.axisGo
  · refine h.axisLost.ite (h.axisStop.ite (SameClock.ifElse (h.ifElse fun h => ?_) (·.ifThen (·.homeStart))))
    split
    · exact h.setAxis.axisGo
    · exact h.setF
  · refine h.axisLost.ite (h.axisStop.ite (h.axisStop.ite (h.ifElse fun h => ?_)))
    split
    · exact h.setAxis
    · exact h.setF
  · exact h.ifThen (·.axisLost)
  · exact h.axisLost.ite (h.homeFail.axisStop.ite (h.axisStop.ite (h.ifThen (·.axisStop))))
  · refine SameClock.ifElse (h.ifElse fun h => ?_) (·.ifThen (·.setAxis.axisGo))
    split
    · exact h.setAxis.setAxis.axisGo
    · exact h.setF
  · exact h.setAxis.axisGo.ite (h.ifThen fun h => h.setAxis.setF)
  · exact h
theorem axisWatch : SameClock s (t.axisWatch n) := h.setAxis.setB.setReg.setReg
theorem axisRefs {s0 : State} : SameClock s (State.axisRefs s0 t n) :=
  (h.setOvr.ite (h.setOvr.ite h.setOvr)).branch (·.setOvr.setAxis) (·.setAxis)
theorem axisCouch {s0 : State} : SameClock s (State.axisCouch s0 t n) :=
  h.setAxis.ite (h.winchCouch.axisTransition.axisMotion.ifThen (·.setAxis)).axisRefs.axisWatch
theorem motionCouch : SameClock s t.motionCouch := (h.foldl (·.camCouch)).foldl (·.axisCouch)

/-! ### Field-control units -/

theorem unitGo {x : Nat} {q : Pattern} : SameClock s (t.unitGo u x q) := h.unitEnter.setUnit.allLegs
theorem unitReady : SameClock s (t.unitReady u) := h.setF.leaveRun.unitGo
theorem unitJoins {x : Nat} : SameClock s (t.unitJoins u x) := h.unitSafe.setF
theorem startPulses {q : Seq} : SameClock s (t.startPulses u q).1 := h.setF.setUnit
theorem runFromCatch {w : F32} : SameClock s (t.runFromCatch u w) := h.setUnit.setB.unitGo
theorem runFromAlign : SameClock s (t.runFromAlign u) := h.setUnit.setB.unitGo
theorem alignEnd {o : Nat} : SameClock s (t.alignEnd u o) := h.setF.raise.branch (·.runFromAlign) (·.unitReady)
theorem alignStart : SameClock s (t.alignStart u) := by
  have h1 : SameClock s ((t.unitGo u 2 .block).startPulses u .align).1 := h.unitGo.startPulses
  unfold State.alignStart
  dsimp only
  split
  · exact h1.free.alignEnd
  · exact h1
theorem catchEnd {o : Nat} {w : F32} : SameClock s (t.catchEnd u o w) :=
  (h.setF.ifThen (·.setF)).raise.branch (·.runFromCatch) fun h => h.alignStart.ite h.unitReady
theorem catchStart : SameClock s (t.catchStart u) := by
  unfold State.catchStart
  dsimp only
  split
  · exact h.unitGo.setF.setF.setUnit.setF.setUnit
  split
  · exact h.unitGo.setF.setF.setUnit.setF.setUnit.allLegs
  split
  · exact h.unitGo.setF.setF.setUnit.setF.startPulses.catchEnd
  · exact h.unitGo.setF.setF.setUnit.setF.startPulses
theorem vecAngle {x y : F32} : SameClock s (t.vecAngle x y).2 := by
  unfold State.vecAngle
  split
  split
  · exact h.free
  · exact h
theorem angles {vs : List (F32 × F32)} : SameClock s (t.angles vs).2 := by
  induction vs generalizing t with
  | nil => exact h
  | cons v vs ih => exact ih h.vecAngle
theorem catchPulses : SameClock s (t.catchPulses u) := h.catchEnd.ite <| h.ifElse fun h =>
  h.angles.branch (fun h => h.catchEnd.ite h.setF.startPulses.setUnit) (·.setUnit.catchEnd)
theorem currentControl {th w id iq : F32} : SameClock s (t.currentControl u th w id iq).2.2 := h.setUnit.setB
theorem controlOwn {th w id iq : F32} : SameClock s (t.controlOwn u th w id iq).2 := h.currentControl.setUnit
theorem catchSearch : SameClock s (t.catchSearch u) := h.controlOwn.setUnit.branch (·.catchEnd) fun h =>
  h.setUnit.ite (h.ifElse fun h => h.setUnit.ite h.setUnit)
theorem catchMagnetise : SameClock s (t.catchMagnetise u) := h.catchEnd.ite h.controlOwn.setUnit
theorem catchCouch : SameClock s (t.catchCouch u) := by
  unfold State.catchCouch
  dsimp only
  split
  · exact h.catchEnd
  · exact h.catchPulses
  · exact h.catchSearch
  · exact h.catchMagnetise
  · exact h
theorem aligned {th : F32} : SameClock s (t.aligned u th) := h.setUnit.ifThen fun h => h.setF.setF
theorem alignCouch : SameClock s (t.alignCouch u) :=
  h.alignEnd.ite (h.ifElse fun h => h.alignEnd.ite h.aligned.alignEnd)
theorem unitAsc : SameClock s (t.unitAsc u) := h.leaveRun.setUnit.unitGo.raise.ite h.setF.unitReady
theorem unitTransition : SameClock s (t.unitTransition u) := by
  refine h.ifElse fun h => h.unitReady.ite (h.unitJoins.ite ?_)
  split
  · exact h.ifThen (·.catchStart)
  · exact h.catchCouch.ifThen (·.catchEnd)
  · exact h.alignCouch.ifThen (·.alignEnd)
  · exact h.unitRampDown.ite (h.ifThen (·.unitAsc))
  · exact h.ifElse fun h => h.unitEnter.ite (h.ifThen (·.unitReady))
  · exact h.unitReady.ite (h.catchStart.ite (h.ifThen (·.unitReady)))
  · exact h.ifThen (·.unitReady)
  · exact h
theorem unitSupervise : SameClock s (t.unitSupervise u) := h.setUnit.ifThen fun h => h.setF.raise

theorem curve : SameClock s (t.curve u).2 := by
  refine ite_snd h.setF.setF ?_
  dsimp only
  split
  · exact ite_snd h.setF (ite_snd h.setF h)
  · exact ite_snd h.setF h
  · exact ite_snd h.setF h
theorem speedTarget : SameClock s (t.speedTarget u).2 := ite_snd h.curve h
theorem unitRamp : SameClock s (t.unitRamp u) := (h.speedTarget.ifThen (·.setF)).branch (·.setUnit) fun h =>
  h.setUnit.ite (h.setUnit.ite h.setUnit)
theorem leaveForced : SameClock s (t.leaveForced u).2 := ite_snd h.setUnit.setF h
theorem controlRun {th w id iq : F32} : SameClock s (t.controlRun u th w id iq) := by
  unfold State.controlRun
  dsimp only
  split
  · exact h.currentControl.unitDuties
  · exact h.currentControl
theorem forcedRun : SameClock s (t.forcedRun u) := h.setUnit.ifThen (·.controlRun)
theorem setSlip {x : F32 × F32} : SameClock s (t.setSlip u x) := h.setUnit.ite (h.free.setUnit.ite h.setUnit)
theorem speedTorque {ref : F32} : SameClock s (t.speedTorque u ref).2 := by
  unfold State.speedTorque
  dsimp only
  split
  · exact h.setUnit
  · exact h
theorem unitRefs : SameClock s (t.unitRefs u).2 := by
  refine ite_snd h.setUnit.setSlip ?_
  split
  · exact h.setUnit.setSlip
  · exact (ite_snd h h.speedTorque).setUnit.setSlip
theorem controlCouch {soft : Nat} {vec : Option (F32 × F32)} : SameClock s (t.controlCouch u soft vec) :=
  h.unitRefs.controlRun
theorem unitRun : SameClock s (t.unitRun u) := h.ifElse fun h =>
  h.unitRamp.setUnit.leaveForced.branch (·.forcedRun) fun h => h.controlCouch.ite h.setSlip
theorem refIdle : SameClock s (t.refIdle u) := h.ifElse fun h => h.speedTarget.setUnit
theorem unitCouch {alone : Bool} : SameClock s (t.unitCouch u alone) := h.ifElse fun h =>
  h.setF.setUnit.unitTransition.crashStep.refIdle.unitRun.unitSupervise.setUnit
theorem unitMirror : SameClock s (t.unitMirror u) := h.ifElse (·.putWords)
theorem pulseSample : SameClock s (t.pulseSample u) := h.ifElse fun h =>
  h.setUnit.ite (h.setUnit.ifThen (·.setUnit)).setF.allLegs
theorem unitMeasure : SameClock s (t.unitMeasure u) := by
  refine h.setUnit.ite ?_
  dsimp only
  split
  · exact h.setF.setUnit
  · exact h.setF.setUnit.ite h.free.setF.setUnit

/-! ### Measurement and feedback ports -/

theorem sdOutput : SameClock s (t.sdOutput n) := by
  refine h.ifElse fun h => ?_
  dsimp only
  split
  · exact ((h.setF.setB.ifThen (·.setF)).ifThen (·.setF)).setB
  · exact (((h.free (w := 16)).setF.setB.ifThen (·.setF)).ifThen (·.setF)).setB
theorem sdcRestart {x : Nat} : SameClock s (t.sdcRestart x) := h.ifThen (·.sns)
theorem obsPredict : SameClock s (t.obsPredict p) := h.ifElse (·.setPort)
theorem raisePort {src : Nat} : SameClock s (t.raisePort p src) := h.raise
theorem emuBacklog : SameClock s (t.emuBacklog m) := (h.ifThen fun h => h.setEmu.setF).setF.branch
  (·.setEmu.setF.raisePort) (·.ifThen (·.setEmu))
theorem emuTarget : SameClock s (t.emuTarget m) := h.ifElse fun h =>
  h.setF.ite (h.ifThen fun h => h.setF.setF.setEmu).setEmu.emuBacklog
theorem emuFollow : SameClock s (t.emuFollow p) := (h.ifThen (·.emuTarget)).ifThen (·.emuTarget)
theorem portValid : SameClock s (t.portValid p) := h.setB.ifElse (·.emuFollow)
theorem limpPort {src : Nat} : SameClock s (State.limpPort src t u) :=
  (h.limpEnter.ifElse (·.unitDemandLater)).ite h.unitDemandLater
theorem portFault {cause ev : Nat} : SameClock s (t.portFault p cause ev) := h.setF.setF.portValid.foldl (·.limpPort)
theorem ssiTick : SameClock s (t.ssiTick p) := h.ifElse fun h => h.setPort.setF.raisePort.portFault

/-! ### Headbox and trace -/

theorem hbPut {ws : List (Nat × Word)} : SameClock s (t.hbPut ws) := h.eng
theorem hbStatus : SameClock s t.hbStatus := h.setB0.ifElse fun h => h.setF0.incSat0
theorem ringStore {es : List (List Word)} : SameClock s (t.ringStore n i es) := by
  induction es generalizing t i with
  | nil => exact h
  | cons e es ih => exact ih h.putWords
theorem ringPut {es : List (List Word)} : SameClock s (t.ringPut n es) := h.ifElse fun h =>
  (h.ringStore.incWrap.incWrap.host.ifThen (·.raiseDev)).ite (h.incSat.setF.ifElse fun h =>
    h.host.setF.incWrap.msgOnRise.ite h.host.raiseDev)
theorem trace : SameClock s t.trace := h.ifThen (·.ringPut)

/-! ### What a tick start latches -/

theorem latchAll {x : Nat} : SameClock s (t.latchAll x) :=
  (((((h.foldl (·.sdOutput)).sns.sdcRestart.kynSample.engTick.foldl (·.obsPredict)).foldl (·.ssiTick)).foldl
    (·.pulseSample)).foldl (·.boundStart)).freeLegs

theorem running : t.running = s.running := congrArg (fun w => getBits w 0 1 != 0) h.sts
theorem tickCount : t.f F.TIME_TICK_COUNT_count = s.f F.TIME_TICK_COUNT_count := congrArg (getBits · 0 32) h.count

end

end SameClock

/-! ## Global time goes on (R30) -/

/-- From `s` to `t` global time has gone on, and nothing else of the tick generator has changed. -/
structure Later (s t : State) : Prop where
  le : s.now ≤ t.now
  tm : t.tm = { s.tm with now := t.now }
  held : t.held = s.held

namespace Later

variable {s t u : State}

@[refl] protected theorem refl (s : State) : Later s s := ⟨le_rfl, rfl, rfl⟩

theorem trans (h : Later s t) (h' : Later t u) : Later s u :=
  ⟨h.le.trans h'.le, by rw [h'.tm, h.tm], h'.held.trans h.held⟩

theorem ofAt (s : State) (x : Nat) : Later s (s.at x) := by
  refine ⟨now_le_at s x, ?_, ?_⟩
  all_goals
    unfold State.at
    split <;> rfl

theorem same (h : Later s t) (h' : SameClock t u) : Later s u :=
  h.trans ⟨(congrArg TimeSt.now h'.tm).ge, h'.tm.trans (by rw [State.now, h'.tm]), h'.held⟩

theorem foldl {α : Type} {f : State → α → State} (hf : ∀ s x, Later s (f s x)) (l : List α) (s : State) :
    Later s (l.foldl f s) := by
  induction l generalizing s with
  | nil => rfl
  | cons x l ih => exact (hf s x).trans (ih _)

/-- A slice that its budget stops ends at the instant of its last cycle (R62). -/
theorem budgetExpiry (s : State) (n : Nat) : Later s (s.budgetExpiry n) := by
  unfold State.budgetExpiry
  dsimp only
  split
  · rfl
  · exact (Later.ofAt s _).same (SameClock.refl _).setCore.incSat.sliceEnd.raiseDev.discard

end Later

/-! ## The couch (R19, R53, R59) -/

/-- Held writes change registers only, and none is held after. -/
theorem heldCouch_spec (s : State) : s.heldCouch.tm = s.tm ∧ s.heldCouch.held = [] := by
  have h : ∀ (l : Tbl Word) (t : State), (l.foldl (fun s e => s.setReg e.1 e.2) t).tm = t.tm ∧
      (l.foldl (fun s e => s.setReg e.1 e.2) t).held = t.held := by
    intro l
    induction l with
    | nil => exact fun t => ⟨rfl, rfl⟩
    | cons e l ih => exact fun t => ih (t.setReg e.1 e.2)
  exact h s.held { s with held := [] }

theorem commitCouch_spec (s : State) :
    s.now ≤ s.commitCouch.now ∧ s.commitCouch.tm = { s.tm with now := s.commitCouch.now } ∧ s.commitCouch.held = [] := by
  obtain ⟨u, hu, hc⟩ : ∃ u, Later s u ∧ s.commitCouch = ({ u with elig := u.shadow } : State).heldCouch.groupsCouch :=
    ⟨_, Later.foldl Later.budgetExpiry _ s, rfl⟩
  obtain ⟨htm, hheld⟩ := heldCouch_spec { u with elig := u.shadow }
  have hg := (SameClock.refl ({ u with elig := u.shadow } : State).heldCouch).groupsCouch
  rw [← hc] at hg
  have hnow : s.commitCouch.now = u.now := congrArg TimeSt.now (hg.tm.trans htm)
  rw [hnow]
  exact ⟨hu.le, (hg.tm.trans htm).trans hu.tm, hg.held.trans hheld⟩

/-- `t` is `s` in phase 3 of the tick, with the held writes of `s`. -/
def CouchPassed (s t : State) : Prop := t.tm = { s.tm with phase := 3 } ∧ t.held = s.held

theorem SameClock.couchPassed {s t : State} {l : LineSt} (h : SameClock s t) :
    CouchPassed s { t with tm := { t.tm with phase := 3 }, line := l } := ⟨by rw [h.tm], h.held⟩

section Phases

variable {s : State} (hh : s.halted = false)
include hh

/-- What follows the committed values at a couch leaves the clock alone. -/
theorem couchPassed_couch (hrun : s.running = true) (hp : s.tm.phase = 2) :
    CouchPassed (s.at s.couchAt).commitCouch s.couch := by
  unfold State.couch
  rw [if_neg (by simp [hrun, hp, hh])]
  extract_lets c d failed watched ended moved shorted controlled driven mirrored
  have hd : SameClock c d.1 := (SameClock.refl c).deckCouch
  have hfailed : SameClock c failed := (hd.foldl (·.unitPhase)).failuresCouch
  have hwatched : SameClock c watched := hfailed.clampCouch.watchCouch.demandsCouch
  have hended : SameClock c ended := hwatched.protCouch
  have hmoved : SameClock c moved := hended.motionCouch.shareCouches.crashCouch
  have hshorted : SameClock c shorted := hmoved.foldl (·.ascCouch)
  have hcontrolled : SameClock c controlled := hshorted.foldl (·.unitCouch)
  have hdriven : SameClock c driven := hcontrolled.armsCouch
  have hmirrored : SameClock c mirrored := hdriven.foldl (·.unitMirror)
  exact hmirrored.couchPassed

/-- The couch: phase 3 at T − L, and no write held (R19, R59). -/
theorem couch_phase (hl : s.tm.holdLag = none) (hrun : s.running = true) (hp : s.tm.phase = 2) :
    s.couch.tm.phase = 3 ∧ s.couch.tm.start = s.tm.start ∧
      s.tm.start + 4 * s.tm.period - 4 * s.tm.lead ≤ s.couch.now ∧ s.couch.held = [] := by
  obtain ⟨htm, hheld⟩ := couchPassed_couch hh hrun hp
  obtain ⟨hle, hc, hnone⟩ := commitCouch_spec (s.at s.couchAt)
  have hat : (s.at s.couchAt).tm = { s.tm with now := max s.tm.now s.couchAt } :=
    congrArg State.tm (at_of_running hl _)
  have hnow : s.couch.now = (s.at s.couchAt).commitCouch.now := by
    rw [State.now, State.now, htm]
  refine ⟨by rw [htm], by rw [htm, hc, hat], ?_, hheld.trans hnone⟩
  rw [hnow]
  have hdue : s.couchAt ≤ (s.at s.couchAt).now := (Nat.le_max_right _ _).trans (congrArg TimeSt.now hat).ge
  exact hdue.trans hle

/-! ## Sample point, headbox ready, end of the last tick (R19, R27, R28) -/

omit hh in
/-- A tick that starts at `x`: what it latches leaves the clock alone. -/
theorem tickStart_spec {u : State} (hl : u.tm.holdLag = none) (x : Nat) :
    let t := ({ u.at x with tm := { (u.at x).tm with start := x, phase := 1 } } : State).latchAll x
    t.tm = { u.tm with now := max u.tm.now x, start := x, phase := 1 } ∧ t.running = u.running ∧
      t.f F.TIME_TICK_COUNT_count = u.f F.TIME_TICK_COUNT_count := by
  rw [at_of_running hl]
  intro t
  have h : SameClock _ t := (SameClock.refl _).latchAll
  exact ⟨h.tm, h.running, h.tickCount⟩

/-- A pending start begins a run at its grid instant (R27). -/
theorem samplePoint_pending (hl : s.tm.holdLag = none) {r : StartReq} (hp : s.tm.pend = some r)
    (hrun : s.running = false) :
    let t := s.samplePoint
    t.tm.start = r.first ∧ t.tm.period = r.period ∧ t.tm.lead = r.lead ∧ t.tm.epoch = r.epoch ∧ t.tm.phase = 1 ∧
      t.tm.pend = none ∧ r.first ≤ t.now ∧ t.running = true ∧ t.f F.TIME_TICK_COUNT_count = 0 := by
  let u : State := { (s.setF F.TIME_TICK_STS_running 1).setF F.TIME_TICK_COUNT_count 0 with
    tm := { s.tm with pend := none, period := r.period, lead := r.lead, epoch := r.epoch, stopping := false }
    line := { s.line with acc := [], couched := none, exchGo := false } }
  have hdue : s.tickDue = some (r.first, u) := by simp [State.tickDue, hrun, hl, hp, u]
  have hu : u.running = true ∧ u.f F.TIME_TICK_COUNT_count = 0 := by
    refine ⟨?_, f_setF_read (by decide)⟩
    change (((s.setF F.TIME_TICK_STS_running 1).setF F.TIME_TICK_COUNT_count 0).f F.TIME_TICK_STS_running != 0) = true
    rw [f_setF_other (by decide) (by decide), f_setF_read (by decide)]
    rfl
  obtain ⟨htm, hrunning, hcount⟩ := tickStart_spec (u := u) hl r.first
  intro t
  have ht : t = ({ u.at r.first with tm := { (u.at r.first).tm with start := r.first, phase := 1 } } : State).latchAll
      r.first := by
    simp only [t, State.samplePoint, hh, hrun, hdue, Bool.false_and, Bool.false_eq_true, if_false]
  rw [← ht] at htm hrunning hcount
  refine ⟨by rw [htm], by rw [htm], by rw [htm], by rw [htm], by rw [htm], by rw [htm], ?_, hrunning.trans hu.1,
    hcount.trans hu.2⟩
  rw [State.now, htm]
  exact Nat.le_max_right _ _

/-- Every tick of a run that no stop ends starts a period after the tick before it (R26). -/
theorem samplePoint_next (hl : s.tm.holdLag = none) (hrun : s.running = true) (hp : s.tm.phase = 3)
    (hs : s.tm.stopping = false) :
    let t := s.samplePoint
    t.tm.start = s.tm.start + 4 * s.tm.period ∧ t.tm.phase = 1 ∧ s.tm.start + 4 * s.tm.period ≤ t.now ∧
      t.running = true ∧ t.f F.TIME_TICK_COUNT_count = (s.f F.TIME_TICK_COUNT_count + 1) % 2 ^ 32 := by
  have he : SameClock s s.engEnd := (SameClock.refl s).engEnd
  let u := s.engEnd.incWrap F.TIME_TICK_COUNT_count
  let x := s.tm.start + 4 * s.tm.period
  have hdue : s.engEnd.tickDue = some (x, u) := by
    simp [State.tickDue, he.running, he.tm, hrun, hp, hs, State.periodNs, x, u]
  have hu : u.running = true ∧ u.f F.TIME_TICK_COUNT_count = (s.f F.TIME_TICK_COUNT_count + 1) % 2 ^ 32 := by
    constructor
    · exact (congrArg (· != 0) (f_setF_other (by decide) (by decide))).trans (he.running.trans hrun)
    · exact (f_setF_read (by decide)).trans (by rw [he.tickCount])
  have hul : u.tm.holdLag = none := (congrArg TimeSt.holdLag he.tm).trans hl
  obtain ⟨htm, hrunning, hcount⟩ := tickStart_spec hul x
  intro t
  have ht : t = ({ u.at x with tm := { (u.at x).tm with start := x, phase := 1 } } : State).latchAll x := by
    simp [t, State.samplePoint, hh, hrun, hp, hs, hdue]
  rw [← ht] at htm hrunning hcount
  refine ⟨by rw [htm], by rw [htm], ?_, hrunning.trans hu.1, hcount.trans hu.2⟩
  rw [State.now, htm]
  exact Nat.le_max_right _ _

/-- Headbox ready lies 1.5 µs after the tick start (R19). -/
theorem headboxReady_phase (hl : s.tm.holdLag = none) (hrun : s.running = true) (hp : s.tm.phase = 1) :
    let t := s.headboxReady
    t.tm.phase = 2 ∧ t.tm.start = s.tm.start ∧ s.tm.start + 1500 ≤ t.now := by
  have hat : (s.at (s.tm.start + 1500)).tm = { s.tm with now := max s.tm.now (s.tm.start + 1500) } :=
    congrArg State.tm (at_of_running hl _)
  intro t
  have ht : t.tm = { s.tm with now := max s.tm.now (s.tm.start + 1500), phase := 2 } := by
    unfold t State.headboxReady
    rw [if_neg (by simp [hrun, hp, hh])]
    extract_lets measured shown
    have hmeasured : SameClock (s.at (s.tm.start + 1500)) measured := (SameClock.refl _).foldl (·.unitMeasure)
    have hshown : SameClock (s.at (s.tm.start + 1500)) shown := hmeasured.hbPut.hbStatus.trace
    exact congrArg (fun m : TimeSt => { m with phase := 2 }) (hshown.tm.trans hat)
  refine ⟨by rw [ht], by rw [ht], ?_⟩
  rw [State.now, ht]
  exact Nat.le_max_right _ _

/-- The last tick ends a period after its start, and the run with it (R28). -/
theorem lastTickEnd_phase (hl : s.tm.holdLag = none) (hrun : s.running = true) (hp : s.tm.phase = 3)
    (hs : s.tm.stopping = true) :
    let t := s.lastTickEnd
    t.tm.phase = 0 ∧ t.tm.stopping = false ∧ s.tm.start + 4 * s.tm.period ≤ t.now := by
  let u := (s.at (s.tm.start + s.periodNs)).engEnd
  let v : State := { u.setF F.TIME_TICK_STS_running 0 with tm := { u.tm with phase := 0, stopping := false } }
  have hu : u.tm = _ := (SameClock.refl (s.at (s.tm.start + s.periodNs))).engEnd.tm
  rw [at_of_running hl] at hu
  have hv : SameClock v.pendAfter s.lastTickEnd := by
    unfold State.lastTickEnd
    rw [if_neg (by simp [hrun, hp, hs, hh])]
    exact ((SameClock.refl v.pendAfter).foldl (·.boundStop)).kynStop.foldl (·.setPort)
  refine ⟨congrArg TimeSt.phase hv.tm, congrArg TimeSt.stopping hv.tm, ?_⟩
  calc s.tm.start + 4 * s.tm.period ≤ u.tm.now := by rw [hu]; exact Nat.le_max_right _ _
    _ = s.lastTickEnd.now := (congrArg TimeSt.now hv.tm).symm

end Phases

/-- Settles O28: the work of each phase leaves the clock alone (`SameClock`), so that the clock is what the phase makes it. -/
theorem tickPhases : Obligations.TickPhases := by
  intro s hm hh hl
  refine ⟨fun r hp hrun => ⟨_, onMain_run State.samplePoint hm, samplePoint_pending hh hl hp hrun⟩,
    fun hrun hp hs => ⟨_, onMain_run State.samplePoint hm, samplePoint_next hh hl hrun hp hs⟩,
    fun hrun hp => ⟨_, onMain_run State.headboxReady hm, headboxReady_phase hh hl hrun hp⟩,
    fun hrun hp => ⟨_, onMain_run State.couch hm, couch_phase hh hl hrun hp⟩,
    fun hrun hp hs => ⟨_, onMain_run State.lastTickEnd hm, lastTickEnd_phase hh hl hrun hp hs⟩⟩

end Sys2Proof.Machine

/-! # What a discard, a slice end, a quarantine and a fetch leave

Shared by the statements on the engine: each operation of Machine/NimCore.lean is described once, by the parts of the
state it replaces and the registers it may touch. -/

namespace Sys2Proof.Machine

/-! ## Reading fields in other registers, and pending bits -/

/-- A set bit that is written again reads set. -/
theorem bit_setF_set {s : State} {x : Fld} (h : x.lsb + x.width ≤ 32) (hw : x.width = 1) : (s.setF x 1).bit x = true := by
  rw [bit_eq_f, f_setF_read h, hw]; rfl

theorem bit_setF_cleared {s : State} {x : Fld} (h : x.lsb + x.width ≤ 32) : (s.setF x 0).bit x = false := by
  rw [bit_eq_f, f_setF_read h, Nat.zero_mod]; rfl

theorem bit_congr {s t : State} {x : Fld} (h : t.reg x.addr = s.reg x.addr) : t.bit x = s.bit x := by
  rw [bit_eq_f, bit_eq_f, f_congr h]

theorem pendAddr_lt {src : Nat} (h : src < 64) :
    0x120008 ≤ (pendFld src).addr ∧ (pendFld src).addr < 0x120010 ∧ (pendFld src).lsb + (pendFld src).width ≤ 32 := by
  rw [pendFld_addr]
  unfold pendFld
  dsimp only
  omega

/-- Of the pending words a raise writes its own bit alone. -/
theorem reg_raiseAt_pend (s : State) (stamp : Nat) (saf : Bool) (src payload : Nat) (o r : Word) {a : Nat}
    (h : 0x120008 ≤ a) (h' : a < 0x120010) :
    (s.raiseAt stamp saf src payload o r).reg a = (s.setF (pendFld src) 1).reg a := by
  have hcount : ((s.setF (pendFld src) 1).incWrap (F.EVT_SRC_count src)).reg a = (s.setF (pendFld src) 1).reg a :=
    reg_incWrap_ne _ 1 (by dsimp only; omega)
  have hmsg : ∀ v, (s.msgOnRise ((s.setF (pendFld src) 1).incWrap (F.EVT_SRC_count src)) v).reg a =
      (s.setF (pendFld src) 1).reg a := by
    intro v
    unfold State.msgOnRise
    split
    · rw [reg_sendMsg_ne _ (by unfold R.EVT_VEC; omega), hcount]
    · exact hcount
  have hlog : ∀ (t : State) (e : EvRec), (t.enqueue e).reg a = t.reg a := by
    intro t e
    unfold State.enqueue
    split
    · exact (reg_setF_ne _ _ (by dsimp only; omega)).trans (reg_setF_ne _ _ (by dsimp only; omega))
    · exact reg_setF_ne _ _ (by dsimp only; omega)
  unfold State.raiseAt
  dsimp only
  split
  · rw [hlog, hmsg]
  · exact hmsg _

/-- What was pending is still pending after another raise. -/
theorem raiseAt_keeps_pending {s : State} {stamp : Nat} {saf : Bool} {src payload k : Nat} {o r : Word} (hs : src < 64)
    (hk : k < 64) (h : s.bit (pendFld k) = true) : (s.raiseAt stamp saf src payload o r).bit (pendFld k) = true := by
  by_cases hsame : src = k
  · subst hsame; exact raiseAt_pending s _ _ _ _ _ hs
  · obtain ⟨hlo, hhi, -⟩ := pendAddr_lt hk
    obtain ⟨-, -, hok⟩ := pendAddr_lt hs
    have hreg := reg_raiseAt_pend s stamp saf src payload o r hlo hhi
    have hap : (pendFld src).addr ≠ (pendFld k).addr ∨ (pendFld src).lsb + (pendFld src).width ≤ (pendFld k).lsb ∨
        (pendFld k).lsb + (pendFld k).width ≤ (pendFld src).lsb := by
      rw [pendFld_addr, pendFld_addr]
      unfold pendFld
      dsimp only
      omega
    rw [bit_congr hreg, bit_eq_f, f_setF_other hok hap]
    exact h

/-! ## Operations that touch few registers -/

/-- From `s` to `t` no register has changed but those in `A` and those of the event unit, what was pending is still pending, and
memory, the queue and the clock are as before. -/
structure Touches (A : Set Nat) (s t : State) : Prop where
  reg : ∀ a, ¬ evtReg a → a ∉ A → t.reg a = s.reg a
  pend : ∀ k < 64, s.bit (pendFld k) = true → t.bit (pendFld k) = true
  mem : t.mem = s.mem
  pending : t.pending = s.pending
  tm : t.tm = s.tm

namespace Touches

variable {A B : Set Nat} {s t u : State}

protected theorem refl (A : Set Nat) (s : State) : Touches A s s := ⟨fun _ _ _ => rfl, fun _ _ h => h, rfl, rfl, rfl⟩

theorem trans (h : Touches A s t) (h' : Touches B t u) : Touches (A ∪ B) s u :=
  ⟨fun a he ha => (h'.reg a he fun hb => ha (Or.inr hb)).trans (h.reg a he fun hb => ha (Or.inl hb)),
    fun k hk hp => h'.pend k hk (h.pend k hk hp), h'.mem.trans h.mem, h'.pending.trans h.pending, h'.tm.trans h.tm⟩

theorem mono (h : Touches A s t) (hAB : A ⊆ B) : Touches B s t :=
  ⟨fun a he ha => h.reg a he fun hb => ha (hAB hb), h.pend, h.mem, h.pending, h.tm⟩

/-- Several steps within one set of registers. -/
theorem trans' (h : Touches A s t) (h' : Touches A t u) : Touches A s u := (h.trans h').mono (Set.union_self A).le

/-- A state with the same registers, memory, queue and clock. -/
theorem ofEq (hr : t.regs = s.regs) (hm : t.mem = s.mem) (hp : t.pending = s.pending) (ht : t.tm = s.tm) : Touches A s t := by
  have hreg : ∀ a, t.reg a = s.reg a := fun a => by unfold State.reg; rw [hr]
  exact ⟨fun a _ _ => hreg a, fun k _ h => (bit_congr (hreg _)).trans h, hm, hp, ht⟩

theorem setF {x : Fld} {v : Nat} (h : Touches A s t) (hx : x.addr ∈ A) (he : ¬ evtReg x.addr) : Touches A s (t.setF x v) := by
  refine h.trans' ⟨fun a _ ha => reg_setF_ne t v fun hb => ha (hb ▸ hx), fun k hk hp => ?_, rfl, rfl, rfl⟩
  have hne : (pendFld k).addr ≠ x.addr := fun hb => he (hb ▸ evtReg_pend hk)
  rw [bit_eq_f, f_setF_ne t v hne]; exact hp

theorem raise {src payload : Nat} {o r : Word} (h : Touches A s t) (hs : src < 64) : Touches A s (t.raise src payload o r) := by
  have ho := onlyEvents_raise t payload o r hs
  obtain ⟨x, y, hrest⟩ := ho.rest
  refine h.trans' ⟨fun a he _ => ho.regs a he, fun k hk hp => raiseAt_keeps_pending hs hk hp, ?_, ?_, ?_⟩ <;> rw [hrest]

theorem raiseDev {src payload : Nat} (h : Touches A s t) (hs : src < 64) : Touches A s (t.raiseDev src payload) := h.raise hs

theorem f (h : Touches A s t) {x : Fld} (he : ¬ evtReg x.addr) (ha : x.addr ∉ A) : t.f x = s.f x := f_congr (h.reg _ he ha)

theorem bit (h : Touches A s t) {x : Fld} (he : ¬ evtReg x.addr) (ha : x.addr ∉ A) : t.bit x = s.bit x :=
  bit_congr (h.reg _ he ha)

end Touches

/-- A raise replaces registers and the host interface's hidden state. -/
theorem raise_eng (s : State) {src : Nat} (payload : Nat) (o r : Word) (h : src < 64) :
    (s.raise src payload o r).eng = s.eng := by
  obtain ⟨x, y, hrest⟩ := (onlyEvents_raise s payload o r h).rest
  rw [hrest]

/-! ## Cores and contexts -/

theorem core_congr {s t : State} (h : t.eng.lanes = s.eng.lanes) (i : Nat) : t.core i = s.core i := by
  unfold State.core; rw [h]

theorem ctx_congr {s t : State} (h : t.eng.ctxs = s.eng.ctxs) (c : Nat) : t.ctx c = s.ctx c := by
  unfold State.ctx; rw [h]

theorem ctx_setCtx_same (s : State) (c : Nat) (x : CtxSt) : (s.setCtx c x).ctx c = x := tblGet_set_same _ _ _ _

theorem ctx_setCtx_ne (s : State) {c j : Nat} (x : CtxSt) (h : j ≠ c) : (s.setCtx c x).ctx j = s.ctx j :=
  tblGet_set_ne _ _ _ h

/-! ## A discard (R56, R500) -/

/-- A register of a context is none of the event unit. -/
theorem not_evtReg_of_lt {a : Nat} (h : a < 0x120000) : ¬ evtReg a := fun he => absurd he.1 (by omega)

theorem discard_of_discarded {s : State} {c : Nat} (h : (s.ctx c).group = .discarded) (cause exc : Nat) :
    s.discard c cause exc = s := by
  simp [State.discard, h]

section Discard

variable {s : State} {c : Nat} (cause exc : Nat)

/-- What a discard does to the group and to CTX_LAST_ABORT, ahead of EV17. -/
def State.discardNoted (s : State) (c cause exc : Nat) : State :=
  (((s.setCtx c { s.ctx c with group := .discarded, cause := cause }).setF (F.CTX_LAST_ABORT_cause c) cause).setF
    (F.CTX_LAST_ABORT_exc_cause c) (if cause = 5 then exc else 0)).setF (F.CTX_LAST_ABORT_tick c)
      (s.f F.TIME_TICK_COUNT_count)

theorem discard_of_live (h : (s.ctx c).group ≠ .discarded) :
    ∃ o r, s.discard c cause exc = (s.discardNoted c cause exc).raise 17 (c + cause * 0x100) o r :=
  ⟨_, _, (if_neg h).trans rfl⟩

theorem discard_eng (h : (s.ctx c).group ≠ .discarded) :
    (s.discard c cause exc).eng = (s.setCtx c { s.ctx c with group := .discarded, cause := cause }).eng := by
  obtain ⟨o, r, he⟩ := discard_of_live cause exc h
  rw [he, raise_eng _ _ _ _ (by decide)]
  rfl

theorem discard_cause (h : (s.ctx c).group ≠ .discarded) (hc : c < 64) (h16 : cause < 16) :
    (s.discard c cause exc).f (F.CTX_LAST_ABORT_cause c) = cause := by
  obtain ⟨o, r, he⟩ := discard_of_live cause exc h
  rw [he, (onlyEvents_raise _ _ _ _ (by decide)).f (not_evtReg_of_lt (by dsimp only; omega))]
  unfold State.discardNoted
  rw [f_setF_other (by simp) (by simp), f_setF_other (by simp) (by simp), f_setF_read (by simp)]
  exact Nat.mod_eq_of_lt h16

theorem discard_pending (h : (s.ctx c).group ≠ .discarded) : (s.discard c cause exc).bit (pendFld 17) = true := by
  obtain ⟨o, r, he⟩ := discard_of_live cause exc h
  rw [he]
  exact raise_pending _ _ _ _ (by decide)

end Discard

theorem touches_discard {A : Set Nat} {s t : State} {c : Nat} (cause exc : Nat) (h : Touches A s t) (hc : c < 64)
    (hA : R.CTX_LAST_ABORT c ∈ A) : Touches A s (t.discard c cause exc) := by
  by_cases hg : (t.ctx c).group = .discarded
  · rw [discard_of_discarded hg]; exact h
  · obtain ⟨o, r, he⟩ := discard_of_live cause exc hg
    have hne : ¬ evtReg (R.CTX_LAST_ABORT c) := not_evtReg_of_lt (by unfold R.CTX_LAST_ABORT; omega)
    rw [he]
    unfold State.discardNoted
    exact .raise (.setF (.setF (.setF (h.trans' (.ofEq rfl rfl rfl rfl)) hA hne) hA hne) hA hne) (by decide)

/-- The group of `c` is discarded after a discard. -/
theorem discard_group (s : State) (c cause exc : Nat) : ((s.discard c cause exc).ctx c).group = .discarded := by
  by_cases hg : (s.ctx c).group = .discarded
  · rw [discard_of_discarded hg]; exact hg
  · rw [ctx_congr (congrArg EngSt.ctxs (discard_eng cause exc hg)), ctx_setCtx_same]

theorem discard_lanes (s : State) (c cause exc : Nat) : (s.discard c cause exc).eng.lanes = s.eng.lanes := by
  by_cases hg : (s.ctx c).group = .discarded
  · rw [discard_of_discarded hg]
  · rw [discard_eng cause exc hg]; rfl

/-- A discard leaves tiles, requests and the schedule alone. -/
theorem discard_eng_ctxs (s : State) (c cause exc : Nat) :
    (s.discard c cause exc).eng = { s.eng with ctxs := (s.discard c cause exc).eng.ctxs } := by
  by_cases hg : (s.ctx c).group = .discarded
  · rw [discard_of_discarded hg]
  · rw [discard_eng cause exc hg]; rfl

end Sys2Proof.Machine

/-! # Keeper services (O31)

The model's answer is that of the statements (`svcDone_eq_answered`); each service is then one branch of its definition. -/

namespace Sys2Proof.Machine

/-- The answer to the oldest request, as the statements write it. -/
theorem svcDone_eq_answered (s : State) (r : SvcReq) (status : Nat) (v : Word) :
    s.svcDone r status v = answered s r status v := by
  have hword : status + r.svc * 0x100 + r.tick % 0x10000 * 0x10000 =
      status + 0x100 * r.svc + 0x10000 * (r.tick % 0x10000) := by omega
  unfold State.svcDone answered
  dsimp only [State.setF_eng, State.setReg_eng]
  rw [hword]
  cases (s.eng.sched.getD {}).svcAddr.find? fun e => e.1 == r.ctx <;> rfl

theorem svcRefuse_eq_answered (s : State) (r : SvcReq) : s.svcRefuse r = answered s r 3 0 := svcDone_eq_answered _ _ _ _

/-- A service without a stated result gives a free value (log entry 26). -/
theorem svcPlain_eq_answered (s : State) (r : SvcReq) :
    ∃ v, s.svcPlain r = answered { s with freeCtr := s.freeCtr + 1 } r 1 v := ⟨_, svcDone_eq_answered _ _ _ _⟩

/-- A request names a quantity where the drive and the quantity exist (R97). -/
theorem svcQuantity_some {s : State} {r : SvcReq} (h : getBits r.a 0 8 < s.part.lanes) (h8 : getBits r.a 8 8 < 8) :
    s.svcQuantity r = some (getBits r.a 0 8, getBits r.a 8 8) := by
  simp [State.svcQuantity, h, h8]

theorem svcQuantity_none {s : State} {r : SvcReq} (h : s.part.lanes ≤ getBits r.a 0 8 ∨ 8 ≤ getBits r.a 8 8) :
    s.svcQuantity r = none := by
  unfold State.svcQuantity
  rw [if_neg]
  simp only [Bool.and_eq_true, decide_eq_true_eq]
  omega

/-- The writes of a restore wait in the order of the quantities; none changes the value of a later one. -/
theorem restoreWrites_eq (u : Nat) (qs : List Nat) (s : State) :
    qs.foldl (fun s q => s.deckleWrite u q (s.restored u q)) s =
      { s with eng := { s.eng with deckleWr := s.eng.deckleWr ++ qs.map fun q => ⟨u, q, s.restored u q, false⟩ } } := by
  induction qs generalizing s with
  | nil => simp
  | cons q qs ih =>
    have hkeep : ∀ k, (s.deckleWrite u q (s.restored u q)).restored u k = s.restored u k := fun _ => rfl
    rw [List.foldl_cons, ih]
    simp only [hkeep]
    simp [State.deckleWrite]

section Services

variable {s : State} {r : SvcReq} {rest : List SvcReq} (hm : s.pwr.mainRst = false) (hq : s.eng.svcQ = r :: rest)
include hm hq

/-- The keeper serves the request at the head of its queue. -/
theorem onMain_serve {k : Nat} (hk : r.svc = k) (act : State → SvcReq → State) :
    onMain s (fun s => s.serve k act) = .next (act s r) := by
  rw [onMain_run _ hm]
  simp [State.serve, hq, hk]

theorem exec_version (hk : r.svc = 0) : Machine.exec .version s = .next (answered s r 1 Config.keeperVersion) := by
  rw [← svcDone_eq_answered]
  exact onMain_serve hm hq hk _

theorem exec_deckleGet (hk : r.svc = 1) : Machine.exec .deckleGet s = .next (match s.svcQuantity r with
    | some (u, q) => answered s r 1 (BitVec.ofNat 32 (s.f (F.FLD_DECK_value u q)))
    | none => answered s r 3 0) := by
  refine (onMain_serve hm hq hk _).trans ?_
  cases s.svcQuantity r with
  | none => exact congrArg _ (svcRefuse_eq_answered s r)
  | some e => exact congrArg _ (svcDone_eq_answered _ _ _ _)

theorem exec_deckleNarrow (hk : r.svc = 2) : Machine.exec .deckleNarrow s = .next (s.svcNarrow r) :=
  onMain_serve hm hq hk _

theorem exec_deckleRestore (hk : r.svc = 3) : Machine.exec .deckleRestore s = .next (s.svcRestore r) :=
  onMain_serve hm hq hk _

theorem exec_safetyRead (hk : r.svc = 5) : Machine.exec .safetyRead s = .next (s.svcSafetyRead r) :=
  onMain_serve hm hq hk _

theorem exec_tileQuery (hk : r.svc = 6) : Machine.exec .tileQuery s = .next (if 3071 < r.a.toNat then answered s r 3 0
    else answered s r 1 (if s.quarantined r.a.toNat then 1 else 0)) := by
  rw [← svcRefuse_eq_answered, ← svcDone_eq_answered]
  exact onMain_serve hm hq hk _

theorem exec_unknownService (hk : 7 < r.svc) : Machine.exec .unknownService s = .next (answered s r 2 0) := by
  rw [← svcDone_eq_answered]
  show execUnknownService s = _
  unfold execUnknownService
  rw [onMain_run _ hm]
  simp [hq, hk]

end Services

/-- A narrowing is refused above the value in force (R65). -/
theorem svcNarrow_eq {s : State} {r : SvcReq} (h : getBits r.a 0 8 < s.part.lanes) (h8 : getBits r.a 8 8 < 8) :
    s.svcNarrow r = if s.fi (F.FLD_DECK_value (getBits r.a 0 8) (getBits r.a 8 8)) < signed 16 (getBits r.b 0 16)
      then s.svcRefuse r else (s.narrow (getBits r.a 0 8) (getBits r.a 8 8) (getBits r.b 0 16)).svcPlain r := by
  simp only [State.svcNarrow, svcQuantity_some h h8]

/-- Settles O31: a served request is answered by one branch of its service. -/
theorem keeperServices : Obligations.KeeperServices := by
  intro s r rest hm hq _ plain gives refuses u q val writes
  have hplain : ∀ {i : Instr} {t : State}, t.freeCtr = s.freeCtr → Machine.exec i s = .next (t.svcPlain r) → plain i t := by
    intro i t hf he
    obtain ⟨v, hv⟩ := svcPlain_eq_answered t r
    exact ⟨v, by rw [he, hv, hf]⟩
  refine ⟨exec_version hm hq, fun hk => ⟨fun hu h8 => ?_, fun hn => ?_⟩, fun hk => ⟨fun hu h8 hle => ?_, fun hn => ?_⟩,
    fun hk => ⟨fun hu => ?_, fun hn => ?_⟩, fun hk => ?_, fun hk => ⟨fun w ws hw => ?_, fun hw => ?_⟩,
    fun hk => ⟨fun hle => ?_, fun hlt => ?_⟩, fun hk => ?_, exec_unknownService hm hq⟩
  · exact (exec_deckleGet hm hq hk).trans (by rw [svcQuantity_some hu h8])
  · exact (exec_deckleGet hm hq hk).trans (by rw [svcQuantity_none hn])
  · refine hplain rfl ((exec_deckleNarrow hm hq hk).trans (congrArg _ ?_))
    rw [svcNarrow_eq hu h8, if_neg (Int.not_lt.2 hle)]
    rfl
  · refine (exec_deckleNarrow hm hq hk).trans (congrArg _ ((?_ : s.svcNarrow r = s.svcRefuse r).trans
      (svcRefuse_eq_answered s r)))
    by_cases hex : u < s.part.lanes ∧ q < 8
    · have habove := (hn.resolve_left (Nat.not_le.2 hex.1)).resolve_left (Nat.not_le.2 hex.2)
      rw [svcNarrow_eq hex.1 hex.2, if_pos habove]
    · rw [not_and_or, Nat.not_lt, Nat.not_lt] at hex
      simp only [State.svcNarrow, svcQuantity_none hex]
  · refine hplain rfl ((exec_deckleRestore hm hq hk).trans (congrArg _ ?_))
    unfold State.svcRestore
    dsimp only
    rw [if_neg (Nat.not_le.2 hu), restoreWrites_eq]
    simp [writes, u]
  · refine (exec_deckleRestore hm hq hk).trans (congrArg _ ?_)
    exact (if_pos hn).trans (svcRefuse_eq_answered s r)
  · exact hplain rfl (onMain_serve hm hq hk _)
  · refine (exec_safetyRead hm hq hk).trans (congrArg _ ?_)
    simp only [State.svcSafetyRead, hw, svcDone_eq_answered]
  · refine (exec_safetyRead hm hq hk).trans (congrArg _ ?_)
    simp only [State.svcSafetyRead, hw, svcRefuse_eq_answered]
  · exact (exec_tileQuery hm hq hk).trans (by rw [if_neg (Nat.not_lt.2 hle)])
  · exact (exec_tileQuery hm hq hk).trans (by rw [if_pos hlt])
  · exact hplain rfl (onMain_serve hm hq hk _)

end Sys2Proof.Machine

/-! # What a group reaches at the couch (O32)

The statement takes memory in any form, also one that lists a byte twice, which no run from reset reaches (O8, O9). There a
written zero uncovers the second cell. -/

namespace Sys2Proof.Machine

/-- A tick at headbox ready in which the group of CX1 has committed a zero for word 0 of SHARE block 0. Memory lists the
word's lowest byte twice. -/
def byteListedTwice : State :=
  { (State.reset.setF (F.CTX_STS_state 1) 1).setF F.TIME_TICK_STS_running 1 with
    mem := [(shareAt 0 0, 1), (shareAt 0 0, 2)]
    tm := { phase := 2 }
    eng := { ctxs := [(1, { group := .committed, felt := [(0x07000000, 0)] })] } }

/-- The couch commits the zero, and the word reads 2. -/
theorem word_couch_byteListedTwice : byteListedTwice.couch.word (shareAt 0 0) = 2 := by decide +kernel

theorem not_couchCommits : ¬ couchCommits := by
  intro h
  obtain ⟨t, ht, -, -, -, -, -, -, -, -, -, hshare⟩ := h byteListedTwice 1 7 0 0 0 rfl (by decide +kernel) rfl rfl (by decide)
    (by decide) (by decide +kernel) (by decide +kernel) (by decide +kernel) rfl (by decide) (by decide) rfl
  have hrun : Machine.exec .couch byteListedTwice = .next byteListedTwice.couch := onMain_run State.couch rfl
  obtain rfl : byteListedTwice.couch = t := Host.Outcome.next.inj (hrun.symm.trans ht)
  have hzero := hshare rfl (by decide) (by decide)
  rw [word_couch_byteListedTwice] at hzero
  exact absurd hzero (by decide)

/-- Refutes O32: on memory that is not in canonical form, a SHARE word does not hold what the couch commits. -/
theorem not_groupsHaltsRestarts : ¬ Obligations.GroupsHaltsRestarts := fun h => not_couchCommits h.2.1

end Sys2Proof.Machine

/-! # Tiles: quarantine, watermark failures, scrubber, rewrites (O30) -/

namespace Sys2Proof.Machine

/-! ## Quarantine (R51, R68) -/

/-- TILE_WM_FAIL, TILE_WM_STS and TILE_QUAR_LIST: the registers that show watermark failures and the quarantine. -/
def quarRegs : Set Nat := {a | a = 0x5000C ∨ a = 0x50010 ∨ 0x50080 ≤ a ∧ a < 0x50100}

theorem mem_quarRegs {a : Nat} : a ∈ quarRegs ↔ a = 0x5000C ∨ a = 0x50010 ∨ 0x50080 ≤ a ∧ a < 0x50100 := Iff.rfl

/-- `t` differs from `s` in TILE_QUAR_LIST only. -/
structure OnlyQuarList (s t : State) : Prop where
  reg : ∀ a, a < 0x50080 ∨ 0x50100 ≤ a → t.reg a = s.reg a
  rest : ∃ r, t = { s with regs := r }

theorem OnlyQuarList.setF {s t : State} {m l w v : Nat} (h : OnlyQuarList s t) (hm : m < 32) :
    OnlyQuarList s (t.setF ⟨R.TILE_QUAR_LIST m, l, w⟩ v) := by
  obtain ⟨r, rfl⟩ := h.rest
  refine ⟨fun a ha => (reg_setF_ne _ v ?_).trans (h.reg a ha), _, rfl⟩
  unfold R.TILE_QUAR_LIST
  dsimp only
  omega

/-- The list is written over the count of quarantined tiles. -/
theorem onlyQuarList_quarSync (s : State) :
    OnlyQuarList (s.setF F.TILE_WM_STS_quarantined s.eng.quar.length) s.quarSync := by
  have hfold : ∀ (ms : List Nat) (u v : State) (lo : Nat), (∀ m ∈ ms, m < 32) → OnlyQuarList u v →
      OnlyQuarList u (ms.foldl (fun (a : State × Nat) m =>
        match leastFrom a.2 a.1.eng.quar with
        | some t => ((a.1.setF (F.TILE_QUAR_LIST_tile m) t).setF (F.TILE_QUAR_LIST_valid m) 1, t + 1)
        | none => ((a.1.setF (F.TILE_QUAR_LIST_tile m) 0).setF (F.TILE_QUAR_LIST_valid m) 0, a.2)) (v, lo)).1 := by
    intro ms
    induction ms with
    | nil => exact fun _ _ _ _ h => h
    | cons m ms ih =>
      intro u v lo hms h
      have hm := hms m List.mem_cons_self
      rw [List.foldl_cons]
      cases leastFrom lo v.eng.quar with
      | none => exact ih _ _ _ (fun k hk => hms k (List.mem_cons_of_mem _ hk)) ((h.setF hm).setF hm)
      | some t => exact ih _ _ _ (fun k hk => hms k (List.mem_cons_of_mem _ hk)) ((h.setF hm).setF hm)
  exact hfold _ _ _ 0 (fun m hm => List.mem_range.1 hm) ⟨fun _ _ => rfl, _, rfl⟩

theorem quarSync_eng (s : State) : s.quarSync.eng = s.eng := by
  obtain ⟨r, h⟩ := (onlyQuarList_quarSync s).rest
  rw [h]; rfl

theorem touches_quarSync (s : State) : Touches quarRegs s s.quarSync := by
  have h := onlyQuarList_quarSync s
  obtain ⟨r, hr⟩ := h.rest
  have hsts : Touches quarRegs s (s.setF F.TILE_WM_STS_quarantined s.eng.quar.length) :=
    (Touches.refl _ s).setF (Or.inr (Or.inl rfl)) (not_evtReg_of_lt (by decide))
  refine hsts.trans' ⟨fun a _ ha => h.reg a ?_, fun k hk hp => ?_, by rw [hr], by rw [hr], by rw [hr]⟩
  · rw [mem_quarRegs] at ha
    omega
  · have hlo := (pendAddr_lt hk).1
    rw [bit_congr (h.reg _ (by omega))]
    exact hp

/-- The flags of TILE_WM_STS above the count are as before. -/
theorem f_quarSync_sts (s : State) {l w : Nat} (hl : 12 ≤ l) :
    s.quarSync.f ⟨0x50010, l, w⟩ = s.f ⟨0x50010, l, w⟩ := by
  rw [f_congr ((onlyQuarList_quarSync s).reg _ (by dsimp only; omega))]
  exact f_setF_other (x := F.TILE_WM_STS_quarantined) (by decide) (Or.inr (Or.inl hl))

theorem quarantine_eng (s : State) (t : Nat) :
    (s.quarantine t).eng = { s.eng with quar := if s.quarantined t then s.eng.quar else s.eng.quar ++ [t] } := by
  unfold State.quarantine
  split
  · rfl
  · exact quarSync_eng _

theorem quarantined_iff (s : State) (t : Nat) : s.quarantined t = true ↔ t ∈ s.eng.quar := by
  simp [State.quarantined]

/-- Quarantine of `t` adds `t`. -/
theorem quarantined_quarantine (s : State) (t k : Nat) :
    (s.quarantine t).quarantined k = true ↔ k = t ∨ s.quarantined k = true := by
  rw [quarantined_iff, quarantined_iff, quarantine_eng]
  by_cases h : s.quarantined t = true
  · have ht := (quarantined_iff s t).1 h
    simp only [h, if_true]
    exact ⟨Or.inr, fun hk => hk.elim (fun he => he ▸ ht) id⟩
  · simp [h, or_comm]

theorem touches_quarantine (s : State) (t : Nat) : Touches quarRegs s (s.quarantine t) := by
  unfold State.quarantine
  split
  · exact Touches.refl _ s
  · exact (Touches.ofEq (s := s) (t := { s with eng := { s.eng with quar := s.eng.quar ++ [t] } }) rfl rfl rfl rfl).trans'
      (touches_quarSync _)

theorem f_quarantine_sts (s : State) (t : Nat) {l w : Nat} (hl : 12 ≤ l) :
    (s.quarantine t).f ⟨0x50010, l, w⟩ = s.f ⟨0x50010, l, w⟩ := by
  unfold State.quarantine
  split
  · rfl
  · exact f_quarSync_sts _ hl

/-! ## A watermark failure (R51, R500) -/

theorem wmFail_eng (s : State) (t wh : Nat) : (s.wmFail t wh).eng = (s.quarantine t).eng := raise_eng _ _ _ _ (by decide)

theorem touches_wmFail (s : State) (t wh : Nat) : Touches quarRegs s (s.wmFail t wh) := by
  have hA : (0x5000C : Nat) ∈ quarRegs := Or.inl rfl
  have hne : ¬ evtReg 0x5000C := not_evtReg_of_lt (by decide)
  exact .raise (.setF (.setF (.setF (touches_quarantine s t) hA hne) hA hne) hA hne) (by decide)

/-- A failure is recorded, and EV18 raised. -/
theorem wmFail_record (s : State) {t wh : Nat} (ht : t < 4096) (hwh : wh < 4) :
    (s.wmFail t wh).quarantined t = true ∧ (s.wmFail t wh).f F.TILE_WM_FAIL_tile = t ∧
      (s.wmFail t wh).f F.TILE_WM_FAIL_where = wh ∧ (s.wmFail t wh).bit (pendFld 18) = true := by
  let u := ((s.quarantine t).setF F.TILE_WM_FAIL_tile t).setF F.TILE_WM_FAIL_where wh
  have hev : OnlyEvents (u.incSat F.TILE_WM_FAIL_count) (s.wmFail t wh) := onlyEvents_raiseDev _ _ (by decide)
  have hne : ¬ evtReg 0x5000C := not_evtReg_of_lt (by decide)
  refine ⟨?_, ?_, ?_, raiseDev_pending _ _ (by decide)⟩
  · rw [quarantined_iff, wmFail_eng, ← quarantined_iff, quarantined_quarantine]
    exact Or.inl rfl
  · rw [hev.f hne, State.incSat, f_setF_other (by decide) (by decide), f_setF_other (by decide) (by decide),
      f_setF_read (by decide)]
    exact Nat.mod_eq_of_lt ht
  · rw [hev.f hne, State.incSat, f_setF_other (by decide) (by decide), f_setF_read (by decide)]
    exact Nat.mod_eq_of_lt hwh

theorem f_wmFail_sts (s : State) (t wh : Nat) {l w : Nat} (hl : 12 ≤ l) :
    (s.wmFail t wh).f ⟨0x50010, l, w⟩ = s.f ⟨0x50010, l, w⟩ := by
  have hne : ¬ evtReg 0x50010 := not_evtReg_of_lt (by decide)
  unfold State.wmFail
  rw [(onlyEvents_raiseDev _ _ (by decide)).f hne, State.incSat, f_setF_ne _ _ (by dsimp only; decide),
    f_setF_ne _ _ (by dsimp only; decide), f_setF_ne _ _ (by dsimp only; decide), f_quarantine_sts s t hl]

/-! ## Watermarks -/

/-- A check reads memory, the watermarks and the quarantine. -/
theorem wmOk_congr {s t : State} (hm : t.mem = s.mem) (hq : t.eng.quar = s.eng.quar) (hw : t.eng.wm = s.eng.wm) (k : Nat) :
    t.wmOk k = s.wmOk k := by
  unfold State.wmOk State.quarantined State.tileCrc State.wm
  rw [hm, hq, hw]

/-! ## The scrubber (R49) -/

/-- The scrubber goes to the tile after `t`, and counts a pass after the last. -/
def State.scrubNext (s : State) (t : Nat) : State :=
  if t = 3071 then
    { s.incWrap F.TILE_SCRUB_CNT_passes with eng := { s.eng with scrubTile := 0, scrubAt := s.eng.scrubAt + 100000000 } }
  else { s with eng := { s.eng with scrubTile := t + 1 } }

theorem reg_scrubNext (s : State) (t : Nat) {a : Nat} (h : a ≠ 0x5001C) : (s.scrubNext t).reg a = s.reg a := by
  unfold State.scrubNext
  split
  · exact reg_incWrap_ne s 1 h
  · rfl

theorem scrubNext_rest (s : State) (t : Nat) : (s.scrubNext t).mem = s.mem ∧ (s.scrubNext t).eng.quar = s.eng.quar ∧
    (s.scrubNext t).eng.scrubTile = if t = 3071 then 0 else t + 1 := by
  unfold State.scrubNext
  split <;> exact ⟨rfl, rfl, rfl⟩

theorem passes_scrubNext (s : State) (t : Nat) : (s.scrubNext t).f F.TILE_SCRUB_CNT_passes =
    (s.f F.TILE_SCRUB_CNT_passes + if t = 3071 then 1 else 0) % 2 ^ 32 := by
  unfold State.scrubNext
  split
  · exact f_setF_read (by decide)
  · exact (Nat.mod_eq_of_lt (f_lt s F.TILE_SCRUB_CNT_passes)).symm

/-- The state at the instant of the scrubber's check, with the position shown. -/
def State.scrubbed (s : State) : State :=
  (s.at (s.eng.scrubAt + s.eng.scrubTile * 100000000 / 3072)).setF F.TILE_SCRUB_STS_position s.eng.scrubTile

theorem scrubbed_reg (s : State) {a : Nat} (h : a ≠ 0x50008) : s.scrubbed.reg a = s.reg a := by
  unfold State.scrubbed
  rw [reg_setF_ne _ _ h, at_reg]

theorem scrubbed_rest (s : State) : s.scrubbed.mem = s.mem ∧ s.scrubbed.eng = s.eng := by
  unfold State.scrubbed
  simp

theorem scrubCheck_eq {s : State} (h : s.eng.scrub = true) : s.scrubCheck =
    (if s.quarantined s.eng.scrubTile || s.wmOk s.eng.scrubTile then s.scrubbed
      else s.scrubbed.wmFail s.eng.scrubTile 2).scrubNext s.eng.scrubTile := by
  obtain ⟨hmem, heng⟩ := scrubbed_rest s
  have hok := wmOk_congr hmem (congrArg EngSt.quar heng) (congrArg EngSt.wm heng) s.eng.scrubTile
  have hq : s.scrubbed.quarantined s.eng.scrubTile = s.quarantined s.eng.scrubTile := by unfold State.quarantined; rw [heng]
  unfold State.scrubCheck
  rw [if_neg (by simp [h]), ← hok, ← hq]
  rfl

section Scrub

variable {s : State} (hs : s.eng.scrub = true) (ht : s.eng.scrubTile ≤ 3071)
include hs ht

/-- A tile that passes, and one in quarantine already, leave the quarantine as it is. -/
theorem scrubCheck_passes (h : s.quarantined s.eng.scrubTile = true ∨ s.wmOk s.eng.scrubTile = true) :
    let u := s.scrubCheck
    u.eng.quar = s.eng.quar ∧ u.f F.TILE_SCRUB_STS_position = s.eng.scrubTile ∧
      u.eng.scrubTile = (if s.eng.scrubTile = 3071 then 0 else s.eng.scrubTile + 1) ∧ u.mem = s.mem ∧
      u.f F.TILE_SCRUB_CNT_passes =
        (s.f F.TILE_SCRUB_CNT_passes + if s.eng.scrubTile = 3071 then 1 else 0) % 2 ^ 32 := by
  obtain ⟨hmem, heng⟩ := scrubbed_rest s
  obtain ⟨hnmem, hnquar, hntile⟩ := scrubNext_rest s.scrubbed s.eng.scrubTile
  rw [scrubCheck_eq hs, if_pos (by simpa using h)]
  refine ⟨hnquar.trans (by rw [heng]), ?_, hntile, hnmem.trans hmem, ?_⟩
  · rw [f_congr (reg_scrubNext _ _ (by decide))]
    exact (f_setF_read (by decide)).trans (Nat.mod_eq_of_lt (by dsimp only; omega))
  · rw [passes_scrubNext, f_congr (scrubbed_reg s (by decide))]

/-- A mismatch is a watermark failure. -/
theorem scrubCheck_fails (hq : s.quarantined s.eng.scrubTile = false) (h : s.wmOk s.eng.scrubTile = false) :
    let u := s.scrubCheck
    u.quarantined s.eng.scrubTile = true ∧ u.f F.TILE_WM_FAIL_tile = s.eng.scrubTile ∧ u.f F.TILE_WM_FAIL_where = 2 ∧
      u.bit (pendFld 18) = true ∧ u.mem = s.mem := by
  obtain ⟨hin, htile, hwhere, hpend⟩ := wmFail_record s.scrubbed (t := s.eng.scrubTile) (wh := 2) (by omega) (by decide)
  obtain ⟨hnmem, hnquar, -⟩ := scrubNext_rest (s.scrubbed.wmFail s.eng.scrubTile 2) s.eng.scrubTile
  rw [scrubCheck_eq hs, if_neg (by simp [hq, h])]
  refine ⟨?_, ?_, ?_, ?_, hnmem.trans ((touches_wmFail _ _ _).mem.trans (scrubbed_rest s).1)⟩
  · rw [quarantined_iff, hnquar, ← quarantined_iff]
    exact hin
  · rw [f_congr (reg_scrubNext _ _ (by decide)), htile]
  · rw [f_congr (reg_scrubNext _ _ (by decide)), hwhere]
  · rw [bit_congr (reg_scrubNext _ _ (by decide)), hpend]

end Scrub

/-! ## Writes of tiles by a master (R52, R494, R504) -/

theorem setLock_eng (s : State) (m : Master) (v : Bool) : (s.setLock m v).eng = s.eng := by
  unfold State.setLock; split <;> rfl

/-- The locks and the access phase share DEV_LOCK_STS. -/
theorem phase_lockUse (s : State) (m : Master) : (s.lockUse m).phase = s.phase := by
  unfold State.lockUse State.setLock State.phase
  split
  · rfl
  · next x hx =>
    rw [lockFld_eq_lockBit] at hx
    obtain ⟨-, hl, hw⟩ := lockBit_place hx
    exact f_setF_other (by omega) (Or.inr (Or.inl (by dsimp only; omega)))

theorem tableWrite_spec (s : State) (m : Master) (off : Nat) (be : BitVec 4) (val : Word) :
    let u := (s.lockUse m).tableWrite off be val
    u.quarantined (2048 + off / 1024) = true ∧
      (∀ t, u.quarantined t = true → t = 2048 + off / 1024 ∨ s.quarantined t = true) ∧
      u.mem = memPutBytes s.mem (tableBase + off / 4 * 4) val be ∧ u.eng.wm = s.eng.wm := by
  have hq : ∀ t, ((s.lockUse m).tableWrite off be val).quarantined t = true ↔
      t = 2048 + off / 1024 ∨ s.quarantined t = true := by
    intro t
    refine (quarantined_quarantine (s.lockUse m) (2048 + off / 1024) t).trans ?_
    rw [quarantined_iff, quarantined_iff, State.lockUse, setLock_eng]
  refine ⟨(hq _).2 (Or.inl rfl), fun t => (hq t).1, ?_, ?_⟩
  · show memPutBytes ((s.lockUse m).quarantine _).mem _ _ _ = _
    rw [(touches_quarantine _ _).mem, State.lockUse, setLock_mem]
  · show ((s.lockUse m).quarantine _).eng.wm = _
    rw [quarantine_eng, State.lockUse, setLock_eng]

theorem programWrite_spec (s : State) (m : Master) (off : Nat) (be : BitVec 4) (val : Word) :
    let u := (s.lockUse m).programWrite m off be val
    u.eng = s.eng ∧
      u.mem = if m = .keeper ∨ s.phase ≠ 1 then memPutBytes s.mem (progBase + off / 4 * 4) val be else s.mem := by
  have hmem : (s.lockUse m).mem = s.mem := setLock_mem s m false
  have heng : (s.lockUse m).eng = s.eng := setLock_eng s m false
  intro u
  by_cases h : m = .keeper ∨ s.phase ≠ 1
  · have hu : u = (s.lockUse m).putBytes (progBase + off / 4 * 4) val be := if_pos (by simpa [phase_lockUse] using h)
    rw [hu, if_pos h, ← hmem]
    exact ⟨heng, rfl⟩
  · have hu : u = s.lockUse m := if_neg (by simpa [phase_lockUse] using h)
    rw [hu, if_neg h]
    exact ⟨heng, hmem⟩

/-! ## The check of a rewrite (R52) -/

theorem unquarantine_eng (s : State) (t : Nat) :
    (s.unquarantine t).eng = { s.eng with quar := s.eng.quar.filter (· != t) } := quarSync_eng _

/-- TILE_WM_STS while the keeper's check of the oldest rewrite ends. -/
def State.checkEnding (s : State) (rest : List (Nat × Word)) : State :=
  ({ s with eng := { s.eng with checking := rest } }).setF F.TILE_WM_STS_busy (!rest.isEmpty).toNat

section Check

variable {s : State} {t : Nat} {v : Word} {rest : List (Nat × Word)} (hc : s.eng.checking = (t, v) :: rest)
include hc

theorem wmCheckDone_match (h : s.tileCrc (2048 + t) = v) : s.wmCheckDone =
    State.unquarantine { s.checkEnding rest with eng :=
      { (s.checkEnding rest).eng with wm := tblSet s.eng.wm (2048 + t) v } } (2048 + t) := by
  unfold State.wmCheckDone
  simp only [hc]
  exact if_pos h

theorem wmCheckDone_mismatch (h : s.tileCrc (2048 + t) ≠ v) : s.wmCheckDone =
    ((s.checkEnding rest).setF F.TILE_WM_STS_mismatch 1).wmFail (2048 + t) 3 := by
  unfold State.wmCheckDone
  simp only [hc]
  exact if_neg h

/-- A match takes the value as the tile's watermark and lifts the quarantine. -/
theorem wmCheckDone_lifts (h : s.tileCrc (2048 + t) = v) :
    let u := s.wmCheckDone
    u.eng.checking = rest ∧ u.wm (2048 + t) = v ∧ u.quarantined (2048 + t) = false ∧ u.mem = s.mem ∧
      u.bit F.TILE_WM_STS_busy = !rest.isEmpty := by
  rw [wmCheckDone_match hc h]
  refine ⟨by rw [unquarantine_eng]; rfl, ?_, ?_, (touches_quarSync _).mem, ?_⟩
  · unfold State.wm
    rw [unquarantine_eng]
    exact tblGet_set_same _ _ _ _
  · rw [← Bool.not_eq_true, quarantined_iff, unquarantine_eng]
    simp
  · rw [bit_eq_f]
    refine (congrArg (· != 0) (f_quarSync_sts _ (by decide))).trans ?_
    exact bit_setB_same _ _ _ (by unfold Fld.ok; decide) rfl

/-- A mismatch is a watermark failure, and shows. -/
theorem wmCheckDone_fails (ht : t < 1024) (h : s.tileCrc (2048 + t) ≠ v) :
    let u := s.wmCheckDone
    u.eng.checking = rest ∧ u.quarantined (2048 + t) = true ∧ u.eng.wm = s.eng.wm ∧
      u.bit F.TILE_WM_STS_mismatch = true ∧ u.f F.TILE_WM_FAIL_where = 3 ∧ u.bit (pendFld 18) = true ∧ u.mem = s.mem := by
  rw [wmCheckDone_mismatch hc h]
  obtain ⟨hin, -, hwhere, hpend⟩ := wmFail_record ((s.checkEnding rest).setF F.TILE_WM_STS_mismatch 1)
    (t := 2048 + t) (wh := 3) (by omega) (by decide)
  refine ⟨by rw [wmFail_eng, quarantine_eng]; rfl, hin, by rw [wmFail_eng, quarantine_eng]; rfl, ?_, hwhere, hpend,
    (touches_wmFail _ _ _).mem⟩
  rw [bit_eq_f, f_wmFail_sts _ _ _ (by decide), ← bit_eq_f]
  exact bit_setF_set (by decide) rfl

end Check

theorem tileRefetch_starts {s : State} {t : Nat} (hr : s.eng.refetch = none) (hp : s.phase ≠ 3)
    (hf : (s.eng.quar.find? fun x => x < 2048 && !s.eng.stuck.contains x) = some t) :
    s.tileRefetch = { s with eng := { s.eng with refetch := some t } } := by
  unfold State.tileRefetch
  rw [if_neg (by simp [hr, hp]), hf]

/-- Settles O30: scrubber and check of a rewrite are a watermark failure or none, the windows one write each. -/
theorem tileUpkeep : Obligations.TileUpkeep := by
  intro s hm
  refine ⟨fun hs ht => ⟨fun h => ⟨_, onMain_run State.scrubCheck hm, scrubCheck_passes hs ht h⟩,
      fun hq h => ⟨_, onMain_run State.scrubCheck hm, scrubCheck_fails hs ht hq h⟩⟩,
    fun t hr hp hf => (onMain_run State.tileRefetch hm).trans (congrArg _ (tileRefetch_starts hr hp hf)),
    fun m off be val hd => ⟨_, onBus_run (fun s => (s.lockUse m).tableWrite off be val) hm hd,
      tableWrite_spec s m off be val⟩,
    fun m off be val hd =>
      ⟨_, onBus_run (fun s => (s.lockUse m).programWrite m off be val) hm hd, programWrite_spec s m off be val⟩,
    fun t => ⟨_, onMain_run (fun s => s.wmCommit t) hm, rfl, bit_setF_set (by decide) rfl, rfl⟩,
    fun t v rest hc ht => ⟨fun h => ⟨_, onMain_run State.wmCheckDone hm, wmCheckDone_lifts hc h⟩,
      fun h => ⟨_, onMain_run State.wmCheckDone hm, wmCheckDone_fails hc ht h⟩⟩⟩

end Sys2Proof.Machine

/-! # Fetch, position and exception of an instruction (O20–O23)

`fetched` and `ran` of the statements, component by component, and the record that a lane exception leaves. -/

namespace Sys2Proof.Machine

/-! ## SECDED (R48) -/

theorem tblGet_del_ne {α : Type} (d : α) (t : Tbl α) {k j : Nat} (h : j ≠ k) : tblGet d (tblDel t k) j = tblGet d t j := by
  induction t with
  | nil => rfl
  | cons e t ih =>
    obtain ⟨i, x⟩ := e
    by_cases hk : k = i
    · subst hk; simp [tblDel, tblGet, h, ih]
    · by_cases hj : j = i <;> simp [tblDel, tblGet, hk, hj, ih]

/-- From `s` to `t` single-bit errors have been corrected and counted for core `i`; a broken word stays broken. -/
structure Corrected (i : Nat) (s t : State) : Prop where
  rest : ∃ r e, t = { s with regs := r, eng := { s.eng with ecc := e } }
  reg : ∀ a, a ≠ R.ENG_LANE_ECC_CNT i → t.reg a = s.reg a
  broken : ∀ a, s.eccOf a = 2 → t.eccOf a = 2

namespace Corrected

variable {i : Nat} {s t u : State}

protected theorem refl (i : Nat) (s : State) : Corrected i s s := ⟨⟨s.regs, s.eng.ecc, rfl⟩, fun _ _ => rfl, fun _ h => h⟩

theorem trans (h : Corrected i s t) (h' : Corrected i t u) : Corrected i s u := by
  obtain ⟨_, _, rfl⟩ := h.rest
  obtain ⟨_, _, rfl⟩ := h'.rest
  exact ⟨⟨_, _, rfl⟩, fun a ha => (h'.reg a ha).trans (h.reg a ha), fun a ha => h'.broken a (h.broken a ha)⟩

/-- The correction of one word that has a single-bit error. -/
theorem ofWord {w : Nat} (hw : tblGet 0 s.eng.ecc w = 1) : Corrected i s
    (let t := { s with eng := { s.eng with ecc := tblDel s.eng.ecc w } }
      if i < 8 then t.incSat (F.ENG_LANE_ECC_CNT_ecc_corr i) else t) := by
  have hb : ∀ a, s.eccOf a = 2 → tblGet 0 (tblDel s.eng.ecc w) (a / 8) = 2 := by
    intro a ha
    have hne : a / 8 ≠ w := by
      rintro rfl
      exact absurd (hw.symm.trans ha) (by decide)
    exact (tblGet_del_ne 0 _ hne).trans ha
  dsimp only
  split
  · exact ⟨⟨_, _, rfl⟩, fun a ha => reg_incSat_ne _ 1 ha, hb⟩
  · exact ⟨⟨_, _, rfl⟩, fun _ _ => rfl, hb⟩

end Corrected

theorem corrected_eccAccess {s t : State} {i a n : Nat} (h : s.eccAccess i a n = some t) : Corrected i s t := by
  have hfold : ∀ (ws : List Nat) (u : State), Corrected i s u → Corrected i s (ws.foldl (fun s w =>
      if tblGet 0 s.eng.ecc w == 1 then
        let s := { s with eng := { s.eng with ecc := tblDel s.eng.ecc w } }
        if i < 8 then s.incSat (F.ENG_LANE_ECC_CNT_ecc_corr i) else s
      else s) u) := by
    intro ws
    induction ws with
    | nil => exact fun _ hu => hu
    | cons w ws ih =>
      intro u hu
      rw [List.foldl_cons]
      by_cases hw : tblGet 0 u.eng.ecc w = 1
      · rw [if_pos (by simpa using hw)]
        exact ih _ (hu.trans (Corrected.ofWord hw))
      · rw [if_neg (by simpa using hw)]
        exact ih _ hu
  unfold State.eccAccess at h
  dsimp only at h
  split at h
  · cases h
  · injection h with h
    exact h ▸ hfold _ s (Corrected.refl i s)

/-- An access to a word with an uncorrectable error fails. -/
theorem eccAccess_broken {s : State} {i a n k : Nat} (hk : k < n) (h : s.eccOf (a + 4 * k) = 2) : s.eccAccess i a n = none := by
  have hmem : (a + 4 * k) / 8 ∈ ((List.range n).map fun k => (a + 4 * k) / 8).eraseDups :=
    List.mem_eraseDups.2 (List.mem_map.2 ⟨k, List.mem_range.2 hk, rfl⟩)
  have hany : (((List.range n).map fun k => (a + 4 * k) / 8).eraseDups.any fun w => tblGet 0 s.eng.ecc w == 2) = true :=
    List.any_eq_true.2 ⟨_, hmem, beq_iff_eq.2 h⟩
  unfold State.eccAccess
  dsimp only
  rw [if_pos hany]

/-! ## The fetch -/

theorem fetched_corrected (s : State) (c : Proc) :
    Corrected (procIdx c) (s.setCore (procIdx c) (coreOf s c)) (fetched s c) := by
  unfold fetched
  dsimp only
  split
  · cases hx : (s.setCore (procIdx c) (coreOf s c)).eccAccess (procIdx c)
      (slotBase (procIdx c) (coreOf s c).slot + 4 * (coreOf s c).word) 1 with
    | none => exact Corrected.refl _ _
    | some t => exact corrected_eccAccess hx
  · exact Corrected.refl _ _

section Fetched

variable (s : State) (c : Proc)

theorem fetched_eq : ∃ r e, fetched s c = { s with
    regs := r, eng := { s.eng with lanes := tblSet s.eng.lanes (procIdx c) (coreOf s c), ecc := e } } :=
  (fetched_corrected s c).rest

@[simp] theorem fetched_mem : (fetched s c).mem = s.mem := by obtain ⟨r, e, h⟩ := fetched_eq s c; rw [h]
@[simp] theorem fetched_pending : (fetched s c).pending = s.pending := by obtain ⟨r, e, h⟩ := fetched_eq s c; rw [h]
@[simp] theorem fetched_ctx (k : Nat) : (fetched s c).ctx k = s.ctx k := by obtain ⟨r, e, h⟩ := fetched_eq s c; rw [h]; rfl
@[simp] theorem fetched_halted : (fetched s c).halted = s.halted := by obtain ⟨r, e, h⟩ := fetched_eq s c; rw [h]; rfl

theorem fetched_reg {a : Nat} (h : a ≠ R.ENG_LANE_ECC_CNT (procIdx c)) : (fetched s c).reg a = s.reg a :=
  (fetched_corrected s c).reg a h

/-! ## The state past the instruction -/

theorem at_ran (t : State) (l : LaneSt) (n : Nat) : t.ran l n = { t with tm := (t.ran l n).tm } := by
  unfold State.ran
  split
  · rfl
  · exact at_eq _ _

/-- But for position and cycles of the core and for global time, an instruction's end is its fetch. -/
theorem ran_eq (n : Nat) : ran s c n = { fetched s c with
    tm := (ran s c n).tm, eng := { (fetched s c).eng with lanes := (ran s c n).eng.lanes } } := by
  unfold ran
  dsimp only
  split
  · rw [at_ran]; rfl
  · rfl

variable (n : Nat)

@[simp] theorem ran_mem : (ran s c n).mem = s.mem := by rw [ran_eq]; exact fetched_mem s c
@[simp] theorem ran_pending : (ran s c n).pending = s.pending := by rw [ran_eq]; exact fetched_pending s c
@[simp] theorem ran_ctx (k : Nat) : (ran s c n).ctx k = s.ctx k := by rw [ran_eq]; exact fetched_ctx s c k
@[simp] theorem ran_reg (a : Nat) : (ran s c n).reg a = (fetched s c).reg a := by rw [ran_eq]; rfl
@[simp] theorem ran_regs : (ran s c n).regs = (fetched s c).regs := by rw [ran_eq]
@[simp] theorem ran_f (x : Fld) : (ran s c n).f x = (fetched s c).f x := by rw [ran_eq]; rfl

/-- The engine past the instruction: lanes and corrected words apart, as before. -/
theorem ran_eng : (ran s c n).eng = { s.eng with lanes := (ran s c n).eng.lanes, ecc := (fetched s c).eng.ecc } := by
  obtain ⟨r, e, h⟩ := fetched_eq s c
  have heng : (ran s c n).eng = { (fetched s c).eng with lanes := (ran s c n).eng.lanes } := congrArg State.eng (ran_eq s c n)
  rw [heng, h]

theorem ran_eccOf (a : Nat) (h : s.eccOf a = 2) : (ran s c n).eccOf a = 2 := by
  have heq : (ran s c n).eccOf a = (fetched s c).eccOf a := by rw [ran_eq]; rfl
  rw [heq]
  exact (fetched_corrected s c).broken a h

end Fetched

/-! ## The core past the instruction (R85) -/

theorem loopNext_eq (l : LaneSt) (rs : List LoopRec) :
    l.loopNext rs = { l with slot := (l.loopNext rs).slot, word := (l.loopNext rs).word, loops := (l.loopNext rs).loops } := by
  have hpos : ∀ k : LaneSt, k.nextPos = { k with slot := k.nextPos.slot, word := k.nextPos.word } := by
    intro k
    unfold LaneSt.nextPos
    split <;> rfl
  induction rs with
  | nil => unfold LaneSt.loopNext; rw [hpos]
  | cons r rest ih =>
    unfold LaneSt.loopNext
    split
    · split
      · rfl
      · exact ih
    · rw [hpos]

/-- Past the instruction only position and loops of a core are new. -/
theorem advance_eq (l : LaneSt) :
    l.advance = { l with slot := l.advance.slot, word := l.advance.word, loops := l.advance.loops } := loopNext_eq l l.loops

theorem spendOf_eq (s : State) (l : LaneSt) (n : Nat) :
    s.spendOf l n = { l with cyc := (s.spendOf l n).cyc, free := (s.spendOf l n).free } := by
  unfold State.spendOf
  split <;> rfl

/-- Core `k` differs from `l` in position, loops and cycles only. -/
structure MovedOn (l k : LaneSt) : Prop where
  eq : k = { l with cyc := k.cyc, free := k.free, slot := k.slot, word := k.word, loops := k.loops }

section MovedOn

variable {l k : LaneSt} (h : MovedOn l k)
include h

theorem MovedOn.ctx : k.ctx = l.ctx := by rw [h.eq]
theorem MovedOn.busy : k.busy = l.busy := by rw [h.eq]
theorem MovedOn.s : k.s = l.s := by rw [h.eq]
theorem MovedOn.v : k.v = l.v := by rw [h.eq]
theorem MovedOn.p : k.p = l.p := by rw [h.eq]
theorem MovedOn.a : k.a = l.a := by rw [h.eq]

end MovedOn

theorem movedOn_spendOf (s : State) (l : LaneSt) (n : Nat) : MovedOn l (s.spendOf l n) := ⟨by rw [spendOf_eq]⟩

theorem ran_core_eq (s : State) (c : Proc) (n : Nat) :
    ∃ t : State, (ran s c n).core (procIdx c) = (t.spendOf (coreOf s c) n).advance :=
  ⟨_, core_setCore_same _ _ _⟩

theorem movedOn_ran (s : State) (c : Proc) (n : Nat) : MovedOn (coreOf s c) ((ran s c n).core (procIdx c)) := by
  obtain ⟨t, h⟩ := ran_core_eq s c n
  rw [h, advance_eq, spendOf_eq]
  exact ⟨rfl⟩

/-! ## The end of a slice -/

theorem sliceEnd_core_same (s : State) (i : Nat) : (s.sliceEnd i).core i =
    { s.core i with busy := false, endCyc := (s.core i).start + (s.core i).cyc, step := false } := core_setCore_same _ _ _

/-- The cycles of an ended slice count for its context; its group goes on. -/
theorem sliceEnd_ctx (s : State) (i k : Nat) : (s.sliceEnd i).ctx k =
    if k = (s.core i).ctx then { s.ctx k with cyc := (s.ctx k).cyc + (s.core i).cyc } else s.ctx k := by
  refine (tblGet_set _ _ _ _ _).trans ?_
  split
  next hk => subst hk; rfl
  next => rfl

theorem sliceEnd_group (s : State) (i k : Nat) : ((s.sliceEnd i).ctx k).group = (s.ctx k).group := by
  rw [sliceEnd_ctx]; split <;> rfl

theorem touches_sliceEnd {A : Set Nat} {s t : State} {i : Nat} (h : Touches A s t) (hi : i < 8)
    (hA : R.ENG_LANE_STS i ∈ A) : Touches A s (t.sliceEnd i) := by
  have hne : ¬ evtReg (R.ENG_LANE_STS i) := not_evtReg_of_lt (by unfold R.ENG_LANE_STS; omega)
  unfold State.sliceEnd
  exact (Touches.setF (h.trans' (.ofEq rfl rfl rfl rfl)) hA hne).trans' (.ofEq rfl rfl rfl rfl)

theorem sliceEnd_mem (s : State) (i : Nat) : (s.sliceEnd i).mem = s.mem := rfl

theorem sliceEnd_f (s : State) (i : Nat) (x : Fld) : (s.sliceEnd i).f x = (s.setF (F.ENG_LANE_STS_busy i) 0).f x := rfl

/-! ## A lane exception (R58) -/

/-- The exception as the lane's registers record it. -/
def State.excNoted (s : State) (i code : Nat) : State :=
  let t := ((s.setF (F.ENG_LANE_EXC_cause i) code).setF (F.ENG_LANE_EXC_exc_context i) (s.core i).ctx).setF
    (F.ENG_LANE_EXC_PC_pc i) (s.core i).pcAddr
  (t.setF (F.ENG_LANE_EXC_TICK_tick i) (t.f F.TIME_TICK_COUNT_count)).setF (F.ENG_LANE_STS_exc_seen i) 1

/-- Registers of the block that holds contexts, and those above. -/
def ctxUp : Set Nat := {a | 0x40000 ≤ a}

section Exception

variable {s : State} {i code : Nat} (hc : (s.core i).ctx < 64)
include hc

/-- The lane's registers stand as the slice's end leaves them. -/
theorem touches_laneExc : Touches ctxUp ((s.excNoted i code).sliceEnd i) (s.laneExc i code) :=
  touches_discard 5 code ((Touches.refl _ _).raiseDev (by decide)) hc
    (by show 0x40000 ≤ R.CTX_LAST_ABORT _; unfold R.CTX_LAST_ABORT; omega)

/-- The lane's fields stand as the slice's end leaves them. -/
theorem laneExc_f {x : Fld} (hx : x.addr < 0x40000) :
    (s.laneExc i code).f x = ((s.excNoted i code).setF (F.ENG_LANE_STS_busy i) 0).f x :=
  (f_congr ((touches_laneExc hc).reg _ (not_evtReg_of_lt (by omega)) (Nat.not_le.2 hx))).trans (sliceEnd_f _ i x)

/-- Cause and context of the exception, and the lane's flags. -/
theorem laneExc_record (hi : i < 8) (h16 : code < 16) :
    (s.laneExc i code).f (F.ENG_LANE_EXC_cause i) = code ∧
      (s.laneExc i code).f (F.ENG_LANE_EXC_exc_context i) = (s.core i).ctx % 64 ∧
      (s.laneExc i code).bit (F.ENG_LANE_STS_exc_seen i) = true ∧ (s.laneExc i code).bit (F.ENG_LANE_STS_busy i) = false := by
  have hlow : ∀ k < 0x80, 0x30000 + k + 0x80 * i < 0x40000 := by omega
  rw [bit_eq_f, bit_eq_f, laneExc_f hc (hlow 4 (by decide)), laneExc_f hc (hlow 4 (by decide)),
    laneExc_f hc (hlow 0 (by decide)), laneExc_f hc (hlow 0 (by decide))]
  unfold State.excNoted
  refine ⟨?_, ?_, ?_, ?_⟩
  · rw [f_setF_other (by simp) (by simp), f_setF_other (by simp) (by simp), f_setF_other (by simp) (by simp),
      f_setF_other (by simp) (by simp), f_setF_other (by simp) (by simp), f_setF_read (by simp)]
    exact Nat.mod_eq_of_lt h16
  · rw [f_setF_other (by simp) (by simp), f_setF_other (by simp) (by simp), f_setF_other (by simp) (by simp),
      f_setF_other (by simp) (by simp), f_setF_read (by simp)]
    rfl
  · rw [f_setF_other (by simp) (by simp), f_setF_read (by simp)]
    rfl
  · rw [f_setF_read (by simp)]
    rfl

theorem laneExc_mem : (s.laneExc i code).mem = s.mem := by
  rw [(touches_laneExc hc).mem, sliceEnd_mem]
  rfl

theorem laneExc_pending : (s.laneExc i code).bit (pendFld 19) = true := by
  have h : Touches ctxUp _ (s.laneExc i code) := touches_discard 5 code (Touches.refl _ _) hc
    (by show 0x40000 ≤ R.CTX_LAST_ABORT _; unfold R.CTX_LAST_ABORT; omega)
  exact h.pend 19 (by decide) (raiseDev_pending _ _ (by decide))

omit hc

theorem laneExc_group : ((s.laneExc i code).ctx (s.core i).ctx).group = .discarded := discard_group _ _ _ _

/-- The core's slice is over; its register files are as they were. -/
theorem laneExc_core : (s.laneExc i code).core i =
    { s.core i with busy := false, endCyc := (s.core i).start + (s.core i).cyc, step := false } := by
  have hl : (s.laneExc i code).eng.lanes = ((s.excNoted i code).sliceEnd i).eng.lanes :=
    (discard_lanes _ _ _ _).trans (congrArg EngSt.lanes (raise_eng _ _ _ _ (by decide)))
  rw [core_congr hl, sliceEnd_core_same]
  rfl

end Exception

/-- A lane exception at a state that has the memory, the context and the register files of `s`. -/
theorem traps_of_laneExc {i : Instr} {s u : State} {n : Fin 8} {code : Nat} (hc : (s.core n).ctx < 64) (h16 : code < 16)
    (hm : u.mem = s.mem) (hk : MovedOn (coreOf s (.lane n)) (u.core n)) (he : Machine.exec i s = .next (u.laneExc n code)) :
    Traps i s n code := by
  have hctx : (u.core n).ctx = (s.core n).ctx := hk.ctx
  rw [← hctx] at hc
  obtain ⟨hcause, hcon, hseen, hbusy⟩ := laneExc_record (code := code) hc n.isLt h16
  unfold Traps
  rw [← hctx]
  refine ⟨_, he, hcause, hcon, hseen, hbusy, ?_, laneExc_pending hc, laneExc_group, (laneExc_mem hc).trans hm, ?_, ?_, ?_⟩
  all_goals rw [laneExc_core]
  · exact hk.s
  · exact hk.v
  · exact hk.p

end Sys2Proof.Machine

/-! # How a Nimson instruction runs: not permitted, abandoned, illegal, and with an exception (O22, O23) -/

namespace Sys2Proof.Machine

/-! ## Every Nimson instruction runs in the frame -/

@[simp] theorem Cores.has_A (c : Proc) : Cores.has .A c = true := rfl

/-- Instruction `i` of core `c` runs in the frame `State.instr`, with the cycle count and the predicate of the instruction table;
`ok` and the cores `on` hold its fields to R73 and R82. -/
structure RunsAs (i : Instr) (c : Proc) (on : Cores) (m : Pred) (p : BitVec 3) (ok : State → Bool)
    (eff : State → Effect) : Prop where
  pred : instrPred i = some (m, p)
  exec : ∀ s, Machine.exec i s = onMain s fun s => s.instr c on m (instrCycles i) p (ok s) (eff s)
  legal : ∀ s, (on.has c && ok s) = true → fieldsOk i = true
  fixed : m ≠ .always → ∀ s, (on.has c && ok s) = fieldsOk i

/-- An instruction whose fields alone decide whether it is legal. -/
theorem RunsAs.ofFields {i : Instr} {c : Proc} {on : Cores} {m : Pred} {p : BitVec 3} {ok : Bool} {eff : State → Effect}
    (hp : instrPred i = some (m, p))
    (hx : ∀ s, Machine.exec i s = onMain s fun s => s.instr c on m (instrCycles i) p ok (eff s))
    (hf : (on.has c && ok) = fieldsOk i) : RunsAs i c on m p (fun _ => ok) eff :=
  ⟨hp, hx, fun _ h => hf ▸ h, fun _ _ => hf⟩

theorem runsAs_of_instrCore {i : Instr} {c : Proc} (h : instrCore i = some c) :
    ∃ on m p ok eff, RunsAs i c on m p ok eff := by
  cases i <;> cases h
  case br => exact ⟨_, _, _, _, _, rfl, fun _ => rfl, fun _ _ => rfl, fun h => absurd rfl h⟩
  case loop max len =>
    refine ⟨_, _, _, _, _, rfl, fun _ => rfl, fun s hok => ?_, fun h => absurd rfl h⟩
    simp only [Cores.has_A, LaneSt.loopOk, Bool.true_and, Bool.and_eq_true, bne_iff_ne] at hok
    obtain ⟨⟨⟨⟨hmax, hlen⟩, -⟩, -⟩, -⟩ := hok
    have hne : ∀ {w : Nat} {x : BitVec w}, x.toNat ≠ 0 → (x != 0) = true :=
      fun h => bne_iff_ne.2 fun he => h (by rw [he]; rfl)
    simp only [fieldsOk, hne hmax, hne hlen, Bool.and_self]
  all_goals refine ⟨_, _, _, _, _, RunsAs.ofFields rfl (fun _ => rfl) ?_⟩
  all_goals simp only [fieldsOk, Cores.has_A, Bool.true_and, Bool.and_true, Bool.and_assoc]

theorem instrCycles_pos {i : Instr} {c : Proc} (h : instrCore i = some c) : 0 < instrCycles i := by
  cases i <;> cases h <;> exact Nat.zero_lt_succ _

/-! ## A lane past its fetch -/

/-- What the frame does with an instruction of a lane, fetched as `f`, whose core before it is `l` (R58, R62, R73, R75). -/
def State.afterFetch (f : State) (c : Proc) (on : Cores) (m : Pred) (n : Nat) (p : BitVec 3) (ok : Bool) (eff : Effect)
    (l : LaneSt) : State :=
  let i := procIdx c
  if !(on.has c && ok) then
    if f.overBudget l 1 then f else ((f.ran l 1).setCore i (f.spendOf l 1)).laneExc i 4
  else if f.overBudget l n then f
  else
    let t := f.ran l n
    let t1 := t.setCore i (t.spendOf l n).advance
    if !m.any (l.getP (p.setWidth 5)) then t1
    else
      let r := eff t1 l
      if r.2 = 0 then r.1 else (t.setCore i (t.spendOf l n)).laneExc i r.2

section Lane

variable {s : State} {c : Proc} (hp : procLane c = true) (hf : laneFetches s (procIdx c) = true)
include hp hf

theorem instr_budgetUsed (on : Cores) (m : Pred) (n : Nat) (p : BitVec 3) (ok : Bool) (eff : Effect)
    (hb : (s.core (procIdx c)).budget ≤ (s.core (procIdx c)).cyc) :
    s.instr c on m n p ok eff = s.setCore (procIdx c) (coreOf s c) := by
  simp only [laneFetches, Bool.and_eq_true] at hf
  obtain ⟨⟨⟨hr, -⟩, -⟩, -⟩ := hf
  have hb' : (s.core (procIdx c)).stepUsed.budget ≤ (s.core (procIdx c)).stepUsed.cyc := hb
  unfold State.instr
  simp only [State.onCore, core_setCore_same, hp, hr]
  simp [hb', coreOf]

theorem instr_fetches (on : Cores) (m : Pred) (n : Nat) (p : BitVec 3) (ok : Bool) (eff : Effect)
    (hb : (s.core (procIdx c)).cyc < (s.core (procIdx c)).budget) :
    s.instr c on m n p ok eff = (fetched s c).afterFetch c on m n p ok eff (coreOf s c) := by
  simp only [laneFetches, Bool.and_eq_true, decide_eq_true_eq, bne_iff_ne, ne_eq] at hf
  obtain ⟨⟨⟨hr, hs⟩, ht⟩, he⟩ := hf
  have hs' : ¬ 32 ≤ (coreOf s c).slot := Nat.not_le.2 hs
  have ht' : ¬ tblGet 0 (coreOf s c).slots (coreOf s c).slot = 0 := ht
  have hb' : ¬ (coreOf s c).budget ≤ (coreOf s c).cyc := Nat.not_le.2 hb
  have hco : (s.core (procIdx c)).stepUsed = coreOf s c := rfl
  obtain ⟨x, hx⟩ := eccAccess_one (s.setCore (procIdx c) (coreOf s c)) (procIdx c)
    (slotBase (procIdx c) (coreOf s c).slot + 4 * (coreOf s c).word) he
  have hfetch : fetched s c = x := by
    unfold fetched
    simp [hp, hx]
  unfold State.instr
  simp only [State.onCore, core_setCore_same, hco, hp, hr, hfetch]
  simp [hs', ht', hb', hx, State.afterFetch]

end Lane

theorem overBudget_fetched (s : State) (c : Proc) (l : LaneSt) (n : Nat) :
    (fetched s c).overBudget l n = s.overBudget l n := by
  unfold State.overBudget
  rw [fetched_halted]

/-- Settles O23: no effect but that of the frame's early ends. -/
theorem notPermittedAndAbandoned : Obligations.NotPermittedAndAbandoned := by
  intro s c i m p hi hok hpred
  obtain ⟨on, m', p', ok, eff, hrun⟩ := runsAs_of_instrCore hi
  obtain ⟨rfl, rfl⟩ : m' = m ∧ p' = p := by
    have := hrun.pred.symm.trans hpred
    simpa using this
  refine ⟨fun hm h => ?_, fun hp hm hr hf hb => ?_⟩
  · have hne : m' ≠ .always := by rintro rfl; cases hm
    rw [hrun.exec, onMain_run _ h.1, instr_runs s c on m' _ p' _ _ h (instrCycles_pos hi) ((hrun.fixed hne s).trans hok),
      if_neg (by simp [hm])]
  · have hl := (hrun.fixed hm s).trans hok
    rw [hrun.exec, onMain_run _ hr]
    by_cases hused : (s.core (procIdx c)).budget ≤ (s.core (procIdx c)).cyc
    · rw [if_pos hused, instr_budgetUsed hp hf _ _ _ _ _ _ hused]
    · obtain ⟨hh, hover⟩ := hb.resolve_left hused
      have hob : s.overBudget (coreOf s c) (instrCycles i) = true := by
        simp only [State.overBudget, hh, Bool.not_false, Bool.true_and]
        exact decide_eq_true hover
      rw [if_neg hused, instr_fetches hp hf _ _ _ _ _ _ (Nat.not_le.1 hused)]
      simp [State.afterFetch, hl, overBudget_fetched, hob]

end Sys2Proof.Machine

/-! # What raises a lane exception (O22)

An illegal instruction ends at the fetch (`traps_illegal`), every other cause is the code that the instruction's effect gives
(`traps_effect`). -/

namespace Sys2Proof.Machine

section Traps

variable {i : Instr} {s : State} {n : Fin 8} {on : Cores} {m : Pred} {k : Nat} {p : BitVec 3} {ok : State → Bool}
  {eff : State → Effect} (hx : ∀ s, Machine.exec i s = onMain s fun s => s.instr (.lane n) on m k p (ok s) (eff s))
  (hc : (s.core n).ctx < 64)
include hx hc

/-- An instruction whose fields break R73, or that the lane lacks, is ILLEGAL after one cycle. -/
theorem traps_illegal (hr : s.pwr.mainRst = false) (hf : laneFetches s n = true)
    (hb : (s.core n).cyc + 1 ≤ (s.core n).budget) (hok : (on.has (.lane n) && ok s) = false) : Traps i s n 4 := by
  have hob : s.overBudget (coreOf s (.lane n)) 1 = false := by
    have hle : ¬ (coreOf s (.lane n)).budget < (coreOf s (.lane n)).cyc + 1 := Nat.not_lt.2 hb
    simp [State.overBudget, hle]
  refine traps_of_laneExc (u := ((fetched s (.lane n)).ran (coreOf s (.lane n)) 1).setCore n
    ((fetched s (.lane n)).spendOf (coreOf s (.lane n)) 1)) hc (by decide) ?_ ?_ ?_
  · show ((fetched s (.lane n)).ran (coreOf s (.lane n)) 1).mem = s.mem
    rw [at_ran]
    exact fetched_mem s (.lane n)
  · rw [core_setCore_same]
    exact movedOn_spendOf _ _ _
  · rw [hx, onMain_run _ hr, instr_fetches (c := .lane n) rfl hf _ _ _ _ _ _ hb]
    simp only [State.afterFetch, hok, overBudget_fetched, hob]
    rfl

/-- An instruction that is permitted and whose effect gives an exception code. -/
theorem traps_effect (h : CanRun s (.lane n) k) (hk : 0 < k) (hok : (on.has (.lane n) && ok s) = true)
    (hm : m.any (predOf s (.lane n) p) = true) {code : Nat} (h0 : code ≠ 0) (h16 : code < 16)
    (he : (eff s (ran s (.lane n) k) (coreOf s (.lane n))).2 = code) : Traps i s n code := by
  refine traps_of_laneExc (u := ((fetched s (.lane n)).ran (coreOf s (.lane n)) k).setCore n
    (((fetched s (.lane n)).ran (coreOf s (.lane n)) k).spendOf (coreOf s (.lane n)) k)) hc h16 ?_ ?_ ?_
  · show ((fetched s (.lane n)).ran (coreOf s (.lane n)) k).mem = s.mem
    rw [at_ran]
    exact fetched_mem s (.lane n)
  · rw [core_setCore_same]
    exact movedOn_spendOf _ _ _
  · rw [hx, onMain_run _ h.1, instr_runs s _ on m k p _ _ h hk hok, if_pos hm]
    simp only [he, h0, if_false]
    rfl

end Traps

/-! ## Loads and stores (R83) -/

theorem inSpace_word {size x : Nat} (hs : size % 4 = 0) : inSpace size 1 x = true ↔ x % 4 = 0 ∧ x < size := by
  simp only [inSpace, Bool.and_eq_true, beq_iff_eq, decide_eq_true_eq]
  omega

theorem inSpace_quad {size x : Nat} (hs : size % 16 = 0) : inSpace size 4 x = true ↔ x % 16 = 0 ∧ x < size := by
  simp only [inSpace, Bool.and_eq_true, beq_iff_eq, decide_eq_true_eq]
  omega

theorem not_inSpace_word {size x : Nat} (hs : size % 4 = 0) (h : x % 4 ≠ 0 ∨ size ≤ x) : inSpace size 1 x = false := by
  rw [← Bool.not_eq_true, inSpace_word hs]
  omega

theorem not_inSpace_quad {size x : Nat} (hs : size % 16 = 0) (h : x % 16 ≠ 0 ∨ size ≤ x) : inSpace size 4 x = false := by
  rw [← Bool.not_eq_true, inSpace_quad hs]
  omega

section Access

variable {c : Proc} {p : BitVec 3} {base size : Nat} {d a : BitVec 5} {imm : BitVec 13} {t : State} {l : LaneSt}

/-- An address outside the space is ADDRESS. -/
theorem loadWord_outside (h : inSpace size 1 (l.ea a imm) = false) : (loadWord c base size d a imm t l).2 = 5 := by
  simp [loadWord, h]

theorem storeWord_outside (h : inSpace size 1 (l.ea a imm) = false) : (storeWord c base size d a imm t l).2 = 5 := by
  simp [storeWord, h]

theorem loadQuad_outside (h : inSpace size 4 (l.ea a imm) = false) : (loadQuad c p base size d a imm t l).2 = 5 := by
  simp [loadQuad, h]

theorem storeQuad_outside (h : inSpace size 4 (l.ea a imm) = false) : (storeQuad c p base size d a imm t l).2 = 5 := by
  simp [storeQuad, h]

theorem hbWord_outside (h : inSpace hbSize 1 (l.ea a imm) = false) {u : State} :
    (if !inSpace hbSize 1 (l.ea a imm) then (t, 5) else (u, 0)).2 = 5 := by
  simp [h]

theorem hbQuad_outside (h : inSpace hbSize 4 (l.ea a imm) = false) {r : State × Nat} :
    (if !inSpace hbSize 4 (l.ea a imm) then (t, 5) else r).2 = 5 := by
  simp [h]

theorem topenEffect_outside (h : 1024 ≤ (l.getS a).toNat) : (topenEffect c d a t l).2 = 5 := by
  have h' : 1023 < (l.getS a).toNat := h
  simp [topenEffect, h']

/-- A word with an uncorrectable error is DATA_UE, also where it is one of four. -/
theorem loadWord_broken (h : inSpace size 1 (l.ea a imm) = true) (hu : t.eccOf (base + l.ea a imm) = 2) :
    (loadWord c base size d a imm t l).2 = 6 := by
  have hn : t.eccAccess (procIdx c) (base + l.ea a imm) 1 = none := eccAccess_broken (k := 0) Nat.zero_lt_one hu
  simp [loadWord, h, hn]

theorem storeWord_broken (h : inSpace size 1 (l.ea a imm) = true) (hu : t.eccOf (base + l.ea a imm) = 2) :
    (storeWord c base size d a imm t l).2 = 6 := by
  have hn : t.eccAccess (procIdx c) (base + l.ea a imm) 1 = none := eccAccess_broken (k := 0) Nat.zero_lt_one hu
  simp [storeWord, h, hn]

theorem loadQuad_broken (h : inSpace size 4 (l.ea a imm) = true) {k : Nat} (hk : k < 4)
    (hu : t.eccOf (base + l.ea a imm + 4 * k) = 2) : (loadQuad c p base size d a imm t l).2 = 6 := by
  simp [loadQuad, h, eccAccess_broken hk hu]

theorem storeQuad_broken (h : inSpace size 4 (l.ea a imm) = true) {k : Nat} (hk : k < 4)
    (hu : t.eccOf (base + l.ea a imm + 4 * k) = 2) : (storeQuad c p base size d a imm t l).2 = 6 := by
  simp [storeQuad, h, eccAccess_broken hk hu]

end Access

/-! ## Staging (R57, R76, R95) -/

section Staging

variable {c : Proc} {cv : Bool} {a b : BitVec 5} {t : State} {l : LaneSt}

theorem stgEffect_closed (h : (t.ctx l.ctx).closed = true) : (stgEffect c cv a b t l).2 = 2 := by
  simp [stgEffect, h]

/-- A target that the context does not own, or that does not exist, is NOT_OWNED. -/
theorem stgEffect_notOwned (h : (t.ctx l.ctx).closed = false)
    (ho : t.ownerOf (getBits (l.getS b) 24 8) (getBits (l.getS b) 16 8) ≠ some l.ctx) : (stgEffect c cv a b t l).2 = 1 := by
  cases hf : stgField (getBits (l.getS b) 24 8) (getBits (l.getS b) 16 8) (getBits (l.getS b) 0 16) with
  | none => simp [stgEffect, h, hf]
  | some e => simp [stgEffect, h, hf, ho]

theorem stgEffect_full (h : (t.ctx l.ctx).closed = false) {w : Nat} {fmt : Fmt}
    (hf : stgField (getBits (l.getS b) 24 8) (getBits (l.getS b) 16 8) (getBits (l.getS b) 0 16) = some (w, fmt))
    (ho : t.ownerOf (getBits (l.getS b) 24 8) (getBits (l.getS b) 16 8) = some l.ctx)
    (h64 : 64 ≤ (t.ctx l.ctx).felt.length) : (stgEffect c cv a b t l).2 = 3 := by
  simp [stgEffect, h, hf, ho, h64]

end Staging

/-- The owners stand in the schedule, which no instruction changes. -/
theorem ran_ownerOf (s : State) (c : Proc) (n kind i : Nat) : (ran s c n).ownerOf kind i = s.ownerOf kind i := by
  unfold State.ownerOf
  rw [ran_eng]

/-! ## LOOP (R87) -/

theorem not_loopOk {l : LaneSt} {max len : Nat} (h : max = 0 ∨ len = 0 ∨ 255 < l.word + len ∨ 2 ≤ l.loops.length ∨
    ∃ r ∈ l.loops, l.slot ≠ r.slot ∨ l.word + len < r.first ∨ r.last < l.word + len) : l.loopOk max len = false := by
  rw [← Bool.not_eq_true]
  intro hok
  simp only [LaneSt.loopOk, LoopRec.holds, Bool.and_eq_true, bne_iff_ne, decide_eq_true_eq, List.all_eq_true, beq_iff_eq] at hok
  obtain ⟨⟨⟨⟨hmax, hlen⟩, hword⟩, hdepth⟩, hinner⟩ := hok
  rcases h with h | h | h | h | ⟨r, hr, h⟩
  · exact hmax h
  · exact hlen h
  · omega
  · omega
  · obtain ⟨⟨hslot, hfirst⟩, hlast⟩ := hinner r hr
    exact h.elim (fun h => h hslot) (fun h => by omega)

/-! ## The causes -/

section Causes

variable {s : State} {n : Fin 8} (hc : (s.core n).ctx < 64)
include hc

section Illegal

variable (hr : s.pwr.mainRst = false) (hf : laneFetches s n = true) (hb : (s.core n).cyc + 1 ≤ (s.core n).budget)
include hr hf hb

theorem traps_of_fieldsOk {i : Instr} (hi : instrCore i = some (.lane n)) (hok : fieldsOk i = false) : Traps i s n 4 := by
  obtain ⟨on, m, p, ok, eff, hrun⟩ := runsAs_of_instrCore hi
  refine traps_illegal hrun.exec hc hr hf hb ?_
  rw [← Bool.not_eq_true]
  intro h
  rw [hrun.legal s h] at hok
  cases hok

theorem traps_of_noInstr {w : Word} (hw : Sys2Proof.decodeNimson (.lane n) w = none) :
    Traps (.illegalInstruction (.lane n) w) s n 4 := by
  have hx : ∀ s, Machine.exec (.illegalInstruction (.lane n) w) s =
      onMain s fun s => s.instr (.lane n) .A .always 1 0 false fun s _ => (s, 0) := by
    intro s
    show execIllegalInstruction (.lane n) w s = _
    simp [execIllegalInstruction, hw]
  exact traps_illegal hx hc hr hf hb rfl

/-- A branch backwards. -/
theorem traps_backwards {p : BitVec 3} {slot : BitVec 5} {word : BitVec 8}
    (h : slot.toNat * 256 + word.toNat ≤ (s.core n).slot * 256 + (s.core n).word) : Traps (.br (.lane n) p slot word) s n 4 :=
  traps_illegal (fun _ => rfl) hc hr hf hb (by rw [Cores.has_A, Bool.true_and]; exact decide_eq_false (Nat.not_lt.2 h))

theorem traps_badLoop {a : BitVec 5} {max : BitVec 12} {len : BitVec 6}
    (h : max = 0 ∨ len = 0 ∨ 255 < (s.core n).word + len.toNat ∨ 2 ≤ (s.core n).loops.length ∨
      ∃ r ∈ (s.core n).loops, (s.core n).slot ≠ r.slot ∨ (s.core n).word + len.toNat < r.first ∨
        r.last < (s.core n).word + len.toNat) : Traps (.loop (.lane n) a max len) s n 4 := by
  refine traps_illegal (fun _ => rfl) hc hr hf hb ?_
  rw [Cores.has_A, Bool.true_and]
  refine not_loopOk ?_
  rcases h with h | h | h
  · exact Or.inl (by rw [h]; rfl)
  · exact Or.inr (Or.inl (by rw [h]; rfl))
  · exact Or.inr (Or.inr h)

end Illegal

/-! ### Causes that the effect finds -/

section Effects

variable {p : BitVec 3} {d a b : BitVec 5} {imm : BitVec 13} {w : BitVec 8}

/-- An instruction whose effect at its end gives the exception, whatever it leaves besides. -/
theorem traps_code {i : Instr} {on : Cores} {m : Pred} {k : Nat} {ok : Bool} {eff : Effect}
    (hx : ∀ s, Machine.exec i s = onMain s fun s => s.instr (.lane n) on m k p ok eff) (h : CanRun s (.lane n) k)
    (hm : m.any (predOf s (.lane n) p) = true) (hok : ok = true) {code : Nat}
    (he : (eff (ran s (.lane n) k) (coreOf s (.lane n))).2 = code) (hl : on.has (.lane n) = true := by rfl)
    (hk : 0 < k := by decide) (h0 : code ≠ 0 := by decide) (h16 : code < 16 := by decide) : Traps i s n code :=
  traps_effect hx hc h hk (by rw [hl, hok]; rfl) hm h0 h16 he

section Scalar

variable (hp : Pred.any .scalar (predOf s (.lane n) p) = true)
include hp

theorem traps_wordLocalOutside (hx : byteAddr s (.lane n) a imm % 4 ≠ 0 ∨ 0x4000 ≤ byteAddr s (.lane n) a imm) :
    (CanRun s (.lane n) 2 → Traps (.lwl (.lane n) p d a imm) s n 5) ∧
    (CanRun s (.lane n) 1 → Traps (.swl (.lane n) p d a imm) s n 5) ∧
    (CanRun s (.lane n) 4 → Traps (.lwh (.lane n) p d a imm) s n 5) := by
  have ho : inSpace localSize 1 ((coreOf s (.lane n)).ea a imm) = false := not_inSpace_word (by decide) hx
  refine ⟨fun h => ?_, fun h => ?_, fun h => ?_⟩
  · exact traps_code hc (fun _ => rfl) h hp rfl (loadWord_outside ho)
  · exact traps_code hc (fun _ => rfl) h hp rfl (storeWord_outside ho)
  · exact traps_code hc (fun _ => rfl) h hp rfl (hbWord_outside ho)

theorem traps_wordDataOutside (hx : byteAddr s (.lane n) a imm % 4 ≠ 0 ∨ 0x200000 ≤ byteAddr s (.lane n) a imm) :
    (CanRun s (.lane n) 6 → Traps (.lwd (.lane n) p d a imm) s n 5) ∧
    (CanRun s (.lane n) 4 → Traps (.swd (.lane n) p d a imm) s n 5) := by
  have ho : inSpace dataSize 1 ((coreOf s (.lane n)).ea a imm) = false := not_inSpace_word (by decide) hx
  refine ⟨fun h => ?_, fun h => ?_⟩
  · exact traps_code hc (fun _ => rfl) h hp rfl (loadWord_outside ho)
  · exact traps_code hc (fun _ => rfl) h hp rfl (storeWord_outside ho)

theorem traps_wordLocalBroken (h4 : byteAddr s (.lane n) a imm % 4 = 0) (hx : byteAddr s (.lane n) a imm < 0x4000)
    (hu : s.eccOf (localBase n + byteAddr s (.lane n) a imm) = 2) :
    (CanRun s (.lane n) 2 → Traps (.lwl (.lane n) p d a imm) s n 6) ∧
    (CanRun s (.lane n) 1 → Traps (.swl (.lane n) p d a imm) s n 6) := by
  have hi : inSpace localSize 1 ((coreOf s (.lane n)).ea a imm) = true := (inSpace_word (by decide)).2 ⟨h4, hx⟩
  refine ⟨fun h => ?_, fun h => ?_⟩
  · exact traps_code hc (fun _ => rfl) h hp rfl (loadWord_broken hi (ran_eccOf _ _ _ _ hu))
  · exact traps_code hc (fun _ => rfl) h hp rfl (storeWord_broken hi (ran_eccOf _ _ _ _ hu))

theorem traps_wordDataBroken (h4 : byteAddr s (.lane n) a imm % 4 = 0) (hx : byteAddr s (.lane n) a imm < 0x200000)
    (hu : s.eccOf (dataBase + byteAddr s (.lane n) a imm) = 2) :
    (CanRun s (.lane n) 6 → Traps (.lwd (.lane n) p d a imm) s n 6) ∧
    (CanRun s (.lane n) 4 → Traps (.swd (.lane n) p d a imm) s n 6) := by
  have hi : inSpace dataSize 1 ((coreOf s (.lane n)).ea a imm) = true := (inSpace_word (by decide)).2 ⟨h4, hx⟩
  refine ⟨fun h => ?_, fun h => ?_⟩
  · exact traps_code hc (fun _ => rfl) h hp rfl (loadWord_broken hi (ran_eccOf _ _ _ _ hu))
  · exact traps_code hc (fun _ => rfl) h hp rfl (storeWord_broken hi (ran_eccOf _ _ _ _ hu))

/-- An A register that holds no tile is TILE_CLOSED. -/
theorem traps_lutClosed (h : CanRun s (.lane n) 8) (hb : okP b = true) (hn : (coreOf s (.lane n)).getA b = none) :
    Traps (.lut (.lane n) p d a b) s n 7 :=
  traps_code hc (fun _ => rfl) h hp hb (by rw [hn])

theorem traps_lwtClosed (h : CanRun s (.lane n) 2) (ha : okP a = true) (hn : (coreOf s (.lane n)).getA a = none) :
    Traps (.lwt (.lane n) p d a w) s n 7 :=
  traps_code hc (fun _ => rfl) h hp ha (by rw [hn])

/-- There are 1024 table tiles (R84). -/
theorem traps_topenOutside (h : CanRun s (.lane n) 72) (hd : okP d = true)
    (ht : 1024 ≤ ((coreOf s (.lane n)).getS a).toNat) : Traps (.topen (.lane n) p d a) s n 5 :=
  traps_code hc (fun _ => rfl) h hp hd (topenEffect_outside ht)

section Stg

variable {cv : Bool} (h : CanRun s (.lane n) 2)
include h

theorem traps_stgClosed (hcl : (s.ctx (s.core n).ctx).closed = true) : Traps (.stg (.lane n) p cv a b) s n 2 :=
  traps_code hc (fun _ => rfl) h hp rfl (stgEffect_closed ((ran_ctx s (.lane n) 2 _).symm ▸ hcl))

variable (hop : (s.ctx (s.core n).ctx).closed = false)
include hop

theorem traps_stgNotOwned (ho : s.ownerOf (getBits ((coreOf s (.lane n)).getS b) 24 8)
    (getBits ((coreOf s (.lane n)).getS b) 16 8) ≠ some (s.core n).ctx) : Traps (.stg (.lane n) p cv a b) s n 1 :=
  traps_code hc (fun _ => rfl) h hp rfl (stgEffect_notOwned ((ran_ctx s (.lane n) 2 _).symm ▸ hop)
    ((ran_ownerOf s (.lane n) 2 _ _).symm ▸ ho))

theorem traps_stgFull {k : Nat} {fmt : Fmt} (hf : stgField (getBits ((coreOf s (.lane n)).getS b) 24 8)
      (getBits ((coreOf s (.lane n)).getS b) 16 8) (getBits ((coreOf s (.lane n)).getS b) 0 16) = some (k, fmt))
    (ho : s.ownerOf (getBits ((coreOf s (.lane n)).getS b) 24 8) (getBits ((coreOf s (.lane n)).getS b) 16 8) =
      some (s.core n).ctx)
    (h64 : 64 ≤ (s.ctx (s.core n).ctx).felt.length) : Traps (.stg (.lane n) p cv a b) s n 3 :=
  traps_code hc (fun _ => rfl) h hp rfl (stgEffect_full ((ran_ctx s (.lane n) 2 _).symm ▸ hop) hf
    ((ran_ownerOf s (.lane n) 2 _ _).symm ▸ ho) ((ran_ctx s (.lane n) 2 _).symm ▸ h64))

end Stg

end Scalar

section Vector

variable (hp : Pred.any .f32 (predOf s (.lane n) p) = true) (hd : okV d = true)
include hp hd

theorem traps_quadLocalOutside (hx : byteAddr s (.lane n) a imm % 16 ≠ 0 ∨ 0x4000 ≤ byteAddr s (.lane n) a imm) :
    (CanRun s (.lane n) 2 → Traps (.vll (.lane n) p d a imm) s n 5) ∧
    (CanRun s (.lane n) 1 → Traps (.vsl (.lane n) p d a imm) s n 5) ∧
    (CanRun s (.lane n) 4 → Traps (.vlh (.lane n) p d a imm) s n 5) := by
  have ho : inSpace localSize 4 ((coreOf s (.lane n)).ea a imm) = false := not_inSpace_quad (by decide) hx
  refine ⟨fun h => ?_, fun h => ?_, fun h => ?_⟩
  · exact traps_code hc (fun _ => rfl) h hp hd (loadQuad_outside ho)
  · exact traps_code hc (fun _ => rfl) h hp hd (storeQuad_outside ho)
  · exact traps_code hc (fun _ => rfl) h hp hd (hbQuad_outside ho)

theorem traps_quadDataOutside (hx : byteAddr s (.lane n) a imm % 16 ≠ 0 ∨ 0x200000 ≤ byteAddr s (.lane n) a imm) :
    (CanRun s (.lane n) 8 → Traps (.vld (.lane n) p d a imm) s n 5) ∧
    (CanRun s (.lane n) 6 → Traps (.vsd (.lane n) p d a imm) s n 5) := by
  have ho : inSpace dataSize 4 ((coreOf s (.lane n)).ea a imm) = false := not_inSpace_quad (by decide) hx
  refine ⟨fun h => ?_, fun h => ?_⟩
  · exact traps_code hc (fun _ => rfl) h hp hd (loadQuad_outside ho)
  · exact traps_code hc (fun _ => rfl) h hp hd (storeQuad_outside ho)

theorem traps_quadLocalBroken (h16 : byteAddr s (.lane n) a imm % 16 = 0) (hx : byteAddr s (.lane n) a imm < 0x4000) {k : Nat}
    (hk : k < 4) (hu : s.eccOf (localBase n + byteAddr s (.lane n) a imm + 4 * k) = 2) :
    (CanRun s (.lane n) 2 → Traps (.vll (.lane n) p d a imm) s n 6) ∧
    (CanRun s (.lane n) 1 → Traps (.vsl (.lane n) p d a imm) s n 6) := by
  have hi : inSpace localSize 4 ((coreOf s (.lane n)).ea a imm) = true := (inSpace_quad (by decide)).2 ⟨h16, hx⟩
  refine ⟨fun h => ?_, fun h => ?_⟩
  · exact traps_code hc (fun _ => rfl) h hp hd (loadQuad_broken hi hk (ran_eccOf _ _ _ _ hu))
  · exact traps_code hc (fun _ => rfl) h hp hd (storeQuad_broken hi hk (ran_eccOf _ _ _ _ hu))

theorem traps_quadDataBroken (h16 : byteAddr s (.lane n) a imm % 16 = 0) (hx : byteAddr s (.lane n) a imm < 0x200000) {k : Nat}
    (hk : k < 4) (hu : s.eccOf (dataBase + byteAddr s (.lane n) a imm + 4 * k) = 2) :
    (CanRun s (.lane n) 8 → Traps (.vld (.lane n) p d a imm) s n 6) ∧
    (CanRun s (.lane n) 6 → Traps (.vsd (.lane n) p d a imm) s n 6) := by
  have hi : inSpace dataSize 4 ((coreOf s (.lane n)).ea a imm) = true := (inSpace_quad (by decide)).2 ⟨h16, hx⟩
  refine ⟨fun h => ?_, fun h => ?_⟩
  · exact traps_code hc (fun _ => rfl) h hp hd (loadQuad_broken hi hk (ran_eccOf _ _ _ _ hu))
  · exact traps_code hc (fun _ => rfl) h hp hd (storeQuad_broken hi hk (ran_eccOf _ _ _ _ hu))

/-- The words of a table tile end at 255, and four are read (R82). -/
theorem traps_vlt (h : CanRun s (.lane n) 2) (ha : okP a = true) :
    (252 < w.toNat → Traps (.vlt (.lane n) p d a w) s n 5) ∧
    (w.toNat ≤ 252 → (coreOf s (.lane n)).getA a = none → Traps (.vlt (.lane n) p d a w) s n 7) := by
  have hok : (okV d && okP a) = true := by rw [hd, ha]; rfl
  refine ⟨fun hw => ?_, fun hw hn => ?_⟩
  · exact traps_code hc (fun _ => rfl) h hp hok (by rw [if_pos hw])
  · exact traps_code hc (fun _ => rfl) h hp hok (by rw [if_neg (Nat.not_lt.2 hw), hn])

end Vector

end Effects

end Causes

/-- Settles O22: an instruction that is not legal traps at the fetch, every other one by the code of its effect. -/
theorem laneExceptions : Obligations.LaneExceptions := by
  intro s n c hc hr hf
  refine ⟨fun hb => ?illegal, ?scalar, ?vector⟩
  case illegal =>
    exact ⟨fun i hi hok => traps_of_fieldsOk hc hr hf hb hi hok, fun w hw => traps_of_noInstr hc hr hf hb hw,
      fun p slot word h => traps_backwards hc hr hf hb h, fun a max len h => traps_badLoop hc hr hf hb h⟩
  case scalar =>
    intro p d a b imm w hp x tgt
    exact ⟨fun h hx => (traps_wordLocalOutside hc hp hx).1 h, fun h hx => (traps_wordLocalOutside hc hp hx).2.1 h,
      fun h hx => (traps_wordDataOutside hc hp hx).1 h, fun h hx => (traps_wordDataOutside hc hp hx).2 h,
      fun h hx => (traps_wordLocalOutside hc hp hx).2.2 h,
      fun h h4 hx hu => (traps_wordLocalBroken hc hp h4 hx hu).1 h,
      fun h h4 hx hu => (traps_wordLocalBroken hc hp h4 hx hu).2 h,
      fun h h4 hx hu => (traps_wordDataBroken hc hp h4 hx hu).1 h,
      fun h h4 hx hu => (traps_wordDataBroken hc hp h4 hx hu).2 h,
      fun h hb hn => traps_lutClosed hc hp h hb hn, fun h ha hn => traps_lwtClosed hc hp h ha hn,
      fun h hd ht => traps_topenOutside hc hp h hd ht, fun _ h hcl => traps_stgClosed hc hp h hcl,
      fun _ h hop ho => traps_stgNotOwned hc hp h hop ho,
      fun _ _ _ hfmt h hop ho h64 => traps_stgFull hc hp h hop hfmt ho h64⟩
  case vector =>
    intro p d a imm w hp hd x ue
    exact ⟨fun hx => traps_quadLocalOutside hc hp hd hx, fun hx => traps_quadDataOutside hc hp hd hx,
      fun h16 hx ⟨_, hk, hu⟩ => traps_quadLocalBroken hc hp hd h16 hx hk hu,
      fun h16 hx ⟨_, hk, hu⟩ => traps_quadDataBroken hc hp hd h16 hx hk hu,
      fun h ha => traps_vlt hc hp hd h ha⟩

end Sys2Proof.Machine

/-! # Staging, and the closing of a group (O20)

A permitted STG adds what `stageBits` gives (`stg_stages`); what that is in each format is said by the `stageBits` lemmas. A
closing notes the use of the group (`State.closeNoted`), and TABORT discards it besides. -/

namespace Sys2Proof.Machine

/-! ## The staged bits (R8, R95) -/

theorem fToFixed_range {lo hi : Int} (h0 : lo ≤ 0) (h1 : 0 ≤ hi) (n : Int) (v : F32) :
    lo ≤ (fToFixed lo hi n v).1 ∧ (fToFixed lo hi n v).1 ≤ hi := by
  unfold fToFixed
  cases fUnpack v with
  | nan => exact ⟨h0, h1⟩
  | zero neg => exact ⟨h0, h1⟩
  | inf neg => dsimp only; split <;> omega
  | fin neg m e => dsimp only; split_ifs <;> dsimp only <;> omega

theorem unsigned_of_range {w : Nat} {i : Int} (h0 : 0 ≤ i) (h1 : i ≤ (2 : Int) ^ w - 1) : unsigned w i = i.toNat := by
  unfold unsigned
  rw [Int.emod_eq_of_lt h0 (by omega)]

/-- A value rounded to an unsigned field is its own code. -/
theorem stageInt_uint (w : Nat) (v : F32) : stageInt 0 ((2 : Int) ^ w - 1) w v =
    ((fToFixed 0 ((2 : Int) ^ w - 1) 0 v).1.toNat, satIf ((fToFixed 0 ((2 : Int) ^ w - 1) 0 v).2 || fIsNan v)) := by
  obtain ⟨h0, h1⟩ := fToFixed_range (le_refl (0 : Int)) (Int.sub_nonneg.2 (one_le_pow₀ one_le_two)) 0 v
  exact Prod.ext (unsigned_of_range h0 h1) rfl

theorem seqMask_mod (m : Nat) : seqMask (m % 2 ^ 16) = m % 8 + m / 256 % 256 * 256 := by
  unfold seqMask
  omega

theorem stageBits_plain (w : Nat) {fmt : Fmt} (v : Word) (h : fmt ≠ .seq) :
    stageBits false w fmt v = (v.toNat % 2 ^ w, satIf false) := by
  cases fmt with
  | seq => exact absurd rfl h
  | q n => rfl
  | raw => rfl
  | int => rfl
  | uint => rfl

/-- Only the sequence field of 16 bits has the format of R95. -/
theorem stgField_seq {k i f w : Nat} {fmt : Fmt} (h : stgField k i f = some (w, fmt)) (hs : fmt = .seq) : w = 16 := by
  subst hs
  unfold stgField at h
  split at h <;> grind

/-! ## STG -/

section Stage

variable {c : Proc} {cv : Bool} {a b : BitVec 5} {t : State} {l : LaneSt}

theorem stgEffect_stages (hcl : (t.ctx l.ctx).closed = false) {w : Nat} {fmt : Fmt}
    (hf : stgField (getBits (l.getS b) 24 8) (getBits (l.getS b) 16 8) (getBits (l.getS b) 0 16) = some (w, fmt))
    (ho : t.ownerOf (getBits (l.getS b) 24 8) (getBits (l.getS b) 16 8) = some l.ctx)
    (h64 : (t.ctx l.ctx).felt.length < 64) :
    stgEffect c cv a b t l = ((t.onCore (procIdx c) fun k => k.flag (stageBits cv w fmt (l.getS a)).2).setCtx l.ctx
      { t.ctx l.ctx with felt := (t.ctx l.ctx).felt ++ [(l.getS b, BitVec.ofNat 32 (stageBits cv w fmt (l.getS a)).1)] }, 0) := by
  simp [stgEffect, hcl, hf, ho, Nat.not_le.2 h64]
  rfl

end Stage

section Stg

variable {s : State} {n : Fin 8} {p : BitVec 3} {a b : BitVec 5}

/-- A permitted STG to an owned target of an open group. -/
theorem stg_stages (hp : (predOf s (.lane n) p).getLsbD 0 = true) {w : Nat} {fmt : Fmt}
    (hf : stgField (getBits ((coreOf s (.lane n)).getS b) 24 8) (getBits ((coreOf s (.lane n)).getS b) 16 8)
      (getBits ((coreOf s (.lane n)).getS b) 0 16) = some (w, fmt))
    (h : CanRun s (.lane n) 2) (hcl : (s.ctx (s.core n).ctx).closed = false) (h64 : (s.ctx (s.core n).ctx).felt.length < 64)
    (ho : s.ownerOf (getBits ((coreOf s (.lane n)).getS b) 24 8) (getBits ((coreOf s (.lane n)).getS b) 16 8) =
      some (s.core n).ctx) (cv : Bool) {bits : Nat} {sat : Bool}
    (hb : stageBits cv w fmt ((coreOf s (.lane n)).getS a) = (bits, satIf sat)) :
    Machine.exec (.stg (.lane n) p cv a b) s = .next ((ranWith s (.lane n) 2 fun l => l.flag (satIf sat)).setCtx (s.core n).ctx
      { s.ctx (s.core n).ctx with
        felt := (s.ctx (s.core n).ctx).felt ++ [((coreOf s (.lane n)).getS b, BitVec.ofNat 32 bits)] }) := by
  have hctx := ran_ctx s (.lane n) 2 (s.core n).ctx
  have heff := stgEffect_stages (c := .lane n) (cv := cv) (a := a) (t := ran s (.lane n) 2) (l := coreOf s (.lane n))
    (hctx.symm ▸ hcl) hf ((ran_ownerOf s (.lane n) 2 _ _).trans ho) (hctx.symm ▸ h64)
  rw [hb] at heff
  have hrun := onMain_instr s (.lane n) .L .scalar 2 p true (stgEffect (.lane n) cv a b) h (by decide) rfl hp (by rw [heff])
  refine hrun.trans ?_
  rw [heff]
  show Host.Outcome.next ((ranWith s (.lane n) 2 fun l => l.flag (satIf sat)).setCtx (s.core n).ctx
    { (ran s (.lane n) 2).ctx (s.core n).ctx with felt := ((ran s (.lane n) 2).ctx (s.core n).ctx).felt ++ _ }) = _
  rw [hctx]

end Stg

/-! ## TCOMMIT and TABORT -/

section Close

variable {t u : State} {k : Nat}

/-- What either of them notes of an open group: it is closed, and its use is counted (R57). -/
def State.closeNoted (t : State) (k : Nat) : State :=
  ((t.setCtx k { t.ctx k with closed := true, group := if (t.ctx k).group = .opened then .committed else (t.ctx k).group }).setF
    (F.CTX_FELT_USED_used k) (t.ctx k).felt.length).maxF (F.CTX_FELT_MAX_max k) (t.ctx k).felt.length

theorem closeEffect_closed {abort : Bool} {l : LaneSt} (h : (t.ctx l.ctx).closed = true) : closeEffect abort t l = (t, 0) := by
  simp [closeEffect, h]

theorem closeEffect_open {abort : Bool} {l : LaneSt} (h : (t.ctx l.ctx).closed = false) :
    closeEffect abort t l = (if abort then (t.closeNoted l.ctx).discard l.ctx 3 0 else t.closeNoted l.ctx, 0) := by
  simp [closeEffect, h]
  rfl

theorem closeNoted_ctx (j : Nat) : (t.closeNoted k).ctx j = if j = k then
    { t.ctx k with closed := true, group := if (t.ctx k).group = .opened then .committed else (t.ctx k).group } else t.ctx j :=
  tblGet_set _ _ _ _ _

theorem closeNoted_reg {a : Nat} (h : a ≠ R.CTX_FELT_USED k) (h' : a ≠ R.CTX_FELT_MAX k) : (t.closeNoted k).reg a = t.reg a :=
  (reg_maxF_ne _ _ h').trans (reg_setF_ne _ _ h)

/-- Registers of the contexts (block 4). -/
def ctxBlock : Set Nat := {a | a / 0x10000 = 4}

theorem ctxReg_mem {x : Nat} (hk : k < 64) (hx : x < 0x80) : 0x40000 + x + 0x80 * k ∈ ctxBlock := by
  show (0x40000 + x + 0x80 * k) / 0x10000 = 4
  omega

/-- The lane's count of corrected words is no register of a context. -/
theorem ctxReg_ne_eccCnt (n : Fin 8) {x : Nat} : 0x40000 + x + 0x80 * k ≠ R.ENG_LANE_ECC_CNT n := by
  unfold R.ENG_LANE_ECC_CNT
  omega

theorem touches_closeNoted (hk : k < 64) : Touches ctxBlock t (t.closeNoted k) := by
  unfold State.closeNoted State.maxF
  refine .setF (.setF (.ofEq rfl rfl rfl rfl) (ctxReg_mem (x := 0x38) hk (by decide)) ?_)
    (ctxReg_mem (x := 0x3C) hk (by decide)) ?_ <;>
    exact not_evtReg_of_lt (by dsimp only; omega)

/-- From `t` to `u` the open group of context `k` is closed, and its use is counted. -/
structure Closes (t u : State) (k : Nat) : Prop where
  closed : (u.ctx k).closed = true
  felt : (u.ctx k).felt = (t.ctx k).felt
  others : ∀ j, j ≠ k → u.ctx j = t.ctx j
  lanes : u.eng.lanes = t.eng.lanes
  used : u.f (F.CTX_FELT_USED_used k) = (t.ctx k).felt.length
  max : u.f (F.CTX_FELT_MAX_max k) = max (t.f (F.CTX_FELT_MAX_max k)) (t.ctx k).felt.length
  mem : u.mem = t.mem

theorem closes_closeNoted (h64 : (t.ctx k).felt.length ≤ 64) : Closes t (t.closeNoted k) k := by
  refine ⟨by rw [closeNoted_ctx, if_pos rfl], by rw [closeNoted_ctx, if_pos rfl], fun j hj => by rw [closeNoted_ctx, if_neg hj],
    rfl, ?_, ?_, rfl⟩ <;> unfold State.closeNoted State.maxF
  · rw [f_setF_other (by simp) (by simp), f_setF_read (by simp)]
    exact Nat.mod_eq_of_lt (by dsimp only; omega)
  · rw [f_setF_read (by simp), f_setF_other (by simp) (by simp)]
    have hlt : t.f (F.CTX_FELT_MAX_max k) < 2 ^ 7 := f_lt _ _
    exact Nat.mod_eq_of_lt (max_lt hlt (by dsimp only; omega))

/-- A discard of the context leaves what the closing has noted. -/
theorem Closes.discard (h : Closes t u k) (hk : k < 64) (cause exc : Nat) : Closes t (u.discard k cause exc) k := by
  by_cases hg : (u.ctx k).group = .discarded
  · rw [discard_of_discarded hg]; exact h
  · have hctx : ∀ j, (u.discard k cause exc).ctx j = (u.setCtx k { u.ctx k with group := .discarded, cause := cause }).ctx j :=
      ctx_congr (congrArg EngSt.ctxs (discard_eng cause exc hg))
    have ht : Touches {R.CTX_LAST_ABORT k} u (u.discard k cause exc) := touches_discard cause exc (.refl _ _) hk rfl
    refine ⟨?_, ?_, fun j hj => ?_, (discard_lanes _ _ _ _).trans h.lanes, ?_, ?_, ht.mem.trans h.mem⟩
    · rw [hctx, ctx_setCtx_same]; exact h.closed
    · rw [hctx, ctx_setCtx_same]; exact h.felt
    · rw [hctx, ctx_setCtx_ne _ _ hj]; exact h.others j hj
    · exact (ht.f (not_evtReg_of_lt (by dsimp only; omega)) (by simp [R.CTX_LAST_ABORT])).trans h.used
    · exact (ht.f (not_evtReg_of_lt (by dsimp only; omega)) (by simp [R.CTX_LAST_ABORT])).trans h.max

end Close

section Closing

variable {s : State} {n : Fin 8} {p : BitVec 3} (hp : (predOf s (.lane n) p).getLsbD 0 = true) (h : CanRun s (.lane n) 1)
include hp h

theorem close_of_open (hcl : (s.ctx (s.core n).ctx).closed = false) :
    Machine.exec (.tcommit (.lane n) p) s = .next ((ran s (.lane n) 1).closeNoted (s.core n).ctx) ∧
      Machine.exec (.tabort (.lane n) p) s =
        .next (((ran s (.lane n) 1).closeNoted (s.core n).ctx).discard (s.core n).ctx 3 0) := by
  have heff : ∀ abort, closeEffect abort (ran s (.lane n) 1) (coreOf s (.lane n)) = _ := fun abort =>
    closeEffect_open ((congrArg CtxSt.closed (ran_ctx s (.lane n) 1 (s.core n).ctx)).trans hcl)
  refine ⟨(onMain_instr s (.lane n) .L .scalar 1 p true (closeEffect false) h (by decide) rfl hp (by rw [heff])).trans ?_,
    (onMain_instr s (.lane n) .L .scalar 1 p true (closeEffect true) h (by decide) rfl hp (by rw [heff])).trans ?_⟩
  · rw [heff]; rfl
  · rw [heff]; rfl

theorem close_of_closed (hcl : (s.ctx (s.core n).ctx).closed = true) :
    Machine.exec (.tcommit (.lane n) p) s = .next (ran s (.lane n) 1) ∧
      Machine.exec (.tabort (.lane n) p) s = .next (ran s (.lane n) 1) := by
  have heff : ∀ abort, closeEffect abort (ran s (.lane n) 1) (coreOf s (.lane n)) = _ := fun abort =>
    closeEffect_closed ((congrArg CtxSt.closed (ran_ctx s (.lane n) 1 (s.core n).ctx)).trans hcl)
  refine ⟨(onMain_instr s (.lane n) .L .scalar 1 p true (closeEffect false) h (by decide) rfl hp (by rw [heff])).trans ?_,
    (onMain_instr s (.lane n) .L .scalar 1 p true (closeEffect true) h (by decide) rfl hp (by rw [heff])).trans ?_⟩
  · rw [heff]
  · rw [heff]

end Closing

/-- Settles O20: the bits by `stg_stages`, the closings by what they note and what a discard leaves. -/
theorem stagingAndClosing : Obligations.StagingAndClosing := by
  intro s n p a b hp c k x tgt v hk hlen
  refine ⟨fun w fmt hf h hcl h64 ho => ?staging, fun h hcl => ?closing, fun h hcl => close_of_closed hp h hcl⟩
  case staging =>
    intro stages lowSeq
    have hst : ∀ cv {bits sat}, stageBits cv w fmt v = (bits, satIf sat) → stages cv bits sat := fun cv _ _ hb =>
      stg_stages hp hf h hcl h64 ho cv hb
    refine ⟨fun hne => hst false (stageBits_plain w v hne), fun hs => hst false ?_, fun q hq => hst true ?_,
      fun hr => hst true ?_, fun hi => hst true ?_, fun hu => hst true ?_, fun hs => hst true ?_⟩
    · have hw := stgField_seq hf hs
      subst hs hw
      exact Prod.ext (seqMask_mod v.toNat) rfl
    · subst hq; rfl
    · subst hr; rfl
    · subst hi; rfl
    · subst hu; exact stageInt_uint w v
    · subst hs
      have hint : stageInt 0 0xFFFF 16 v = _ := stageInt_uint 16 v
      show (seqMask (stageInt 0 0xFFFF 16 v).1, (stageInt 0 0xFFFF 16 v).2) = _
      rw [hint]
      rfl
  case closing =>
    intro closes
    obtain ⟨hcommit, habort⟩ := close_of_open hp h hcl
    have hctx := ran_ctx s c 1
    have hof : ∀ {t}, Closes (ran s c 1) t k → closes t := fun {t} hc => by
      have hmax : (ran s c 1).f (F.CTX_FELT_MAX_max k) = s.f (F.CTX_FELT_MAX_max k) :=
        (ran_f s c 1 _).trans (f_congr (fetched_reg s c (ctxReg_ne_eccCnt n (x := 0x3C))))
      refine ⟨hc.closed, hc.felt.trans ?_, fun j hj => (hc.others j hj).trans (hctx j), hc.lanes, hc.used.trans ?_,
        hc.max.trans ?_, hc.mem.trans (ran_mem s c 1)⟩
      · rw [hctx]
      · rw [hctx]
      · rw [hctx, hmax]
    have hnoted : Closes (ran s c 1) ((ran s c 1).closeNoted k) k := closes_closeNoted ((hctx k).symm ▸ hlen)
    have hgroup : (((ran s c 1).closeNoted k).ctx k).group = if x.group = .opened then .committed else x.group := by
      rw [closeNoted_ctx, if_pos rfl, hctx]
    have hdis := hnoted.discard hk 3 0
    have hlive : x.group ≠ .discarded → (((ran s c 1).closeNoted k).ctx k).group = .committed := by
      intro hg
      rw [hgroup]
      cases hx : x.group with
      | opened => rfl
      | committed => rfl
      | discarded => exact absurd hx hg
    refine ⟨fun hg => ⟨_, hcommit, hof hnoted, hlive hg, fun r h1 h2 => ?_⟩, fun hg => ⟨_, habort, hof hdis, ?_⟩,
      fun hg => ⟨_, hcommit, hof hnoted, ?_⟩, fun hg => ⟨_, habort, hof hdis, discard_group _ _ _ _⟩⟩
    · exact (closeNoted_reg h1 h2).trans (ran_reg s c 1 r)
    · have hg' : (((ran s c 1).closeNoted k).ctx k).group ≠ .discarded := by rw [hlive hg]; decide
      have ht : Touches ctxBlock (ran s c 1) (((ran s c 1).closeNoted k).discard k 3 0) :=
        touches_discard 3 0 (touches_closeNoted hk) hk (ctxReg_mem (x := 0x14) hk (by decide))
      refine ⟨discard_group _ _ _ _, ?_, discard_cause 3 0 hg' hk (by decide), discard_pending 3 0 hg',
        fun r hr => ?_, ?_, ?_⟩
      · rw [ctx_congr (congrArg EngSt.ctxs (discard_eng 3 0 hg')), ctx_setCtx_same]
      · have h4 : r / 0x10000 ≠ 4 ∧ r / 0x10000 ≠ 0x12 := by simpa using hr
        refine (ht.reg r (fun he => h4.2 ?_) h4.1).trans (ran_reg s c 1 r)
        have := he.1
        have := he.2
        omega
      · rw [ht.mem, ran_mem, fetched_mem]
      · rw [ht.pending, ran_pending, fetched_pending]
    · rw [hgroup, hg]
      rfl

end Sys2Proof.Machine

/-! # Copies of tiles, and the failure of a tile's watermark (O21, O25) -/

namespace Sys2Proof.Machine

/-! ## Copied bytes -/

theorem memGet_memCopy_ne {m : List Host.Cell} {src dst n b : Nat} (h : b < dst ∨ dst + n ≤ b) :
    memGet (memCopy m src dst n) b = memGet m b := by
  induction n generalizing m src dst with
  | zero => rfl
  | succ n ih => exact (ih (by omega)).trans (memGet_put_ne _ (by omega))

/-- A copied byte reads as its source, which the copy does not overwrite. -/
theorem memGet_memCopy {m : List Host.Cell} {src dst n j : Nat} (hwf : Memory.wf m = true)
    (hd : src + n ≤ dst ∨ dst + n ≤ src) (hj : j < n) : memGet (memCopy m src dst n) (dst + j) = memGet m (src + j) := by
  induction n generalizing m src dst j with
  | zero => omega
  | succ n ih =>
    unfold memCopy
    cases j with
    | zero =>
      rw [memGet_memCopy_ne (by omega)]
      exact memGet_put_same dst _ hwf
    | succ j =>
      have hstep := ih (m := memPut m dst (memGet m src)) (src := src + 1) (dst := dst + 1) (j := j) (memPut_wf _ _ hwf)
        (by omega) (by omega)
      rw [show dst + (j + 1) = dst + 1 + j by omega, show src + (j + 1) = src + 1 + j by omega]
      exact hstep.trans (memGet_put_ne _ (by omega))

theorem memWord_memCopy {m : List Host.Cell} {src dst n w : Nat} (hwf : Memory.wf m = true)
    (hd : src + n ≤ dst ∨ dst + n ≤ src) (hw : 4 * w + 4 ≤ n) :
    memWord (memCopy m src dst n) (dst + 4 * w) = memWord m (src + 4 * w) := by
  unfold memWord
  simp only [Nat.add_assoc]
  rw [memGet_memCopy hwf hd (by omega), memGet_memCopy hwf hd (by omega), memGet_memCopy hwf hd (by omega),
    memGet_memCopy hwf hd (by omega)]

/-! ## A group that is discarded for a tile (R51) -/

/-- Registers of the lanes (block 3). -/
def laneBlock : Set Nat := {a | a / 0x10000 = 3}

/-- A tile that fails its check, whatever then happens to the lane, with the discard of the group it was for. -/
theorem discard_afterWmFail {s u : State} {t wh k : Nat} (ht : t < 4096) (hwh : wh < 4) (hk : k < 64)
    (hu : Touches laneBlock (s.wmFail t wh) u) (hq : u.eng.quar = (s.wmFail t wh).eng.quar)
    (hg : (u.ctx k).group ≠ .discarded) :
    let r := u.discard k 4 0
    r.quarantined t = true ∧ (r.ctx k).group = .discarded ∧ r.f (F.CTX_LAST_ABORT_cause k) = 4 ∧
      r.f F.TILE_WM_FAIL_tile = t ∧ r.f F.TILE_WM_FAIL_where = wh ∧ r.bit (pendFld 18) = true ∧
      r.bit (pendFld 17) = true ∧ r.mem = s.mem := by
  obtain ⟨hquar, htile, hwhere, hpend⟩ := wmFail_record s ht hwh
  have hne : ¬ evtReg 0x5000C := not_evtReg_of_lt (by decide)
  have hd : Touches (laneBlock ∪ ctxBlock) (s.wmFail t wh) (u.discard k 4 0) :=
    hu.trans (touches_discard 4 0 (.refl _ _) hk (ctxReg_mem (x := 0x14) hk (by decide)))
  have hout : (0x5000C : Nat) ∉ laneBlock ∪ ctxBlock := by
    simp [laneBlock, ctxBlock]
  refine ⟨?_, discard_group _ _ _ _, discard_cause 4 0 hg hk (by decide), (hd.f hne hout).trans htile,
    (hd.f hne hout).trans hwhere, hd.pend 18 (by decide) hpend, discard_pending 4 0 hg,
    hd.mem.trans (touches_wmFail s t wh).mem⟩
  rw [quarantined_iff] at hquar ⊢
  rw [discard_eng_ctxs]
  exact hq ▸ hquar

theorem wmFail_ctx (s : State) (t wh k : Nat) : (s.wmFail t wh).ctx k = s.ctx k :=
  ctx_congr (by rw [wmFail_eng, quarantine_eng]) k

theorem wmFail_core (s : State) (t wh i : Nat) : (s.wmFail t wh).core i = s.core i :=
  core_congr (by rw [wmFail_eng, quarantine_eng]) i

end Sys2Proof.Machine

/-! # Tiles, events, keeper calls and status selectors (O21) -/

namespace Sys2Proof.Machine

/-! ## TOPEN (R49, R51, R84) -/

/-- Table tile `t` opened in A register `d` of lane `i`. -/
def State.tileOpened (s : State) (i : Nat) (d : BitVec 5) (t : Nat) : State :=
  (s.copy (tileAddr (2048 + t)) (tileBuf i d.toNat) 1024).onCore i fun k => { k with a := tblSet k.a d.toNat (t + 1) }

section Topen

variable {c : Proc} {d a : BitVec 5} {s : State} {l : LaneSt}

theorem topenEffect_opens (h : (l.getS a).toNat < 1024) (hw : s.wmOk (2048 + (l.getS a).toNat) = true) :
    topenEffect c d a s l = (s.tileOpened (procIdx c) d (l.getS a).toNat, 0) := by
  simp [topenEffect, State.tileOpened, Nat.not_lt.2 (Nat.le_of_lt_succ h), hw]

theorem topenEffect_fails (h : (l.getS a).toNat < 1024) (hw : s.wmOk (2048 + (l.getS a).toNat) = false) :
    topenEffect c d a s l =
      (((s.wmFail (2048 + (l.getS a).toNat) 1).sliceEnd (procIdx c)).discard l.ctx 4 0, 0) := by
  simp [topenEffect, Nat.not_lt.2 (Nat.le_of_lt_succ h), hw]

end Topen

/-- A table tile lies in table memory. -/
theorem tileAddr_table (t : Nat) : tileAddr (2048 + t) = tableBase + 1024 * t := by
  unfold tileAddr
  rw [if_neg (by omega), Nat.add_sub_cancel_left, Nat.mul_comm]

theorem getA_congr {l k : LaneSt} {r : BitVec 5} (h : tblGet 0 l.a r.toNat = tblGet 0 k.a r.toNat) : l.getA r = k.getA r := by
  unfold LaneSt.getA
  rw [h]

/-- An A register just opened holds its tile. -/
theorem getA_of_tblGet {l : LaneSt} {r : BitVec 5} {t : Nat} (h : tblGet 0 l.a r.toNat = t + 1) : l.getA r = some t := by
  unfold LaneSt.getA
  rw [h]

theorem ran_wmOk (s : State) (c : Proc) (n k : Nat) : (ran s c n).wmOk k = s.wmOk k :=
  wmOk_congr (ran_mem s c n) (by rw [ran_eng]) (by rw [ran_eng]) k

theorem onCore_eng (s : State) (i : Nat) (f : LaneSt → LaneSt) :
    (s.onCore i f).eng = { s.eng with lanes := (s.onCore i f).eng.lanes } := rfl

theorem onCore_core (s : State) (i : Nat) (f : LaneSt → LaneSt) : (s.onCore i f).core i = f (s.core i) :=
  core_setCore_same _ _ _

theorem copy_core (s : State) (src dst n i : Nat) : (s.copy src dst n).core i = s.core i := rfl

section Opened

variable (s : State) (i : Nat) (d : BitVec 5) (t : Nat)

theorem tileOpened_eng : (s.tileOpened i d t).eng = { s.eng with lanes := (s.tileOpened i d t).eng.lanes } := by
  unfold State.tileOpened
  rw [onCore_eng, State.copy_eng]

theorem tileOpened_regs : (s.tileOpened i d t).regs = s.regs := by
  unfold State.tileOpened
  rw [State.onCore, State.setCore_regs, State.copy_regs]

theorem tileOpened_mem : (s.tileOpened i d t).mem = memCopy s.mem (tableBase + 1024 * t) (tileBuf i d.toNat) 1024 := by
  unfold State.tileOpened
  rw [State.onCore, State.setCore_mem, tileAddr_table, State.copy]

theorem tileOpened_core : (s.tileOpened i d t).core i = { s.core i with a := tblSet (s.core i).a d.toNat (t + 1) } := by
  unfold State.tileOpened
  rw [onCore_core, copy_core]

/-- The A registers after it. -/
theorem tileOpened_getA (r : BitVec 5) :
    ((s.tileOpened i d t).core i).getA r = if r = d then some t else (s.core i).getA r := by
  rw [tileOpened_core]
  split
  next hr => subst hr; exact getA_of_tblGet (tblGet_set_same _ _ _ _)
  next hr => exact getA_congr (tblGet_set_ne _ _ _ (BitVec.toNat_ne.1 hr))

end Opened

section Open

variable {s : State} {n : Fin 8} {p : BitVec 3} {d a : BitVec 5} (hp : (predOf s (.lane n) p).getLsbD 0 = true)
  (h : CanRun s (.lane n) 72) (hd : okP d = true) {t : Nat} (hta : ((coreOf s (.lane n)).getS a).toNat = t) (ht : t < 1024)
include hp h hd hta ht

theorem topen_opens (hwf : Memory.wf s.mem = true) (hw : s.wmOk (2048 + t) = true) : Does (.topen (.lane n) p d a) s fun u =>
    (u.core n).getA d = some t ∧ (∀ r, r ≠ d → (u.core n).getA r = (s.core n).getA r) ∧
      u.eng = { (ran s (.lane n) 72).eng with lanes := u.eng.lanes } ∧
      (∀ w < 256, u.word (tileBuf n d.toNat + 4 * w) = s.word (tableBase + 1024 * t + 4 * w)) ∧
      KeepsBut (fetched s (.lane n)) u (tileBuf n d.toNat) (tileBuf n d.toNat + 1024) := by
  have heff := topenEffect_opens (c := .lane n) (d := d) (hta ▸ ht) (hta ▸ (ran_wmOk s (.lane n) 72 _).trans hw)
  rw [hta] at heff
  have hrun := onMain_instr s (.lane n) .L .scalar 72 p (okP d) (topenEffect (.lane n) d a) h (by decide) hd hp (by rw [heff])
  rw [heff] at hrun
  change _ = Host.Outcome.next ((ran s (.lane n) 72).tileOpened n d t) at hrun
  have hmem : ((ran s (.lane n) 72).tileOpened n d t).mem = memCopy s.mem (tableBase + 1024 * t) (tileBuf n d.toNat) 1024 := by
    rw [tileOpened_mem, ran_mem]
  refine ⟨_, hrun, ?_, fun r hr => ?_, tileOpened_eng _ _ _ _, fun w hw => ?_, fun x hx => ?_, ?_⟩
  · exact (tileOpened_getA _ _ _ _ _).trans (if_pos rfl)
  · refine ((tileOpened_getA _ _ _ _ _).trans (if_neg hr)).trans (getA_congr ?_)
    exact congrArg (fun x => tblGet 0 x r.toNat) (movedOn_ran s (.lane n) 72).a
  · unfold State.word
    rw [hmem]
    refine memWord_memCopy hwf (Or.inl ?_) (by omega)
    unfold tableBase tileBuf
    omega
  · rw [hmem, fetched_mem]
    exact memGet_memCopy_ne hx
  · exact (tileOpened_regs _ _ _ _).trans (ran_regs s (.lane n) 72)

theorem topen_fails (hk : (s.core n).ctx < 64) (hw : s.wmOk (2048 + t) = false)
    (hg : (s.ctx (s.core n).ctx).group = .opened) : Does (.topen (.lane n) p d a) s fun u =>
    (u.core n).busy = false ∧ u.quarantined (2048 + t) = true ∧ (u.ctx (s.core n).ctx).group = .discarded ∧
      u.f (F.CTX_LAST_ABORT_cause (s.core n).ctx) = 4 ∧ u.f F.TILE_WM_FAIL_tile = 2048 + t ∧ u.f F.TILE_WM_FAIL_where = 1 ∧
      u.bit (pendFld 18) = true ∧ u.bit (pendFld 17) = true ∧ u.mem = s.mem := by
  have heff := topenEffect_fails (c := .lane n) (d := d) (hta ▸ ht) (hta ▸ (ran_wmOk s (.lane n) 72 _).trans hw)
  rw [hta] at heff
  have hrun := onMain_instr s (.lane n) .L .scalar 72 p (okP d) (topenEffect (.lane n) d a) h (by decide) hd hp (by rw [heff])
  rw [heff] at hrun
  have hgr : ((((ran s (.lane n) 72).wmFail (2048 + t) 1).sliceEnd n).ctx (s.core n).ctx).group = .opened := by
    rw [sliceEnd_group, wmFail_ctx, ran_ctx, hg]
  have hlane : R.ENG_LANE_STS n ∈ laneBlock := by
    show R.ENG_LANE_STS n / 0x10000 = 3
    unfold R.ENG_LANE_STS
    omega
  have hrec := discard_afterWmFail (t := 2048 + t) (by omega) (by decide) hk
    (touches_sliceEnd (.refl _ ((ran s (.lane n) 72).wmFail (2048 + t) 1)) n.isLt hlane) rfl (by rw [hgr]; decide)
  obtain ⟨hquar, hdis, hcause, htile, hwhere, hp18, hp17, hmem⟩ := hrec
  refine ⟨_, hrun, ?_, hquar, hdis, hcause, htile, hwhere, hp18, hp17, hmem.trans (ran_mem s (.lane n) 72)⟩
  rw [core_congr (discard_lanes _ _ _ _)]
  exact congrArg LaneSt.busy (sliceEnd_core_same _ _)

end Open

end Sys2Proof.Machine

/-! # Events, keeper calls and status selectors (O21) -/

namespace Sys2Proof.Machine

/-! ## EVT (R96) -/

section Evt

variable {s : State} {n : Fin 8} {p : BitVec 3} (hp : (predOf s (.lane n) p).getLsbD 0 = true) (h : CanRun s (.lane n) 1)
include hp h

theorem evt_raises (a : BitVec 5) (src : Bool) : Does (.evt (.lane n) p a src) s fun t =>
    t.bit (pendFld (if src then 63 else 62)) = true ∧ t.eng = (ran s (.lane n) 1).eng ∧ t.mem = s.mem := by
  have hsrc : (if src then 63 else 62) < 64 := by cases src <;> decide
  refine ⟨_, onMain_instr s (.lane n) .L .scalar 1 p true
    (fun s l => (s.raiseDev (if src then 63 else 62) ((l.getS a).toNat % 0x10000), 0)) h (by decide) rfl hp rfl, ?_, ?_, ?_⟩
  · exact raiseDev_pending _ _ hsrc
  · exact raise_eng _ _ _ _ hsrc
  · exact ((Touches.refl ∅ _).raiseDev hsrc).mem.trans (ran_mem s (.lane n) 1)

end Evt

/-! ## CALLK (R65, R97) -/

/-- The request that a CALLK of lane `n` posts. -/
def callkRequest (s : State) (n : Fin 8) (svc : BitVec 8) (a b : BitVec 5) : SvcReq :=
  ⟨(s.core n).ctx, svc.toNat, (coreOf s (.lane n)).getS a, (coreOf s (.lane n)).getS b, s.f F.TIME_TICK_COUNT_count,
    (s.core n).start + (s.core n).cyc⟩

/-- State `t` with a request for service `svc` of context `k` noted and shown. -/
def State.callShown (t : State) (k svc : Nat) : State :=
  ((t.setCtx k { t.ctx k with posted := true }).setF (F.CTX_SVC_STS_service k) svc).setF (F.CTX_SVC_STS_status k) 0

/-- State `t` with request `r` posted. -/
def State.callPosted (t : State) (r : SvcReq) : State :=
  let u := t.callShown r.ctx r.svc
  { u with eng := { u.eng with svcQ := svcInsert r u.eng.svcQ } }

theorem callPosted_regs (t : State) (r : SvcReq) : (t.callPosted r).regs = (t.callShown r.ctx r.svc).regs := rfl

theorem callPosted_reg (t : State) (r : SvcReq) (a : Nat) : (t.callPosted r).reg a = (t.callShown r.ctx r.svc).reg a := by
  unfold State.reg
  rw [callPosted_regs]

theorem callShown_reg (t : State) {k svc a : Nat} (h : a ≠ R.CTX_SVC_STS k) : (t.callShown k svc).reg a = t.reg a := by
  unfold State.callShown
  rw [reg_setF_ne _ _ h, reg_setF_ne _ _ h]
  rfl

/-- A request posted leaves the rest of the engine, other contexts and memory alone. -/
theorem callPosted_eng (t : State) (r : SvcReq) : (t.callPosted r).eng = { t.eng with
    ctxs := tblSet t.eng.ctxs r.ctx { t.ctx r.ctx with posted := true }, svcQ := svcInsert r t.eng.svcQ } := rfl

theorem callPosted_ctx (t : State) (r : SvcReq) (j : Nat) :
    (t.callPosted r).ctx j = if j = r.ctx then { t.ctx r.ctx with posted := true } else t.ctx j := by
  unfold State.ctx
  rw [callPosted_eng]
  exact tblGet_set _ _ _ _ _

theorem callPosted_mem (t : State) (r : SvcReq) : (t.callPosted r).mem = t.mem := rfl

/-- The status of a request just posted. -/
theorem callPosted_status (t : State) {r : SvcReq} (h : r.svc < 256) :
    (t.callPosted r).f (F.CTX_SVC_STS_service r.ctx) = r.svc ∧ (t.callPosted r).f (F.CTX_SVC_STS_status r.ctx) = 0 := by
  rw [f_congr (callPosted_reg t r _), f_congr (callPosted_reg t r _)]
  unfold State.callShown
  refine ⟨?_, f_setF_read (by simp)⟩
  rw [f_setF_other (by simp) (by simp), f_setF_read (by simp)]
  exact Nat.mod_eq_of_lt h

section Callk

variable {s : State} {n : Fin 8} {p : BitVec 3}

/-- A register that holds neither the count of corrected words nor the context's status. -/
theorem ran_tick (k : Nat) : (ran s (.lane n) k).f F.TIME_TICK_COUNT_count = s.f F.TIME_TICK_COUNT_count :=
  (ran_f s (.lane n) k _).trans (f_congr (fetched_reg s (.lane n) (by unfold R.ENG_LANE_ECC_CNT; dsimp only; omega)))

theorem callkEffect_open {t : State} {l : LaneSt} {svc : BitVec 8} {a b : BitVec 5} (h : (t.ctx l.ctx).posted = false) :
    callkEffect svc a b t l = (t.callPosted ⟨l.ctx, svc.toNat, l.getS a, l.getS b,
      (t.callShown l.ctx svc.toNat).f F.TIME_TICK_COUNT_count, l.start + l.cyc⟩, 0) := by
  unfold callkEffect
  dsimp only
  rw [if_neg (by simp [h])]
  rfl

theorem callkEffect_ran {svc : BitVec 8} {a b : BitVec 5} (h : (s.ctx (s.core n).ctx).posted = false) (k : Nat) :
    callkEffect svc a b (ran s (.lane n) k) (coreOf s (.lane n)) =
      ((ran s (.lane n) k).callPosted (callkRequest s n svc a b), 0) := by
  have htick : ((ran s (.lane n) k).callShown (coreOf s (.lane n)).ctx svc.toNat).f F.TIME_TICK_COUNT_count =
      s.f F.TIME_TICK_COUNT_count := (f_congr (callShown_reg _ (by unfold R.CTX_SVC_STS; dsimp only; omega))).trans (ran_tick k)
  rw [callkEffect_open (by rw [ran_ctx]; exact h), htick]
  rfl

variable (hp : (predOf s (.lane n) p).getLsbD 0 = true) (h : CanRun s (.lane n) 2)
include hp h

theorem callk_posts (svc : BitVec 8) (a b : BitVec 5) (hpo : (s.ctx (s.core n).ctx).posted = false) :
    Machine.exec (.callk (.lane n) p svc a b) s = .next ((ran s (.lane n) 2).callPosted (callkRequest s n svc a b)) := by
  have heff := callkEffect_ran (svc := svc) (a := a) (b := b) hpo 2
  refine (onMain_instr s (.lane n) .L .scalar 2 p true (callkEffect svc a b) h (by decide) rfl hp (by rw [heff])).trans ?_
  rw [heff]

/-- A second request of the tick is dropped. -/
theorem callk_drops (svc : BitVec 8) (a b : BitVec 5) (hpo : (s.ctx (s.core n).ctx).posted = true) :
    Machine.exec (.callk (.lane n) p svc a b) s =
      .next ((ran s (.lane n) 2).setF (F.CTX_SVC_STS_dropped (s.core n).ctx) 1) := by
  have heff : callkEffect svc a b (ran s (.lane n) 2) (coreOf s (.lane n)) =
      ((ran s (.lane n) 2).setF (F.CTX_SVC_STS_dropped (s.core n).ctx) 1, 0) := by
    have hctx : ((ran s (.lane n) 2).ctx (coreOf s (.lane n)).ctx).posted = true := by rw [ran_ctx]; exact hpo
    unfold callkEffect
    rw [if_pos hctx]
    rfl
  refine (onMain_instr s (.lane n) .L .scalar 2 p true (callkEffect svc a b) h (by decide) rfl hp (by rw [heff])).trans ?_
  rw [heff]

end Callk

/-! ## MFS and MTS (R98) -/

section Status

variable {s : State} {c : Proc} {p : BitVec 3} {d a : BitVec 5} (hp : (predOf s c p).getLsbD 0 = true) (h : CanRun s c 1)

theorem flag_zero (l : LaneSt) : l.flag 0 = l := by
  show { l with lst := l.lst ||| 0#3 } = l
  rw [BitVec.or_zero]

theorem ranWith_setS_flag_zero (n : Nat) (v : Word) :
    (ranWith s c n fun k => (k.setS d v).flag 0) = ranWith s c n fun k => k.setS d v := by
  simp only [flag_zero]

/-- On a core that is no lane, a draw of a free value commutes with the end of the instruction. -/
theorem ran_free (hl : procLane c = false) (n : Nat) :
    ran { s with freeCtr := s.freeCtr + 1 } c n = ((ran s c n).free 32).2 := by
  cases c with
  | lane i => cases hl
  | keeper => rfl
  | safety => rfl

include hp h

/-- A selector writes the word that its effect puts. -/
theorem mfs_writes {sel : BitVec 5} {u : State} {v : Word} (hs : sel.toNat < 8)
    (he : mfsEffect c d sel (ran s c 1) (coreOf s c) = (u.onCore (procIdx c) fun k => k.setS d v, 0)) :
    Machine.exec (.mfs c p d sel) s = .next (u.onCore (procIdx c) fun k => k.setS d v) := by
  refine (onMain_instr s c .A .scalar 1 p (sel.toNat < 8) (mfsEffect c d sel) h (by decide) (by simpa using hs) hp
    (by rw [he])).trans ?_
  rw [he]

theorem writesS_mfs {sel : BitVec 5} {v : Word} (hs : sel.toNat < 8)
    (he : mfsEffect c d sel (ran s c 1) (coreOf s c) = ((ran s c 1).onCore (procIdx c) fun k => k.setS d v, 0)) :
    WritesS (.mfs c p d sel) s c 1 d v 0 := by
  unfold WritesS
  rw [ranWith_setS_flag_zero]
  exact mfs_writes hp h hs he

end Status

/-- Index of the `k`-th active loop, as the selectors give it. -/
theorem loopIdx_eq (l : LaneSt) (k : Nat) : l.loopIdx k = ((l.loops[k]?).map LoopRec.idx).getD 0 := by
  unfold LaneSt.loopIdx
  cases l.loops[k]? <;> rfl

theorem ran_tickReg (s : State) (c : Proc) (n : Nat) : (ran s c n).reg R.TIME_TICK_COUNT = s.reg R.TIME_TICK_COUNT :=
  (ran_reg s c n _).trans (fetched_reg s c (by unfold R.TIME_TICK_COUNT R.ENG_LANE_ECC_CNT; omega))

theorem mfsEffect_lane (s : State) {c : Proc} (d : BitVec 5) (l : LaneSt) (hl : procLane c = true) :
    mfsEffect c d 4 s l = (s.onCore (procIdx c) fun k => k.setS d (BitVec.ofNat 32 (procIdx c)), 0) := by
  cases c with
  | lane n => rfl
  | keeper => cases hl
  | safety => cases hl

theorem mfsEffect_context (s : State) {c : Proc} (d : BitVec 5) (l : LaneSt) (hc : c ≠ .safety) :
    mfsEffect c d 3 s l = (s.onCore (procIdx c) fun k => k.setS d (BitVec.ofNat 32 l.ctx), 0) := by
  cases c with
  | lane n => rfl
  | keeper => rfl
  | safety => exact absurd rfl hc

/-- A selector that a core does not have puts a free value. -/
theorem mfsEffect_free (s : State) {c : Proc} (d : BitVec 5) (l : LaneSt) {sel : BitVec 5}
    (h : (sel = 3 ∧ c = .safety) ∨ (sel = 4 ∧ procLane c = false)) :
    mfsEffect c d sel s l = ((s.free 32).2.onCore (procIdx c) fun k => k.setS d (s.free 32).1, 0) := by
  obtain ⟨rfl, rfl⟩ | ⟨rfl, hl⟩ := h
  · rfl
  · cases c with
    | lane n => cases hl
    | keeper => rfl
    | safety => rfl

/-- Settles O21: each instruction by what its effect does to the state past its fetch. -/
theorem tilesEventsStatus : Obligations.TilesEventsStatus := by
  refine ⟨?tiles, ?calls, ?status⟩
  case tiles =>
    intro s n p d a hp c k t h hd ht hwf hk
    exact ⟨fun hw => topen_opens hp h hd rfl ht hwf hw, fun hw hg => topen_fails hp h hd rfl ht hk hw hg⟩
  case calls =>
    intro s n p a b svc hp c k
    refine ⟨fun h => ⟨evt_raises hp h a false, evt_raises hp h a true⟩, fun h hk => ?_⟩
    intro frame
    have hctx := ran_ctx s c 2
    refine ⟨fun hpo => ⟨_, callk_posts hp h svc a b hpo, ?_⟩, fun hpo => ⟨_, callk_drops hp h svc a b hpo, ?_⟩⟩
    · obtain ⟨hsvc, hsts⟩ := callPosted_status (ran s c 2) (r := callkRequest s n svc a b) svc.isLt
      have heng := callPosted_eng (ran s c 2) (callkRequest s n svc a b)
      refine ⟨?_, hsvc, hsts, ?_, (callPosted_mem _ _).trans (ran_mem s c 2), fun j hj => ?_, ?_, fun r hr => ?_⟩
      · rw [heng, ran_eng]
        rfl
      · rw [callPosted_ctx, hctx]
        exact if_pos rfl
      · exact (callPosted_ctx _ _ _).trans ((if_neg hj).trans (hctx j))
      · rw [heng]
      · exact (callPosted_reg _ _ _).trans ((callShown_reg _ hr).trans (ran_reg s c 2 r))
    · refine ⟨?_, hctx k, ?_, ran_mem s c 2, fun j _ => hctx j, rfl, fun r hr => ?_⟩
      · rw [State.setF_eng, ran_eng]
      · exact bit_setF_set (by simp) rfl
      · exact (reg_setF_ne _ _ hr).trans (ran_reg s c 2 r)
  case status =>
    intro s c p d a hp h l loop mfs
    refine ⟨writesS_mfs hp h (by decide) rfl, writesS_mfs hp h (by decide) rfl, ?_, fun hc => ?_, fun hl => ?_,
      fun sel hs => ?_, writesS_mfs hp h (by decide) rfl, ?_, ?_, onMain_instr s c .A .scalar 1 p _ _ h (by decide) rfl hp rfl⟩
    · rw [← ran_tickReg s c 1]
      exact writesS_mfs hp h (by decide) rfl
    · exact writesS_mfs hp h (by decide) (mfsEffect_context _ d l hc)
    · exact writesS_mfs hp h (by decide) (mfsEffect_lane _ d l hl)
    · have hl : procLane c = false := by
        obtain ⟨-, rfl⟩ | ⟨-, hl⟩ := hs
        · rfl
        · exact hl
      have hlt : sel.toNat < 8 := by obtain ⟨rfl, -⟩ | ⟨rfl, -⟩ := hs <;> decide
      refine ⟨((ran s c 1).free 32).1, (mfs_writes hp h hlt (mfsEffect_free _ d l hs)).trans ?_⟩
      unfold ranWith
      rw [ran_free hl]
    · show WritesS _ s c 1 d (BitVec.ofNat 32 (((l.loops[0]?).map LoopRec.idx).getD 0)) 0
      rw [← loopIdx_eq]
      exact writesS_mfs hp h (by decide) rfl
    · show WritesS _ s c 1 d (BitVec.ofNat 32 (((l.loops[1]?).map LoopRec.idx).getD 0)) 0
      rw [← loopIdx_eq]
      exact writesS_mfs hp h (by decide) rfl

end Sys2Proof.Machine

/-! # The start of a slice, and its end at the budget (O25) -/

namespace Sys2Proof.Machine

/-! ## The lane as a slice begins (R46, R70) -/

/-- Core `l` with slice `i` begun as `x`: cleared register files, at the entry word. -/
def LaneSt.begun (l : LaneSt) (i : Nat) (x : Slice) : LaneSt :=
  { l with busy := true, ctx := x.ctx, start := x.start, budget := x.budget, cyc := 0, free := 0, slot := l.slotOf x.tile,
           word := x.word, s := [], v := [], p := [], a := [], lst := 0, loops := [], done := i :: l.done, step := false }

/-- Every register of a lane reads cleared. -/
theorem begun_cleared (l : LaneSt) (i : Nat) (x : Slice) :
    (∀ r, (l.begun i x).getS r = 0) ∧ (∀ r, (l.begun i x).getV r = 0) ∧ (∀ r, (l.begun i x).getA r = none) ∧
      ∀ r, r ≠ 0 → (l.begun i x).getP r = 0 := by
  refine ⟨fun r => ?_, fun _ => rfl, fun _ => rfl, fun r hr => if_neg hr⟩
  unfold LaneSt.getS
  split <;> rfl

/-- State `s` with slice `i` begun as `x`, and the lane's status showing it. -/
def State.sliceBegun (s : State) (i : Nat) (x : Slice) : State :=
  (((s.setCore x.lane ((s.core x.lane).begun i x)).setF (F.ENG_LANE_STS_busy x.lane) 1).setF
    (F.ENG_LANE_STS_context x.lane) x.ctx).setF (F.ENG_LANE_STS_slice x.lane) i

section Begun

variable (s : State) (i : Nat) (x : Slice)

theorem sliceBegun_core_same : (s.sliceBegun i x).core x.lane = (s.core x.lane).begun i x := core_setCore_same _ _ _

theorem sliceBegun_core_ne {j : Nat} (h : j ≠ x.lane) : (s.sliceBegun i x).core j = s.core j := core_setCore_ne _ _ h

theorem sliceBegun_ctxs : (s.sliceBegun i x).eng.ctxs = s.eng.ctxs := rfl

theorem sliceBegun_mem : (s.sliceBegun i x).mem = s.mem := rfl

theorem sliceBegun_tm : (s.sliceBegun i x).tm = s.tm := rfl

theorem sliceBegun_reg {a : Nat} (h : a ≠ R.ENG_LANE_STS x.lane) : (s.sliceBegun i x).reg a = s.reg a := by
  unfold State.sliceBegun
  rw [reg_setF_ne _ _ h, reg_setF_ne _ _ h, reg_setF_ne _ _ h]
  rfl

/-- What the lane's status shows of the slice. -/
theorem sliceBegun_status (hi : i < 256) : (s.sliceBegun i x).bit (F.ENG_LANE_STS_busy x.lane) = true ∧
    (s.sliceBegun i x).f (F.ENG_LANE_STS_context x.lane) = x.ctx % 64 ∧
    (s.sliceBegun i x).f (F.ENG_LANE_STS_slice x.lane) = i := by
  rw [bit_eq_f]
  unfold State.sliceBegun
  refine ⟨?_, ?_, ?_⟩
  · rw [f_setF_other (by simp) (by simp), f_setF_other (by simp) (by simp), f_setF_read (by simp)]
    rfl
  · rw [f_setF_other (by simp) (by simp), f_setF_read (by simp)]
    rfl
  · rw [f_setF_read (by simp)]
    exact Nat.mod_eq_of_lt hi

end Begun

/-! ## The start of a slice -/

/-- Slice `i` is due on its lane as `x`: it is in the schedule, its context runs, and it has not started in this tick (R46). -/
structure SliceDue (s : State) (i : Nat) (x : Slice) : Prop where
  sched : ∃ t, s.eng.sched = some t ∧ t.slices[i]? = some x
  running : s.running = true
  phase : s.tm.phase = 2
  halted : s.halted = false
  runs : s.f (F.CTX_STS_state x.ctx) = 1
  busy : (s.core x.lane).busy = false
  fresh : i ∉ (s.core x.lane).done

/-- The state at the instant at which slice `x` is to start. -/
def State.atStart (s : State) (x : Slice) : State := s.at (s.laneInstant x.start)

theorem atStart_core (s : State) (x : Slice) (j : Nat) : (s.atStart x).core j = s.core j :=
  core_congr (congrArg EngSt.lanes (at_eng _ _)) j

/-- A due slice begins where its tiles can be staged, and its group is discarded where one cannot. -/
theorem sliceStart_of_due {s : State} {i : Nat} {x : Slice} (h : SliceDue s i x) : s.sliceStart i =
    let r := (s.atStart x).stageAll x.lane x.stage
    if r.2 then r.1.sliceBegun i x
    else (r.1.onCore x.lane fun l => { l with done := i :: l.done }).discard x.ctx 4 0 := by
  obtain ⟨⟨t, hsched, hslice⟩, hrun, hphase, hhalt, hst, hbusy, hfresh⟩ := h
  unfold State.sliceStart
  simp only [hsched, hslice]
  rw [if_neg (by simp [hrun, hphase, hhalt, hst, hbusy, hfresh])]
  show (if !((s.atStart x).stageAll x.lane x.stage).2 then _ else _) = _
  cases ((s.atStart x).stageAll x.lane x.stage).2 <;> rfl

/-- A slice without overlay tiles begins. -/
theorem sliceStart_plain {s : State} {i : Nat} {x : Slice} (h : SliceDue s i x) (hst : x.stage = []) :
    s.sliceStart i = (s.atStart x).sliceBegun i x := by
  rw [sliceStart_of_due h, hst]
  rfl

theorem raiseDev_eng (s : State) {src : Nat} (payload : Nat) (h : src < 64) : (s.raiseDev src payload).eng = s.eng :=
  raise_eng _ _ _ _ h

theorem f_of_regs {s t : State} {x : Fld} (h : t.regs = s.regs) : t.f x = s.f x := by
  unfold State.f State.reg
  rw [h]

theorem onCore_regs (s : State) (i : Nat) (f : LaneSt → LaneSt) : (s.onCore i f).regs = s.regs := rfl

theorem ctx_setCore (s : State) (i k : Nat) (l : LaneSt) : (s.setCore i l).ctx k = s.ctx k := rfl

/-! ## An overlay tile (R50, R51, R68) -/

theorem testBit_of_bit {s : State} {a k : Nat} (hk : k < 32) (h : s.bit ⟨a, k, 1⟩ = true) :
    (s.f ⟨a, 0, 32⟩).testBit k = true := by
  have hb : (s.reg a).toNat >>> k % 2 ≠ 0 := by simpa [State.bit, State.f, getBits] using h
  have hf : s.f ⟨a, 0, 32⟩ = (s.reg a).toNat % 2 ^ 32 := rfl
  rw [hf, Nat.testBit_mod_two_pow, Nat.testBit_eq_decide_div_mod_eq, ← Nat.shiftRight_eq_div_pow]
  simp only [hk, decide_true, Bool.true_and, decide_eq_true_eq]
  omega

/-- Slot `slot` of lane `n` with the words of program tile `tile`, and its codes anew. -/
def State.slotFilled (s : State) (n tile slot : Nat) : State :=
  let t := s.copy (tileAddr tile) (slotBase n slot) 1024
  { t with eng := { t.eng with ecc := tblDelRange t.eng.ecc (slotBase n slot / 8) (slotBase n slot / 8 + 128) } }

section Stage

variable (s : State) (n tile slot : Nat)

theorem slotFilled_mem : (s.slotFilled n tile slot).mem = memCopy s.mem (tileAddr tile) (slotBase n slot) 1024 := by
  unfold State.slotFilled
  generalize 1024 = k
  rfl

theorem slotFilled_regs : (s.slotFilled n tile slot).regs = s.regs := by
  unfold State.slotFilled
  generalize 1024 = k
  rfl

theorem stageTile_eq : s.stageTile true n tile slot =
    (((s.slotFilled n tile slot).setF ⟨R.TILE_LANE_OVL n, slot, 1⟩ 1).onCore n
      fun l => { l with slots := tblSet l.slots slot (tile + 1) }).incWrap (F.TILE_LANE_STAGED_staged n) := by
  unfold State.stageTile State.slotFilled
  rw [if_pos rfl]

theorem stageTile_mem (ht : tile < 2048) :
    (s.stageTile true n tile slot).mem = memCopy s.mem (progBase + 1024 * tile) (slotBase n slot) 1024 := by
  have hsrc : tileAddr tile = progBase + 1024 * tile := by
    unfold tileAddr
    rw [if_pos ht, Nat.mul_comm]
  rw [stageTile_eq, State.incWrap, State.setF_mem, State.onCore, State.setCore_mem, State.setF_mem, slotFilled_mem, hsrc]

/-- The tile stands in its slot. -/
theorem stageTile_slot : tblGet 0 ((s.stageTile true n tile slot).core n).slots slot = tile + 1 := by
  rw [stageTile_eq, State.incWrap, core_congr (congrArg EngSt.lanes (State.setF_eng _ _ _)), onCore_core]
  exact tblGet_set_same _ _ _ _

theorem stageTile_shown (hs : slot < 32) : ((s.stageTile true n tile slot).f (F.TILE_LANE_OVL_slots n)).testBit slot = true := by
  refine testBit_of_bit hs ?_
  rw [stageTile_eq, State.incWrap, bit_eq_f, f_setF_ne _ _ (by simp), f_of_regs (onCore_regs _ _ _),
    f_setF_read (by dsimp only; omega)]
  rfl

theorem stageTile_count : (s.stageTile true n tile slot).f (F.TILE_LANE_STAGED_staged n) =
    (s.f (F.TILE_LANE_STAGED_staged n) + 1) % 2 ^ 32 := by
  rw [stageTile_eq, State.incWrap, f_setF_read (by simp), f_of_regs (onCore_regs _ _ _), f_setF_ne _ _ (by simp),
    f_of_regs (slotFilled_regs s n tile slot)]

end Stage

/-- Global time alone is new at the instant at which a slice is to start. -/
theorem atStart_wmOk (s : State) (x : Slice) (t : Nat) : (s.atStart x).wmOk t = s.wmOk t :=
  wmOk_congr (at_mem _ _) (congrArg EngSt.quar (at_eng _ _)) (congrArg EngSt.wm (at_eng _ _)) t

section Overlay

variable {s : State} {i tile slot : Nat} {x : Slice} (h : SliceDue s i x) (hst : x.stage = [(tile, slot)])
include h hst

/-- A slice with one overlay tile begins once the tile is staged. -/
theorem sliceStart_staged (hw : s.wmOk tile = true) :
    s.sliceStart i = ((s.atStart x).stageTile true x.lane tile slot).sliceBegun i x := by
  rw [sliceStart_of_due h, hst]
  simp only [State.stageAll, atStart_wmOk, hw, if_true]

/-- Where the tile's watermark fails, the slice does not run. -/
theorem sliceStart_failed (hw : s.wmOk tile = false) :
    s.sliceStart i = (((s.atStart x).wmFail tile 0).onCore x.lane fun l => { l with done := i :: l.done }).discard x.ctx 4 0 := by
  rw [sliceStart_of_due h, hst]
  simp [State.stageAll, atStart_wmOk, hw]

end Overlay

section Staged

variable {s : State} {i tile slot : Nat} {x : Slice}

/-- Memory and the staging registers once the slice with the staged tile has begun. -/
theorem staged_reads (hwf : Memory.wf s.mem = true) (ht : tile < 2048) (hs : slot < 32) :
    let u := ((s.atStart x).stageTile true x.lane tile slot).sliceBegun i x
    (∀ w < 256, u.word (slotBase x.lane slot + 4 * w) = s.word (progBase + 1024 * tile + 4 * w)) ∧
      (∀ a, a < slotBase x.lane slot ∨ slotBase x.lane slot + 1024 ≤ a → memGet u.mem a = memGet s.mem a) ∧
      (u.f (F.TILE_LANE_OVL_slots x.lane)).testBit slot = true ∧
      u.f (F.TILE_LANE_STAGED_staged x.lane) = (s.f (F.TILE_LANE_STAGED_staged x.lane) + 1) % 2 ^ 32 := by
  intro u
  have hmem : u.mem = memCopy s.mem (progBase + 1024 * tile) (slotBase x.lane slot) 1024 := by
    rw [sliceBegun_mem, stageTile_mem _ _ _ _ ht, State.atStart, at_mem]
  have hf : ∀ y : Fld, y.addr ≠ R.ENG_LANE_STS x.lane → u.f y = ((s.atStart x).stageTile true x.lane tile slot).f y :=
    fun y hy => f_congr (sliceBegun_reg _ _ _ hy)
  refine ⟨fun w hw => ?_, fun a ha => ?_, ?_, ?_⟩
  · unfold State.word
    rw [hmem]
    refine memWord_memCopy hwf (Or.inl ?_) (by omega)
    unfold progBase slotBase
    omega
  · rw [hmem]
    exact memGet_memCopy_ne ha
  · rw [hf _ (by unfold R.ENG_LANE_STS; dsimp only; omega)]
    exact stageTile_shown _ _ _ _ hs
  · rw [hf _ (by unfold R.ENG_LANE_STS; dsimp only; omega), stageTile_count, State.atStart, at_f]

/-- What a slice leaves that its tile's failure has kept from running. -/
theorem failed_record (ht : tile < 4096) (hk : x.ctx < 64) (hbusy : (s.core x.lane).busy = false)
    (hg : (s.ctx x.ctx).group ≠ .discarded) :
    let u := (((s.atStart x).wmFail tile 0).onCore x.lane fun l => { l with done := i :: l.done }).discard x.ctx 4 0
    (u.core x.lane).busy = false ∧ i ∈ (u.core x.lane).done ∧ u.quarantined tile = true ∧ (u.ctx x.ctx).group = .discarded ∧
      u.f (F.CTX_LAST_ABORT_cause x.ctx) = 4 ∧ u.f F.TILE_WM_FAIL_tile = tile ∧ u.f F.TILE_WM_FAIL_where = 0 ∧
      u.bit (pendFld 18) = true ∧ u.bit (pendFld 17) = true ∧ u.mem = s.mem := by
  intro u
  have hcore : u.core x.lane = { s.core x.lane with done := i :: (s.core x.lane).done } := by
    rw [core_congr (discard_lanes _ _ _ _), onCore_core, wmFail_core, atStart_core]
  have hgr : ((((s.atStart x).wmFail tile 0).onCore x.lane fun l => { l with done := i :: l.done }).ctx x.ctx).group ≠
      .discarded := by
    rw [State.onCore, ctx_setCore, wmFail_ctx, State.atStart, ctx_congr (congrArg EngSt.ctxs (at_eng _ _))]
    exact hg
  obtain ⟨hquar, hdis, hcause, htile, hwhere, hp18, hp17, hmem⟩ := discard_afterWmFail (wh := 0) ht (by decide) hk
    (.ofEq (onCore_regs _ _ _) rfl rfl rfl) rfl hgr
  refine ⟨?_, ?_, hquar, hdis, hcause, htile, hwhere, hp18, hp17, hmem.trans (at_mem _ _)⟩
  · rw [hcore]
    exact hbusy
  · rw [hcore]
    exact List.mem_cons_self

end Staged

/-! ## The end at the budget (R62) -/

/-- State `s` with the slice of lane `n` stopped at its budget. -/
def State.sliceStopped (s : State) (n : Nat) : State :=
  (((s.at (s.laneInstant ((s.core n).start + (s.core n).budget))).setCore n
    { s.core n with cyc := (s.core n).budget }).incSat (F.CTX_OVERRUN_CNT_overrun_cnt (s.core n).ctx)).sliceEnd n

theorem budgetExpiry_eq {s : State} {n : Nat} (hb : (s.core n).busy = true) (hh : s.halted = false) :
    s.budgetExpiry n = (s.sliceStopped n |>.raiseDev 16 ((s.core n).ctx + n * 0x1000)).discard (s.core n).ctx 2 0 := by
  unfold State.budgetExpiry
  rw [if_neg (by simp [hb, hh])]
  rfl

section Stopped

variable (s : State) (n : Nat)

theorem sliceStopped_mem : (s.sliceStopped n).mem = s.mem := by
  unfold State.sliceStopped State.incSat
  rw [sliceEnd_mem, State.setF_mem, State.setCore_mem, at_mem]

theorem sliceStopped_group (k : Nat) : ((s.sliceStopped n).ctx k).group = (s.ctx k).group := by
  unfold State.sliceStopped State.incSat
  rw [sliceEnd_group, ctx_congr (congrArg EngSt.ctxs (State.setF_eng _ _ _)), ctx_setCore,
    ctx_congr (congrArg EngSt.ctxs (at_eng _ _))]

theorem sliceStopped_busy : ((s.sliceStopped n).core n).busy = false := congrArg LaneSt.busy (sliceEnd_core_same _ _)

theorem sliceStopped_count : (s.sliceStopped n).f (F.CTX_OVERRUN_CNT_overrun_cnt (s.core n).ctx) =
    min 0xFFFFFFFF (s.f (F.CTX_OVERRUN_CNT_overrun_cnt (s.core n).ctx) + 1) := by
  unfold State.sliceStopped State.incSat
  rw [sliceEnd_f, f_setF_ne _ _ (by dsimp only; omega), f_setF_read (by simp), f_of_regs (State.setCore_regs _ _ _), at_f]
  exact Nat.mod_eq_of_lt (Nat.lt_succ_of_le (min_le_left _ _))

end Stopped

/-- Settles O25: a start by how its staging ends, the end at the budget by what stops the slice and what a discard leaves. -/
theorem sliceStartAndOverrun : Obligations.SliceStartAndOverrun := by
  refine ⟨?plain, ?overlay, ?budget⟩
  case plain =>
    intro s i t x hr hsched hslice hst hlane hrun hphase hhalt hctx hbusy hdone
    have hdue : SliceDue s i x := ⟨⟨t, hsched, hslice⟩, hrun, hphase, hhalt, hctx, hbusy, hdone⟩
    obtain ⟨hS, hV, hA, hP⟩ := begun_cleared (s.core x.lane) i x
    have hcore : ((s.atStart x).sliceBegun i x).core x.lane = (s.core x.lane).begun i x :=
      (sliceBegun_core_same _ _ _).trans (congrArg (fun l => LaneSt.begun l i x) (atStart_core _ _ _))
    obtain ⟨hshown, hcontext, hshows⟩ := sliceBegun_status (s.atStart x) i x i.isLt
    refine ⟨_, (onMain_run (fun s => s.sliceStart i) hr).trans (congrArg _ (sliceStart_plain hdue hst)), ?_⟩
    dsimp only
    rw [hcore]
    refine ⟨rfl, rfl, rfl, rfl, rfl, rfl, rfl, rfl, hS, hV, hA, hP, fun j hj => ?_, ?_, fun a ha => ?_, hshown, hcontext,
      hshows, fun hlag => ?_, ?_⟩
    · exact (sliceBegun_core_ne _ _ _ hj).trans (atStart_core _ _ j)
    · exact (sliceBegun_ctxs _ _ _).trans (congrArg EngSt.ctxs (at_eng _ _))
    · exact (sliceBegun_reg _ _ _ ha).trans (at_reg _ _ a)
    · have hnow : ((s.atStart x).sliceBegun i x).now = (s.atStart x).now := congrArg TimeSt.now (sliceBegun_tm _ _ _)
      rw [hnow, State.atStart, at_of_running hlag]
      exact le_max_right _ _
    · exact (sliceBegun_mem _ _ _).trans (at_mem _ _)
  case overlay =>
    intro s i t x tile slot hr hsched hslice hst htile hslot hlane hctx64 hrun hphase hhalt hwf hctx hbusy hdone
    have hdue : SliceDue s i x := ⟨⟨t, hsched, hslice⟩, hrun, hphase, hhalt, hctx, hbusy, hdone⟩
    refine ⟨fun hw => ?_, fun hw hg => ?_⟩
    · have hcore := sliceBegun_core_same ((s.atStart x).stageTile true x.lane tile slot) i x
      obtain ⟨hwords, hbytes, hshown, hcount⟩ := staged_reads (i := i) hwf htile hslot
      refine ⟨_, (onMain_run (fun s => s.sliceStart i) hr).trans (congrArg _ (sliceStart_staged hdue hst hw)), ?_⟩
      dsimp only
      rw [hcore]
      exact ⟨rfl, rfl, rfl, rfl, stageTile_slot _ _ _ _, hwords, hbytes, hshown, hcount⟩
    · exact ⟨_, (onMain_run (fun s => s.sliceStart i) hr).trans (congrArg _ (sliceStart_failed hdue hst hw)),
        failed_record (by omega) hctx64 hbusy hg⟩
  case budget =>
    intro s n hr hbusy hhalt hk hg
    have hg' : (((s.sliceStopped n).raiseDev 16 ((s.core n).ctx + n * 0x1000)).ctx (s.core n).ctx).group ≠ .discarded := by
      rw [ctx_congr (congrArg EngSt.ctxs (raiseDev_eng _ _ (by decide))), sliceStopped_group]
      exact hg
    have hd : Touches {R.CTX_LAST_ABORT (s.core n).ctx} ((s.sliceStopped n).raiseDev 16 ((s.core n).ctx + n * 0x1000)) _ :=
      touches_discard 2 0 (.refl _ _) hk rfl
    have hraise : Touches {R.CTX_LAST_ABORT (s.core n).ctx} (s.sliceStopped n) _ :=
      (Touches.refl _ _).raiseDev (src := 16) (payload := (s.core n).ctx + n * 0x1000) (by decide)
    refine ⟨_, (onMain_run (fun s => s.budgetExpiry n) hr).trans (congrArg _ (budgetExpiry_eq hbusy hhalt)), ?_,
      discard_group _ _ _ _, discard_cause 2 0 hg' hk (by decide), ?_, hd.pend 16 (by decide) (raiseDev_pending _ _ (by decide)),
      discard_pending 2 0 hg', ?_⟩
    · rw [core_congr (discard_lanes _ _ _ _), core_congr (congrArg EngSt.lanes (raiseDev_eng _ _ (by decide)))]
      exact sliceStopped_busy s n
    · rw [(hraise.trans' hd).f (not_evtReg_of_lt (by dsimp only; omega)) (by simp [R.CTX_LAST_ABORT])]
      exact sliceStopped_count s n
    · exact (hraise.trans' hd).mem.trans (sliceStopped_mem s n)

end Sys2Proof.Machine

/-! # Instructions that write an S or a P register (O10, O11, O16)

Each instruction is its operation on the operands, executed to its end (`writesS_of`, `writesP_of`); what remains is that the
operation is the one of the rules. -/

namespace Sys2Proof.Machine

section Writes

variable {i : Instr} {s : State} {c : Proc} {on : Cores} {n : Nat} {p : BitVec 3} {ok : Bool} {d : BitVec 5}

/-- An instruction whose effect writes an S register, by what its operation gives. -/
theorem writesS_of {f : LaneSt → Fl} {v : Word} {fl : Flags} (hm : (predOf s c p).getLsbD 0 = true) (h : CanRun s c n)
    (hx : Machine.exec i s = onMain s fun s => s.instr c on .scalar n p ok (Effect.s c d f))
    (hv : f (coreOf s c) = ⟨v, fl⟩) (hok : (on.has c && ok) = true := by rfl) (hn : 0 < n := by decide) :
    WritesS i s c n d v fl := by
  unfold WritesS
  rw [hx, onMain_s s c on n p ok d f h hn hok hm, hv]

/-- An instruction whose effect writes a P register, by what its operation gives. -/
theorem writesP_of {f : LaneSt → BitVec 8} {v : BitVec 8} (hm : (predOf s c p).getLsbD 0 = true) (h : CanRun s c n)
    (hx : Machine.exec i s = onMain s fun s => s.instr c on .scalar n p ok (Effect.p c d f))
    (hv : f (coreOf s c) = v) (hok : (on.has c && ok) = true := by rfl) (hn : 0 < n := by decide) :
    WritesP i s c n d v := by
  unfold WritesP
  rw [hx, onMain_p s c on n p ok d f h hn hok hm, hv]

end Writes

/-! ## Integer arithmetic (R77) -/

theorem shiftAmount (y : Word) : (y.setWidth 5).toNat = y.toNat % 32 := BitVec.toNat_setWidth ..

theorem ofInt_min (x y : Word) : (if y.slt x then y else x) = BitVec.ofInt 32 (min x.toInt y.toInt) := by
  rw [BitVec.slt_eq_decide]
  by_cases h : y.toInt < x.toInt
  · rw [if_pos (decide_eq_true h), min_eq_right h.le, BitVec.ofInt_toInt]
  · rw [if_neg (by simpa using h), min_eq_left (not_lt.1 h), BitVec.ofInt_toInt]

theorem ofInt_max (x y : Word) : (if x.slt y then y else x) = BitVec.ofInt 32 (max x.toInt y.toInt) := by
  rw [BitVec.slt_eq_decide]
  by_cases h : x.toInt < y.toInt
  · rw [if_pos (decide_eq_true h), max_eq_right h.le, BitVec.ofInt_toInt]
  · rw [if_neg (by simpa using h), max_eq_left (not_lt.1 h), BitVec.ofInt_toInt]

theorem sshiftRight_eq_ofInt (x : Word) (k : Nat) : x.sshiftRight k = BitVec.ofInt 32 (x.toInt / 2 ^ k) := by
  unfold BitVec.sshiftRight
  rw [Int.shiftRight_eq_div_pow]
  push_cast
  rfl

theorem mul_eq_ofInt (x y : Word) : x * y = BitVec.ofInt 32 (x.toInt * y.toInt) := by
  rw [BitVec.ofInt_mul, BitVec.ofInt_toInt, BitVec.ofInt_toInt]

theorem mulHigh_eq (x y : Word) : mulHigh x y = BitVec.ofInt 32 (x.toInt * y.toInt / 2 ^ 32) := by
  have hp : (x.signExtend 64 * y.signExtend 64).toNat = ((x.toInt * y.toInt) % 2 ^ 64).toNat := by
    rw [BitVec.signExtend, BitVec.signExtend, ← BitVec.ofInt_mul, BitVec.toNat_ofInt]
    rfl
  apply BitVec.eq_of_toNat_eq
  unfold mulHigh
  rw [BitVec.extractLsb'_toNat, hp, BitVec.toNat_ofInt, Nat.shiftRight_eq_div_pow]
  generalize x.toInt * y.toInt = z
  omega

/-- The clamp to a `w`-bit number cuts as `cutTo` does. -/
theorem cutTo_eq_clampInt (w : Nat) (i : Int) :
    cutTo w i = (clampInt (-2 ^ (w - 1)) (2 ^ (w - 1) - 1) i,
      decide (clampInt (-2 ^ (w - 1)) (2 ^ (w - 1) - 1) i ≠ i)) := by
  have hp : (0 : Int) < 2 ^ (w - 1) := by positivity
  unfold cutTo clampInt
  generalize (2 : Int) ^ (w - 1) = m at hp
  split
  · rw [max_eq_left (by omega)]
    simp only [Prod.mk.injEq, true_and]
    exact (decide_eq_true (by omega)).symm
  · split
    · rw [min_eq_left (by omega), max_eq_right (by omega)]
      simp only [Prod.mk.injEq, true_and]
      exact (decide_eq_true (by omega)).symm
    · rw [min_eq_right (by omega), max_eq_right (by omega)]
      simp

theorem satIf_ne (a b : Int) : satIf (decide (a ≠ b)) = if a = b then 0 else flSat := by
  unfold satIf
  by_cases h : a = b <;> simp [h]

theorem satWord_eq (i : Int) : satWord i = ⟨BitVec.ofInt 32 (cutTo 32 i).1, satIf (cutTo 32 i).2⟩ := by
  rw [cutTo_eq_clampInt, satIf_ne]
  rfl

theorem satHalf_eq (i : Int) : satHalf i = (BitVec.ofInt 16 (cutTo 16 i).1, satIf (cutTo 16 i).2) := by
  rw [cutTo_eq_clampInt, satIf_ne]
  rfl

theorem satWord_of_fits {w : Word} {i : Int} (h : w.toInt = i) : satWord i = ⟨BitVec.ofInt 32 i, 0⟩ := by
  have hlo := BitVec.le_toInt w
  have hhi := BitVec.toInt_lt (x := w)
  have hc : clampInt (-0x80000000) 0x7FFFFFFF i = i := by
    unfold clampInt
    rw [min_eq_right (by omega), max_eq_right (by omega)]
  unfold satWord
  simp only [hc, if_true]

/-- The one quotient that does not fit is −2³¹ by −1. -/
theorem satWord_tdiv (x y : Word) : satWord (x.toInt.tdiv y.toInt) =
    ⟨if x = 0x80000000 ∧ y = 0xFFFFFFFF then 0x7FFFFFFF else BitVec.ofInt 32 (x.toInt.tdiv y.toInt),
      satIf (decide (x = 0x80000000 ∧ y = 0xFFFFFFFF))⟩ := by
  by_cases h : x = 0x80000000 ∧ y = 0xFFFFFFFF
  · obtain ⟨rfl, rfl⟩ := h
    rfl
  · have hfit : (x.sdiv y).toInt = x.toInt.tdiv y.toInt :=
      BitVec.toInt_sdiv_of_ne_or_ne x y (not_and_or.1 h)
    rw [satWord_of_fits hfit, if_neg h, decide_eq_false h]
    rfl

/-- Settles O10: each instruction is its operation on the operands, executed to its end. -/
theorem integerResults : Obligations.IntegerResults := by
  intro s c p d a b hm x y
  refine ⟨fun h => ?one, fun h => ?two, fun h => ?twelve⟩
  case one =>
    refine ⟨writesS_of hm h rfl rfl, writesS_of hm h rfl rfl, writesS_of hm h rfl rfl, writesS_of hm h rfl rfl,
      writesS_of hm h rfl rfl, writesS_of hm h rfl ?_, writesS_of hm h rfl ?_, writesS_of hm h rfl ?_,
      writesS_of hm h rfl ?_, writesS_of hm h rfl ?_, writesS_of hm h rfl ?_, writesS_of hm h rfl ?_,
      writesS_of hm h rfl (satWord_eq _), writesS_of hm h rfl (satWord_eq _)⟩
    · rw [shiftAmount]
    · rw [shiftAmount]
    · rw [shiftAmount, sshiftRight_eq_ofInt]
    · simp only [BitVec.slt_eq_decide, decide_eq_true_eq]; rfl
    · simp only [BitVec.ult_eq_decide, decide_eq_true_eq]; rfl
    · rw [ofInt_min]
    · rw [ofInt_max]
  case two => exact ⟨writesS_of hm h rfl (congrArg (Fl.mk · 0) (mul_eq_ofInt x y)), writesS_of hm h rfl (congrArg (Fl.mk · 0) (mulHigh_eq x y))⟩
  case twelve =>
    refine ⟨fun hy => ⟨writesS_of hm h rfl (if_pos hy), writesS_of hm h rfl (if_pos hy)⟩, fun hy => ⟨?_, ?_⟩⟩
    · exact writesS_of hm h rfl ((if_neg hy).trans (satWord_tdiv x y))
    · exact writesS_of hm h rfl (if_neg hy)

/-! ## Immediates and compares (R78, R82) -/

theorem immS_eq (i : BitVec 13) : immS i = BitVec.ofInt 32 i.toInt := rfl

theorem setWidth_eq_ofNat {w : Nat} (x : BitVec w) : x.setWidth 32 = BitVec.ofNat 32 x.toNat :=
  BitVec.eq_of_toNat_eq (by rw [BitVec.toNat_setWidth, BitVec.toNat_ofNat])

theorem shiftLeft_eq_ofNat (x : Word) (k : Nat) : x <<< k = BitVec.ofNat 32 (x.toNat * 2 ^ k) :=
  BitVec.eq_of_toNat_eq (by rw [BitVec.toNat_shiftLeft, Nat.shiftLeft_eq, BitVec.toNat_ofNat])

theorem ushiftRight_eq_ofNat (x : Word) (k : Nat) : x >>> k = BitVec.ofNat 32 (x.toNat / 2 ^ k) :=
  BitVec.eq_of_toNat_eq (by
    rw [BitVec.toNat_ushiftRight, Nat.shiftRight_eq_div_pow, BitVec.toNat_ofNat, Nat.mod_eq_of_lt]
    exact (Nat.div_le_self _ _).trans_lt x.isLt)

theorem luiWord_eq (i : BitVec 18) : (i.setWidth 32) <<< 14 = BitVec.ofNat 32 (i.toNat * 2 ^ 14) := by
  rw [shiftLeft_eq_ofNat, BitVec.toNat_setWidth, Nat.mod_eq_of_lt (by omega)]

theorem immediates : immediateResults := by
  intro s c p d a imm amt hi lo hm h x
  have hs : ∀ {v w : Word}, v = w → (⟨v, 0⟩ : Fl) = ⟨w, 0⟩ := fun h => congrArg (Fl.mk · 0) h
  exact ⟨writesS_of hm h rfl rfl, writesS_of hm h rfl (hs (congrArg (x &&& ·) (setWidth_eq_ofNat imm))),
    writesS_of hm h rfl (hs (congrArg (x ||| ·) (setWidth_eq_ofNat imm))),
    writesS_of hm h rfl (hs (congrArg (x ^^^ ·) (setWidth_eq_ofNat imm))),
    writesS_of hm h rfl (hs (shiftLeft_eq_ofNat _ _)), writesS_of hm h rfl (hs (ushiftRight_eq_ofNat _ _)),
    writesS_of hm h rfl (hs (sshiftRight_eq_ofInt _ _)), writesS_of hm h rfl (hs (luiWord_eq hi)),
    writesS_of hm h rfl (hs (congrArg (_ ||| ·) (setWidth_eq_ofNat lo)))⟩

/-- The byte of a compare, whose condition the statement writes as a proposition. -/
theorem truth_eq {b : Bool} {q : Prop} [Decidable q] (h : b = true ↔ q) : truth b = if q then 0xFF else 0 := by
  unfold truth
  exact if_congr h rfl rfl

theorem truth_ne {b : Bool} {q : Prop} [Decidable q] (h : b = false ↔ q) : truth b = if q then 0 else 0xFF := by
  cases b <;> simp_all [truth]

theorem compares : compareResults := by
  intro s c p d a b hm h hd x y nan
  have slt : ∀ v w : Word, v.slt w = true ↔ v.toInt < w.toInt := fun v w => by simp [BitVec.slt_eq_decide]
  have ult : ∀ v w : Word, v.ult w = true ↔ v.toNat < w.toNat := fun v w => by simp [BitVec.ult_eq_decide]
  refine ⟨writesP_of hm h rfl (truth_eq beq_iff_eq) hd, writesP_of hm h rfl (truth_ne bne_eq_false_iff_eq) hd,
    writesP_of hm h rfl (truth_eq (slt x y)) hd, writesP_of hm h rfl (truth_eq ?_) hd,
    writesP_of hm h rfl (truth_eq (ult x y)) hd, writesP_of hm h rfl (truth_eq ?_) hd,
    writesP_of hm h rfl (truth_eq ?_) hd, writesP_of hm h rfl (truth_eq ?_) hd, writesP_of hm h rfl (truth_eq ?_) hd,
    writesP_of hm h rfl (truth_eq Iff.rfl) hd, writesP_of hm h rfl (truth_ne bne_eq_false_iff_eq) hd,
    fun ha => writesP_of hm h rfl rfl ?_, fun ha hb => ⟨writesP_of hm h rfl rfl ?_, writesP_of hm h rfl rfl ?_,
      writesP_of hm h rfl rfl ?_⟩⟩
  · rw [Bool.not_eq_true', ← Bool.not_eq_true, slt, not_lt]
  · rw [Bool.not_eq_true', ← Bool.not_eq_true, ult, not_lt]
  · simp only [fEq, nan, Bool.not_or]; rfl
  · simp only [fLt, nan, Bool.not_or]; rfl
  · simp only [fLe, nan, Bool.not_or]; rfl
  all_goals simp [*]

/-- Settles O16: immediates and compares apart. -/
theorem immediateAndCompareResults : Obligations.ImmediateAndCompareResults := ⟨immediates, compares⟩

/-! ## Scalar floating point (R78, R80) -/

theorem fAbs_eq (x : F32) : fAbs x = BitVec.ofNat 32 (x.toNat % 2 ^ 31) := by
  apply BitVec.eq_of_toNat_eq
  have h : x.toNat &&& (2 ^ 31 - 1) = x.toNat % 2 ^ 31 := Nat.and_two_pow_sub_one_eq_mod _ _
  rw [BitVec.toNat_ofNat, Nat.mod_eq_of_lt (by omega), ← h]
  rfl

theorem xor_two_pow_of_lt {x k : Nat} (h : x < 2 ^ k) : x ^^^ 2 ^ k = x + 2 ^ k := by
  rw [Nat.add_comm, ← mul_one (2 ^ k), Nat.two_pow_add_eq_or_of_lt h, mul_one]
  apply Nat.eq_of_testBit_eq
  intro i
  rw [Nat.testBit_xor, Nat.testBit_or, Nat.testBit_two_pow]
  by_cases hi : k = i
  · subst hi
    simp [Nat.testBit_lt_two_pow h]
  · simp [hi]

/-- The sign bit inverted is the sign bit added. -/
theorem fNeg_eq (x : F32) : fNeg x = BitVec.ofNat 32 (x.toNat + 2 ^ 31) := by
  have h : x.toNat ^^^ 2 ^ 31 = (x.toNat + 2 ^ 31) % 2 ^ 32 := by
    have hlt := x.isLt
    obtain hx | hx := Nat.lt_or_ge x.toNat (2 ^ 31)
    · rw [xor_two_pow_of_lt hx, Nat.mod_eq_of_lt (by omega)]
    · obtain ⟨y, hy⟩ := Nat.exists_eq_add_of_le' hx
      rw [hy, ← xor_two_pow_of_lt (by omega), Nat.xor_assoc, Nat.xor_self, Nat.xor_zero,
        xor_two_pow_of_lt (by omega)]
      omega
  apply BitVec.eq_of_toNat_eq
  rw [BitVec.toNat_ofNat, ← h]
  rfl

theorem clampF_eq (z x y : F32) : clampF z x y = ⟨if fIsNan z then canonNan else fMin (fMax z x) y,
    satIf (!fIsNan z && fMin (fMax z x) y != fNorm z)⟩ := by
  unfold clampF satIf
  cases hz : fIsNan z
  · by_cases he : fMin (fMax z x) y = fNorm z <;> simp [he]
  · rfl

theorem toQWord_eq (x : F32) (n : Nat) : toQWord x n = ⟨BitVec.ofInt 32 (fToFixed (-2 ^ 15) (2 ^ 15 - 1) n x).1,
    satIf (fToFixed (-2 ^ 15) (2 ^ 15 - 1) n x).2⟩ := rfl

theorem ofQWord_eq (x : Word) (n : Nat) : ofQWord x n = fOfInt (elemH (x.setWidth 128) 0).toInt (-(n : Int)) := by
  have h : x.extractLsb' 0 16 = elemH (x.setWidth 128) 0 := by
    unfold elemH
    ext i hi
    simp
    omega
  rw [← h]
  rfl

/-- Settles O11: every instruction is its operation of R78 or R80. -/
theorem scalarFloatResults : Obligations.ScalarFloatResults := by
  intro s c p d a b hm x y z
  have hs : ∀ {v w : Word}, v = w → (⟨v, 0⟩ : Fl) = ⟨w, 0⟩ := fun h => congrArg (Fl.mk · 0) h
  refine ⟨fun h => ?one, fun h => ?two, fun h => writesS_of hm h rfl rfl,
    fun h => ⟨writesS_of hm h rfl rfl, writesS_of hm h rfl rfl⟩⟩
  case one =>
    exact ⟨writesS_of hm h rfl (hs (fAbs_eq x)), writesS_of hm h rfl (hs (fNeg_eq x)), writesS_of hm h rfl rfl⟩
  case two =>
    refine ⟨writesS_of hm h rfl rfl, writesS_of hm h rfl rfl, writesS_of hm h rfl rfl, writesS_of hm h rfl rfl,
      writesS_of hm h rfl rfl, writesS_of hm h rfl (clampF_eq z x y), writesS_of hm h rfl rfl, writesS_of hm h rfl rfl,
      fun hb => ?_⟩
    have hb' : (Cores.has .A c && decide (b.toNat < 16)) = true := by simpa using hb
    exact ⟨writesS_of hm h rfl (toQWord_eq x _) hb', writesS_of hm h rfl (hs (ofQWord_eq x _)) hb'⟩

end Sys2Proof.Machine

/-! # Instructions that write a V register or compare elements (O13, O14) -/

namespace Sys2Proof.Machine

section Writes

variable {i : Instr} {s : State} {c : Proc} {on : Cores} {n : Nat} {p : BitVec 3} {ok : Bool} {d : BitVec 5}

/-- An instruction whose effect writes the permitted fp32 elements of a V register, by what it gives for each. -/
theorem writesV_of {f : LaneSt → VWord} {fs : LaneSt → Nat → BitVec 3} {v : Nat → F32} {fl : Nat → Flags}
    (hm : Pred.any .f32 (predOf s c p) = true) (h : CanRun s c n)
    (hx : Machine.exec i s = onMain s fun s => s.instr c on .f32 n p ok (Effect.v c p d f fs))
    (hv : ∀ j < 4, elemF (f (coreOf s c)) j = v j) (hfl : ∀ j, fs (coreOf s c) j = fl j)
    (hok : (on.has c && ok) = true) (hn : 0 < n := by decide) : WritesV i s c n p d v fl := by
  obtain rfl := funext hfl
  exact ⟨_, hx.trans (onMain_v s c on n p ok d f fs h hn hok hm), fun j hj => by rw [elemF_mergeF _ _ _ hj, hv j hj]⟩

/-- As `writesV_of`, for int16 elements. -/
theorem writesH_of {f : LaneSt → Nat → BitVec 16 × BitVec 3} {v : Nat → BitVec 16} {fl : Nat → Flags}
    (hm : Pred.any .h16 (predOf s c p) = true) (h : CanRun s c n)
    (hx : Machine.exec i s = onMain s fun s => s.instr c on .h16 n p ok (Effect.h c p d f))
    (hv : ∀ j, f (coreOf s c) j = (v j, fl j)) (hok : (on.has c && ok) = true) (hn : 0 < n := by decide) :
    WritesH i s c n p d v fl := by
  obtain rfl : (fun j => (f (coreOf s c) j).2) = fl := funext fun j => congrArg Prod.snd (hv j)
  exact ⟨_, hx.trans (onMain_h s c on n p ok d f h hn hok hm), fun j hj => by
    rw [elemH_mergeH _ _ _ hj, elemH_vecOfH _ hj, hv j]⟩

end Writes

/-! ## Vector compares -/

theorem testBit_mod_four (x : Nat) {k : Nat} (hk : k < 2) : (x % 4).testBit k = x.testBit k := by
  have h := Nat.testBit_mod_two_pow x 2 k
  rwa [decide_eq_true hk, Bool.true_and] at h

/-- The byte of four two-bit digits. -/
theorem getLsbD_ofNat_digits {g : Nat → Nat} (hg : ∀ i, g i < 4) {j k : Nat} (hj : j < 4) (hk : k < 2) :
    (BitVec.ofNat 8 ((List.range 4).foldl (fun a i => a + g i * 4 ^ i) 0)).getLsbD (2 * j + k) = (g j).testBit k := by
  have hsum : (List.range 4).foldl (fun a i => a + g i * 4 ^ i) 0 / 2 ^ (2 * j) % 4 = g j := by
    have h0 := hg 0
    have h1 := hg 1
    have h2 := hg 2
    have h3 := hg 3
    simp only [List.range, List.range.loop, List.foldl_cons, List.foldl_nil]
    interval_cases j <;> omega
  rw [BitVec.getLsbD_ofNat, decide_eq_true (by omega), Bool.true_and, Nat.add_comm, Nat.testBit_add, ← hsum,
    testBit_mod_four _ hk]

theorem testBit_digit (x : BitVec 8) (j : Nat) {k : Nat} (hk : k < 2) :
    (x.toNat / 4 ^ j % 4).testBit k = x.getLsbD (2 * j + k) := by
  rw [testBit_mod_four _ hk, ← BitVec.testBit_toNat, Nat.add_comm (2 * j),
    Nat.testBit_add, Nat.pow_mul]

/-- Both bits of a permitted element show the compare, those of every other keep their value. -/
theorem vecCompare_writesP {i : Instr} {s : State} {c : Proc} {p : BitVec 3} {d : BitVec 5} {f : LaneSt → Nat → Bool}
    {ok : Bool} {g : Nat → Bool} (hm : Pred.any .f32 (predOf s c p) = true) (h : CanRun s c 2)
    (hx : Machine.exec i s = onMain s fun s => s.instr c .L .f32 2 p ok (vecCompare c p d f))
    (hg : ∀ j, f (coreOf s c) j = g j) (hok : (Cores.has .L c && ok) = true) :
    ∃ x : BitVec 8, WritesP i s c 2 d x ∧ ∀ j < 4, ∀ k < 2, x.getLsbD (2 * j + k) =
      if permF (predOf s c p) j then g j else ((coreOf s c).getP d).getLsbD (2 * j + k) := by
  obtain rfl := funext hg
  refine ⟨_, hx.trans (onMain_instr s c .L .f32 2 p ok _ h (by decide) hok hm rfl), fun j hj k hk => ?_⟩
  refine (getLsbD_ofNat_digits (fun i => ?_) hj hk).trans ?_
  · split
    · split <;> decide
    · exact Nat.mod_lt _ (by decide)
  · change (if permF (predOf s c p) j then _ else _ : Nat).testBit k = _
    split
    · interval_cases k <;> cases f (coreOf s c) j <;> rfl
    · exact testBit_digit _ j hk

theorem mulqHalf_eq (a b : BitVec 16) :
    mulqHalf a b = (BitVec.ofInt 16 (cutTo 16 ((a.toInt * b.toInt + 0x4000) / 2 ^ 15)).1,
      satIf (cutTo 16 ((a.toInt * b.toInt + 0x4000) / 2 ^ 15)).2) := satHalf_eq _

/-- Settles O13: an instruction of fp32 elements, a compare or an instruction of int16 elements. -/
theorem vectorResults : Obligations.VectorResults := by
  intro s n p d a b ha hb c u v w pb
  refine ⟨fun hm h => ?dot, fun hm hd h => ?_, fun hm hd h => ?_, fun hm hd h => ?_, fun hm hd => ⟨fun h => ?_, fun h => ?_⟩⟩
  case dot => exact writesS_of hm h rfl rfl (by rw [ha, hb]; rfl)
  all_goals
    have hok : ∀ x : Bool, x = true → (Cores.has .L c && (x && okV a && okV b)) = true := fun x hx => by rw [ha, hb, hx]; rfl
  · exact ⟨writesV_of hm h rfl (fun j hj => elemF_vecOfF _ hj) (fun _ => rfl) (hok _ hd),
      writesV_of hm h rfl (fun j hj => elemF_vecOfF _ hj) (fun _ => rfl) (hok _ hd),
      writesV_of hm h rfl (fun j hj => elemF_vecOfF _ hj) (fun _ => rfl) (hok _ hd),
      writesV_of hm h rfl (fun j hj => elemF_vecOfF _ hj) (fun _ => rfl) (hok _ hd),
      writesV_of hm h rfl (fun j hj => elemF_vecOfF _ hj) (fun _ => rfl) (hok _ hd)⟩
  · exact writesV_of hm h rfl (fun j hj => elemF_vecOfF _ hj) (fun _ => rfl) (hok _ hd)
  · exact ⟨vecCompare_writesP hm h rfl (fun _ => rfl) (hok _ hd), vecCompare_writesP hm h rfl (fun _ => rfl) (hok _ hd)⟩
  · exact ⟨writesH_of hm h rfl (fun j => satHalf_eq _) (hok _ hd), writesH_of hm h rfl (fun j => satHalf_eq _) (hok _ hd)⟩
  · exact writesH_of hm h rfl (fun j => mulqHalf_eq _ _) (hok _ hd)

/-! ## Moves -/
theorem selDigit (sel : BitVec 8) {j : Nat} : (sel.extractLsb' (2 * j) 2).toNat = sel.toNat / 4 ^ j % 4 := by
  rw [BitVec.extractLsb'_toNat, Nat.shiftRight_eq_div_pow, Nat.pow_mul]

theorem toHalf_eq (w : F32) : toHalf w = (BitVec.ofInt 16 (fToFixed (-2 ^ 15) (2 ^ 15 - 1) 15 w).1,
    satIf (fToFixed (-2 ^ 15) (2 ^ 15 - 1) 15 w).2) := by
  have hc : ∀ i : Int, BitVec.ofNat 16 (i % 2 ^ 16).toNat = BitVec.ofInt 16 i := fun i =>
    BitVec.eq_of_toNat_eq (by rw [BitVec.toNat_ofNat, BitVec.toNat_ofInt]; omega)
  exact congrArg (Prod.mk · _) (hc _)

/-- Settles O14: the elements that each move or conversion gives. -/
theorem vectorMoveResults : Obligations.VectorMoveResults := by
  intro s n p d a b sel c u pb
  refine ⟨fun hm ha hb h => ?_, fun hm hd h => ⟨?_, fun hb => ?_, fun ha => ?_⟩, fun ha hd h => ⟨fun hm => ?_, fun hm => ?_⟩⟩
  · exact writesS_of hm h rfl rfl (by rw [ha, decide_eq_true hb]; rfl)
  · exact writesV_of hm h rfl (fun j hj => elemF_vecOfF _ hj) (fun _ => rfl) hd
  · exact writesV_of hm h rfl (fun j hj => elemF_vecOfF _ hj) (fun _ => rfl) (by rw [hd, decide_eq_true hb]; rfl)
  · refine writesV_of hm h rfl (fun j hj => (elemF_vecOfF _ hj).trans ?_) (fun _ => rfl) (by rw [hd, ha]; rfl)
    rw [selDigit]
  · exact writesV_of hm h rfl (fun j hj => elemF_vecOfF _ hj) (fun _ => rfl) (by rw [hd, ha]; rfl)
  · refine writesH_of hm h rfl (fun j => ?_) (by rw [hd, ha]; rfl)
    split
    · exact toHalf_eq _
    · rfl
end Sys2Proof.Machine

/-! # Drive instructions (O15) -/

namespace Sys2Proof.Machine

theorem elemF_vecF (e0 e1 e2 e3 : F32) {j : Nat} (h : j < 4) :
    elemF (vecF e0 e1 e2 e3) j = if j = 0 then e0 else if j = 1 then e1 else if j = 2 then e2 else e3 :=
  elemF_vecOfF (fun j => if j = 0 then e0 else if j = 1 then e1 else if j = 2 then e2 else e3) h

/-- A drive instruction, by the four elements and the flags of its operation. -/
theorem writesV_drive {i : Instr} {s : State} {c : Proc} {n : Nat} {p : BitVec 3} {ok : Bool} {d : BitVec 5}
    {f : LaneSt → VWord × BitVec 3} {e0 e1 e2 e3 : F32} {fl : Flags} {v : Nat → F32}
    (hm : Pred.any .f32 (predOf s c p) = true) (h : CanRun s c n)
    (hx : Machine.exec i s = onMain s fun s => s.instr c .L .f32 n p ok (Effect.drive c p d f))
    (hf : f (coreOf s c) = (vecF e0 e1 e2 e3, fl)) (hok : (Cores.has .L c && ok) = true)
    (hv : ∀ j < 4, (if j = 0 then e0 else if j = 1 then e1 else if j = 2 then e2 else e3) = v j := by
      intro j hj; interval_cases j <;> rfl) (hn : 0 < n := by decide) :
    WritesV i s c n p d v fun _ => fl :=
  writesV_of hm h hx (fun j hj => by rw [hf, elemF_vecF _ _ _ _ hj, hv j hj]) (fun _ => by rw [hf]) hok hn

/-! ## Transforms by an angle (R89, R90) -/

section Angle

variable (a b : F32) {th : F32}

theorem park_finite (hn : fIsNan th = false) (hi : fIsInf th = false) : park a b th =
    (((fl a).mul (fl (fCos th))).add ((fl b).mul (fl (fSin th))),
      ((fl (fNeg a)).mul (fl (fSin th))).add ((fl b).mul (fl (fCos th)))) := by
  simp [park, hn, hi]

theorem ipark_finite (hn : fIsNan th = false) (hi : fIsInf th = false) : ipark a b th =
    (((fl a).mul (fl (fCos th))).sub ((fl b).mul (fl (fSin th))),
      ((fl a).mul (fl (fSin th))).add ((fl b).mul (fl (fCos th)))) := by
  simp [ipark, hn, hi]

theorem fIsNan_of_inf (hi : fIsInf th = true) : fIsNan th = false := by
  unfold fIsInf at hi
  unfold fIsNan
  split at hi
  next h => rw [h]; rfl
  next => cases hi

theorem park_inf (hi : fIsInf th = true) : park a b th = (⟨canonNan, flNan⟩, ⟨canonNan, flNan⟩) := by
  simp [park, hi, fIsNan_of_inf hi]

theorem ipark_inf (hi : fIsInf th = true) : ipark a b th = (⟨canonNan, flNan⟩, ⟨canonNan, flNan⟩) := by
  simp [ipark, hi, fIsNan_of_inf hi]

theorem park_nan (hn : fIsNan th = true) : park a b th = (fl canonNan, fl canonNan) := if_pos hn

theorem ipark_nan (hn : fIsNan th = true) : ipark a b th = (fl canonNan, fl canonNan) := if_pos hn

theorem sinCos_finite (hn : fIsNan th = false) (hi : fIsInf th = false) :
    sinCos th = (fl (fSin th), fl (fCos th), fl (fFrac th)) := by
  simp [sinCos, hn, hi]

theorem sinCos_inf (hi : fIsInf th = true) :
    sinCos th = (⟨canonNan, flNan⟩, ⟨canonNan, flNan⟩, ⟨canonNan, flNan⟩) := by
  simp [sinCos, hi, fIsNan_of_inf hi]

theorem sinCos_nan (hn : fIsNan th = true) : sinCos th = (fl canonNan, fl canonNan, fl canonNan) := if_pos hn

end Angle

theorem pairVec_eq {r : Fl × Fl} {x y : Fl} (h : r = (x, y)) (e2 e3 : F32) :
    pairVec r.1 r.2 e2 e3 = (vecF x.v y.v e2 e3, x.fl ||| y.fl) := by
  subst h; rfl

theorem sinCosVec_eq {r : Fl × Fl × Fl} {x y z : Fl} (h : r = (x, y, z)) :
    (vecF r.1.v r.2.1.v r.2.2.v 0, r.1.fl) = (vecF x.v y.v z.v 0, x.fl) := by
  subst h; rfl

theorem limitVec_eq {r : Fl × Fl × Bool} {x y : Fl} {b : Bool} (h : r = (x, y, b)) (e2 e3 : F32) :
    pairVec r.1 r.2.1 e2 e3 = (vecF x.v y.v e2 e3, x.fl ||| y.fl) := by
  subst h; rfl

/-! ## PI step and vector limit (R92, R93) -/

theorem piVec_nan {a b : VWord}
    (h : ∃ x ∈ [elemF a 0, elemF a 1, elemF a 2, elemF a 3, elemF b 0], fIsNan x = true) :
    piVec a b = (vecF canonNan (fNorm (elemF b 0)) 0 0, flNan) := by
  have hn : piStep (elemF a 0) (elemF a 1) (elemF a 2) (elemF a 3) (elemF b 0) (elemF b 1) (elemF b 2) = none := by
    refine if_pos ?_
    simpa [or_assoc] using h
  simp [piVec, hn]

theorem piVec_number {a b : VWord}
    (h : ∀ x ∈ [elemF a 0, elemF a 1, elemF a 2, elemF a 3, elemF b 0], fIsNan x = false) :
    let e := fun j => (⟨elemF a j, 0⟩ : Fl)
    let i := elemF b 0
    let lo := elemF b 1
    let hi := elemF b 2
    let k := (e 2).mul (e 0)
    let q := ((((e 1).mul (e 0)).add (fl i)).add k).add (e 3)
    let out := fMax lo (fMin q.v hi)
    let hold := (fLt hi q.v && fLt fZero (elemF a 0)) || (fLt q.v lo && fLt (elemF a 0) fZero)
    let i2 := if hold then fl i else (fl i).add k
    piVec a b = (vecF out (fMax lo (fMin i2.v hi)) (if fEq out q.v then 0 else fOne) 0,
      q.fl ||| i2.fl ||| satIf (!fEq out q.v)) := by
  intro e i lo hi k q out hold i2
  have hs : piStep (elemF a 0) (elemF a 1) (elemF a 2) (elemF a 3) i lo hi =
      some ⟨out, fMax lo (fMin i2.v hi), !fEq out q.v, q.fl ||| i2.fl ||| satIf (!fEq out q.v)⟩ := by
    refine if_neg ?_
    simpa [or_assoc] using h
  unfold piVec
  rw [hs]
  cases fEq out q.v <;> rfl

section Limit

variable {a b r : F32} (ha : fIsNan a = false) (hb : fIsNan b = false) (hr : fIsNan r = false)
include ha hb hr

/-- The bound with a negative one taken as 0, and the magnitude. -/
theorem vlim_within (h : fLt (if fLt r fZero then fZero else r)
      ((((fl a).mul (fl a)).add ((fl b).mul (fl b))).sqrt).v = false) :
    let m := (((fl a).mul (fl a)).add ((fl b).mul (fl b))).sqrt
    vlim a b r = (⟨fNorm a, m.fl⟩, ⟨fNorm b, m.fl⟩, false) := by
  intro m
  unfold vlim
  rw [if_neg (by simp [ha, hb, hr])]
  exact if_neg (by rw [fGt, h]; decide)

theorem vlim_beyond (h : fLt (if fLt r fZero then fZero else r)
      ((((fl a).mul (fl a)).add ((fl b).mul (fl b))).sqrt).v = true) :
    let m := (((fl a).mul (fl a)).add ((fl b).mul (fl b))).sqrt
    let k := (fl (if fLt r fZero then fZero else r)).div m
    vlim a b r = (⟨((fl a).mul k).v, ((fl a).mul k).fl ||| flSat⟩, ⟨((fl b).mul k).v, ((fl b).mul k).fl ||| flSat⟩, true) := by
  intro m k
  unfold vlim
  rw [if_neg (by simp [ha, hb, hr])]
  exact if_pos h

end Limit

theorem or_flag_or_flag (x y f : Flags) : (x ||| f) ||| (y ||| f) = x ||| y ||| f := by
  rw [BitVec.or_assoc x f, ← BitVec.or_assoc f y, BitVec.or_comm f y, BitVec.or_assoc y f, BitVec.or_self, BitVec.or_assoc]

theorem ran_word (s : State) (c : Proc) (n a : Nat) : (ran s c n).word a = s.word a :=
  congrArg (memWord · a) (ran_mem s c n)

/-- Settles O15: each instruction is its operation of R503; the special operands are its branches. -/
theorem driveResults : Obligations.DriveResults := by
  intro s n p d a b c u pb th e hd
  have hdv : ∀ {x : Bool}, x = true → (Cores.has .L c && (okV d && x)) = true := fun hx => by rw [hd, hx]; rfl
  refine ⟨fun hm => ⟨fun ha h => ?clarke, fun ha hn hi h => ?finite, fun ha hi h => ?inf, fun ha hn h => ?nan,
    fun hn h => ?sinCosNan, fun hn hi h => ?sinCos, fun ha hb h => ?pi,
    fun ha h => ⟨fun hb => ?svm, fun hx hy hr => ⟨fun hlt => ?beyond, fun hlt => ?within⟩⟩⟩, fun hm hb ho h => ?lut⟩
  case clarke => exact writesV_drive hm h rfl rfl (hdv ha)
  case finite =>
    exact ⟨writesV_drive hm h rfl (pairVec_eq (park_finite _ _ hn hi) _ _) (hdv ha),
      writesV_drive hm h rfl (pairVec_eq (ipark_finite _ _ hn hi) _ _) (hdv ha)⟩
  case inf =>
    exact ⟨writesV_drive hm h rfl (pairVec_eq (park_inf _ _ hi) _ _) (hdv ha),
      writesV_drive hm h rfl (pairVec_eq (ipark_inf _ _ hi) _ _) (hdv ha),
      writesV_drive hm h rfl (sinCosVec_eq (sinCos_inf hi)) hd⟩
  case nan =>
    exact ⟨writesV_drive hm h rfl (pairVec_eq (park_nan _ _ hn) _ _) (hdv ha),
      writesV_drive hm h rfl (pairVec_eq (ipark_nan _ _ hn) _ _) (hdv ha)⟩
  case sinCosNan =>
    exact writesV_drive hm h rfl (sinCosVec_eq (sinCos_nan hn)) hd
  case sinCos =>
    exact writesV_drive hm h rfl (sinCosVec_eq (sinCos_finite hn hi)) hd
  case pi =>
    have hok : (Cores.has .L c && (okV d && okV a && okV b)) = true := by rw [hd, ha, hb]; rfl
    exact ⟨fun hn => writesV_drive hm h rfl (piVec_nan hn) hok,
      fun hn => writesV_drive hm h rfl (piVec_number hn) hok⟩
  case svm =>
    exact writesV_drive hm h rfl rfl (by rw [hd, ha, decide_eq_true hb]; rfl)
  case beyond =>
    exact writesV_drive hm h rfl ((limitVec_eq (vlim_beyond hx hy hr hlt) _ _).trans
      (congrArg (Prod.mk _) (or_flag_or_flag _ _ flSat))) (hdv ha)
  case within =>
    exact writesV_drive hm h rfl ((limitVec_eq (vlim_within hx hy hr hlt) _ _).trans
      (congrArg (Prod.mk _) BitVec.or_self)) (hdv ha)
  case lut =>
    obtain ⟨t, ht⟩ := Option.ne_none_iff_exists'.1 ho
    refine (onMain_instr s c .L .scalar 8 p (okP b) _ h (by decide) hb hm (by rw [ht]; rfl)).trans ?_
    simp only [ht, ran_word]
    rfl

end Sys2Proof.Machine

/-! # Words that are whole or corrected, loads (O17) -/

namespace Sys2Proof.Machine

/-! ## SECDED (R48) -/

theorem tblGet_del_same {α : Type} (d : α) (t : Tbl α) (k : Nat) : tblGet d (tblDel t k) k = d := by
  induction t with
  | nil => rfl
  | cons e t ih =>
    obtain ⟨j, x⟩ := e
    by_cases h : k = j
    · subst h; simpa [tblDel] using ih
    · simpa [tblDel, tblGet, h] using ih

/-- The state once core `i` has corrected the word at `a`, a lane counting it. -/
def State.corrected (s : State) (i a : Nat) : State :=
  let t := { s with eng := { s.eng with ecc := tblDel s.eng.ecc (a / 8) } }
  if i < 8 then t.incSat (F.ENG_LANE_ECC_CNT_ecc_corr i) else t

/-- Words without an error are passed as they stand. -/
theorem eccAccess_passes {s : State} {i a n : Nat} (h : ∀ k < n, s.eccOf (a + 4 * k) ≠ 1 ∧ s.eccOf (a + 4 * k) ≠ 2) :
    s.eccAccess i a n = some s := by
  have hw : ∀ w ∈ ((List.range n).map fun k => (a + 4 * k) / 8).eraseDups,
      tblGet 0 s.eng.ecc w ≠ 1 ∧ tblGet 0 s.eng.ecc w ≠ 2 := by
    intro w hw
    obtain ⟨k, hk, rfl⟩ := List.mem_map.1 (List.mem_eraseDups.1 hw)
    exact h k (List.mem_range.1 hk)
  unfold State.eccAccess
  generalize ((List.range n).map fun k => (a + 4 * k) / 8).eraseDups = ws at hw
  dsimp only
  rw [if_neg (by simpa using fun w hm => (hw w hm).2)]
  refine congrArg some ?_
  induction ws with
  | nil => rfl
  | cons w ws ih =>
    rw [List.foldl_cons, if_neg (by simpa using (hw w List.mem_cons_self).1)]
    exact ih fun w' hw' => hw w' (List.mem_cons_of_mem w hw')

theorem eccAccess_whole {s : State} {i a n : Nat} (h : ∀ k < n, s.eccOf (a + 4 * k) = 0) : s.eccAccess i a n = some s :=
  eccAccess_passes fun k hk => by rw [h k hk]; decide

/-- A word with a single-bit error is corrected. -/
theorem eccAccess_single {s : State} {i a : Nat} (h : s.eccOf a = 1) : s.eccAccess i a 1 = some (s.corrected i a) := by
  have h' : tblGet 0 s.eng.ecc (a / 8) = 1 := h
  have hw : ((List.range 1).map fun k => (a + 4 * k) / 8).eraseDups = [a / 8] := by simp; rfl
  unfold State.eccAccess
  dsimp only
  rw [hw, if_neg (by simp [h']), List.foldl_cons, List.foldl_nil, if_pos (by simp [h'])]
  rfl

section Corrected

variable {s : State} (i : Nat) {a b : Nat}

theorem corrected_ecc : (s.corrected i a).eng.ecc = tblDel s.eng.ecc (a / 8) := by
  unfold State.corrected
  dsimp only
  split <;> rfl

theorem corrected_eccOf_same : (s.corrected i a).eccOf a = 0 := by
  unfold State.eccOf
  rw [corrected_ecc, tblGet_del_same]

theorem corrected_eccOf_ne (h : b / 8 ≠ a / 8) : (s.corrected i a).eccOf b = s.eccOf b := by
  unfold State.eccOf
  rw [corrected_ecc, tblGet_del_ne 0 _ h]

@[simp] theorem corrected_mem : (s.corrected i a).mem = s.mem := by
  unfold State.corrected
  dsimp only
  split <;> rfl

@[simp] theorem corrected_tm : (s.corrected i a).tm = s.tm := by
  unfold State.corrected
  dsimp only
  split <;> rfl

@[simp] theorem corrected_lanes : (s.corrected i a).eng.lanes = s.eng.lanes := by
  unfold State.corrected
  dsimp only
  split <;> rfl

/-- A lane counts what it corrects. -/
theorem corrected_count (h : i < 8) : (s.corrected i a).f (F.ENG_LANE_ECC_CNT_ecc_corr i) =
    min 0xFFFF (s.f (F.ENG_LANE_ECC_CNT_ecc_corr i) + 1) := by
  unfold State.corrected
  rw [if_pos h]
  unfold State.incSat
  rw [f_setF_read (by simp), Nat.mod_eq_of_lt]
  · rfl
  · exact (Nat.min_le_left _ _).trans_lt (show 65535 < 65536 by decide)

end Corrected

/-! ## The fetch -/

section Fetch

variable {s : State} {c : Proc}

/-- Address of a core's instruction word. -/
def fetchAt (s : State) (c : Proc) : Nat := slotBase (procIdx c) (coreOf s c).slot + 4 * (coreOf s c).word

/-- A core that is no lane, or whose instruction word has no single-bit error, corrects nothing. -/
theorem fetched_passes (h : procLane c = false ∨ s.eccOf (fetchAt s c) ≠ 1) :
    fetched s c = s.setCore (procIdx c) (coreOf s c) := by
  unfold fetched
  dsimp only
  split
  next hl =>
    have h1 : s.eccOf (fetchAt s c) ≠ 1 := h.resolve_left (by simp [hl])
    by_cases h2 : s.eccOf (fetchAt s c) = 2
    · have h2' : (s.setCore (procIdx c) (coreOf s c)).eccOf (fetchAt s c + 4 * 0) = 2 := h2
      have hn := eccAccess_broken (i := procIdx c) Nat.zero_lt_one h2'
      exact congrArg (Option.getD · _) hn
    · have hp : (s.setCore (procIdx c) (coreOf s c)).eccAccess (procIdx c) (fetchAt s c) 1 = some _ :=
        eccAccess_passes fun k hk => by
          obtain rfl : k = 0 := by omega
          exact ⟨h1, h2⟩
      exact congrArg (Option.getD · _) hp
  next => rfl

theorem fetched_single (hl : procLane c = true) (h : s.eccOf (fetchAt s c) = 1) :
    fetched s c = (s.setCore (procIdx c) (coreOf s c)).corrected (procIdx c) (fetchAt s c) := by
  have hs : (s.setCore (procIdx c) (coreOf s c)).eccAccess (procIdx c) (fetchAt s c) 1 = some _ := eccAccess_single h
  unfold fetched
  dsimp only
  rw [if_pos hl]
  exact congrArg (Option.getD · _) hs

/-- A fetch leaves the words it does not read as they are, and a word without an error. -/
theorem fetched_eccOf {b : Nat} (h : b / 8 ≠ fetchAt s c / 8 ∨ s.eccOf b = 0) : (fetched s c).eccOf b = s.eccOf b := by
  by_cases hf : procLane c = true ∧ s.eccOf (fetchAt s c) = 1
  · obtain ⟨hl, h1⟩ := hf
    have hne : b / 8 ≠ fetchAt s c / 8 := by
      refine h.elim id fun h0 he => ?_
      unfold State.eccOf at h0 h1
      rw [he, h1] at h0
      cases h0
    rw [fetched_single hl h1, corrected_eccOf_ne _ hne]
    rfl
  · rw [fetched_passes (by simpa [or_iff_not_imp_left] using hf)]
    rfl

theorem ran_eccOf_eq (s : State) (c : Proc) (n a : Nat) : (ran s c n).eccOf a = (fetched s c).eccOf a := by
  rw [ran_eq]
  rfl

/-- A word without an error has none after the fetch. -/
theorem ran_eccOf_whole {n a : Nat} (h : s.eccOf a = 0) : (ran s c n).eccOf a = 0 := by
  rw [ran_eccOf_eq, fetched_eccOf (Or.inr h), h]

end Fetch

/-! ## Loads of words (R83, R84) -/

section Loads

variable {s : State} {c : Proc} {p : BitVec 3} {d a : BitVec 5} {imm : BitVec 13}

/-- A permitted instruction whose effect raises no exception gives what its effect leaves. -/
theorem exec_of_effect {i : Instr} {on : Cores} {m : Pred} {n : Nat} {ok : Bool} {eff : Effect} {u : State}
    (hm : m.any (predOf s c p) = true) (h : CanRun s c n)
    (hx : Machine.exec i s = onMain s fun s => s.instr c on m n p ok eff)
    (he : eff (ran s c n) (coreOf s c) = (u, 0)) (hok : (on.has c && ok) = true := by rfl) (hn : 0 < n := by decide) :
    Machine.exec i s = .next u := by
  rw [hx, onMain_instr s c on m n p ok eff h hn hok hm (by rw [he]), he]

/-- An S register takes what a load reads. -/
theorem writesS_load {i : Instr} {on : Cores} {n : Nat} {ok : Bool} {eff : Effect} {v : Word}
    (hm : (predOf s c p).getLsbD 0 = true) (h : CanRun s c n)
    (hx : Machine.exec i s = onMain s fun s => s.instr c on .scalar n p ok eff)
    (he : eff (ran s c n) (coreOf s c) = ((ran s c n).onCore (procIdx c) fun k => k.setS d v, 0))
    (hok : (on.has c && ok) = true := by rfl) (hn : 0 < n := by decide) : WritesS i s c n d v 0 := by
  unfold WritesS
  rw [ranWith_setS_flag_zero]
  exact exec_of_effect (m := .scalar) hm h hx he hok hn

theorem loadWord_reads {base size n : Nat} (hi : inSpace size 1 (byteAddr s c a imm) = true)
    (hu : s.eccOf (base + byteAddr s c a imm) = 0) :
    loadWord c base size d a imm (ran s c n) (coreOf s c) =
      ((ran s c n).onCore (procIdx c) fun k => k.setS d (s.word (base + byteAddr s c a imm)), 0) := by
  have hi' : inSpace size 1 ((coreOf s c).ea a imm) = true := hi
  have hacc : (ran s c n).eccAccess (procIdx c) (base + (coreOf s c).ea a imm) 1 = some (ran s c n) :=
    eccAccess_whole fun k hk => by
      obtain rfl : k = 0 := by omega
      exact ran_eccOf_whole hu
  unfold loadWord
  simp only [hi', hacc, ran_word, Bool.not_true]
  rfl

/-- A word with a single-bit error is read all the same, corrected and counted. -/
theorem loadWord_corrects {base size n : Nat} (hi : inSpace size 1 (byteAddr s c a imm) = true)
    (hne : (base + byteAddr s c a imm) / 8 ≠ fetchAt s c / 8) (hu : s.eccOf (base + byteAddr s c a imm) = 1) :
    loadWord c base size d a imm (ran s c n) (coreOf s c) =
      (((ran s c n).corrected (procIdx c) (base + byteAddr s c a imm)).onCore (procIdx c) fun k =>
        k.setS d (s.word (base + byteAddr s c a imm)), 0) := by
  have hi' : inSpace size 1 ((coreOf s c).ea a imm) = true := hi
  have hacc : (ran s c n).eccAccess (procIdx c) (base + (coreOf s c).ea a imm) 1 = some _ :=
    eccAccess_single ((ran_eccOf_eq s c n _).trans ((fetched_eccOf (Or.inl hne)).trans hu))
  have hw : ((ran s c n).corrected (procIdx c) (base + (coreOf s c).ea a imm)).word (base + (coreOf s c).ea a imm) =
      s.word (base + byteAddr s c a imm) := by
    unfold State.word
    rw [corrected_mem, ran_mem]
    rfl
  unfold loadWord
  simp only [hi', hacc, hw, Bool.not_true]
  rfl

/-! ## Loads of four words -/

theorem quad_elems (t : State) (x : Nat) {j : Nat} (hj : j < 4) : elemF (t.quad x) j = t.word (x + 4 * j) :=
  elemF_vecOfF _ hj

/-- The permitted elements of a V register take what a load reads. -/
theorem writesV_load {i : Instr} {on : Cores} {n : Nat} {ok : Bool} {eff : Effect} {x : VWord} {v : Nat → F32}
    (hm : Pred.any .f32 (predOf s c p) = true) (h : CanRun s c n)
    (hx : Machine.exec i s = onMain s fun s => s.instr c on .f32 n p ok eff)
    (he : eff (ran s c n) (coreOf s c) = loadV c p d x (ran s c n) (coreOf s c)) (hv : ∀ j < 4, elemF x j = v j)
    (hok : (on.has c && ok) = true) (hn : 0 < n := by decide) : WritesV i s c n p d v fun _ => 0 := by
  exact ⟨mergeF (predOf s c p) ((coreOf s c).getV d) x, exec_of_effect hm h hx he hok hn,
    fun j hj => by rw [elemF_mergeF _ _ _ hj, hv j hj]⟩

theorem loadQuad_reads {base size n : Nat} (hi : inSpace size 4 (byteAddr s c a imm) = true)
    (hu : ∀ k < 4, s.eccOf (base + byteAddr s c a imm + 4 * k) = 0) :
    loadQuad c p base size d a imm (ran s c n) (coreOf s c) =
      loadV c p d ((ran s c n).quad (base + byteAddr s c a imm)) (ran s c n) (coreOf s c) := by
  have hi' : inSpace size 4 ((coreOf s c).ea a imm) = true := hi
  have hacc : (ran s c n).eccAccess (procIdx c) (base + (coreOf s c).ea a imm) 4 = some (ran s c n) :=
    eccAccess_whole fun k hk => ran_eccOf_whole (hu k hk)
  unfold loadQuad
  simp only [hi', hacc, Bool.not_true]
  rfl

/-- The words that a vector load reads from memory. -/
theorem ran_quad_elems (n x : Nat) {j : Nat} (hj : j < 4) : elemF ((ran s c n).quad x) j = s.word (x + 4 * j) := by
  rw [quad_elems _ _ hj, ran_word]

/-- The fetch counts a corrected word in no register that the headbox shows. -/
theorem ran_cellOwner (n k : Nat) : (ran s c n).cellOwner k = s.cellOwner k := by
  have hreg : ∀ a, 0x40000 ≤ a → (ran s c n).reg a = s.reg a := fun a ha =>
    (ran_reg s c n a).trans (fetched_reg s c (by
      have hi : procIdx c < 10 := by cases c <;> simp only [procIdx] <;> omega
      unfold R.ENG_LANE_ECC_CNT
      omega))
  have hcfg : (ran s c n).reg (R.ARM_CELL_CFG k) = s.reg (R.ARM_CELL_CFG k) := hreg _ (by unfold R.ARM_CELL_CFG; omega)
  have hsts : ∀ m, (ran s c n).reg (R.ARM_STS m) = s.reg (R.ARM_STS m) := fun m => hreg _ (by unfold R.ARM_STS; omega)
  unfold State.cellOwner State.bit State.f
  dsimp only
  rw [hcfg]
  simp only [hsts]

/-- A headbox word is that of the cells, the arms, the lanes and the tick. -/
theorem hbWord_congr {t : State} (hsns : t.sns = s.sns) (hpart : t.part = s.part) (hcells : t.cells = s.cells)
    (hforce : t.inForce = s.inForce) (hown : ∀ k, t.cellOwner k = s.cellOwner k) (hbox : t.eng.headbox = s.eng.headbox)
    (x : Nat) : t.hbWord x = s.hbWord x := by
  unfold State.hbWord State.cellVolt State.cellStatus State.cell State.fe
  simp only [hsns, hpart, hcells, hforce, hown, hbox]

theorem ran_hbWord (n x : Nat) : (ran s c n).hbWord x = s.hbWord x := by
  obtain ⟨r, e, hf⟩ := fetched_eq s c
  have hr := ran_eq s c n
  rw [hf] at hr
  exact hbWord_congr (by rw [hr]) (by rw [hr]) (by rw [hr]) (by rw [hr]) (ran_cellOwner n) (by rw [ran_eng]) x

end Loads

theorem has_K_of_ne {c : Proc} (h : c ≠ .safety) : Cores.has .K c = true := by
  cases c with
  | lane n => rfl
  | keeper => rfl
  | safety => exact absurd rfl h

theorem lane_of_procLane {c : Proc} (h : procLane c = true) : ∃ n, c = .lane n := by
  cases c with
  | lane n => exact ⟨n, rfl⟩
  | keeper => cases h
  | safety => cases h

theorem getS_setS_same (l : LaneSt) {d : BitVec 5} (hd : d ≠ 0) (v : Word) : (l.setS d v).getS d = v := by
  unfold LaneSt.getS LaneSt.setS
  rw [if_neg hd, if_neg hd]
  exact tblGet_set_same ..

/-- An instruction word stands beyond data memory. -/
theorem data_ne_fetch {s : State} {c : Proc} {x : Nat} (hx : x < 0x200000) : (dataBase + x) / 8 ≠ fetchAt s c / 8 := by
  unfold dataBase fetchAt slotBase
  omega

/-- Settles O17: each load reads the words of its space, and an S or a V register takes them. -/
theorem loadResults : Obligations.LoadResults := by
  refine ⟨fun s c p d a imm hm => ?words, fun s n p d a imm w => ?lanes⟩
  case words =>
    intro x
    refine ⟨fun h h4 hx hu => ?_, fun h hc h4 hx hu => ?_, fun h hl hd h4 hx hu => ?_⟩
    · exact writesS_load hm h rfl (loadWord_reads ((inSpace_word (by decide)).2 ⟨h4, hx⟩) hu)
    · exact writesS_load hm h rfl (loadWord_reads ((inSpace_word (by decide)).2 ⟨h4, hx⟩) hu)
        (by rw [has_K_of_ne hc]; rfl)
    · obtain ⟨n, rfl⟩ := lane_of_procLane hl
      have he := loadWord_corrects (n := 6) (d := d) ((inSpace_word (by decide)).2 ⟨h4, hx⟩) (data_ne_fetch hx) hu
      have hi : procIdx (.lane n) < 8 := n.isLt
      refine ⟨_, exec_of_effect (m := .scalar) (on := .K) hm h rfl he, ?_, corrected_eccOf_same _, ?_,
        (corrected_mem _).trans (ran_mem ..)⟩
      · rw [State.onCore, core_setCore_same]
        exact getS_setS_same _ hd _
      · exact (corrected_count _ hi).trans (congrArg (fun k => min 0xFFFF (k + 1)) (ran_f ..))
  case lanes =>
    intro c x
    refine ⟨fun hm => ⟨fun h h4 hx => ?_, fun h ha ho => ?_⟩, fun hm hd => ⟨fun h h16 hx hu => ?_, fun h h16 hx hu => ?_,
      fun h h16 hx => ?_, fun h ha ho hw => ?_⟩⟩
    · have hi : inSpace hbSize 1 ((coreOf s c).ea a imm) = true := (inSpace_word (by decide)).2 ⟨h4, hx⟩
      exact writesS_load hm h rfl (by simp only [hi, ran_hbWord]; rfl)
    · obtain ⟨t, ht⟩ := Option.ne_none_iff_exists'.1 ho
      exact writesS_load hm h rfl (by simp only [ht, ran_word]; rfl) ha
    · exact writesV_load hm h rfl (loadQuad_reads ((inSpace_quad (by decide)).2 ⟨h16, hx⟩) hu) (fun _ => ran_quad_elems _ _) hd
    · exact writesV_load hm h rfl (loadQuad_reads ((inSpace_quad (by decide)).2 ⟨h16, hx⟩) hu) (fun _ => ran_quad_elems _ _) hd
    · have hi : inSpace hbSize 4 ((coreOf s c).ea a imm) = true := (inSpace_quad (by decide)).2 ⟨h16, hx⟩
      exact writesV_load hm h rfl (by simp only [hi, ran_hbWord]; rfl) (fun _ => elemF_vecOfF _) hd
    · obtain ⟨t, ht⟩ := Option.ne_none_iff_exists'.1 ho
      have hw' : ¬ 252 < w.toNat := Nat.not_lt.2 hw
      refine writesV_load (x := (ran s c 2).quad (tileBuf n a.toNat + 4 * w.toNat)) hm h rfl
        (by simp only [ht, hw', if_false]; rfl) (fun j hj => ?_) (by rw [hd, ha]; rfl)
      rw [ran_quad_elems _ _ hj, Nat.mul_add, Nat.add_assoc]

end Sys2Proof.Machine

/-! # Stores (O18) -/

namespace Sys2Proof.Machine

/-! ## One word -/

section Store

variable {s : State} {c : Proc} {p : BitVec 3} {d a : BitVec 5} {imm : BitVec 13} {base size : Nat}

theorem storeWord_stores {n : Nat} (hi : inSpace size 1 (byteAddr s c a imm) = true)
    (hu : s.eccOf (base + byteAddr s c a imm) = 0) :
    storeWord c base size d a imm (ran s c n) (coreOf s c) =
      ((ran s c n).putWord (base + byteAddr s c a imm) ((coreOf s c).getS d), 0) := by
  have hi' : inSpace size 1 ((coreOf s c).ea a imm) = true := hi
  have hacc : (ran s c n).eccAccess (procIdx c) (base + (coreOf s c).ea a imm) 1 = some (ran s c n) :=
    eccAccess_whole fun k hk => by
      obtain rfl : k = 0 := by omega
      exact ran_eccOf_whole hu
  unfold storeWord
  simp only [hi', hacc, Bool.not_true]
  rfl

/-- The word stands in memory and nothing else has changed since the fetch. -/
theorem putWord_ran (hwf : Memory.wf s.mem = true) (n x : Nat) (w : Word) :
    ((ran s c n).putWord x w).word x = w ∧ KeepsBut (fetched s c) ((ran s c n).putWord x w) x (x + 4) ∧
      ((ran s c n).putWord x w).eng = (ran s c n).eng := by
  refine ⟨memWord_putWord_same x w (by rwa [ran_mem]), ⟨fun b hb => ?_, ran_regs s c n⟩, rfl⟩
  exact (memGet_putWord_ne w hb).trans (by rw [ran_mem, fetched_mem])

/-! ## The permitted ones of four words (R74) -/

/-- The first `n` words from `x`, of which the permitted ones take their elements of `v`. -/
def State.putElems (s : State) (pb : BitVec 8) (v : VWord) (x n : Nat) : State :=
  (List.range n).foldl (fun s i => if permF pb i then s.putWord (x + 4 * i) (elemF v i) else s) s

section Elems

variable (t : State) (pb : BitVec 8) (v : VWord) (x n : Nat)

theorem putElems_succ : t.putElems pb v x (n + 1) = (if permF pb n then
    (t.putElems pb v x n).putWord (x + 4 * n) (elemF v n) else t.putElems pb v x n) := by
  unfold State.putElems
  rw [List.range_succ, List.foldl_append]
  rfl

theorem putElems_rest : t.putElems pb v x n = { t with mem := (t.putElems pb v x n).mem } := by
  induction n with
  | zero => rfl
  | succ n ih =>
    rw [putElems_succ]
    split
    · rw [ih]; rfl
    · exact ih

theorem putElems_wf (hwf : Memory.wf t.mem = true) : Memory.wf (t.putElems pb v x n).mem = true := by
  induction n with
  | zero => exact hwf
  | succ n ih =>
    rw [putElems_succ]
    split
    · exact memPutWord_wf _ _ ih
    · exact ih

/-- Bytes outside the words are left alone. -/
theorem putElems_byte {b : Nat} (hb : b < x ∨ x + 4 * n ≤ b) :
    memGet (t.putElems pb v x n).mem b = memGet t.mem b := by
  induction n with
  | zero => rfl
  | succ n ih =>
    rw [putElems_succ]
    split
    · exact (memGet_putWord_ne _ (by omega)).trans (ih (by omega))
    · exact ih (by omega)

theorem putElems_word_beyond {j : Nat} (hj : n ≤ j) : (t.putElems pb v x n).word (x + 4 * j) = t.word (x + 4 * j) :=
  memWord_congr fun b hb _ => putElems_byte t pb v x n (by omega)

theorem putElems_word (hwf : Memory.wf t.mem = true) {j : Nat} (hj : j < n) :
    (t.putElems pb v x n).word (x + 4 * j) = if permF pb j then elemF v j else t.word (x + 4 * j) := by
  induction n with
  | zero => cases hj
  | succ n ih =>
    rw [putElems_succ]
    obtain hlt | rfl := Nat.lt_succ_iff_lt_or_eq.1 hj
    · rw [← ih hlt]
      split
      · exact memWord_congr fun b _ hb => memGet_putWord_ne _ (by omega)
      · rfl
    · split
      · exact memWord_putWord_same _ _ (putElems_wf t pb v x j hwf)
      · exact putElems_word_beyond t pb v x j le_rfl

end Elems

theorem storeQuad_stores {n : Nat} (hi : inSpace size 4 (byteAddr s c a imm) = true)
    (hu : ∀ k < 4, s.eccOf (base + byteAddr s c a imm + 4 * k) = 0) :
    storeQuad c p base size d a imm (ran s c n) (coreOf s c) =
      ((ran s c n).putElems (predOf s c p) ((coreOf s c).getV d) (base + byteAddr s c a imm) 4, 0) := by
  have hi' : inSpace size 4 ((coreOf s c).ea a imm) = true := hi
  have hacc : (ran s c n).eccAccess (procIdx c) (base + (coreOf s c).ea a imm) 4 = some (ran s c n) :=
    eccAccess_whole fun k hk => ran_eccOf_whole (hu k hk)
  unfold storeQuad
  simp only [hi', hacc, Bool.not_true]
  rfl

theorem putElems_ran (hwf : Memory.wf s.mem = true) (n : Nat) (pb : BitVec 8) (v : VWord) (x : Nat) :
    let t := (ran s c n).putElems pb v x 4
    (∀ j < 4, t.word (x + 4 * j) = if permF pb j then elemF v j else s.word (x + 4 * j)) ∧
      KeepsBut (fetched s c) t x (x + 16) ∧ t.eng = (ran s c n).eng := by
  refine ⟨fun j hj => ?_, ⟨fun b hb => ?_, ?_⟩, ?_⟩
  · rw [putElems_word _ _ _ _ _ (by rwa [ran_mem]) hj, ran_word]
  · rw [putElems_byte _ _ _ _ _ hb, ran_mem, fetched_mem]
  · rw [putElems_rest]
    exact ran_regs s c n
  · rw [putElems_rest]

end Store

/-- Settles O18: a store puts its word, or the permitted ones of its four. -/
theorem storeResults : Obligations.StoreResults := by
  refine ⟨fun s c p d a imm hwf hm => ⟨fun h h4 hx hu => ?_, fun h hc h4 hx hu => ?_⟩,
    fun s n p d a imm hwf hd hm => ⟨fun h h16 hx hu => ?_, fun h h16 hx hu => ?_⟩⟩
  · exact ⟨_, exec_of_effect (m := .scalar) hm h rfl (storeWord_stores ((inSpace_word (by decide)).2 ⟨h4, hx⟩) hu),
      putWord_ran hwf _ _ _⟩
  · exact ⟨_, exec_of_effect (m := .scalar) hm h rfl (storeWord_stores ((inSpace_word (by decide)).2 ⟨h4, hx⟩) hu)
      (by rw [has_K_of_ne hc]; rfl), putWord_ran hwf _ _ _⟩
  · exact ⟨_, exec_of_effect hm h rfl (storeQuad_stores ((inSpace_quad (by decide)).2 ⟨h16, hx⟩) hu) hd,
      putElems_ran hwf _ _ _ _⟩
  · exact ⟨_, exec_of_effect hm h rfl (storeQuad_stores ((inSpace_quad (by decide)).2 ⟨h16, hx⟩) hu) hd,
      putElems_ran hwf _ _ _ _⟩

end Sys2Proof.Machine

/-! # Control flow (O19) -/

namespace Sys2Proof.Machine

/-! ## The core past an instruction (R85) -/

theorem spendOf_congr {s t : State} (h : t.halted = s.halted) (l : LaneSt) (n : Nat) : t.spendOf l n = s.spendOf l n := by
  unfold State.spendOf
  rw [h]

theorem ran_core_same (s : State) (c : Proc) (n : Nat) :
    (ran s c n).core (procIdx c) = (s.spendOf (coreOf s c) n).advance := by
  have hh : ∀ l k, ((fetched s c).ran l k).halted = s.halted := fun l k => by
    rw [at_ran]
    exact fetched_halted s c
  unfold ran
  dsimp only
  rw [core_setCore_same]
  split
  · rw [spendOf_congr (hh _ _)]
  · rw [spendOf_congr (fetched_halted s c)]

theorem ran_core_ne (s : State) (c : Proc) (n : Nat) {j : Nat} (h : j ≠ procIdx c) : (ran s c n).core j = s.core j := by
  have hf : (fetched s c).core j = s.core j := by
    obtain ⟨r, e, hf⟩ := fetched_eq s c
    rw [hf]
    exact tblGet_set_ne _ _ _ h
  unfold ran
  dsimp only
  rw [core_setCore_ne _ _ h]
  split
  · rw [at_ran]
    exact hf
  · exact hf

/-- Where no loop is active the position goes on in order. -/
theorem advance_plain {l : LaneSt} (h : l.loops = []) : l.advance = { l with loops := [] }.nextPos := by
  unfold LaneSt.advance LaneSt.loopNext
  rw [h]

/-- The last word of a body with iterations left. -/
theorem advance_back {l : LaneSt} {r : LoopRec} {rest : List LoopRec} (h : l.loops = r :: rest) (hs : l.slot = r.slot)
    (hw : l.word = r.last) (hi : r.idx + 1 < r.count) :
    l.advance = { l with word := r.first, loops := { r with idx := r.idx + 1 } :: rest } := by
  unfold LaneSt.advance
  rw [h]
  unfold LaneSt.loopNext
  rw [if_pos (by simp [hs, hw]), if_pos hi]

theorem nextPos_within {l : LaneSt} (hw : l.word ≠ 255) : l.nextPos = { l with word := l.word + 1 } := if_neg hw

theorem nextPos_slot {l : LaneSt} (hw : l.word ≠ 255) : l.nextPos.slot = l.slot := by rw [nextPos_within hw]

/-- A position that ends no active loop goes on in order. -/
theorem loopNext_within {l : LaneSt} {rs : List LoopRec} (h : ∀ r ∈ rs, l.word ≠ r.last) (hw : l.word ≠ 255) :
    l.loopNext rs = { l with word := l.word + 1, loops := rs } := by
  cases rs with
  | nil => exact nextPos_within (l := { l with loops := [] }) hw
  | cons r rest =>
    unfold LaneSt.loopNext
    rw [if_neg (by simp [h r List.mem_cons_self])]
    exact nextPos_within (l := { l with loops := r :: rest }) hw

/-- Within a slot an instruction other than the last goes on in the slot. -/
theorem loopNext_slot {l : LaneSt} (rs : List LoopRec) (hw : l.word ≠ 255) : (l.loopNext rs).slot = l.slot := by
  induction rs with
  | nil =>
    exact nextPos_slot hw
  | cons r rest ih =>
    unfold LaneSt.loopNext
    split
    · split
      · rfl
      · exact ih
    · exact nextPos_slot hw

section Spend

variable (s : State) (l : LaneSt) (n : Nat)

@[simp] theorem spendOf_slot : (s.spendOf l n).slot = l.slot := by rw [spendOf_eq]
@[simp] theorem spendOf_word : (s.spendOf l n).word = l.word := by rw [spendOf_eq]
@[simp] theorem spendOf_loops : (s.spendOf l n).loops = l.loops := by rw [spendOf_eq]

theorem spendOf_cyc : (s.spendOf l n).cyc = l.cyc + if s.halted = true then 0 else n := by
  unfold State.spendOf
  split <;> rfl

end Spend

/-- A core with its position and loops put, whose cycles have passed, is the core past the instruction with them put. -/
theorem MovedOn.put {l k : LaneSt} (h : MovedOn l k) (slot word : Nat) (loops : List LoopRec) :
    { l with slot := slot, word := word, loops := loops, cyc := k.cyc, free := k.free } =
      { k with slot := slot, word := word, loops := loops } := by
  rw [h.eq]

/-! ## BR and LOOP (R86, R87) -/

/-- The target of a branch lies ahead. -/
def State.ahead (s : State) (c : Proc) (slot : BitVec 5) (word : BitVec 8) : Bool :=
  (s.core (procIdx c)).slot * 256 + (s.core (procIdx c)).word < slot.toNat * 256 + word.toNat

section Jumps

variable {s : State} {c : Proc} {p : BitVec 3} (h : CanRun s c 2)
include h

/-- A branch or a loop, whose legality hangs on the position, by its effect. -/
theorem exec_of_jump {i : Instr} {q : BitVec 3} {ok : State → Bool} {eff : Effect} {u : State}
    (hx : Machine.exec i s = onMain s fun s => s.instr c .A .always 2 q (ok s) eff) (hok : ok s = true)
    (he : eff (ran s c 2) (coreOf s c) = (u, 0)) : Machine.exec i s = .next u := by
  rw [hx, onMain_run _ h.1, instr_runs s c .A .always 2 q (ok s) eff h (by decide) hok, if_pos (show Pred.any .always _ = true from rfl), he]
  rfl

/-- It puts position and loops of its core. -/
theorem exec_puts {i : Instr} {q : BitVec 3} {ok : State → Bool} {eff : Effect} {slot word : Nat} {loops : List LoopRec}
    (hx : Machine.exec i s = onMain s fun s => s.instr c .A .always 2 q (ok s) eff) (hok : ok s = true)
    (he : eff (ran s c 2) (coreOf s c) = ((ran s c 2).onCore (procIdx c) fun k =>
      { coreOf s c with slot := slot, word := word, loops := loops, cyc := k.cyc, free := k.free }, 0)) :
    Machine.exec i s = .next (ranWith s c 2 fun k => { k with slot := slot, word := word, loops := loops }) :=
  (exec_of_jump h hx hok he).trans
    (congrArg (fun k => Host.Outcome.next ((ran s c 2).setCore (procIdx c) k)) ((movedOn_ran s c 2).put slot word loops))

theorem br_falls {slot : BitVec 5} {word : BitVec 8}
    (hf : (coreOf s c).slot * 256 + (coreOf s c).word < slot.toNat * 256 + word.toNat)
    (hp : (predOf s c p).getLsbD 0 = false) : Machine.exec (.br c p slot word) s = .next (ran s c 2) := by
  refine exec_of_jump (ok := fun s => s.ahead c slot word) h (q := p) rfl (decide_eq_true hf) ?_
  have hp' : ((coreOf s c).getP (p.setWidth 5)).getLsbD 0 = false := hp
  unfold branchEffect
  rw [hp']
  rfl

theorem br_taken {slot : BitVec 5} {word : BitVec 8}
    (hf : (coreOf s c).slot * 256 + (coreOf s c).word < slot.toNat * 256 + word.toNat)
    (hp : (predOf s c p).getLsbD 0 = true) (hst : procLane c = true → tblGet 0 (coreOf s c).slots slot.toNat ≠ 0) :
    Machine.exec (.br c p slot word) s = .next (ranWith s c 2 fun k =>
      { k with slot := slot.toNat, word := word.toNat,
               loops := (coreOf s c).loops.dropWhile fun r => !r.holds slot.toNat word.toNat }) := by
  have hp' : ((coreOf s c).getP (p.setWidth 5)).getLsbD 0 = true := hp
  have hs' : ¬ (procLane c && tblGet 0 (coreOf s c).slots slot.toNat == 0) = true := by simpa using hst
  refine exec_puts (ok := fun s => s.ahead c slot word) h (q := p) rfl (decide_eq_true hf) ?_
  unfold branchEffect
  rw [hp', if_neg hs']
  rfl

section Loop

variable {a : BitVec 5} {max : BitVec 12} {len : BitVec 6}
  (hok : (coreOf s c).loopOk max.toNat len.toNat = true)
include hok

/-- A loop puts what `loopStart` gives. -/
theorem loop_puts {slot word : Nat} {loops : List LoopRec}
    (hk : (coreOf s c).loopStart ((coreOf s c).getS a).toNat max.toNat len.toNat =
      { coreOf s c with slot := slot, word := word, loops := loops }) :
    Machine.exec (.loop c a max len) s =
      .next (ranWith s c 2 fun m => { m with slot := slot, word := word, loops := loops }) :=
  exec_puts (ok := fun s => (s.core (procIdx c)).loopOk max.toNat len.toNat) h (q := 0) rfl hok (by rw [hk])

theorem loop_enters (hn : min ((coreOf s c).getS a).toNat max.toNat ≠ 0) :
    Machine.exec (.loop c a max len) s = .next (ranWith s c 2 fun k =>
      { k with slot := (coreOf s c).slot, word := (coreOf s c).word + 1,
               loops := ⟨(coreOf s c).slot, (coreOf s c).word + 1, (coreOf s c).word + len.toNat, 0,
                 min ((coreOf s c).getS a).toNat max.toNat⟩ :: (coreOf s c).loops }) :=
  loop_puts h hok (if_neg hn)

variable (hn : min ((coreOf s c).getS a).toNat max.toNat = 0)
include hn

/-- A skipped loop goes on after its body, in the slot. -/
theorem loop_skips (hlt : (coreOf s c).word + len.toNat < 255)
    (hlast : ∀ r ∈ (coreOf s c).loops, (coreOf s c).word + len.toNat ≠ r.last) :
    Machine.exec (.loop c a max len) s = .next (ranWith s c 2 fun k =>
      { k with word := (coreOf s c).word + len.toNat + 1, loops := (coreOf s c).loops }) := by
  have hslot : ((ran s c 2).core (procIdx c)).slot = (coreOf s c).slot := by
    rw [ran_core_same]
    exact (loopNext_slot _ (by rw [spendOf_word]; omega)).trans (spendOf_slot ..)
  have hk : (coreOf s c).loopStart ((coreOf s c).getS a).toNat max.toNat len.toNat =
      { coreOf s c with word := (coreOf s c).word + len.toNat + 1 } :=
    (if_pos hn).trans (loopNext_within (l := { coreOf s c with word := (coreOf s c).word + len.toNat }) hlast (by
      dsimp only; omega))
  refine (loop_puts h hok hk).trans ?_
  unfold ranWith State.onCore
  rw [← hslot]

/-- A skipped loop whose body ends the slot goes on in the next. -/
theorem loop_skips_slot (hlast : (coreOf s c).word + len.toNat = 255) (hnone : (coreOf s c).loops = []) :
    Machine.exec (.loop c a max len) s = .next (ranWith s c 2 fun k =>
      { k with slot := (coreOf s c).slot + 1, word := 0 }) := by
  have hloops : ((ran s c 2).core (procIdx c)).loops = [] := by
    rw [ran_core_same, advance_plain (by rw [spendOf_loops, hnone])]
    unfold LaneSt.nextPos
    split <;> rfl
  have hk : (coreOf s c).loopStart ((coreOf s c).getS a).toNat max.toNat len.toNat =
      { coreOf s c with slot := (coreOf s c).slot + 1, word := 0, loops := [] } :=
    (if_pos hn).trans ((advance_plain (l := { coreOf s c with word := (coreOf s c).word + len.toNat }) hnone).trans
      (if_pos hlast))
  refine (loop_puts h hok hk).trans ?_
  unfold ranWith State.onCore
  rw [← hloops]

end Loop

end Jumps

/-! ## NOP and YIELD (R85, R88) -/

theorem nop_passes {s : State} {c : Proc} (p : BitVec 3) (h : CanRun s c 1) : Machine.exec (.nop c p) s = .next (ran s c 1) := by
  cases hm : Pred.any .scalar (predOf s c p) with
  | false => exact onMain_instr_not s c .A .scalar 1 p true _ h (by decide) rfl hm
  | true => exact exec_of_effect hm h rfl rfl

theorem sliceEnd_core_ne (s : State) {i j : Nat} (h : j ≠ i) : (s.sliceEnd i).core j = s.core j := core_setCore_ne s _ h

/-- A slice that yields after an instruction of one cycle. -/
theorem yield_ends {s : State} {n : Fin 8} {p : BitVec 3} (h : CanRun s (.lane n) 1)
    (hm : (predOf s (.lane n) p).getLsbD 0 = true) :
    Machine.exec (.yield (.lane n) p) s = .next ((ran s (.lane n) 1).sliceEnd n) :=
  exec_of_effect (m := .scalar) hm h rfl rfl

theorem loopOk_of {l : LaneSt} {max : BitVec 12} {len : BitVec 6} (hmax : max ≠ 0) (hlen : len ≠ 0)
    (hlast : l.word + len.toNat ≤ 255) (hloops : l.loops.length < 2)
    (hin : ∀ r ∈ l.loops, l.slot = r.slot ∧ r.first ≤ l.word + len.toNat ∧ l.word + len.toNat ≤ r.last) :
    l.loopOk max.toNat len.toNat = true := by
  have hne : ∀ {w : Nat} {x : BitVec w}, x ≠ 0 → x.toNat ≠ 0 := fun h he => h (BitVec.eq_of_toNat_eq (by simpa using he))
  unfold LaneSt.loopOk LoopRec.holds
  simp only [Bool.and_eq_true, bne_iff_ne, decide_eq_true_eq, List.all_eq_true, beq_iff_eq]
  exact ⟨⟨⟨⟨hne hmax, hne hlen⟩, hlast⟩, hloops⟩, fun r hr => ⟨⟨(hin r hr).1, (hin r hr).2.1⟩, (hin r hr).2.2⟩⟩

/-- Settles O19: each instruction by the position, the loops or the end of the slice that it puts. -/
theorem controlFlow : Obligations.ControlFlow := by
  refine ⟨fun s c p slot word h hf => ⟨br_falls h hf, br_taken h hf⟩, ?loop, ?nop, ?yield⟩
  case loop =>
    intro s c a max len h l n last hmax hlen hlast hloops hin
    have hok := loopOk_of hmax hlen hlast hloops hin
    exact ⟨fun hn hlt hne => loop_skips h hok hn hlt hne, fun hn he hnone => loop_skips_slot h hok hn he hnone,
      fun hn => loop_enters h hok hn⟩
  case nop =>
    intro s c p h
    have hcore := ran_core_same s c 1
    refine ⟨nop_passes p h, fun r rest hl hs hw hi => ⟨_, nop_passes p h, ?_⟩, fun hl hw => ⟨_, nop_passes p h, ?_⟩⟩
    · dsimp only
      rw [hcore, advance_back (by rw [spendOf_loops, hl]) (by rw [spendOf_slot, hs]) (by rw [spendOf_word, hw]) hi]
      exact ⟨rfl, rfl⟩
    · dsimp only
      rw [hcore, advance_plain (by rw [spendOf_loops, hl])]
      unfold LaneSt.nextPos
      rw [if_pos ((spendOf_word ..).trans hw)]
      exact ⟨rfl, congrArg (· + 1) (spendOf_slot ..)⟩
  case yield =>
    intro s n p h hm
    have hctx : ((ran s (.lane n) 1).core n).ctx = (s.core n).ctx := (movedOn_ran s (.lane n) 1).ctx
    have hcyc : ((ran s (.lane n) 1).core n).cyc = (s.core n).cyc + if s.halted = true then 0 else 1 :=
      (congrArg LaneSt.cyc (ran_core_same s (.lane n) 1)).trans ((congrArg LaneSt.cyc (advance_eq _)).trans (spendOf_cyc ..))
    have hsame := sliceEnd_ctx (ran s (.lane n) 1) n (s.core n).ctx
    rw [if_pos hctx.symm, hcyc, ran_ctx] at hsame
    refine ⟨_, yield_ends h hm, ?_, ?_, ?_, ?_, ?_, (sliceEnd_mem _ _).trans (ran_mem ..), fun j hj => ?_, fun j hj => ?_,
      fun a ha => ?_⟩
    · rw [sliceEnd_core_same]
    · rw [bit_eq_f, sliceEnd_f, f_setF_read (by simp)]
      rfl
    · rw [hsame]
    · rw [hsame]
    · rw [hsame, Nat.add_assoc]
    · exact (sliceEnd_core_ne _ hj).trans (ran_core_ne s (.lane n) 1 hj)
    · rw [sliceEnd_ctx, hctx, if_neg hj, ran_ctx]
    · exact (reg_setF_ne _ _ ha).trans (ran_reg ..)

end Sys2Proof.Machine

/-! # Frame of the instructions that compute to one register (O24) -/

namespace Sys2Proof.Machine

/-! ## What one register's write leaves of a core -/

/-- Core `k` has the register files and the flags of `l`, but for register `x` and for flags raised. -/
structure ButDest (x : Dest) (l k : LaneSt) : Prop where
  getS : ∀ r, x ≠ .s r → k.getS r = l.getS r
  getP : ∀ r, x ≠ .p r → k.getP r = l.getP r
  getV : ∀ r, x ≠ .v r → k.getV r = l.getV r
  a : k.a = l.a
  lst : k.lst ||| l.lst = k.lst

theorem ButDest.trans {x : Dest} {l k m : LaneSt} (h : ButDest x l k) (h' : ButDest x k m) : ButDest x l m where
  getS r hr := (h'.getS r hr).trans (h.getS r hr)
  getP r hr := (h'.getP r hr).trans (h.getP r hr)
  getV r hr := (h'.getV r hr).trans (h.getV r hr)
  a := h'.a.trans h.a
  lst := by rw [← h'.lst, BitVec.or_assoc, h.lst]

/-- An instruction's end leaves the register files. -/
theorem MovedOn.butDest {x : Dest} {l k : LaneSt} (h : MovedOn l k) : ButDest x l k where
  getS r _ := by unfold LaneSt.getS; rw [h.s]
  getP r _ := by unfold LaneSt.getP; rw [h.p]
  getV r _ := by unfold LaneSt.getV; rw [h.v]
  a := h.a
  lst := by rw [h.eq]; exact BitVec.or_self

/-- `g` writes register `x`, and raises flags. -/
inductive Puts : Dest → (LaneSt → LaneSt) → Prop
  | s (d : BitVec 5) (w : Word) (f : Flags) : Puts (.s d) fun k => (k.setS d w).flag f
  | p (d : BitVec 5) (b : BitVec 8) : Puts (.p d) fun k => k.setP d b
  | v (d : BitVec 5) (w : VWord) (f : Flags) : Puts (.v d) fun k => (k.setV d w).flag f

theorem toNat_ne {n : Nat} {x y : BitVec n} (h : x ≠ y) : x.toNat ≠ y.toNat := fun he => h (BitVec.eq_of_toNat_eq he)

theorem butDest_setS (l : LaneSt) (d : BitVec 5) (w : Word) : ButDest (.s d) l (l.setS d w) := by
  unfold LaneSt.setS
  split
  · exact ⟨fun _ _ => rfl, fun _ _ => rfl, fun _ _ => rfl, rfl, BitVec.or_self⟩
  · refine ⟨fun r hr => ?_, fun _ _ => rfl, fun _ _ => rfl, rfl, BitVec.or_self⟩
    have hne : r ≠ d := fun h => hr (h ▸ rfl)
    unfold LaneSt.getS
    rw [tblGet_set_ne _ _ _ (toNat_ne hne)]

theorem butDest_setP (l : LaneSt) (d : BitVec 5) (b : BitVec 8) : ButDest (.p d) l (l.setP d b) := by
  unfold LaneSt.setP
  split
  · exact ⟨fun _ _ => rfl, fun _ _ => rfl, fun _ _ => rfl, rfl, BitVec.or_self⟩
  · refine ⟨fun _ _ => rfl, fun r hr => ?_, fun _ _ => rfl, rfl, BitVec.or_self⟩
    have hne : r ≠ d := fun h => hr (h ▸ rfl)
    unfold LaneSt.getP
    rw [tblGet_set_ne _ _ _ (toNat_ne hne)]

theorem butDest_setV (l : LaneSt) (d : BitVec 5) (w : VWord) : ButDest (.v d) l (l.setV d w) := by
  refine ⟨fun _ _ => rfl, fun _ _ => rfl, fun r hr => ?_, rfl, BitVec.or_self⟩
  have hne : r ≠ d := fun h => hr (h ▸ rfl)
  exact tblGet_set_ne _ _ _ (toNat_ne hne)

theorem butDest_flag (x : Dest) (l : LaneSt) (f : Flags) : ButDest x l (l.flag f) where
  getS _ _ := rfl
  getP _ _ := rfl
  getV _ _ := rfl
  a := rfl
  lst := by
    show l.lst ||| f ||| l.lst = l.lst ||| f
    rw [BitVec.or_comm l.lst f, BitVec.or_assoc, BitVec.or_self]

theorem Puts.butDest {x : Dest} {g : LaneSt → LaneSt} (h : Puts x g) (l : LaneSt) : ButDest x l (g l) := by
  cases h with
  | s d w f => exact (butDest_setS l d w).trans (butDest_flag _ _ f)
  | p d b => exact butDest_setP l d b
  | v d w f => exact (butDest_setV l d w).trans (butDest_flag _ _ f)

/-! ## The instructions with a destination -/

/-- An instruction that computes to one register puts it, whatever its operands, and raises no exception. -/
theorem runsAs_of_instrDest {i : Instr} {c : Proc} {x : Dest} (hi : instrCore i = some c) (hd : instrDest i = some x) :
    ∃ on m p ok eff, RunsAs i c on m p ok eff ∧ m ≠ .always ∧
      ∀ s t l, ∃ g, eff s t l = (t.onCore (procIdx c) g, 0) ∧ Puts x g := by
  cases i <;> cases hd <;> cases hi
  all_goals
    refine ⟨_, _, _, _, _, RunsAs.ofFields rfl (fun _ => rfl) ?_, nofun, fun _ _ _ => ⟨_, rfl, by constructor⟩⟩
    simp only [fieldsOk, Cores.has_A, Bool.true_and, Bool.and_true, Bool.and_assoc]

/-- An entry written twice is written once. -/
theorem tblSet_set_same {α : Type} (t : Tbl α) (k : Nat) (v w : α) : tblSet (tblSet t k v) k w = tblSet t k w := by
  induction t with
  | nil => simp [tblSet]
  | cons e t ih =>
    obtain ⟨j, x⟩ := e
    by_cases hj : k = j
    · simp [tblSet, hj]
    · by_cases hlt : k < j
      · simp [tblSet, hj, hlt]
      · simp [tblSet, hj, hlt, ih]

theorem setCore_set_same (s : State) (i : Nat) (l k : LaneSt) : (s.setCore i l).setCore i k = s.setCore i k := by
  unfold State.setCore
  dsimp only
  rw [tblSet_set_same]

theorem ran_setCore_core (s : State) (c : Proc) (n : Nat) :
    (ran s c n).setCore (procIdx c) ((ran s c n).core (procIdx c)) = ran s c n := by
  unfold ran
  dsimp only
  rw [core_setCore_same, setCore_set_same]

/-- Executed to its end it leaves the state past the instruction, but for its register and for flags. -/
theorem exec_of_instrDest {s : State} {i : Instr} {c : Proc} {x : Dest} (hi : instrCore i = some c) (hf : fieldsOk i = true)
    (hd : instrDest i = some x) (h : CanRun s c (instrCycles i)) :
    ∃ l, Machine.exec i s = .next ((ran s c (instrCycles i)).setCore (procIdx c) l) ∧
      ButDest x ((ran s c (instrCycles i)).core (procIdx c)) l := by
  obtain ⟨on, m, p, ok, eff, hrun, hm, hput⟩ := runsAs_of_instrDest hi hd
  obtain ⟨g, hg, hp⟩ := hput s (ran s c (instrCycles i)) (coreOf s c)
  rw [hrun.exec, onMain_run _ h.1,
    instr_runs s c on m _ p _ _ h (instrCycles_pos hi) ((hrun.fixed hm s).trans hf)]
  by_cases hany : m.any (predOf s c p) = true
  · refine ⟨_, ?_, hp.butDest _⟩
    rw [if_pos hany, hg]
    rfl
  · refine ⟨(ran s c (instrCycles i)).core (procIdx c), ?_, (MovedOn.mk rfl).butDest⟩
    rw [if_neg hany, ran_setCore_core]

/-! ## The fetch -/

section Fetch

variable (s : State) (c : Proc)

theorem fetched_tm : (fetched s c).tm = s.tm := by
  obtain ⟨r, e, h⟩ := fetched_eq s c
  rw [h]

/-- A lane's single-bit error in its instruction word is corrected and counted. -/
theorem fetched_corrects (hl : procLane c = true) (h : s.eccOf (fetchAt s c) = 1) :
    (fetched s c).eccOf (fetchAt s c) = 0 ∧
      (fetched s c).f (F.ENG_LANE_ECC_CNT_ecc_corr (procIdx c)) =
        min 0xFFFF (s.f (F.ENG_LANE_ECC_CNT_ecc_corr (procIdx c)) + 1) ∧
      ∀ r, r ≠ R.ENG_LANE_ECC_CNT (procIdx c) → (fetched s c).reg r = s.reg r := by
  obtain ⟨n, rfl⟩ := lane_of_procLane hl
  refine ⟨?_, ?_, fun r hr => fetched_reg s _ hr⟩
  · rw [fetched_single hl h, corrected_eccOf_same]
  · have hn : procIdx (.lane n) < 8 := n.isLt
    rw [fetched_single hl h, corrected_count _ hn]
    rfl

/-- The cycles of an instruction change global time alone, and on a lane only. -/
theorem ran_tm (n : Nat) : (ran s c n).tm = { s.tm with now := (ran s c n).tm.now } ∧
    (procLane c = false → (ran s c n).tm = s.tm) := by
  have hat : ∀ l k, ((fetched s c).ran l k).tm = { s.tm with now := ((fetched s c).ran l k).tm.now } := by
    intro l k
    rw [← fetched_tm s c]
    unfold State.ran State.at
    split
    · rfl
    · split <;> rfl
  unfold ran
  dsimp only
  split
  next hl => exact ⟨hat _ _, fun h => absurd hl (by simp [h])⟩
  next => exact ⟨by rw [State.setCore, fetched_tm], fun _ => fetched_tm s c⟩

end Fetch

/-- Settles O24: an instruction with a destination puts its register in the core past it. -/
theorem registerInstructionFrame : Obligations.RegisterInstructionFrame := by
  intro s c i x hi hf hd h
  obtain ⟨l, hx, hl⟩ := exec_of_instrDest hi hf hd h
  have hb : ButDest x (coreOf s c) l := (movedOn_ran s c _).butDest.trans hl
  have hcore : ((ran s c (instrCycles i)).setCore (procIdx c) l).core (procIdx c) = l := core_setCore_same _ _ _
  refine ⟨_, hx, ⟨fun hw => fetched_passes (hw.imp_right fun h0 => ?_), fetched_corrects s c, fetched_mem s c,
    fetched_tm s c⟩, ?_, fun hl => (ran_tm s c _).2 hl, fun j hj => (core_setCore_ne _ _ hj).trans (ran_core_ne s c _ hj), ?_⟩
  · exact ne_of_eq_of_ne h0 (by decide)
  · obtain ⟨t, lanes, hr⟩ : ∃ t lanes, ran s c (instrCycles i) =
        { fetched s c with tm := t, eng := { (fetched s c).eng with lanes := lanes } } := ⟨_, _, ran_eq s c _⟩
    have ht := (ran_tm s c (instrCycles i)).1
    rw [hr] at ht ⊢
    obtain ⟨now, rfl⟩ : ∃ now, t = { s.tm with now := now } := ⟨_, ht⟩
    rfl
  · rw [hcore]
    exact ⟨hb.getS, hb.getP, hb.getV, rfl, rfl, hb.a, hb.lst⟩

end Sys2Proof.Machine

/-! # Instruction words (O5, O6, O7)

A word is the number of its fields, so that reading a field of a word put together gives it back, and a word is put together
from its fields (`wordR_fields` and its kin). -/

namespace Sys2Proof.Machine

/-! ## Words as numbers (R72) -/

theorem toNat_append_add {m n : Nat} (x : BitVec m) (y : BitVec n) : (x ++ y).toNat = x.toNat * 2 ^ n + y.toNat := by
  rw [BitVec.toNat_append, ← Nat.shiftLeft_add_eq_or_of_lt y.isLt, Nat.shiftLeft_eq]

section Fields

variable (op : BitVec 6) (p : BitVec 3) (d a b : BitVec 5) (fn : BitVec 8) (imm : BitVec 13) (imm18 : BitVec 18)
  (slot : BitVec 5) (word : BitVec 8) (max : BitVec 12) (len : BitVec 6)

theorem wordR_toNat : (wordR op p d a b fn).toNat = op.toNat * 2 ^ 26 + p.toNat * 2 ^ 23 + d.toNat * 2 ^ 18 +
    a.toNat * 2 ^ 13 + b.toNat * 2 ^ 8 + fn.toNat := by
  unfold wordR
  simp only [toNat_append_add]
  omega

theorem wordI_toNat : (wordI op p d a imm).toNat = op.toNat * 2 ^ 26 + p.toNat * 2 ^ 23 + d.toNat * 2 ^ 18 +
    a.toNat * 2 ^ 13 + imm.toNat := by
  unfold wordI
  simp only [toNat_append_add]
  omega

theorem wordL_toNat : (wordL op p d imm18).toNat = op.toNat * 2 ^ 26 + p.toNat * 2 ^ 23 + d.toNat * 2 ^ 18 + imm18.toNat := by
  unfold wordL
  simp only [toNat_append_add]
  omega

theorem wordB_toNat : (wordB op p slot word).toNat = op.toNat * 2 ^ 26 + p.toNat * 2 ^ 23 + slot.toNat * 2 ^ 18 +
    word.toNat * 2 ^ 10 := by
  unfold wordB
  have hzero : (0 : BitVec 10).toNat = 0 := rfl
  simp only [toNat_append_add, hzero]
  omega

theorem wordLoop_toNat : (wordLoop op p a max len).toNat = op.toNat * 2 ^ 26 + p.toNat * 2 ^ 23 + a.toNat * 2 ^ 18 +
    max.toNat * 2 ^ 6 + len.toNat := by
  unfold wordLoop
  simp only [toNat_append_add]
  omega

/-! ## The fields of a word -/

/-- A field is read off the word's number. -/
theorem extract_of_toNat {w : Word} {k n : Nat} {x : BitVec n} (h : w.toNat / 2 ^ k % 2 ^ n = x.toNat) :
    w.extractLsb' k n = x :=
  BitVec.eq_of_toNat_eq (by rw [BitVec.extractLsb'_toNat, Nat.shiftRight_eq_div_pow, h])

@[simp] theorem opOf_wordR : opOf (wordR op p d a b fn) = op := extract_of_toNat (by rw [wordR_toNat]; omega)
@[simp] theorem pOf_wordR : pOf (wordR op p d a b fn) = p := extract_of_toNat (by rw [wordR_toNat]; omega)
@[simp] theorem dOf_wordR : dOf (wordR op p d a b fn) = d := extract_of_toNat (by rw [wordR_toNat]; omega)
@[simp] theorem aOf_wordR : aOf (wordR op p d a b fn) = a := extract_of_toNat (by rw [wordR_toNat]; omega)
@[simp] theorem bOf_wordR : bOf (wordR op p d a b fn) = b := extract_of_toNat (by rw [wordR_toNat]; omega)
@[simp] theorem fnOf_wordR : fnOf (wordR op p d a b fn) = fn := extract_of_toNat (by rw [wordR_toNat]; omega)

@[simp] theorem opOf_wordI : opOf (wordI op p d a imm) = op := extract_of_toNat (by rw [wordI_toNat]; omega)
@[simp] theorem pOf_wordI : pOf (wordI op p d a imm) = p := extract_of_toNat (by rw [wordI_toNat]; omega)
@[simp] theorem dOf_wordI : dOf (wordI op p d a imm) = d := extract_of_toNat (by rw [wordI_toNat]; omega)
@[simp] theorem aOf_wordI : aOf (wordI op p d a imm) = a := extract_of_toNat (by rw [wordI_toNat]; omega)
@[simp] theorem immOf_wordI : immOf (wordI op p d a imm) = imm := extract_of_toNat (by rw [wordI_toNat]; omega)

@[simp] theorem opOf_wordL : opOf (wordL op p d imm18) = op := extract_of_toNat (by rw [wordL_toNat]; omega)
@[simp] theorem pOf_wordL : pOf (wordL op p d imm18) = p := extract_of_toNat (by rw [wordL_toNat]; omega)
@[simp] theorem dOf_wordL : dOf (wordL op p d imm18) = d := extract_of_toNat (by rw [wordL_toNat]; omega)
@[simp] theorem imm18Of_wordL : imm18Of (wordL op p d imm18) = imm18 := extract_of_toNat (by rw [wordL_toNat]; omega)

@[simp] theorem opOf_wordB : opOf (wordB op p slot word) = op := extract_of_toNat (by rw [wordB_toNat]; omega)
@[simp] theorem pOf_wordB : pOf (wordB op p slot word) = p := extract_of_toNat (by rw [wordB_toNat]; omega)
@[simp] theorem dOf_wordB : dOf (wordB op p slot word) = slot := extract_of_toNat (by rw [wordB_toNat]; omega)
@[simp] theorem target_wordB : (wordB op p slot word).extractLsb' 10 8 = word :=
  extract_of_toNat (by rw [wordB_toNat]; omega)
@[simp] theorem unused_wordB : (wordB op p slot word).extractLsb' 0 10 = 0 :=
  extract_of_toNat (x := 0) (by rw [wordB_toNat, show (0 : BitVec 10).toNat = 0 from rfl]; omega)

@[simp] theorem opOf_wordLoop : opOf (wordLoop op p a max len) = op := extract_of_toNat (by rw [wordLoop_toNat]; omega)
@[simp] theorem pOf_wordLoop : pOf (wordLoop op p a max len) = p := extract_of_toNat (by rw [wordLoop_toNat]; omega)
@[simp] theorem dOf_wordLoop : dOf (wordLoop op p a max len) = a := extract_of_toNat (by rw [wordLoop_toNat]; omega)
@[simp] theorem max_wordLoop : (wordLoop op p a max len).extractLsb' 6 12 = max :=
  extract_of_toNat (by rw [wordLoop_toNat]; omega)
@[simp] theorem len_wordLoop : (wordLoop op p a max len).extractLsb' 0 6 = len :=
  extract_of_toNat (by rw [wordLoop_toNat]; omega)

end Fields

/-! ## Decoding what was encoded -/

theorem decodeNimson_of_raw {c : Proc} {w : Word} {i : Instr} (hr : decodeRaw c w = some i) (hf : fieldsOk i = true) :
    decodeNimson c w = some i := by
  unfold decodeNimson
  rw [hr]
  exact if_pos hf

section Split

variable (k : BitVec 8) (amt : BitVec 5) (imm : BitVec 14) (b : Bool)

/-! Fields that two parts share: kind and amount of a shift, the zeros above LLI's immediate, STG's and EVT's one bit. -/

theorem shiftKind_append : BitVec.extractLsb' 5 8 (k ++ amt : BitVec 13) = k := BitVec.extractLsb'_append_eq_left

theorem shiftAmount_append : BitVec.extractLsb' 0 5 (k ++ amt : BitVec 13) = amt := BitVec.extractLsb'_append_eq_right

theorem lliUnused_append : BitVec.extractLsb' 14 4 (0#4 ++ imm : BitVec 18) = 0#4 := BitVec.extractLsb'_append_eq_left

theorem lliImm_append : BitVec.extractLsb' 0 14 (0#4 ++ imm : BitVec 18) = imm := BitVec.extractLsb'_append_eq_right

theorem bitUnused_append : BitVec.extractLsb' 1 4 (0#4 ++ BitVec.ofBool b : BitVec 5) = 0#4 :=
  BitVec.extractLsb'_append_eq_left

theorem bit_append : (0#4 ++ BitVec.ofBool b : BitVec 5)[0] = b := by cases b <;> rfl

end Split

theorem decodeRaw_encode {i : Instr} {c : Proc} {w : Word} (hc : instrCore i = some c) (he : encodeNimson i = some w) :
    decodeRaw c w = some i := by
  cases i <;> cases hc <;> cases he
  all_goals simp [decodeRaw, dec00, dec08, dec09, dec0A, dec0B, dec18, dec19, dec1A, dec1C, dec29, dec2B, decIf,
    shiftKind_append, shiftAmount_append, lliUnused_append, lliImm_append, bitUnused_append, bit_append]

/-- Settles O5: each format gives its fields back, so the decoder finds the instruction's row, and R73 holds of it. -/
theorem decodeOfEncode : Obligations.DecodeOfEncode :=
  fun _ _ _ hc hwf he => decodeNimson_of_raw (decodeRaw_encode hc he) hwf

/-! ## Encoding what was decoded -/

section Assembled

variable (w : Word)

theorem wordR_fields : wordR (opOf w) (pOf w) (dOf w) (aOf w) (bOf w) (fnOf w) = w := by
  apply BitVec.eq_of_toNat_eq
  rw [wordR_toNat]
  simp only [opOf, pOf, dOf, aOf, bOf, fnOf, BitVec.extractLsb'_toNat, Nat.shiftRight_eq_div_pow]
  omega

theorem wordI_fields : wordI (opOf w) (pOf w) (dOf w) (aOf w) (immOf w) = w := by
  apply BitVec.eq_of_toNat_eq
  rw [wordI_toNat]
  simp only [opOf, pOf, dOf, aOf, immOf, BitVec.extractLsb'_toNat, Nat.shiftRight_eq_div_pow]
  omega

theorem wordL_fields : wordL (opOf w) (pOf w) (dOf w) (imm18Of w) = w := by
  apply BitVec.eq_of_toNat_eq
  rw [wordL_toNat]
  simp only [opOf, pOf, dOf, imm18Of, BitVec.extractLsb'_toNat, Nat.shiftRight_eq_div_pow]
  omega

theorem wordB_fields (hz : w.extractLsb' 0 10 = 0) : wordB (opOf w) (pOf w) (dOf w) (w.extractLsb' 10 8) = w := by
  have hzero : w.toNat % 1024 = 0 := by simpa using congrArg BitVec.toNat hz
  apply BitVec.eq_of_toNat_eq
  rw [wordB_toNat]
  simp only [opOf, pOf, dOf, BitVec.extractLsb'_toNat, Nat.shiftRight_eq_div_pow]
  omega

theorem wordLoop_fields :
    wordLoop (opOf w) (pOf w) (dOf w) (w.extractLsb' 6 12) (w.extractLsb' 0 6) = w := by
  apply BitVec.eq_of_toNat_eq
  rw [wordLoop_toNat]
  simp only [opOf, pOf, dOf, BitVec.extractLsb'_toNat, Nat.shiftRight_eq_div_pow]
  omega

end Assembled

/-- Word `w` is the one of instruction `i`, on its core. -/
def Spells (c : Proc) (w : Word) (i : Instr) : Prop := instrCore i = some c ∧ encodeNimson i = some w

section Rows

variable {c : Proc} {w : Word} {i j : Instr}

theorem spells_ite {q : Prop} [Decidable q] {x y : Option Instr} (h : (if q then x else y) = some i)
    (hx : q → x = some i → Spells c w i) (hy : y = some i → Spells c w i) : Spells c w i := by
  split_ifs at h with hq
  · exact hx hq h
  · exact hy h

theorem spells_decIf {z : Bool} (h : decIf z j = some i) (hj : z = true → Spells c w j) : Spells c w i := by
  unfold decIf at h
  split_ifs at h with hz
  cases h
  exact hj hz

theorem spells_fields {op : BitVec 6} {d a b : BitVec 5} {fn : BitVec 8} (hc : instrCore j = some c)
    (he : encodeNimson j = some (wordR op (pOf w) d a b fn)) (hop : opOf w = op) (hd : dOf w = d) (ha : aOf w = a)
    (hb : bOf w = b) (hfn : fnOf w = fn) : Spells c w j := by
  subst hop hd ha hb hfn
  exact ⟨hc, he.trans (congrArg some (wordR_fields w))⟩

variable {op : BitVec 6} {fn : BitVec 8} {rest : Option Instr}

/-- A row of a major opcode whose instruction uses the three register fields. -/
theorem spells_row3 (hop : opOf w = op) (h : (if fnOf w = fn then decIf true j else rest) = some i)
    (hc : instrCore j = some c) (he : encodeNimson j = some (wordR op (pOf w) (dOf w) (aOf w) (bOf w) fn))
    (hrest : rest = some i → Spells c w i) : Spells c w i :=
  spells_ite h (fun hfn h => spells_decIf h fun _ => spells_fields hc he hop rfl rfl rfl hfn) hrest

/-- A row whose instruction leaves field b zero. -/
theorem spells_row2 (hop : opOf w = op) (h : (if fnOf w = fn then decIf (bOf w == 0) j else rest) = some i)
    (hc : instrCore j = some c) (he : encodeNimson j = some (wordR op (pOf w) (dOf w) (aOf w) 0 fn))
    (hrest : rest = some i → Spells c w i) : Spells c w i :=
  spells_ite h (fun hfn h => spells_decIf h fun hb => spells_fields hc he hop rfl rfl (eq_of_beq hb) hfn) hrest

/-- A row whose instruction has no operand but its predicate. -/
theorem spells_row0 (hop : opOf w = op)
    (h : (if fnOf w = fn then decIf (dOf w == 0 && aOf w == 0 && bOf w == 0) j else rest) = some i)
    (hc : instrCore j = some c) (he : encodeNimson j = some (wordR op (pOf w) 0 0 0 fn))
    (hrest : rest = some i → Spells c w i) : Spells c w i := by
  refine spells_ite h (fun hfn h => spells_decIf h fun hz => ?_) hrest
  simp only [Bool.and_eq_true, beq_iff_eq] at hz
  obtain ⟨⟨hd, ha⟩, hb⟩ := hz
  exact spells_fields hc he hop hd ha hb hfn

/-- A row of format I. -/
theorem spells_rowI (h : (if opOf w = op then some j else rest) = some i) (hc : instrCore j = some c)
    (he : encodeNimson j = some (wordI op (pOf w) (dOf w) (aOf w) (immOf w)))
    (hrest : rest = some i → Spells c w i) : Spells c w i := by
  refine spells_ite h (fun hop h => ?_) hrest
  cases h
  subst hop
  exact ⟨hc, he.trans (congrArg some (wordI_fields w))⟩

/-- A major opcode of one instruction whose low byte is an operand. -/
theorem spells_rowFn (h : (if opOf w = op then decIf (bOf w == 0) j else rest) = some i) (hc : instrCore j = some c)
    (he : encodeNimson j = some (wordR op (pOf w) (dOf w) (aOf w) 0 (fnOf w)))
    (hrest : rest = some i → Spells c w i) : Spells c w i :=
  spells_ite h (fun hop h => spells_decIf h fun hb => spells_fields hc he hop rfl rfl (eq_of_beq hb) rfl) hrest

/-! ### The major opcodes with a table of their own -/

theorem spells_dec00 (hop : opOf w = 0x00) (h : dec00 c w = some i) : Spells c w i := by
  iterate 18 refine spells_row3 hop h rfl rfl fun h => ?_
  cases h

theorem spells_dec08 (hop : opOf w = 0x08) (h : dec08 c w = some i) : Spells c w i := by
  iterate 6 refine spells_row3 hop h rfl rfl fun h => ?_
  cases h

theorem spells_dec09 (hop : opOf w = 0x09) (h : dec09 c w = some i) : Spells c w i := by
  iterate 4 refine spells_row3 hop h rfl rfl fun h => ?_
  cases h

theorem spells_dec0A (hop : opOf w = 0x0A) (h : dec0A c w = some i) : Spells c w i := by
  iterate 3 refine spells_row3 hop h rfl rfl fun h => ?_
  iterate 2 refine spells_row2 hop h rfl rfl fun h => ?_
  cases h

theorem spells_dec0B (hop : opOf w = 0x0B) (h : dec0B c w = some i) : Spells c w i := by
  iterate 5 refine spells_row3 hop h rfl rfl fun h => ?_
  refine spells_row2 hop h rfl rfl fun h => ?_
  iterate 2 refine spells_row3 hop h rfl rfl fun h => ?_
  iterate 2 refine spells_row2 hop h rfl rfl fun h => ?_
  refine spells_row3 hop h rfl rfl fun h => ?_
  iterate 2 refine spells_row2 hop h rfl rfl fun h => ?_
  iterate 2 refine spells_row3 hop h rfl rfl fun h => ?_
  refine spells_row2 hop h rfl rfl fun h => ?_
  cases h

theorem spells_dec18 (hop : opOf w = 0x18) (h : dec18 c w = some i) : Spells c w i := by
  iterate 9 refine spells_row3 hop h rfl rfl fun h => ?_
  cases h

theorem spells_dec19 (hop : opOf w = 0x19) (h : dec19 c w = some i) : Spells c w i := by
  iterate 3 refine spells_row3 hop h rfl rfl fun h => ?_
  iterate 2 refine spells_row2 hop h rfl rfl fun h => ?_
  cases h

theorem spells_dec1A (hop : opOf w = 0x1A) (h : dec1A c w = some i) : Spells c w i := by
  refine spells_row2 hop h rfl rfl fun h => ?_
  iterate 2 refine spells_row3 hop h rfl rfl fun h => ?_
  cases h

theorem spells_dec1C (hop : opOf w = 0x1C) (h : dec1C c w = some i) : Spells c w i := by
  refine spells_row2 hop h rfl rfl fun h => ?_
  iterate 2 refine spells_row3 hop h rfl rfl fun h => ?_
  refine spells_row2 hop h rfl rfl fun h => ?_
  iterate 4 refine spells_row3 hop h rfl rfl fun h => ?_
  cases h

theorem spells_dec29 (hop : opOf w = 0x29) (h : dec29 c w = some i) : Spells c w i := by
  iterate 2 refine spells_row0 hop h rfl rfl fun h => ?_
  cases h

/-- EVT's field b: four zeros above its one bit. -/
theorem bit_fields (x : BitVec 5) (hz : x.extractLsb' 1 4 = 0) : (0 : BitVec 4) ++ BitVec.ofBool (x.getLsbD 0) = x := by
  revert x
  decide

theorem spells_dec2B (hop : opOf w = 0x2B) (h : dec2B c w = some i) : Spells c w i := by
  iterate 2 refine spells_row0 hop h rfl rfl fun h => ?_
  refine spells_ite h (fun hfn h => spells_decIf h fun hz => ?_) fun h => ?_
  · obtain ⟨hd, hb⟩ := Bool.and_eq_true_iff.mp hz
    exact spells_fields rfl rfl hop (eq_of_beq hd) rfl (bit_fields _ (eq_of_beq hb)).symm hfn
  refine spells_ite h (fun hfn h => spells_decIf h fun ha => ?_) fun h => ?_
  · exact spells_fields rfl rfl hop rfl (eq_of_beq ha) rfl hfn
  refine spells_ite h (fun hfn h => spells_decIf h fun hd => ?_) fun h => ?_
  · exact spells_fields rfl rfl hop (eq_of_beq hd) rfl rfl hfn
  cases h

/-! ### The shifts by an immediate and the formats of one instruction -/

theorem shift_fields (x : BitVec 13) : (x.extractLsb' 5 8 ++ x.extractLsb' 0 5 : BitVec 13) = x :=
  BitVec.eq_of_toNat_eq (by
    rw [toNat_append_add]
    simp only [BitVec.extractLsb'_toNat, Nat.shiftRight_eq_div_pow]
    omega)

theorem spells_shift {k : BitVec 8} (hop : opOf w = 0x05)
    (h : (if (immOf w).extractLsb' 5 8 = k then some j else rest) = some i) (hc : instrCore j = some c)
    (he : encodeNimson j = some (wordI 0x05 (pOf w) (dOf w) (aOf w) (k ++ (immOf w).extractLsb' 0 5)))
    (hrest : rest = some i → Spells c w i) : Spells c w i := by
  refine spells_ite h (fun hk h => ?_) hrest
  cases h
  rw [← hop, ← hk, shift_fields, wordI_fields] at he
  exact ⟨hc, he⟩

theorem lli_fields (x : BitVec 18) (hz : x.extractLsb' 14 4 = 0) :
    ((0 : BitVec 4) ++ x.extractLsb' 0 14 : BitVec 18) = x := by
  rw [← hz]
  apply BitVec.eq_of_toNat_eq
  rw [toNat_append_add]
  simp only [BitVec.extractLsb'_toNat, Nat.shiftRight_eq_div_pow]
  omega

theorem spells_decodeRaw (h : decodeRaw c w = some i) : Spells c w i := by
  refine spells_ite h spells_dec00 fun h => ?_
  refine spells_ite h spells_dec08 fun h => ?_
  refine spells_ite h spells_dec09 fun h => ?_
  refine spells_ite h spells_dec0A fun h => ?_
  refine spells_ite h spells_dec0B fun h => ?_
  refine spells_ite h spells_dec18 fun h => ?_
  refine spells_ite h spells_dec19 fun h => ?_
  refine spells_ite h spells_dec1A fun h => ?_
  refine spells_ite h spells_dec1C fun h => ?_
  refine spells_ite h spells_dec29 fun h => ?_
  refine spells_ite h spells_dec2B fun h => ?_
  iterate 14 refine spells_rowI h rfl rfl fun h => ?_
  refine spells_ite h (fun hop h => ?_) fun h => ?_
  · iterate 3 refine spells_shift hop h rfl rfl fun h => ?_
    cases h
  refine spells_ite h (fun hop h => ?_) fun h => ?_
  · cases h
    exact ⟨rfl, congrArg some (hop ▸ wordL_fields w)⟩
  refine spells_ite h (fun hop h => spells_decIf h fun hz => ?_) fun h => ?_
  · have hw := wordL_fields w
    rw [hop, ← lli_fields _ (eq_of_beq hz)] at hw
    exact ⟨rfl, congrArg some hw⟩
  iterate 3 refine spells_rowFn h rfl rfl fun h => ?_
  refine spells_ite h (fun hop h => spells_decIf h fun hz => ?_) fun h => ?_
  · exact ⟨rfl, congrArg some (hop ▸ wordB_fields w (eq_of_beq hz))⟩
  refine spells_ite h (fun hop h => spells_decIf h fun hp => ?_) fun h => ?_
  · have hw := wordLoop_fields w
    rw [hop, eq_of_beq hp] at hw
    exact ⟨rfl, congrArg some hw⟩
  refine spells_ite h (fun hop h => spells_decIf h fun hz => ?_) fun h => ?_
  · obtain ⟨hd, hfn⟩ := Bool.and_eq_true_iff.mp hz
    exact spells_fields rfl rfl hop (bit_fields _ (eq_of_beq hd)).symm rfl rfl (eq_of_beq hfn)
  refine spells_ite h (fun hop h => spells_decIf h fun hz => ?_) fun h => ?_
  · obtain ⟨hb, hfn⟩ := Bool.and_eq_true_iff.mp hz
    exact spells_fields rfl rfl hop rfl rfl (eq_of_beq hb) (eq_of_beq hfn)
  refine spells_ite h (fun hop h => spells_decIf h fun hd => ?_) fun h => ?_
  · exact spells_fields rfl rfl hop (eq_of_beq hd) rfl rfl rfl
  cases h

end Rows

theorem decodeNimson_eq_some {c : Proc} {w : Word} {i : Instr} (h : decodeNimson c w = some i) :
    decodeRaw c w = some i ∧ fieldsOk i = true := by
  unfold decodeNimson at h
  split at h
  · cases h
  next j hj =>
    split_ifs at h with hf
    cases h
    exact ⟨hj, hf⟩

/-- Settles O6: row by row, the fields of the word are those the instruction is encoded with. -/
theorem encodeOfDecode : Obligations.EncodeOfDecode := by
  intro i c w h
  obtain ⟨hraw, hok⟩ := decodeNimson_eq_some h
  obtain ⟨hcore, hword⟩ := spells_decodeRaw hraw
  exact ⟨hcore, hok, hword⟩

/-- Settles O7: each of the twelve words is closed. -/
theorem wordsOfTheTable : Obligations.WordsOfTheTable := by
  unfold Obligations.WordsOfTheTable
  decide

end Sys2Proof.Machine

/-! # Special cases of the floating-point arithmetic (O12)

Every result is put together by one of four functions: the canonical NaN, a signed zero, a signed infinity and `fRound`.
Each gives a word in the normal form of `fNorm`, and none but the first a NaN. -/

namespace Sys2Proof.Machine

/-! ## The words that results are made of -/

@[simp] theorem fUnpack_canonNan : fUnpack canonNan = .nan := by decide

@[simp] theorem fUnpack_fZeroS (n : Bool) : fUnpack (fZeroS n) = .zero n := by cases n <;> decide

@[simp] theorem fUnpack_fInfS (n : Bool) : fUnpack (fInfS n) = .inf n := by cases n <;> decide

/-- The word of sign, biased exponent and fraction. -/
def packWord (neg : Bool) (ex ma : Nat) : F32 := BitVec.ofNat 32 ((if neg then 0x80000000 else 0) + ex * 0x800000 + ma)

theorem packWord_toNat (neg : Bool) {ex ma : Nat} (hex : ex < 255) (hma : ma < 0x800000) :
    (packWord neg ex ma).toNat = (if neg then 0x80000000 else 0) + ex * 0x800000 + ma := by
  unfold packWord
  rw [BitVec.toNat_ofNat]
  cases neg <;> simp only [Bool.false_eq_true, if_true, if_false] <;> omega

theorem fUnpack_packWord (neg : Bool) {ex ma : Nat} (hpos : 0 < ex) (hex : ex < 255) (hma : ma < 0x800000) :
    fUnpack (packWord neg ex ma) = .fin neg (0x800000 + ma) ((ex : Int) - 150) := by
  have hexp : (packWord neg ex ma).toNat / 0x800000 % 0x100 = ex := by
    rw [packWord_toNat neg hex hma]
    cases neg <;> simp only [Bool.false_eq_true, if_true, if_false] <;> omega
  have hfrac : (packWord neg ex ma).toNat % 0x800000 = ma := by
    rw [packWord_toNat neg hex hma]
    cases neg <;> simp only [Bool.false_eq_true, if_true, if_false] <;> omega
  have hsign : ((packWord neg ex ma).toNat / 0x80000000 == 1) = neg := by
    rw [packWord_toNat neg hex hma]
    cases neg <;> simp only [Bool.false_eq_true, if_true, if_false, beq_iff_eq, beq_eq_false_iff_ne] <;> omega
  simp only [fUnpack, hexp, hfrac, hsign]
  rw [if_neg (by omega), if_neg (by omega)]

/-! ## Rounding -/

/-- The mantissa before rounding fills 24 bits, so that rounding gives 24 bits or the next power of two. -/
theorem shiftLeft_log2_range {m : Nat} (hm : m ≠ 0) (hb : Nat.log2 m + 1 ≤ 24) :
    0x800000 ≤ m <<< (24 - (Nat.log2 m + 1)) ∧ m <<< (24 - (Nat.log2 m + 1)) < 0x1000000 := by
  have hlo := Nat.log2_self_le hm
  have hhi := Nat.lt_log2_self (n := m)
  rw [Nat.shiftLeft_eq]
  have hpow : 2 ^ Nat.log2 m * 2 ^ (24 - (Nat.log2 m + 1)) = 0x800000 := by
    rw [← Nat.pow_add, show Nat.log2 m + (24 - (Nat.log2 m + 1)) = 23 by omega]
  have hpow' : 2 ^ (Nat.log2 m + 1) * 2 ^ (24 - (Nat.log2 m + 1)) = 0x1000000 := by
    rw [← Nat.pow_add, show Nat.log2 m + 1 + (24 - (Nat.log2 m + 1)) = 24 by omega]
  exact ⟨hpow ▸ Nat.mul_le_mul_right _ hlo, hpow' ▸ Nat.mul_lt_mul_of_pos_right hhi (Nat.two_pow_pos _)⟩

theorem shiftRight_log2_range {m : Nat} (hm : m ≠ 0) (hb : ¬ Nat.log2 m + 1 ≤ 24) :
    0x800000 ≤ m >>> (Nat.log2 m + 1 - 24) ∧ m >>> (Nat.log2 m + 1 - 24) < 0x1000000 := by
  have hlo := Nat.log2_self_le hm
  have hhi := Nat.lt_log2_self (n := m)
  rw [Nat.shiftRight_eq_div_pow]
  constructor
  · rw [Nat.le_div_iff_mul_le (Nat.two_pow_pos _)]
    refine le_trans (le_of_eq ?_) hlo
    rw [show (0x800000 : Nat) = 2 ^ 23 by rfl, ← Nat.pow_add]
    congr 1
    omega
  · rw [Nat.div_lt_iff_lt_mul (Nat.two_pow_pos _)]
    refine lt_of_lt_of_eq hhi ?_
    rw [show (0x1000000 : Nat) = 2 ^ 24 by rfl, ← Nat.pow_add]
    congr 1
    omega

/-- What `fRound` packs once the mantissa is rounded: one that has left its 24 bits is halved. -/
def packRounded (neg : Bool) (q : Nat) (e : Int) : F32 :=
  let (q, e) : Nat × Int := if q = 0x1000000 then (0x800000, e + 1) else (q, e)
  let ex := e + 150
  if 255 ≤ ex then fInfS neg
  else if ex ≤ 0 then fZeroS neg
  else packWord neg ex.toNat (q - 0x800000)

theorem fRound_eq_packRounded (neg : Bool) {m : Nat} (e : Int) (hm : m ≠ 0) :
    ∃ (q : Nat) (e' : Int), 0x800000 ≤ q ∧ q ≤ 0x1000000 ∧ fRound neg m e = packRounded neg q e' := by
  by_cases hb : Nat.log2 m + 1 ≤ 24
  · obtain ⟨hlo, hhi⟩ := shiftLeft_log2_range hm hb
    refine ⟨_, e - ((24 - (Nat.log2 m + 1) : Nat) : Int), hlo, hhi.le, ?_⟩
    simp only [fRound, if_neg hm, if_pos hb]
    rfl
  · obtain ⟨hlo, hhi⟩ := shiftRight_log2_range hm hb
    have hround : ∃ q : Nat, 0x800000 ≤ q ∧ q ≤ 0x1000000 ∧
        fRound neg m e = packRounded neg q (e + ((Nat.log2 m + 1 - 24 : Nat) : Int)) := by
      simp only [fRound, if_neg hm, if_neg hb]
      split
      · exact ⟨_, hlo.trans (Nat.le_succ _), hhi, rfl⟩
      · exact ⟨_, hlo, hhi.le, rfl⟩
    obtain ⟨q, hq⟩ := hround
    exact ⟨q, _, hq⟩

/-- A word that a result may have: no NaN, and not subnormal. -/
def Clean (w : F32) : Prop := fIsNan w = false ∧ fNorm w = w

theorem clean_fZeroS (n : Bool) : Clean (fZeroS n) := by simp [Clean, fIsNan, fNorm]

theorem clean_fInfS (n : Bool) : Clean (fInfS n) := by simp [Clean, fIsNan, fNorm]

theorem clean_of_fin {w : F32} {n : Bool} {m : Nat} {e : Int} (h : fUnpack w = .fin n m e) : Clean w := by
  simp [Clean, fIsNan, fNorm, h]

theorem clean_of_inf {w : F32} {n : Bool} (h : fUnpack w = .inf n) : Clean w := by simp [Clean, fIsNan, fNorm, h]

theorem clean_packRounded (neg : Bool) {q : Nat} (e : Int) (hlo : 0x800000 ≤ q) (hhi : q ≤ 0x1000000) :
    Clean (packRounded neg q e) := by
  have hpack : ∀ (k : Nat) (ex : Int), k < 0x800000 →
      Clean (if 255 ≤ ex then fInfS neg else if ex ≤ 0 then fZeroS neg else packWord neg ex.toNat k) := by
    intro k ex hk
    split_ifs with hover hunder
    · exact clean_fInfS neg
    · exact clean_fZeroS neg
    · exact clean_of_fin (fUnpack_packWord neg (by omega) (by omega) hk)
  unfold packRounded
  split_ifs
  · exact hpack _ _ (by decide)
  · exact hpack _ _ (by omega)

theorem clean_fRound (neg : Bool) (m : Nat) (e : Int) : Clean (fRound neg m e) := by
  by_cases hm : m = 0
  · rw [fRound, if_pos hm]
    exact clean_fZeroS neg
  · obtain ⟨q, e', hlo, hhi, heq⟩ := fRound_eq_packRounded neg e hm
    exact heq ▸ clean_packRounded neg e' hlo hhi

theorem clean_fAddExact (na : Bool) (ma : Nat) (ea : Int) (nb : Bool) (mb : Nat) (eb : Int) :
    Clean (fAddExact na ma ea nb mb eb) := clean_fRound _ _ _

/-! ## Results of operands that are no NaN -/

/-- A NaN with NAN raised, or a word that is none without it. -/
def Proper (r : Fl) : Prop := r = ⟨canonNan, flNan⟩ ∨ Clean r.v ∧ r.fl.getLsbD 1 = false

theorem Clean.proper {v : F32} (h : Clean v) {f : Flags} (hf : f.getLsbD 1 = false := by rfl) : Proper ⟨v, f⟩ := .inr ⟨h, hf⟩

theorem proper_invalid : Proper ⟨canonNan, flNan⟩ := .inl rfl

theorem Proper.nan_iff {r : Fl} (h : Proper r) : r.fl.getLsbD 1 = true ↔ r.v = canonNan := by
  obtain rfl | ⟨⟨hnan, _⟩, hfl⟩ := h
  · decide
  · refine ⟨fun hset => absurd (hset.symm.trans hfl) (by decide), fun hv => ?_⟩
    rw [hv] at hnan
    exact absurd hnan (by decide)

/-- What an operation gives: the canonical NaN for a NaN operand, else a proper result. -/
def GivesBy (nan : Bool) (r : Fl) : Prop := (nan = true → r = ⟨canonNan, 0⟩) ∧ (nan = false → Proper r)

theorem GivesBy.norm {nan : Bool} {r : Fl} (h : GivesBy nan r) : fNorm r.v = r.v := by
  obtain ⟨hn, hp⟩ := h
  cases nan
  case true =>
    rw [hn rfl]
    decide
  case false =>
    obtain hr | ⟨⟨_, hnorm⟩, _⟩ := hp rfl
    · rw [hr]
      decide
    · exact hnorm

theorem givesBy_nan {nan : Bool} (h : nan = true) : GivesBy nan ⟨canonNan, 0⟩ :=
  ⟨fun _ => rfl, fun hf => absurd hf (by simp [h])⟩

theorem Proper.givesBy {nan : Bool} {r : Fl} (hr : Proper r) (h : nan = false) : GivesBy nan r :=
  ⟨fun ht => absurd ht (by simp [h]), fun _ => hr⟩

/-! ## The operations -/

theorem fAdd_gives (a b : F32) : GivesBy (fIsNan a || fIsNan b) (fAdd a b) := by
  unfold fAdd
  split
  · exact givesBy_nan (by simp_all [fIsNan])
  · exact givesBy_nan (by simp_all [fIsNan])
  · refine Proper.givesBy ?_ (by simp_all [fIsNan])
    split_ifs
    · exact (clean_fInfS _).proper
    · exact proper_invalid
  · exact (clean_fInfS _).proper.givesBy (by simp_all [fIsNan])
  · exact (clean_fInfS _).proper.givesBy (by simp_all [fIsNan])
  · exact (clean_fZeroS _).proper.givesBy (by simp_all [fIsNan])
  · exact (clean_fRound _ _ _).proper.givesBy (by simp_all [fIsNan])
  · exact (clean_fRound _ _ _).proper.givesBy (by simp_all [fIsNan])
  · exact (clean_fAddExact _ _ _ _ _ _).proper.givesBy (by simp_all [fIsNan])

theorem fMul_gives (a b : F32) : GivesBy (fIsNan a || fIsNan b) (fMul a b) := by
  unfold fMul
  split
  · exact givesBy_nan (by simp_all [fIsNan])
  · exact givesBy_nan (by simp_all [fIsNan])
  · exact proper_invalid.givesBy (by simp_all [fIsNan])
  · exact proper_invalid.givesBy (by simp_all [fIsNan])
  · exact (clean_fInfS _).proper.givesBy (by simp_all [fIsNan])
  · exact (clean_fInfS _).proper.givesBy (by simp_all [fIsNan])
  · exact (clean_fInfS _).proper.givesBy (by simp_all [fIsNan])
  · exact (clean_fZeroS _).proper.givesBy (by simp_all [fIsNan])
  · exact (clean_fZeroS _).proper.givesBy (by simp_all [fIsNan])
  · exact (clean_fZeroS _).proper.givesBy (by simp_all [fIsNan])
  · exact (clean_fRound _ _ _).proper.givesBy (by simp_all [fIsNan])

theorem fDiv_gives (a b : F32) : GivesBy (fIsNan a || fIsNan b) (fDiv a b) := by
  unfold fDiv
  split
  · exact givesBy_nan (by simp_all [fIsNan])
  · exact givesBy_nan (by simp_all [fIsNan])
  · exact proper_invalid.givesBy (by simp_all [fIsNan])
  · exact proper_invalid.givesBy (by simp_all [fIsNan])
  · exact (clean_fInfS _).proper.givesBy (by simp_all [fIsNan])
  · exact (clean_fInfS _).proper.givesBy (by simp_all [fIsNan])
  · exact (clean_fInfS _).proper.givesBy (by simp_all [fIsNan])
  · exact (clean_fZeroS _).proper.givesBy (by simp_all [fIsNan])
  · exact (clean_fZeroS _).proper.givesBy (by simp_all [fIsNan])
  · exact (clean_fZeroS _).proper.givesBy (by simp_all [fIsNan])
  · exact (clean_fRound _ _ _).proper.givesBy (by simp_all [fIsNan])

/-- FNEG changes the sign alone. -/
theorem fIsNan_fNeg (a : F32) : fIsNan (fNeg a) = fIsNan a := by
  have hlt := a.isLt
  have hneg : (fNeg a).toNat = (a.toNat + 2 ^ 31) % 2 ^ 32 := by rw [fNeg_eq, BitVec.toNat_ofNat]
  have hexp : (fNeg a).toNat / 0x800000 % 0x100 = a.toNat / 0x800000 % 0x100 := by omega
  have hfrac : (fNeg a).toNat % 0x800000 = a.toNat % 0x800000 := by omega
  simp only [fIsNan, fUnpack, hexp, hfrac]
  split_ifs <;> rfl

theorem fSub_gives (a b : F32) : GivesBy (fIsNan a || fIsNan b) (fSub a b) := by
  rw [← fIsNan_fNeg b]
  exact fAdd_gives a (fNeg b)

theorem fSqrt_gives (a : F32) : GivesBy (fIsNan a) (fSqrt a) := by
  unfold fSqrt
  split
  · exact givesBy_nan (by simp_all [fIsNan])
  · exact (clean_fZeroS _).proper.givesBy (by simp_all [fIsNan])
  · exact proper_invalid.givesBy (by simp_all [fIsNan])
  · exact (clean_fInfS _).proper.givesBy (by simp_all [fIsNan])
  · exact proper_invalid.givesBy (by simp_all [fIsNan])
  · split
    exact (clean_fRound _ _ _).proper.givesBy (by simp_all [fIsNan])

theorem fFma_norm (d a b : F32) : fNorm (fFma d a b).v = (fFma d a b).v := by
  unfold fFma
  split
  case h_1 => exact (by decide : fNorm canonNan = canonNan)
  case h_2 hnan _ _ =>
    split
    · exact (clean_fAddExact _ _ _ _ _ _).2
    · exact (clean_fRound _ _ _).2
    · cases hd : fUnpack d <;> simp_all [fNorm]
  case h_3 => exact (fAdd_gives _ _).norm

/-! ## Division by zero -/

section Sign

variable {w : F32}

theorem sign_eq : (w.toNat / 0x80000000 == 1) = decide (2 ^ 31 ≤ w.toNat) := by
  have hlt := w.isLt
  rw [Bool.eq_iff_iff, beq_iff_eq, decide_eq_true_iff]
  omega

theorem fUnpack_of_exp_zero (hexp : w.toNat / 0x800000 % 0x100 = 0) : fUnpack w = .zero (decide (2 ^ 31 ≤ w.toNat)) := by
  simp only [fUnpack, hexp, sign_eq]
  rfl

theorem fKey_ne_zero (hexp : w.toNat / 0x800000 % 0x100 ≠ 0) : fKey w ≠ 0 := by
  have hmag : w.toNat % 0x80000000 ≠ 0 := by omega
  unfold fKey
  split
  next n hz =>
    simp only [fUnpack, if_neg hexp] at hz
    split_ifs at hz
  · split_ifs <;> omega

theorem fUnpack_of_finite (hkey : fKey w ≠ 0) (hnan : fIsNan w = false) (hinf : fIsInf w = false) :
    ∃ m e, fUnpack w = .fin (decide (2 ^ 31 ≤ w.toNat)) m e := by
  have hzero : w.toNat / 0x800000 % 0x100 ≠ 0 := fun hexp => hkey (by simp [fKey, fUnpack_of_exp_zero hexp])
  have hspecial : w.toNat / 0x800000 % 0x100 ≠ 255 := by
    intro hexp
    by_cases hfrac : w.toNat % 0x800000 = 0
    · simp [fIsInf, fUnpack, hexp, hfrac] at hinf
    · simp [fIsNan, fUnpack, hexp, hfrac] at hnan
  simp only [fUnpack, if_neg hzero, if_neg hspecial, sign_eq]
  exact ⟨_, _, rfl⟩

theorem fUnpack_of_zero (hkey : fKey w = 0) : fUnpack w = .zero (decide (2 ^ 31 ≤ w.toNat)) :=
  fUnpack_of_exp_zero (not_not.mp fun hexp => fKey_ne_zero hexp hkey)

end Sign

/-- Settles O12, operation by operation: what each can give (`GivesBy`), and division by its signs. -/
theorem floatSpecialCases : Obligations.FloatSpecialCases := by
  refine ⟨fun a b d => ?_, fun a b => ?_, fun a b hkey hnan hinf hzero _ => ?_⟩
  · simp only [List.forall_mem_cons, List.not_mem_nil, false_imp_iff, implies_true, and_true]
    exact ⟨(fAdd_gives a b).norm, (fSub_gives a b).norm, (fMul_gives a b).norm, (fDiv_gives a b).norm, fFma_norm d a b,
      (fSqrt_gives a).norm⟩
  · have hboth : ∀ {r : Fl}, GivesBy (fIsNan a || fIsNan b) r → ((fIsNan a || fIsNan b) = true → r = ⟨canonNan, 0⟩) ∧
        ((!fIsNan a && !fIsNan b) = true → (r.fl.getLsbD 1 = true ↔ r.v = canonNan)) :=
      fun ⟨hn, hp⟩ => ⟨hn, fun h => (hp (by simpa using h)).nan_iff⟩
    simp only [List.forall_mem_cons, List.not_mem_nil, false_imp_iff, implies_true, and_true]
    exact ⟨hboth (fAdd_gives a b), hboth (fSub_gives a b), hboth (fMul_gives a b), hboth (fDiv_gives a b)⟩
  · obtain ⟨m, e, ha⟩ := fUnpack_of_finite hkey hnan hinf
    simp only [fDiv, ha, fUnpack_of_zero hzero]

end Sys2Proof.Machine

/-! # Memory keeps its form (O8)

Memory changes in a handful of functions of the model, each of which keeps the canonical form (`memPut_wf` and its kin).
Every other function puts those together: `Formed` is carried along its definition, one rule per function, in the order of
the model. A rule's proof follows the definition: `ifThen` and `ifElse` for a conditional part and an early end, `branch` and
`ite` for two branches, `foldl` for a loop. -/

namespace Sys2Proof.Machine

/-- Memory has its canonical form. -/
def Formed (s : State) : Prop := Memory.wf s.mem = true

/-- The outcome's next state has its memory in the form. -/
def Leaves (o : Host.Outcome State Fault Refusal) : Prop := ∀ t, o = .next t → Formed t

namespace Formed

variable {t u v : State}

/-! ## The shapes of a definition -/

theorem next (h : Formed t) : Leaves (.next t) := fun _ he => by
  cases he
  exact h

section Branches

variable {α : Type} {q : Prop} [Decidable q]

theorem ite (h : Formed u) (h' : Formed v) : Formed (if q then u else v) := by
  split
  · exact h
  · exact h'

theorem ifThen (h : Formed t) (hf : Formed t → Formed u) : Formed (if q then u else t) := (hf h).ite h

theorem ifElse (h : Formed t) (hf : Formed t → Formed u) : Formed (if q then t else u) := h.ite (hf h)

theorem branch (h : Formed t) (hf : Formed t → Formed u) (hg : Formed t → Formed v) : Formed (if q then u else v) :=
  (hf h).ite (hg h)

theorem ite_fst {x y : State × α} (h : Formed x.1) (h' : Formed y.1) : Formed (if q then x else y).1 := by
  split
  · exact h
  · exact h'

theorem ite_snd {x y : α × State} (h : Formed x.2) (h' : Formed y.2) : Formed (if q then x else y).2 := by
  split
  · exact h
  · exact h'

theorem ifThen_fst {x y : State × α} (h : Formed y.1) (hf : Formed y.1 → Formed x.1) : Formed (if q then x else y).1 :=
  (hf h).ite_fst h

theorem ifElse_fst {x y : State × α} (h : Formed x.1) (hf : Formed x.1 → Formed y.1) : Formed (if q then x else y).1 :=
  h.ite_fst (hf h)

theorem branch_fst {x y : State × α} (h : Formed t) (hf : Formed t → Formed x.1) (hg : Formed t → Formed y.1) :
    Formed (if q then x else y).1 := (hf h).ite_fst (hg h)

theorem ifThen_snd {x y : α × State} (h : Formed y.2) (hf : Formed y.2 → Formed x.2) : Formed (if q then x else y).2 :=
  (hf h).ite_snd h

theorem ifElse_snd {x y : α × State} (h : Formed x.2) (hf : Formed x.2 → Formed y.2) : Formed (if q then x else y).2 :=
  h.ite_snd (hf h)

theorem branch_snd {x y : α × State} (h : Formed t) (hf : Formed t → Formed x.2) (hg : Formed t → Formed y.2) :
    Formed (if q then x else y).2 := (hf h).ite_snd (hg h)

end Branches

theorem foldl {α : Type} {f : State → α → State} {l : List α} (h : Formed t)
    (hf : ∀ {t} {x}, Formed t → Formed (f t x)) : Formed (l.foldl f t) := by
  induction l generalizing t with
  | nil => exact h
  | cons x l ih => exact ih (hf h)

theorem foldl_fst {α β : Type} {f : State × β → α → State × β} {l : List α} {p : State × β} (h : Formed p.1)
    (hf : ∀ {p} {x}, Formed p.1 → Formed (f p x).1) : Formed (l.foldl f p).1 := by
  induction l generalizing p with
  | nil => exact h
  | cons x l ih => exact ih (hf h)

section Rules

variable (h : Formed t)
include h

/-! ## Updates of one component -/

theorem freeCtr {x : Nat} : Formed { t with freeCtr := x } := h
theorem part {x : Part} : Formed { t with part := x } := h
theorem regs {x : Tbl Word} : Formed { t with regs := x } := h
theorem inForce {x : Tbl Word} : Formed { t with inForce := x } := h
theorem shadow {x : Tbl Word} : Formed { t with shadow := x } := h
theorem elig {x : Tbl Word} : Formed { t with elig := x } := h
theorem held {x : Tbl Word} : Formed { t with held := x } := h
theorem tm {x : TimeSt} : Formed { t with tm := x } := h
theorem eng {x : EngSt} : Formed { t with eng := x } := h
theorem host {x : HostSt} : Formed { t with host := x } := h
theorem sec {x : SecSt} : Formed { t with sec := x } := h
theorem pwr {x : PwrSt} : Formed { t with pwr := x } := h
theorem prot {x : ProtSt} : Formed { t with prot := x } := h
theorem gateNet {x : Bool} : Formed { t with gateNet := x } := h
theorem sns {x : SnsSt} : Formed { t with sns := x } := h
theorem cams {x : Tbl CamSt} : Formed { t with cams := x } := h
theorem tmEng {x : TimeSt} {y : EngSt} : Formed { t with tm := x, eng := y } := h
theorem tmPwr {x : TimeSt} {y : PwrSt} : Formed { t with tm := x, pwr := y } := h
theorem tmSns {x : TimeSt} {y : SnsSt} : Formed { t with tm := x, sns := y } := h
theorem tmLine {x : TimeSt} {y : LineSt} : Formed { t with tm := x, line := y } := h
theorem pwrSaf {x : PwrSt} {y : SafeSt} : Formed { t with pwr := x, saf := y } := h
theorem snsCells {x : SnsSt} {y : Tbl CellSt} : Formed { t with sns := x, cells := y } := h
theorem regsPwrSaf {x : Tbl Word} {y : PwrSt} {z : SafeSt} : Formed { t with regs := x, pwr := y, saf := z } := h

/-! ## Writes of memory -/

theorem putWord {a : Nat} {w : Word} : Formed (t.putWord a w) := memPutWord_wf a w h
theorem putBytes {a : Nat} {w : Word} {be : BitVec 4} : Formed (t.putBytes a w be) := memPutBytes_wf a w be h
theorem putWords {a : Nat} {ws : List Word} : Formed (t.putWords a ws) := memPutWords_wf a ws h
theorem copy {src dst n : Nat} : Formed (t.copy src dst n) := memCopy_wf src dst n h
theorem putList {a : Nat} {bs : List Byte} : Formed (t.putList a bs) := memPutList_wf a bs h
theorem clearBytes {a n : Nat} : Formed (t.clearBytes a n) := memFilter_wfFrom _ h

/-! ## The functions of the model, in its order -/

/-! ### Ops -/

theorem setReg {a : Nat} {w : Word} : Formed (t.setReg a w) := h
theorem setF {x : Fld} {v : Nat} : Formed (t.setF x v) := h
theorem setB {x : Fld} {v : Bool} : Formed (t.setB x v) := h
theorem incSat {x : Fld} {by_ : Nat} : Formed (t.incSat x by_) := h
theorem incWrap {x : Fld} {by_ : Nat} : Formed (t.incWrap x by_) := h
theorem maxF {x : Fld} {v : Nat} : Formed (t.maxF x v) := h
theorem takeInForce {lo hi : Nat} : Formed (t.takeInForce lo hi) := h
theorem setI {x : Fld} {i : Int} : Formed (t.setI x i) := h
theorem free {w : Nat} : Formed (t.free w).2 := h
theorem atInstant {t0 : Nat} : Formed (t.at t0) := h.ifElse (·.tm)
theorem sendMsg {v : Nat} : Formed (t.sendMsg v) := h.host.ite h.incSat.host
theorem msgOnRise {s0 : State} {v : Nat} : Formed (s0.msgOnRise t v) := h.ifThen (·.sendMsg)
theorem enqueue {r : EvRec} : Formed (t.enqueue r) := h.incSat.setF.host.ite h.setF.host

theorem raiseAt {stamp : Nat} {safety : Bool} {src payload : Nat} {origin reaction : Word} :
    Formed (t.raiseAt stamp safety src payload origin reaction) :=
  h.setF.incWrap.msgOnRise.ifThen (·.enqueue)

theorem raise {src payload : Nat} {origin reaction : Word} : Formed (t.raise src payload origin reaction) := h.raiseAt
theorem raiseSafety {src payload : Nat} {reaction : Word} : Formed (t.raiseSafety src payload reaction) := h.raiseAt
theorem raiseDev {src payload : Nat} : Formed (t.raiseDev src payload) := h.raise

theorem ringStore {n i : Nat} {es : List (List Word)} : Formed (t.ringStore n i es) := by
  induction es generalizing t i with
  | nil => exact h
  | cons e es ih => exact ih h.putWords

theorem ringPut {n : Nat} {es : List (List Word)} : Formed (t.ringPut n es) :=
  h.ifElse fun h => h.branch (fun h => h.ringStore.incWrap.incWrap.host.ifThen (·.raiseDev)) fun h =>
    h.incSat.setF.ifElse fun h => h.host.branch (·.setF.incWrap.msgOnRise) (·.raiseDev)

theorem of_ringTake {n : Nat} {y : List Word × State} (hy : t.ringTake n = some y) : Formed y.2 := by
  unfold State.ringTake at hy
  split_ifs at hy
  cases hy
  exact h.incWrap

theorem setLock {m : Master} {v : Bool} : Formed (t.setLock m v) := by
  unfold State.setLock
  split
  · exact h
  · exact h.setB.host

theorem lockKey {m : Master} {val : Word} : Formed (t.lockKey m val) := h.setLock
theorem lockUse {m : Master} : Formed (t.lockUse m) := h.setLock

theorem lockLapse {m : Master} : Formed (t.lockLapse m) := by
  unfold State.lockLapse
  split
  · exact h.ifThen (·.atInstant.setLock.setF)
  · exact h

/-! ### Bind -/

theorem setUnit {n : Nat} {u : UnitSt} : Formed (t.setUnit n u) := h
theorem setMd {d : Nat} {x : MdSt} : Formed (t.setMd d x) := h
theorem setLeg {n : Nat} {x : LegSt} : Formed (t.setLeg n x) := h
theorem setConv {k : Nat} {x : ConvSt} : Formed (t.setConv k x) := h
theorem gfBlank {n : Nat} : Formed (t.gfBlank n) := h
theorem legSettle {n : Nat} : Formed (t.legSettle n) := (h.ifThen (·.setF.incSat)).setLeg.ifThen (·.gfBlank)
theorem legApply {n : Nat} : Formed (t.legApply n) := h.ifElse (·.setLeg.setLeg.setF)

theorem legsApply {ls : List Nat} : Formed (t.legsApply ls) :=
  ((h.foldl (·.legApply)).foldl (·.legApply)).foldl (·.legSettle)

theorem allLegs : Formed t.allLegs := h.legsApply

theorem deadTimeEnd {n : Nat} : Formed (t.deadTimeEnd n) := by
  unfold State.deadTimeEnd
  dsimp only
  split
  · exact h.ifElse (·.atInstant.setLeg.legsApply)
  · exact h.atInstant.setLeg.legsApply
  · exact h

/-! ### Gpio -/

theorem setPort {n : Nat} {x : PortSt} : Formed (t.setPort n x) := h
theorem gpioSync : Formed t.gpioSync := h
theorem setAxis {n : Nat} {x : AxisSt} : Formed (t.setAxis n x) := h
theorem chatNote {g : Nat} : Formed (t.chatNote g) := h.foldl fun h => h.ifThen (·.setAxis)

theorem gpioEdge {g : Nat} {level : Bool} {held ph : Nat} : Formed (t.gpioEdge g level held ph) :=
  (h.pwr.ifElse (·.chatNote)).ifElse fun h => h.setF.ifElse (·.setF.setF.setF.incSat.raiseAt)

/-! ### Demand -/

theorem abortSeq {u : Nat} : Formed (t.abortSeq u) := (h.setF.raise.ite (h.ifThen (·.setF.raise))).setUnit
theorem unitEnter {u st : Nat} : Formed (t.unitEnter u st) := h
theorem leaveRun {u : Nat} : Formed (t.leaveRun u) := h
theorem unitRampDown {u : Nat} : Formed (t.unitRampDown u) := (h.ifThen (·.setF.setUnit)).unitEnter

theorem unitSafe {st : Nat} {shorted : Bool} {u : Nat} : Formed (State.unitSafe st shorted t u) :=
  h.ifElse fun h => h.branch (fun h => h.unitRampDown.setF.ite (h.ifThen (·.setF))) fun h =>
    h.abortSeq.leaveRun.unitEnter.setF.ifThen fun h => (h.ifElse (·.setUnit)).ifElse (·.raise)

theorem histLog {k cls st src : Nat} {changed : Bool} : Formed (t.histLog k cls st src changed) :=
  h.setF.setF.setB.setF.setF.setF.incWrap.incWrap.setF

theorem diagStop {k cls : Nat} : Formed (t.diagStop k cls) := h.ifThen (·.setF.setF.setF.gpioSync.raiseDev.allLegs)

theorem convEnter {k cls st : Nat} : Formed (t.convEnter k cls st) :=
  (h.setF.setF.incSat.setConv.foldl (·.unitSafe)).allLegs

theorem ascDenied {k st : Nat} : Formed (t.ascDenied k st) := h.ifThen fun h => h.foldl (·.setF)

theorem demand {k cls st src : Nat} : Formed (t.demand k cls st src) :=
  h.ifElse fun h => h.ascDenied.histLog.diagStop.branch (·.convEnter) (·.incSat)

theorem demandStamped {stamp k cls st src : Nat} {origin : Word} : Formed (t.demandStamped stamp k cls st src origin) :=
  h

theorem demandLater {k cls st src : Nat} {origin : Word} : Formed (t.demandLater k cls st src origin) := h
theorem haltDemand {c src : Nat} : Formed (t.haltDemand c src) := h.foldl (·.demandLater)

theorem unitDemandLater {u act cls src : Nat} : Formed (t.unitDemandLater u act cls src) := by
  unfold State.unitDemandLater
  split
  · exact h.demandLater
  · exact h

theorem unlessTaken {kind k : Nat} {f : State → State} (hf : Formed t → Formed (f t)) :
    Formed (t.unlessTaken kind k f) := h.ifElse hf

theorem beforeCouch {kind k : Nat} {due : Bool} {f : State → State} (hf : ∀ {t}, Formed t → Formed (f t)) :
    Formed (t.beforeCouch kind k due f) := h.ifThen fun h => hf h.atInstant.prot

theorem limpEnter {u bit : Nat} : Formed (t.limpEnter u bit) := h

theorem limpPort {src u : Nat} : Formed (State.limpPort src t u) :=
  h.branch (fun h => h.limpEnter.ifElse (·.unitDemandLater)) (·.unitDemandLater)

/-! ### Sense -/

theorem setSd {n : Nat} {x : SdSt} : Formed (t.setSd n x) := h
theorem sdcEnable {m : Nat} : Formed (t.sdcEnable m) := h.ifElse fun h => h.setF.ite h.takeInForce.setF.sns
theorem sdcDisable {m : Nat} : Formed (t.sdcDisable m) := h.setF.foldl fun h => h.ifThen (·.setF)
theorem sdcRestart {t0 : Nat} : Formed (t.sdcRestart t0) := h.ifThen (·.sns)

theorem sdOutput {n : Nat} : Formed (t.sdOutput n) := by
  refine h.ifElse fun h => ?_
  dsimp only
  split
  · exact ((h.setF.setB.ifThen (·.setF)).ifThen (·.setF)).setB
  · exact (((h.free (w := 16)).setF.setB.ifThen (·.setF)).ifThen (·.setF)).setB

theorem sdEnable {n : Nat} : Formed (t.sdEnable n) :=
  h.ifElse fun h => h.setF.ite h.takeInForce.takeInForce.setF.setF.setF.setSd

theorem sdFastOff {n : Nat} : Formed (t.sdFastOff n) := h
theorem sdDisable {n : Nat} : Formed (t.sdDisable n) := h
theorem fastEnable {n : Nat} : Formed (t.fastEnable n) := h.ifElse fun h => h.setF.ite h.takeInForce.setF.setF
theorem fastDisable {n : Nat} : Formed (t.fastDisable n) := h
theorem sdCompare {n : Nat} {out : Int} : Formed (t.sdCompare n out) := ((h.ifThen (·.setF)).ifThen (·.setF)).setB.setSd

theorem sdLatch {n : Nat} {b : Bool} : Formed (t.sdLatch n b) :=
  h.ifElse fun h => (h.atInstant.setSd.setB.ifThen (·.setF)).ifElse fun h => h.sdCompare.ite h.free.sdCompare

theorem sdIdle {n : Nat} : Formed (t.sdIdle n) := h.ifElse (·.atInstant.sdOutput.setSd)
theorem sarEnable : Formed t.sarEnable := h.ifElse fun h => h.setF.ifElse (·.takeInForce.takeInForce.setF.setF.sns)
theorem sarDisable : Formed t.sarDisable := h.setF.setF.foldl (·.setF)

theorem sarStore {idle : Bool} {c k code : Nat} : Formed (t.sarStore idle c k code) := by
  unfold State.sarStore
  split
  · exact h
  · exact h.setF.setF.setF.setB.ifElse fun h => h.sns.ite h.sns

theorem hbStatus : Formed t.hbStatus := h.setB.ifElse (·.setF.incSat)
theorem setCell {c : Nat} {x : CellSt} : Formed (t.setCell c x) := h
theorem hbPut {ws : List (Nat × Word)} : Formed (t.hbPut ws) := h

/-! ### Feedback -/

theorem raisePort {p src : Nat} : Formed (t.raisePort p src) := h.raise
theorem setEmu {m : Nat} {x : EmuSt} : Formed (t.setEmu m x) := h

theorem emuBacklog {m : Nat} : Formed (t.emuBacklog m) :=
  (h.ifThen (·.setEmu.setF)).setF.branch (·.setEmu.setF.raisePort) fun h => h.ifThen (·.setEmu)

theorem emuTarget {m : Nat} : Formed (t.emuTarget m) :=
  h.ifElse fun h => h.setF.ite (h.ifThen (·.setF.setF.setEmu)).setEmu.emuBacklog

theorem emuFollow {p : Nat} : Formed (t.emuFollow p) := (h.ifThen (·.emuTarget)).ifThen (·.emuTarget)
theorem emuEnable {m : Nat} : Formed (t.emuEnable m) := h.ifElse (·.takeInForce.setF.setB.setEmu.setF)
theorem emuStep {m : Nat} : Formed (t.emuStep m) := h.ifElse (·.atInstant.setEmu.emuBacklog)
theorem portValid {p : Nat} : Formed (t.portValid p) := h.setB.ifElse (·.emuFollow)
theorem portFault {p cause ev : Nat} : Formed (t.portFault p cause ev) := h.setF.setF.portValid.foldl (·.limpPort)
theorem compareEval {p t0 : Nat} : Formed (t.compareEval p t0) := h.ifElse fun h => h.ifThen (·.setPort)

theorem posAt {p : Nat} {c : Int} : Formed (t.posAt p c) :=
  h.setPort.setF.setB.setB.ifThen fun h => (h.setF.ifThen (·.setF)).raisePort

theorem setPos {p : Nat} {v : Int} : Formed (t.setPos p v) := h.posAt
theorem limitWritten {p : Nat} : Formed (t.limitWritten p) := h.ifThen (·.posAt)
theorem countBy {p : Nat} {d : Int} : Formed (t.countBy p d) := h.setPort.setPos.compareEval.emuFollow

theorem quadStep {p : Nat} {trackB : Bool} : Formed (t.quadStep p trackB) :=
  h.setPort.ifElse fun h => h.setPort.countBy.ite (h.ifThen (·.setPort))

theorem illegal {p : Nat} : Formed (t.illegal p) := by
  unfold State.illegal
  dsimp only
  split
  · exact h.setPort.incSat.ifThen (·.setF.raisePort.portFault)
  · exact h.setPort.incSat

theorem bothTracks {p : Nat} : Formed (t.bothTracks p) := h.setPort.ifThen (·.illegal)
theorem axesIndex {p : Nat} : Formed (t.axesIndex p) := h.foldl fun h => h.ifThen (·.setAxis)

theorem indexLevel {p : Nat} {level : Bool} {edge : State → State} (hf : ∀ {t}, Formed t → Formed (edge t)) :
    Formed (t.indexLevel p level edge) := h.ifElse fun h => h.setPort.ifElse hf

theorem indexEdge {p : Nat} : Formed (t.indexEdge p) := by
  refine h.ite ((h.incWrap.setF.setF.ifThen (·.setPos.compareEval)).ite (h.incWrap.setI.ite ?_)).axesIndex
  dsimp only
  split
  · exact h.incWrap.setI.setF.raisePort
  · exact h.incWrap.setI.setF.raisePort.setPort.setPos.compareEval.emuFollow
  · exact h.incWrap.setI.setF.raisePort.portFault

theorem measured {p : Nat} {m tm : Int} {t0 : Nat} : Formed (t.measured p m tm t0) := h.setPort.compareEval

theorem sinCos {p sinCode cosCode tm t0 : Nat} : Formed (t.sinCos p sinCode cosCode tm t0) :=
  h.ifElse fun h => (h.ifThen (·.free)).setPort.branch (·.illegal) (·.setPort.setPos.measured)

theorem ampFault {p : Nat} : Formed (t.ampFault p) := h.ifThen (·.setPort.setF.raisePort.portFault)

theorem sarSlotDone {idle : Bool} {t0 k c0 c1 : Nat} : Formed (t.sarSlotDone idle t0 k c0 c1) := by
  refine h.ite ?_
  dsimp only
  split
  · exact h.sarStore.sarStore.sinCos
  · exact h.sarStore.sarStore

theorem ssiStart {p : Nat} {data : Bool} : Formed (t.ssiStart p data) := h.ifElse (·.atInstant.setPort)
theorem ssiBad {p : Nat} : Formed (t.ssiBad p) := h.setPort.incSat.setF.portValid.ifThen (·.raisePort.portFault)

theorem ssiEnd {p : Nat} {bits : BitVec 40} : Formed (t.ssiEnd p bits) :=
  h.ifElse fun h => h.atInstant.setF.branch (·.ssiBad) (·.setPort.setPos.measured.portValid)

theorem ssiTick {p : Nat} : Formed (t.ssiTick p) := h.ifElse (·.setPort.setF.raisePort.portFault)
theorem obsShow {p : Nat} : Formed (t.obsShow p) := h
theorem obsPredict {p : Nat} : Formed (t.obsPredict p) := h.ifElse (·.setPort)

theorem obsCorrect {p : Nat} : Formed (t.obsCorrect p) := by
  refine h.ite ?_
  refine Formed.emuFollow ?_
  refine Formed.obsShow ?_
  refine Formed.setPort ?_
  split
  · exact h.setPort
  · exact h

theorem portEnable {p : Nat} : Formed (t.portEnable p) :=
  h.ifElse fun h => h.setF.ifElse fun h =>
    h.takeInForce.takeInForce.setF.setF.setF.setF.setF.setF.setF.setPort.posAt.ifThen (·.compareEval)

theorem compareOff {p : Nat} : Formed (t.compareOff p) := h
theorem portDisable {p : Nat} : Formed (t.portDisable p) := h.setPort.setF.setF.portValid.compareOff
theorem portSettle {p : Nat} : Formed (t.portSettle p) := h.ifThen (·.setPort.portValid)
theorem portClear {p : Nat} : Formed (t.portClear p) := h.setF.ite (h.ifThen (·.setF)).setF.setF.setPort.portValid

theorem compareArm {p : Nat} {val : Word} : Formed (t.compareArm p val) :=
  h.setReg.gpioSync.branch (·.compareOff.setF) fun h => h.setF.setF.setF.setPort.ifThen (·.compareEval)

theorem compareHit {p : Nat} : Formed (t.compareHit p) := by
  unfold State.compareHit
  dsimp only
  split
  · exact h
  · exact h.ifElse fun h => (h.raiseAt.setF.setF.ifThen (·.compareOff.setF)).ifElse fun h => (h.ifThen
      (·.incSat)).setPort

theorem comparePulseEnd {p : Nat} : Formed (t.comparePulseEnd p) := by
  unfold State.comparePulseEnd
  split
  · exact h.atInstant.setPort
  · exact h

/-! ### Modulation -/

theorem hostDrop {c : Nat} : Formed (t.hostDrop c) := h
theorem mdPlace {d o t0 : Nat} : Formed (t.mdPlace d o t0) := h
theorem mdClear {d : Nat} : Formed (t.mdClear d) := h.foldl (·.setLeg)
theorem mdStart {d t0 : Nat} : Formed (t.mdStart d t0) := h.setF.setF.mdClear.setMd.mdPlace.ifThen (·.setMd)
theorem mdHalt {d : Nat} : Formed (t.mdHalt d) := h.setF.setF.setMd.mdClear.legsApply
theorem setShd {a : Nat} {w : Word} : Formed (t.setShd a w) := h
theorem modShow {d : Nat} : Formed (t.modShow d) := h.foldl (·.setF.setF.setB)

theorem legSet {n : Nat} {w : Word} : Formed (t.legSet n w) :=
  ((h.ifThen (·.setF)).ifThen (·.takeInForce.takeInForce.setF)).setReg.setB.ifThen (·.setShd)

theorem legCmd {n : Nat} {w : Word} : Formed (t.legCmd n w) := h.legSet.legsApply
theorem legReload {hold : Bool} {n : Nat} : Formed (State.legReload hold t n) := h.ifElse (·.legSet)

theorem reload {d : Nat} : Formed (t.reload d) := by
  unfold State.reload
  dsimp only
  split
  · exact ((h.foldl (·.setReg)).modShow.foldl (·.legReload)).legsApply.setMd.setUnit.ifThen (·.legsApply)
  · exact ((h.foldl (·.setReg)).modShow.foldl (·.legReload)).legsApply.setMd

theorem late {d : Nat} : Formed (t.late d) := by
  unfold State.late
  dsimp only
  split
  · exact (h.ifThen (·.reload)).ifThen (·.incSat.setF)
  · exact h.ifThen (·.reload)

theorem refHostWrite {d a : Nat} {w : Word} : Formed (t.refHostWrite d a w) := by
  unfold State.refHostWrite
  split
  · exact h.hostDrop
  · exact h
  · exact h.ifElse fun h => h.setReg.setShd.modShow.ite h.late.setShd.modShow

theorem holdRelease {d : Nat} : Formed (t.holdRelease d) := h.ifElse fun h => (h.ifThen (·.late)).setF

theorem gateHostWrite {n : Nat} {w : Word} : Formed (t.gateHostWrite n w) := by
  unfold State.gateHostWrite
  dsimp only
  split
  · exact h.hostDrop
  · split
    · exact h.setShd.ifElse (·.legCmd)
    · exact h.setShd.legCmd.ite h.late.setShd

theorem freeLegs : Formed t.freeLegs := h.foldl fun h => h.ifThen (·.legCmd)
theorem commitRef {d a : Nat} {w : Word} : Formed (t.commitRef d a w) := h.ifElse (·.setShd.setMd.modShow)
theorem commitGate {n field raw : Nat} : Formed (t.commitGate n field raw) := h
theorem unitDuties {d : Nat} {codes : List Nat} : Formed (t.unitDuties d codes) := (h.foldl (·.setShd)).setMd.modShow

theorem modEnable {d : Nat} : Formed (t.modEnable d) :=
  h.ifElse fun h => h.setF.ifElse fun h => (h.takeInForce.setF.setMd.branch (·.atInstant.mdStart) fun h => h.ifElse
    (·.setF)).modShow.legsApply

theorem modDisable {d : Nat} : Formed (t.modDisable d) := h.setF.mdHalt

theorem boundStart {t0 d : Nat} : Formed (State.boundStart t0 t d) :=
  h.ifElse fun h => h.setF.setF.setF.ite h.mdStart.legsApply

theorem boundStop {d : Nat} : Formed (t.boundStop d) := h.ifThen (·.mdHalt.setF)
theorem carrierCount {d sel : Nat} : Formed (t.carrierCount d sel) := h.ifElse fun h => h.setMd.ite h.setMd
theorem bootPeriod {n : Nat} : Formed (t.bootPeriod n) := h.ifElse (·.setLeg)

theorem carrierZero {d : Nat} : Formed (t.carrierZero d) :=
  h.ifElse fun h => (h.atInstant.setMd.carrierCount.foldl (·.bootPeriod)).ifThen (·.setMd)

theorem carrierPeak {d : Nat} : Formed (t.carrierPeak d) := h.ifElse (·.atInstant.setMd.carrierCount)
theorem refreshStart {n : Nat} : Formed (t.refreshStart n) := h.ifThen (·.setLeg.setF.incSat.legsApply)

theorem refreshEnd {n : Nat} : Formed (t.refreshEnd n) := by
  unfold State.refreshEnd
  split
  · exact h
  · exact h.ifElse (·.atInstant.setLeg.legsApply)

theorem pwmEdge {d j n : Nat} {v : Bool} : Formed (t.pwmEdge d j n v) := h.setF.setLeg.ite (h.ifThen (·.setF)).setLeg

theorem pwmAt {d j n : Nat} {v : Bool} : Formed (t.pwmAt d j n v) := by
  unfold State.pwmAt
  dsimp only
  split
  · exact h.ifThen (·.setLeg)
  · exact h.ifThen (·.pwmEdge)

theorem slotNow {d j : Nat} : Formed (State.slotNow d t j) := by
  unfold State.slotNow
  split
  · exact h.pwmAt
  · exact h

theorem phaseNow {d j n : Nat} : Formed (t.phaseNow d j n) := (h.foldl (·.slotNow)).legsApply

theorem pwmStep {d j : Nat} : Formed (t.pwmStep d j) := by
  unfold State.pwmStep
  split
  · exact h
  · exact h.ifElse fun h => h.phaseNow.ifThen (·.atInstant.phaseNow)

theorem edgesBefore {t0 : Nat} : Formed (t.edgesBefore t0) := h.foldl fun h => by
  dsimp only
  split
  · exact h.ifThen (·.pwmStep)
  · exact h

theorem eventBefore {t0 : Nat} : Formed (t.eventBefore t0) :=
  h.ifElse fun h => (h.carrierPeak.ite h.carrierZero).ifThen (·.reload)

theorem psynci : Formed t.psynci := h.ifElse (·.edgesBefore.eventBefore.edgesBefore.atInstant.mdPlace.setF)
theorem gateCfg {n : Nat} {w : Word} : Formed (t.gateCfg n w) := h.setF.ite h.setReg.allLegs

/-! ### Nimson -/

theorem setCore {i : Nat} {l : LaneSt} : Formed (t.setCore i l) := h
theorem onCore {i : Nat} {f : LaneSt → LaneSt} : Formed (t.onCore i f) := h
theorem setCtx {c : Nat} {x : CtxSt} : Formed (t.setCtx c x) := h

theorem quarSync : Formed t.quarSync := h.setF.foldl_fst fun h => by
  dsimp only
  split
  · exact h.setF.setF
  · exact h.setF.setF

theorem quarantine {t0 : Nat} : Formed (t.quarantine t0) := h.ifElse (·.eng.quarSync)
theorem unquarantine {t0 : Nat} : Formed (t.unquarantine t0) := h.eng.quarSync
theorem wmFail {t0 wh : Nat} : Formed (t.wmFail t0 wh) := h.quarantine.setF.setF.incSat.raiseDev
theorem discard {c cause exc : Nat} : Formed (t.discard c cause exc) := h.ifElse (·.setCtx.setF.setF.setF.raise)
theorem sliceEnd {i : Nat} : Formed (t.sliceEnd i) := h
theorem laneExc {i code : Nat} : Formed (t.laneExc i code) := h.setF.setF.setF.setF.setF.sliceEnd.raiseDev.discard

theorem of_eccAccess {i a n : Nat} {u : State} (hu : t.eccAccess i a n = some u) : Formed u := by
  unfold State.eccAccess at hu
  dsimp only at hu
  split at hu
  · cases hu
  · cases hu
    exact h.foldl fun h => h.ifThen fun h => h.eng.ifThen (·.incSat)

theorem ran {l : LaneSt} {n : Nat} : Formed (t.ran l n) := h.ifElse (·.atInstant)

theorem instr {c : Proc} {on : Cores} {m : Pred} {n : Nat} {p : BitVec 3} {ok : Bool} {eff : Effect}
    (heff : ∀ {t l}, Formed t → Formed (eff t l).1) : Formed (t.instr c on m n p ok eff) := by
  refine h.ifElse fun h => h.onCore.ifElse fun h => h.laneExc.ite ?_
  split
  · exact h.laneExc
  next u hu =>
    have hu : Formed u := by
      split_ifs at hu
      · exact h.of_eccAccess hu
      · cases hu
        exact h
    refine (hu.ite hu.ran.setCore.laneExc).ite (hu.ifElse fun h => ?_)
    exact (h.ifThen (·.ran)).setCore.ite ((heff (h.ifThen (·.ran)).setCore).ite
      ((h.ifThen (·.ran)).setCore.laneExc.ite (h.ifThen (·.ran))))

/-! ### Field -/

theorem unitMeasure {u : Nat} : Formed (t.unitMeasure u) := by
  refine h.setUnit.ite ?_
  dsimp only
  split
  · exact h.setF.setUnit
  · exact h.setF.setUnit.ite h.free.setF.setUnit

theorem obsUpdate {u : Nat} : Formed (t.obsUpdate u) := by
  refine h.ifElse fun h => ?_
  dsimp only
  split
  · split
    · exact h.atInstant.setUnit.setF.setF.ifThen (·.setF.setF)
    · exact (h.atInstant.free (w := 32)).setUnit.setF.setF.ifThen (·.setF.setF)
  · exact ((((h.atInstant.free (w := 32)).free (w := 32)).free (w := 32)).free (w := 32)).setUnit.setF.setF.ifThen
      (·.setF.setF)

theorem obsValid {u : Nat} : Formed (t.obsValid u) := h.ifThen (·.setF.setF)
theorem obsLoss {u : Nat} : Formed (t.obsLoss u) := h.ifElse (·.setUnit.setF.setF.setF.unitDemandLater.raise)

theorem fldEnable {u : Nat} : Formed (t.fldEnable u) := by
  refine h.ite (h.setF.ite ?_)
  dsimp only
  split
  · exact ((h.setF.takeInForce.ifThen (·.copy)).ifThen (·.copy)).setF.setF.unitEnter.setF.setF.setUnit.legsApply
  · exact ((h.setF.takeInForce.ifThen (·.copy)).ifThen (·.copy)).setF.setF.unitEnter.setF.setF.setUnit

theorem fldDisable {u : Nat} : Formed (t.fldDisable u) :=
  h.setF.ite (h.setF.unitEnter.setF.setF.setF.setF.leaveRun.setUnit.allLegs.ite h.setF)

theorem curve {u : Nat} : Formed (t.curve u).2 := by
  refine h.setF.setF.ite_snd ?_
  dsimp only
  split
  · exact h.setF.ite_snd (h.ifThen_snd (·.setF))
  · exact h.ifThen_snd (·.setF)
  · exact h.ifThen_snd (·.setF)

theorem speedTarget {u : Nat} : Formed (t.speedTarget u).2 := h.ifThen_snd (·.curve)
theorem setSlip {u : Nat} {c : F32 × F32} : Formed (t.setSlip u c) := h.setUnit.ite (h.free.setUnit.ite h.setUnit)

theorem speedTorque {u : Nat} {ref : F32} : Formed (t.speedTorque u ref).2 := by
  unfold State.speedTorque
  dsimp only
  split
  · exact h.setUnit
  · exact h

theorem currentControl {u : Nat} {th w id iq : F32} : Formed ((t.currentControl u th w id iq).2.2) := h

theorem controlRun {u : Nat} {th w id iq : F32} : Formed (t.controlRun u th w id iq) := by
  unfold State.controlRun
  dsimp only
  split
  · exact h.currentControl.unitDuties
  · exact h.currentControl

theorem controlOwn {u : Nat} {th w id iq : F32} : Formed (t.controlOwn u th w id iq).2 := h
theorem startPulses {u : Nat} {q : Machine.Seq} : Formed (t.startPulses u q).1 := h

theorem testPulse {u : Nat} : Formed (t.testPulse u) :=
  h.ifElse fun h => h.branch (fun h => h.ifElse (·.atInstant.setUnit.allLegs)) fun h => h.ifElse
    (·.atInstant.setUnit.allLegs)

theorem pulseSample {u : Nat} : Formed (t.pulseSample u) :=
  h.ifElse fun h => h.setUnit.ite (h.setUnit.ifThen (·.setUnit)).setF.allLegs

theorem unitGo {u st : Nat} {p : Pattern} : Formed (t.unitGo u st p) := h.unitEnter.setUnit.allLegs
theorem unitReady {u : Nat} : Formed (t.unitReady u) := h.setF.leaveRun.unitGo
theorem runFromAlign {u : Nat} : Formed (t.runFromAlign u) := h.setUnit.setB.unitGo
theorem runFromCatch {u : Nat} {w : F32} : Formed (t.runFromCatch u w) := h.setUnit.setB.unitGo
theorem alignEnd {u o : Nat} : Formed (t.alignEnd u o) := h.setF.raise.branch (·.runFromAlign) (·.unitReady)

theorem alignStart {u : Nat} : Formed (t.alignStart u) := by
  have h1 : Formed ((t.unitGo u 2 .block).startPulses u .align).1 := h.unitGo.startPulses
  unfold State.alignStart
  dsimp only
  split
  · exact h1.free.alignEnd
  · exact h1

theorem aligned {u : Nat} {th : F32} : Formed (t.aligned u th) := h.setUnit.ifThen (·.setF.setF)

theorem alignCouch {u : Nat} : Formed (t.alignCouch u) :=
  h.alignEnd.ite (h.ifElse fun h => h.alignEnd.ite h.aligned.alignEnd)

theorem catchEnd {u o : Nat} {w : F32} : Formed (t.catchEnd u o w) :=
  (h.setF.ifThen (·.setF)).raise.branch (·.runFromCatch) fun h => h.alignStart.ite h.unitReady

theorem catchStart {u : Nat} : Formed (t.catchStart u) := by
  unfold State.catchStart
  dsimp only
  split
  · exact h.unitGo.setF.setF.setUnit.setF.setUnit
  split
  · exact h.unitGo.setF.setF.setUnit.setF.setUnit.allLegs
  split
  · exact h.unitGo.setF.setF.setUnit.setF.startPulses.catchEnd
  · exact h.unitGo.setF.setF.setUnit.setF.startPulses

theorem vecAngle {x y : F32} : Formed (t.vecAngle x y).2 := by
  unfold State.vecAngle
  split
  · exact h.ifThen_snd (·.free)

theorem angles {vs : List (F32 × F32)} : Formed (t.angles vs).2 := by
  induction vs generalizing t with
  | nil => exact h
  | cons v vs ih => exact ih h.vecAngle

theorem catchPulses {u : Nat} : Formed (t.catchPulses u) :=
  h.catchEnd.ite (h.ifElse fun h => h.angles.branch (fun h => h.catchEnd.ite h.setF.startPulses.setUnit)
    (·.setUnit.catchEnd))

theorem catchSearch {u : Nat} : Formed (t.catchSearch u) :=
  h.controlOwn.setUnit.branch (·.catchEnd) fun h => h.setUnit.ite (h.ifElse fun h => h.setUnit.ite h.setUnit)

theorem catchMagnetise {u : Nat} : Formed (t.catchMagnetise u) := h.catchEnd.ite h.controlOwn.setUnit

theorem catchCouch {u : Nat} : Formed (t.catchCouch u) := by
  unfold State.catchCouch
  dsimp only
  split
  · exact h.catchEnd
  · exact h.catchPulses
  · exact h.catchSearch
  · exact h.catchMagnetise
  · exact h

theorem magnetiseDone {u : Nat} : Formed (t.magnetiseDone u) := h.ifThen (·.setUnit)
theorem unitAsc {u : Nat} : Formed (t.unitAsc u) := h.leaveRun.setUnit.unitGo.raise.ite h.setF.unitReady
theorem unitJoins {u conv : Nat} : Formed (t.unitJoins u conv) := h.unitSafe.setF

theorem unitTransition {u : Nat} : Formed (t.unitTransition u) := by
  refine h.ite (h.unitReady.ite (h.unitJoins.ite ?_))
  split
  · exact h.ifThen (·.catchStart)
  · exact h.catchCouch.ifThen (·.catchEnd)
  · exact h.alignCouch.ifThen (·.alignEnd)
  · exact h.unitRampDown.ite (h.ifThen (·.unitAsc))
  · exact h.ifElse fun h => h.unitEnter.ite (h.ifThen (·.unitReady))
  · exact h.unitReady.ite (h.catchStart.ite (h.ifThen (·.unitReady)))
  · exact h.ifThen (·.unitReady)
  · exact h

theorem crashStep {u : Nat} {alone : Bool} : Formed (t.crashStep u alone) := h.setUnit.ite (h.setUnit.ifThen (·.setF))

theorem unitRefs {u : Nat} : Formed (t.unitRefs u).2 := by
  refine h.setUnit.setSlip.ite_snd ?_
  split
  · exact h.setUnit.setSlip
  · exact (h.ifElse_snd (·.speedTorque)).setUnit.setSlip

theorem unitRamp {u : Nat} : Formed (t.unitRamp u) :=
  (h.speedTarget.ifThen (·.setF)).branch (·.setUnit) fun h => h.setUnit.ite (h.setUnit.ite h.setUnit)

theorem leaveForced {u : Nat} : Formed (t.leaveForced u).2 := h.ifThen_snd (·.setUnit.setF)
theorem forcedRun {u : Nat} : Formed (t.forcedRun u) := h.setUnit.ifThen (·.controlRun)

theorem controlCouch {u soft : Nat} {vec : Option (F32 × F32)} : Formed (t.controlCouch u soft vec) :=
  h.unitRefs.controlRun

theorem unitRun {u : Nat} : Formed (t.unitRun u) :=
  h.ifElse fun h => h.unitRamp.setUnit.leaveForced.branch (·.forcedRun) fun h => h.controlCouch.ite h.setSlip

theorem unitWatch {u : Nat} : Formed (t.unitWatch u) := h.ifElse (·.setF.setUnit)
theorem unitSupervise {u : Nat} : Formed (t.unitSupervise u) := h.setUnit.ifThen (·.setF.raise)

theorem unitPhase {u : Nat} : Formed (t.unitPhase u) :=
  h.ifElse fun h => h.setUnit.ifElse fun h => h.limpEnter.ite h.unitDemandLater

theorem unitMirror {u : Nat} : Formed (t.unitMirror u) := h.ifElse (·.putWords)
theorem refIdle {u : Nat} : Formed (t.refIdle u) := h.ifElse (·.speedTarget.setUnit)

theorem unitCouch {u : Nat} {alone : Bool} : Formed (t.unitCouch u alone) :=
  h.ifElse (·.setF.setUnit.unitTransition.crashStep.refIdle.unitRun.unitSupervise.setUnit)

theorem unitFault {bit src act u : Nat} : Formed (t.unitFault bit src act u) := h.setF.unitDemandLater.raise
theorem lrDemand {u : Nat} : Formed (t.lrDemand u) := h.unitFault
theorem ovsDemand {u : Nat} : Formed (t.ovsDemand u) := h.unitFault

theorem unitFaults {u : Nat} : Formed (t.unitFaults u) :=
  (h.ifThen fun h => h.setUnit.unlessTaken (·.lrDemand)).ifThen fun h => h.setUnit.unlessTaken (·.ovsDemand)

theorem rideEnter {u : Nat} : Formed (t.rideEnter u) := h.ifThen (·.setF.setUnit)
theorem rideEnd {u : Nat} : Formed (t.rideEnd u) := h.ifElse fun h => h.setF.unitReady.ite (h.ifThen (·.setF.setUnit))
theorem limpClear {u : Nat} : Formed (t.limpClear u) := h.setF.ite h.setF.setUnit

/-! ### Protect -/

theorem protEnable {k : Nat} : Formed (t.protEnable k) :=
  h.ifElse fun h => h.setF.ifElse fun h => h.takeInForce.takeInForce.setF.setF.setF.setF.setConv.ifElse (·.demand)

theorem protDisable {k : Nat} : Formed (t.protDisable k) :=
  h.ifElse fun h => (h.histLog.branch (·.convEnter) (·.incSat)).setF.setF.setConv

theorem release {k : Nat} : Formed (t.release k) := h.setConv.ite h.setF

theorem releaseAtCouch {k : Nat} : Formed (t.releaseAtCouch k) :=
  h.ifElse fun h => (h.setF.setF.setF.setConv.foldl fun h => h.ifElse (·.setLeg)).allLegs

theorem hostRequest {k req : Nat} : Formed (t.hostRequest k req) := h.ifThen (·.demandLater)
theorem narrow {u q v : Nat} : Formed (t.narrow u q v) := h
theorem gfDerate {k u : Nat} : Formed (t.gfDerate k u) := h.foldl (·.eng.narrow)
theorem twoLegs {k : Nat} : Formed (t.twoLegs k) := h.histLog.setF.diagStop.branch (·.convEnter) (·.incSat)

theorem gfDetect {n : Nat} {atEnd : Bool} : Formed (t.gfDetect n atEnd) := by
  unfold State.gfDetect
  dsimp only
  split
  · exact (h.setF.incSat.ifThen (·.incSat)).setLeg.legsApply.raise
  · refine (h.setF.incSat.ifThen (·.incSat)).setLeg.legsApply.twoLegs.raise.ite ?_
    split
    · refine Formed.raise ?_
      split
      · exact (h.setF.incSat.ifThen (·.incSat)).setLeg.legsApply.setConv
      · exact (h.setF.incSat.ifThen (·.incSat)).setLeg.legsApply.ifThen (·.setConv)
    · refine (Formed.foldl ?_ (·.gfDerate)).setF.raise
      split
      · exact (h.setF.incSat.ifThen (·.incSat)).setLeg.legsApply.setConv
      · exact (h.setF.incSat.ifThen (·.incSat)).setLeg.legsApply.ifThen (·.setConv)
    · refine Formed.raise (Formed.demand ?_)
      split
      · exact (h.setF.incSat.ifThen (·.incSat)).setLeg.legsApply.setConv
      · exact (h.setF.incSat.ifThen (·.incSat)).setLeg.legsApply.ifThen (·.setConv)

theorem gfActive {n : Nat} {active : Bool} {held : Nat} : Formed (t.gfActive n active held) :=
  h.setF.ite (h.ifElse fun h => h.setF.ifThen (·.gfDetect))

theorem gfBlankEnd {n : Nat} {active : Bool} : Formed (t.gfBlankEnd n active) :=
  h.ifElse fun h => h.atInstant.setF.setB.ifThen (·.gfDetect)

theorem gfClear {n : Nat} {active : Bool} : Formed (t.gfClear n active) :=
  h.setB.branch (·.setF) fun h => h.setF.ifThen (·.setLeg.legsApply)

theorem drdyLoss {b : Nat} {ready : Bool} {held : Nat} : Formed (t.drdyLoss b ready held) :=
  h.setF.ite (h.ifElse fun h => h.setF.ite (h.ifElse (·.setF.setF.legsApply.demand.raise)))

theorem drdyClear {b : Nat} {ready : Bool} : Formed (t.drdyClear b ready) := h.setF.branch (·.setF.allLegs) (·.setF)
theorem ov2 {k : Nat} : Formed (t.ov2 k) := h.demand.raise

theorem fastOc {n : Nat} {high : Bool} : Formed (t.fastOc n high) := by
  refine h.ite ((h.foldl (·.ov2)).ite ?_)
  dsimp only
  split
  · exact h.raise
  · exact h.demand.raise

theorem tripCancel {st k : Nat} : Formed (State.tripCancel st t k) := h.ifThen fun h => h.foldl (·.setLeg)

theorem trip {m : Nat} {active : Bool} {held : Nat} : Formed (t.trip m active held) :=
  h.setF.ite (h.ifElse fun h => h.setF.ite (h.ifElse fun h => h.setF.setF.incSat.branch (·.raiseDev) fun h => ((h.foldl
    (·.tripCancel)).foldl (·.demand)).raise))

theorem tripClear {mask active : Nat} : Formed (t.tripClear mask active) := h

theorem govern {k : Nat} {vdc : F32} : Formed (t.govern k vdc) :=
  h.ifElse fun h => h.setB.branch (fun h => (h.setF.ifThen (·.setF)).setConv) fun h => ((h.setF.setF.ifThen
    (·.raise)).setB.ifThen (·.setF)).setConv

theorem uvDemand {later : Bool} {k : Nat} : Formed (t.uvDemand later k) := h.demandLater.raise.ite h.demand.raise
theorem lostDemand {later : Bool} {k : Nat} : Formed (t.lostDemand later k) := h.setF.uvDemand

theorem governFaults {later : Bool} {k : Nat} : Formed (State.governFaults later t k) :=
  (h.ifThen fun h => h.setConv.unlessTaken (·.uvDemand)).ifThen fun h => h.setConv.unlessTaken (·.lostDemand)

theorem setChop {n : Nat} {x : ChopSt} : Formed (t.setChop n x) := h
theorem chopOff {n : Nat} : Formed (t.chopOff n) := h.ifThen (·.setF.setChop)
theorem chopFault {n : Nat} {eff : Bool} : Formed (t.chopFault n eff) := h.chopOff.setF.setF.raise

theorem chopDecide {n : Nat} : Formed (t.chopDecide n) :=
  h.ifElse fun h => h.branch (fun h => h.chopOff.ifElse (·.setChop)) fun h => h.branch (fun h =>
    h.chopFault.ite (h.setChop.ifThen (·.chopOff))) fun h => h.setChop.ifThen (·.setF.setChop)

theorem chopRestart : Formed t.chopRestart := h.foldl fun h => h.ifThen (·.setChop)

theorem chopCf {n : Nat} {active : Bool} {held : Nat} : Formed (t.chopCf n active held) :=
  h.setChop.ite (h.ifElse fun h => h.setChop.ifThen (·.chopFault))

theorem chopClear {n : Nat} {cf : Bool} : Formed (t.chopClear n cf) := h.setChop.branch (·.setF) (·.setF.setF.setF)
theorem rampEnd {k : Nat} : Formed (t.rampEnd k) := (h.setF.foldl (·.unitSafe)).allLegs
theorem rampTimeout {k : Nat} : Formed (t.rampTimeout k) := h.ifThen (·.atInstant.setF.rampEnd)
theorem rampCouch {k : Nat} : Formed (t.rampCouch k) := h.ifThen (·.rampEnd)
theorem ascCouch {k : Nat} : Formed (t.ascCouch k) := h.ifThen (·.rampEnd)

/-! ### Engine -/

theorem scrubCheck : Formed t.scrubCheck :=
  h.ifElse fun h => (h.atInstant.setF.ifElse (·.wmFail)).branch (·.incWrap.eng) (·.eng)

theorem tileRefetch : Formed t.tileRefetch := by
  refine h.ite ?_
  split
  · exact h.eng
  · exact h

theorem tableWrite {off : Nat} {be : BitVec 4} {val : Word} : Formed (t.tableWrite off be val) := h.quarantine.putBytes

theorem programWrite {m : Master} {off : Nat} {be : BitVec 4} {val : Word} : Formed (t.programWrite m off be val) :=
  h.ifThen (·.putBytes)

theorem wmCommit {t0 : Nat} : Formed (t.wmCommit t0) := h

theorem wmCheckDone : Formed t.wmCheckDone := by
  unfold State.wmCheckDone
  split
  · exact h
  · exact h.eng.setF.branch (·.eng.unquarantine) (·.setF.wmFail)

theorem ctxHalt {c cause src : Nat} : Formed (t.ctxHalt c cause src) := h.setF.setF.haltDemand
theorem ctxCycles {c : Nat} : Formed (t.ctxCycles c) := h
theorem ctxTick {c : Nat} : Formed (t.ctxTick c) := (h.ctxHalt.ite (h.ifThen (·.setF.setF.setF))).setCtx
theorem laneCycles {n : Nat} : Formed (t.laneCycles n) := h
theorem engEnd : Formed t.engEnd := (h.foldl (·.laneCycles)).foldl (·.ctxCycles)
theorem engTick : Formed t.engTick := (h.foldl (·.setCore)).foldl (·.ctxTick)
theorem ctxRestart {c : Nat} : Formed (t.ctxRestart c) := h.ifElse fun h => h.setCtx.ite h.setF

theorem commitTarget {t0 w : Word} : Formed (t.commitTarget t0 w) := by
  unfold State.commitTarget
  dsimp only
  split
  · exact h.commitRef.ite h.commitRef
  · exact h.setF
  · exact h.setF.ite h.setReg
  · exact h.setF
  · exact h.setReg
  · exact h.commitGate
  · exact h.putWord
  · exact h

theorem ctxCouch {c : Nat} : Formed (t.ctxCouch c) :=
  h.ifElse fun h => (h.ifThen (·.discard)).branch (fun h => (h.foldl (·.commitTarget)).incSat.setF) fun h =>
    h.incSat.ifElse fun h => h.setF.ifThen (·.ctxHalt)

theorem groupsCouch : Formed t.groupsCouch := h.foldl (·.ctxCouch)
theorem deckleWrite {u q v : Nat} : Formed (t.deckleWrite u q v) := h

theorem armNarrow {k : Nat} : Formed (t.armNarrow k) := h.foldl fun h => h.foldl fun h => by
  split
  · exact h.narrow
  · exact h

theorem deckApply {ws : List DeckleWr} : Formed (t.deckApply ws) := h.foldl fun h => h.ifElse (·.setF)
theorem deckCouch : Formed (t.deckCouch.1) := h.eng.deckApply

theorem svcDone {r : SvcReq} {status : Nat} {result : Word} : Formed (t.svcDone r status result) := by
  unfold State.svcDone
  dsimp only
  split
  · exact h.eng.setReg.setF.putWord.putWord
  · exact h.eng.setReg.setF

theorem svcRefuse {r : SvcReq} : Formed (t.svcRefuse r) := h.svcDone
theorem svcPlain {r : SvcReq} : Formed (t.svcPlain r) := h.free.svcDone

theorem serve {k : Nat} {act : State → SvcReq → State} (hf : ∀ {r}, Formed t → Formed (act t r)) :
    Formed (t.serve k act) := by
  unfold State.serve
  split
  · exact h.ifThen hf
  · exact h

theorem svcNarrow {r : SvcReq} : Formed (t.svcNarrow r) := by
  unfold State.svcNarrow
  split
  · exact h.svcRefuse.ite h.narrow.svcPlain
  · exact h.svcRefuse

theorem svcRestore {r : SvcReq} : Formed (t.svcRestore r) := h.svcRefuse.ite (h.eng.foldl (·.deckleWrite)).svcPlain

theorem svcSafetyRead {r : SvcReq} : Formed (t.svcSafetyRead r) := by
  unfold State.svcSafetyRead
  split
  · exact h.eng.svcDone
  · exact h.svcRefuse

/-! ### Kynor -/

theorem setLane {n : Nat} {x : KynSt} : Formed (t.setLane n x) := h
theorem reqLead : Formed t.reqLead := h
theorem laneEnter {n st : Nat} : Formed (t.laneEnter n st) := h
theorem laneOff {n e : Nat} : Formed (t.laneOff n e) := h.setF.setF.setF.setLane.laneEnter

theorem laneEnable {n : Nat} : Formed (t.laneEnable n) :=
  h.ifElse fun h => h.setF.ite (h.setF.ite h.takeInForce.setF.setF.setLane.laneEnter)

theorem laneDisable {n : Nat} : Formed (t.laneDisable n) := h.ifElse (·.laneOff)
theorem identFrame {n : Nat} : Formed (t.identFrame n) := h
theorem trainLock {n : Nat} : Formed (t.trainLock n) := h.ifElse (·.setF.laneEnter.identFrame)
theorem trainTimeout {n : Nat} : Formed (t.trainTimeout n) := h.ifElse (·.atInstant.laneOff)
theorem identTimeout {n : Nat} : Formed (t.identTimeout n) := h.ifElse (·.atInstant.setF.laneOff)

theorem identUp {n loop : Nat} {fr : List Byte} : Formed (t.identUp n loop fr) :=
  h.ifElse fun h => h.setLane.branch (·.incSat) fun h => h.incSat.setF.branch (·.laneOff) fun h =>
    h.laneOff.ite (h.laneOff.ite ((h.foldl (·.setCell)).setF.setF.setF.branch (·.laneOff) (·.setLane.laneEnter)))

theorem laneIdent {n : Nat} : Formed (t.laneIdent n) := h.setF.ite h.laneEnter.identFrame
theorem diagRequest {c : Nat} : Formed (t.diagRequest c) := h

theorem laneDiag {n p : Nat} {all : Bool} : Formed (t.laneDiag n p all) :=
  h.branch (fun h => h.foldl (·.diagRequest)) (·.setF)

theorem sendDown {n base tx tick : Nat} {slot : Nat → CellCmd} : Formed (t.sendDown n base tx tick slot) :=
  (h.foldl fun h => h.ifThen (·.setCell)).setLane

theorem laneCouch {n : Nat} : Formed (t.laneCouch n) :=
  (h.ifThen (·.setLane.laneEnter)).ifElse fun h => h.foldl fun h => by
  dsimp only
  split
  · exact h.setCell
  · exact h

theorem downBurst {n : Nat} : Formed (t.downBurst n) := h.ifElse (·.atInstant.sendDown)
theorem laneFall {n : Nat} : Formed (t.laneFall n) := h.ifElse fun h => h.setF.laneEnter.raise.foldl (·.demandLater)
theorem ageMap {n : Nat} : Formed (t.ageMap n) := h
theorem older {cs : List Nat} : Formed (t.older cs) := h.foldl (·.setCell)
theorem lanePoint {n : Nat} : Formed (t.lanePoint n) := (h.ifElse (·.ageMap.older)).setLane.ifThen (·.laneFall)
theorem readyPoints {n t0 : Nat} : Formed (t.readyPoints n t0) := h.foldl (·.atInstant.lanePoint)
theorem readyFrame {n : Nat} : Formed (t.readyFrame n) := h.ifElse (·.readyPoints.atInstant.sendDown)
theorem cellFails {c cause : Nat} : Formed (t.cellFails c cause) := h.ifThen (·.setCell)

theorem reportFails {c : Nat} : Formed (t.reportFails c) := by
  unfold State.reportFails
  split
  · exact h
  · exact (((((h.ifThen (·.cellFails)).ifThen (·.cellFails)).ifThen (·.cellFails)).ifThen (·.cellFails)).ifThen
      (·.cellFails)).ifThen (·.cellFails)

theorem reportEvents {c was : Nat} : Formed (t.reportEvents c was) :=
  ((((((h.ifThen (·.setF)).ifThen (·.raise)).ifThen (·.raise)).ifThen (·.raise)).ifThen (·.raise)).ifThen
    (·.raise)).ifThen (·.raise)

theorem report {n p : Nat} {sl : List Byte} : Formed (t.report n p sl) :=
  (((h.setCell.ifThen (·.setF.setF.incSat)).ifThen (·.setF)).ifThen (·.incSat)).reportEvents.reportFails

theorem reports {n : Nat} {seen : List Nat} {ls : List (List Byte)} : Formed (t.reports n seen ls).1 := by
  induction ls generalizing t seen with
  | nil => exact h
  | cons sl ls ih => exact (ih h.report).ite_fst (ih h.incSat)

theorem answers {n t0 : Nat} : Formed (t.answers n t0) := by
  refine h.ite ?_
  split
  · exact h.atInstant.lanePoint
  · exact h

theorem uplink {n t0 : Nat} {fr : List Byte} : Formed (t.uplink n t0 fr) := by
  refine h.ite (h.answers.ite ?_)
  refine Formed.branch ?_ (·.incSat) fun h => (h.setLane.setF.setF.setF.sns.ifThen (·.setF)).reports.incSat
  refine Formed.setLane ?_
  split
  · exact h.answers.atInstant
  · exact h.answers

theorem alignLost {n : Nat} : Formed (t.alignLost n) := (h.ifElse (·.laneFall)).setF
theorem laneSample {n : Nat} : Formed (t.laneSample n) := h.ifElse fun h => h.ageMap.ifThen (·.lanePoint)
theorem kynSample : Formed t.kynSample := (h.foldl (·.laneSample)).snsCells
theorem kynStop : Formed t.kynStop := h.foldl fun h => h.ifElse fun h => h.setLane.ifThen (·.laneEnter)

/-! ### Arms -/

theorem setArm {a : Nat} {x : ArmSt} : Formed (t.setArm a x) := h
theorem armCount {a : Nat} : Formed (t.armCount a) := h

theorem substitute {a c st : Nat} : Formed (t.substitute a c st) := by
  refine h.setF.ite ?_
  split
  · exact h.setF.setF
  · exact h.setF

theorem armEnable {a : Nat} : Formed (t.armEnable a) :=
  h.ifElse fun h => h.setF.ifElse fun h => ((h.takeInForce.setF.setF.setF.setF.setF.setArm.setF.foldl
    (·.setF.setF.setCell)).foldl fun h => h.ifThen (·.substitute)).armCount

theorem armDisable {a : Nat} : Formed (t.armDisable a) :=
  h.ifElse fun h => h.setF.ite (h.foldl (·.setF)).setF.setF.setF.setF.setF.setArm.armCount

theorem cellRetire {c : Nat} : Formed (t.cellRetire c) := h.cellFails.ite h.setF

theorem armEvent {a : Nat} {trip unconf : Bool} {reaction : Word} : Formed (t.armEvent a trip unconf reaction) :=
  h.raise

theorem armTrip {a : Nat} {unconf : Bool} : Formed (t.armTrip a unconf) := h.setF.armEvent.demandLater

theorem armDerate {a : Nat} : Formed (t.armDerate a) :=
  h.setF.setF.armNarrow.foldl fun h => h.limpEnter.ite h.unitDemandLater

theorem cellFailure {a c cause : Nat} : Formed (t.cellFailure a c cause) := by
  unfold State.cellFailure
  dsimp only
  split
  · exact (h.setCell.setF.setF.substitute.incSat.ifElse (·.raise)).ifThen (·.demandStamped)
  · exact h.setCell.setF.setF.substitute.incSat.ifElse (·.raise)

theorem staleCheck {a c : Nat} : Formed (t.staleCheck a c) :=
  ((h.ifThen (·.cellFails)).ifThen (·.cellFails)).setCell.ifThen (·.cellFails)

theorem armFailures {a : Nat} : Formed (t.armFailures a) := by
  refine h.ifElse fun h => ?_
  refine ((((Formed.foldl ?_ fun h => ?_).armCount.foldl (·.setCell.setF)).ifThen
    (·.armDerate.ifElse (·.armEvent))).ifThen (·.unlessTaken (·.armTrip))).ifThen (·.setArm.raise)
  · exact (h.foldl (·.ifThen fun h => h.setF.ite h.setCell)).foldl (·.ifThen (·.staleCheck))
  · split
    · exact h.cellFailure
    · exact h

theorem bypassUnconfirmed {c : Nat} : Formed (t.bypassUnconfirmed c) := by
  unfold State.bypassUnconfirmed
  split
  · exact h
  · exact h.beforeCouch (·.setCell.setF.armTrip)

theorem overrideLevel {a n : Nat} {p : Pattern} : Formed (t.overrideLevel a n p).2 := by
  cases p with
  | pwm => exact h.free (w := 32)
  | _ => exact h

theorem issue {a : Nat} {act : List (Nat × Nat)} {cmd : Nat → CellCmd} : Formed (t.issue a act cmd) :=
  (h.foldl (·.setCell)).incSat

theorem showSet {a frac dir : Nat} {set : List Nat} {mod : Option Nat} : Formed (t.showSet a frac dir set mod) :=
  h.setF.setF.setF.setF.setB.setF.setF

theorem pulseSets {a n dir : Nat} {band : F32} {cells : List (Nat × F32)} {w : List Nat} {pl : List (Nat × Pattern)} :
    Formed (t.pulseSets a n dir band cells w pl).2 := by
  induction pl generalizing t w with
  | nil => exact h
  | cons e pl ih => exact ih h.overrideLevel

theorem armPulse {a dir : Nat} {band : F32} {act : List (Nat × Nat)} {cells : List (Nat × F32)}
    {pl : List (Nat × Pattern)} :
    Formed (t.armPulse a dir band act cells pl) :=
  h.pulseSets.issue.showSet.setArm

theorem armSelect {a : Nat} : Formed (t.armSelect a) := by
  refine h.ite ?_
  dsimp only
  split
  · exact ((h.setB.setB.foldl (·.setCell)).foldl (·.setCell)).armPulse
  · split
    · exact ((h.setB.setB.foldl (·.setCell)).foldl (·.setCell)).overrideLevel.issue.incSat.showSet.setArm
    · exact ((h.setB.setB.foldl (·.setCell)).foldl (·.setCell)).branch (·.issue.showSet.setArm)
        (·.issue.incSat.showSet.setArm)

theorem armSupervise {a : Nat} : Formed (t.armSupervise a) := h.ifElse fun h => (h.setReg.ifElse (·.setF.setF)).setArm
theorem spreadLimit {a : Nat} : Formed (t.spreadLimit a) := h.ifElse (·.setArm.setF.raise)
theorem circLimit {a : Nat} : Formed (t.circLimit a) := h.ifElse (·.setArm.setF.raise)
theorem armMirror {v : Nat} : Formed (t.armMirror v) := h.ifElse (·.putWords)
theorem failuresCouch : Formed t.failuresCouch := h.ifThen fun h => h.foldl (·.armFailures)

theorem armsCouch : Formed t.armsCouch :=
  h.ifElse fun h => (((h.foldl (·.armSupervise)).foldl (·.armSelect)).foldl (·.armMirror)).foldl (·.laneCouch)

/-! ### Time -/

theorem windowCheck : Formed t.windowCheck := h.ifElse (·.setF)

theorem startTick : Formed t.startTick :=
  h.ifElse fun h => (h.ifElse (·.windowCheck)).setF.branch (·.setF) (·.setF.tmSns)

theorem stopTick : Formed t.stopTick := h.ifElse fun h => h.setF.ite (h.setF.branch (·.tmSns) (·.tm))
theorem ppsoSecond : Formed t.ppsoSecond := h.ifElse (·.atInstant.tm)
theorem ppsoEnd : Formed t.ppsoEnd := h.ifElse (·.atInstant.tm)
theorem idle : Formed t.idle := h.ifElse (·.tm.atInstant)
theorem returns {m : Master} {ws : List Word} : Formed (t.returns m ws) := h
theorem readPair {k : Nat} {m : Master} {lo hi : Word} : Formed (t.readPair k m lo hi) := h
theorem readTimeNow {m : Master} : Formed (t.readTimeNow m) := h

/-! ### Can -/

theorem setCan {n : Nat} {x : CanSt} : Formed (t.setCan n x) := h
theorem canIrq {n b : Nat} : Formed (t.canIrq n b) := h.ifElse fun h => h.setF.ifThen (·.raiseDev)

theorem canErr {n tec rec_ : Nat} : Formed (t.canErr n tec rec_) :=
  ((h.setF.setF.setF.ifThen (·.canIrq)).ifThen (·.canIrq)).ifThen (·.canIrq.setCan)

theorem canGood {n : Nat} : Formed (t.canGood n) := h.canErr.ite h.free.canErr

theorem canEnable {n : Nat} : Formed (t.canEnable n) :=
  h.ifElse fun h => h.setF.ifElse fun h => h.takeInForce.setF.ifElse (·.setReg.setF.setF.setCan)

theorem canOff {n : Nat} : Formed (t.canOff n) := (h.setF.setReg.foldl (·.setReg)).setF.setF.setF.setF.setF.setCan
theorem canDisable {n : Nat} : Formed (t.canDisable n) := h.ifElse fun h => h.setF.branch (·.setCan) (·.canOff)
theorem canMode {n : Nat} : Formed (t.canMode n) := h.ifThen fun h => (h.ifThen (·.setF.setF)).setCan
theorem canFree {n : Nat} : Formed (t.canFree n) := h.setCan.setF.branch (·.canOff) (·.canMode)
theorem canIntegrated {n : Nat} : Formed (t.canIntegrated n) := h.ifThen (·.setF.canFree)

theorem objStore {n m : Nat} {fr : CanFrame} {sof : Nat} : Formed (t.objStore n m fr sof) :=
  h.putWord.putWord.putWord.putWords.setF

theorem canStamp {n sof : Nat} : Formed (t.canStamp n sof) := h

theorem canDeliver {n : Nat} {fr : CanFrame} {sof : Nat} : Formed (t.canDeliver n fr sof) := by
  unfold State.canDeliver
  split
  · exact h.incSat.canIrq
  · exact ((h.ifThen (·.setF.incSat.canIrq)).ifElse (·.objStore.canIrq)).ifThen (·.ringPut)

theorem ttWithdraw {n : Nat} : Formed (t.ttWithdraw n) := h.foldl (·.setF.incSat.canIrq)
theorem refMessage {n c sof : Nat} : Formed (t.refMessage n c sof) := h.ttWithdraw.setCan.setF.canIrq.raiseAt

theorem canReceive {n : Nat} {fr : CanFrame} {sof : Nat} : Formed (t.canReceive n fr sof) :=
  h.ifElse fun h => (h.canStamp.canGood.canDeliver.ifThen (·.refMessage)).canFree

theorem txAsk {n o : Nat} : Formed (t.txAsk n o) := h.canIrq.ite h.setF

theorem txRequest {n k mask : Nat} : Formed (t.txRequest n k mask) :=
  h.branch (fun h => h.foldl (·.txAsk)) fun h => h.foldl fun h => h.ifThen (·.txAsk)

theorem txDrop {n o : Nat} : Formed (t.txDrop n o) :=
  h.ifElse fun h => (h.ifThen (·.setF)).setCan.branch (·.setCan) (·.setF)

theorem txCancel {n mask : Nat} : Formed (t.txCancel n mask) := h.foldl (·.txDrop)

theorem txSelect {n : Nat} {other : Bool} : Formed (t.txSelect n other) := by
  refine h.ite ?_
  split
  · exact h.ifThen (·.setCan.setF)
  · exact h.setCan.setF

theorem txFail {n cause : Nat} : Formed (t.txFail n cause) := by
  unfold State.txFail
  dsimp only
  split
  · exact h
  · exact (h.ifElse fun h => h.setF.setF.setF.canIrq.ite (h.ifThen (·.setF))).branch (·.setCan.setF) (·.canFree)

theorem tdcMeasure {n o delay : Nat} : Formed (t.tdcMeasure n o delay) :=
  h.ifThen fun h => h.setF.ifThen (·.setF.canIrq)

theorem txDone {n sof delay : Nat} : Formed (t.txDone n sof delay) := by
  unfold State.txDone
  dsimp only
  split
  · exact h
  · exact (h.canStamp.canErr.tdcMeasure.branch (·.setCan.refMessage) fun h => (h.setF.putWord.ifThen
      (·.setF)).canIrq).canFree

theorem canError {n : Nat} {lec : Fin 7} {tx : Bool} {e : CanError} : Formed (t.canError n lec tx e) := by
  refine h.ite ?_
  refine Formed.branch ?_ (fun h => h.canOff.ite h.setCan.setF) fun h => (h.txFail.ite h.canFree).ifElse (·.canErr)
  split
  · exact (h.ifElse (·.setF)).ifThen (·.tdcMeasure)
  · exact h.ifElse (·.setF)

theorem objWrite {n o i : Nat} {be : BitVec 4} {val : Word} : Formed (t.objWrite n o i be val) :=
  h.branch (fun h => h.txDrop.putWord.ite h.canIrq) fun h => h.ifElse (·.putBytes)

theorem objLatch {n o : Nat} : Formed (t.objLatch n o) := h
theorem canRecover {n : Nat} : Formed (t.canRecover n) := h.ifThen (·.setF)
theorem canRecovered {n : Nat} : Formed (t.canRecovered n) := h.ifElse (·.setF.setF.setReg.canFree)
theorem refTimer {n : Nat} : Formed (t.refTimer n) := h.ifElse (·.atInstant.setCan)

theorem refFrame {n : Nat} {fr : CanFrame} {sof : Nat} : Formed (t.refFrame n fr sof) :=
  h.branch (fun h => h.ifThen (·.txDone)) fun h => h.ifThen (·.canReceive)

theorem refLost {n : Nat} : Formed (t.refLost n) := h.ifElse (·.atInstant.setF.setCan)
theorem ttTrigger {n m : Nat} : Formed (t.ttTrigger n m) := h.ifElse (·.atInstant.setCan)

theorem ringTakeN {r k : Nat} : Formed (t.ringTakeN r k).2 := by
  induction k generalizing t with
  | zero => exact h
  | succ k ih =>
    unfold State.ringTakeN
    split
    next ws s1 hs => exact ih (h.of_ringTake hs)
    · exact h

theorem rg12Take {n : Nat} : Formed (t.rg12Take n) := by
  refine h.ite ?_
  split
  · exact h
  · exact h.ifElse (·.ringTakeN.putWords.putWords.txAsk)

theorem canSleep {n : Nat} : Formed (t.canSleep n) := h.ifThen (·.setF.setCan)

theorem canWake {n bits : Nat} {frame : Option CanFrame} {sof : Nat} : Formed (t.canWake n bits frame sof) := by
  refine h.ite ((h.ifElse (·.setF.setF.setF.setCan.canIrq)).ite ?_)
  split
  · exact h.ifElse fun h => h.canStamp.ifThen (·.canDeliver.setF.setF.setF.setCan.canIrq)
  · exact h

/-! ### NimCtl -/

theorem stageTile {overlay : Bool} {n tile slot : Nat} : Formed (t.stageTile overlay n tile slot) :=
  h.copy.eng.setF.onCore.incWrap

theorem stageAll {n : Nat} {ts : List (Nat × Nat)} : Formed (t.stageAll n ts).1 := by
  induction ts generalizing t with
  | nil => exact h
  | cons e ts ih => exact (ih h.stageTile).ite_fst h.wmFail

theorem sliceStart {i : Nat} : Formed (t.sliceStart i) := by
  unfold State.sliceStart
  split
  · exact h
  · split
    · exact h
    · exact h.ifElse fun h => h.atInstant.stageAll.branch (·.onCore.discard) (·.setCore.setF.setF.setF)

theorem budgetExpiry {n : Nat} : Formed (t.budgetExpiry n) :=
  h.ifElse (·.atInstant.setCore.incSat.sliceEnd.raiseDev.discard)

/-! ### Motion -/

theorem raiseMx {n src payload : Nat} : Formed (t.raiseMx n src payload) := h.raise
theorem atLimit {n : Nat} {arrived : Bool} : Formed (t.atLimit n arrived) := h.ifThen (·.setF.raiseMx)
theorem moveEnd {n o : Nat} : Formed (t.moveEnd n o) := h.setF.raiseMx
theorem axisFault {n c : Nat} : Formed (t.axisFault n c) := h.setF.ifThen (·.setAxis)
theorem axisGo {n st : Nat} : Formed (t.axisGo n st) := h
theorem homeStart {n : Nat} : Formed (t.homeStart n) := h
theorem homeFail {n res : Nat} : Formed (t.homeFail n res) := (h.setF.raiseMx.ifElse (·.setF)).setAxis
theorem homeWrite {n : Nat} {at_ : Int} : Formed (t.homeWrite n at_) := h

theorem homeCouch {n : Nat} : Formed (t.homeCouch n) := by
  unfold State.homeCouch
  refine Formed.branch ?_ (·.setAxis.homeFail.axisGo) fun h =>
      h.setAxis.ite (h.setAxis.ite (h.setAxis.ite h.setAxis.setF.setF.raiseMx.axisGo))
  split
  · exact h.ifThen (·.homeWrite)
  · exact h

theorem camEnable {m : Nat} : Formed (t.camEnable m) :=
  h.ifElse fun h => h.setF.ifElse fun h => h.takeInForce.copy.setF.setB.setF.setF.cams.foldl fun h => h.ifThen
    (·.setAxis)

theorem camDisable {m : Nat} : Formed (t.camDisable m) := h

theorem camCouch {s0 : State} {m : Nat} : Formed (s0.camCouch t m) := by
  refine h.ite ?_
  refine Formed.setReg ?_
  refine Formed.setF ?_
  refine Formed.ite ?_ (h.cams.ifThen (·.setF.raise))
  split
  · exact h.cams.ifElse fun h => h.incWrap.ifThen fun h => h.foldl (·.raise)
  · exact h.cams

theorem camWait {n : Nat} {x : AxisSt} : Formed (t.camWait n x) := h

theorem camFollow {n : Nat} : Formed (t.camFollow n) :=
  h.camWait.ite (h.setF.setAxis.axisGo.ite (h.setF.camWait.ite (h.atLimit.camWait.ite h.setAxis.axisGo)))

theorem setOvr {u k : Nat} {w : F32} : Formed (t.setOvr u k w) := h
theorem delOvr {u k : Nat} : Formed (t.delOvr u k) := h

theorem winchCouch {n : Nat} : Formed (t.winchCouch n) :=
  h.ifElse fun h => h.setAxis.branch (fun h => h.setOvr.setOvr.ifThen (·.setF)) (·.setOvr.setOvr.setB.setB)

theorem axisLost {n : Nat} : Formed (t.axisLost n) :=
  (h.setF.branch (·.moveEnd) fun h => h.ifThen (·.homeFail)).setAxis.axisGo

theorem axisStop {n : Nat} {fault : Bool} : Formed (t.axisStop n fault) := (h.ifElse (·.setF)).setAxis.axisGo

theorem axisTransition {n : Nat} : Formed (t.axisTransition n) := by
  unfold State.axisTransition
  dsimp only
  split
  · exact h.ifElse (·.setAxis.axisGo)
  · refine h.axisLost.ite (h.axisStop.ite ((h.ite ?_).ifElse fun h => h.ifThen (·.homeStart)))
    split
    · exact h.setAxis.axisGo
    · exact h.setF
  · refine h.axisLost.ite (h.axisStop.ite (h.axisStop.ite (h.ite ?_)))
    split
    · exact h.setAxis
    · exact h.setF
  · exact h.ifThen (·.axisLost)
  · exact h.axisLost.ite (h.homeFail.axisStop.ite (h.axisStop.ite (h.ifThen (·.axisStop))))
  · refine (h.ite ?_).ifElse fun h => h.ifThen (·.setAxis.axisGo)
    split
    · exact h.setAxis.setAxis.axisGo
    · exact h.setF
  · exact h.setAxis.axisGo.ite (h.ifThen (·.setAxis.setF))
  · exact h

theorem profileCouch {n : Nat} : Formed (t.profileCouch n) :=
  h.branch (fun h => h.setAxis.atLimit.ifThen (·.moveEnd.axisGo)) fun h => h.branch (fun h => h.setAxis.atLimit.ifElse
    fun h => h.moveEnd.axisGo.ite (h.ifThen (·.moveEnd.axisGo))) fun h => h.setAxis.atLimit.ifThen (·.moveEnd.axisGo)

theorem axisMotion {n : Nat} : Formed (t.axisMotion n) := by
  unfold State.axisMotion
  refine Formed.ifThen ?_ (·.setAxis)
  split
  · exact h.camFollow.ite (h.setAxis.ite h.profileCouch)
  · exact h.camFollow.ite (h.setAxis.ite h.profileCouch)
  · exact h.setAxis.atLimit.ifElse fun h => (h.ifThen (·.moveEnd)).setAxis.axisGo
  · exact h.homeCouch
  · exact h.setAxis

theorem axisRefs {s0 : State} {n : Nat} : Formed (s0.axisRefs t n) :=
  (h.setOvr.ite (h.setOvr.ite h.setOvr)).branch (·.setOvr.setAxis) (·.setAxis)

theorem axisWatch {n : Nat} : Formed (t.axisWatch n) := h

theorem axisCouch {s0 : State} {n : Nat} : Formed (s0.axisCouch t n) :=
  h.setAxis.ite (h.winchCouch.axisTransition.axisMotion.ifThen (·.setAxis)).axisRefs.axisWatch

theorem motionCouch : Formed t.motionCouch := (h.foldl (·.camCouch)).foldl (·.axisCouch)

theorem axisEnable {n : Nat} : Formed (t.axisEnable n) :=
  h.ifElse fun h => h.setF.ifElse (·.takeInForce.setF.setAxis.axisGo)

theorem axisFree {n : Nat} : Formed (t.axisFree n) := h.foldl (·.delOvr)

theorem axisDisable {n : Nat} : Formed (t.axisDisable n) :=
  h.ifElse fun h => h.setF.ite h.axisFree.setF.setF.setF.axisGo

theorem hardLimit {n : Nat} {high : Bool} : Formed (t.hardLimit n high) :=
  h.setF.setF.setAxis.axisFault.unitDemandLater.raise

theorem homeSwitch {n : Nat} {high active : Bool} {capture : Int} : Formed (t.homeSwitch n high active capture) :=
  h.branch (fun h => h.ifElse fun h => h.setAxis.ite (h.setAxis.ite h.setAxis)) fun h => h.ifThen fun h =>
    h.setAxis.ite (h.setAxis.ite h.setAxis)

theorem switchChange {n : Nat} {high : Bool} {held : Nat} : Formed (t.switchChange n high held) :=
  h.ifElse fun h => h.setB.branch (·.homeSwitch) fun h => h.ifThen (·.hardLimit)

theorem chatter {n : Nat} {high : Bool} : Formed (t.chatter n high) :=
  h.ifElse fun h => h.setF.setF.setAxis.axisFault.raiseMx.ifThen (·.setAxis)

theorem axisClear {n : Nat} : Formed (t.axisClear n) := h.setF.ite h.setF.setAxis
theorem stopRequest {n : Nat} : Formed (t.stopRequest n) := h.ifThen (·.setAxis)
theorem homeCommand {n : Nat} : Formed (t.homeCommand n) := h.setAxis.ite h.setF
theorem offsetWrite {n : Nat} {val : Word} : Formed (t.offsetWrite n val) := h
theorem followError {n : Nat} : Formed (t.followError n) := h.setF.axisFault.ite (h.ifThen (·.setF))
theorem standstill {n : Nat} : Formed (t.standstill n) := h.ifElse fun h => (h.setAxis.ifThen (·.setF)).raiseMx.axisGo
theorem brakeTimer {n : Nat} : Formed (t.brakeTimer n) := h.ifElse (·.atInstant.setAxis)

theorem releaseTimer {n : Nat} : Formed (t.releaseTimer n) := by
  unfold State.releaseTimer
  dsimp only
  split
  · exact h.ifElse fun h => h.atInstant.setAxis.branch (·.homeStart) (·.axisGo)
  · exact h

theorem slackOn {n : Nat} : Formed (t.slackOn n) := h.ifElse fun h => h.setAxis.setF.ifThen (·.axisFault)
theorem syncError {n : Nat} : Formed (t.syncError n) := h.ifElse fun h => h.setF.setF.axisFault.ifThen (·.setAxis.setF)

/-! ### Shaft -/

theorem setLine {l : LineSt} : Formed (t.setLine l) := h
theorem xchShow : Formed t.xchShow := h
theorem lineEnable : Formed t.lineEnable := h.ifElse fun h => h.setF.ifElse (·.takeInForce.setF.setF.setLine.xchShow)
theorem lineLeave : Formed t.lineLeave := h.ifElse (·.setF.setReg.setReg.setF.setReg.tmLine)
theorem setShare {d : Nat} {x : ShareSt} : Formed (t.setShare d x) := h
theorem shareCheck {d : Nat} : Formed (t.shareCheck d) := h.ifThen (·.setF.setF.raise)
theorem shareChecks : Formed t.shareChecks := h.foldl (·.shareCheck)
theorem linkShow : Formed t.linkShow := h.setF.xchShow.ifElse fun h => h.raiseDev.ifThen (·.raiseDev.shareChecks)
theorem ringComes {r : Nat} : Formed (t.ringComes r) := h.setF.setLine.linkShow.ifElse (·.setF.setF.setF.setB)
theorem tryForm {r : Nat} : Formed (t.tryForm r) := h.ifThen (·.ringComes)
theorem frFail {r e : Nat} : Formed (t.frFail r e) := h
theorem deliver {r o : Nat} : Formed (t.deliver r o) := h
theorem hear {r o : Nat} : Formed (t.hear r o) := h
theorem putOut {r t0 : Nat} {w : List (Bool × Byte)} : Formed (t.putOut r t0 w) := h
theorem sendBoth {w : List (Bool × Byte)} : Formed (t.sendBoth w) := h
theorem forward {r : Nat} {fr : List Byte} : Formed (t.forward r fr) := h.ifElse fun h => (h.free (w := 7)).putOut

theorem helloFrame {r : Nat} {own direct : Bool} {fr : List Byte} : Formed (t.helloFrame r own direct fr) :=
  h.ifElse fun h => h.incSat.ite (h.ifElse fun h => h.frFail.ite (h.ifElse (·.hear.tryForm)))

theorem formTimeout : Formed t.formTimeout := h.ifElse (·.atInstant.setF.setLine)
theorem ringPeriod : Formed t.ringPeriod := h
theorem helloSend : Formed t.helloSend := h.ifElse fun h => (h.atInstant.ifElse (·.ringPeriod)).sendBoth.setLine

theorem ringDown {r : Nat} {alignment : Bool} : Formed (t.ringDown r alignment) :=
  h.ifElse (·.setF.incSat.setLine.linkShow)

theorem ringBack {r : Nat} : Formed (t.ringBack r) := h.ifElse (·.ringComes)
theorem linkDelay {r rtt sum : Nat} : Formed (t.linkDelay r rtt sum) := h.ifElse (·.setF.setLine.xchShow)
theorem syncSend : Formed t.syncSend := h.ifElse (·.atInstant.sendBoth.setLine)

theorem lineAdjust {d : Int} : Formed (t.lineAdjust d) :=
  h.setI.branch (fun h => h.tm.ite h.setF.tm) fun h => h.branch (fun h => h.ifThen (·.tm)) fun h => h.tm.ifThen
    (·.setF.tm)

theorem syncFrame {r : Nat} {own direct : Bool} {fr : List Byte} : Formed (t.syncFrame r own direct fr) :=
  h.ifElse fun h => h.incSat.ite (h.ifElse fun h => h.frFail.ite (h.ifElse fun h =>
    h.deliver.ite h.deliver.setF.setF.setF.setF.tmLine.lineAdjust))

theorem timeLoss : Formed t.timeLoss := by
  unfold State.timeLoss
  split
  · exact h
  · exact h.ifElse fun h => h.atInstant.setF.setF.setLine.ifElse (·.setF.setF.incSat.tm.raiseDev)

theorem holdEnd : Formed t.holdEnd := h.ifElse (·.setF.tm)

theorem exchSend : Formed t.exchSend := by
  unfold State.exchSend
  split
  · exact h
  · exact h.ifElse (·.atInstant.sendBoth.setLine)

theorem exchRecv {r : Nat} {own direct : Bool} {fr : List Byte} : Formed (t.exchRecv r own direct fr) :=
  h.ifElse fun h => h.incSat.ite (h.ifElse fun h => h.frFail.ite (h.ifElse fun h => h.hear.tryForm.ifElse fun h =>
    h.incSat.setF.ite (h.ifElse (·.setLine))))

theorem slotWrite {p : Nat} : Formed (t.slotWrite p) := by
  unfold State.slotWrite
  dsimp only
  split
  · exact (h.putList.setLine.ifThen (·.setF)).putWord.setF
  · exact h.setLine.putWord.setF

theorem areaWrite : Formed t.areaWrite :=
  h.ifElse fun h => ((h.atInstant.foldl (·.slotWrite)).setLine.ifElse (·.ringPeriod)).shareChecks

theorem mailOne {ws : List Word} : Formed (t.mailOne ws) := h.setF.ite h.sendBoth.setLine

theorem mailTake {k : Nat} : Formed (t.mailTake k) := by
  induction k generalizing t with
  | zero => exact h
  | succ k ih =>
    unfold State.mailTake
    split
    next ws s1 hs => exact ih (h.of_ringTake hs).mailOne
    · exact h

theorem mailSend : Formed t.mailSend := h.ifElse (·.setLine.mailTake)

theorem mailRecv {r : Nat} {own direct : Bool} {fr : List Byte} : Formed (t.mailRecv r own direct fr) :=
  h.ifElse fun h => h.incSat.ite (h.ifElse fun h => h.frFail.ite (h.ifElse fun h => h.deliver.ifElse fun h => h.ifElse
    (·.setLine.ringPut)))

theorem shareEnable {d : Nat} : Formed (t.shareEnable d) :=
  h.ifElse fun h => h.setF.ifElse fun h => (h.ifThen (·.delOvr)).takeInForce.setF.setF.setF.setF.setShare

theorem shareCouch {d : Nat} : Formed (t.shareCouch d) :=
  h.ifElse fun h => h.setF.setF.setF.delOvr.ite (h.shareCheck.branch (·.setOvr.setF) fun h => h.branch (fun h =>
    h.setOvr.setShare.ifThen (·.setF)) (·.setOvr.setShare)).setShare

theorem shareCouches : Formed t.shareCouches := h.foldl (·.shareCouch)
theorem shareResume {d : Nat} : Formed (t.shareResume d) := h.setF.ite (h.ifElse (·.setShare.setF.setF))
theorem crashCouch : Formed t.crashCouch := h.setLine.ifElse fun h => h.foldl fun h => h.ifThen (·.setUnit)

/-! ### Couch -/

omit h in

theorem demandNoted {acc : State × List (Demand × Bool)} {d : Demand} (h : Formed acc.1) :
    Formed (State.demandNoted acc d).1 := h.demand

theorem demandsCouch : Formed t.demandsCouch := (h.prot.foldl_fst demandNoted).host
theorem heldCouch : Formed t.heldCouch := h.held.foldl (·.setReg)
theorem commitCouch : Formed t.commitCouch := (h.foldl (·.budgetExpiry)).elig.heldCouch.groupsCouch

theorem deckleEvent {u : Nat} {wide : Nat → Int} {fresh : List Nat} : Formed (t.deckleEvent u wide fresh) :=
  h.ifElse fun h => h.raiseDev.ite h.unitDemandLater.raiseDev

theorem clampCouch {wide : State} : Formed (t.clampCouch wide) := (h.eng.foldl (·.incSat)).foldl (·.deckleEvent)

theorem watchCouch : Formed t.watchCouch :=
  ((((h.foldl (·.unitWatch)).foldl (·.govern)).foldl (·.unitFaults)).foldl (·.governFaults)).prot

theorem protCouch : Formed t.protCouch := ((h.foldl (·.rampCouch)).foldl (·.releaseAtCouch)).foldl (·.setB)

theorem couch : Formed t.couch :=
  h.ifElse fun h => ((((h.atInstant.commitCouch.deckCouch.foldl
    (·.unitPhase)).failuresCouch.clampCouch.watchCouch.demandsCouch.protCouch.motionCouch.shareCouches.crashCouch.foldl
    (·.ascCouch)).foldl (·.unitCouch)).armsCouch.foldl (·.unitMirror)).tmLine

theorem atCouch : Formed t.atCouch := h.atInstant.commitCouch

/-! ### Effects of instructions -/

theorem effectS {c : Proc} {d : BitVec 5} {f : LaneSt → Fl} {l : LaneSt} : Formed (Effect.s c d f t l).1 := h
theorem loadV {c : Proc} {p : BitVec 3} {d : BitVec 5} {v : VWord} {l : LaneSt} : Formed (loadV c p d v t l).1 := h

theorem branchEffect {c : Proc} {p : BitVec 3} {slot word : Nat} {l : LaneSt} : Formed (branchEffect c p slot word t l).1 :=
  h.ite_fst (h.ite_fst h)

theorem callkEffect {svc : BitVec 8} {a b : BitVec 5} {l : LaneSt} : Formed (callkEffect svc a b t l).1 :=
  h.setF.ite_fst h

theorem closeEffect {abort : Bool} {l : LaneSt} : Formed (closeEffect abort t l).1 :=
  h.ifElse_fst fun h => h.setCtx.setF.maxF.ifThen (·.discard)

theorem topenEffect {c : Proc} {d a : BitVec 5} {l : LaneSt} : Formed (topenEffect c d a t l).1 :=
  h.ifElse_fst fun h => h.wmFail.sliceEnd.discard.ite_fst h.copy.onCore

theorem stgEffect {c : Proc} {cv : Bool} {a b : BitVec 5} {l : LaneSt} : Formed (stgEffect c cv a b t l).1 := by
  unfold Machine.stgEffect
  dsimp only
  split
  · exact h
  split
  · exact h
  split
  · exact h
  split
  · exact h
  · exact h.setCtx.onCore

theorem mfsEffect {c : Proc} {d sel : BitVec 5} {l : LaneSt} : Formed (mfsEffect c d sel t l).1 := by
  unfold Machine.mfsEffect
  dsimp only
  split
  case h_4 => exact h.ite_fst h
  case h_5 => exact h.ite_fst h
  all_goals exact h

theorem loadWord {c : Proc} {base size : Nat} {d a : BitVec 5} {imm : BitVec 13} {l : LaneSt} :
    Formed (loadWord c base size d a imm t l).1 := by
  refine h.ifElse_fst fun h => ?_
  split
  · exact h
  next u hu => exact (h.of_eccAccess hu).onCore

theorem storeWord {c : Proc} {base size : Nat} {d a : BitVec 5} {imm : BitVec 13} {l : LaneSt} :
    Formed (storeWord c base size d a imm t l).1 := by
  refine h.ifElse_fst fun h => ?_
  split
  · exact h
  next u hu => exact (h.of_eccAccess hu).putWord

theorem loadQuad {c : Proc} {p : BitVec 3} {base size : Nat} {d a : BitVec 5} {imm : BitVec 13} {l : LaneSt} :
    Formed (loadQuad c p base size d a imm t l).1 := by
  refine h.ifElse_fst fun h => ?_
  split
  · exact h
  next u hu => exact (h.of_eccAccess hu).loadV

theorem storeQuad {c : Proc} {p : BitVec 3} {base size : Nat} {d a : BitVec 5} {imm : BitVec 13} {l : LaneSt} :
    Formed (storeQuad c p base size d a imm t l).1 := by
  refine h.ifElse_fst fun h => ?_
  split
  · exact h
  next u hu => exact (h.of_eccAccess hu).foldl (·.ifThen (·.putWord))

/-! ### Outcomes -/

theorem onMain {act : State → State} (hf : Formed t → Formed (act t)) : Leaves (onMain t act) := next (h.ifElse hf)
theorem onSafety {act : State → State} (hf : Formed t → Formed (act t)) : Leaves (onSafety t act) := next (h.ifElse hf)
theorem onBoth {act : State → State} (hf : Formed t → Formed (act t)) : Leaves (onBoth t act) := next (h.ifElse hf)

theorem onBus {m : Master} {act : State → State} (hf : Formed t → Formed (act t)) : Leaves (onBus t m act) :=
  h.onMain (·.ifElse hf)

theorem onLine {act : State → State} (hf : Formed t → Formed (act t)) : Leaves (onLine t act) :=
  h.onMain (·.ifElse hf)

theorem runNimson (i : Instr) : Leaves (runNimson i t) := by
  cases i
  all_goals unfold Machine.runNimson
  case add | sub | and | or | xor | shl | shr | sar | slt | sltu | min | max | mul | mulh | div | rem | adds | subs |
      addi | andi | ori | xori | shli | shri | sari | lui | lli | cmpEq | cmpNe | cmpLt | cmpGe | cmpLtu | cmpGeu |
      fcmpEq | fcmpLt | fcmpLe | fcmpUn | pand | por | pxor | pnot | pset | fadd | fsub | fmul | fma | fdiv | fsqrt |
      fmin | fmax | fabs | fneg | fclamp | ftoi | itof | ftoq | qtof | fclass | vaddF | vsubF | vmulF | vfmaF | vminF |
      vmaxF | vdotF | vcmpltF | vcmpeqF | vaddH | vsubH | vmulqH | vcvtFh | vcvtHf | vsplat | vins | vext | vshuf |
      vclarke | vpark | vipark | vsincos | vsvm | vpi | vlim | loop | nop | yield | mts =>
    exact h.onMain fun h => h.instr fun h => h
  case lwl | lwd => exact h.onMain fun h => h.instr (·.loadWord)
  case swl | swd => exact h.onMain fun h => h.instr (·.storeWord)
  case lwh => exact h.onMain fun h => h.instr fun h => h.ifElse_fst (·.onCore)
  case lwt =>
    exact h.onMain fun h => h.instr fun h => by
      split
      · exact h
      · exact h.onCore
  case vll | vld => exact h.onMain fun h => h.instr (·.loadQuad)
  case vsl | vsd => exact h.onMain fun h => h.instr (·.storeQuad)
  case vlh => exact h.onMain fun h => h.instr fun h => h.ifElse_fst (·.loadV)
  case vlt =>
    exact h.onMain fun h => h.instr fun h => h.ite_fst (by
      split
      · exact h
      · exact h.loadV)
  case lut =>
    exact h.onMain fun h => h.instr fun h => by
      split
      · exact h
      · exact h.effectS
  case br => exact h.onMain fun h => h.instr (·.branchEffect)
  case stg => exact h.onMain fun h => h.instr (·.stgEffect)
  case tcommit | tabort => exact h.onMain fun h => h.instr (·.closeEffect)
  case topen => exact h.onMain fun h => h.instr (·.topenEffect)
  case evt => exact h.onMain fun h => h.instr (·.raiseDev)
  case mfs => exact h.onMain fun h => h.instr (·.mfsEffect)
  case callk => exact h.onMain fun h => h.instr (·.callkEffect)
  all_goals exact h.next

/-! ### NimStep -/

theorem nextOr {o : Host.Outcome State Fault Refusal} (ho : Leaves o) : Formed (nextOr t o) := by
  unfold Machine.nextOr
  split
  · exact ho _ rfl
  · exact h

theorem execAt {c : Proc} : Formed (t.execAt c) := by
  unfold State.execAt
  dsimp only
  split
  · exact h.nextOr (h.runNimson _)
  · exact h.instr fun h => h

/-! ### Debug -/

theorem haltNow {reason : Nat} {why : Nat → Nat} : Formed (t.haltNow reason why) :=
  ((h.foldl (·.setF.setF)).setF.eng.foldl fun h => h.ifThen (·.setMd)).raiseDev

theorem haltAsk {reason : Nat} {why : Nat → Nat} : Formed (t.haltAsk reason why) :=
  h.ifElse fun h => h.setF.ite h.haltNow

theorem breakpoint {n : Nat} : Formed (t.breakpoint n) := h.ifThen (·.haltAsk)
theorem debugStep {n : Fin 8} : Formed (t.debugStep n) := h.ifElse (·.onCore.execAt.onCore.setF.eng)
theorem laneResume {n d : Nat} : Formed (t.laneResume n d) := h.setLane.ite (h.ifElse (·.setLane))

theorem resume : Formed t.resume := by
  unfold State.resume
  split
  · exact h
  · exact (((h.foldl (·.setF.setF)).setF.tmEng.setF.setF.foldl (·.laneResume)).foldl fun h => by
    split
    · exact h.setMd
    · exact h).allLegs.raiseDev

theorem debugData {n k : Nat} {w : Word} : Formed (t.debugData n k w) := h.ifElse (·.onCore)

/-! ### Diag -/

theorem diagEnd {error : Nat} : Formed (t.diagEnd error) := h.setF.setF.setF.gpioSync.legsApply.raiseDev

theorem diagStart {k : Nat} : Formed (t.diagStart k) :=
  h.setF.ite (h.setF.setF.setF.setF.setReg.prot.branch (fun h => h.foldl (·.diagRequest)) (·.gpioSync.legsApply))

theorem diagAbort : Formed t.diagAbort := h.ifThen (·.diagEnd)

theorem diagStepEnd : Formed t.diagStepEnd :=
  h.ifElse fun h => h.atInstant.prot.branch (·.setF.diagEnd) fun h => h.setF.diagEnd.ite h.prot.setF.legsApply

theorem mmcDiagEnd : Formed t.mmcDiagEnd :=
  h.ifElse fun h => ((h.ifThen (·.atInstant)).setF.setF.setF.foldl (·.setCell)).diagEnd

/-! ### SafeDie -/

theorem setSaf {x : SafeSt} : Formed (t.setSaf x) := h
theorem safeFlag {b : Nat} : Formed (t.safeFlag b) := h
theorem safeBlock {k : Nat} : Formed (t.safeBlock k) := h.histLog.rampEnd.ite h.demand

theorem safeDecision {cause src : Nat} {offs ramps : List Nat} : Formed (t.safeDecision cause src offs ramps) :=
  h.setReg.ifElse fun h => ((h.foldl (·.safeBlock)).foldl (·.demand)).raiseSafety

theorem netLoss : Formed t.netLoss :=
  h.ifElse fun h => h.gateNet.ifElse fun h => (h.foldl (·.safeBlock)).chopRestart.allLegs

theorem netFollow {on : Bool} : Formed (t.netFollow on) :=
  h.branch (fun h => h.ifElse fun h => h.gateNet.ifElse (·.chopRestart.allLegs)) (·.netLoss)

theorem mirrorPair {n : Nat} : Formed (t.mirrorPair n) := h
theorem mirrorSto {n : Nat} : Formed (t.mirrorSto n) := h
theorem mirrorSbc {m : Nat} : Formed (t.mirrorSbc m) := h
theorem mirrorOut : Formed t.mirrorOut := h

theorem safeMirror : Formed t.safeMirror :=
  (((h.setF.setF.foldl (·.mirrorPair)).mirrorOut.foldl (·.mirrorSto)).foldl (·.mirrorSbc)).setB.setB.setB.setB

theorem ss1Requests : Formed t.ss1Requests := h.foldl (·.setConv)
theorem safeOutputs : Formed t.safeOutputs := (h.setSaf.foldl (·.safeDecision)).ss1Requests.netFollow.safeMirror
theorem ev1 {cause who : Nat} : Formed (t.ev1 cause who) := h.ifElse (·.raiseSafety)

theorem pairLockout {cause : Nat} {inDie inCore : Bool} {n : Nat} : Formed (State.pairLockout cause inDie inCore t n) :=
  h.setSaf.ifElse (·.ev1)

theorem deviceLockout {cause : Nat} : Formed (t.deviceLockout cause) :=
  h.ifElse fun h => (h.setF.setF.ev1.foldl (·.pairLockout)).safeOutputs

theorem readbackFault {b : Nat} : Formed (t.readbackFault b) := h.setF.safeFlag.deviceLockout.safeOutputs

theorem readBack {back : BitVec 20} : Formed (t.readBack back).1 := by
  refine h.setSaf.foldl_fst fun h => ?_
  dsimp only
  split_ifs <;> exact h

theorem resetShown {w : Option Nat} : Formed (t.resetShown w) := by
  unfold State.resetShown
  dsimp only
  split
  · exact h.setB
  · exact h.setB.setF.branch (·.incWrap) (·.safeFlag)

theorem safeSample {die core : BitVec 25} {back : BitVec 20} : Formed (t.safeSample die core back) := by
  unfold State.safeSample
  dsimp only
  exact (((h.setF.setF.readBack.setSaf.ifElse (·.safeFlag)).foldl (·.pairLockout)).resetShown.foldl
    (·.readbackFault)).safeOutputs

theorem discTick {n : Nat} : Formed (t.discTick n) := h.setSaf.ifThen (·.incSat)

theorem nipCheck {exchange : Bool} : Formed (t.nipCheck exchange) :=
  h.incWrap.setB.branch (·.setSaf) fun h => h.incSat.safeFlag.setSaf.ifThen (·.deviceLockout)

theorem clockCheck {sosc core : Nat} : Formed (t.clockCheck sosc core) :=
  h.setF.setSaf.branch (fun h => (h.ifElse (·.setF.safeFlag.raiseSafety)).deviceLockout) (·.setF)

theorem safeTick {exchange toDie toCore : Bool} {sosc core : Nat} :
    Formed (t.safeTick exchange toDie toCore sosc core) :=
  (((h.setSaf.foldl (·.discTick)).ifThen (·.nipCheck)).ifThen (·.clockCheck)).setSaf.safeOutputs

theorem discLockout {n : Nat} : Formed (t.discLockout n) := h.ifThen (·.pairLockout.safeOutputs)
theorem permitLoss {core : Bool} : Formed (t.permitLoss core) := h.ifElse (·.deviceLockout)
theorem tpoPulse {m : Nat} : Formed (t.tpoPulse m) := h.ifThen (·.setSaf.safeMirror)

theorem outputTest {b : Nat} {high : Bool} : Formed (t.outputTest b high) :=
  h.ifThen fun h => h.setSaf.branch (·.readbackFault) (·.safeMirror)

theorem ss1Expiry {n : Nat} : Formed (t.ss1Expiry n) := h.ifThen fun h => (h.setSaf.ifThen (·.safeDecision)).safeOutputs
theorem brakeExpiry {m : Nat} : Formed (t.brakeExpiry m) := ((h.ifThen (·.setSaf)).ifThen (·.setSaf)).safeMirror
theorem connReset {c : Nat} : Formed (t.connReset c) := h.ifThen (·.setSaf)

theorem resetPulse : Formed t.resetPulse :=
  h.ifElse fun h => (((h.ifThen fun h => h.foldl (·.connReset)).setSaf.ifThen (·.safeFlag)).ifThen fun h =>
    (h.setF.setF.foldl (·.setF)).foldl (·.setF)).safeOutputs

theorem setCheck {src : Nat} {fromStore : Bool} : Formed (t.setCheck src fromStore) := h.copy.setSaf.setF
theorem paramLoad {val : Word} : Formed (t.paramLoad val) := h.setF.ifElse fun h => h.safeFlag.ite h.setCheck
theorem safeEnter {st : Nat} : Formed (t.safeEnter st) := h

theorem setAccept : Formed t.setAccept :=
  (((h.copy.setF.setReg.ifElse (·.copy.setSaf)).setSaf.foldl (·.setReg)).ifElse (·.setF)).safeOutputs

theorem setReject {e : Nat} : Formed (t.setReject e) :=
  ((h.clearBytes.setF.setReg.setSaf.foldl (·.setReg)).ifElse (·.setF)).safeOutputs

theorem setDone {agree : Bool} : Formed (t.setDone agree) :=
  h.ifElse fun h => h.setSaf.setF.branch (·.setAccept) (·.setReject)

theorem selfTestDone : Formed t.selfTestDone := h.ifElse fun h => h.setSaf.ifThen (·.setF.safeMirror)
theorem storeHandover : Formed t.storeHandover := h.ifElse fun h => h.setReg.setCheck.ite (h.ifThen (·.setF.safeMirror))
theorem commKey {val : Word} : Formed (t.commKey val) := h

theorem confirmSet {val : Word} : Formed (t.confirmSet val) :=
  h.ifElse fun h => h.setSaf.branch (fun h => h.setReg.setSaf.ifThen (·.safeEnter.safeMirror)) (·.safeFlag)

theorem relRequest {mask : BitVec 2} : Formed (t.relRequest mask) := h
theorem unlockReq {mask : BitVec 2} : Formed (t.unlockReq mask) := h

/-! ### SafeFrame -/

theorem moveCan {n m : Nat} {fr : List Byte} : Formed (t.moveCan n m fr) := h.putWord.putWords.ifThen (·.txAsk)
theorem moveOut {c : Nat} {echo : Bool} {fr : List Byte} : Formed (t.moveOut c echo fr) := h.ringPut.ite h.moveCan

theorem of_takeCan {n m : Nat} {y : List Byte × State} (hy : t.takeCan n m = some y) : Formed y.2 := by
  unfold State.takeCan at hy
  dsimp only at hy
  split_ifs at hy
  cases hy
  exact h.setF

theorem of_moveIn {c : Nat} {echo : Bool} {y : List Byte × State} (hy : t.moveIn c echo = some y) : Formed y.2 := by
  unfold State.moveIn at hy
  split at hy
  · exact h.of_takeCan hy
  split at hy
  · cases hy
  next e s1 hs =>
    dsimp only at hy
    split at hy
    · cases hy
    split at hy
    · cases hy
      exact h.of_ringTake hs
    split at hy
    · cases hy
    next e2 s2 hs2 =>
      cases hy
      exact (h.of_ringTake hs).of_ringTake hs2

theorem setConn {c : Nat} {x : ConnSt} : Formed (t.setConn c x) := h
theorem takeData {c : Nat} {fr : List Byte} : Formed (t.takeData c fr) := h.setConn.setB.ifThen (·.ringPut)

theorem frameAccept {c : Nat} {fr : List Byte} : Formed (t.frameAccept c fr) :=
  ((h.setConn.setF.setF.ifThen (·.takeData)).moveOut.ifThen (·.raiseDev)).safeOutputs

theorem frameReject {c : Nat} : Formed (t.frameReject c) := h.incSat.setF.setConn.safeOutputs

theorem consumerFrame {c : Nat} {copy : Bool} : Formed (t.consumerFrame c copy) := by
  refine h.ifElse fun h => ?_
  split
  · exact h
  next f s hs => exact (h.of_moveIn hs).branch (·.frameAccept) (·.frameReject)

theorem consumerTimeout {c : Nat} : Formed (t.consumerTimeout c) := by
  unfold State.consumerTimeout
  split
  · exact h
  · exact h.ifElse (·.atInstant.setConn.setF.setF.raiseDev.safeOutputs)

theorem producerSend {c : Nat} : Formed (t.producerSend c) := by
  refine h.ite ?_
  split
  · exact h
  · exact h.atInstant.incWrap.setConn.moveOut

theorem echoFail {c : Nat} : Formed (t.echoFail c) := h.setConn.setF.raiseDev

theorem echoIn {c : Nat} {copy : Bool} : Formed (t.echoIn c copy) := by
  refine h.ifElse fun h => ?_
  split
  · exact h
  next f s hs => exact (h.of_moveIn hs).branch (fun h => h.setConn.ifThen (·.setF)) (·.echoFail)

theorem echoLate {c : Nat} : Formed (t.echoLate c) := by
  unfold State.echoLate
  split
  · exact h
  · exact h.ifElse (·.atInstant.setConn.echoFail)

/-! ### Lifecycle -/

theorem secAlert {cause : Nat} : Formed (t.secAlert cause) := h.incSat.setF.raiseDev
theorem otpShow : Formed t.otpShow := h.setF.setB.setF.setB.setF.foldl (·.setF)
theorem tmxJudge : Formed t.tmxJudge := h.ifThen (·.setF)
theorem setSec {x : SecSt} : Formed (t.setSec x) := h.sec.otpShow.ifElse (·.tmxJudge)
theorem newNonce : Formed t.newNonce := h

theorem ctxLoad {t0 : Sched} {c : Nat} : Formed (State.ctxLoad t0 t c) := h.setF.setF.setF.foldl fun h => by
  split
  · exact h.setF.setF.setF
  · exact h

theorem schedLoad {t0 : Sched} : Formed (t.schedLoad t0) :=
  h.setF.setF.setF.setF.branch (·.eng.setF) fun h => (h.eng.setF.foldl (·.ctxLoad)).foldl (·.stageTile)

theorem schedDrop : Formed t.schedDrop := h
theorem enterRecovery : Formed t.enterRecovery := h
theorem bootFail {code : Nat} : Formed (t.bootFail code) := h.setF.setF.secAlert.ifElse (·.enterRecovery)
theorem tileLoad {x : SecSt} {i : Image} {t0 : TileRec} : Formed (State.tileLoad x i t t0) := h.ifElse (·.putWords.eng)

theorem takeImage {i : Image} {fromFlash : Bool} : Formed (t.takeImage i fromFlash) := by
  unfold State.takeImage
  dsimp only
  split
  · exact (h.clearBytes.clearBytes.eng.foldl (·.tileLoad)).quarSync.setSec.setF.setF.schedLoad
  · exact (h.clearBytes.clearBytes.eng.foldl (·.tileLoad)).quarSync.setSec.setF.setF

theorem eraseMem {steps : Nat} : Formed (t.eraseMem steps) :=
  (h.ifThen (·.sec)).ifElse (·.clearBytes.clearBytes.eng.quarSync)

theorem eraseRun {nonce : List Byte} {erased : Bool} {steps : Nat} : Formed (t.eraseRun nonce erased steps) :=
  h.eraseMem.branch (·.setF) fun h => h.branch (fun h => h.setF.branch (·.setF) fun h =>
    h.setSec.setF.ite h.setSec.enterRecovery.setF) (·.free.setF.setSec.enterRecovery.setF)

theorem flashBoot : Formed t.flashBoot := by
  unfold State.flashBoot
  split
  · exact h.bootFail
  · exact h.bootFail.ite h.setF.setF.takeImage

theorem bootStart {erased : Bool} {steps : Nat} : Formed (t.bootStart erased steps) := by
  refine h.eraseRun.ite ?_
  dsimp only
  split
  · exact h
  · exact h.enterRecovery
  · exact h.flashBoot.ite (h.ifElse (·.enterRecovery))

theorem causesShow : Formed t.causesShow := h.setReg.ifThen (·.setF)

theorem porstRelease {straps : BitVec 3} {erased : Bool} {steps : Nat} : Formed (t.porstRelease straps erased steps) :=
  h.ifElse fun h => (h.causesShow.pwr.setSaf.setF.setF.setSec.newNonce.ifThen (·.raiseDev)).bootStart

theorem bootGo {program : Bool} : Formed (t.bootGo program) :=
  h.ifElse fun h => h.bootFail.ite ((h.setF.setF.ifThen (·.sec)).branch (·.setSec) (·.takeImage))

theorem token {erased : Bool} {steps : Nat} : Formed (t.token erased steps) :=
  h.newNonce.branch (·.setF.secAlert) fun h => h.setF.ite h.setSec.eraseRun

theorem jtag {ir : JtagInstr} : Formed (t.jtag ir) := h.sec.secAlert.ite h.sec
theorem tmxSelect {k : Nat} {code : BitVec 8} : Formed (t.tmxSelect k code) := h.setF.ifElse (·.setF)
theorem keeperDead : Formed t.keeperDead := h.ifElse fun h => (h.sec.incSat.setF.foldl (·.demand)).raise

theorem refetchDone : Formed t.refetchDone := by
  unfold State.refetchDone
  split
  · exact h
  · refine h.eng.ite ?_
    split
    · exact h.eng.eng
    · exact h.eng.putWords.branch (·.unquarantine) (·.eng)

/-! ### Power -/

theorem connDown {c : Nat} : Formed (t.connDown c) := h.ifElse (·.setF.setF)

theorem mainReset {bit rail : Nat} : Formed (t.mainReset bit rail) := by
  refine h.pwr.ite (Formed.foldl ?_ (·.connDown)).safeMirror
  exact memFilter_wfFrom _ h

theorem safetyReset : Formed t.safetyReset := h.ifElse (·.netLoss.regsPwrSaf.clearBytes.clearBytes.ss1Requests)
theorem safetyRelease {xtal : Bool} : Formed (t.safetyRelease xtal) := h.ifElse (·.pwrSaf.setB)
theorem pllLock : Formed t.pllLock := h.ifElse (·.tmPwr.setF.setF)
theorem rstoutRelease : Formed t.rstoutRelease := h.ifElse (·.atInstant.pwr)
theorem clockFailure : Formed t.clockFailure := h.ifElse (·.pwr.mainReset)

theorem supplyWarn {rail mv : Nat} : Formed (t.supplyWarn rail mv) :=
  h.setF.setB.branch (·.pwr) fun h => (h.pwr.ifElse (·.setF)).ifThen (·.raiseAt)

theorem supplyMeasured {rail mv : Nat} : Formed (t.supplyMeasured rail mv) :=
  h.pwr.branch (fun h => (h.ifElse (·.supplyWarn)).ifElse (·.safetyReset)) fun h => h.branch (fun h =>
    h.mainReset.ite h.mainReset) fun h => h.branch (fun h => h.ifThen (·.pwr)) (·.supplyWarn)

theorem temperature {code : Nat} : Formed (t.temperature code) :=
  h.pwr.mainReset.ite (h.branch (fun h => h.ifThen (·.pwr)) fun h => h.setF.branch (fun h => h.ifThen (·.setF))
    fun h => h.ifThen (·.setF.setF.raiseDev))

/-! ### View -/

theorem readNative {m : Master} {a : Nat} : Formed (t.readNative m a).2 := by
  unfold State.readNative
  split
  · exact h
  · split
    · exact h
    · dsimp only
      split
      · exact h.host
      · exact h.ifElse_snd (·.setReg)

theorem readReg {m : Master} {a : Nat} : Formed (t.readReg m a).2 := h.readNative.ite_snd h.readNative

theorem busRead {m : Master} {a0 : Nat} : Formed (t.busRead m a0).2 := by
  refine (h.ite_snd h).ite_snd ((h.ite_snd h).ite_snd (h.ite_snd (h.ite_snd (h.ite_snd ?_))))
  split
  · exact h.ifThen (·.objLatch)
  · exact h.readReg

theorem busReads {m : Master} {a n : Nat} : Formed (t.busReads m a n).2 := by
  induction n generalizing t a with
  | zero => exact h
  | succ n ih => exact ih h.busRead

/-! ### Access -/

theorem vecRises {was : State} : Formed (was.vecRises t) := h.foldl (·.msgOnRise)
theorem vecAck {v : Nat} : Formed (t.vecAck v) := h.ifThen (·.sendMsg)
theorem vecUnmask {v : Nat} : Formed (t.vecUnmask v) := h.host.ifThen (·.sendMsg)

theorem fnMaskWrite {set : Bool} : Formed (t.fnMaskWrite set) :=
  h.host.ifElse fun h => h.foldl fun h => h.ifThen (·.sendMsg)

theorem msixWrite {o : Nat} {be : BitVec 4} {val : Word} : Formed (t.msixWrite o be val) :=
  h.putBytes.ite (h.ifElse fun h => h.host.ite h.vecUnmask)

theorem ringCfg {n v : Nat} : Formed (t.ringCfg n v) := h.setF.setB.setF.setF.host.ifElse (·.setF)
theorem idxBad {n : Nat} : Formed (t.idxBad n) := h
theorem doorbell {n v : Nat} : Formed (t.doorbell n v) := h.idxBad.ite h.setF.incWrap.raiseDev
theorem headWrite {n v : Nat} : Formed (t.headWrite n v) := h.idxBad.ite h.setF

theorem enableAt {a : Nat} : Formed (t.enableAt a) := by
  unfold State.enableAt
  dsimp only
  split
  · exact h.startTick
  · exact h.branch (fun h => h.sdEnable.ite h.fastEnable) fun h => h.sarEnable.ite h.sdcEnable
  · exact h.fldEnable
  · exact h.modEnable.ite h.setF
  · exact h.laneEnable
  · exact h.armEnable
  · exact h.setF.ite h.protEnable
  · exact h.portEnable.ite h.emuEnable
  · exact h.axisEnable.ite h.camEnable
  · exact h.lineEnable.ite h.shareEnable
  · exact h.canEnable
  · exact h

theorem disableAt {a : Nat} : Formed (t.disableAt a) := by
  unfold State.disableAt
  dsimp only
  split
  · exact h.stopTick
  · exact h.branch (fun h => h.sdDisable.ite h.fastDisable) fun h => h.sarDisable.ite h.sdcDisable
  · exact h.fldDisable
  · exact h.modDisable.ite h.holdRelease
  · exact h.laneDisable
  · exact h.armDisable
  · exact h.setF.chopOff.ite h.protDisable
  · exact h.portDisable.ite h.setF
  · exact h.axisDisable.ite h.camDisable
  · exact h.lineLeave.ite h.setF
  · exact h.canDisable
  · exact h

theorem regPlain {a : Nat} {x : RegWr} {keep : Word} : Formed (t.regPlain a x keep) := h

theorem protAct {o : Nat} {x : RegWr} : Formed (t.protAct o x) :=
  h.branch (fun h => h.ifThen (·.chopClear)) fun h => h.branch (fun h => h.foldl (·.drdyClear)) fun h => h.branch
    (fun h => h.ifThen (·.gfClear)) fun h => h.tripClear.ite (h.branch (fun h => (h.ifThen (·.diagStart)).ifThen
    (·.diagAbort)) fun h => h.ifThen fun h => (h.ifThen (·.release)).hostRequest)

theorem motAct {n : Nat} {wo : Word} : Formed (t.motAct n wo) :=
  ((h.ifThen (·.axisClear)).ifThen (·.stopRequest)).ifThen (·.homeCommand)

theorem canAct {n o : Nat} {x : RegWr} : Formed (t.canAct n o x) :=
  (h.ifThen (·.canRecover)).canMode.ite (h.txRequest.txCancel.ite (h.ifThen (·.txRequest)))

theorem tokenGo : Formed t.tokenGo := h.free.token

theorem regAct {was : State} {a : Nat} {x : RegWr} : Formed (was.regAct t a x) := by
  unfold State.regAct
  dsimp only
  split
  · exact h.ifThen (·.bootGo)
  · exact h.ifThen fun h => ((h.ifThen (·.haltAsk)).ifThen (·.debugStep)).ifThen (·.resume)
  · exact h.ifThen (·.ctxRestart)
  · exact h.ifThen (·.wmCommit)
  · exact h.ifThen (·.limpClear)
  · exact h.ifThen fun h => h.laneDiag.ite (h.ifThen (·.laneIdent))
  · exact h.ifThen (·.cellRetire)
  · exact h.protAct.ifThen (·.gpioSync)
  · exact h.branch (fun h => (h.ifThen (·.portClear)).ifThen (·.setF)) fun h => h.ifThen (·.limitWritten)
  · exact h.motAct.ite (h.ifThen (·.gpioSync))
  · exact h.ifThen fun h => h.foldl (·.shareResume)
  · exact h.canAct
  · exact h.vecRises.ifThen (·.vecAck)
  · exact h.tokenGo.ite (h.ifThen (·.gpioSync))
  · exact h

theorem of_regWhole {a : Nat} {x : RegWr} {y : State × Bool} (hy : t.regWhole a x = some y) : Formed y.1 := by
  unfold State.regWhole at hy
  dsimp only at hy
  split at hy
  case h_1 =>
    split_ifs at hy <;> cases hy
    · exact h.haltAsk
    · exact h
    · exact h.debugData
  case h_2 =>
    split_ifs at hy
    cases hy
    exact h
  case h_3 =>
    split_ifs at hy
    cases hy
    exact h.refHostWrite
  case h_4 =>
    split_ifs at hy <;> cases hy
    · exact h.gateCfg
    · exact h.gateHostWrite
  case h_5 =>
    split_ifs at hy
    cases hy
    exact h.compareArm
  case h_6 =>
    split_ifs at hy
    cases hy
    exact h.offsetWrite
  case h_7 =>
    split at hy <;> cases hy
    · exact h.ringCfg
    · exact h.headWrite
    · exact h.doorbell
  case h_8 =>
    split at hy <;> cases hy
    · exact h.confirmSet
    · exact h.commKey
    · exact h.paramLoad
  case h_9 =>
    split_ifs at hy
    cases hy
    exact h.tmxSelect
  case h_10 => cases hy

theorem couchWrite {kind i a : Nat} {w : Word} : Formed (t.couchWrite kind i a w).1 := by
  unfold State.couchWrite
  split
  · exact h.hostDrop
  · exact h.held.ite_fst h.setReg

theorem regPut {a : Nat} {x : RegWr} : Formed (t.regPut a x).1 := by
  refine h.ifElse_fst fun h => ?_
  split
  next r hr => exact h.of_regWhole hr
  · refine h.ifElse_fst fun h => ?_
    split
    · exact h.couchWrite
    · exact (h.regPlain.enableAt.ite (h.regPlain.ifThen (·.disableAt))).regAct.ite_fst h.regPlain.regAct

theorem of_keeperPut {a : Nat} {val : Word} {u : State} (hu : t.keeperPut a val = some u) : Formed u := by
  unfold State.keeperPut at hu
  dsimp only at hu
  split_ifs at hu
  · cases hu
    exact h.eng
  · cases hu
    exact h.setF

theorem regWrite {m : Master} {a : Nat} {sel val hw : Word} {masked : Bool} :
    Formed (t.regWrite m a sel val hw masked).1 := by
  unfold State.regWrite
  split
  · exact h.lockUse
  refine h.lockUse.ite_fst (h.lockKey.ite_fst ?_)
  split
  next u hu =>
    split_ifs at hu
    · exact h.of_keeperPut hu
  · exact (((h.ifElse (·.lockUse)).ifThen (·.setF)).ifThen (·.setF)).regPut

theorem maskedReg {m : Master} {a : Nat} {high : Bool} {val : Word} : Formed (t.maskedReg m a high val).1 := by
  unfold State.maskedReg
  split
  · exact h.lockUse
  · exact h.lockUse.ite_fst h.regWrite

theorem regSpace {m : Master} {a : Nat} {be : BitVec 4} {val hw : Word} : Formed (t.regSpace m a be val hw).1 := by
  refine h.lockUse.setF.ite_fst ?_
  split
  · exact h.maskedReg
  · exact h.regWrite

theorem busWrite {m : Master} {a0 : Nat} {be : BitVec 4} {val hw : Word} : Formed (t.busWrite m a0 be val hw).1 := by
  unfold State.busWrite
  dsimp only
  split
  · exact h.lockUse.ifThen (·.putBytes)
  split
  · exact h.lockUse.programWrite
  split
  · exact h.lockUse.tableWrite
  split
  · exact h.lockUse.putBytes
  split
  · generalize a0 / 4 * 4 - msixBase = o
    exact h.lockUse.msixWrite
  split
  · exact h.lockUse.objWrite
  · exact h.regSpace

/-! ### Host -/

theorem readInc {m : Master} {a : Nat} {inc : Word} : Formed (t.readInc m a inc) := by
  unfold State.readInc
  refine Formed.returns ?_
  split
  · exact h.busRead.ifElse (·.setReg)
  · exact h.busRead

theorem linkEvent : Formed t.linkEvent := h.raiseDev
theorem perst {level : Bool} : Formed (t.perst level) := h.ifElse (·.host.linkEvent)
theorem linkChange {up : Bool} : Formed (t.linkChange up) := h.ifElse (·.host.linkEvent)
theorem powerState {d3 : Bool} : Formed (t.powerState d3) := h.ifElse (·.host.linkEvent)

theorem spiWords {a : Nat} {ws : List Word} : Formed (t.spiWords a ws) := by
  induction ws generalizing t a with
  | nil => exact h
  | cons w ws ih => exact ih h.busWrite.host

theorem spiStatus : Formed t.spiStatus := h

theorem commandTake : Formed t.commandTake := by
  refine h.ifElse fun h => ?_
  split
  · exact h
  split
  · exact h
  next ws s hs => exact (h.of_ringTake hs).host

theorem respond {c : CmdRec} {status : Nat} {ws : List Word} : Formed (t.respond c status ws) := h.host.ringPut

theorem onCmd {op : Nat} {act : State → CmdRec → State} (hf : ∀ {c}, Formed t → Formed (act t c)) : Formed (t.onCmd op act) := by
  unfold State.onCmd
  split
  · exact h.ifThen hf
  · exact h

theorem refuse {c : CmdRec} : Formed (t.refuse c) := h.respond

theorem cmdReads {as : List Word} : Formed (t.cmdReads as).2 := by
  induction as generalizing t with
  | nil => exact h
  | cons a as ih => exact ih (h.busRead.ite_snd h)

theorem cmdRead {c : CmdRec} : Formed (t.cmdRead c) := h.refuse.ite h.cmdReads.respond

theorem cmdWrites {c : CmdRec} {mask j n : Nat} : Formed (t.cmdWrites c mask j n).1 := by
  induction n generalizing t mask j with
  | zero => exact h
  | succ n ih => exact ih (h.busWrite.ite_fst h.lockUse)

theorem cmdWrite {c : CmdRec} : Formed (t.cmdWrite c) := h.refuse.ite h.cmdWrites.respond

theorem cmdDeckle {c : CmdRec} : Formed (t.cmdDeckle c) :=
  h.refuse.ite (h.lockUse.branch (·.setF.refuse) (·.eng.deckleWrite.respond))

theorem cmdDeckleRead {c : CmdRec} : Formed (t.cmdDeckleRead c) := h.refuse.ite h.respond

theorem logWrite : Formed t.logWrite := by
  unfold State.logWrite
  split
  · exact h
  · exact h.atInstant.setF.host.ringPut

/-! ### Tick -/

theorem of_tickDue {y : Nat × State} (hy : t.tickDue = some y) : Formed y.2 := by
  unfold State.tickDue at hy
  split_ifs at hy
  · cases hy
    exact h.incWrap
  split at hy
  · cases hy
  · cases hy
    exact h.setF.setF.tmLine

theorem latchAll {t0 : Nat} : Formed (t.latchAll t0) :=
  (((((h.foldl (·.sdOutput)).sns.sdcRestart.kynSample.engTick.foldl (·.obsPredict)).foldl (·.ssiTick)).foldl
    (·.pulseSample)).foldl (·.boundStart)).freeLegs

theorem samplePoint : Formed t.samplePoint := by
  refine h.ifElse fun h => ?_
  dsimp only
  split
  · exact h.ifThen (·.engEnd)
  next x s hs => exact ((h.ifThen (·.engEnd)).of_tickDue hs).atInstant.tm.latchAll

theorem trace : Formed t.trace := h.ifThen (·.ringPut)

theorem headboxReady : Formed t.headboxReady :=
  h.ifElse fun h => (h.atInstant.foldl (·.unitMeasure)).hbPut.hbStatus.trace.tm

theorem pendAfter : Formed t.pendAfter := h

theorem lastTickEnd : Formed t.lastTickEnd :=
  h.ifElse fun h => (h.atInstant.engEnd.setF.tm.pendAfter.foldl (·.boundStop)).kynStop.foldl (·.setPort)

end Rules

end Formed

end Sys2Proof.Machine

namespace Sys2Proof.Machine

theorem Formed.exec {t : State} (h : Formed t) (i : Instr) : Leaves (Machine.exec i t) := by
  have hn : Leaves (Machine.runNimson i t) := h.runNimson i
  cases i
  all_goals unfold Machine.exec
  case add | sub | and | or | xor | shl | shr | sar | slt | sltu | min | max | mul | mulh | div | rem | adds | subs |
      addi | andi | ori | xori | shli | shri | sari | lui | lli | cmpEq | cmpNe | cmpLt | cmpGe | cmpLtu | cmpGeu |
      fcmpEq | fcmpLt | fcmpLe | fcmpUn | pand | por | pxor | pnot | pset | fadd | fsub | fmul | fma | fdiv | fsqrt |
      fmin | fmax | fabs | fneg | fclamp | ftoi | itof | ftoq | qtof | fclass | lwl | swl | lwd | swd | lwh | lwt |
      vll | vsl | vld | vsd | vlh | vlt | vaddF | vsubF | vmulF | vfmaF | vminF | vmaxF | vdotF | vcmpltF | vcmpeqF |
      vaddH | vsubH | vmulqH | vcvtFh | vcvtHf | vsplat | vins | vext | vshuf | vclarke | vpark | vipark | vsincos |
      vsvm | vpi | vlim | lut | br | loop | stg | tcommit | tabort | topen | nop | yield | evt | mfs | mts | callk =>
    exact hn
  case samplePoint => exact h.onMain (·.samplePoint)
  case headboxReady => exact h.onMain (·.headboxReady)
  case couch => exact h.onMain (·.couch)
  case lastTickEnd => exact h.onMain (·.lastTickEnd)
  case startTick => exact h.onMain (·.startTick)
  case stopTick => exact h.onMain (·.stopTick)
  case ppsoSecond => exact h.onMain (·.ppsoSecond)
  case ppsoPulseEnd => exact h.onMain (·.ppsoEnd)
  case ppsiEdge => exact h.onMain (·.setF.setF)
  case timeNowRead => exact h.onBus (·.readTimeNow)
  case gpioStampRead => exact h.onBus (·.readPair)
  case canTimestampRead => exact h.onBus (·.readPair)
  case readClear => exact h.onBus (·.readInc)
  case sliceStart => exact h.onMain (·.sliceStart)
  case budgetExpiry => exact h.onMain (·.budgetExpiry)
  case scrubCheck => exact h.onMain (·.scrubCheck)
  case tileRefetch => exact h.onMain (·.tileRefetch)
  case tileRefetchDone => exact h.onMain (·.refetchDone)
  case tableTileWrite => exact h.onBus (·.lockUse.tableWrite)
  case programWindowWrite => exact h.onBus (·.lockUse.programWrite)
  case tileWmCommit => exact h.onMain (·.wmCommit)
  case wmCheckDone => exact h.onMain (·.wmCheckDone)
  case ctxRestart => exact h.onMain (·.ctxRestart)
  case keeperWatchdog => exact h.onMain (·.keeperDead)
  case version => exact h.onMain fun h => h.serve (·.svcDone)
  case deckleGet =>
    exact h.onMain fun h => h.serve fun h => by
      split
      · exact h.svcDone
      · exact h.svcRefuse
  case deckleNarrow => exact h.onMain fun h => h.serve (·.svcNarrow)
  case deckleRestore => exact h.onMain fun h => h.serve (·.svcRestore)
  case safetySend => exact h.onMain fun h => h.serve (·.eng.svcPlain)
  case safetyRead => exact h.onMain fun h => h.serve (·.svcSafetyRead)
  case tileQuery => exact h.onMain fun h => h.serve fun h => h.svcRefuse.ite h.svcDone
  case haltSelf => exact h.onMain fun h => h.serve (·.setCtx.svcPlain)
  case unknownService =>
    exact h.onMain fun h => by
      split
      · exact h.ifThen (·.svcDone)
      · exact h
  case illegalInstruction => exact h.onMain fun h => h.ifElse fun h => h.instr fun h => h
  case debugHalt => exact h.onMain (·.haltAsk)
  case breakpointHit => exact h.onMain (·.breakpoint)
  case debugStep => exact h.onMain (·.debugStep)
  case debugResume => exact h.onMain (·.resume)
  case debugDataWrite => exact h.onMain (·.debugData)
  case sdcEnable => exact h.onMain (·.sdcEnable)
  case sdEnable => exact h.onMain (·.sdEnable)
  case fastEnable => exact h.onMain (·.fastEnable)
  case sdIdleOutput => exact h.onMain (·.sdIdle)
  case sarEnable => exact h.onMain (·.sarEnable)
  case sarSlotDone => exact h.onMain fun h => h.ifThen (·.atInstant.sarSlotDone)
  case sarIdleSequence =>
    exact h.onMain fun h => h.ifElse fun h => h.sns.foldl fun h => h.ifThen (·.atInstant.sarSlotDone)
  case observerUpdate => exact h.onMain (·.obsUpdate)
  case observerValid => exact h.onMain (·.obsValid)
  case observerLoss => exact h.onMain (·.obsLoss)
  case fldEnable => exact h.onMain (·.fldEnable)
  case fldDisable => exact h.onMain (·.fldDisable)
  case testPulse => exact h.onMain (·.testPulse)
  case magnetiseDone => exact h.onMain (·.magnetiseDone)
  case lockedRotor => exact h.onMain fun h => h.beforeCouch (·.lrDemand)
  case overspeed => exact h.onMain fun h => h.beforeCouch (·.ovsDemand)
  case rideThroughEnter => exact h.onMain (·.rideEnter)
  case rideThroughEnd => exact h.onMain (·.rideEnd)
  case limpClear => exact h.onMain (·.limpClear)
  case modEnable => exact h.onMain (·.modEnable)
  case modDisable => exact h.onMain (·.modDisable)
  case reloadEvent => exact h.onMain fun h => h.ifThen (·.reload)
  case carrierZeroEvent => exact h.onMain (·.carrierZero)
  case carrierPeakEvent => exact h.onMain (·.carrierPeak)
  case pwmCommandEdge => exact h.onMain (·.pwmStep)
  case deadTimeEnd => exact h.onMain (·.deadTimeEnd)
  case dutyHostWrite => exact h.onMain fun h => h.refHostWrite.ite h.refHostWrite
  case holdRelease => exact h.onMain (·.holdRelease)
  case gateCfgWrite => exact h.onMain (·.gateCfg)
  case legEnable => exact h.onMain fun h => h.ifElse (·.setShd.legCmd)
  case bootstrapRefresh => exact h.onMain (·.refreshStart)
  case refreshEnd => exact h.onMain (·.refreshEnd)
  case psynciEdge => exact h.onMain (·.psynci)
  case laneEnable => exact h.onMain (·.laneEnable)
  case laneDisable => exact h.onMain (·.laneDisable)
  case laneTrainLock => exact h.onMain (·.trainLock)
  case trainTimeout => exact h.onMain (·.trainTimeout)
  case identUplinkFrame => exact h.onMain (·.identUp)
  case identTimeout => exact h.onMain (·.identTimeout)
  case laneDiagCmd => exact h.onMain (·.laneDiag)
  case laneIdentCmd => exact h.onMain (·.laneIdent)
  case readyFrame => exact h.onMain (·.readyFrame)
  case downlinkBurst => exact h.onMain (·.downBurst)
  case uplinkFrame => exact h.onMain (·.uplink)
  case laneDown => exact h.onMain (·.alignLost)
  case armEnable => exact h.onMain (·.armEnable)
  case armDisable => exact h.onMain (·.armDisable)
  case cellRetire => exact h.onMain (·.cellRetire)
  case bypassUnconfirmed => exact h.onMain (·.bypassUnconfirmed)
  case spreadLimit => exact h.onMain (·.spreadLimit)
  case circLimit => exact h.onMain (·.circLimit)
  case gfFault => exact h.onMain (·.gfActive)
  case gfBlankingEnd => exact h.onMain (·.gfBlankEnd)
  case gfClear => exact h.onMain (·.gfClear)
  case drdyLoss => exact h.onMain (·.drdyLoss)
  case drdyClear => exact h.onMain (·.drdyClear)
  case fastOvercurrent => exact h.onMain (·.atInstant.fastOc)
  case ov2Detect => exact h.onMain fun h => h.ifThen (·.ov2)
  case tripInput => exact h.onMain (·.trip)
  case tripClear => exact h.onMain (·.tripClear)
  case undervoltage => exact h.onMain fun h => h.beforeCouch (·.uvDemand)
  case vdcLost => exact h.onMain fun h => h.beforeCouch (·.lostDemand)
  case chopperDecision => exact h.onMain fun h => h.ifThen fun h => h.atInstant.foldl (·.chopDecide)
  case governorIdleDecision =>
    exact h.onMain fun h => h.ifElse fun h => ((h.atInstant.foldl (·.chopDecide)).foldl (·.govern)).foldl
      (·.governFaults)
  case chopperCfFault => exact h.onMain (·.chopCf)
  case chopperFaultClear => exact h.onMain (·.chopClear)
  case protEnable => exact h.onMain (·.protEnable)
  case protDisable => exact h.onMain (·.protDisable)
  case release => exact h.onMain (·.release)
  case hostRequest => exact h.onMain (·.hostRequest)
  case rampTimeout => exact h.onMain (·.rampTimeout)
  case diagStart => exact h.onMain (·.diagStart)
  case diagAbort => exact h.onMain (·.diagAbort)
  case diagStepEnd => exact h.onMain (·.diagStepEnd)
  case mmcDiagEnd => exact h.onMain (·.mmcDiagEnd)
  case portEnable => exact h.onMain (·.portEnable)
  case portDisable => exact h.onMain (·.portDisable)
  case illegalTransition => exact h.onMain fun h => h.ifThen (·.bothTracks)
  case index => exact h.onMain fun h => h.ifThen fun h => h.indexLevel (·.indexEdge)
  case amplitudeFault => exact h.onMain (·.ampFault)
  case ssiFrameStart => exact h.onMain (·.ssiStart)
  case ssiFrameEnd => exact h.onMain (·.ssiEnd)
  case feedbackObserverUpdate => exact h.onMain fun h => h.ifThen (·.atInstant.obsCorrect)
  case feedbackIdleCycle =>
    exact h.onMain fun h => h.ifElse fun h => (h.atInstant.setPort.obsPredict.ifElse (·.setPort)).obsCorrect
  case portSettled => exact h.onMain (·.portSettle)
  case portClear => exact h.onMain (·.portClear)
  case refClear => exact h.onMain (·.setF)
  case compareArm => exact h.onMain (·.compareArm)
  case compareHit => exact h.onMain (·.compareHit)
  case comparePulseEnd => exact h.onMain (·.comparePulseEnd)
  case emulationEnable => exact h.onMain (·.emuEnable)
  case emulatorStep => exact h.onMain (·.emuStep)
  case axisEnable => exact h.onMain (·.axisEnable)
  case axisDisable => exact h.onMain (·.axisDisable)
  case stopRequest => exact h.onMain (·.stopRequest)
  case homeCommand => exact h.onMain (·.homeCommand)
  case axisClear => exact h.onMain (·.axisClear)
  case offsetWrite => exact h.onMain (·.offsetWrite)
  case limitSwitchChange => exact h.onMain (·.switchChange)
  case chatter => exact h.onMain (·.chatter)
  case followingError => exact h.onMain (·.followError)
  case standstillTimer => exact h.onMain (·.standstill)
  case brakeTimer => exact h.onMain (·.brakeTimer)
  case releaseTimer => exact h.onMain (·.releaseTimer)
  case slack => exact h.onMain (·.slackOn)
  case syncError => exact h.onMain (·.syncError)
  case camEnable => exact h.onMain (·.camEnable)
  case lineEnable => exact h.onMain (·.lineEnable)
  case lineLeave => exact h.onMain (·.lineLeave)
  case helloSend => exact h.onLine (·.helloSend)
  case helloFrame => exact h.onLine (·.forward.helloFrame)
  case formationTimeout => exact h.onMain (·.formTimeout)
  case linkDelayMeasure => exact h.onMain (·.linkDelay)
  case syncSend => exact h.onLine (·.syncSend)
  case syncFrame => exact h.onLine (·.forward.syncFrame)
  case timeLoss => exact h.onMain (·.timeLoss)
  case exchSend => exact h.onLine (·.exchSend)
  case exchFrame => exact h.onLine (·.atInstant.forward.exchRecv)
  case receiveAreaWrite => exact h.onLine (·.areaWrite)
  case ringDown => exact h.onMain (·.ringDown)
  case ringUp => exact h.onMain (·.ringBack)
  case mailSend => exact h.onLine (·.mailSend)
  case mailFrame => exact h.onLine (·.forward.mailRecv)
  case loadShareEnable => exact h.onMain (·.shareEnable)
  case loadShareResume => exact h.onMain fun h => h.foldl (·.shareResume)
  case canEnable => exact h.onMain (·.canEnable)
  case canIntegrated => exact h.onMain (·.canIntegrated)
  case canDisable => exact h.onMain (·.canDisable)
  case canModeChange => exact h.onMain (·.canMode)
  case canFrameReceived => exact h.onMain (·.canReceive)
  case remoteFrame => exact h.onMain fun h => h.ifThen (·.canStamp.canGood.canFree)
  case canBusError => exact h.onMain (·.canError)
  case txRequest => exact h.onMain (·.txRequest)
  case txCancel => exact h.onMain (·.txCancel)
  case txSelect => exact h.onMain (·.txSelect)
  case txDone => exact h.onMain (·.txDone)
  case arbitrationLost => exact h.onMain (·.txFail)
  case objectWrite => exact h.onMain (·.objWrite)
  case objectReadLatch => exact h.onBus (·.objLatch.returns)
  case canRecover => exact h.onMain (·.canRecover)
  case busOffRecovered => exact h.onMain (·.canRecovered)
  case referenceMessageTimer => exact h.onMain (·.refTimer)
  case referenceMessage => exact h.onMain (·.refFrame)
  case referenceLost => exact h.onMain (·.refLost)
  case ttTrigger => exact h.onMain (·.ttTrigger)
  case rg12FrameTake => exact h.onMain (·.rg12Take)
  case sleepEnter => exact h.onMain (·.canSleep)
  case wake => exact h.onMain (·.canWake)
  case safetySample => exact h.onSafety (·.safeSample)
  case safetyTick => exact h.onSafety (·.safeTick)
  case discrepancy => exact h.onSafety (·.discLockout)
  case permitLoss => exact h.onSafety (·.permitLoss)
  case tpoPulse => exact h.onSafety (·.tpoPulse)
  case ss1Expiry => exact h.onSafety (·.ss1Expiry)
  case sbcDelayExpiry => exact h.onSafety (·.brakeExpiry)
  case outputTest => exact h.onSafety (·.outputTest)
  case safetyResetPulse => exact h.onSafety (·.resetPulse)
  case gateEnableLoss => exact h.netLoss.safeMirror.next
  case selfTestDone => exact h.onSafety (·.selfTestDone)
  case safetyStoreHandover => exact h.onSafety (·.storeHandover)
  case parameterLoad => exact h.onMain (·.paramLoad)
  case parameterCheckDone => exact h.onSafety (·.setDone)
  case commissioningKey => exact h.onMain (·.commKey)
  case confirm => exact h.onMain (·.confirmSet)
  case releaseRequest => exact h.onMain (·.relRequest)
  case unlockRequest => exact h.onMain (·.unlockReq)
  case safetyFrameReceived => exact h.onBoth (·.consumerFrame)
  case consumerWatchdog => exact h.onBoth (·.consumerTimeout)
  case producerSend => exact h.onBoth (·.producerSend)
  case echoFrame => exact h.onBoth (·.echoIn)
  case echoTimeout => exact h.onBoth (·.echoLate)
  case perst => exact h.onMain (·.perst)
  case linkChange => exact h.onMain (·.linkChange)
  case powerStateChange => exact h.onMain (·.powerState)
  case spiWrite => exact h.onMain (·.spiWords)
  case spiRead => exact h.onMain (·.busReads.returns)
  case spiStatus => exact h.onMain (·.spiStatus)
  case spiFrameError => exact h.onMain (·.host.linkEvent)
  case registerWrite => exact h.onBus (·.busWrite)
  case maskedWrite => exact h.onBus (·.busWrite)
  case lockKey => exact h.onBus (·.lockKey)
  case lockLapse => exact h.onMain (·.lockLapse)
  case ringConfig => exact h.onMain (·.ringCfg)
  case doorbell => exact h.onMain (·.doorbell)
  case headWrite => exact h.onMain (·.headWrite)
  case commandTake => exact h.onMain (·.commandTake)
  case cmdNop => exact h.onMain fun h => h.onCmd (·.respond)
  case cmdVersion => exact h.onMain fun h => h.onCmd (·.respond)
  case timeRead => exact h.onMain fun h => h.onCmd (·.respond)
  case regRead => exact h.onMain fun h => h.onCmd (·.cmdRead)
  case regWrite => exact h.onMain fun h => h.onCmd (·.cmdWrite)
  case deckleConfig => exact h.onMain fun h => h.onCmd (·.cmdDeckle)
  case deckleRead => exact h.onMain fun h => h.onCmd (·.cmdDeckleRead)
  case unknownOpcode =>
    exact h.onMain fun h => by
      split
      · exact h.ifThen (·.respond)
      · exact h
  case eventLogWrite => exact h.onMain (·.logWrite)
  case vectorAck => exact h.onMain (·.vecAck)
  case msixUnmask =>
    exact h.onMain fun h => by
      split
      · exact h.vecUnmask
      · exact h.fnMaskWrite
  case forerunnerRead => exact h.onBus (·.readReg.returns)
  case porstRelease => exact h.porstRelease.next
  case bootGo => exact h.onMain (·.bootGo)
  case token => exact h.onMain (·.token)
  case jtagInstruction => exact h.onMain (·.jtag)
  case tmxSelect => exact h.onMain (·.tmxSelect)
  case mainDieReset => exact h.mainReset.next
  case safetyDieReset => exact h.safetyReset.next
  case safetyDieRelease => exact h.safetyRelease.next
  case pllLock => exact h.onMain (·.pllLock)
  case rstoutRelease => exact h.onMain (·.rstoutRelease)
  case clockFailure => exact h.onMain (·.clockFailure)
  case supplyMeasurement => exact h.supplyMeasured.next
  case temperatureReading => exact h.temperature.next
  case gpioEdge => exact h.onMain (·.gpioEdge)
  case sdLatchingEdge => exact h.onMain (·.sdLatch)
  case quadratureCount => exact h.onMain fun h => h.ifThen (·.quadStep)
  case counterHoldEnd => exact h.onMain (·.holdEnd)

theorem Formed.step {s : State} (h : Formed s) : Leaves (Machine.step s) := by
  unfold Machine.step
  split
  · exact h.idle.next
  next c rest _ => exact (show Formed { s with pending := rest } from h).exec c

/-- Settles O8: memory keeps its form along the definition of each command (`Formed.exec`). -/
theorem stepKeepsMemoryForm : Obligations.StepKeepsMemoryForm := fun _ t h hs => Formed.step h t hs

/-- Settles O9: nothing is listed. -/
theorem resetMemoryForm : Obligations.ResetMemoryForm := ⟨rfl, fun _ => rfl⟩

end Sys2Proof.Machine

/-! # The debug view's write to nothing (R101): the model lists the core that it leaves alone -/

namespace Sys2Proof.Machine

/-- The main die out of reset and the lanes halted, with no core listed. -/
def haltedAtReset : State := { State.reset with eng := { haltAt := some 0 } }

theorem haltedAtReset_file : haltedAtReset.f (F.ENG_DBG_SEL_file 0) = 0 := by decide

/-- With file 0 (S) selected, only word 0 writes: the other words put back the core as it is. -/
theorem debugData_eq_setCore {s : State} {n k : Nat} (hs : s.halted = true) (hfile : s.f (F.ENG_DBG_SEL_file n) = 0)
    (hk : k ≠ 0) (w : Word) : s.debugData n k w = s.setCore n (s.core n) := by
  simp [State.debugData, State.onCore, hs, hfile, hk]

theorem exec_debugDataWrite {s : State} (hs : s.pwr.mainRst = false) (n : Fin 8) (k : Fin 4) (w : Word) :
    Machine.exec (.debugDataWrite n k w) s = .next (s.debugData n k w) := by
  show onMain s (fun s => s.debugData n k w) = _
  simp [onMain, hs]

/-- Refutes O60 at the debug view's writes (R101): with file 0 selected a write of word 1 writes nothing, and the clause
asks for the very same state. The model puts back the core as it was, and so lists one that was not listed. -/
theorem not_resetsMonitorsGpioDebug : ¬ Obligations.ResetsMonitorsGpioDebug := by
  rintro ⟨_, _, _, _, hdebug⟩
  have hrst : haltedAtReset.pwr.mainRst = false := rfl
  obtain ⟨_, hcore, _⟩ := hdebug haltedAtReset hrst
  obtain ⟨_, _, _, _, hwrite⟩ := hcore 0
  have hnothing : haltedAtReset.f (F.ENG_DBG_SEL_file 0) ≠ 1 ∧ (1 : Fin 4) ≠ 0 := by
    rw [haltedAtReset_file]; decide
  have hdata : haltedAtReset.debugData (0 : Fin 8) (1 : Fin 4) 0 = haltedAtReset.setCore 0 {} :=
    debugData_eq_setCore rfl haltedAtReset_file (by decide) 0
  have hsame := (hwrite 1 0).1 (.inr (.inl hnothing))
  rw [exec_debugDataWrite hrst, hdata] at hsame
  have hlanes : [(0, {})] = ([] : Tbl LaneSt) := congrArg (·.eng.lanes) (Host.Outcome.next.inj hsame)
  cases hlanes

end Sys2Proof.Machine

/-! # The sinc filters (O33)

The weights of a filter are the ones that a window of `n`, slid over the weights of the filter before it, leaves on each bit
(`slid`): a run of ones gives the triangle of a sinc2 filter, that triangle the weights of a sinc3 filter. -/

namespace Sys2Proof.Machine

theorem tri_succ (n : Nat) : tri (n + 1) = tri n + (n + 1) := by
  unfold tri
  rw [show (n + 1) * (n + 1 + 1) = n * (n + 1) + (n + 1) * 2 by ring, Nat.add_mul_div_right _ _ (by decide)]

/-- The weight of bit `k` once a window of `n` has been slid over the weights `w`. -/
def slid (n : Nat) (w : Nat → Nat) (k : Nat) : Nat := ∑ i ∈ Finset.range n, if i ≤ k then w (k - i) else 0

theorem sum_slid {w : Nat → Nat} {n m len : Nat} (hw : ∀ k, m ≤ k → w k = 0) (hlen : n + m ≤ len + 1) (g : Nat → Nat) :
    ∑ i ∈ Finset.range n, ∑ k ∈ Finset.range m, w k * g (i + k) = ∑ k ∈ Finset.range len, slid n w k * g k := by
  simp only [slid, Finset.sum_mul]
  rw [Finset.sum_comm (s := Finset.range len)]
  refine Finset.sum_congr rfl fun i hi => ?_
  obtain ⟨r, rfl⟩ : ∃ r, len = i + (m + r) := ⟨len - i - m, by have := Finset.mem_range.1 hi; omega⟩
  have habove : ∀ k, w (m + k) = 0 := fun k => hw _ (Nat.le_add_right m k)
  simp [Finset.sum_range_add, habove]
  intro k hk hik
  omega

theorem slid_add (n : Nat) (w : Nat → Nat) (k : Nat) :
    slid n w k + ∑ m ∈ Finset.range (k + 1 - n), w m = ∑ m ∈ Finset.range (k + 1), w m := by
  induction n with
  | zero => simp [slid]
  | succ n ih =>
    rw [← ih, slid, Finset.sum_range_succ, ← slid]
    obtain hk | hk := Nat.lt_or_ge k n
    · rw [if_neg (by omega), show k + 1 - (n + 1) = 0 by omega, show k + 1 - n = 0 by omega, Nat.add_zero]
    · rw [if_pos hk, show k + 1 - (n + 1) = k - n by omega, show k + 1 - n = k - n + 1 by omega, Finset.sum_range_succ]
      omega

theorem bitSum_eq_sum (w : Nat → Nat) (bits : BitVec 768) (len : Nat) :
    bitSum w bits len = ∑ k ∈ Finset.range len, w k * (bits.getLsbD k).toNat := by
  unfold bitSum
  induction len with
  | zero => rfl
  | succ len ih =>
    rw [List.range_succ, List.foldl_append, ih, Finset.sum_range_succ]
    cases h : bits.getLsbD len <;> simp [h]

/-- A window of `n` slid over a run of `n` ones: the triangle of a sinc2 filter. -/
theorem slid_run (n k : Nat) (hk : k < 2 * n) : slid n (fun m => if m < n then 1 else 0) k = sinc2Weight n k := by
  have hrun : ∀ K, ∑ m ∈ Finset.range K, (if m < n then 1 else 0) = min K n := by
    intro K
    induction K with
    | zero => simp
    | succ K ih => rw [Finset.sum_range_succ, ih]; split <;> omega
  have h := slid_add n (fun m => if m < n then 1 else 0) k
  rw [hrun, hrun] at h
  unfold sinc2Weight
  omega

theorem sum_sinc2Weight (n K : Nat) :
    ∑ m ∈ Finset.range K, sinc2Weight n m + 2 * tri (K - n) = tri K + tri (K - 2 * n) := by
  induction K with
  | zero => simp [tri]
  | succ K ih =>
    have hstep : ∀ d, tri (K + 1 - d) = tri (K - d) + (K + 1 - d) := by
      intro d
      obtain h | h := Nat.lt_or_ge K d
      · rw [show K + 1 - d = 0 by omega, show K - d = 0 by omega]; rfl
      · rw [Nat.sub_add_comm h, tri_succ]
    have h1 := hstep n
    have h2 := hstep (2 * n)
    have h3 := tri_succ K
    rw [Finset.sum_range_succ]
    unfold sinc2Weight at ih ⊢
    omega

/-- A window of `n` slid over that triangle: the weights of a sinc3 filter. -/
theorem slid_sinc2Weight (n k : Nat) (hk : k < 3 * n) : slid n (sinc2Weight n) k = sinc3Weight n k := by
  have h := slid_add n (sinc2Weight n) k
  have h1 := sum_sinc2Weight n (k + 1)
  have h2 := sum_sinc2Weight n (k + 1 - n)
  rw [Nat.sub_sub, ← two_mul, Nat.sub_sub, show k + 1 - (n + 2 * n) = 0 by omega, show tri 0 = 0 from rfl] at h2
  unfold sinc3Weight
  omega

theorem sum_map_range (n : Nat) (f : Nat → Nat) : ((List.range n).map f).sum = ∑ i ∈ Finset.range n, f i := rfl

theorem ite_eq_toNat (b : Bool) : (if b = true then 1 else 0) = b.toNat := by cases b <;> rfl

theorem sum_sum_eq_sinc2 (n : Nat) (g : Nat → Nat) :
    ∑ i ∈ Finset.range n, ∑ j ∈ Finset.range n, g (i + j) = ∑ k ∈ Finset.range (2 * n - 1), sinc2Weight n k * g k := by
  have h := sum_slid (w := fun m => if m < n then 1 else 0) (n := n) (m := n) (len := 2 * n - 1)
    (fun k hk => if_neg (by omega)) (by omega) g
  calc ∑ i ∈ Finset.range n, ∑ j ∈ Finset.range n, g (i + j)
      = ∑ i ∈ Finset.range n, ∑ j ∈ Finset.range n, (if j < n then 1 else 0) * g (i + j) :=
        Finset.sum_congr rfl fun i _ => Finset.sum_congr rfl fun j hj => by
          rw [if_pos (Finset.mem_range.1 hj), Nat.one_mul]
    _ = _ := h
    _ = _ := Finset.sum_congr rfl fun k hk => by rw [slid_run n k (by have := Finset.mem_range.1 hk; omega)]

theorem sum_sum_sum_eq_sinc3 (n : Nat) (g : Nat → Nat) :
    ∑ i ∈ Finset.range n, ∑ j ∈ Finset.range n, ∑ k ∈ Finset.range n, g (i + j + k) =
      ∑ k ∈ Finset.range (3 * n - 2), sinc3Weight n k * g k := by
  calc ∑ i ∈ Finset.range n, ∑ j ∈ Finset.range n, ∑ k ∈ Finset.range n, g (i + j + k)
      = ∑ i ∈ Finset.range n, ∑ m ∈ Finset.range (2 * n - 1), sinc2Weight n m * g (i + m) :=
        Finset.sum_congr rfl fun i _ => by
          simp only [Nat.add_assoc]
          exact sum_sum_eq_sinc2 n fun m => g (i + m)
    _ = _ := sum_slid (fun k hk => by unfold sinc2Weight; omega) (by omega) g
    _ = _ := Finset.sum_congr rfl fun k hk => by rw [slid_sinc2Weight n k (by have := Finset.mem_range.1 hk; omega)]

theorem bitSum_sinc3 (bits : BitVec 768) (n : Nat) : bitSum (sinc3Weight n) bits (3 * n - 2) = tripleSum bits n := by
  simp only [bitSum_eq_sum, tripleSum, sum_map_range, ite_eq_toNat, sum_sum_sum_eq_sinc3 n fun k => (bits.getLsbD k).toNat]

theorem bitSum_sinc2 (bits : BitVec 768) (n : Nat) : bitSum (sinc2Weight n) bits (2 * n - 1) = doubleSum bits n := by
  simp only [bitSum_eq_sum, doubleSum, sum_map_range, ite_eq_toNat, sum_sum_eq_sinc2 n fun k => (bits.getLsbD k).toNat]

/-- A window of ones sums to its gain, one of zeros to nothing. -/
theorem tripleSum_ones {n : Nat} (h : n ≤ 256) : tripleSum (BitVec.allOnes 768) n = n * n * n := by
  have hbit : ∀ i ∈ Finset.range n, ∀ j ∈ Finset.range n, ∀ k ∈ Finset.range n,
      ((BitVec.allOnes 768).getLsbD (i + j + k)).toNat = 1 := by
    intro i hi j hj k hk
    rw [BitVec.getLsbD_allOnes, decide_eq_true (by simp only [Finset.mem_range] at hi hj hk; omega)]; rfl
  simp only [tripleSum, sum_map_range, ite_eq_toNat]
  rw [Finset.sum_congr rfl fun i hi => Finset.sum_congr rfl fun j hj => Finset.sum_congr rfl (hbit i hi j hj)]
  simp [Nat.mul_assoc]

theorem tripleSum_zero (n : Nat) : tripleSum 0 n = 0 := by simp [tripleSum]
theorem doubleSum_zero (n : Nat) : doubleSum 0 n = 0 := by simp [doubleSum]

theorem doubleSum_ones {n : Nat} (h : n ≤ 32) : doubleSum (BitVec.allOnes 768) n = n * n := by
  have hbit : ∀ i ∈ Finset.range n, ∀ j ∈ Finset.range n, ((BitVec.allOnes 768).getLsbD (i + j)).toNat = 1 := by
    intro i hi j hj
    rw [BitVec.getLsbD_allOnes, decide_eq_true (by simp only [Finset.mem_range] at hi hj; omega)]; rfl
  simp only [doubleSum, sum_map_range, ite_eq_toNat]
  rw [Finset.sum_congr rfl fun i hi => Finset.sum_congr rfl (hbit i hi)]
  simp

/-- A whole number needs no rounding. -/
theorem roundEven_mul (q : Int) {d : Nat} (hd : 0 < d) : roundEven (d * q) d = q := by
  have hd' : (d : Int) ≠ 0 := by omega
  simp [roundEven, Int.mul_ediv_cancel_left q hd', hd]

theorem filterOut_full {d : Nat} (hd : 0 < d) : filterOut d d = 32767 := by
  have h : (2 * (d : Int) - d) * 32768 = d * 32768 := by ring
  rw [filterOut, h, roundEven_mul _ hd]; rfl

theorem filterOut_empty {d : Nat} (hd : 0 < d) : filterOut 0 d = -32768 := by
  have h : (2 * ((0 : Nat) : Int) - d) * 32768 = d * (-32768) := by push_cast; ring
  rw [filterOut, h, roundEven_mul _ hd]; rfl

/-- Settles O33: the model's weighted sums are the nested sums, and at full scale no rounding acts. -/
theorem sincFilters : Obligations.SincFilters := by
  intro bits
  have h3 : ∀ (b : BitVec 768) (n : Nat), sinc3 b n = filterOut (tripleSum b n) (n * n * n) := fun b n => by
    rw [sinc3, bitSum_sinc3]
  have h2 : ∀ (b : BitVec 768) (n : Nat), sinc2 b n = filterOut (doubleSum b n) (n * n) := fun b n => by
    rw [sinc2, bitSum_sinc2]
  refine ⟨fun n _ _ => h3 bits n, fun n _ _ => h2 bits n, fun n hn hle => ?_, fun n hn hle => ?_⟩
  · have hpos : 0 < n * n * n := by positivity
    rw [h3, h3, tripleSum_ones hle, tripleSum_zero]
    exact ⟨filterOut_full hpos, filterOut_empty hpos⟩
  · have hpos : 0 < n * n := by positivity
    rw [h2, h2, doubleSum_ones hle, doubleSum_zero]
    exact ⟨filterOut_full hpos, filterOut_empty hpos⟩

end Sys2Proof.Machine

/-! # What the front end writes (O34, O35)

Every command of the measurement front end writes registers of block SNS alone (`Keeps … [6]`); its enables take the registers
of one range in force (`fe_takeInForce`). -/

namespace Sys2Proof

open Machine

namespace Keeps

variable {s t u : State} {bs : List Nat}

protected theorem refl (s : State) (bs : List Nat) : Keeps s s bs := ⟨fun _ _ => rfl, rfl, rfl⟩

theorem trans (h : Keeps s t bs) (h' : Keeps t u bs) : Keeps s u bs := by
  obtain ⟨hr, hm, hp⟩ := h
  obtain ⟨hr', hm', hp'⟩ := h'
  exact ⟨fun a ha => (hr' a ha).trans (hr a ha), hm'.trans hm, hp'.trans hp⟩

/-- An update of other components. -/
theorem copy (h : Keeps s t bs) (hr : u.regs = t.regs) (hm : u.mem = t.mem) (hp : u.pending = t.pending) : Keeps s u bs :=
  h.trans ⟨fun a _ => by unfold State.reg; rw [hr], hm, hp⟩

/-- A field of a register of block SNS. -/
theorem setSns {a l w v : Nat} (h : Keeps s t [6]) (hlo : 0x60000 ≤ a := by omega) (hhi : a < 0x70000 := by omega) :
    Keeps s (t.setF ⟨a, l, w⟩ v) [6] :=
  h.trans ⟨fun b hb => reg_setF_ne t v (by rintro rfl; exact hb (List.mem_singleton.2 (by omega))), rfl, rfl⟩

theorem takeInForce (h : Keeps s t bs) {lo hi : Nat} : Keeps s (t.takeInForce lo hi) bs := h.copy rfl rfl rfl
theorem setSd (h : Keeps s t bs) {n : Nat} {x : SdSt} : Keeps s (t.setSd n x) bs := h.copy rfl rfl rfl
theorem sns (h : Keeps s t bs) {x : SnsSt} : Keeps s { t with sns := x } bs := h.copy rfl rfl rfl
theorem free (h : Keeps s t bs) {w : Nat} : Keeps s (t.free w).2 bs := h.copy rfl rfl rfl

theorem timeAt (h : Keeps s t bs) (x : Nat) : Keeps s (t.at x) bs := h.copy (at_regs t x) (at_mem t x) (by rw [at_eq])

end Keeps

end Sys2Proof

namespace Sys2Proof.Machine

/-! ## Fields of registers that are written out -/

section Fields

variable {s : State} {a b l w l' w' v : Nat}

theorem f_setF_itself (h : l + w ≤ 32) : (s.setF ⟨a, l, w⟩ v).f ⟨a, l, w⟩ = v % 2 ^ w := f_setF_read h

theorem f_setF_beside (h : l + w ≤ 32) (hd : l + w ≤ l' ∨ l' + w' ≤ l) :
    (s.setF ⟨a, l, w⟩ v).f ⟨a, l', w'⟩ = s.f ⟨a, l', w'⟩ := f_setF_other h (.inr hd)

theorem f_setF_elsewhere (h : b ≠ a) : (s.setF ⟨a, l, w⟩ v).f ⟨b, l', w'⟩ = s.f ⟨b, l', w'⟩ := f_setF_ne s v h

theorem bit_setF_elsewhere (h : b ≠ a) : (s.setF ⟨a, l, w⟩ v).bit ⟨b, l', w'⟩ = s.bit ⟨b, l', w'⟩ := by
  rw [bit_eq_f, f_setF_elsewhere h, bit_eq_f]

/-- A flag that is set under a condition, and stays set. -/
theorem bit_setF_if {p : Prop} [Decidable p] {x : Fld} (h : x.lsb + x.width ≤ 32) (hw : x.width = 1) :
    (if p then s.setF x 1 else s).bit x = (s.bit x || decide p) := by
  by_cases hp : p
  · simp [hp, bit_setF_set h hw]
  · simp [hp]

end Fields

/-! ## Values in force (R11) -/

theorem tblGet_append_of_not_mem {α : Type} (d : α) {t : Tbl α} {k : Nat} (u : Tbl α) (h : ∀ e ∈ t, e.1 ≠ k) :
    tblGet d (t ++ u) k = tblGet d u k := by
  induction t with
  | nil => rfl
  | cons e t ih =>
    have hne : k ≠ e.1 := (h e List.mem_cons_self).symm
    have hrest := ih fun e he => h e (List.mem_cons_of_mem _ he)
    simp [tblGet, hne, hrest]

theorem tblGet_append_of_not_mem_right {α : Type} (d : α) (t : Tbl α) {u : Tbl α} {k : Nat} (h : ∀ e ∈ u, e.1 ≠ k) :
    tblGet d (t ++ u) k = tblGet d t k := by
  induction t with
  | nil => simpa [tblGet] using tblGet_append_of_not_mem d [] h
  | cons e t ih => simp [tblGet, ih]

/-- Dropping other keys leaves an entry as it is. -/
theorem tblGet_filter {α : Type} (d : α) (t : Tbl α) {k : Nat} (p : Nat → Bool) (h : p k = true) :
    tblGet d (t.filter fun e => p e.1) k = tblGet d t k := by
  induction t with
  | nil => rfl
  | cons e t ih =>
    by_cases hk : k = e.1
    · subst hk; simp [h, tblGet]
    · by_cases hp : p e.1 = true <;> simp [hp, tblGet, hk, ih]

/-- An enable takes the registers of its range in force and leaves the others. -/
theorem inForce_takeInForce (s : State) (lo hi a : Nat) :
    tblGet (resetWord a) (s.takeInForce lo hi).inForce a =
      if lo ≤ a ∧ a < hi then s.reg a else tblGet (resetWord a) s.inForce a := by
  unfold State.takeInForce tblDelRange
  dsimp only
  split
  next h =>
    rw [tblGet_append_of_not_mem _ _ (by simp only [List.mem_filter]; rintro e ⟨-, he⟩ rfl; simp [h] at he)]
    exact tblGet_filter _ _ (fun k => decide (lo ≤ k) && decide (k < hi)) (by simp [h])
  next h =>
    rw [tblGet_append_of_not_mem_right _ _
      (by simp only [List.mem_filter]; rintro e ⟨-, he⟩ rfl; simp at he; exact h he)]
    exact tblGet_filter _ _ (fun k => !(decide (lo ≤ k) && decide (k < hi))) (by simp; omega)

theorem fe_takeInForce {s : State} {lo hi a l w : Nat} (hlo : lo ≤ a) (hhi : a < hi) :
    (s.takeInForce lo hi).fe ⟨a, l, w⟩ = s.f ⟨a, l, w⟩ := by
  unfold State.fe State.f
  rw [inForce_takeInForce, if_pos ⟨hlo, hhi⟩]

/-- The register that an enable takes alone. -/
theorem fe_takeInForce_own {s : State} {a l w : Nat} : (s.takeInForce a (a + 4)).fe ⟨a, l, w⟩ = s.f ⟨a, l, w⟩ :=
  fe_takeInForce (Nat.le_refl a) (Nat.lt_add_of_pos_right (by decide))

theorem fe_takeInForce_outside {s : State} {lo hi a l w : Nat} (h : a < lo ∨ hi ≤ a) :
    (s.takeInForce lo hi).fe ⟨a, l, w⟩ = s.fe ⟨a, l, w⟩ := by
  unfold State.fe
  rw [inForce_takeInForce, if_neg (by dsimp only; omega)]

theorem fe_lt (s : State) (x : Fld) : s.fe x < 2 ^ x.width := getBits_lt _ _ _
theorem f_takeInForce (s : State) (lo hi : Nat) (x : Fld) : (s.takeInForce lo hi).f x = s.f x := rfl

end Sys2Proof.Machine

/-! # Sigma-delta clocks, channels and fast paths (O35) -/

namespace Sys2Proof.Machine

/-! ## Enables (R102, R107, R110) -/

section Enables

variable {s : State}

theorem sdcEnable_refused {m : Nat} (hoff : s.bit (F.SNS_SDC_CLK_en m) = false)
    (hd : s.f (F.SNS_SDC_CLK_div m) < 10 ∨ 50 < s.f (F.SNS_SDC_CLK_div m)) :
    s.sdcEnable m = s.setF (F.SNS_SDC_CLK_error m) 1 := by
  simp [State.sdcEnable, State.sdcOn, hoff, hd]

theorem sdcEnable_accepted {m : Nat} (hoff : s.bit (F.SNS_SDC_CLK_en m) = false)
    (hd : 10 ≤ s.f (F.SNS_SDC_CLK_div m) ∧ s.f (F.SNS_SDC_CLK_div m) ≤ 50) :
    s.sdcEnable m = { (s.takeInForce (R.SNS_SDC_CLK m) (R.SNS_SDC_CLK m + 4)).setF (F.SNS_SDC_CLK_en m) 1 with
      sns := { s.sns with sdcAt := tblSet s.sns.sdcAt m (s.now / 4 * 4 + 4) } } := by
  unfold State.sdcEnable State.sdcOn
  rw [if_neg (by simp [hoff]), if_neg (by simp; omega)]
  rfl

theorem sdcEnable_spec {m : Nat} (hm : m < 4) (hoff : s.bit (F.SNS_SDC_CLK_en m) = false)
    (hd : 10 ≤ s.f (F.SNS_SDC_CLK_div m) ∧ s.f (F.SNS_SDC_CLK_div m) ≤ 50) :
    let t := s.sdcEnable m
    t.bit (F.SNS_SDC_CLK_en m) = true ∧ t.fe (F.SNS_SDC_CLK_div m) = s.f (F.SNS_SDC_CLK_div m) ∧
      tblGet 0 t.sns.sdcAt m = s.now / 4 * 4 + 4 ∧ Keeps s t [6] ∧ t.tm = s.tm := by
  intro t
  have ht : t = _ := sdcEnable_accepted hoff hd
  rw [ht]
  exact ⟨bit_setF_set (by simp) rfl, fe_takeInForce_own, tblGet_set_same _ _ _ _,
    (Keeps.refl s [6]).takeInForce.setSns.sns, rfl⟩

/-- The target of a channel as one number: role and drive, or role and arm. -/
theorem sdTarget_eq (role drive arm : Nat) :
    sdTarget role drive arm = if role = 0 then none else some (role * 0x100 + if role = 4 then arm else drive) := by
  unfold sdTarget
  split
  · rfl
  · split
    next h => rw [h]
    next => rfl

theorem sdHeld_eq_map (s : State) (k : Nat) :
    s.sdHeld k = (channelTarget s k).map fun p => p.1 * 0x100 + p.2 := by
  unfold State.sdHeld channelTarget State.sdOn
  rw [sdTarget_eq]
  cases s.bit (F.SNS_SD_CFG_en k)
  · rfl
  · rcases s.fe (F.SNS_SD_MAP_role k) with _ | _ | _ | _ | _ | r <;> rfl

theorem channelTarget_snd_lt {k : Nat} {p : Nat × Nat} (h : channelTarget s k = some p) : p.2 < 0x100 := by
  have hd := fe_lt s (F.SNS_SD_MAP_drive k)
  have ha := fe_lt s (F.SNS_SD_MAP_arm k)
  unfold channelTarget at h
  split at h
  · split at h
    · cases h
    · cases h; exact ha.trans (show 2 ^ 4 < 0x100 by decide)
    · cases h; exact hd.trans (show 2 ^ 3 < 0x100 by decide)
  · cases h

/-- Another enabled channel holds the target, in the model's numbers and as a pair. -/
theorem sdHeld_eq_iff {k role x : Nat} (hx : x < 0x100) :
    s.sdHeld k = some (role * 0x100 + x) ↔ channelTarget s k = some (role, x) := by
  rw [sdHeld_eq_map, Option.map_eq_some_iff]
  constructor
  · rintro ⟨⟨r, y⟩, hp, he⟩
    have hy : y < 0x100 := channelTarget_snd_lt hp
    dsimp only at he
    rw [hp, show r = role by omega, show y = x by omega]
  · exact fun h => ⟨_, h, rfl⟩

/-- What an enable of channel `n` asks for (R110): a legal ratio, role and arm, and a target that no enabled channel holds. -/
def SdLegal (s : State) (n : Nat) : Prop :=
  let role := s.f (F.SNS_SD_MAP_role n)
  let arm := s.f (F.SNS_SD_MAP_arm n)
  15 ≤ s.f (F.SNS_SD_CFG_osr_m1 n) ∧ role < 5 ∧ (role = 4 → arm ≤ 11) ∧
    (role ≠ 0 → ∀ k < 40, channelTarget s k ≠ some (role, if role = 4 then arm else s.f (F.SNS_SD_MAP_drive n)))

/-- The model's test of a target: it is one that an enabled channel holds. -/
theorem sdTaken_iff (s : State) (role : Nat) {arm drive : Nat} (ha : arm < 0x100) (hd : drive < 0x100) :
    ((sdTarget role drive arm).isSome && (List.range 40).any fun k => s.sdHeld k == sdTarget role drive arm) = true ↔
      ¬ (role ≠ 0 → ∀ k < 40, channelTarget s k ≠ some (role, if role = 4 then arm else drive)) := by
  have hx : (if role = 4 then arm else drive) < 0x100 := by split <;> assumption
  rw [sdTarget_eq]
  by_cases h0 : role = 0
  · simp [h0]
  · simp [h0, sdHeld_eq_iff hx]

theorem sdEnable_refused {n : Nat} (hoff : s.bit (F.SNS_SD_CFG_en n) = false) (h : ¬ SdLegal s n) :
    s.sdEnable n = s.setF (F.SNS_SD_STS_cfg_error n) 1 := by
  have ha : s.f (F.SNS_SD_MAP_arm n) < 0x100 := (f_lt s (F.SNS_SD_MAP_arm n)).trans (show 2 ^ 4 < 0x100 by decide)
  have hd : s.f (F.SNS_SD_MAP_drive n) < 0x100 := (f_lt s (F.SNS_SD_MAP_drive n)).trans (show 2 ^ 3 < 0x100 by decide)
  unfold State.sdEnable State.sdOn
  rw [if_neg (by simp [hoff]), if_pos]
  rw [Bool.or_eq_true, sdTaken_iff s _ ha hd]
  simp only [Bool.or_eq_true, decide_eq_true_eq, Bool.and_eq_true, beq_iff_eq]
  by_contra hn
  rw [not_or, not_or, not_or, not_not, not_and] at hn
  obtain ⟨⟨⟨hosr, hrole⟩, harm⟩, hfree⟩ := hn
  exact h ⟨not_lt.1 hosr, not_le.1 hrole, fun he => not_lt.1 (harm he), hfree⟩

theorem sdEnable_accepted {n : Nat} (hoff : s.bit (F.SNS_SD_CFG_en n) = false) (h : SdLegal s n) :
    s.sdEnable n = ((((((s.takeInForce (R.SNS_SD_CFG n) (R.SNS_SD_CFG n + 4)).takeInForce (R.SNS_SD_MAP n)
      (R.SNS_SD_MAP n + 4)).setF (F.SNS_SD_CFG_en n) 1).setF (F.SNS_SD_STS_settling n) 1).setF
        (F.SNS_SD_STS_valid n) 0).setSd n
          { bits := 0, count := 0, nextAt := s.now, enAt := s.now, outNext := s.now + 1 }) := by
  have ha : s.f (F.SNS_SD_MAP_arm n) < 0x100 := (f_lt s (F.SNS_SD_MAP_arm n)).trans (show 2 ^ 4 < 0x100 by decide)
  have hd : s.f (F.SNS_SD_MAP_drive n) < 0x100 := (f_lt s (F.SNS_SD_MAP_drive n)).trans (show 2 ^ 3 < 0x100 by decide)
  obtain ⟨hosr, hrole, harm, hfree⟩ := h
  unfold State.sdEnable State.sdOn
  rw [if_neg (by simp [hoff]), if_neg]
  · rfl
  · rw [Bool.or_eq_true, sdTaken_iff s _ ha hd]
    simp only [Bool.or_eq_true, decide_eq_true_eq, Bool.and_eq_true, beq_iff_eq]
    rw [not_or, not_or, not_or, not_not, not_and]
    exact ⟨⟨⟨not_lt.2 hosr, not_le.2 hrole⟩, fun he => not_lt.2 (harm he)⟩, hfree⟩

theorem sd_setSd_same (s : State) (n : Nat) (x : SdSt) : (s.setSd n x).sd n = x := tblGet_set_same _ _ _ _
theorem f_setSd (s : State) (n : Nat) (x : SdSt) (y : Fld) : (s.setSd n x).f y = s.f y := rfl

theorem sdEnable_spec {n : Nat} (hn : n < 40) (hoff : s.bit (F.SNS_SD_CFG_en n) = false) (h : SdLegal s n) :
    let t := s.sdEnable n
    t.bit (F.SNS_SD_CFG_en n) = true ∧ t.bit (F.SNS_SD_STS_settling n) = true ∧
      t.bit (F.SNS_SD_STS_valid n) = false ∧ (t.sd n).count = 0 ∧ (t.sd n).enAt = s.now ∧
      t.fe (F.SNS_SD_CFG_osr_m1 n) = s.f (F.SNS_SD_CFG_osr_m1 n) ∧
      t.fe (F.SNS_SD_MAP_role n) = s.f (F.SNS_SD_MAP_role n) ∧ Keeps s t [6] ∧ t.tm = s.tm := by
  intro t
  have ht : t = _ := sdEnable_accepted hoff h
  rw [ht, sd_setSd_same]
  refine ⟨?_, ?_, ?_, rfl, rfl, ?_, fe_takeInForce_own, ?_, rfl⟩
  · rw [bit_eq_f, f_setSd]
    simp (disch := omega) only [f_setF_elsewhere, f_setF_itself]; rfl
  · rw [bit_eq_f, f_setSd]
    simp (disch := omega) only [f_setF_beside, f_setF_itself]; rfl
  · rw [bit_eq_f, f_setSd]
    simp (disch := omega) only [f_setF_itself]; rfl
  · exact (fe_takeInForce_outside (.inl (show 0x60000 + 0x20 * n < 0x60010 + 0x20 * n by omega))).trans fe_takeInForce_own
  · exact (Keeps.refl s [6]).takeInForce.takeInForce.setSns.setSns.setSns.setSd

/-- A window below 8 bits or a latency above 1,000 ns refuses a fast path (R107). -/
theorem fastEnable_refused {n : Nat} (hoff : s.bit (F.SNS_SD_FAST_fast_en n) = false)
    (h : s.f (F.SNS_SD_FAST_fosr_m1 n) + 1 < 8 ∨ 1000 < s.sdLatency n) :
    s.fastEnable n = s.setF (F.SNS_SD_STS_fast_refused n) 1 := by
  have h7 : s.f (F.SNS_SD_FAST_fosr_m1 n) < 7 ∨ 1000 < s.sdLatency n := h.imp_left (by omega)
  simp [State.fastEnable, hoff, h7]

theorem fastEnable_accepted {n : Nat} (hn : n < 40) (hoff : s.bit (F.SNS_SD_FAST_fast_en n) = false)
    (h : 8 ≤ s.f (F.SNS_SD_FAST_fosr_m1 n) + 1) (hlat : s.sdLatency n ≤ 1000) :
    s.fastEnable n = ((s.takeInForce (R.SNS_SD_FAST n) (R.SNS_SD_FAST n + 4)).setF (F.SNS_SD_FAST_fast_en n) 1).setF
      (F.SNS_SD_STS_fast_lat n) ((s.sdLatency n + 15) / 16) := by
  let u := (s.takeInForce (R.SNS_SD_FAST n) (R.SNS_SD_FAST n + 4)).setF (F.SNS_SD_FAST_fast_en n) 1
  have hlatency : u.sdLatency n = s.sdLatency n := by
    have hf : ∀ x : Fld, x.addr ≠ 0x60004 + 0x20 * n → u.f x = s.f x := fun x hx => f_setF_ne _ 1 hx
    have hfe : ∀ a l w, a < 0x60004 + 0x20 * n ∨ 0x60004 + 0x20 * n + 4 ≤ a → u.fe ⟨a, l, w⟩ = s.fe ⟨a, l, w⟩ :=
      fun a l w hx => fe_takeInForce_outside hx
    have hclk : u.sdClk n = s.sdClk n := by
      unfold State.sdClk State.sdOn
      rw [bit_eq_f, bit_eq_f, hf _ (by simp), hf _ (by simp), hfe _ _ _ (.inl (by omega))]
    have hdiv : ∀ m, u.sdcDiv m = s.sdcDiv m := fun m => by
      unfold State.sdcDiv State.sdcOn
      rw [bit_eq_f, bit_eq_f, hf _ (by dsimp only; omega), hf _ (by dsimp only; omega), hfe _ _ _ (.inr (by omega))]
    unfold State.sdLatency
    rw [hclk, hdiv, f_setF_beside (by omega) (by omega), f_takeInForce]
  unfold State.fastEnable
  rw [if_neg (by simp [hoff]), if_neg (by simp; omega), ← hlatency]

theorem fastEnable_spec {n : Nat} (hn : n < 40) (hoff : s.bit (F.SNS_SD_FAST_fast_en n) = false)
    (h : 8 ≤ s.f (F.SNS_SD_FAST_fosr_m1 n) + 1) (hlat : s.sdLatency n ≤ 1000) :
    let t := s.fastEnable n
    t.bit (F.SNS_SD_FAST_fast_en n) = true ∧ t.f (F.SNS_SD_STS_fast_lat n) = (s.sdLatency n + 15) / 16 ∧
      t.fe (F.SNS_SD_FAST_fosr_m1 n) = s.f (F.SNS_SD_FAST_fosr_m1 n) ∧ Keeps s t [6] ∧ t.tm = s.tm := by
  intro t
  have ht : t = _ := fastEnable_accepted hn hoff h hlat
  rw [ht]
  refine ⟨?_, ?_, fe_takeInForce_own, (Keeps.refl s [6]).takeInForce.setSns.setSns, rfl⟩
  · rw [bit_eq_f]
    simp (disch := omega) only [f_setF_elsewhere, f_setF_itself]; rfl
  · rw [f_setF_itself (by omega)]
    exact Nat.mod_eq_of_lt (by omega)

theorem sdEnables_holds : sdEnables := by
  intro s hm
  refine ⟨fun m hoff => ?_, fun n hoff => ?_, fun n hoff => ?_⟩
  · have hx : Machine.exec (.sdcEnable m) s = .next (s.sdcEnable m) := onMain_run (fun s => s.sdcEnable m) hm
    exact ⟨fun hd => ⟨_, hx, sdcEnable_spec m.isLt hoff hd⟩, fun hd => by rw [hx, sdcEnable_refused hoff hd]⟩
  · have hx : Machine.exec (.sdEnable n) s = .next (s.sdEnable n) := onMain_run (fun s => s.sdEnable n) hm
    exact ⟨fun h => ⟨_, hx, sdEnable_spec n.isLt hoff h⟩, fun h => by rw [hx, sdEnable_refused hoff h]⟩
  · have hx : Machine.exec (.fastEnable n) s = .next (s.fastEnable n) := onMain_run (fun s => s.fastEnable n) hm
    refine ⟨fun h8 hlat => ?_, fun h => by rw [hx, fastEnable_refused hoff h]⟩
    obtain ⟨hen, hshown, hforce, hkeeps, htm⟩ := fastEnable_spec n.isLt hoff h8 hlat
    exact ⟨_, hx, hen, hshown, congrArg (· + 1) hforce, hkeeps, htm⟩

end Enables

/-! ## What one register's rewriting leaves -/

/-- `t` is `s` but for register `a`. -/
structure Rewrites (a : Nat) (s t : State) : Prop where
  rest : t = { s with regs := t.regs }
  regs : ∀ b, b ≠ a → t.reg b = s.reg b

/-- The state with flag `x` set where `p` holds. -/
def State.mark (s : State) (x : Fld) (p : Prop) [Decidable p] : State := if p then s.setF x 1 else s

namespace Rewrites

variable {a : Nat} {s t u : State}

protected theorem refl (a : Nat) (s : State) : Rewrites a s s := ⟨rfl, fun _ _ => rfl⟩

theorem setF {l w v : Nat} (h : Rewrites a s t) : Rewrites a s (t.setF ⟨a, l, w⟩ v) := by
  obtain ⟨hrest, hregs⟩ := h
  refine ⟨?_, fun b hb => (reg_setF_ne t v hb).trans (hregs b hb)⟩
  rw [hrest]; rfl

theorem mark {l w : Nat} {p : Prop} [Decidable p] (h : Rewrites a s t) : Rewrites a s (t.mark ⟨a, l, w⟩ p) := by
  unfold State.mark
  split
  · exact h.setF
  · exact h

theorem f (h : Rewrites a s t) {x : Fld} (hx : x.addr ≠ a) : t.f x = s.f x := f_congr (h.regs _ hx)
theorem bit (h : Rewrites a s t) {x : Fld} (hx : x.addr ≠ a) : t.bit x = s.bit x := bit_congr (h.regs _ hx)
theorem fe (h : Rewrites a s t) (x : Fld) : t.fe x = s.fe x := by rw [h.rest]; rfl
theorem sd (h : Rewrites a s t) (n : Nat) : t.sd n = s.sd n := by rw [h.rest]; rfl
theorem sns (h : Rewrites a s t) : t.sns = s.sns := by rw [h.rest]
theorem tm (h : Rewrites a s t) : t.tm = s.tm := by rw [h.rest]
theorem held (h : Rewrites a s t) : t.held = s.held := by rw [h.rest]
theorem inForce (h : Rewrites a s t) : t.inForce = s.inForce := by rw [h.rest]
theorem mem (h : Rewrites a s t) : t.mem = s.mem := by rw [h.rest]
theorem pending (h : Rewrites a s t) : t.pending = s.pending := by rw [h.rest]

theorem keeps (h : Rewrites a s t) (hlo : 0x60000 ≤ a) (hhi : a < 0x70000) : Keeps s t [6] := by
  refine ⟨fun b hb => h.regs b ?_, h.mem, h.pending⟩
  rintro rfl
  exact hb (List.mem_singleton.2 (by omega))

end Rewrites

section Marks

variable {s : State} {a b l w l' w' : Nat} {p : Prop} [Decidable p]

theorem f_mark_beside (h : l + w ≤ 32) (hd : l + w ≤ l' ∨ l' + w' ≤ l) :
    (s.mark ⟨a, l, w⟩ p).f ⟨a, l', w'⟩ = s.f ⟨a, l', w'⟩ := by
  unfold State.mark
  split
  · exact f_setF_beside h hd
  · rfl

theorem bit_setF_beside {v : Nat} (h : l + w ≤ 32) (hd : l + w ≤ l' ∨ l' + w' ≤ l) :
    (s.setF ⟨a, l, w⟩ v).bit ⟨a, l', w'⟩ = s.bit ⟨a, l', w'⟩ := by rw [bit_eq_f, f_setF_beside h hd, bit_eq_f]

theorem bit_setB_beside {v : Bool} (h : l + w ≤ 32) (hd : l + w ≤ l' ∨ l' + w' ≤ l) :
    (s.setB ⟨a, l, w⟩ v).bit ⟨a, l', w'⟩ = s.bit ⟨a, l', w'⟩ := bit_setF_beside h hd

theorem bit_mark_beside (h : l + w ≤ 32) (hd : l + w ≤ l' ∨ l' + w' ≤ l) :
    (s.mark ⟨a, l, w⟩ p).bit ⟨a, l', w'⟩ = s.bit ⟨a, l', w'⟩ := by rw [bit_eq_f, f_mark_beside h hd, bit_eq_f]

theorem bit_mark (h : l + 1 ≤ 32) : (s.mark ⟨a, l, 1⟩ p).bit ⟨a, l, 1⟩ = (s.bit ⟨a, l, 1⟩ || decide p) :=
  bit_setF_if h rfl

theorem f_setB_beside {v : Bool} (h : l + w ≤ 32) (hd : l + w ≤ l' ∨ l' + w' ≤ l) :
    (s.setB ⟨a, l, w⟩ v).f ⟨a, l', w'⟩ = s.f ⟨a, l', w'⟩ := f_setF_beside h hd

theorem bit_setB_itself {v : Bool} (h : l + 1 ≤ 32) : (s.setB ⟨a, l, 1⟩ v).bit ⟨a, l, 1⟩ = v := bit_setB_same s _ v h rfl

end Marks

/-- The clock of an enabled channel as the statements write it. -/
theorem sdClk_of_on {s : State} {n : Nat} (hon : s.bit (F.SNS_SD_CFG_en n) = true) :
    s.sdClk n = s.fe (F.SNS_SD_CFG_clk_sel n) := by
  simp [State.sdClk, State.sdOn, hon]

/-! ## A control output (R104–R106) -/

section Output

variable {s : State} {n : Nat} (hn : n < 40) (hon : s.bit (F.SNS_SD_CFG_en n) = true)
  (hfull : 3 * s.sdN n ≤ (s.sd n).count)

/-- The marks of a control output `raw` ahead of its validity. -/
def State.sdShown (s : State) (n : Nat) (raw : Int) : State :=
  (((s.setF (F.SNS_SD_STS_raw n) (unsigned 16 raw)).setB (F.SNS_SD_STS_settling n) ((s.sd n).count < 3 * s.sdN n)).mark
    (F.SNS_SD_STS_stuck n) (sdStuck (s.sd n) = true)).mark (F.SNS_SD_STS_range n) (0x7800 < raw.natAbs)

theorem rewrites_sdShown (s : State) (n : Nat) (raw : Int) : Rewrites (0x60014 + 0x20 * n) s (s.sdShown n raw) :=
  (Rewrites.refl _ s).setF.setF.mark.mark

include hn hon hfull

theorem sdOutput_eq : s.sdOutput n = (s.sdShown n (sinc3 (s.sd n).bits (s.sdN n))).setB (F.SNS_SD_STS_valid n)
    (s.sdcOn (s.fe (F.SNS_SD_CFG_clk_sel n)) && !sdStuck (s.sd n) &&
      decide ((sinc3 (s.sd n).bits (s.sdN n)).natAbs ≤ 0x7800)) := by
  let raw := sinc3 (s.sd n).bits (s.sdN n)
  let u := s.sdShown n raw
  have hu : Rewrites (0x60014 + 0x20 * n) s u := rewrites_sdShown s n raw
  have hclk : u.sdcOn (u.sdClk n) = s.sdcOn (s.fe (F.SNS_SD_CFG_clk_sel n)) := by
    rw [sdClk_of_on ((hu.bit (by simp)).trans hon), hu.fe]
    exact hu.bit (by dsimp only; omega)
  have hvalid : (u.sdcOn (u.sdClk n) && !decide ((s.sd n).count < 3 * s.sdN n) && !sdStuck (s.sd n) &&
      !decide (0x7800 < raw.natAbs)) = (s.sdcOn (s.fe (F.SNS_SD_CFG_clk_sel n)) && !sdStuck (s.sd n) &&
        decide (raw.natAbs ≤ 0x7800)) := by
    have hle : (!decide (0x7800 < raw.natAbs)) = decide (raw.natAbs ≤ 0x7800) := by
      rw [← decide_not, decide_eq_decide, not_lt]
    rw [hclk, hle, decide_eq_false (show ¬ (s.sd n).count < 3 * s.sdN n by omega), Bool.not_false, Bool.and_true]
  rw [← hvalid]
  unfold State.sdOutput
  rw [if_neg (by simp [State.sdOn, hon])]
  dsimp only
  rw [if_pos (show 3 * s.sdN n - 2 ≤ (s.sd n).count by omega)]
  rfl

/-- What a control output shows. -/
theorem sdOutput_spec :
    let t := s.sdOutput n
    let raw := sinc3 (s.sd n).bits (s.sdN n)
    Rewrites (0x60014 + 0x20 * n) s t ∧ t.f (F.SNS_SD_STS_raw n) = unsigned 16 raw ∧
      t.bit (F.SNS_SD_STS_settling n) = false ∧
      t.bit (F.SNS_SD_STS_valid n) = (s.sdcOn (s.fe (F.SNS_SD_CFG_clk_sel n)) && !sdStuck (s.sd n) &&
        decide (raw.natAbs ≤ 0x7800)) ∧
      t.bit (F.SNS_SD_STS_stuck n) = (s.bit (F.SNS_SD_STS_stuck n) || decide (sdStuck (s.sd n) = true)) ∧
      t.bit (F.SNS_SD_STS_range n) = (s.bit (F.SNS_SD_STS_range n) || decide (0x7800 < raw.natAbs)) := by
  intro t raw
  have ht : t = _ := sdOutput_eq hn hon hfull
  rw [ht]
  unfold State.sdShown
  refine ⟨(Rewrites.refl _ s).setF.setF.mark.mark.setF, ?_, ?_, bit_setB_itself (by omega), ?_, ?_⟩
  · simp (disch := omega) only [f_setB_beside, f_mark_beside, f_setF_itself]
    exact Nat.mod_eq_of_lt (by unfold unsigned; omega)
  · simp (disch := omega) only [bit_setB_beside, bit_mark_beside, bit_setB_itself]
    exact decide_eq_false (by omega)
  · simp (disch := omega) only [bit_setB_beside, bit_mark_beside, bit_mark, bit_setF_beside]
  · simp (disch := omega) only [bit_setB_beside, bit_mark_beside, bit_mark, bit_setF_beside]
    rfl

end Output

/-- A stuck channel as the statements write it (R105). -/
theorem sdStuck_iff (x : SdSt) : sdStuck x = true ↔
    64 ≤ x.count ∧ (x.bits.extractLsb' 0 64 = 0 ∨ x.bits.extractLsb' 0 64 = BitVec.allOnes 64) := by
  simp [sdStuck]

/-- A number of 16 bits is read back from its code. -/
theorem signed_unsigned {i : Int} (hlo : -32768 ≤ i) (hhi : i ≤ 32767) : signed 16 (unsigned 16 i) = i := by
  unfold signed unsigned
  split <;> omega

theorem filterOut_range (sum total : Nat) : -32768 ≤ filterOut sum total ∧ filterOut sum total ≤ 32767 := by
  unfold filterOut clampInt
  omega

/-- The next instant of a grid: on the grid, not before `t`, and less than a step after it where the origin lies before. -/
theorem gridNext_spec (o t : Nat) : let g := gridNext o 10000 t
    (g : Int) % 10000 = (o : Int) % 10000 ∧ t ≤ g ∧ (o < t → g < t + 10000) := by
  unfold gridNext
  dsimp only
  omega

/-- While the counter is not held, time goes on to an instant that is not before now. -/
theorem now_at_of_le {s : State} (h : s.tm.holdLag = none) {x : Nat} (hx : s.now ≤ x) : (s.at x).now = x := by
  rw [at_of_running h]
  exact Nat.max_eq_right hx

theorem at_sns (s : State) (x : Nat) : (s.at x).sns = s.sns := by rw [at_eq]
theorem at_fe (s : State) (x : Nat) (y : Fld) : (s.at x).fe y = s.fe y := by rw [at_eq]; rfl
theorem at_sd (s : State) (x n : Nat) : (s.at x).sd n = s.sd n := by rw [at_eq]; rfl
theorem at_held (s : State) (x : Nat) : (s.at x).held = s.held := by rw [at_eq]

section Idle

variable {s : State} {n : Nat} (hon : s.bit (F.SNS_SD_CFG_en n) = true) (hrun : s.running = false)
include hon hrun

theorem sdIdle_eq : s.sdIdle n =
    (let x := gridNext (s.sd n).enAt 10000 (max s.now (s.sd n).outNext)
    let u := (s.at x).sdOutput n
    u.setSd n { u.sd n with outNext := x + 1 }) := by
  unfold State.sdIdle State.sdOn
  rw [if_neg (by simp [hrun, hon])]

/-- What an output on the grid of its channel leaves. -/
theorem sdIdle_spec (hn : n < 40) (hfull : 3 * s.sdN n ≤ (s.sd n).count) :
    let t := s.sdIdle n
    let x := s.sd n
    let raw := sinc3 x.bits (s.sdN n)
    t.fi (F.SNS_SD_STS_raw n) = raw ∧ t.bit (F.SNS_SD_STS_settling n) = false ∧
      t.bit (F.SNS_SD_STS_valid n) = (s.sdcOn (s.fe (F.SNS_SD_CFG_clk_sel n)) && !sdStuck x &&
        decide (raw.natAbs ≤ 0x7800)) ∧
      t.bit (F.SNS_SD_STS_stuck n) = (s.bit (F.SNS_SD_STS_stuck n) || decide (sdStuck x = true)) ∧
      t.bit (F.SNS_SD_STS_range n) = (s.bit (F.SNS_SD_STS_range n) || decide (0x7800 < raw.natAbs)) ∧
      (s.tm.holdLag = none → (t.now : Int) % 10000 = (t.sd n).enAt % 10000 ∧ max s.now x.outNext ≤ t.now ∧
        (x.enAt < max s.now x.outNext → t.now < max s.now x.outNext + 10000) ∧ (t.sd n).outNext = t.now + 1) ∧
      Keeps s t [6] ∧ t.sns.ainNow = s.sns.ainNow ∧ t.held = s.held := by
  intro t x raw
  let g := gridNext x.enAt 10000 (max s.now x.outNext)
  let u := (s.at g).sdOutput n
  have ht : t = u.setSd n { u.sd n with outNext := g + 1 } := sdIdle_eq hon hrun
  have hN : (s.at g).sdN n = s.sdN n := congrArg (· + 1) (at_fe s g _)
  have hbits : (s.at g).sd n = x := at_sd s g n
  obtain ⟨hu, hraw, hset, hvalid, hstuck, hrange⟩ := sdOutput_spec (s := s.at g) hn ((at_bit s g _).trans hon)
    (by rw [hN, hbits]; exact hfull)
  rw [hN, hbits] at hraw hvalid hrange
  rw [hbits] at hstuck
  simp only [at_bit] at hstuck hrange
  have hclock : (s.at g).sdcOn ((s.at g).fe (F.SNS_SD_CFG_clk_sel n)) = s.sdcOn (s.fe (F.SNS_SD_CFG_clk_sel n)) := by
    rw [at_fe]; exact at_bit s g _
  rw [hclock] at hvalid
  have hx : u.sd n = x := (hu.sd n).trans hbits
  have hxt : t.sd n = { x with outNext := g + 1 } := by rw [ht, hx]; exact sd_setSd_same _ _ _
  obtain ⟨hlo, hhi⟩ : -32768 ≤ raw ∧ raw ≤ 32767 := filterOut_range _ _
  refine ⟨?_, ?_, ?_, ?_, ?_, fun hl => ?_, ?_, ?_, ?_⟩
  · exact (congrArg (signed 16) ((congrArg (fun t => State.f t _) ht).trans hraw)).trans (signed_unsigned hlo hhi)
  · rw [ht]; exact hset
  · rw [ht]; exact hvalid
  · rw [ht]; exact hstuck
  · rw [ht]; exact hrange
  · obtain ⟨hgrid, hle, hnear⟩ := gridNext_spec x.enAt (max s.now x.outNext)
    have hnow : t.now = g := by
      rw [ht]
      exact (congrArg TimeSt.now hu.tm).trans (now_at_of_le hl ((Nat.le_max_left _ _).trans hle))
    rw [hxt, hnow]
    exact ⟨hgrid, hle, hnear, rfl⟩
  · rw [ht]; exact ((Keeps.refl s [6]).timeAt g).trans (hu.keeps (by omega) (by omega)) |>.setSd
  · rw [ht]
    exact (congrArg SnsSt.ainNow hu.sns).trans (congrArg SnsSt.ainNow (at_sns s g))
  · rw [ht]; exact hu.held.trans (at_held s g)

end Idle

/-! ## A latched bit (R103, R105, R107, R108) -/

/-- What the comparators make of one fast output of channel `n`. -/
theorem sdCompare_spec (s : State) {n : Nat} (hn : n < 40) (out : Int) :
    let t := s.sdCompare n out
    let hi := s.fi (F.SNS_SD_THR_hi n) < out
    let lo := out < s.fi (F.SNS_SD_THR_lo n)
    t.bit (F.SNS_SD_STS_fast_act n) = decide (hi ∨ lo) ∧
      t.bit (F.SNS_SD_STS_fast_hi n) = (s.bit (F.SNS_SD_STS_fast_hi n) || decide hi) ∧
      t.bit (F.SNS_SD_STS_fast_lo n) = (s.bit (F.SNS_SD_STS_fast_lo n) || decide lo) ∧
      t.bit (F.SNS_SD_STS_settling n) = s.bit (F.SNS_SD_STS_settling n) ∧
      (t.sd n).bits = (s.sd n).bits ∧ (t.sd n).count = (s.sd n).count ∧ Keeps s t [6] ∧ t.tm = s.tm := by
  intro t hi lo
  let u := ((s.mark (F.SNS_SD_STS_fast_hi n) hi).mark (F.SNS_SD_STS_fast_lo n) lo).setB (F.SNS_SD_STS_fast_act n)
    (decide hi || decide lo)
  have hu : Rewrites (0x60014 + 0x20 * n) s u := (Rewrites.refl _ s).mark.mark.setF
  have ht : t = u.setSd n { u.sd n with hi := decide hi, lo := decide lo } := rfl
  have hbit : ∀ x, t.bit x = u.bit x := fun x => by rw [ht]; rfl
  have hsd : t.sd n = { s.sd n with hi := decide hi, lo := decide lo } := by
    rw [ht, hu.sd]; exact sd_setSd_same _ _ _
  simp only [hbit, hsd]
  refine ⟨?_, ?_, ?_, ?_, trivial, trivial, ?_, hu.tm⟩
  · rw [bit_setB_itself (by omega), Bool.decide_or]
  · simp (disch := omega) only [u, bit_setB_beside, bit_mark_beside, bit_mark]
  · simp (disch := omega) only [u, bit_setB_beside, bit_mark_beside, bit_mark]
  · simp (disch := omega) only [u, bit_setB_beside, bit_mark_beside]
  · rw [ht]; exact (hu.keeps (by omega) (by omega)).setSd

/-- Channel `n` with `b` latched at its next edge, ahead of the comparators. -/
def State.sdShift (s : State) (n : Nat) (b : Bool) : State :=
  let t := s.sdEdgeAt n (max s.now (s.sd n).nextAt)
  let x := { s.sd n with
    bits := ((s.sd n).bits <<< 1) ||| (if b then 1 else 0), count := min 768 ((s.sd n).count + 1), nextAt := t + 1 }
  let u := (s.at t).setSd n x
  (u.setB (F.SNS_SD_STS_settling n) (x.count < 3 * u.sdN n)).mark (F.SNS_SD_STS_stuck n) (sdStuck x = true)

theorem sdShift_spec (s : State) {n : Nat} (hn : n < 40) (b : Bool) :
    let t := s.sdShift n b
    let count := min 768 ((s.sd n).count + 1)
    (t.sd n).bits = (((s.sd n).bits <<< 1) ||| (if b then 1 else 0)) ∧ (t.sd n).count = count ∧ s.now ≤ t.now ∧
      Keeps s t [6] ∧ t.bit (F.SNS_SD_STS_settling n) = decide (count < 3 * s.sdN n) ∧ (∀ x, t.fe x = s.fe x) ∧
      (∀ x : Fld, x.addr ≠ 0x60014 + 0x20 * n → t.f x = s.f x) ∧
      t.bit (F.SNS_SD_STS_fast_act n) = s.bit (F.SNS_SD_STS_fast_act n) ∧
      t.bit (F.SNS_SD_STS_fast_hi n) = s.bit (F.SNS_SD_STS_fast_hi n) ∧
      t.bit (F.SNS_SD_STS_fast_lo n) = s.bit (F.SNS_SD_STS_fast_lo n) := by
  intro t count
  let e := s.sdEdgeAt n (max s.now (s.sd n).nextAt)
  let x : SdSt := { s.sd n with bits := ((s.sd n).bits <<< 1) ||| (if b then 1 else 0), count := count, nextAt := e + 1 }
  let u := (s.at e).setSd n x
  have hN : u.sdN n = s.sdN n := congrArg (· + 1) (at_fe s e _)
  have hu : Rewrites (0x60014 + 0x20 * n) u t := (Rewrites.refl _ u).setF.mark
  have hsd : t.sd n = x := (hu.sd n).trans (sd_setSd_same _ _ _)
  have ht : t = (u.setB (F.SNS_SD_STS_settling n) (count < 3 * u.sdN n)).mark (F.SNS_SD_STS_stuck n)
    (sdStuck x = true) := rfl
  rw [hsd]
  refine ⟨rfl, rfl, ?_, ?_, ?_, fun y => (hu.fe y).trans (at_fe s e y), fun y hy => (hu.f hy).trans (at_f s e y), ?_, ?_, ?_⟩
  · exact (now_le_at s e).trans (congrArg TimeSt.now hu.tm).ge
  · exact ((Keeps.refl s [6]).timeAt e).setSd.trans (hu.keeps (by omega) (by omega))
  · rw [ht, hN]
    simp (disch := omega) only [bit_mark_beside, bit_setB_itself]
  all_goals
    rw [ht]
    simp (disch := omega) only [bit_mark_beside, bit_setB_beside]
    exact at_bit s e _

section Latch

variable {s : State} {n : Nat} (hon : s.bit (F.SNS_SD_CFG_en n) = true)
  (hclk : s.sdcOn (s.fe (F.SNS_SD_CFG_clk_sel n)) = true)

include hon in
theorem sdLatch_stopped (hclk : s.sdcOn (s.fe (F.SNS_SD_CFG_clk_sel n)) = false) (b : Bool) : s.sdLatch n b = s := by
  unfold State.sdLatch
  rw [if_pos (by simp [sdClk_of_on hon, hclk])]

include hon hclk in
theorem sdLatch_eq (b : Bool) : s.sdLatch n b =
    (let u := s.sdShift n b
    let nf := u.fe (F.SNS_SD_FAST_fosr_m1 n) + 1
    if !u.bit (F.SNS_SD_FAST_fast_en n) then u
    else if 2 * nf - 1 ≤ min 768 ((s.sd n).count + 1) then
      u.sdCompare n (sinc2 (((s.sd n).bits <<< 1) ||| (if b then 1 else 0)) nf)
    else (u.free 16).2.sdCompare n (u.free 16).1.toInt) := by
  unfold State.sdLatch
  rw [if_neg (by simp [State.sdOn, hon, sdClk_of_on hon, hclk])]
  rfl

include hon hclk in
/-- What a latched bit leaves: the channel's history, and the comparators' flags where the fast path has its window full. -/
theorem sdLatch_spec (hn : n < 40) (b : Bool) :
    let t := s.sdLatch n b
    let nf := s.fe (F.SNS_SD_FAST_fosr_m1 n) + 1
    let bits := ((s.sd n).bits <<< 1) ||| (if b then 1 else 0)
    let count := min 768 ((s.sd n).count + 1)
    (t.sd n).bits = bits ∧ (t.sd n).count = count ∧ s.now ≤ t.now ∧ Keeps s t [6] ∧
      t.bit (F.SNS_SD_STS_settling n) = decide (count < 3 * s.sdN n) ∧
      (s.bit (F.SNS_SD_FAST_fast_en n) = false → t.bit (F.SNS_SD_STS_fast_act n) = s.bit (F.SNS_SD_STS_fast_act n)) ∧
      (s.bit (F.SNS_SD_FAST_fast_en n) = true → 2 * nf - 1 ≤ count →
        t.bit (F.SNS_SD_STS_fast_act n) =
          decide (s.fi (F.SNS_SD_THR_hi n) < sinc2 bits nf ∨ sinc2 bits nf < s.fi (F.SNS_SD_THR_lo n)) ∧
        t.bit (F.SNS_SD_STS_fast_hi n) =
          (s.bit (F.SNS_SD_STS_fast_hi n) || decide (s.fi (F.SNS_SD_THR_hi n) < sinc2 bits nf)) ∧
        t.bit (F.SNS_SD_STS_fast_lo n) =
          (s.bit (F.SNS_SD_STS_fast_lo n) || decide (sinc2 bits nf < s.fi (F.SNS_SD_THR_lo n)))) := by
  intro t nf bits count
  obtain ⟨hbits, hcount, hnow, hkeeps, hset, hfe, hf, hact, hhi, hlo⟩ := sdShift_spec s hn b
  have ht : t = _ := sdLatch_eq hon hclk b
  have hen : (s.sdShift n b).bit (F.SNS_SD_FAST_fast_en n) = s.bit (F.SNS_SD_FAST_fast_en n) := by
    rw [bit_eq_f, hf _ (by simp), bit_eq_f]
  have hthr : ∀ x : Fld, x.addr = 0x60008 + 0x20 * n → (s.sdShift n b).fi x = s.fi x := fun x hx => by
    unfold State.fi; rw [hf x (by rw [hx]; simp)]
  dsimp only at ht
  rw [hen, hfe] at ht
  cases hfast : s.bit (F.SNS_SD_FAST_fast_en n) with
  | false =>
    rw [hfast, Bool.not_false, if_pos rfl] at ht
    rw [ht]
    exact ⟨hbits, hcount, hnow, hkeeps, hset, fun _ => hact, nofun⟩
  | true =>
    rw [hfast, Bool.not_true, if_neg Bool.false_ne_true] at ht
    split at ht
    next hwindow =>
      obtain ⟨cact, chi, clo, cset, cbits, ccount, ckeeps, ctm⟩ := sdCompare_spec (s.sdShift n b) hn (sinc2 bits nf)
      rw [hthr _ rfl, hthr _ rfl] at cact
      rw [hthr _ rfl] at chi clo
      rw [ht]
      exact ⟨cbits.trans hbits, ccount.trans hcount, hnow.trans (congrArg TimeSt.now ctm).ge, hkeeps.trans ckeeps,
        cset.trans hset, nofun, fun _ _ => ⟨cact, chi.trans (by rw [hhi]), clo.trans (by rw [hlo])⟩⟩
    next hwindow =>
      let u := ((s.sdShift n b).free 16).2
      obtain ⟨-, -, -, cset, cbits, ccount, ckeeps, ctm⟩ := sdCompare_spec u hn ((s.sdShift n b).free 16).1.toInt
      rw [ht]
      exact ⟨cbits.trans hbits, ccount.trans hcount, hnow.trans (congrArg TimeSt.now ctm).ge, hkeeps.free.trans ckeeps,
        cset.trans hset, nofun, fun _ h => absurd h hwindow⟩

end Latch

theorem sdOutputs_holds : sdOutputs := by
  intro s n hm hon x len nf clocked
  have hl : ∀ b, Machine.exec (.sdLatchingEdge n b) s = .next (s.sdLatch n b) := fun b =>
    onMain_run (fun s => s.sdLatch n b) hm
  have hi : Machine.exec (.sdIdleOutput n) s = .next (s.sdIdle n) := onMain_run (fun s => s.sdIdle n) hm
  refine ⟨fun hclk b => by rw [hl, sdLatch_stopped hon hclk], fun hclk b => ⟨_, hl b, sdLatch_spec hon hclk n.isLt b⟩,
    fun hrun => by rw [hi]; simp [State.sdIdle, hrun], fun hrun hfull => ?_⟩
  obtain ⟨hraw, hset, hvalid, hstuck, hrange, hrest⟩ := sdIdle_spec hon hrun n.isLt hfull
  refine ⟨_, hi, hraw, hset, hvalid.trans ?_, hstuck.trans ?_, hrange, hrest⟩
  · rw [Bool.eq_iff_iff, decide_eq_true_iff, Bool.and_eq_true, Bool.and_eq_true, Bool.not_eq_true', ← Bool.not_eq_true,
      sdStuck_iff, decide_eq_true_iff, and_assoc]
    rfl
  · rw [decide_eq_decide.2 (sdStuck_iff x)]

/-- Settles O35: each enable is its refusal or its acceptance, and what a bit or an output writes is read back field by
field. -/
theorem sigmaDeltaChannels : Obligations.SigmaDeltaChannels := ⟨sdEnables_holds, sdOutputs_holds⟩

end Sys2Proof.Machine

/-! # The SAR sequence (O34)

A conversion writes the result register of its own input (`Converts`), and a sequence names no input twice; so what a slot writes
stands until the sequence is over. -/

namespace Sys2Proof.Machine

/-! ## The checks of an enable (R116) -/

section Checks

variable (s : State)

/-- The inputs that the sequence as written names. -/
def State.sarWritten (s : State) : List Nat := sarInputs s.sarEntry (s.f F.SNS_SAR_CTL_len_m1 + 1)

/-- An input has a reserved role, or two have one role of one drive. -/
def State.SarBadRole (s : State) : Prop :=
  let role := fun i => s.f (F.SNS_AIN_CFG_role i)
  (∃ i ∈ s.sarWritten, 6 ≤ role i) ∨
    ∃ i ∈ s.sarWritten, ∃ j ∈ s.sarWritten, i ≠ j ∧ 1 ≤ role i ∧ role i ≤ 4 ∧ role i = role j ∧
      s.f (F.SNS_AIN_CFG_drive i) = s.f (F.SNS_AIN_CFG_drive j)

/-- No slot converts the pair of an enabled sin/cos port. -/
def State.SarBadPair (s : State) : Prop :=
  ∃ p < 8, s.bit (F.FBK_CTL_en p) = true ∧ s.fe (F.FBK_CFG_mode p) = 2 ∧
    ∀ k ∈ List.range (s.f F.SNS_SAR_CTL_len_m1 + 1), ¬ (s.sarEntry 0 k = some (2 * p) ∧ s.sarEntry 1 k = some (2 * p + 1))

/-- Role and drive of an input as one number, as the model compares them. -/
def State.ainKey (s : State) (i : Nat) : Nat := s.f (F.SNS_AIN_CFG_role i) * 8 + s.f (F.SNS_AIN_CFG_drive i)

theorem ainKey_eq_iff (i j : Nat) : s.ainKey i = s.ainKey j ↔
    s.f (F.SNS_AIN_CFG_role i) = s.f (F.SNS_AIN_CFG_role j) ∧
      s.f (F.SNS_AIN_CFG_drive i) = s.f (F.SNS_AIN_CFG_drive j) := by
  have hi : s.f (F.SNS_AIN_CFG_drive i) < 2 ^ 3 := f_lt s _
  have hj : s.f (F.SNS_AIN_CFG_drive j) < 2 ^ 3 := f_lt s _
  unfold State.ainKey
  omega

/-- The model's test of the roles, once no input is named twice. -/
theorem sarBadRole_iff (hnodup : s.sarWritten.Nodup) :
    (s.sarWritten.any (fun i => 6 ≤ s.f (F.SNS_AIN_CFG_role i)) ||
      !(decide ((s.sarWritten.filter fun i => 1 ≤ s.f (F.SNS_AIN_CFG_role i) && s.f (F.SNS_AIN_CFG_role i) ≤ 4).map
        s.ainKey).Nodup)) = true ↔ s.SarBadRole := by
  rw [Bool.or_eq_true, Bool.not_eq_true', decide_eq_false_iff_not, List.any_eq_true,
    List.nodup_map_iff_inj_on (hnodup.filter _)]
  refine or_congr (by simp) ?_
  simp only [List.mem_filter, Bool.and_eq_true, decide_eq_true_eq, ainKey_eq_iff]
  constructor
  · intro h
    by_contra hn
    refine h fun i hi j hj he => ?_
    by_contra hne
    exact hn ⟨i, hi.1, j, hj.1, hne, hi.2.1, hi.2.2, he⟩
  · rintro ⟨i, hi, j, hj, hne, h1, h4, hr, hd⟩ h
    exact hne (h i ⟨hi, h1, h4⟩ j ⟨hj, hr ▸ h1, hr ▸ h4⟩ ⟨hr, hd⟩)

/-- The model's test of the pairs. -/
theorem sarBadPair_iff :
    (!((List.range 8).all fun p => !(s.bit (F.FBK_CTL_en p) && s.fe (F.FBK_CFG_mode p) == 2) ||
      (List.range (s.f F.SNS_SAR_CTL_len_m1 + 1)).any fun k =>
        s.sarEntry 0 k == some (2 * p) && s.sarEntry 1 k == some (2 * p + 1))) = true ↔ s.SarBadPair := by
  unfold State.SarBadPair
  rw [Bool.not_eq_true', List.all_eq_false]
  refine exists_congr fun p => ?_
  simp [and_assoc]

/-- The number of the first check that fails. -/
theorem sarCheck_cases :
    (¬ s.sarWritten.Nodup → s.sarCheck = 1) ∧ (s.sarWritten.Nodup → s.SarBadRole → s.sarCheck = 2) ∧
      (s.sarWritten.Nodup → ¬ s.SarBadRole → s.SarBadPair → s.sarCheck = 3) ∧
      (s.sarWritten.Nodup → ¬ s.SarBadRole → ¬ s.SarBadPair → s.sarCheck = 0) := by
  have hcheck : s.sarCheck = if !(decide s.sarWritten.Nodup) then 1
      else if s.sarWritten.any (fun i => 6 ≤ s.f (F.SNS_AIN_CFG_role i)) ||
        !(decide ((s.sarWritten.filter fun i => 1 ≤ s.f (F.SNS_AIN_CFG_role i) && s.f (F.SNS_AIN_CFG_role i) ≤ 4).map
          s.ainKey).Nodup) then 2
      else if !((List.range 8).all fun p => !(s.bit (F.FBK_CTL_en p) && s.fe (F.FBK_CFG_mode p) == 2) ||
        (List.range (s.f F.SNS_SAR_CTL_len_m1 + 1)).any fun k =>
          s.sarEntry 0 k == some (2 * p) && s.sarEntry 1 k == some (2 * p + 1)) then 3 else 0 := rfl
  rw [hcheck]
  refine ⟨fun h => by simp [h], fun hd h => ?_, fun hd hr h => ?_, fun hd hr h => ?_⟩
  · rw [if_neg (by simp [hd]), if_pos ((sarBadRole_iff s hd).2 h)]
  · rw [if_neg (by simp [hd]), if_neg (mt (sarBadRole_iff s hd).1 hr), if_pos ((sarBadPair_iff s).2 h)]
  · rw [if_neg (by simp [hd]), if_neg (mt (sarBadRole_iff s hd).1 hr), if_neg (mt (sarBadPair_iff s).1 h)]

end Checks

section Enable

variable {s : State} (hoff : s.bit F.SNS_SAR_CTL_en = false)
include hoff

theorem sarEnable_refused (he : s.sarCheck ≠ 0) : s.sarEnable = s.setF F.SNS_SAR_STS_error s.sarCheck := by
  simp [State.sarEnable, hoff, he]

theorem sarEnable_accepted (he : s.sarCheck = 0) : s.sarEnable =
    { ((((s.setF F.SNS_SAR_STS_error 0).takeInForce R.SNS_SAR_CTL (R.SNS_SAR_SEQ 8)).takeInForce (R.SNS_AIN_CFG 0)
        (R.SNS_AIN_CFG 16)).setF F.SNS_SAR_CTL_en 1).setF F.SNS_SAR_STS_running 1 with
      sns := { s.sns with sarAt := s.now, sarNext := s.now + 1, ainNow := [], ainBg := [], ainPrior := [] } } := by
  unfold State.sarEnable
  rw [if_neg (by simp [hoff]), he]
  rfl

omit hoff in
theorem sarEntryE_of_taken {s t : State} {c k : Nat} (h : tblGet (resetWord (R.SNS_SAR_SEQ (k / 2))) t.inForce
    (R.SNS_SAR_SEQ (k / 2)) = s.reg (R.SNS_SAR_SEQ (k / 2))) : t.sarEntryE c k = s.sarEntry c k := by
  unfold State.sarEntryE State.sarEntry
  dsimp only
  rw [h]

/-- What an accepted enable leaves: the sequence as written is the one in force. -/
theorem sarEnable_spec (he : s.sarCheck = 0) : let t := s.sarEnable
    t.bit F.SNS_SAR_CTL_en = true ∧ t.bit F.SNS_SAR_STS_running = true ∧ t.f F.SNS_SAR_STS_error = 0 ∧
      t.sarNamed = s.sarWritten ∧ Keeps s t [6] ∧ t.tm = s.tm := by
  intro t
  let u := s.setF F.SNS_SAR_STS_error 0
  let w := (u.takeInForce R.SNS_SAR_CTL (R.SNS_SAR_SEQ 8)).takeInForce (R.SNS_AIN_CFG 0) (R.SNS_AIN_CFG 16)
  have ht : t = _ := sarEnable_accepted hoff he
  have hforce : ∀ a, 0x60808 ≤ a → a < 0x60828 → tblGet (resetWord a) t.inForce a = s.reg a := by
    intro a hlo hhi
    have hw : tblGet (resetWord a) w.inForce a = u.reg a := by
      rw [inForce_takeInForce, if_neg (by unfold R.SNS_AIN_CFG; omega), inForce_takeInForce,
        if_pos (by unfold R.SNS_SAR_CTL R.SNS_SAR_SEQ; omega)]
    rw [ht]
    exact hw.trans (reg_setF_ne _ _ (by dsimp only; omega))
  have hen : t.bit F.SNS_SAR_CTL_en = true := by
    rw [ht]
    exact (bit_setF_elsewhere (by decide)).trans (bit_setF_set (by decide) rfl)
  have hlen : t.fe F.SNS_SAR_CTL_len_m1 = s.f F.SNS_SAR_CTL_len_m1 := by
    rw [ht]
    exact ((fe_takeInForce_outside (by decide)).trans (fe_takeInForce (by decide) (by decide))).trans
      (f_setF_elsewhere (by decide))
  refine ⟨hen, ?_, ?_, ?_, ?_, by rw [ht]; rfl⟩
  · rw [ht]; exact bit_setF_set (by decide) rfl
  · rw [ht]
    exact ((f_setF_beside (by decide) (by decide)).trans (f_setF_elsewhere (by decide))).trans (f_setF_itself (by decide))
  · have h16 : s.f F.SNS_SAR_CTL_len_m1 < 16 := f_lt s F.SNS_SAR_CTL_len_m1
    unfold State.sarNamed State.sarWritten sarInputs
    rw [if_pos hen, hlen]
    refine List.flatMap_congr fun k hk => ?_
    have hk := List.mem_range.1 hk
    have hslot := hforce (0x60808 + 4 * (k / 2)) (by omega) (by omega)
    rw [sarEntryE_of_taken hslot, sarEntryE_of_taken hslot]
  · rw [ht]
    exact (Keeps.refl s [6]).setSns.takeInForce.takeInForce.setSns.setSns.sns

end Enable

/-! ## Conversions (R113–R115) -/

/-- From `s` to `t` no register has changed but the results of the inputs in `A`, nothing is newly in force, and time has not
gone back. -/
structure Converts (A : Set Nat) (s t : State) : Prop where
  reg : ∀ b, (∀ i ∈ A, b ≠ 0x60848 + 0x10 * i) → t.reg b = s.reg b
  inForce : t.inForce = s.inForce
  mem : t.mem = s.mem
  pending : t.pending = s.pending
  now : s.now ≤ t.now

namespace Converts

variable {A B : Set Nat} {s t u : State}

protected theorem refl (A : Set Nat) (s : State) : Converts A s s := ⟨fun _ _ => rfl, rfl, rfl, rfl, le_rfl⟩

theorem trans (h : Converts A s t) (h' : Converts A t u) : Converts A s u :=
  ⟨fun b hb => (h'.reg b hb).trans (h.reg b hb), h'.inForce.trans h.inForce, h'.mem.trans h.mem, h'.pending.trans h.pending,
    h.now.trans h'.now⟩

theorem mono (h : Converts A s t) (hAB : A ⊆ B) : Converts B s t :=
  ⟨fun b hb => h.reg b fun i hi => hb i (hAB hi), h.inForce, h.mem, h.pending, h.now⟩

theorem timeAt (s : State) (x : Nat) : Converts A s (s.at x) :=
  ⟨fun b _ => at_reg s x b, by rw [at_eq], at_mem s x, by rw [at_eq], now_le_at s x⟩

/-- The result of an input outside `A` reads as before. -/
theorem result (h : Converts A s t) {i l w : Nat} (hi : i ∉ A) :
    t.f ⟨0x60848 + 0x10 * i, l, w⟩ = s.f ⟨0x60848 + 0x10 * i, l, w⟩ :=
  f_congr (h.reg _ fun j hj he => hi (by rwa [show i = j by dsimp only at he; omega]))

theorem below (h : Converts A s t) {a l w : Nat} (ha : a < 0x60848) : t.f ⟨a, l, w⟩ = s.f ⟨a, l, w⟩ :=
  f_congr (h.reg _ fun j _ => by dsimp only; omega)

theorem sarEntryE (h : Converts A s t) (c k : Nat) : t.sarEntryE c k = s.sarEntryE c k := by
  unfold State.sarEntryE
  rw [h.inForce]

theorem slotPort (h : Converts A s t) (k : Nat) : t.slotPort k = s.slotPort k := by
  unfold State.slotPort
  rw [h.sarEntryE, h.sarEntryE]

theorem sarSlot (h : Converts A s t) (k : Nat) : t.sarSlot k = s.sarSlot k := by
  unfold State.sarSlot State.fe
  rw [bit_eq_f, h.below (by decide), ← bit_eq_f, h.inForce]

theorem sarNamed (h : Converts A s t) : t.sarNamed = s.sarNamed := by
  unfold State.sarNamed State.fe
  rw [bit_eq_f, h.below (by decide), ← bit_eq_f, h.inForce, funext₂ h.sarEntryE]

theorem keeps (h : Converts A s t) (hA : ∀ i ∈ A, i < 16) : Keeps s t [6] := by
  refine ⟨fun b hb => h.reg b ?_, h.mem, h.pending⟩
  rintro i hi rfl
  have := hA i hi
  exact hb (List.mem_singleton.2 (by omega))

end Converts

theorem tblFind_set_ne {α : Type} (t : Tbl α) {k j : Nat} (v : α) (h : j ≠ k) : tblFind (tblSet t k v) j = tblFind t j := by
  induction t with
  | nil => simp [tblSet, tblFind, h]
  | cons e t ih =>
    obtain ⟨i, x⟩ := e
    by_cases hk : k = i
    · subst hk; simp [tblSet, tblFind, h]
    · by_cases hlt : k < i <;> simp [tblSet, tblFind, hk, hlt, h, ih]

theorem sarEntryE_lt {s : State} {c k i : Nat} (h : s.sarEntryE c k = some i) : i < 16 := by
  unfold State.sarEntryE at h
  dsimp only at h
  split at h
  · cases h; exact Nat.mod_lt _ (by decide)
  · cases h

/-- The result register of input `i` shows a code of converter `c` in slot `k`. -/
def ResultIs (t : State) (i c k code : Nat) : Prop :=
  t.f (F.SNS_AIN_RES_code i) = code % 2 ^ 16 ∧ t.f (F.SNS_AIN_RES_slot i) = k % 2 ^ 4 ∧
    t.f (F.SNS_AIN_RES_conv i) = c % 2 ∧ t.bit (F.SNS_AIN_RES_valid i) = (code != 0 && code != 0xFFFF)

/-- Conversions of other inputs leave a result. -/
theorem Converts.resultIs {A : Set Nat} {s t : State} {i c k code : Nat} (h : Converts A s t) (hi : i ∉ A)
    (hs : ResultIs s i c k code) : ResultIs t i c k code := by
  unfold ResultIs at hs ⊢
  rw [bit_eq_f] at hs ⊢
  rwa [h.result hi, h.result hi, h.result hi, h.result hi]

/-- The codes of this tick that slot `k` adds to: those of slots 0 and 1 are for this tick's headbox (R114). -/
def SnsSt.codes (x : SnsSt) (k : Nat) : Tbl Nat := if k < 2 then x.ainNow else x.ainBg

/-- The front end with a code of input `i` from slot `k`. -/
def SnsSt.latched (x : SnsSt) (k i code : Nat) : SnsSt :=
  if k < 2 then { x with ainNow := tblSet x.ainNow i code } else { x with ainBg := tblSet x.ainBg i code }

theorem codes_latched (x : SnsSt) (k i code : Nat) : (x.latched k i code).codes k = tblSet (x.codes k) i code := by
  unfold SnsSt.codes SnsSt.latched
  split <;> rfl

/-- The code of a conversion kept for the headbox, but for one while the tick is stopped. -/
def State.codeKept (s : State) (idle : Bool) (k i code : Nat) : State :=
  if idle then s
  else if k < 2 then { s with sns := { s.sns with ainNow := tblSet s.sns.ainNow i code } }
  else { s with sns := { s.sns with ainBg := tblSet s.sns.ainBg i code } }

theorem codeKept_eq (s : State) (idle : Bool) (k i code : Nat) : s.codeKept idle k i code =
    { s with sns := if idle then s.sns else s.sns.latched k i code } := by
  unfold State.codeKept SnsSt.latched
  cases idle
  · by_cases hk : k < 2 <;> simp only [hk, if_true, if_false, Bool.false_eq_true]
  · rfl

theorem codeKept_idle (s : State) (k i code : Nat) : s.codeKept true k i code = s := rfl

theorem converts_codeKept (A : Set Nat) (s : State) (idle : Bool) (k i code : Nat) :
    Converts A s (s.codeKept idle k i code) := by
  rw [codeKept_eq]
  exact ⟨fun _ _ => rfl, rfl, rfl, rfl, le_rfl⟩

theorem resultIs_codeKept {s : State} {i c k code : Nat} (h : ResultIs s i c k code) (idle : Bool) (k' i' code' : Nat) :
    ResultIs (s.codeKept idle k' i' code') i c k code := by
  rw [codeKept_eq]
  exact h

/-- The state with the result of input `i` written. -/
def State.sarResult (s : State) (i c k code : Nat) : State :=
  (((s.setF (F.SNS_AIN_RES_code i) code).setF (F.SNS_AIN_RES_slot i) k).setF (F.SNS_AIN_RES_conv i) c).setB
    (F.SNS_AIN_RES_valid i) (code != 0 && code != 0xFFFF)

theorem rewrites_sarResult (s : State) (i c k code : Nat) : Rewrites (0x60848 + 0x10 * i) s (s.sarResult i c k code) :=
  (Rewrites.refl _ s).setF.setF.setF.setF

theorem resultIs_sarResult (s : State) (i c k code : Nat) : ResultIs (s.sarResult i c k code) i c k code := by
  unfold ResultIs State.sarResult
  simp (disch := omega) only [f_setB_beside, f_setF_beside, f_setF_itself, bit_setB_itself]
  exact ⟨trivial, trivial, rfl, trivial⟩

section Store

variable {s : State} {c k : Nat}

theorem sarStore_none (h : s.sarEntryE c k = none) (idle : Bool) (code : Nat) : s.sarStore idle c k code = s := by
  unfold State.sarStore
  rw [h]

/-- A conversion writes its input's result, and while the tick runs its code for the headbox. -/
theorem sarStore_some {i : Nat} (h : s.sarEntryE c k = some i) (idle : Bool) (code : Nat) :
    s.sarStore idle c k code = (s.sarResult i c k code).codeKept idle k i code := by
  unfold State.sarStore
  rw [h]
  rfl

theorem sns_sarStore_idle (s : State) (c k code : Nat) : (s.sarStore true c k code).sns = s.sns := by
  cases h : s.sarEntryE c k with
  | none => rw [sarStore_none h]
  | some i => rw [sarStore_some h, codeKept_idle, (rewrites_sarResult s i c k code).sns]

theorem converts_sarStore (s : State) (idle : Bool) (c k code : Nat) :
    Converts {i | s.sarEntryE c k = some i} s (s.sarStore idle c k code) := by
  cases h : s.sarEntryE c k with
  | none => rw [sarStore_none h]; exact .refl _ s
  | some i =>
    have hr := rewrites_sarResult s i c k code
    have hc : Converts {j | some i = some j} s (s.sarResult i c k code) :=
      ⟨fun b hb => hr.regs b (hb i rfl), hr.inForce, hr.mem, hr.pending, (congrArg TimeSt.now hr.tm).ge⟩
    rw [sarStore_some h]
    exact hc.trans (converts_codeKept _ _ idle k i code)

end Store

/-! ## A slot (R113, R114) -/

section Slot

variable {s : State} {k : Nat} (hport : s.slotPort k = none)
include hport

/-- A slot whose pair is no sin/cos port's: its two conversions. -/
theorem sarSlotDone_eq (hslot : s.sarSlot k = true) (idle : Bool) (t0 c0 c1 : Nat) :
    s.sarSlotDone idle t0 k c0 c1 = (s.sarStore idle 0 k c0).sarStore idle 1 k c1 := by
  have h := ((converts_sarStore s idle 0 k c0).slotPort k).trans hport
  have h' := ((converts_sarStore (s.sarStore idle 0 k c0) idle 1 k c1).slotPort k).trans h
  unfold State.sarSlotDone
  rw [if_neg (by simp [hslot])]
  dsimp only
  rw [h']

theorem converts_sarSlotDone (idle : Bool) (t0 c0 c1 : Nat) :
    Converts {i | s.sarSlot k = true ∧ ∃ c < 2, s.sarEntryE c k = some i} s (s.sarSlotDone idle t0 k c0 c1) := by
  by_cases hslot : s.sarSlot k = true
  · have h0 := converts_sarStore s idle 0 k c0
    have h1 := converts_sarStore (s.sarStore idle 0 k c0) idle 1 k c1
    rw [h0.sarEntryE] at h1
    rw [sarSlotDone_eq hport hslot]
    refine .trans (h0.mono ?_) (h1.mono ?_)
    · exact fun i hi => ⟨hslot, 0, by decide, hi⟩
    · exact fun i hi => ⟨hslot, 1, by decide, hi⟩
  · unfold State.sarSlotDone
    rw [if_pos (by simp [hslot])]
    exact .refl _ s

/-- What the two conversions of a slot leave. -/
theorem sarSlotDone_spec (hslot : s.sarSlot k = true) (idle : Bool) (t0 c0 c1 : Nat) :
    let t := s.sarSlotDone idle t0 k c0 c1
    (∀ i, s.sarEntryE 1 k = some i → ResultIs t i 1 k c1) ∧
      (∀ i, s.sarEntryE 0 k = some i → s.sarEntryE 1 k ≠ some i → ResultIs t i 0 k c0 ∧
        (idle = false → tblFind (t.sns.codes k) i = some c0)) := by
  intro t
  let u := s.sarStore idle 0 k c0
  have ht : t = u.sarStore idle 1 k c1 := sarSlotDone_eq hport hslot idle t0 c0 c1
  have hu : Converts {i | s.sarEntryE 0 k = some i} s u := converts_sarStore s idle 0 k c0
  have htu : Converts {i | s.sarEntryE 1 k = some i} u t := by
    rw [ht, ← hu.sarEntryE]; exact converts_sarStore u idle 1 k c1
  refine ⟨fun i hi => ?_, fun i hi hne => ⟨htu.resultIs hne ?_, fun hidle => ?_⟩⟩
  · rw [ht, sarStore_some ((hu.sarEntryE 1 k).trans hi)]
    exact resultIs_codeKept (resultIs_sarResult u i 1 k c1) idle k i c1
  · rw [show u = _ from sarStore_some hi idle c0]
    exact resultIs_codeKept (resultIs_sarResult s i 0 k c0) idle k i c0
  · have hcodes : ∀ (v : State) (j code : Nat),
        (v.codeKept false k j code).sns.codes k = tblSet (v.sns.codes k) j code := fun v j code => by rw [codeKept_eq]; exact codes_latched _ _ _ _
    have hcu : tblFind (u.sns.codes k) i = some c0 := by
      rw [show u = _ from sarStore_some hi idle c0, hidle, hcodes, tblFind_set_same]
    rw [ht]
    cases h1 : u.sarEntryE 1 k with
    | none => rw [sarStore_none h1, hcu]
    | some j =>
      have hij : i ≠ j := by rintro rfl; exact hne ((hu.sarEntryE 1 k).symm.trans h1)
      rw [sarStore_some h1, hidle, hcodes, tblFind_set_ne _ _ hij, (rewrites_sarResult u j 1 k c1).sns, hcu]

end Slot

/-- A code is stored as it is, and its slot and converter. -/
theorem resultIs_iff_code (t : State) (i c : Nat) (k : Fin 16) (code : BitVec 16) : ResultIs t i c k code.toNat ↔
    t.f (F.SNS_AIN_RES_code i) = code.toNat ∧ t.f (F.SNS_AIN_RES_slot i) = k ∧ t.f (F.SNS_AIN_RES_conv i) = c % 2 ∧
      t.bit (F.SNS_AIN_RES_valid i) = (code != 0 && code != 0xFFFF) := by
  have h0 : (code.toNat != 0) = (code != 0) := by
    rw [Bool.eq_iff_iff, bne_iff_ne, bne_iff_ne, ne_eq, ne_eq, ← BitVec.toNat_inj]; rfl
  have h1 : (code.toNat != 0xFFFF) = (code != 0xFFFF) := by
    rw [Bool.eq_iff_iff, bne_iff_ne, bne_iff_ne, ne_eq, ne_eq, ← BitVec.toNat_inj]; rfl
  unfold ResultIs
  rw [Nat.mod_eq_of_lt code.isLt, Nat.mod_eq_of_lt (show k.val < 2 ^ 4 from k.isLt), h0, h1]

/-! ## The sequence while the tick is stopped (R114) -/

/-- What one step keeps and the step at `k` brings about, while no other step undoes it, holds after steps that include `k`. -/
theorem foldl_of_mem {f : State → Nat → State} {I P : State → Prop} {k : Nat} (hI : ∀ s j, I s → I (f s j))
    (hk : ∀ s, I s → P (f s k)) (hne : ∀ s j, j ≠ k → I s → P s → P (f s j)) {l : List Nat} (hl : k ∈ l) {s : State}
    (hs : I s) : P (l.foldl f s) := by
  have hkeep : ∀ (l : List Nat) (s : State), I s → P s → P (l.foldl f s) := by
    intro l
    induction l with
    | nil => exact fun s _ hp => hp
    | cons j l ih =>
      intro s hi hp
      refine ih _ (hI s j hi) ?_
      by_cases hj : j = k
      · rw [hj]; exact hk s hi
      · exact hne s j hj hi hp
  induction l generalizing s with
  | nil => cases hl
  | cons j l ih =>
    rcases List.mem_cons.1 hl with rfl | hl
    · exact hkeep l _ (hI s _ hs) (hk s hs)
    · exact ih hl (hI s j hs)

theorem foldl_invariant {f : State → Nat → State} {I : State → Prop} (hI : ∀ s j, I s → I (f s j)) (l : List Nat)
    {s : State} (hs : I s) : I (l.foldl f s) := by
  induction l generalizing s with
  | nil => exact hs
  | cons j l ih => exact ih (hI s j hs)

/-- Slot `k` of the sequence that begins at `t` with the tick stopped, where the sequence has it. -/
def State.idleSlot (t : Nat) (codes : BitVec 512) (s : State) (k : Nat) : State :=
  if s.sarSlot k then
    (s.at (t + 500 * (k + 1))).sarSlotDone true t k (codes.extractLsb' (32 * k) 16).toNat
      (codes.extractLsb' (32 * k + 16) 16).toNat
  else s

section Sequence

variable {s : State} {t : Nat} {codes : BitVec 512}

omit t codes in
theorem mem_slot {c k i : Nat} (hc : c < 2) (h : s.sarEntryE c k = some i) :
    i ∈ (s.sarEntryE 0 k).toList ++ (s.sarEntryE 1 k).toList := by
  rw [List.mem_append, Option.mem_toList, Option.mem_toList]
  obtain rfl | rfl : c = 0 ∨ c = 1 := by omega
  · exact .inl h
  · exact .inr h

theorem sarSlot_lt {k : Nat} (h : s.sarSlot k = true) : k < s.fe F.SNS_SAR_CTL_len_m1 + 1 := by
  unfold State.sarSlot at h
  rw [Bool.and_eq_true, decide_eq_true_iff] at h
  exact Nat.lt_succ_of_le h.2

/-- In a sequence that names no input twice, an input of a slot is in no other and not the slot's other input. -/
theorem sarEntryE_unique (hon : s.bit F.SNS_SAR_CTL_en = true) (hnodup : s.sarNamed.Nodup) {c j k i : Nat} (hc : c < 2)
    (hj : s.sarSlot j = true) (hk : s.sarSlot k = true) (h : s.sarEntryE c j = some i) (h' : s.sarEntryE 0 k = some i) :
    j = k ∧ c = 0 := by
  unfold State.sarNamed sarInputs at hnodup
  rw [if_pos hon, List.nodup_flatMap] at hnodup
  obtain ⟨hslot, hslots⟩ := hnodup
  have hjr := List.mem_range.2 (sarSlot_lt hj)
  have hkr := List.mem_range.2 (sarSlot_lt hk)
  have hjk : j = k := by
    by_contra hne
    have : Std.Symm (Function.onFun List.Disjoint fun k => (s.sarEntryE 0 k).toList ++ (s.sarEntryE 1 k).toList) :=
      ⟨fun _ _ hd => hd.symm⟩
    exact hslots.forall hjr hkr hne (mem_slot hc h) (mem_slot (by decide) h')
  refine ⟨hjk, ?_⟩
  by_contra hc0
  obtain rfl : c = 1 := by omega
  have hboth := hslot k hkr
  rw [h', ← hjk, h] at hboth
  simp at hboth

/-- A slot with the tick stopped writes the results of its own inputs and leaves the headbox's codes. -/
theorem converts_idleSlot {k : Nat} (hport : s.sarSlot k = true → s.slotPort k = none) :
    Converts {i | s.sarSlot k = true ∧ ∃ c < 2, s.sarEntryE c k = some i} s (s.idleSlot t codes k) ∧
      (s.idleSlot t codes k).sns = s.sns := by
  unfold State.idleSlot
  split
  next hslot =>
    let A := {i | s.sarSlot k = true ∧ ∃ c < 2, s.sarEntryE c k = some i}
    have hat : Converts A s (s.at (t + 500 * (k + 1))) := .timeAt s _
    have hport' := (hat.slotPort k).trans (hport hslot)
    have hdone := converts_sarSlotDone hport' true t (codes.extractLsb' (32 * k) 16).toNat
      (codes.extractLsb' (32 * k + 16) 16).toNat
    simp only [hat.sarSlot, hat.sarEntryE] at hdone
    refine ⟨hat.trans hdone, ?_⟩
    rw [sarSlotDone_eq hport' ((hat.sarSlot k).trans hslot), sns_sarStore_idle, sns_sarStore_idle, at_sns]
  next => exact ⟨.refl _ s, rfl⟩

theorem resultIs_idleSlot (hon : s.bit F.SNS_SAR_CTL_en = true) (hnodup : s.sarNamed.Nodup) {k i : Nat}
    (hport : s.slotPort k = none) (hslot : s.sarSlot k = true) (h : s.sarEntryE 0 k = some i) :
    ResultIs (s.idleSlot t codes k) i 0 k (codes.extractLsb' (32 * k) 16).toNat := by
  have hat : Converts ∅ s (s.at (t + 500 * (k + 1))) := .timeAt s _
  have hne : s.sarEntryE 1 k ≠ some i := fun h1 => by
    simpa using (sarEntryE_unique hon hnodup (by decide) hslot hslot h1 h).2
  unfold State.idleSlot
  rw [if_pos hslot]
  refine ((sarSlotDone_spec ((hat.slotPort k).trans hport) ((hat.sarSlot k).trans hslot) true t _ _).2 i ?_ ?_).1
  · rw [hat.sarEntryE, h]
  · rw [hat.sarEntryE]; exact hne

/-- What the slots so far keep: only results have changed, and the codes of the headbox have not. -/
def SeqFrom (s u : State) : Prop :=
  Converts {i | i < 16} s u ∧ u.sns.ainNow = s.sns.ainNow ∧ u.sns.ainBg = s.sns.ainBg

theorem seqFrom_idleSlot {u : State} (hport : ∀ k < 16, s.slotPort k = none) (k : Nat) (h : SeqFrom s u) :
    SeqFrom s (u.idleSlot t codes k) := by
  obtain ⟨hu, hnow, hbg⟩ := h
  have hlen : u.fe F.SNS_SAR_CTL_len_m1 < 16 := fe_lt u _
  obtain ⟨hc, hsns⟩ := converts_idleSlot (s := u) (t := t) (codes := codes) (k := k) fun hk =>
    (hu.slotPort k).trans (hport k (by have := sarSlot_lt hk; omega))
  refine ⟨hu.trans (hc.mono ?_), by rw [hsns, hnow], by rw [hsns, hbg]⟩
  rintro i ⟨-, c, -, hi⟩
  exact sarEntryE_lt hi

/-- What a sequence with the tick stopped leaves. -/
theorem sequence_spec (hon : s.bit F.SNS_SAR_CTL_en = true) (hport : ∀ k < 16, s.slotPort k = none)
    (hnodup : s.sarNamed.Nodup) {u : State} (hu : SeqFrom s u) :
    let v := (List.range 16).foldl (State.idleSlot t codes) u
    SeqFrom s v ∧ ∀ k < 16, s.sarSlot k = true → ∀ i, s.sarEntryE 0 k = some i →
      ResultIs v i 0 k (codes.extractLsb' (32 * k) 16).toNat := by
  have hstep : ∀ u k, SeqFrom s u → SeqFrom s (u.idleSlot t codes k) := fun u k => seqFrom_idleSlot hport k
  refine ⟨foldl_invariant hstep _ hu, fun k hk hslot i hi => foldl_of_mem (I := SeqFrom s)
    (P := fun v => ResultIs v i 0 k (codes.extractLsb' (32 * k) 16).toNat) hstep (fun u ⟨hu, _⟩ => ?_)
    (fun u j hj ⟨hu, _⟩ hp => ?_) (List.mem_range.2 hk) hu⟩
  · have hon' : u.bit F.SNS_SAR_CTL_en = true := by rw [bit_eq_f, hu.below (by decide), ← bit_eq_f, hon]
    exact resultIs_idleSlot hon' (by rwa [hu.sarNamed]) ((hu.slotPort k).trans (hport k hk)) ((hu.sarSlot k).trans hslot)
      ((hu.sarEntryE 0 k).trans hi)
  · obtain ⟨hc, -⟩ := converts_idleSlot (s := u) (t := t) (codes := codes) (k := j) fun hj =>
      (hu.slotPort j).trans (hport j (by have := sarSlot_lt hj; have : u.fe F.SNS_SAR_CTL_len_m1 < 16 := fe_lt u _; omega))
    refine hc.resultIs ?_ hp
    rintro ⟨hjslot, c, hc2, hji⟩
    rw [hu.sarSlot] at hjslot
    rw [hu.sarEntryE] at hji
    exact hj (sarEntryE_unique hon hnodup hc2 hjslot hslot hji hi).1

end Sequence

/-- The sequence at the next instant of its own grid, while the tick is stopped. -/
def State.sarIdle (s : State) (codes : BitVec 512) : State :=
  if s.running || !s.bit F.SNS_SAR_CTL_en then s
  else
    let t := gridNext s.sns.sarAt 10000 (max s.now s.sns.sarNext)
    (List.range 16).foldl (State.idleSlot t codes) { s with sns := { s.sns with sarNext := t + 1 } }

theorem exec_sarIdleSequence {s : State} (hm : s.pwr.mainRst = false) (codes : BitVec 512) :
    Machine.exec (.sarIdleSequence codes) s = .next (s.sarIdle codes) :=
  onMain_run (fun s => s.sarIdle codes) hm

theorem exec_sarSlotDone {s : State} (hm : s.pwr.mainRst = false) (hrun : s.running = true) (k : Fin 16)
    (c0 c1 : BitVec 16) : Machine.exec (.sarSlotDone k c0 c1) s =
      .next ((s.at (s.tm.start + 500 * (k + 1))).sarSlotDone false s.tm.start k c0.toNat c1.toNat) := by
  show onMain s _ = _
  simp only [onMain, hm, hrun, if_true, Bool.false_eq_true, if_false]

/-- Settles O34: the checks number what fails first; a conversion writes its own input's result and no other, so that a slot's
results stand when the sequence is over. -/
theorem sarSequence : Obligations.SarSequence := by
  intro s hm
  have hx : Machine.exec .sarEnable s = .next s.sarEnable := onMain_run State.sarEnable hm
  refine ⟨fun hoff => ?_, fun k c0 c1 hrun hslot hport => ?_, fun codes h => ?_, fun codes hrun hon hport hnodup => ?_⟩
  · intro slots inputs role dup badRole badPair refused
    obtain ⟨hdup, hrole, hpair, hok⟩ := sarCheck_cases s
    have hcode : ∀ e, s.sarCheck = e → e ≠ 0 → refused e := fun e he h0 => by
      show Machine.exec .sarEnable s = _
      rw [hx, sarEnable_refused hoff (by rwa [he]), he]
    refine ⟨fun hd => hcode 1 (hdup hd) (by decide), fun hd hr => hcode 2 (hrole (not_not.1 hd) hr) (by decide),
      fun hd hr hp => hcode 3 (hpair (not_not.1 hd) hr hp) (by decide), fun hd hr hp => ⟨_, hx, ?_⟩⟩
    exact sarEnable_spec hoff (hok (not_not.1 hd) hr hp)
  · let u := s.at (s.tm.start + 500 * (k + 1))
    have hu : Converts ∅ s u := .timeAt s _
    have hport' := (hu.slotPort k).trans hport
    have hslot' := (hu.sarSlot k).trans hslot
    have hc := converts_sarSlotDone hport' false s.tm.start c0.toNat c1.toNat
    obtain ⟨h1, h0⟩ := sarSlotDone_spec hport' hslot' false s.tm.start c0.toNat c1.toNat
    refine ⟨_, exec_sarSlotDone hm hrun k c0 c1, fun i hi => ?_, fun i hi hne => ?_, ?_, ?_⟩
    · exact (resultIs_iff_code _ i 1 k c1).1 (h1 i ((hu.sarEntryE 1 k).trans hi))
    · obtain ⟨hres, hcodes⟩ := h0 i ((hu.sarEntryE 0 k).trans hi) (by rwa [hu.sarEntryE])
      obtain ⟨hcode, hs, hconv, hvalid⟩ := (resultIs_iff_code _ i 0 k c0).1 hres
      exact ⟨hcode, hs, hconv, hvalid, hcodes rfl⟩
    · refine ((Keeps.refl s [6]).timeAt _).trans (hc.keeps ?_)
      rintro i ⟨-, c, -, hi⟩
      exact sarEntryE_lt hi
    · exact hu.now.trans hc.now
  · rw [exec_sarIdleSequence hm, State.sarIdle, if_pos (by rcases h with h | h <;> simp [h])]
  · let t := gridNext s.sns.sarAt 10000 (max s.now s.sns.sarNext)
    let u : State := { s with sns := { s.sns with sarNext := t + 1 } }
    have hu : SeqFrom s u := ⟨⟨fun _ _ => rfl, rfl, rfl, rfl, le_rfl⟩, rfl, rfl⟩
    obtain ⟨⟨hc, hnow, hbg⟩, hres⟩ := sequence_spec (t := t) (codes := codes) hon hport hnodup hu
    refine ⟨_, (exec_sarIdleSequence hm codes).trans (by rw [State.sarIdle, if_neg (by simp [hrun, hon])]),
      fun k hk hslot i hi => ?_, hnow, hbg, hc.keeps fun i hi => hi, hc.now⟩
    obtain ⟨hcode, hs, -⟩ := (resultIs_iff_code _ i 0 ⟨k, hk⟩ _).1 (hres k hk hslot i hi)
    exact ⟨hcode, hs⟩

end Sys2Proof.Machine

/-! # READY frames on their way (O44)

A lane in READY keeps the frames it has sent oldest first, and the next one is named after the last of that list. The clause on
READY frames asks for a base above every listed one and takes the list in any order. -/

namespace Sys2Proof.Machine

/-- Lane 15 in READY with a requirement of 20 µs, the frames on their way listed newest first: the last of them names 0. -/
def readyNewestFirst : State :=
  { State.reset.setF (F.KYN_LANE_STS_state 15) 3 with kyn := [(15, { dn := 20000, ahead := [(20000, 0), (0, 0)] })] }

theorem readyNewestFirst_ready : readyNewestFirst.laneState 15 = 3 := by decide +kernel

/-- The next READY frame leaves at once, so that its base is 20 µs again. -/
theorem sof_readyFrame_readyNewestFirst : ((readyNewestFirst.readyFrame 15).lane 15).sof = 0 := by decide +kernel

theorem exec_readyFrame {s : State} (hs : s.pwr.mainRst = false) (n : Fin 16) :
    Machine.exec (.readyFrame n) s = .next (s.readyFrame n) := onMain_run (fun s => s.readyFrame n) hs

/-- Refutes O44 at READY frames (R212): of frames listed newest first the next one repeats the base 20 µs, which the clause
wants passed. -/
theorem not_laneStatesAndFrames : ¬ Obligations.LaneStatesAndFrames := by
  rintro ⟨-, hframes⟩
  obtain ⟨-, -, -, hready, -⟩ := hframes readyNewestFirst 15 rfl rfl rfl
  obtain ⟨t, ht, -, -, habove, -⟩ := hready readyNewestFirst_ready (by decide) (by rintro e ⟨⟩)
  rw [exec_readyFrame rfl] at ht
  have hbase : 20000 < (t.lane 15).sof + 20000 := habove (20000, 0) (List.mem_cons_self ..)
  rw [← Host.Outcome.next.inj ht] at hbase
  exact absurd hbase (by rw [show (((15 : Fin 16) : Nat)) = 15 from rfl, sof_readyFrame_readyNewestFirst]; decide)

end Sys2Proof.Machine

/-! # Field-control units (O36, O37, O38)

The legs lie above block FLD in the register map, as the event unit does; so what a transition of a unit leaves in the unit's own
registers is what its few writes of FLD_STS and FLD_CATCH_STS leave there. -/

namespace Sys2Proof.Machine

/-! ## What the legs leave alone -/

section Legs

variable {a n : Nat}

/-- The output stage writes registers of GATE and PROT alone. -/
theorem reg_legApply_below (s : State) (h : a < 0x90000) : (s.legApply n).reg a = s.reg a := by
  unfold State.legApply
  dsimp only
  split
  · rfl
  · exact reg_setF_ne _ _ (by dsimp only; omega)

theorem reg_legSettle_below (s : State) (h : a < 0x90000) : (s.legSettle n).reg a = s.reg a := by
  have hlock : ∀ (p : Prop) [Decidable p],
      (if p then (s.setF (F.GATE_STS_interlock n) 1).incSat (F.GATE_CNT_interlock n) else s).reg a = s.reg a := by
    intro p _
    split
    · rw [reg_incSat_ne _ _ (by dsimp only; omega), reg_setF_ne _ _ (by dsimp only; omega)]
    · rfl
  unfold State.legSettle
  dsimp only
  split
  · exact (reg_setF_ne _ _ (by dsimp only; omega)).trans (hlock _)
  · exact hlock _

theorem reg_foldl {α : Type} {f : State → α → State} (hf : ∀ s x, (f s x).reg a = s.reg a) (l : List α) (s : State) :
    (l.foldl f s).reg a = s.reg a := by
  induction l generalizing s with
  | nil => rfl
  | cons x l ih => exact (ih (f s x)).trans (hf s x)

theorem reg_allLegs_below (s : State) (h : a < 0x90000) : s.allLegs.reg a = s.reg a := by
  unfold State.allLegs State.legsApply
  dsimp only
  rw [reg_foldl (fun s _ => reg_legSettle_below s h), reg_foldl (fun s _ => reg_legApply_below s h),
    reg_foldl (fun s _ => reg_legApply_below s h)]

theorem f_allLegs_below (s : State) {x : Fld} (h : x.addr < 0x90000) : s.allLegs.f x = s.f x :=
  f_congr (reg_allLegs_below s h)

end Legs

/-! ## The unit's own registers after a change of state -/

theorem f_setUnit (s : State) (n : Nat) (x : UnitSt) (y : Fld) : (s.setUnit n x).f y = s.f y := rfl

theorem f_raise_below (s : State) {src payload : Nat} {o r : Word} {x : Fld} (hs : src < 64) (h : x.addr < 0x120000) :
    (s.raise src payload o r).f x = s.f x :=
  (onlyEvents_raise s payload o r hs).f (not_evtReg_of_lt h)

section Enters

variable {u : Nat} (hu : u < 8)

theorem f_unitGo (s : State) (st : Nat) (p : Pattern) {x : Fld} (h : x.addr < 0x90000) :
    (s.unitGo u st p).f x = (s.unitEnter u st).f x := by
  unfold State.unitGo
  rw [f_allLegs_below _ h, f_setUnit]

theorem f_unitGo_elsewhere (s : State) (st : Nat) (p : Pattern) {x : Fld} (h : x.addr < 0x90000) (hx : x.addr ≠ R.FLD_STS u) :
    (s.unitGo u st p).f x = s.f x := by
  rw [f_unitGo s st p h]
  exact f_setF_ne s st hx

theorem f_leaveRun_elsewhere (s : State) {x : Fld} (hx : x.addr ≠ R.FLD_STS u) (hx' : x.addr ≠ R.FLD_OBS_STS u) :
    (s.leaveRun u).f x = s.f x := by
  unfold State.leaveRun
  rw [f_setUnit, f_setF_ne _ 0 hx', f_setF_ne _ 0 hx, f_setF_ne s 0 hx]

theorem state_unitEnter (s : State) (st : Nat) : (s.unitEnter u st).f (F.FLD_STS_state u) = st % 8 := f_setF_itself (by decide)

theorem state_startPulses (s : State) (q : Seq) :
    (s.startPulses u q).1.f (F.FLD_STS_state u) = s.f (F.FLD_STS_state u) := by
  unfold State.startPulses
  dsimp only
  rw [f_setUnit, f_setF_elsewhere (by omega)]

/-- A pulse block or a short circuit puts a unit that is enabled into SAFE (R128, R251). -/
theorem state_unitSafe (s : State) {conv : Nat} (h4 : conv ≠ 4) (hon : s.f (F.FLD_STS_state u) ≠ 0) :
    (State.unitSafe conv true s u).f (F.FLD_STS_state u) = 6 := by
  unfold State.unitSafe
  extract_lets us left safe _ noted
  have hsafe : safe.f (F.FLD_STS_state u) = 6 := by
    unfold safe
    rw [f_setF_beside (by decide) (by decide), state_unitEnter]
  have hnoted : noted.f (F.FLD_STS_state u) = 6 := by
    unfold noted
    split
    · exact hsafe
    · rw [f_setUnit, hsafe]
  rw [if_neg hon, if_neg h4]
  split
  · rw [if_pos (by simp), hnoted]
  · exact hsafe

theorem unitJoins_spec (s : State) {conv : Nat} (h4 : conv < 4) (hon : s.f (F.FLD_STS_state u) ≠ 0) :
    (s.unitJoins u conv).f (F.FLD_STS_state u) = 6 ∧ (s.unitJoins u conv).f (F.FLD_STS_safe_state u) = conv := by
  have hne : conv ≠ 4 := by omega
  unfold State.unitJoins
  rw [if_neg hne, f_setF_beside (by decide) (by decide), f_setF_itself (by decide)]
  exact ⟨state_unitSafe s hne hon, Nat.mod_eq_of_lt (by omega)⟩

include hu

theorem state_unitGo (s : State) (st : Nat) (p : Pattern) : (s.unitGo u st p).f (F.FLD_STS_state u) = st % 8 :=
  (f_unitGo s st p (by dsimp only; omega)).trans (state_unitEnter s st)

theorem state_unitReady (s : State) : (s.unitReady u).f (F.FLD_STS_state u) = 1 := state_unitGo hu _ _ _

theorem outcome_unitReady (s : State) :
    (s.unitReady u).f (F.FLD_CATCH_STS_outcome u) = s.f (F.FLD_CATCH_STS_outcome u) := by
  have hsts : 0x70070 + 0x100 * u ≠ R.FLD_STS u := by unfold R.FLD_STS; omega
  have hobs : 0x70070 + 0x100 * u ≠ R.FLD_OBS_STS u := by unfold R.FLD_OBS_STS; omega
  calc (s.unitReady u).f (F.FLD_CATCH_STS_outcome u)
      = ((s.setF (F.FLD_STS_safe_state u) 0).leaveRun u).f (F.FLD_CATCH_STS_outcome u) :=
        f_unitGo_elsewhere ((s.setF (F.FLD_STS_safe_state u) 0).leaveRun u) 1 .block (by dsimp only; omega) hsts
    _ = (s.setF (F.FLD_STS_safe_state u) 0).f (F.FLD_CATCH_STS_outcome u) :=
        f_leaveRun_elsewhere (s.setF (F.FLD_STS_safe_state u) 0) hsts hobs
    _ = s.f (F.FLD_CATCH_STS_outcome u) := f_setF_ne s 0 hsts

/-- A catch that fails as it starts (R147): outcome FAILED, and READY. -/
theorem catchEnd_failed (s : State) (w : F32) :
    (s.catchEnd u 4 w).f (F.FLD_STS_state u) = 1 ∧ (s.catchEnd u 4 w).f (F.FLD_CATCH_STS_outcome u) = 4 := by
  have h : s.catchEnd u 4 w = ((s.setF (F.FLD_CATCH_STS_outcome u) 4).raise 24 0 (scopeDrive u) scopeNone).unitReady u := by
    simp [State.catchEnd]
  rw [h]
  refine ⟨state_unitReady hu _, ?_⟩
  rw [outcome_unitReady hu, f_raise_below _ (by decide) (by dsimp only; omega)]
  exact f_setF_itself (by decide)

/-- The entry into CATCH (R151): from the port, by the frequency search or by test pulses, which alone can fail at once. -/
theorem catchStart_spec (s : State) : (s.catchStart u).f (F.FLD_STS_state u) = 3 ∨
    (s.catchStart u).f (F.FLD_STS_state u) = 1 ∧ (s.catchStart u).f (F.FLD_CATCH_STS_outcome u) = 4 := by
  unfold State.catchStart
  extract_lets entered _ cleared byPort _ pulsed _ started
  have hcleared : cleared.f (F.FLD_STS_state u) = 3 := by
    unfold cleared
    rw [f_setUnit, f_setF_elsewhere (by omega), f_setF_elsewhere (by omega)]
    exact state_unitGo hu s 3 .block
  have hpulsed : pulsed.f (F.FLD_STS_state u) = 3 := by
    unfold pulsed
    rw [f_setF_elsewhere (by omega), hcleared]
  split
  · left
    rw [f_setUnit, f_setF_elsewhere (by omega), hcleared]
  split
  · left
    rw [f_allLegs_below _ (by dsimp only; omega), f_setUnit, hpulsed]
  split
  · exact .inr (catchEnd_failed hu started.1 canonNan)
  · left
    unfold started
    rw [state_startPulses, hpulsed]

/-- ASC_BRAKE: the short circuit where R163 permits it, else READY. -/
theorem state_unitAsc (s : State) :
    (s.unitAsc u).f (F.FLD_STS_state u) = if s.ascPermitted u then 7 else 1 := by
  unfold State.unitAsc
  split
  · rw [f_raise_below _ (by decide) (by dsimp only; omega), state_unitGo hu]
  · exact state_unitReady hu _

end Enters

/-! ## The table of R128 -/

/-- State of the converter of unit `u`; 0 where it has none. -/
def State.convState (s : State) (u : Nat) : Nat :=
  match s.unitConv u with
  | some k => s.f (F.PROT_CV_STS_state k)
  | none => 0

/-- The transition over the converter's state. -/
theorem unitTransition_eq (s : State) (u : Nat) : s.unitTransition u =
    if s.f (F.FLD_STS_state u) = 0 then s
    else if s.f (F.FLD_STS_state u) = 5 && s.f (F.FLD_STS_safe_state u) = 4 && s.convState u = 0 then s.unitReady u
    else if s.convState u != 0 && s.f (F.FLD_STS_state u) != 6 &&
        !(s.convState u = 4 && (s.f (F.FLD_STS_state u) = 4 || s.f (F.FLD_STS_state u) = 5)) then
      s.unitJoins u (s.convState u)
    else match s.f (F.FLD_STS_state u) with
      | 1 => if (s.unit u).runPrev = 0 && s.runReq u != 0 then s.catchStart u else s
      | 3 => if (s.catchCouch u).f (F.FLD_STS_state u) = 3 && s.runReq u = 0 then (s.catchCouch u).catchEnd u 5 canonNan
          else s.catchCouch u
      | 2 => if (s.alignCouch u).f (F.FLD_STS_state u) = 2 && s.runReq u = 0 then (s.alignCouch u).alignEnd u 4
          else s.alignCouch u
      | 4 => if s.runReq u = 0 then s.unitRampDown u else if s.runReq u = 3 then s.unitAsc u else s
      | 5 =>
        if s.f (F.FLD_STS_safe_state u) = 4 then s
        else if s.runReq u = 1 then s.unitEnter u 4
        else if s.still u && fEq (s.unit u).ramp fZero then s.unitReady u else s
      | 7 =>
        if (s.unit u).measOk && (s.unit u).ascAbove && !s.aboveMin u then s.unitReady u
        else if s.runReq u = 1 then s.catchStart u
        else if s.runReq u = 0 && (!(s.unit u).ascAbove || !(s.unit u).measOk) then s.unitReady u
        else s
      | 6 => if s.convState u = 0 then s.unitReady u else s
      | _ => s := rfl

section Rows

variable {s : State} {u : Nat}

theorem unitTransition_off (h : s.f (F.FLD_STS_state u) = 0) : s.unitTransition u = s := by
  simp [unitTransition_eq, h]

/-- The end of RAMP_DOWN (R130). -/
theorem unitTransition_released (h : s.f (F.FLD_STS_state u) = 5) (h4 : s.f (F.FLD_STS_safe_state u) = 4)
    (hc : s.convState u = 0) : s.unitTransition u = s.unitReady u := by
  simp [unitTransition_eq, h, h4, hc]

/-- RAMP_DOWN goes on, and run_req is ignored (R130). -/
theorem unitTransition_rampDown (h : s.f (F.FLD_STS_state u) = 5) (h4 : s.f (F.FLD_STS_safe_state u) = 4)
    (hc : s.convState u = 4) : s.unitTransition u = s := by
  simp [unitTransition_eq, h, h4, hc]

/-- A unit outside SAFE whose converter is in a pulse block or a short circuit (R251). -/
theorem unitTransition_joins (h0 : s.f (F.FLD_STS_state u) ≠ 0) (h6 : s.f (F.FLD_STS_state u) ≠ 6)
    (hc : s.convState u ≠ 0) (hc4 : s.convState u ≠ 4) : s.unitTransition u = s.unitJoins u (s.convState u) := by
  simp [unitTransition_eq, h0, h6, hc, hc4]

theorem unitTransition_safe (h : s.f (F.FLD_STS_state u) = 6) :
    s.unitTransition u = if s.convState u = 0 then s.unitReady u else s := by
  simp [unitTransition_eq, h]

section Released

variable (hc : s.convState u = 0)
include hc

theorem unitTransition_ready (h : s.f (F.FLD_STS_state u) = 1) :
    s.unitTransition u = if (s.unit u).runPrev = 0 ∧ s.runReq u ≠ 0 then s.catchStart u else s := by
  simp [unitTransition_eq, h, hc]

theorem unitTransition_run (h : s.f (F.FLD_STS_state u) = 4) :
    s.unitTransition u = if s.runReq u = 0 then s.unitRampDown u else if s.runReq u = 3 then s.unitAsc u else s := by
  simp [unitTransition_eq, h, hc]

theorem unitTransition_ramp (h : s.f (F.FLD_STS_state u) = 5) (h4 : s.f (F.FLD_STS_safe_state u) ≠ 4) :
    s.unitTransition u = if s.runReq u = 1 then s.unitEnter u 4
      else if s.still u && fEq (s.unit u).ramp fZero then s.unitReady u else s := by
  simp [unitTransition_eq, h, h4, hc]

end Released

end Rows

theorem fieldCouch_holds : fieldCouch := by
  intro s u hu st conv next safe r
  have hconv : conv = s.convState u := rfl
  clear_value conv
  subst hconv
  refine ⟨unitTransition_off, fun h h4 hc => ?_, unitTransition_rampDown, fun h1 hc1 hc3 => ?_,
    fun hc => ⟨fun h hr => ?_, fun h hp hr => ?_, fun h hr => ?_, fun h hr => ?_, fun h hr => ?_, fun h h4 hr => ?_,
      fun h h4 hr => ?_, fun h => ?_⟩⟩
  · show (s.unitTransition u).f _ = 1
    rw [unitTransition_released h h4 hc]
    exact state_unitReady hu s
  · have h0 : s.f (F.FLD_STS_state u) ≠ 0 := Nat.ne_of_gt h1
    by_cases h6 : s.f (F.FLD_STS_state u) = 6
    · have ht : s.unitTransition u = s := by rw [unitTransition_safe h6, if_neg (by omega)]
      exact ⟨(congrArg (State.f · _) ht).trans h6, fun hne => absurd h6 hne⟩
    · obtain ⟨hstate, hsafe⟩ := unitJoins_spec s (Nat.lt_succ_of_le hc3) h0
      have ht := unitTransition_joins h0 h6 (by omega) (by omega)
      exact ⟨(congrArg (State.f · _) ht).trans hstate, fun _ => (congrArg (State.f · _) ht).trans hsafe⟩
  · rw [unitTransition_ready hc h, if_neg fun hgo => hr.elim (absurd hgo.1) hgo.2]
  · have ht : s.unitTransition u = s.catchStart u := by rw [unitTransition_ready hc h, if_pos ⟨hp, hr⟩]
    show (s.unitTransition u).f _ = 3 ∨ (s.unitTransition u).f _ = 1 ∧ _
    rw [ht]
    exact catchStart_spec hu s
  · show (s.unitTransition u).f _ = 5
    rw [unitTransition_run hc h, if_pos hr]
    exact state_unitEnter _ 5
  · rw [unitTransition_run hc h, if_neg (by omega), if_neg (by omega)]
  · show (s.unitTransition u).f _ = _
    rw [unitTransition_run hc h, if_neg (by omega), if_pos hr]
    exact state_unitAsc hu s
  · show (s.unitTransition u).f _ = 4
    rw [unitTransition_ramp hc h h4, if_pos hr]
    exact state_unitEnter s 4
  · show (s.unitTransition u).f _ = _
    rw [unitTransition_ramp hc h h4, if_neg hr]
    split
    · exact state_unitReady hu s
    · exact h
  · show (s.unitTransition u).f _ = 1
    rw [unitTransition_safe h, if_pos hc]
    exact state_unitReady hu s

/-! ## The speed-command curve (R156, R157) -/

/-- The command that the curve takes: the headbox word of its input, or field 4 of the references. -/
def State.curveRaw (s : State) (u : Nat) : F32 :=
  if s.bitE (F.FLD_CTL_crv_src u) then s.hbWord (0x500 + 4 * s.fe (F.FLD_CTL_crv_ain u))
  else tblGet (s.q15 (F.FLD_REF_value u 4)) (s.unit u).ovr 4

/-- The command within −1 … 1. -/
def State.curveIn (s : State) (u : Nat) : F32 := fCut 0xBF800000 fOne (s.curveRaw u)

/-- What the curve gives for it. -/
def State.curveOut (s : State) (u : Nat) : F32 := s.lutAt (crvCopy u) (s.curveIn u)

/-- A threshold of the curve. -/
def State.crvLevel (s : State) (x : Fld) : F32 := fOfQ 16 15 (s.fe x)

/-- One step of the curve gives reference `ref` and leaves direction `d`. -/
def CurveGives (s : State) (u : Nat) (ref : F32) (d : Nat) : Prop :=
  (s.curve u).1 = ref ∧ (s.curve u).2.f (F.FLD_STS_dir u) = d

section Curve

variable {s : State} {u : Nat}

theorem dir_setF (s : State) (u : Nat) {d : Nat} (h : d < 4) : (s.setF (F.FLD_STS_dir u) d).f (F.FLD_STS_dir u) = d :=
  (f_setF_itself (by decide)).trans (Nat.mod_eq_of_lt h)

/-- The curve changes direction. -/
theorem curveGives_turn {ref : F32} {d : Nat} (h : s.curve u = (ref, s.setF (F.FLD_STS_dir u) d)) (hd : d < 4) :
    CurveGives s u ref d := by
  unfold CurveGives
  rw [h]
  exact ⟨rfl, dir_setF s u hd⟩

/-- The curve keeps its direction. -/
theorem curveGives_stay {ref : F32} (h : s.curve u = (ref, s)) : CurveGives s u ref (s.f (F.FLD_STS_dir u)) := by
  unfold CurveGives
  rw [h]
  exact ⟨rfl, rfl⟩

theorem curveGives_nan (h : fIsNan (s.curveRaw u) = true) :
    CurveGives s u fZero 0 ∧ (s.curve u).2.bit (flagBit u 8) = true := by
  have hc : s.curve u = (fZero, (s.setF (F.FLD_STS_dir u) 0).setF (flagBit u 8) 1) := if_pos h
  have hflag : 0x70008 + 0x100 * u ≠ R.FLD_FLAGS u := by unfold R.FLD_FLAGS; omega
  unfold CurveGives
  rw [hc]
  exact ⟨⟨rfl, (f_setF_ne _ 1 hflag).trans (dir_setF s u (by decide))⟩, bit_setF_set (show 8 + 1 ≤ 32 by decide) rfl⟩

variable (h : fIsNan (s.curveRaw u) = false)
include h

theorem curve_idle (hd : s.f (F.FLD_STS_dir u) = 0) : s.curve u =
    if fLe (s.crvLevel (F.FLD_CRV_FWD_on u)) (s.curveIn u) then (fMax fZero (s.curveOut u), s.setF (F.FLD_STS_dir u) 1)
    else if fLe (s.curveIn u) (fNeg (s.crvLevel (F.FLD_CRV_AST_on u))) then
      (fMin fZero (s.curveOut u), s.setF (F.FLD_STS_dir u) 2)
    else (fZero, s) := by
  refine (if_neg (ne_true_of_eq_false h)).trans ?_
  rw [hd]
  rfl

theorem curve_ahead (hd : s.f (F.FLD_STS_dir u) = 1) : s.curve u =
    if fLt (s.curveIn u) (s.crvLevel (F.FLD_CRV_FWD_off u)) then (fZero, s.setF (F.FLD_STS_dir u) 0)
    else (fMax fZero (s.curveOut u), s) := by
  refine (if_neg (ne_true_of_eq_false h)).trans ?_
  rw [hd]
  rfl

theorem curve_astern (hd : s.f (F.FLD_STS_dir u) = 2) : s.curve u =
    if fGt (s.curveIn u) (fNeg (s.crvLevel (F.FLD_CRV_AST_off u))) then (fZero, s.setF (F.FLD_STS_dir u) 0)
    else (fMin fZero (s.curveOut u), s) := by
  refine (if_neg (ne_true_of_eq_false h)).trans ?_
  rw [hd]
  rfl

theorem curveGives_ahead (hd : s.f (F.FLD_STS_dir u) = 1) :
    CurveGives s u (if fLt (s.curveIn u) (s.crvLevel (F.FLD_CRV_FWD_off u)) then fZero else fMax fZero (s.curveOut u))
      (if fLt (s.curveIn u) (s.crvLevel (F.FLD_CRV_FWD_off u)) then 0 else 1) := by
  have hc := curve_ahead h hd
  split
  next hoff => exact curveGives_turn (hc.trans (if_pos hoff)) (by decide)
  next hon => exact hd ▸ curveGives_stay (hc.trans (if_neg hon))

theorem curveGives_astern (hd : s.f (F.FLD_STS_dir u) = 2) :
    CurveGives s u
      (if fGt (s.curveIn u) (fNeg (s.crvLevel (F.FLD_CRV_AST_off u))) then fZero else fMin fZero (s.curveOut u))
      (if fGt (s.curveIn u) (fNeg (s.crvLevel (F.FLD_CRV_AST_off u))) then 0 else 2) := by
  have hc := curve_astern h hd
  split
  next hoff => exact curveGives_turn (hc.trans (if_pos hoff)) (by decide)
  next hon => exact hd ▸ curveGives_stay (hc.trans (if_neg hon))

end Curve

theorem speedCurve_holds : speedCurve := by
  intro s u _ raw x q y dir step
  refine ⟨curveGives_nan, fun hn => ⟨fun hd hon => ?_, fun hd hfwd hast => ?_, fun hd hfwd hast => ?_, curveGives_ahead hn,
    curveGives_astern hn⟩⟩
  · exact curveGives_turn ((curve_idle hn hd).trans (if_pos hon)) (by decide)
  · have hc := (curve_idle hn hd).trans (if_neg (ne_true_of_eq_false hfwd))
    exact curveGives_turn (hc.trans (if_pos hast)) (by decide)
  · have hc := (curve_idle hn hd).trans (if_neg (ne_true_of_eq_false hfwd))
    have hstay := curveGives_stay (hc.trans (if_neg (ne_true_of_eq_false hast)))
    exact hd ▸ hstay

/-- Settles O38: each row of the table by what its transition leaves in FLD_STS, the curve by its direction. -/
theorem fieldTransitions : Obligations.FieldTransitions := ⟨fieldCouch_holds, speedCurve_holds⟩

/-! ## A flux that is no number (R125)

R125 lets BASE fail where ψ ≤ 0, and a NaN is not: the model accepts it. The statement asks for a ψ above 0. -/

/-- Unit 7 on a PM machine whose flux is NaN, with settings that pass every check of R125. -/
def nanFlux : State :=
  ([(F.FLD_BASE_I_value 7, 0x3F800000), (F.FLD_BASE_V_value 7, 0x3F800000), (F.FLD_BASE_N_value 7, 0x3F800000),
    (F.FLD_BASE_T_value 7, 0x3F800000), (F.FLD_MACH_LD_value 7, 0x3F800000), (F.FLD_MACH_LQ_value 7, 0x3F800000),
    (F.FLD_MACH_KT_value 7, 0x3F800000), (F.FLD_MACH_PSI_value 7, 0x7FC00000), (F.FLD_ANGLE_pole_pairs 7, 1),
    (F.FLD_ALIGN_CFG_width 7, 500), (F.FLD_CATCH_CFG_width 7, 500), (F.FLD_CATCH_CFG_pulses_m1 7, 7)] :
      List (Fld × Nat)).foldl (fun s e => s.setF e.1 e.2) State.reset

theorem nanFlux_off : nanFlux.f (F.FLD_STS_state 7) = 0 := by decide +kernel

/-- The four checks ahead of BASE pass. -/
theorem nanFlux_passes_before_base : ∀ j < 4, ¬ (fldFails nanFlux 7).getD j False := by
  intro j hj
  interval_cases j <;> simp only [fldFails, List.getD_cons_zero, List.getD_cons_succ] <;> decide +kernel

/-- The statement's BASE fails: the flux of a PM machine is not above 0. -/
theorem nanFlux_fails_base : (fldFails nanFlux 7).getD 4 False := by
  simp only [fldFails, List.getD_cons_zero, List.getD_cons_succ]
  decide +kernel

/-- The model enables the unit. -/
theorem cfg_error_fldEnable_nanFlux : (nanFlux.fldEnable 7).f (F.FLD_STS_cfg_error 7) = 0 := by decide +kernel

/-- Refutes O36 at the check BASE of R125: with a flux of NaN the clause wants the enable of a PM unit refused with code 5, and
the model, which tests ψ ≤ 0 as the rule does, accepts it. -/
theorem not_fieldUnitEnable : ¬ Obligations.FieldUnitEnable := by
  intro h
  obtain ⟨hrefused, -⟩ := h nanFlux 7 rfl (by decide)
  have henable : Machine.exec (.fldEnable 7) nanFlux = .next (nanFlux.fldEnable 7) := onMain_run (fun s => s.fldEnable 7) rfl
  have hcode := hrefused nanFlux_off 4 (by decide) nanFlux_passes_before_base nanFlux_fails_base
  rw [henable] at hcode
  have h5 : (nanFlux.fldEnable 7).f (F.FLD_STS_cfg_error 7) = 5 := by
    rw [Host.Outcome.next.inj hcode]
    exact f_setF_itself (by decide)
  exact absurd (cfg_error_fldEnable_nanFlux.symm.trans h5) (by decide)

/-! ## A held write to the state of a unit (R59, R159)

LOCKED_ROTOR looks at the unit as the coming couch finds it, after the held writes; the statement asks whether the unit is enabled
before them. -/

/-- Unit 7 in OFF ahead of a couch that finds it in RUN with its locked-rotor timer at the window: the writes held for that couch
list FLD_STS, a register without a field "at couch". -/
def heldRun : State :=
  { ([(F.TIME_TICK_STS_running, 1), (F.FLD_LR_CFG_window 7, 1), (F.FLD_LR_CFG_thr 7, 0)] : List (Fld × Nat)).foldl
      (fun s e => s.setF e.1 e.2) State.reset with
    tm := { State.reset.tm with phase := 2 }
    held := [(R.FLD_STS 7, 4)]
    units := [(7, { lrTime := 9980000 })] }

theorem heldRun_off : heldRun.f (F.FLD_STS_state 7) = 0 := by decide +kernel

/-- The locked-rotor fault of unit `u` at the coming couch (R159). -/
def State.lockedRotor (s : State) (u : Nat) : State :=
  s.beforeCouch 2 u ((s.atCouch.unitWatch u).lrDue u) fun s => s.lrDemand u

theorem exec_lockedRotor {s : State} (hm : s.pwr.mainRst = false) (u : Fin 8) :
    Machine.exec (.lockedRotor u) s = .next (s.lockedRotor u) := onMain_run (fun s => s.lockedRotor u) hm

theorem flag_lockedRotor_heldRun : (heldRun.lockedRotor 7).bit (flagBit 7 1) = true := by decide +kernel

theorem flag_heldRun : heldRun.bit (flagBit 7 1) = false := by decide +kernel

/-- Refutes O37 at LOCKED_ROTOR (R159): the writes held for the couch enable the unit, so that the fault comes, and the clause,
which looks at the unit before them, wants nothing changed. The clause quantifies over every state; FLD_STS itself is read-only, so
no host's write to it is held. -/
theorem not_fieldUnitEvents : ¬ Obligations.FieldUnitEvents := by
  intro h
  obtain ⟨-, -, -, ⟨hnone, -⟩, -⟩ := h heldRun 7 rfl
  have hsame := hnone (.inr (.inr fun hrotor => hrotor.1 heldRun_off))
  rw [exec_lockedRotor rfl] at hsame
  have hflag : (heldRun.lockedRotor 7).bit (flagBit 7 1) = heldRun.bit (flagBit 7 1) :=
    congrArg (State.bit · (flagBit 7 1)) (Host.Outcome.next.inj hsame)
  exact absurd (flag_lockedRotor_heldRun.symm.trans (hflag.trans flag_heldRun)) (by decide)

end Sys2Proof.Machine

/-! # What the output stage of the legs leaves, and what leaves a modulation domain alone

The output stage changes the states of legs and registers of GATE and PROT (`LegsActed`). What a tick start does ahead of its
domains, and what it does to the other ones, leaves a domain's settings and carrier alone (`SameDomain`). -/

namespace Sys2Proof

open Machine

namespace Keeps

variable {s t : State} {bs : List Nat}

/-- A field of a register of MOD or GATE. -/
theorem setModGate {a l w v : Nat} (h : Keeps s t [8, 9, 0xC]) (hlo : 0x80000 ≤ a := by omega)
    (hhi : a < 0xA0000 := by omega) : Keeps s (t.setF ⟨a, l, w⟩ v) [8, 9, 0xC] :=
  h.trans ⟨fun b hb => reg_setF_ne t v (by rintro rfl; simp only [List.mem_cons, not_or] at hb; omega), rfl, rfl⟩

theorem setMd {n : Nat} {x : MdSt} (h : Keeps s t bs) : Keeps s (t.setMd n x) bs := h.copy rfl rfl rfl

theorem foldlRange {n : Nat} {f : State → Nat → State} (h : Keeps s t bs)
    (hf : ∀ {t} {x}, x < n → Keeps s t bs → Keeps s (f t x) bs) : Keeps s ((List.range n).foldl f t) bs :=
  List.foldlRecOn (motive := fun u => Keeps s u bs) _ f h fun _ hb _ hx => hf (List.mem_range.1 hx) hb

/-- What MOD_ACT and MOD_SHD show. -/
theorem modShow {d : Fin 8} (h : Keeps s t [8, 9, 0xC]) : Keeps s (t.modShow d) [8, 9, 0xC] :=
  h.foldlRange fun _ h => h.setModGate.setModGate.setModGate

end Keeps

end Sys2Proof

namespace Sys2Proof.Machine

/-! ## The output stage (R182, R185–R190) -/

/-- The registers below GATE lie in none of its blocks. -/
theorem below_gate {a : Nat} (ha : a < 0x90000) : a / 0x10000 ∉ [9, 0xC] := by
  simp only [List.mem_cons, List.not_mem_nil, or_false]
  omega

/-- From `s` to `t` the output stage of legs has acted: their states, and registers of GATE and PROT, and nothing else. -/
structure LegsActed (s t : State) : Prop where
  rest : t = { s with regs := t.regs, legs := t.legs }
  reg : ∀ a, a / 0x10000 ∉ [9, 0xC] → t.reg a = s.reg a

namespace LegsActed

variable {s t u : State} {n : Nat}

protected theorem refl (s : State) : LegsActed s s := ⟨rfl, fun _ _ => rfl⟩

theorem setLeg {x : LegSt} (h : LegsActed s t) : LegsActed s (t.setLeg n x) := by
  obtain ⟨hrest, hreg⟩ := h
  exact ⟨by rw [hrest]; rfl, hreg⟩

/-- A field of a register of GATE or PROT. -/
theorem setF {a l w v : Nat} (h : LegsActed s t)
    (ha : 0x90000 ≤ a ∧ a < 0xA0000 ∨ 0xC0000 ≤ a ∧ a < 0xD0000 := by omega) : LegsActed s (t.setF ⟨a, l, w⟩ v) := by
  obtain ⟨hrest, hreg⟩ := h
  refine ⟨by rw [hrest]; rfl, fun b hb => (reg_setF_ne t v ?_).trans (hreg b hb)⟩
  rintro rfl
  simp only [List.mem_cons, not_or] at hb
  omega

theorem ite {p : Prop} [Decidable p] (h : LegsActed s t) (h' : LegsActed s u) : LegsActed s (if p then t else u) := by
  split
  · exact h
  · exact h'

theorem foldl {f : State → Nat → State} {l : List Nat} (h : LegsActed s t)
    (hf : ∀ {t} {x}, x ∈ l → LegsActed s t → LegsActed s (f t x)) : LegsActed s (l.foldl f t) :=
  List.foldlRecOn l f h fun _ hb _ hx => hf hx hb

theorem mdClear {d : Nat} (h : LegsActed s t) : LegsActed s (t.mdClear d) := h.foldl fun _ h => h.setLeg

section

variable (h : LegsActed s t) (hn : n < 18)
include h hn

theorem gfBlank : LegsActed s (t.gfBlank n) := h.setF.setLeg
theorem legApply : LegsActed s (t.legApply n) := h.ite h.setLeg.setLeg.setF

theorem legSettle : LegsActed s (t.legSettle n) := by
  unfold State.legSettle
  extract_lets x o lock locked seen settled
  have hlocked : LegsActed s locked := (h.setF (a := 0x90014 + 0x20 * n)).setF.ite h
  exact hlocked.setLeg.gfBlank hn |>.ite hlocked.setLeg

end

theorem legsApply {ls : List Nat} (h : LegsActed s t) (hls : ∀ n ∈ ls, n < 18) : LegsActed s (t.legsApply ls) :=
  ((h.foldl fun hx h => h.legApply (hls _ hx)).foldl fun hx h => h.legApply (hls _ hx)).foldl
    fun hx h => h.legSettle (hls _ hx)

theorem allLegs (h : LegsActed s t) : LegsActed s t.allLegs := h.legsApply fun _ hn => List.mem_range.1 hn

theorem tm (h : LegsActed s t) : t.tm = s.tm := by rw [h.rest]
theorem md (h : LegsActed s t) (d : Nat) : t.md d = s.md d := by rw [h.rest]; rfl
theorem fe (h : LegsActed s t) (x : Fld) : t.fe x = s.fe x := by rw [h.rest]; rfl

theorem keeps (h : LegsActed s t) {bs : List Nat} (h9 : 9 ∈ bs) (hC : 0xC ∈ bs) : Keeps s t bs := by
  obtain ⟨hrest, hreg⟩ := h
  refine ⟨fun a ha => hreg a fun hm => ?_, by rw [hrest], by rw [hrest]⟩
  simp only [List.mem_cons, List.not_mem_nil, or_false] at hm
  exact hm.elim (fun he => ha (he ▸ h9)) fun he => ha (he ▸ hC)

end LegsActed

theorem mem_domainLegs {s : State} {d n : Nat} : n ∈ s.domainLegs d ↔
    n < 18 ∧ s.bit (F.GATE_CFG_assigned n) = true ∧ s.f (F.GATE_CFG_md n) = d := by
  unfold State.domainLegs State.legDomain
  by_cases ha : s.bit (F.GATE_CFG_assigned n) = true <;> simp [ha]

theorem domainLegs_lt {s : State} {d : Nat} : ∀ n ∈ s.domainLegs d, n < 18 := fun _ hn => (mem_domainLegs.1 hn).1

theorem slotLeg_lt {s : State} {d j n : Nat} (h : s.slotLeg d j = some n) : n < 18 :=
  List.mem_range.1 (List.mem_of_find?_eq_some h)

/-- The partner of a leg is a leg. -/
theorem npcPartner_lt {s : State} {n : Nat} {p : Nat × Bool} (h : s.npcPartner n = some p) : p.1 < 18 := by
  unfold State.npcPartner at h
  split at h
  · cases h
  · have hmap : ∀ {j : Nat} {b : Bool} {d : Nat}, (s.slotLeg d j).map (fun m => (m, b)) = some p → p.1 < 18 := by
      intro j b d hj
      obtain ⟨m, hm, rfl⟩ := Option.map_eq_some_iff.1 hj
      exact slotLeg_lt hm
    split at h
    · dsimp only at h
      split at h
      · exact hmap h
      · exact hmap h
    · cases h

theorem legPair_lt {s : State} {n : Nat} (hn : n < 18) : ∀ m ∈ s.legPair n, m < 18 := by
  unfold State.legPair
  split
  next p b hp =>
    have hp := npcPartner_lt hp
    intro m hm
    split at hm <;> rcases List.mem_pair.1 hm with rfl | rfl <;> assumption
  next =>
    intro m hm
    rw [List.mem_singleton.1 hm]
    exact hn

end Sys2Proof.Machine

namespace Sys2Proof.Machine

/-! ## What leaves a domain alone -/

/-- `t` has the settings, the references and the carrier of domain `d` as `s` has them. -/
structure SameDomain (d : Fin 8) (s t : State) : Prop where
  reg : ∀ a, 0x80000 + 0x100 * (d : Nat) ≤ a → a < 0x80050 + 0x100 * (d : Nat) → t.reg a = s.reg a
  inForce : ∀ a, 0x80000 + 0x100 * (d : Nat) ≤ a → a < 0x80050 + 0x100 * (d : Nat) →
    tblGet (resetWord a) t.inForce a = tblGet (resetWord a) s.inForce a
  md : t.md d = s.md d

namespace SameDomain

variable {d : Fin 8} {s t u : State}

@[refl] protected theorem refl (s : State) : SameDomain d s s := ⟨fun _ _ _ => rfl, fun _ _ _ => rfl, rfl⟩

theorem trans (h : SameDomain d s t) (h' : SameDomain d t u) : SameDomain d s u :=
  ⟨fun a hlo hhi => (h'.reg a hlo hhi).trans (h.reg a hlo hhi),
    fun a hlo hhi => (h'.inForce a hlo hhi).trans (h.inForce a hlo hhi), h'.md.trans h.md⟩

/-- An update of other components. -/
theorem copy (h : SameDomain d s t) (hr : u.regs = t.regs) (hi : u.inForce = t.inForce) (hm : u.mds = t.mds) :
    SameDomain d s u := by
  refine h.trans ⟨fun a _ _ => ?_, fun a _ _ => by rw [hi], ?_⟩
  · unfold State.reg; rw [hr]
  · unfold State.md; rw [hm]

theorem ofLegs (h : LegsActed s t) : SameDomain d s t :=
  ⟨fun a hlo hhi => h.reg a (below_gate (by omega)), fun a _ _ => by rw [h.rest],
    h.md d⟩

theorem ite {p : Prop} [Decidable p] (h : SameDomain d s t) (h' : SameDomain d s u) :
    SameDomain d s (if p then t else u) := by
  split
  · exact h
  · exact h'

theorem ifThen {p : Prop} [Decidable p] (h : SameDomain d s t) (hf : SameDomain d s t → SameDomain d s u) :
    SameDomain d s (if p then u else t) := (hf h).ite h

theorem branch {p : Prop} [Decidable p] {v : State} (h : SameDomain d s t) (hf : SameDomain d s t → SameDomain d s u)
    (hg : SameDomain d s t → SameDomain d s v) : SameDomain d s (if p then u else v) := (hf h).ite (hg h)

theorem ifElse {p : Prop} [Decidable p] (h : SameDomain d s t) (hf : SameDomain d s t → SameDomain d s u) :
    SameDomain d s (if p then t else u) := h.ite (hf h)

theorem foldl {α : Type} {f : State → α → State} {l : List α} (h : SameDomain d s t)
    (hf : ∀ {t} {x}, x ∈ l → SameDomain d s t → SameDomain d s (f t x)) : SameDomain d s (l.foldl f t) :=
  List.foldlRecOn (motive := fun u => SameDomain d s u) l f h fun _ hb _ hx => hf hx hb

theorem foldlRange {n : Nat} {f : State → Nat → State} (h : SameDomain d s t)
    (hf : ∀ {t} {x}, x < n → SameDomain d s t → SameDomain d s (f t x)) : SameDomain d s ((List.range n).foldl f t) :=
  h.foldl fun hx => hf (List.mem_range.1 hx)

/-- A register that lies elsewhere. -/
theorem setReg {a : Nat} {w : Word} (h : SameDomain d s t)
    (ha : a < 0x80000 + 0x100 * (d : Nat) ∨ 0x80050 + 0x100 * (d : Nat) ≤ a := by omega) :
    SameDomain d s (t.setReg a w) :=
  h.trans ⟨fun b _ _ => reg_setReg_ne t w (by omega), fun _ _ _ => rfl, rfl⟩

theorem setMd {e : Nat} {x : MdSt} (h : SameDomain d s t) (he : e ≠ d) : SameDomain d s (t.setMd e x) :=
  h.trans ⟨fun _ _ _ => rfl, fun _ _ _ => rfl, tblGet_set_ne _ _ _ he.symm⟩

theorem takeInForce {lo hi : Nat} (h : SameDomain d s t) (hlo : 0x90000 ≤ lo := by omega) :
    SameDomain d s (t.takeInForce lo hi) :=
  h.trans ⟨fun _ _ _ => rfl, fun a _ _ => by rw [inForce_takeInForce, if_neg (by omega)], rfl⟩

section

variable {a l w v n : Nat} {x : Bool} (h : SameDomain d s t)
  (ha : a < 0x80000 + 0x100 * (d : Nat) ∨ 0x80050 + 0x100 * (d : Nat) ≤ a := by omega)
include h ha

theorem setF : SameDomain d s (t.setF ⟨a, l, w⟩ v) := h.setReg ha
theorem setB : SameDomain d s (t.setB ⟨a, l, w⟩ x) := h.setReg ha
theorem incSat : SameDomain d s (t.incSat ⟨a, l, w⟩ n) := h.setReg ha
theorem incWrap : SameDomain d s (t.incWrap ⟨a, l, w⟩ n) := h.setReg ha
theorem maxF : SameDomain d s (t.maxF ⟨a, l, w⟩ n) := h.setReg ha

end

section

variable {k n c p m e : Nat} (h : SameDomain d s t)
include h

theorem setUnit {x : UnitSt} : SameDomain d s (t.setUnit n x) := h.copy rfl rfl rfl
theorem setCore {x : LaneSt} : SameDomain d s (t.setCore n x) := h.copy rfl rfl rfl
theorem setCtx {x : CtxSt} : SameDomain d s (t.setCtx n x) := h.copy rfl rfl rfl
theorem setLeg {x : LegSt} : SameDomain d s (t.setLeg n x) := h.copy rfl rfl rfl
theorem setShd {w : Word} : SameDomain d s (t.setShd n w) := h.copy rfl rfl rfl
theorem setPort {x : PortSt} : SameDomain d s (t.setPort n x) := h.copy rfl rfl rfl
theorem setEmu {x : EmuSt} : SameDomain d s (t.setEmu n x) := h.copy rfl rfl rfl
theorem setLane {x : KynSt} : SameDomain d s (t.setLane n x) := h.copy rfl rfl rfl
theorem setCell {x : CellSt} : SameDomain d s (t.setCell n x) := h.copy rfl rfl rfl
theorem sns {x : SnsSt} : SameDomain d s { t with sns := x } := h.copy rfl rfl rfl
theorem timeAt {x : Nat} : SameDomain d s (t.at x) := h.copy (at_regs t x) (by rw [at_eq]) (by rw [at_eq])
theorem cellsSns {x : Tbl CellSt} {y : SnsSt} : SameDomain d s { t with cells := x, sns := y } := h.copy rfl rfl rfl
theorem setTm {x : TimeSt} : SameDomain d s { t with tm := x } := h.copy rfl rfl rfl

/-! ### Events and demands -/

theorem raise {src payload : Nat} {o r : Word} (hs : src < 64 := by decide) :
    SameDomain d s (t.raise src payload o r) := by
  obtain ⟨hreg, _, _, hrest⟩ := onlyEvents_raise t payload o r hs
  exact h.trans ⟨fun a _ _ => hreg a (not_evtReg_of_lt (by omega)), fun a _ _ => by rw [hrest], by rw [hrest]; rfl⟩

theorem demandLater {cls st src : Nat} {o : Word} : SameDomain d s (t.demandLater k cls st src o) := h.copy rfl rfl rfl

theorem unitDemandLater {act cls src : Nat} : SameDomain d s (t.unitDemandLater n act cls src) := by
  unfold State.unitDemandLater
  split
  · exact h.demandLater
  · exact h

/-! ### The engine at a tick's end and start -/

theorem ctxHalt {cause src : Nat} (_ : c < 64) : SameDomain d s (t.ctxHalt c cause src) :=
  h.setF.setF.foldl fun _ h => h.demandLater

theorem ctxTick (_ : c < 64) : SameDomain d s (t.ctxTick c) :=
  ((h.ctxHalt ‹_›).ite (h.setF.setF.setF.ite h)).setCtx

theorem laneCycles (_ : n < 8) : SameDomain d s (t.laneCycles n) := h.setF.maxF
theorem ctxCycles (_ : c < 64) : SameDomain d s (t.ctxCycles c) := h.setF.maxF

omit h in
theorem liveCtx_lt {t : State} {c : Nat} (hc : c ∈ t.liveCtxs) : c < 64 :=
  List.mem_range.1 (List.mem_of_mem_drop (List.mem_filter.1 hc).1)

theorem engEnd : SameDomain d s t.engEnd :=
  (h.foldlRange fun hn h => h.laneCycles hn).foldl fun hc h => h.ctxCycles (liveCtx_lt hc)
theorem engTick : SameDomain d s t.engTick := (h.foldlRange fun _ h => h.setCore).foldl fun hc h => h.ctxTick (liveCtx_lt hc)

/-! ### Measurement and Kynor lanes -/

theorem sdOutput (_ : n < 40) : SameDomain d s (t.sdOutput n) := by
  refine h.ifElse fun h => ?_
  dsimp only
  split
  · exact ((h.setF.setB.ifThen fun h => h.setF).ifThen fun h => h.setF).setB
  · have hfree : SameDomain d s (t.free 16).2 := h.copy rfl rfl rfl
    exact ((hfree.setF.setB.ifThen fun h => h.setF).ifThen fun h => h.setF).setB

theorem sdcRestart {x : Nat} : SameDomain d s (t.sdcRestart x) := h.ifThen fun h => h.sns
theorem ageMap : SameDomain d s (t.ageMap n) := h.setF
theorem older {cs : List Nat} : SameDomain d s (t.older cs) := h.foldl fun _ h => h.setCell
theorem reqLead : SameDomain d s t.reqLead := h.setF
theorem laneEnter {x : Nat} : SameDomain d s (t.laneEnter n x) := h.setF.setLane.reqLead
theorem laneFall : SameDomain d s (t.laneFall n) := h.ifElse fun h => h.setF.laneEnter.raise.foldl fun _ h => h.demandLater
theorem lanePoint : SameDomain d s (t.lanePoint n) :=
  ((h.ifElse fun h => h.ageMap.older).setLane).ifThen fun h => h.laneFall
theorem laneSample : SameDomain d s (t.laneSample n) := h.ifElse fun h => h.ageMap.ifThen fun h => h.lanePoint
theorem kynSample : SameDomain d s t.kynSample := (h.foldl fun _ h => h.laneSample).cellsSns

/-! ### Feedback ports -/

theorem obsPredict : SameDomain d s (t.obsPredict p) := h.ifElse fun h => h.setPort
theorem raisePort {src : Nat} (hs : src < 64 := by decide) : SameDomain d s (t.raisePort p src) := h.raise hs
theorem emuBacklog : SameDomain d s (t.emuBacklog m) :=
  (h.ifThen fun h => h.setEmu.setF).setF.branch (fun h => h.setEmu.setF.raisePort) fun h => h.ifThen fun h => h.setEmu
theorem emuTarget : SameDomain d s (t.emuTarget m) := h.ifElse fun h =>
  h.setF.ite (h.ifThen fun h => h.setF.setF.setEmu).setEmu.emuBacklog
theorem emuFollow : SameDomain d s (t.emuFollow p) := (h.ifThen fun h => h.emuTarget).ifThen fun h => h.emuTarget
theorem portValid : SameDomain d s (t.portValid p) := h.setB.ifElse fun h => h.emuFollow
theorem limpEnter {bit : Nat} (_ : n < 8) : SameDomain d s (t.limpEnter n bit) := h.setUnit.setF
theorem limpPort {src : Nat} (hn : n < 8) : SameDomain d s (State.limpPort src t n) :=
  ((h.limpEnter hn).ifElse fun h => h.unitDemandLater).ite h.unitDemandLater

omit h in
theorem angleUnit_lt {t : State} {p u : Nat} (hu : u ∈ t.angleUnits p) : u < 8 :=
  List.mem_range.1 (List.mem_filter.1 (List.mem_filter.1 hu).1).1

theorem portFault {cause ev : Nat} : SameDomain d s (t.portFault p cause ev) :=
  h.setF.setF.portValid.foldl fun hu h => h.limpPort (angleUnit_lt hu)
theorem ssiTick : SameDomain d s (t.ssiTick p) :=
  h.ifElse fun h => (h.setPort.setF (by unfold R.FBK_FLAGS; omega)).raisePort.portFault

/-! ### Pulses, legs and the other domains -/

theorem legs (h' : LegsActed t u) : SameDomain d s u := h.trans (ofLegs h')

theorem pulseSample (_ : n < 8) : SameDomain d s (t.pulseSample n) := h.ifElse fun h =>
  h.setUnit.ite ((h.setUnit.ifThen fun h => h.setUnit).setF.legs (LegsActed.refl _).allLegs)

theorem legSet {w : Word} : SameDomain d s (t.legSet n w) :=
  (((h.ifThen fun h => h.setF).ifThen fun h => ((h.takeInForce (Nat.le_add_right_of_le (by decide))).takeInForce
    (Nat.le_add_right_of_le (by decide))).setF).setReg (by unfold R.GATE_CMD; omega)).setB.ifThen fun h => h.setShd
theorem legCmd {w : Word} (hn : n < 18) : SameDomain d s (t.legCmd n w) :=
  h.legSet.legs ((LegsActed.refl _).legsApply (legPair_lt hn))
theorem freeLegs : SameDomain d s t.freeLegs := h.foldlRange fun hn h => h.ifThen fun h => h.legCmd hn

theorem mdPlace {o x : Nat} (he : e ≠ d) : SameDomain d s (t.mdPlace e o x) := h.setMd he
theorem mdClear : SameDomain d s (t.mdClear e) := h.legs (LegsActed.refl _).mdClear
theorem mdStart {x : Nat} (he : e ≠ d) : SameDomain d s (t.mdStart e x) :=
  (((h.setF.setF.mdClear.setMd he).mdPlace he)).ifThen fun h => h.setMd he
theorem boundStart {x : Nat} (he : e ≠ d) : SameDomain d s (t.boundStart x e) :=
  h.ifElse fun h => h.setF.setF.setF.ite ((h.mdStart he).legs ((LegsActed.refl _).legsApply domainLegs_lt))

end

end SameDomain

end Sys2Proof.Machine

namespace Sys2Proof.Machine

/-! # Enable and disable of a modulation domain (O39) -/

/-! ## The checks of an enable (R173) -/

theorem nodup_map_iff {α β : Type} {l : List α} (hl : l.Nodup) (f : α → β) :
    ¬ (l.map f).Nodup ↔ ∃ i j, i ∈ l ∧ j ∈ l ∧ i ≠ j ∧ f i = f j := by
  rw [List.nodup_map_iff_inj_on hl]
  constructor
  · intro h
    by_contra hn
    exact h fun i hi j hj he => by_contra fun hne => hn ⟨i, j, hi, hj, hne, he⟩
  · rintro ⟨i, j, hi, hj, hne, he⟩ h
    exact hne (h i hi j hj he)

/-- Within a list of conditions, the one at `k` of their negations is the negation of the one at `k`. -/
theorem getD_map_not {cs : List Prop} {k : Nat} (hk : k < cs.length) :
    (cs.map Not).getD k False = ¬ cs.getD k False := by simp [hk]

section Check

variable (s : State) (d : Fin 8) (period : Nat)

/-- The model's test of the slots, over the legs of the domain. -/
theorem slotsBad_iff : let slots := (s.domainLegs d).map fun n => s.f (F.GATE_CFG_slot n)
    let used := if s.f (F.MOD_CTL_topo d) = 0 then 3 else 6
    (!(if s.f (F.MOD_CTL_topo d) = 2 then !slots.isEmpty else (List.range used).all slots.contains) ||
      !decide slots.Nodup || slots.any (used ≤ ·)) = true ↔ (modFails s d period).getD 1 False := by
  intro slots used
  have hnodup : (s.domainLegs d).Nodup := List.nodup_range.filter _
  have hleg : ∀ k, k ∈ s.domainLegs d ↔
      k < 18 ∧ s.bit (F.GATE_CFG_assigned k) = true ∧ s.f (F.GATE_CFG_md k) = d := fun _ => mem_domainLegs
  have hdup : decide slots.Nodup = false ↔ _ := decide_eq_false_iff_not.trans (nodup_map_iff hnodup _)
  have hmiss : (!if s.f (F.MOD_CTL_topo d) = 2 then !slots.isEmpty else (List.range used).all slots.contains) = true ↔
      (s.f (F.MOD_CTL_topo d) = 2 ∧ ¬ ∃ k, k ∈ s.domainLegs d) ∨
        (s.f (F.MOD_CTL_topo d) ≠ 2 ∧ ∃ j < used, ¬ ∃ k, k ∈ s.domainLegs d ∧ s.f (F.GATE_CFG_slot k) = j) := by
    by_cases h2 : s.f (F.MOD_CTL_topo d) = 2
    · simp [h2, slots, List.eq_nil_iff_forall_not_mem]
    · simp [h2, slots]
  have hover : slots.any (used ≤ ·) = true ↔ ∃ k, k ∈ s.domainLegs d ∧ used ≤ s.f (F.GATE_CFG_slot k) := by
    simp [slots]
  rw [Bool.or_eq_true, Bool.or_eq_true, hmiss, Bool.not_eq_true', hdup, hover]
  simp only [modFails, List.getD_cons_succ, List.getD_cons_zero, hleg, or_assoc]
  rfl

/-- The code of an enable numbers the first of its checks that fails. -/
theorem modCheck_eq_firstFailing : s.modCheck d period = firstFailing ((modFails s d period).map Not) 1 := by
  have hslots := slotsBad_iff s d period
  unfold State.modCheck
  refine ite_eq_firstFailing ?_ <| ite_eq_firstFailing ?_ <| ite_eq_firstFailing ?_ <| ite_eq_firstFailing ?_ <|
    ite_eq_firstFailing ?_ <| ite_eq_firstFailing ?_ <| ite_eq_firstFailing ?_ rfl
  · simp only [Bool.or_eq_true, decide_eq_true_eq, not_not]
  · exact hslots.trans not_not.symm
  · simp only [Bool.or_eq_true, Bool.and_eq_true, decide_eq_true_eq, beq_iff_eq, or_assoc, not_not]
  · exact not_not.symm
  · simp only [Bool.and_eq_true, bne_iff_ne, not_not, reloadCounts]
  · simp only [List.any_eq_true, mem_domainLegs, Bool.and_eq_true, not_not]
    exact exists_congr fun k => and_congr_right' (and_congr_right' decide_eq_true_iff)
  · simp only [Bool.and_eq_true, beq_iff_eq, and_assoc, not_not]

end Check


section Enable

variable {s : State} {d : Fin 8} (hoff : s.bit (F.MOD_CTL_en d) = false)

/-- The period in 4 ns counts that the enable's check 5 takes. -/
def State.enablePeriod (s : State) : Nat := if s.running then s.tm.period else s.f F.TIME_TICK_PERIOD_period_m1 + 1

/-- A domain whose checks have passed: its settings are in force, and its carrier does not run yet. -/
def State.modTaken (s : State) (d : Nat) : State :=
  let u := ((s.setF (F.MOD_STS_error d) 0).takeInForce (R.MOD_CTL d) (R.MOD_CMP d 0)).setF (F.MOD_CTL_en d) 1
  u.setMd d { u.md d with ever := true, due := false, notBefore := 0 }

/-- The same once the carrier has started or waits for the tick (R176). -/
def State.modEntered (s : State) (d : Nat) : State :=
  if !s.bitE (F.MOD_CTL_bind d) then (s.at (s.now / 4 * 4 + 4)).mdStart d (s.now / 4 * 4 + 4)
  else if s.running then s else s.setF (F.MOD_STS_waiting d) 1

include hoff in
theorem modEnable_refused (he : s.modCheck d s.enablePeriod ≠ 0) :
    s.modEnable d = s.setF (F.MOD_STS_error d) (s.modCheck d s.enablePeriod) := by
  unfold State.enablePeriod at he ⊢
  unfold State.modEnable
  rw [if_neg (by simp [hoff])]
  exact if_pos (by simpa using he)

include hoff in
theorem modEnable_accepted (he : s.modCheck d s.enablePeriod = 0) :
    s.modEnable d =
      (((s.modTaken d).modEntered d).modShow d).legsApply (((s.modTaken d).modEntered d).domainLegs d) := by
  unfold State.enablePeriod at he
  unfold State.modEnable
  rw [if_neg (by simp [hoff]), he]
  rfl

theorem fe_congr {s t : State} (h : t.inForce = s.inForce) (x : Fld) : t.fe x = s.fe x := by unfold State.fe; rw [h]

theorem md_setMd_same (s : State) (d : Nat) (x : MdSt) : (s.setMd d x).md d = x := tblGet_set_same _ _ _ _

theorem sameDomain_shown (u : State) : SameDomain d u ((u.modShow d).legsApply (u.domainLegs d)) := by
  have hshow : SameDomain d u (u.modShow d) :=
    (SameDomain.refl u).foldlRange fun _ h => h.setF.setF.setB
  exact hshow.legs ((LegsActed.refl _).legsApply domainLegs_lt)

/-- The settings that an accepted enable takes in force. -/
theorem fe_modTaken (s : State) {a l w : Nat} (hlo : 0x80000 + 0x100 * (d : Nat) ≤ a)
    (hhi : a < 0x80030 + 0x100 * (d : Nat)) (hne : a ≠ 0x80004 + 0x100 * (d : Nat)) :
    (s.modTaken d).fe ⟨a, l, w⟩ = s.f ⟨a, l, w⟩ := by
  let u := s.setF (F.MOD_STS_error d) 0
  have htaken : (s.modTaken d).inForce = (u.takeInForce (R.MOD_CTL d) (R.MOD_CMP d 0)).inForce := rfl
  calc (s.modTaken d).fe ⟨a, l, w⟩
      = u.f ⟨a, l, w⟩ := (fe_congr htaken _).trans (fe_takeInForce (by unfold R.MOD_CTL; omega) (by unfold R.MOD_CMP; omega))
    _ = s.f ⟨a, l, w⟩ := f_setF_elsewhere hne

theorem modTaken_spec (s : State) : let u := s.modTaken d
    u.bit (F.MOD_CTL_en d) = true ∧ u.f (F.MOD_STS_error d) = 0 ∧ (u.md d).ever = true ∧
      (∀ l, l < 2 → u.bit ⟨0x80004 + 0x100 * d, l, 1⟩ = s.bit ⟨0x80004 + 0x100 * d, l, 1⟩) ∧ Keeps s u [8, 9, 0xC] ∧
      u.tm = s.tm ∧ u.running = s.running := by
  intro u
  have hregs : u.regs = (((s.setF (F.MOD_STS_error d) 0).takeInForce (R.MOD_CTL d) (R.MOD_CMP d 0)).setF
    (F.MOD_CTL_en d) 1).regs := rfl
  have hreg : ∀ a, u.reg a = ((s.setF (F.MOD_STS_error d) 0).setF (F.MOD_CTL_en d) 1).reg a := fun a => by
    unfold State.reg; rw [hregs]; rfl
  refine ⟨?_, ?_, ?_, fun l hl => ?_, ?_, rfl, ?_⟩
  · exact (bit_congr (hreg _)).trans (bit_setF_set (show 0 + 1 ≤ 32 by decide) rfl)
  · exact (f_congr (hreg _)).trans ((f_setF_elsewhere (by omega)).trans (f_setF_itself (by decide)))
  · exact congrArg MdSt.ever (md_setMd_same _ _ _)
  · exact (bit_congr (hreg _)).trans ((bit_setF_elsewhere (by omega)).trans (bit_setF_beside (by decide) (by omega)))
  · exact (Keeps.refl s _).setModGate.takeInForce.setModGate.setMd
  · exact (bit_congr (hreg _)).trans ((bit_setF_elsewhere (by omega)).trans (bit_setF_elsewhere (by omega)))

/-- A placed carrier; an event at its position still lies ahead (R176). -/
theorem md_mdPlace (s : State) (o x : Nat) : ((s.mdPlace d o x).md d).ever = (s.md d).ever ∧
    (o = 0 → ((s.mdPlace d o x).md d).up = false ∧ ((s.mdPlace d o x).md d).zero + 2 * s.mdH d = (x : Int)) := by
  unfold State.mdPlace
  dsimp only
  rw [md_setMd_same]
  refine ⟨by split_ifs <;> rfl, fun ho => ?_⟩
  rw [if_pos ho]
  refine ⟨rfl, ?_⟩
  show ((x : Int) - 8 * (s.mdP d : Nat)) + 2 * ((4 * s.mdP d : Nat) : Int) = x
  omega

/-- The carrier of domain `d` held where it stands at `x` in a debug halt (R196). -/
def State.mdHold (p : State) (d x : Nat) : State :=
  if p.halted then p.setMd d { p.md d with held := some ((x : Int) - (p.md d).zero) } else p

/-- From `s` to `t` the carriers alone have changed. -/
structure CarriersMoved (s t : State) : Prop where
  regs : t.regs = s.regs
  inForce : t.inForce = s.inForce
  tm : t.tm = s.tm
  mem : t.mem = s.mem
  pending : t.pending = s.pending

theorem carriersMoved_setMd (s : State) (n : Nat) (x : MdSt) : CarriersMoved s (s.setMd n x) := ⟨rfl, rfl, rfl, rfl, rfl⟩

theorem CarriersMoved.trans {s t u : State} (h : CarriersMoved s t) (h' : CarriersMoved t u) : CarriersMoved s u :=
  ⟨h'.regs.trans h.regs, h'.inForce.trans h.inForce, h'.tm.trans h.tm, h'.mem.trans h.mem, h'.pending.trans h.pending⟩

theorem mdHold_spec (p : State) (n x : Nat) : let u := p.mdHold n x
    CarriersMoved p u ∧ (u.md n).ever = (p.md n).ever ∧ (u.md n).up = (p.md n).up ∧ (u.md n).zero = (p.md n).zero := by
  intro u
  unfold u State.mdHold
  split
  · rw [md_setMd_same]
    exact ⟨carriersMoved_setMd _ _ _, rfl, rfl, rfl⟩
  · exact ⟨⟨rfl, rfl, rfl, rfl, rfl⟩, rfl, rfl, rfl⟩

/-- The carrier of domain `d` set running, its legs' commands cleared; it has no place yet. -/
def State.mdReadied (s : State) (d : Nat) : State :=
  let u := ((s.setF (F.MOD_STS_running d) 1).setF (F.MOD_STS_waiting d) 0).mdClear d
  u.setMd d { u.md d with evLeft := 0, due := false, held := none }

theorem mdReadied_spec (s : State) : let u := s.mdReadied d
    u.mdOn d = true ∧ u.bit (F.MOD_STS_waiting d) = false ∧
      (∀ a, a ≠ R.MOD_STS d → a / 0x10000 ∉ [9, 0xC] → u.reg a = s.reg a) ∧ u.inForce = s.inForce ∧ u.tm = s.tm ∧
      u.f (F.MOD_STS_error d) = s.f (F.MOD_STS_error d) ∧ (u.md d).ever = (s.md d).ever ∧ Keeps s u [8, 9, 0xC] := by
  intro u
  let marked := (s.setF (F.MOD_STS_running d) 1).setF (F.MOD_STS_waiting d) 0
  have hlegs : LegsActed marked (marked.mdClear d) := (LegsActed.refl _).mdClear
  have hmoved : CarriersMoved (marked.mdClear d) u := carriersMoved_setMd _ _ _
  have hreg : ∀ a, a / 0x10000 ∉ [9, 0xC] → u.reg a = marked.reg a := fun a ha => by
    rw [← hlegs.reg a ha]; unfold State.reg; rw [hmoved.regs]
  have hsts : u.reg (0x80004 + 0x100 * d) = marked.reg (0x80004 + 0x100 * d) :=
    hreg _ (below_gate (by omega))
  have hever : ((marked.mdClear d).md d).ever = (s.md d).ever := congrArg MdSt.ever (hlegs.md d)
  refine ⟨?_, ?_, fun a hne ha => ?_, hmoved.inForce.trans (by rw [hlegs.rest]; rfl), hmoved.tm.trans hlegs.tm, ?_, ?_, ?_⟩
  · exact (bit_congr hsts).trans ((bit_setF_beside (by decide) (by decide)).trans
      (bit_setF_set (show 0 + 1 ≤ 32 by decide) rfl))
  · exact (bit_congr hsts).trans (bit_setF_cleared (show 1 + 1 ≤ 32 by decide))
  · exact (hreg a ha).trans ((reg_setF_ne _ _ hne).trans (reg_setF_ne _ _ hne))
  · exact (f_congr hsts).trans ((f_setF_beside (by decide) (by decide)).trans (f_setF_beside (by decide) (by decide)))
  · exact (congrArg MdSt.ever (md_setMd_same _ _ _)).trans hever
  · exact (((Keeps.refl s [8, 9, 0xC]).setModGate.setModGate).trans (hlegs.keeps (by decide) (by decide))).setMd

/-- A carrier that starts at `x` (R176): it runs, and an offset of 0 puts its zero event there. -/
theorem mdStart_spec (s : State) (x : Nat) : let u := s.mdStart d x
    u.mdOn d = true ∧ u.bit (F.MOD_STS_waiting d) = false ∧
      (∀ a, a ≠ R.MOD_STS d → a / 0x10000 ∉ [9, 0xC] → u.reg a = s.reg a) ∧ u.inForce = s.inForce ∧ u.tm = s.tm ∧
      u.f (F.MOD_STS_error d) = s.f (F.MOD_STS_error d) ∧ (u.md d).ever = (s.md d).ever ∧ Keeps s u [8, 9, 0xC] ∧
      (s.fe (F.MOD_PHASE_offset d) = 0 → (u.md d).up = false ∧ (u.md d).zero + 2 * s.mdH d = (x : Int)) := by
  let r := s.mdReadied d
  let placed := r.mdPlace d (r.fe (F.MOD_PHASE_offset d)) x
  obtain ⟨hon, hwaiting, hreg, hforce, htm, herror, hever, hkeeps⟩ := mdReadied_spec (d := d) s
  obtain ⟨hplacedEver, hplaced⟩ := md_mdPlace (d := d) r (r.fe (F.MOD_PHASE_offset d)) x
  obtain ⟨hheld, hheldEver, hup, hzero⟩ := mdHold_spec placed d x
  intro u
  have hu : u = placed.mdHold d x := rfl
  rw [← hu] at hheld hheldEver hup hzero
  have hmoved : CarriersMoved r u := (carriersMoved_setMd r d _).trans hheld
  have hregs : ∀ a, u.reg a = r.reg a := fun a => by unfold State.reg; rw [hmoved.regs]
  have hH : r.mdH d = s.mdH d := congrArg (4 * ·) (fe_congr hforce _)
  refine ⟨(bit_congr (hregs _)).trans hon, (bit_congr (hregs _)).trans hwaiting,
    fun a hne ha => (hregs a).trans (hreg a hne ha), hmoved.inForce.trans hforce, hmoved.tm.trans htm, (f_congr (hregs _)).trans herror,
    (hheldEver.trans hplacedEver).trans hever, hkeeps.copy hmoved.regs hmoved.mem hmoved.pending, fun ho => ?_⟩
  rw [hup, hzero, ← hH]
  exact hplaced ((fe_congr hforce _).trans ho)

end Enable

end Sys2Proof.Machine

namespace Sys2Proof.Machine

/-! ## An accepted enable (R173, R176) -/

section Accepted

variable {d : Fin 8}

/-- What a carrier that starts or waits leaves as the settings taken have it. -/
theorem modEntered_keeps (u : State) : let v := u.modEntered d
    (∀ a, a ≠ R.MOD_STS d → a / 0x10000 ∉ [9, 0xC] → v.reg a = u.reg a) ∧ v.inForce = u.inForce ∧
      v.f (F.MOD_STS_error d) = u.f (F.MOD_STS_error d) ∧ (v.md d).ever = (u.md d).ever ∧ Keeps u v [8, 9, 0xC] := by
  intro v
  unfold v State.modEntered
  split_ifs
  · obtain ⟨-, -, hreg, hforce, -, herror, hever, hkeeps, -⟩ :=
      mdStart_spec (d := d) (u.at (u.now / 4 * 4 + 4)) (u.now / 4 * 4 + 4)
    have hat : SameDomain d u (u.at (u.now / 4 * 4 + 4)) := (SameDomain.refl u).timeAt
    exact ⟨fun a hne ha => (hreg a hne ha).trans (at_reg ..), hforce.trans (by rw [at_eq]), herror.trans (at_f ..),
      hever.trans (congrArg MdSt.ever hat.md), ((Keeps.refl u _).timeAt _).trans hkeeps⟩
  · exact ⟨fun _ _ _ => rfl, rfl, rfl, rfl, Keeps.refl u _⟩
  · exact ⟨fun _ hne _ => reg_setF_ne _ _ hne, rfl, f_setF_beside (by decide) (by decide), rfl, (Keeps.refl u _).setModGate⟩

/-- An unbound carrier starts in the timebase cycle after the write. -/
theorem modEntered_unbound {u : State} (hb : u.bitE (F.MOD_CTL_bind d) = false) : let v := u.modEntered d
    v.mdOn d = true ∧ (u.fe (F.MOD_PHASE_offset d) = 0 →
        (v.md d).up = false ∧ (v.md d).zero + 2 * u.mdH d = ((u.now / 4 * 4 + 4 : Nat) : Int)) ∧
      (u.tm.holdLag = none → v.tm = { u.tm with now := u.now / 4 * 4 + 4 }) := by
  intro v
  have hv : v = (u.at (u.now / 4 * 4 + 4)).mdStart d (u.now / 4 * 4 + 4) := if_pos (by simp [hb])
  obtain ⟨hon, -, -, -, htm, -, -, -, hplaced⟩ := mdStart_spec (d := d) (u.at (u.now / 4 * 4 + 4)) (u.now / 4 * 4 + 4)
  have hforce : (u.at (u.now / 4 * 4 + 4)).inForce = u.inForce := by rw [at_eq]
  have hH : (u.at (u.now / 4 * 4 + 4)).mdH d = u.mdH d := congrArg (4 * ·) (fe_congr hforce _)
  rw [← hv, hH] at hplaced
  rw [← hv] at hon htm
  refine ⟨hon, fun ho => hplaced ((fe_congr hforce _).trans ho), fun hl => ?_⟩
  have hlater : max u.tm.now (u.now / 4 * 4 + 4) = u.now / 4 * 4 + 4 := by unfold State.now; omega
  rw [htm, at_of_running hl, hlater]

/-- A bound one waits for the tick, and with the tick running for its next start. -/
theorem modEntered_bound {u : State} (hb : u.bitE (F.MOD_CTL_bind d) = true) : let v := u.modEntered d
    v.tm = u.tm ∧ v.mdOn d = u.mdOn d ∧ (u.running = false → v.bit (F.MOD_STS_waiting d) = true) ∧
      (u.running = true → v.bit (F.MOD_STS_waiting d) = u.bit (F.MOD_STS_waiting d)) := by
  intro v
  have hv : v = if u.running then u else u.setF (F.MOD_STS_waiting d) 1 := if_neg (by simp [hb])
  rw [hv]
  split_ifs with hrun
  · exact ⟨rfl, rfl, fun h => absurd (h.symm.trans hrun) Bool.false_ne_true, fun _ => rfl⟩
  · exact ⟨rfl, bit_setF_beside (by decide) (by decide), fun _ => bit_setF_set (show 1 + 1 ≤ 32 by decide) rfl,
      fun h => absurd h hrun⟩

variable {s : State}

/-- An accepted enable takes the settings in force, and its carrier starts or waits. -/
theorem modEnable_spec (hoff : s.bit (F.MOD_CTL_en d) = false) (he : s.modCheck d s.enablePeriod = 0) :
    let t := s.modEnable d
    t.bit (F.MOD_CTL_en d) = true ∧ t.f (F.MOD_STS_error d) = 0 ∧ t.topo d = some (s.f (F.MOD_CTL_topo d)) ∧
      t.bridge d = some (s.f (F.MOD_CTL_bridge d)) ∧ t.mdP d = s.f (F.MOD_PERIOD_half d) ∧
      (s.bit (F.MOD_CTL_bind d) = false → t.mdOn d = true ∧
        (s.f (F.MOD_PHASE_offset d) = 0 → (t.md d).up = false ∧
          (t.md d).zero + 2 * t.mdH d = ((s.now / 4 * 4 + 4 : Nat) : Int))) ∧
      (s.bit (F.MOD_CTL_bind d) = true → t.tm = s.tm ∧ t.mdOn d = s.mdOn d ∧
        (s.running = false → t.bit (F.MOD_STS_waiting d) = true) ∧
        (s.running = true → t.bit (F.MOD_STS_waiting d) = s.bit (F.MOD_STS_waiting d))) ∧
      (s.bit (F.MOD_CTL_bind d) = false → s.tm.holdLag = none → t.tm = { s.tm with now := s.now / 4 * 4 + 4 }) ∧
      Keeps s t [8, 9, 0xC] := by
  let u := s.modTaken d
  let v := u.modEntered d
  intro t
  have ht : t = (v.modShow d).legsApply (v.domainLegs d) := modEnable_accepted hoff he
  obtain ⟨hen, herror, hever, hsts, hkeeps, htm, hrun⟩ := modTaken_spec (d := d) s
  obtain ⟨hreg, hforce, herror', hever', hkeeps'⟩ := modEntered_keeps (d := d) u
  have hshown : SameDomain d v t := by rw [ht]; exact sameDomain_shown v
  have hclock : t.tm = v.tm := by rw [ht]; exact ((SameClock.refl v).modShow.legsApply).tm
  have hset : Keeps v t [8, 9, 0xC] := by
    rw [ht]
    exact (Keeps.refl v _).modShow.trans (((LegsActed.refl _).legsApply domainLegs_lt).keeps (by decide) (by decide))
  have hvt : ∀ {l w : Nat}, t.f ⟨0x80004 + 0x100 * d, l, w⟩ = v.f ⟨0x80004 + 0x100 * d, l, w⟩ := fun {l w} =>
    f_congr (hshown.reg (0x80004 + 0x100 * d) (by omega) (by omega))
  have hbt : ∀ {l w : Nat}, t.bit ⟨0x80004 + 0x100 * d, l, w⟩ = v.bit ⟨0x80004 + 0x100 * d, l, w⟩ := fun {l w} =>
    bit_congr (hshown.reg (0x80004 + 0x100 * d) (by omega) (by omega))
  have hctl : t.reg (0x80000 + 0x100 * d) = u.reg (0x80000 + 0x100 * d) :=
    (hshown.reg _ (by omega) (by omega)).trans
      (hreg _ (by unfold R.MOD_STS; omega) (below_gate (by omega)))
  have hfe : ∀ {a l w : Nat}, 0x80000 + 0x100 * (d : Nat) ≤ a → a < 0x80030 + 0x100 * (d : Nat) →
      a ≠ 0x80004 + 0x100 * (d : Nat) → t.fe ⟨a, l, w⟩ = s.f ⟨a, l, w⟩ := fun {a l w} hlo hhi hne =>
    calc t.fe ⟨a, l, w⟩ = v.fe ⟨a, l, w⟩ := congrArg (getBits · l w) (hshown.inForce a hlo (by omega))
      _ = u.fe ⟨a, l, w⟩ := fe_congr hforce _
      _ = s.f ⟨a, l, w⟩ := fe_modTaken s hlo hhi hne
  have hdone : (t.md d).ever = true := (congrArg MdSt.ever hshown.md).trans (hever'.trans hever)
  have hbind : u.bitE (F.MOD_CTL_bind d) = s.bit (F.MOD_CTL_bind d) :=
    congrArg (· != 0) (fe_modTaken s (by omega) (by omega) (by omega))
  have hoffset : u.fe (F.MOD_PHASE_offset d) = s.f (F.MOD_PHASE_offset d) :=
    fe_modTaken s (by omega) (by omega) (by omega)
  have hnow : u.now = s.now := congrArg TimeSt.now htm
  have hH : t.mdH d = u.mdH d := congrArg (4 * ·) ((hfe (by omega) (by omega) (by omega)).trans
    (fe_modTaken s (by omega) (by omega) (by omega)).symm)
  refine ⟨(bit_congr hctl).trans hen, (hvt.trans herror').trans herror,
    (if_pos hdone).trans (congrArg some (hfe (by omega) (by omega) (by omega))),
    (if_pos hdone).trans (congrArg some (hfe (by omega) (by omega) (by omega))),
    hfe (by omega) (by omega) (by omega), fun hb => ?_, fun hb => ?_, fun hb hl => ?_, (hkeeps.trans hkeeps').trans hset⟩
  · obtain ⟨hon, hplaced, -⟩ := modEntered_unbound (hbind.trans hb)
    refine ⟨hbt.trans hon, fun ho => ?_⟩
    rw [hshown.md, hH, ← hnow]
    exact hplaced (hoffset.trans ho)
  · obtain ⟨htm', hon, hstopped, hrunning⟩ := modEntered_bound (hbind.trans hb)
    exact ⟨hclock.trans (htm'.trans htm), hbt.trans (hon.trans (hsts 0 (by decide))),
      fun h => hbt.trans (hstopped (hrun.trans h)),
      fun h => (hbt.trans (hrunning (hrun.trans h))).trans (hsts 1 (by decide))⟩
  · obtain ⟨-, -, htm'⟩ := modEntered_unbound (hbind.trans hb)
    rw [hclock, htm' ((congrArg TimeSt.holdLag htm).trans hl), htm, hnow]

end Accepted

end Sys2Proof.Machine

namespace Sys2Proof.Machine

/-! ## A tick start (R176) -/

section TickStart

variable {d : Fin 8}

/-- The reload period of domain `d` divides the tick: what check 5 of R173 asks, of the settings in force. -/
def State.reloadFits (s : State) (d : Nat) : Prop :=
  s.tm.period % reloadCounts (s.mdP d) (s.fe (F.MOD_RELOAD_n_m1 d)) (s.fe (F.MOD_RELOAD_evt d)) = 0

/-- A bound domain whose carrier does not run, and so starts at the next tick start or is refused there. -/
structure AwaitsTick (d : Fin 8) (s : State) : Prop where
  enabled : s.bit (F.MOD_CTL_en d) = true
  bound : s.bitE (F.MOD_CTL_bind d) = true
  still : s.mdOn d = false

namespace SameDomain

variable {s t : State} (h : SameDomain d s t)
include h

theorem bitSts {l w : Nat} : t.bit ⟨0x80004 + 0x100 * d, l, w⟩ = s.bit ⟨0x80004 + 0x100 * d, l, w⟩ :=
  bit_congr (h.reg (0x80004 + 0x100 * d) (by omega) (by omega))

theorem fSts {l w : Nat} : t.f ⟨0x80004 + 0x100 * d, l, w⟩ = s.f ⟨0x80004 + 0x100 * d, l, w⟩ :=
  f_congr (h.reg (0x80004 + 0x100 * d) (by omega) (by omega))

theorem bitCtl {l w : Nat} : t.bit ⟨0x80000 + 0x100 * d, l, w⟩ = s.bit ⟨0x80000 + 0x100 * d, l, w⟩ :=
  bit_congr (h.reg (0x80000 + 0x100 * d) (by omega) (by omega))

/-- A setting in force. -/
theorem fe {a l w : Nat} (hlo : 0x80000 + 0x100 * (d : Nat) ≤ a := by omega)
    (hhi : a < 0x80050 + 0x100 * (d : Nat) := by omega) : t.fe ⟨a, l, w⟩ = s.fe ⟨a, l, w⟩ :=
  congrArg (getBits · l w) (h.inForce a hlo hhi)

theorem mdH : t.mdH d = s.mdH d := congrArg (4 * ·) h.fe

theorem awaitsTick (ha : AwaitsTick d s) : AwaitsTick d t :=
  ⟨h.bitCtl.trans ha.enabled, (congrArg (· != 0) h.fe).trans ha.bound, h.bitSts.trans ha.still⟩

theorem reloadFits (hp : t.tm.period = s.tm.period) : t.reloadFits d ↔ s.reloadFits d := by
  unfold State.reloadFits
  rw [hp, show t.mdP d = s.mdP d from h.fe, h.fe (a := 0x8000C + 0x100 * d), h.fe (a := 0x8000C + 0x100 * d)]

end SameDomain

/-- A domain that awaits the tick starts with it, unless it waited and its reload period no longer divides the tick. -/
theorem boundStart_starts {s : State} (x : Nat) (ha : AwaitsTick d s)
    (hfits : s.bit (F.MOD_STS_waiting d) = false ∨ s.reloadFits d) : let t := s.boundStart x d
    t.mdOn d = true ∧ t.bit (F.MOD_STS_waiting d) = false ∧
      (s.fe (F.MOD_PHASE_offset d) = 0 → (t.md d).up = false ∧ (t.md d).zero + 2 * s.mdH d = (x : Int)) := by
  obtain ⟨hen, hbound, hstill⟩ := ha
  obtain ⟨hon, hwaiting, -, -, -, -, -, -, hplaced⟩ := mdStart_spec (d := d) s x
  intro t
  have ht : t = (s.mdStart d x).legsApply (s.domainLegs d) := by
    unfold t State.boundStart
    rw [if_neg (by simp [hen, hbound, hstill])]
    refine if_neg fun hbad => ?_
    obtain ⟨hw, hnot⟩ := (Bool.and_eq_true _ _).mp hbad
    exact hfits.elim (fun h => absurd (h.symm.trans hw) Bool.false_ne_true) fun h => (bne_iff_ne.1 hnot) h
  have hsame : SameDomain d (s.mdStart d x) t := by
    rw [ht]
    exact SameDomain.ofLegs ((LegsActed.refl _).legsApply domainLegs_lt)
  rw [← hsame.md] at hplaced
  exact ⟨hsame.bitSts.trans hon, hsame.bitSts.trans hwaiting, hplaced⟩

theorem boundStart_refuses {s : State} (x : Nat) (ha : AwaitsTick d s) (hw : s.bit (F.MOD_STS_waiting d) = true)
    (hfits : ¬ s.reloadFits d) : let t := s.boundStart x d
    t.mdOn d = false ∧ t.bit (F.MOD_CTL_en d) = false ∧ t.bit (F.MOD_STS_waiting d) = false ∧
      t.f (F.MOD_STS_error d) = 5 := by
  obtain ⟨hen, hbound, hstill⟩ := ha
  intro t
  have ht : t = ((s.setF (F.MOD_CTL_en d) 0).setF (F.MOD_STS_waiting d) 0).setF (F.MOD_STS_error d) 5 := by
    unfold t State.boundStart
    rw [if_neg (by simp [hen, hbound, hstill])]
    exact if_pos ((Bool.and_eq_true _ _).mpr ⟨hw, bne_iff_ne.2 hfits⟩)
  rw [ht]
  refine ⟨?_, ?_, ?_, f_setF_read (show 2 + 4 ≤ 32 by decide)⟩
  · exact (bit_setF_beside (by decide) (by decide)).trans ((bit_setF_beside (by decide) (by decide)).trans
      ((bit_setF_elsewhere (by omega)).trans hstill))
  · exact (bit_setF_elsewhere (by omega)).trans ((bit_setF_elsewhere (by omega)).trans
      (bit_setF_cleared (show 0 + 1 ≤ 32 by decide)))
  · exact (bit_setF_beside (by decide) (by decide)).trans (bit_setF_cleared (show 1 + 1 ≤ 32 by decide))

/-- What a tick start latches ahead of the domains. -/
def State.latchedAhead (s : State) (x : Nat) : State :=
  let u := (List.range 40).foldl State.sdOutput s
  let u := { u with sns := { u.sns with sampleAt := x, ainPrior := u.sns.ainBg, ainNow := [], ainBg := [] } }
  let u := ((u.sdcRestart x).kynSample).engTick
  let u := (List.range 8).foldl State.obsPredict u
  let u := (List.range 8).foldl State.ssiTick u
  (List.range 8).foldl State.pulseSample u

theorem sameDomain_latchedAhead (s : State) (x : Nat) : SameDomain d s (s.latchedAhead x) := by
  have hsampled : SameDomain d s ((List.range 40).foldl State.sdOutput s) :=
    (SameDomain.refl s).foldlRange fun hn h => h.sdOutput hn
  exact ((hsampled.sns.sdcRestart.kynSample.engTick.foldl fun _ h => h.obsPredict).foldl fun _ h => h.ssiTick).foldlRange
    fun hn h => h.pulseSample hn

theorem sameClock_latchedAhead (s : State) (x : Nat) : SameClock s (s.latchedAhead x) := by
  have hsampled : SameClock s ((List.range 40).foldl State.sdOutput s) := (SameClock.refl s).foldl (·.sdOutput)
  exact ((hsampled.sns.sdcRestart.kynSample.engTick.foldl (·.obsPredict)).foldl (·.ssiTick)).foldl (·.pulseSample)

/-- Among the domains that a tick starts, `d` meets its own settings, and the others leave what becomes of it. -/
theorem boundStarts_split (s : State) (x : Nat) : ∃ u, SameDomain d s u ∧ SameClock s u ∧
    SameDomain d (u.boundStart x d) ((List.range 8).foldl (State.boundStart x) s) := by
  obtain ⟨before, after, hsplit⟩ := List.append_of_mem (List.mem_range.2 d.isLt)
  have hnodup : (before ++ (d : Nat) :: after).Nodup := hsplit ▸ List.nodup_range
  have hbefore : (d : Nat) ∉ before := fun hd => (List.nodup_append.1 hnodup).2.2 _ hd _ List.mem_cons_self rfl
  have hafter : (d : Nat) ∉ after := (List.nodup_cons.1 (List.nodup_append.1 hnodup).2.1).1
  refine ⟨before.foldl (State.boundStart x) s, (SameDomain.refl s).foldl fun hn h => h.boundStart fun he => hbefore (he ▸ hn),
    (SameClock.refl s).foldl (·.boundStart), ?_⟩
  rw [hsplit, List.foldl_append, List.foldl_cons]
  exact (SameDomain.refl _).foldl fun hn h => h.boundStart fun he => hafter (he ▸ hn)

theorem at_period (s : State) (x : Nat) : (s.at x).tm.period = s.tm.period := by
  unfold State.at
  split <;> rfl

/-- A tick start as domain `d` sees it. -/
theorem samplePoint_split {s : State} (hh : s.halted = false) (hrun : s.running = true) (hp : s.tm.phase = 3)
    (hs : s.tm.stopping = false) : let x := s.tm.start + s.periodNs
    s.samplePoint.tm.start = x ∧ ∃ u, SameDomain d s u ∧ u.tm.period = s.tm.period ∧
      SameDomain d (u.boundStart x d) s.samplePoint := by
  intro x
  have he : SameClock s s.engEnd := (SameClock.refl s).engEnd
  let counted := s.engEnd.incWrap F.TIME_TICK_COUNT_count
  let begun : State := { counted.at x with tm := { (counted.at x).tm with start := x, phase := 1 } }
  have hdue : s.engEnd.tickDue = some (x, counted) := by
    simp [State.tickDue, he.running, he.tm, hrun, hp, hs, State.periodNs, x, counted]
  have ht : s.samplePoint = begun.latchAll x := by simp [begun, State.samplePoint, hh, hrun, hp, hs, hdue]
  have hbegun : SameDomain d s begun := ((SameDomain.refl s).engEnd.incWrap).timeAt.setTm
  obtain ⟨u, hsame, hclock, hstarted⟩ := boundStarts_split (d := d) (begun.latchedAhead x) x
  have hperiod : u.tm.period = s.tm.period := by
    rw [hclock.tm, (sameClock_latchedAhead begun x).tm]
    exact (at_period counted x).trans (congrArg TimeSt.period he.tm)
  rw [ht]
  exact ⟨congrArg TimeSt.start (SameClock.refl begun).latchAll.tm, u,
    (hbegun.trans (sameDomain_latchedAhead begun x)).trans hsame, hperiod, hstarted.freeLegs⟩

end TickStart

/-! ## A disable (R176) -/

/-- The carrier of domain `d` stopped; its legs still have their commands. -/
def State.mdStopped (s : State) (d : Nat) : State :=
  let u := (s.setF (F.MOD_STS_running d) 0).setF (F.MOD_STS_waiting d) 0
  u.setMd d { u.md d with due := false, held := none }

theorem legsActed_mdHalt (s : State) (d : Nat) : LegsActed (s.mdStopped d) (s.mdHalt d) := by
  have hclear : LegsActed (s.mdStopped d) ((s.mdStopped d).mdClear d) := (LegsActed.refl _).mdClear
  exact hclear.legsApply domainLegs_lt

/-- A carrier that stops. -/
theorem mdHalt_spec (s : State) (d : Fin 8) : let t := s.mdHalt d
    t.mdOn d = false ∧ t.bit (F.MOD_STS_waiting d) = false ∧ t.reg (R.MOD_CTL d) = s.reg (R.MOD_CTL d) ∧
      Keeps s t [8, 9, 0xC] ∧ t.tm = s.tm := by
  let marked := (s.setF (F.MOD_STS_running d) 0).setF (F.MOD_STS_waiting d) 0
  intro t
  have hlegs : LegsActed (s.mdStopped d) t := legsActed_mdHalt s d
  have hmoved : CarriersMoved marked (s.mdStopped d) := carriersMoved_setMd _ _ _
  have hreg : ∀ a, a / 0x10000 ∉ [9, 0xC] → t.reg a = marked.reg a := fun a ha =>
    (hlegs.reg a ha).trans (by unfold State.reg; rw [hmoved.regs])
  have hsts : t.reg (0x80004 + 0x100 * d) = marked.reg (0x80004 + 0x100 * d) :=
    hreg _ (below_gate (by omega))
  refine ⟨?_, ?_, ?_, ?_, hlegs.tm.trans hmoved.tm⟩
  · exact (bit_congr hsts).trans ((bit_setF_beside (by decide) (by decide)).trans
      (bit_setF_cleared (show 0 + 1 ≤ 32 by decide)))
  · exact (bit_congr hsts).trans (bit_setF_cleared (show 1 + 1 ≤ 32 by decide))
  · have hctl : t.reg (R.MOD_CTL d) = marked.reg (R.MOD_CTL d) :=
      hreg _ (below_gate (by unfold R.MOD_CTL; omega))
    have hne : R.MOD_CTL d ≠ R.MOD_STS d := by unfold R.MOD_CTL R.MOD_STS; omega
    exact hctl.trans ((reg_setF_ne _ _ hne).trans (reg_setF_ne _ _ hne))
  · exact ((Keeps.refl s [8, 9, 0xC]).setModGate.setModGate.setMd).trans (hlegs.keeps (by decide) (by decide))

theorem modDisable_spec (s : State) (d : Fin 8) : let t := s.modDisable d
    t.bit (F.MOD_CTL_en d) = false ∧ t.mdOn d = false ∧ t.bit (F.MOD_STS_waiting d) = false ∧ Keeps s t [8, 9, 0xC] ∧
      t.tm = s.tm := by
  obtain ⟨hon, hwaiting, hctl, hkeeps, htm⟩ := mdHalt_spec (s.setF (F.MOD_CTL_en d) 0) d
  exact ⟨(bit_congr hctl).trans (bit_setF_cleared (show 0 + 1 ≤ 32 by decide)), hon, hwaiting,
    (Keeps.refl s [8, 9, 0xC]).setModGate.trans hkeeps, htm⟩

/-- Settles O39: an enable takes its checks in order (`modCheck_eq_firstFailing`), and an accepted one starts the carrier or
lets it wait (`modEnable_spec`). What else a tick start does leaves the domain alone (`samplePoint_split`), so that what becomes
of a waiting domain is what `boundStart` makes of it. -/
theorem domainEnable : Obligations.DomainEnable := by
  intro s d hm period fails
  have hcheck : s.modCheck d s.enablePeriod = firstFailing (fails.map Not) 1 := modCheck_eq_firstFailing s d _
  refine ⟨fun hon => ?_, fun hoff => ⟨fun k hk hlt hf => ?_, fun hpass => ?_⟩, fun hrun hp hs hh hen hbound hstill => ?_, ?_⟩
  · exact (onMain_run (fun s => s.modEnable d) hm).trans (congrArg _ (if_pos hon))
  · have hlen : k < fails.length := hk
    have hcode : s.modCheck d s.enablePeriod = k + 1 := by
      rw [hcheck, firstFailing_of_fails (fails.map Not) 1 k (by rwa [List.length_map])
        (fun j hj => by rw [getD_map_not (hj.trans hlen)]; exact hlt j hj)
        (by rw [getD_map_not hlen]; exact not_not.2 hf), Nat.add_comm]
    refine (onMain_run (fun s => s.modEnable d) hm).trans (congrArg _ ?_)
    rw [modEnable_refused hoff (by omega), hcode]
  · have hcode : s.modCheck d s.enablePeriod = 0 :=
      hcheck.trans (firstFailing_of_passes _ 1 fun k hk => by
        rw [List.length_map] at hk
        rw [getD_map_not hk]
        exact hpass k hk)
    exact ⟨_, onMain_run (fun s => s.modEnable d) hm, modEnable_spec hoff hcode⟩
  · intro evt n fits
    have ha : AwaitsTick d s := ⟨hen, hbound, hstill⟩
    obtain ⟨hstart, u, hsame, hperiod, hafter⟩ := samplePoint_split (d := d) hh hrun hp hs
    have hfits : u.reloadFits d ↔ fits := hsame.reloadFits hperiod
    refine ⟨fun hgo => ?_, fun hw hno => ?_⟩
    · obtain ⟨hon, hwaiting, hplaced⟩ := boundStart_starts (s.tm.start + s.periodNs) (hsame.awaitsTick ha)
        (hgo.imp hsame.bitSts.trans hfits.2)
      rw [← hafter.md, hsame.mdH, ← hstart] at hplaced
      exact ⟨_, onMain_run State.samplePoint hm, hstart, hafter.bitSts.trans hon, hafter.bitSts.trans hwaiting,
        fun ho => hplaced (hsame.fe.trans ho)⟩
    · obtain ⟨hon, hoff, hwaiting, herror⟩ := boundStart_refuses (s.tm.start + s.periodNs) (hsame.awaitsTick ha)
        (hsame.bitSts.trans hw) (hfits.not.2 hno)
      exact ⟨_, onMain_run State.samplePoint hm, hafter.bitSts.trans hon, hafter.bitCtl.trans hoff,
        hafter.bitSts.trans hwaiting, hafter.fSts.trans herror⟩
  · exact ⟨_, onMain_run (fun s => s.modDisable d) hm, modDisable_spec s d⟩

end Sys2Proof.Machine

/-! # Duties and compares (O40) -/

namespace Sys2Proof.Machine

/-- A quotient by 2^15 rounds to a nearest integer, and on a tie to the even one. -/
theorem roundEven_spec (n : Int) : 2 * (roundEven n 32768 * 32768 - n).natAbs ≤ 32768 ∧
    (2 * (roundEven n 32768 * 32768 - n).natAbs = 32768 → roundEven n 32768 % 2 = 0) := by
  unfold roundEven
  dsimp only
  split_ifs <;> omega

/-- The rounded compare of a duty inside the range stays within the half period. -/
theorem roundEven_duty_range {x : Int} {h : Nat} (hx : 0 < x) (hx' : x ≤ 32766) :
    0 ≤ roundEven (x * h) 32768 ∧ roundEven (x * h) 32768 ≤ h := by
  obtain ⟨hnear, -⟩ := roundEven_spec (x * h)
  have hlo : 0 ≤ x * (h : Int) := mul_nonneg hx.le (Int.natCast_nonneg h)
  have hhi : x * (h : Int) ≤ 32766 * h := mul_le_mul_of_nonneg_right hx' (Int.natCast_nonneg h)
  omega

theorem dutyCmp_of_nonpos {x : Int} (h : Nat) (hx : x ≤ 0) : dutyCmp x h = 0 := if_pos hx

theorem dutyCmp_full (h : Nat) : dutyCmp 0x7FFF h = h := rfl

theorem dutyCmp_inside {x : Int} {h : Nat} (hx : 0 < x) (hx' : x ≤ 32766) :
    (dutyCmp x h : Int) = roundEven (x * h) 32768 := by
  obtain ⟨hnonneg, -⟩ := roundEven_duty_range (h := h) hx hx'
  unfold dutyCmp
  rw [if_neg (by omega), if_neg (by omega), Int.toNat_of_nonneg hnonneg]

theorem toInt_eq_full_iff (r : BitVec 16) : r = 0x7FFF ↔ r.toInt = 0x7FFF :=
  (BitVec.toInt_inj (x := r) (y := 0x7FFF)).symm

/-- The outer duty follows the upper half of the range, the inner one the lower half (R178). -/
theorem npc_duties {x : Int} (hx : x ≤ 32767) :
    0 ≤ npcOuter x ∧ npcOuter x ≤ npcInner x ∧ (0 < npcOuter x → npcInner x = 32767) := by
  unfold npcOuter npcInner
  split_ifs <;> omega

/-- Settles O40: below full scale the compare is the rounded product, and the two NPC duties share the range. -/
theorem dutyToCompare : Obligations.DutyToCompare := by
  intro r p _ _ h x
  have hle : x ≤ 32767 := by have := BitVec.toInt_lt (x := r); omega
  have hfull : r = 0x7FFF ↔ x = 0x7FFF := toInt_eq_full_iff r
  refine ⟨dutyCmp_of_nonpos h, fun hr => ?_, fun hx hne => ?_, ?_, rfl, npc_duties hle⟩
  · rw [hfull.1 hr]
    exact dutyCmp_full h
  · have hx' : x ≤ 32766 := by omega
    obtain ⟨-, hrange⟩ := roundEven_duty_range (h := h) hx hx'
    obtain ⟨hnear, htie⟩ := roundEven_spec (x * h)
    have hcmp : (dutyCmp x h : Int) = roundEven (x * h) 32768 := dutyCmp_inside hx hx'
    rw [← hcmp] at hnear htie hrange
    exact ⟨by omega, hnear, fun ht => by have := htie ht; omega⟩
  · unfold npcOuter
    simp only [hfull]

end Sys2Proof.Machine

/-! # A reload that a debug halt keeps waiting (O41)

No reload event occurs in a debug halt (R196), so a host write that meets one leaves it due. The clause on host writes wants the
reload taken in a halt too. -/

namespace Sys2Proof.Machine

/-- Domain 7, whose carrier runs, in a debug halt with a reload due. -/
def dueInHalt : State :=
  { State.reset.setF (F.MOD_STS_running 7) 1 with eng := { haltAt := some 0 }, mds := [(7, { due := true })] }

theorem exec_dutyHostWrite {s : State} (hm : s.pwr.mainRst = false) (d : Fin 8) (v : BitVec 20) :
    Machine.exec (.dutyHostWrite d 0 v) s =
      .next (s.refHostWrite d (R.MOD_DUTY d 0) ((v.setWidth 16).setWidth 32)) :=
  onMain_run (fun s => s.refHostWrite d (R.MOD_DUTY d 0) ((v.setWidth 16).setWidth 32)) hm

/-- The write leaves the reload due. -/
theorem due_refHostWrite_dueInHalt : ((dueInHalt.refHostWrite 7 (R.MOD_DUTY 7 0) 0).md 7).due = true := by decide +kernel

theorem not_referenceWrites : ¬ referenceWrites := by
  intro h
  obtain ⟨hwrite, -⟩ := h dueInHalt 7 rfl
  obtain ⟨t, ht, -, hdue, -⟩ := hwrite 0 0 (by decide +kernel) (.inl (by decide +kernel)) (by decide +kernel)
  rw [exec_dutyHostWrite rfl] at ht
  rw [← Host.Outcome.next.inj ht] at hdue
  exact absurd (due_refHostWrite_dueInHalt.symm.trans hdue) (by decide)

/-- Refutes O41 at host writes (R180, R196): in a debug halt the reload of the same cycle does not come first, and the clause,
which does not ask whether a halt holds, wants it over after the write. -/
theorem not_carrierAndReload : ¬ Obligations.CarrierAndReload := fun h => not_referenceWrites h.2

end Sys2Proof.Machine

/-! # A refresh that begins while the interlock holds GL (O42)

A refresh lasts for its width from the turn-on of GL, which the clause on BOOTSTRAP_REFRESH takes to be td_eff away. Where GL
asks for on already and only the interlock of R188 held it, it turns on with GH's turn-off. -/

namespace Sys2Proof.Machine

/-- Leg 17 in no domain, on a BOOTSTRAP supply and due for a refresh, in a conflict of R188: both switches ask for on, and the
interlock holds both outputs off. -/
def bothAsk : State :=
  { ([(F.GATE_CFG_supply 17, 1), (F.GATE_STS_enabled 17, 1)] : List (Fld × Nat)).foldl (fun s e => s.setF e.1 e.2)
      State.reset with
    gateNet := true
    legs := [(17, { gh := true, gl := true, lock := true, refCnt := 16, period := some 0 })] }

theorem exec_bootstrapRefresh {s : State} (hm : s.pwr.mainRst = false) (n : Fin 18) :
    Machine.exec (.bootstrapRefresh n) s = .next (s.refreshStart n) := onMain_run (fun s => s.refreshStart n) hm

/-- The refresh ends its width of 500 ns after the present instant, 0: GL has turned on at once. -/
theorem refUntil_refreshStart_bothAsk : ((bothAsk.refreshStart 17).leg 17).refUntil = some 500 := by decide +kernel

/-- The clause wants the dead time of 1,000 ns before that. -/
theorem refreshEnd_wanted_bothAsk : bothAsk.now + bothAsk.tdEff 17 + bothAsk.fe (F.GATE_BOOT_width 17) = 1500 := by
  decide +kernel

theorem not_legOrders : ¬ legOrders := by
  intro h
  obtain ⟨-, -, -, -, -, -, -, hboot⟩ := h bothAsk 17 rfl
  obtain ⟨t, ht, hend, -⟩ := hboot (by decide +kernel) (by decide +kernel) rfl (by decide +kernel) rfl rfl
  rw [exec_bootstrapRefresh rfl] at ht
  rw [← Host.Outcome.next.inj ht] at hend
  have hwant := hend.trans (congrArg some refreshEnd_wanted_bothAsk)
  exact absurd (refUntil_refreshStart_bothAsk.symm.trans hwant) (by decide)

/-- Refutes O42 at BOOTSTRAP_REFRESH (R188, R192): out of a conflict that the interlock holds, GL turns on with the refresh and
not td_eff after it. The clause quantifies over every state; R188 knows of no source of a conflict. -/
theorem not_legCommands : ¬ Obligations.LegCommands := fun h => not_legOrders h.1

end Sys2Proof.Machine

/-! # A decision on a counter that is held (O49)

A follower whose tick is stopped may hold its counter (R37). A decision of the choppers on the idle cycle then still bears the
held instant, and the clause wants it 100 ns later. -/

namespace Sys2Proof.Machine

/-- A follower whose tick is stopped, and whose counter stands 50 ns before chopper 3 has been on for 2 ms. The DC link of its
converter has risen since. -/
def heldFollower : State :=
  { (([(F.SNS_SAR_CTL_en, 1), (F.SNS_SAR_SEQ_en0 0, 1), (F.SNS_AIN_CFG_role 0, 1), (F.SNS_AIN_SCALE_gain 0, 0x3F800000),
      (F.SNS_AIN_RES_code 0, 0xC000), (F.SNS_AIN_RES_valid 0, 1), (F.PROT_CHP_CFG_en 3, 1), (F.PROT_CV_CTL_en 0, 1),
      (F.PROT_CHP_STS_on 3, 1)] : List (Fld × Nat)).foldl (fun s e => s.setF e.1 e.2) State.reset).takeInForce 0x60000 0x70000
    with
    gateNet := true
    tm := { State.reset.tm with now := 1999950, holdLag := some 1000 } }

/-- A decision of the choppers and the governor while the tick is stopped (R272). -/
def State.idleDecision (s : State) : State :=
  let decided := (List.range 4).foldl State.chopDecide (s.at (s.now + 100))
  (List.range 8).foldl (State.governFaults false) ((List.range 8).foldl (fun s k => s.govern k (s.convVdc k)) decided)

theorem exec_governorIdleDecision {s : State} (hm : s.pwr.mainRst = false) (hrun : s.running = false) :
    Machine.exec .governorIdleDecision s = .next s.idleDecision :=
  (onMain_run (fun s => if s.running then s else s.idleDecision) hm).trans
    (congrArg Host.Outcome.next (if_neg (ne_true_of_eq_false hrun)))

/-- At the held instant the effectiveness check of R274 is not due. -/
theorem fault_idleDecision_heldFollower : heldFollower.idleDecision.bit (F.PROT_CHP_STS_fault 3) = false := by decide +kernel

theorem not_choppers : ¬ choppers := by
  intro h
  obtain ⟨-, -, hidle, -⟩ := h heldFollower rfl
  obtain ⟨t, ht, -, -, hweak, -⟩ := hidle (by decide +kernel) rfl 3 (by decide)
  rw [exec_governorIdleDecision rfl (by decide +kernel)] at ht
  obtain ⟨hfault, -⟩ := hweak (by decide +kernel) (by decide +kernel) (by decide +kernel)
  rw [← Host.Outcome.next.inj ht] at hfault
  exact absurd (fault_idleDecision_heldFollower.symm.trans hfault) (by decide)

/-- Refutes O49 at the idle cycle's chopper decision (R37, R272, R274): while a follower holds its counter no time passes, and the
clause, which does not ask whether it does, wants the check of R274 that would be due 100 ns later. -/
theorem not_choppersAndDiagnosis : ¬ Obligations.ChoppersAndDiagnosis := fun h => not_choppers h.1

end Sys2Proof.Machine
